-- ==== Sys2Proof/Word.lean ====
section
/-! DEFINITION. The word types of the KG6432 model: the byte, the 32-bit setup word (R491) and the 64-bit memory
word of the on-chip memories (R299). -/

namespace Sys2Proof

/-- A byte of a memory, a FIFO or a host buffer. -/
abbrev Byte := BitVec 8

/-- A setup-register word (R491). -/
abbrev Word := BitVec 32

/-- A 64-bit word of an SRAM bank (R299). -/
abbrev DWord := BitVec 64

/-- A run of bytes, lowest address first. -/
abbrev Bytes := List Byte

end Sys2Proof
end

