-- ==== Sys2Proof/Syntax.lean ====
section
/-! DEFINITION. The commands of the KG6432 block: one constructor of `Instr` for each row of the opcode table, with
the operands the command carries. The table gives the rows no bits and no operands; the operand structures below
hold what the rows' rules say arrives with the command (a submission entry, a message, a bus access) or happens
at the part's edge (a die's answer, a decoder's outcome, a gauge's reading): see assumption log 2. -/

namespace Sys2Proof

/-- A command of one controller: controller, submission queue, command identifier. -/
structure CmdRef where
  ctrl : Fin 2
  sqid : Nat
  cid : Nat
  deriving DecidableEq, Repr

/-- Where an admin command came from: the path code of Table 14.1 and its command identifier on that path. -/
structure Adm where
  path : Nat
  cid : Nat
  deriving DecidableEq, Repr

/-- What Identify names: the CNS and the command set identifier. -/
structure IdentifySel where
  cns : Nat
  csi : Nat := 0
  deriving DecidableEq, Repr

/-- The rest of a Set Features: dword 12 and the data of the data pointer. -/
structure FeatureRest where
  cdw12 : Word := 0
  data : Bytes := []
  deriving DecidableEq, Repr

/-- What a patrol read samples and has shown (R266): the codeword, whether its page decoded better below its offset, and the trims the
probes favour. -/
structure PatrolSample where
  cw : Nat := 0
  below : Bool := false
  trims : List Int := []
  deriving DecidableEq, Repr

/-- A submission queue entry of an I/O command as it is fetched (R59, R64), with the host data its data pointer
names. `nlb` is the 0-based field; `ranges` are the Dataset Management ranges or Copy sources as (SLBA, blocks);
`rsvd` tells that a reserved field is not 0; `poisoned` that the fetch of the entry failed (R51). -/
structure Sqe where
  cid : Nat
  opcode : Nat
  nsid : Nat := 1
  slba : Nat := 0
  nlb : Nat := 0
  ranges : List (Nat × Nat) := []
  ad : Bool := false
  deac : Bool := false
  /-- PRACT (bit 3) and PRCHK (bits 2:0: guard, application tag, reference tag). -/
  prinfo : Nat := 0
  /-- PRINFO of the source side of a Copy. -/
  prinfoR : Nat := 0
  ilbrt : Nat := 0
  lbat : Nat := 0
  lbatm : Nat := 0
  /-- Zone Send Action or Zone Receive Action, with Select All. -/
  zsa : Nat := 0
  selAll : Bool := false
  /-- Directive type and specific field: the placement handle. -/
  dtype : Nat := 0
  dspec : Nat := 0
  /-- One run of bytes for each logical block, where host data goes in. -/
  data : List Bytes := []
  md : List Bytes := []
  rsvd : Bool := false
  poisoned : Bool := false
  deriving DecidableEq, Repr

/-- Namespace Management: create with the fields of its data structure, or delete. -/
inductive NsMgmt
  | create (nsze lbaf : Nat) (extended : Bool) (pi : Nat) (piFirst : Bool) (zoned : Bool) (handles : List Nat)
  | delete (nsid : Nat)
  deriving DecidableEq, Repr

/-- The configuration items of NVMe-MI Configuration Get and Set (R461). -/
inductive MiConfig
  | smbusFrequency (port : Fin 2)
  | healthStatusChange
  | mctpUnitSize (port : Fin 3)
  deriving DecidableEq, Repr

/-- An NVMe-MI command, as NVMe-MI Send and Receive carry it (R461, R62). -/
inductive MiCmd
  | readDataStructure (dtyp : Nat)
  | subsystemHealth (clear : Bool)
  | controllerHealth (c : Fin 2)
  | configGet (id : MiConfig)
  | configSet (id : MiConfig) (value : Nat)
  | vpdRead (ofs len : Nat)
  | vpdWrite (ofs : Nat) (data : Bytes)
  | reset
  deriving DecidableEq, Repr

/-- An admin command as NVMe-MI tunnels it: every command of Table 02.6 but those R461 excepts, which a path can
still send and which end with Invalid Command Opcode. -/
inductive AdminCmd
  | excluded
  | getLogPage (lid lsp : Nat)
  | identify (cns csi nsid : Nat)
  | setFeatures (fid : Nat) (sv : Bool) (cdw11 cdw12 : Word) (data : Bytes)
  | getFeatures (fid : Nat) (cdw11 : Word)
  | namespaceManagement (sel : NsMgmt)
  | namespaceAttachment (nsid ctrls : Nat) (attach : Bool)
  | imageDownload (ofst numd : Nat) (data : Bytes)
  | firmwareCommit (ca fs : Nat)
  | deviceSelfTest (stc nsid : Nat)
  | directiveSend (nsid dtype doper value : Nat)
  | directiveReceive (nsid dtype doper : Nat)
  | formatNvm (nsid ses lbaf pi : Nat) (extended piFirst : Bool)
  | sanitize (action : Nat) (ndas : Bool)
  | editionStage (number length : Nat) (blob : Bytes)
  | editionCommit (number : Nat)
  | editionRevert (number : Nat)
  | culvertRebuildStatus
  deriving DecidableEq, Repr

/-- The console's edition command (R462). -/
inductive ConsoleEdition
  | stage (number length : Nat) (blob : Bytes)
  | commit (number : Nat)
  | revert (number : Nat)
  deriving DecidableEq, Repr

/-- What a gauge reads (R463, R465): a temperature code, a rail's mV and 10 mA units, or a fault. -/
inductive GaugeReading
  | temp (code : BitVec 10)
  | rail (mv : BitVec 12) (current : BitVec 16)
  | fault
  deriving DecidableEq, Repr

/-- The TAP instructions of R529. -/
inductive TapInstr
  | bypass | idcode | samplePreload | extest | extestPulse | extestTrain | clamp | highz
  deriving DecidableEq, Repr

/-- An access that meets an uncorrectable word (Table 08.7). -/
inductive MemAccess
  | load | fetch | storeNarrow | storeFull (value : BitVec 64) | dmaRead | dmaWrite | readSlot | programRegion
  | mapWalk | stampWalk | readCounter
  deriving DecidableEq, Repr

/-- The atomic operations of the RV64 A extension that the memories execute (R359). -/
inductive AmoOp | swap | add | and | or | xor | min | max | minu | maxu
  deriving DecidableEq, Repr

/-- What one mailbox port does to the word both ports touch (R358): a read, a plain write with byte enables, or an
atomic or alias write that sets or clears bits. -/
inductive MbxAccess
  | read
  | write (data : BitVec 64) (be : BitVec 8)
  | setBits (data : BitVec 64)
  | clearBits (data : BitVec 64)
  deriving DecidableEq, Repr

/-- The registers of the keyed store sequence (R402). -/
inductive FwsReg | key | cmd | addr
  deriving DecidableEq, Repr

/-- A map update request (Table 05.9). `slot` 0xFFFF_FFFF means none. -/
structure MapReq where
  cond : Bool := false
  target : Nat
  expect : Nat := 0
  new : Nat := 0
  slot : Nat := 0xFFFFFFFF
  aux : Nat := 0
  deriving DecidableEq, Repr

/-- The outcome of one codeword decode as the decoder and the checks behind it find it (R249, R250, R290): a pass
with the count of corrected bits, a claimed pass with a non-zero syndrome, a fail, ERASED, a tag that does not
match, a proof code that does not match. -/
inductive DecodeResult
  | pass (bits : Nat)
  | badSyndrome
  | fail
  | erased
  | tagMismatch
  | proofMismatch
  deriving DecidableEq, Repr

/-- What a decode is for: the member unit it reads (die, block, page, codeword), the decoder that holds its lease,
the ladder step, and whose plan it serves (R157, R253). -/
structure DecodeJob where
  soft : Bool := false
  decoder : Nat
  step : Nat := 0
  die : Nat
  block : Nat
  page : Nat
  cw : Fin 4 := 0
  plan : Nat
  deriving DecidableEq, Repr

/-- A row activation the DRAM controller sees in a turn (R350). -/
structure Activation where
  ch : Fin 12
  subch : Fin 2
  rank : Fin 2
  bank : Fin 32
  row : Nat
  client : Nat
  cls : Fin 4
  times : Nat
  deriving DecidableEq, Repr

/-- What happens at the part's edge in a turn, beside what the state determines: units that overrun (R31),
duplicated pairs that disagree (R43), a voted counter that is outvoted (R502), transfers that fail their interface
CRC (R143), V_HOLD's reading (R312), and the activations of the turn (R350). -/
structure EdgeEnv where
  overruns : List Nat := []
  mismatches : List Nat := []
  misvote : Bool := false
  ifcrcFails : List (Nat × Nat) := []
  vhold : Nat := 0
  activations : List Activation := []
  /-- Plans whose data fails its proof check in the turn, at the headgate exit or before encryption (R290). -/
  proofFails : List Nat := []
  /-- Plans whose galley read meets an uncorrectable word in its copy (R302). -/
  galleyUes : List Nat := []
  /-- Data-in windows, by plan and die, whose data fails its transit check at the channel engine (R290). -/
  transitFails : List (Nat × Nat) := []
  /-- Words of the duplicated structures of R301 that an upset makes uncorrectable in one copy: (unit of R308, word, copy 0 or 1); and the
  words that the units read in the turn. -/
  pairUpsets : List (Nat × Nat × Nat) := []
  pairReads : List (Nat × Nat) := []
  deriving DecidableEq, Repr

/-- The population of one DRAM channel as its mode registers report it (R340, R341). -/
structure DramPop where
  rate : Nat := 0
  x4 : Bool := false
  ranks2 : Bool := false
  density : Nat := 0
  half : Bool := false
  /-- A supported device: DDR5, not RDIMM, x16 or 3DS. -/
  ok : Bool := true
  rfm : Bool := true
  drfm : Bool := true
  deriving DecidableEq, Repr

/-- A die's parameter page, as Boot reads it (R138, R141). -/
structure DieGeom where
  toggle : Bool := false
  pageKiB : Nat := 16
  spare : Nat := 1620
  planes : Nat := 4
  bpc : Nat := 3
  pagesPerBlock : Nat := 2048
  blocksPerPlane : Nat := 2000
  luns : Nat := 1
  multiPlane : Bool := true
  suspend : Bool := true
  slc : Bool := true
  ifcrc : Bool := true
  /-- The fastest rung of Table 04.3 the die supports. -/
  fastest : Nat := 0
  tR : Nat := 52
  tSuspP : Nat := 24
  tSuspE : Nat := 40
  tRs : Nat := 20
  tProg : Nat := 1650
  tErs : Nat := 5000
  /-- SLC program throughput of a die, in MB/s (R319). -/
  slcMBs : Nat := 320
  /-- Vendor data: the page-type pattern and the levels of each page type (R261), and the threshold template: its bytes, and where
  its offset bytes start and how many they are (R163). -/
  ptypes : List Nat := []
  pageMaps : List (List Nat) := []
  template : Bytes := []
  ofsPos : Nat := 0
  ofsCount : Nat := 0
  deriving DecidableEq, Repr

/-- What the board and the package present when power-on reset is released: the straps (R513), the fuses, the DRAM
and NAND populations, and what training and the Boot checks find. Media that hold state between power cycles are the model's
non-volatile state instead. -/
structure Board where
  hostcfg : Fin 4 := 0
  testen : Bool := false
  suffix : Nat := 1
  fusedDom : Nat := 0
  uid : BitVec 64 := 1
  spares : Nat := 4
  dram : List (Option DramPop) := List.replicate 12 (some {})
  /-- DRAM channels whose stored values fail verification and whose full search fails (R344). -/
  dramFail : List Nat := []
  geom : DieGeom := {}
  /-- Dies that the enable chains present on each chip enable of each channel (R136). -/
  diesPerCe : List (Nat × Nat) := List.replicate 64 (8, 8)
  /-- Die positions whose parameter page differs from die 0's (R138). -/
  oddDies : List Nat := []
  /-- The fastest rung at which each channel trains; a channel not listed trains at the build rate (R141). -/
  trainRung : List (Nat × Nat) := []
  /-- Dies whose learning at Boot shows other worst measurements than the rest: T_R, T_SUSP_P, T_SUSP_E, T_PROG, T_ERS (R161). -/
  dieTimes : List (Nat × List Nat) := []
  /-- Dies whose learning saturates a field (R161). -/
  saturating : List Nat := []
  /-- Member blocks that the NAND maker marked bad: die and block (R215). -/
  badBlocks : List (Nat × Nat) := []
  deriving DecidableEq, Repr

/-- The commands: one constructor for each row of the opcode table, in the table's order, but that its first eight rows stand last. -/
inductive Instr
  /-- SQ_TAIL_DOORBELL (R58): A tail doorbell write is observed at the turn edge; the new entries are stamped and their fetch is issued. -/
  | sqTailDoorbell (c : Fin 2) (qid value : Nat)
  /-- CQ_HEAD_DOORBELL (R61): A head doorbell write frees CQ entries, and held completions are posted in order. -/
  | cqHeadDoorbell (c : Fin 2) (qid value : Nat)
  /-- ENTRY_FETCH (R59): The submission entries return from host memory, a context is taken, the quoin is set and checks 1–6 are made. -/
  | entryFetch (c : Fin 2) (sqid : Nat) (entries : List Sqe) (rttNs : Nat)
  /-- FETCH_RESUME_ON_CONTEXT (R56): A paused DC7 or level-0 queue resumes fetching once a context is released. -/
  | fetchResumeOnContext (c : Fin 2)
  /-- ADMISSION_DECISION (R110): The sluice decides a fetched command: it commits the worst-case plan or refuses with a reason and a retry hint. -/
  | admissionDecision
  /-- BEST_EFFORT_COMMIT (R96): A held best-effort command has its background plan committed once capacity, allotment, weir and slots admit it. -/
  | bestEffortCommit (r : CmdRef)
  /-- FLUSH (R68): Flush completes in the turn after its fetch. -/
  | flush (r : CmdRef)
  /-- WRITE (R107): A write is admitted with galley slots and an inbound window, and completes once both galley copies are valid. -/
  | write (r : CmdRef)
  /-- READ (R103): A read is planned as a direct, galley or culvert path with a second chance and completes by its deadline. -/
  | read (r : CmdRef)
  /-- COMPARE (R102): Compare reads the data, compares it with the inbound host data and posts in the turn after. -/
  | compare (r : CmdRef)
  /-- WRITE_ZEROES (R195): Write Zeroes sets whole units to ZEROED, or deallocates them with DEAC, through map-only updates. -/
  | writeZeroes (r : CmdRef)
  /-- DATASET_MANAGEMENT (R194): Dataset Management with AD deallocates whole units and sectors; with AD clear it completes at once. -/
  | datasetManagement (r : CmdRef)
  /-- VERIFY (R93): Verify reads and checks the range without transferring data to the host. -/
  | verify (r : CmdRef)
  /-- COPY (R197): Copy reads every source as at its decision, then lands the destination residencies after the worst-case source read. -/
  | copy (r : CmdRef)
  /-- ZONE_MANAGEMENT_SEND (R201): Zone Management Send changes zone state, deallocating on reset or finish. -/
  | zoneManagementSend (r : CmdRef)
  /-- ZONE_MANAGEMENT_RECEIVE (R201): Zone Management Receive returns zone descriptors. -/
  | zoneManagementReceive (r : CmdRef)
  /-- ZONE_APPEND (R202): Zone Append takes the write pointer at its decision as its LBA. -/
  | zoneAppend (r : CmdRef)
  /-- CREATE_IO_SQ (R62): Create I/O Submission Queue. -/
  | createIoSq (a : Adm) (qid qsize cqid : Nat) (pc : Bool)
  /-- CREATE_IO_CQ (R62): Create I/O Completion Queue. -/
  | createIoCq (a : Adm) (qid qsize vector : Nat) (pc ien : Bool)
  /-- DELETE_IO_SQ (R62): Delete I/O Submission Queue; its outstanding commands end as after a controller reset and its frozen record is discarded. -/
  | deleteIoSq (a : Adm) (qid : Nat)
  /-- DELETE_IO_CQ (R62): Delete I/O Completion Queue. -/
  | deleteIoCq (a : Adm) (qid : Nat)
  /-- GET_LOG_PAGE (R70): Get Log Page returns a supported log, or ends with Invalid Log Page. -/
  | getLogPage (a : Adm) (lid lsp : Nat)
  /-- IDENTIFY (R62): Identify returns the data of a supported CNS. -/
  | identify (a : Adm) (cns : IdentifySel) (nsid : Nat)
  /-- ABORT (R71): Abort acts on the latched state of its target command as Table 02.11 states. -/
  | abort (a : Adm) (sqid cid : Nat)
  /-- SET_FEATURES (R69): Set Features sets a supported standard feature. -/
  | setFeatures (a : Adm) (fid : Nat) (sv : Bool) (cdw11 : Word) (cdw12 : FeatureRest)
  /-- GET_FEATURES (R69): Get Features returns a supported feature. -/
  | getFeatures (a : Adm) (fid : Nat) (cdw11 : Word)
  /-- SET_TWIOT_LEVEL (R79): Set Features FID 0xC0 selects the controller's Twiot level while it has no I/O SQ. -/
  | setTwiotLevel (a : Adm) (sv : Bool) (cdw11 : Word)
  /-- CLASS_BINDING (R80): Set Features FID 0xC1 binds an SQ to a deadline class. -/
  | classBinding (a : Adm) (sv : Bool) (cdw11 : Word)
  /-- ORDERING_MODE (R73): Set Features FID 0xC2 places an SQ in ordered or unordered mode. -/
  | orderingMode (a : Adm) (sv : Bool) (cdw11 : Word)
  /-- KEEP_AWAKE_FLOOR (R439): Set Features FID 0xC3 sets a class's keep-awake domain mask. -/
  | keepAwakeFloor (a : Adm) (sv : Bool) (cdw11 cdw12 : Word)
  /-- POWER_MANAGEMENT (R83): Set Features FID 02h starts a power-state transition, or acts in Conserve as Table 02.19 states. -/
  | powerManagement (a : Adm) (sv : Bool) (ps : Nat)
  /-- TIMESTAMP (R255): Set Features FID 0Eh sets the timestamp, and on the first set the rider advances the Dellux clock. -/
  | timestamp (a : Adm) (sv : Bool) (ms : Nat)
  /-- ASYNCHRONOUS_EVENT_REQUEST (R62): Asynchronous Event Request is held until an event completes it. -/
  | asynchronousEventRequest (a : Adm)
  /-- NAMESPACE_MANAGEMENT (R177): Namespace Management creates or deletes a namespace, allocating granules and generating or removing its key pair. -/
  | namespaceManagement (a : Adm) (sel : NsMgmt)
  /-- NAMESPACE_ATTACHMENT (R54): Namespace Attachment attaches a namespace to a controller or detaches it. -/
  | namespaceAttachment (a : Adm) (nsid ctrls : Nat) (attach : Bool)
  /-- FIRMWARE_IMAGE_DOWNLOAD (R416): Firmware Image Download writes a checked chunk into the download buffer. -/
  | firmwareImageDownload (a : Adm) (ofst numd : Nat) (data : Bytes)
  /-- STREAMED_DOWNLOAD_CHUNK (R417): In Recovery with DRAM untrained, a download chunk is programmed straight into the target slot. -/
  | streamedDownloadChunk (a : Adm) (ofst numd : Nat) (data : Bytes)
  /-- FIRMWARE_COMMIT_REPLACE (R419): Firmware Commit CA 000b writes the buffer into the named slot. -/
  | firmwareCommitReplace (a : Adm) (fs : Nat)
  /-- FIRMWARE_COMMIT_REPLACE_ACTIVATE (R418): Firmware Commit CA 001b writes the slot, then writes a pointer record with NEXT set to it. -/
  | firmwareCommitReplaceActivate (a : Adm) (fs : Nat)
  /-- FIRMWARE_COMMIT_ACTIVATE (R418): Firmware Commit CA 010b writes a pointer record naming an existing valid slot as NEXT. -/
  | firmwareCommitActivate (a : Adm) (fs : Nat)
  /-- FIRMWARE_COMMIT_IMMEDIATE (R421): Firmware Commit CA 011b writes the slot and activates it hitlessly, one cluster at a time. -/
  | firmwareCommitImmediate (a : Adm) (fs : Nat)
  /-- CLUSTER_RELOAD (R421): During activation a cluster leaves the pool, its TCMs are reloaded, it self-checks and it rejoins. -/
  | clusterReload (selfCheckOk : Bool)
  /-- DEVICE_SELF_TEST_SHORT (R482): Device Self-test STC 1h runs one accelerated in-service pass. -/
  | deviceSelfTestShort (a : Adm) (nsid : Nat)
  /-- DEVICE_SELF_TEST_EXTENDED (R482): Device Self-test STC 2h runs the short pass and then a media read of every page address. -/
  | deviceSelfTestExtended (a : Adm) (nsid : Nat)
  /-- DEVICE_SELF_TEST_FULL (R482): Device Self-test STC Eh runs the full staggered test; accepted in Recovery only. -/
  | deviceSelfTestFull (a : Adm) (nsid : Nat)
  /-- DEVICE_SELF_TEST_ABORT (R482): Device Self-test STC Fh aborts the run in progress. -/
  | deviceSelfTestAbort (a : Adm)
  /-- DIRECTIVE_SEND (R62): Directive Send for the Identify and Data Placement directives. -/
  | directiveSend (a : Adm) (nsid dtype doper : Nat) (value : Nat)
  /-- DIRECTIVE_RECEIVE (R62): Directive Receive for the Identify and Data Placement directives. -/
  | directiveReceive (a : Adm) (nsid dtype doper : Nat)
  /-- NVME_MI_SEND (R62): NVMe-MI Send, executed by the rider. -/
  | nvmeMiSend (a : Adm) (m : MiCmd)
  /-- NVME_MI_RECEIVE (R62): NVMe-MI Receive, executed by the rider. -/
  | nvmeMiReceive (a : Adm) (m : MiCmd)
  /-- FORMAT_NVM (R298): Format NVM deallocates every mapped unit of its scope, replacing the key for SES 1h and 2h. -/
  | formatNvm (a : Adm) (nsid ses lbaf pi : Nat) (extended piFirst : Bool)
  /-- SANITIZE_CRYPTO_ERASE (R298): Sanitize crypto-erase replaces every key and deallocates every unit. -/
  | sanitizeCryptoErase (a : Adm) (ndas : Bool)
  /-- SANITIZE_BLOCK_ERASE (R298): Sanitize block erase acts as crypto-erase and also erases every member block. -/
  | sanitizeBlockErase (a : Adm) (ndas : Bool)
  /-- EDITION_STAGE (R472): Edition Stage validates a blob and stores it in both copies as the staged edition. -/
  | editionStage (a : Adm) (number length : Nat) (blob : Bytes)
  /-- EDITION_COMMIT (R474): Edition Commit re-validates the staged edition and switches to it at the next turn edge. -/
  | editionCommit (a : Adm) (number : Nat)
  /-- EDITION_REVERT (R475): Edition Revert switches back to the previous edition. -/
  | editionRevert (a : Adm) (number : Nat)
  /-- EDITION_SWITCH (R34): At the switch edge every RWE field is loaded from the edition, and it governs commands decided from then on. -/
  | editionSwitch
  /-- QUEUE_RESTART (R77): Queue Restart releases a frozen SQ whose freeze sequence matches, and fetching resumes at SQ_HEAD. -/
  | queueRestart (a : Adm) (sqid freezeSeq : Nat)
  /-- CULVERT_REBUILD_STATUS (R274): Culvert Rebuild Status returns the rebuild records. -/
  | culvertRebuildStatus (a : Adm)
  /-- INVALID_ADMIN_OPCODE (R62): An unsupported admin opcode ends with Invalid Command Opcode. -/
  | invalidAdminOpcode (a : Adm) (opcode : Nat)
  /-- CONTROLLER_ENABLE (R532): A write of CC.EN from 0 to 1 sets CSTS.RDY according to the mode. -/
  | controllerEnable (c : Fin 2) (aqa asq acq : Nat)
  /-- CONTROLLER_RESET (R53): A write of CC.EN from 1 to 0 resets the controller; its accepted commands run to their end with their completions discarded. -/
  | controllerReset (c : Fin 2)
  /-- NVM_SUBSYSTEM_RESET (R52): Writing NSSR resets both controllers and retrains both links. -/
  | nvmSubsystemReset (c : Fin 2) (value : Word)
  /-- SHUTDOWN_NOTIFICATION (R480): A normal shutdown completes commands, drains the galley, completes a snapshot, runs the shutdown test and sets SHST. -/
  | shutdownNotification (c : Fin 2) (testResults : List (Nat × Bool))
  /-- ABRUPT_SHUTDOWN (R480): An abrupt shutdown notification runs no test. -/
  | abruptShutdown (c : Fin 2)
  /-- FUNDAMENTAL_RESET (R52): Assertion of PERST_n resets the link's controller and its configuration space, including sticky bits. -/
  | fundamentalReset (port : Fin 2)
  /-- PERST_DEASSERT (R519): Deassertion of PERST_n wakes the port's PHY and HCORE and starts link training. -/
  | perstDeassert (port : Fin 2)
  /-- HOT_RESET (R52): A hot reset or link down resets the controller and keeps the sticky bits. -/
  | hotReset (c : Fin 2)
  /-- FUNCTION_LEVEL_RESET (R52): FLR resets the controller with the link staying up. -/
  | functionLevelReset (c : Fin 2)
  /-- LINK_TRAINED (R47): A link completes training and is planned at its trained rate and width. -/
  | linkTrained (c : Fin 2) (rate width : Nat) (flit : Bool)
  /-- L0P_ENABLE (R49): Enabling L0p makes the sluice plan the link at half its trained width. -/
  | l0pEnable (c : Fin 2) (on : Bool)
  /-- L1_ENTRY (R50): The link enters L1 only while its controller holds no outstanding command. -/
  | l1Entry (c : Fin 2) (l12 : Bool)
  /-- L1_EXIT (R50): The link leaves L1 before the doorbell write that starts a command reaches the headgate. -/
  | l1Exit (c : Fin 2)
  /-- ECRC_FAILURE (R51): A TLP that fails ECRC is dropped and reported through AER. -/
  | ecrcFailure (c : Fin 2)
  /-- POISONED_TLP (R51): Poisoned write data or a failed host read ends the command with Data Transfer Error and touches no data. -/
  | poisonedTlp (r : CmdRef)
  /-- HOST_PORT_FAILURE (R42): A host port fails; the other port continues and the failed port's accepted commands run to their end. -/
  | hostPortFailure (port : Fin 2)
  /-- BAR2_WRITE (R489): A host memory write to BAR2 is ignored and logged. -/
  | bar2Write (c : Fin 2) (addr : Nat) (value : Word)
  /-- BAR2_READ_TIMEOUT (R498): A BAR2 read not returned within 8,192 turns completes with all-ones data. -/
  | bar2ReadTimeout (c : Fin 2) (addr : Nat)
  /-- DIE_READY (R152): The first status poll that shows ready ends a die operation and gives its measured time. -/
  | dieReady (die : Fin 1024) (fail : Bool) (sr : Byte)
  /-- STATUS_TIMEOUT (R154): A die operation passes its timeout; the furrow reports it, issues a LUN reset and counts the event. -/
  | statusTimeout (die : Fin 1024)
  /-- LUN_RESET_COMPLETE (R154): A LUN reset completes and the die returns to plan in the next turn. -/
  | lunResetComplete (die : Fin 1024)
  /-- RETRAIN_START (R144): A retrain begins; the channel is reported down and the sluice treats its unexecuted steps as failed. -/
  | retrainStart (ch : Fin 64)
  /-- RETRAIN_TRAINING_END (R144): A 256-turn training attempt ends: the channel comes up, training drops a rung, or the retrain fails. -/
  | retrainTrainingEnd (ch : Fin 64) (pass : Bool)
  /-- RETRAIN_RETRY (R144): 1,024 turns after a failed retrain, the next retrain starts. -/
  | retrainRetry (ch : Fin 64)
  /-- CHANNEL_UP_RESUME (R146): In the first turn after the channel comes up, its furrows poll busy dies and resume suspended holds. -/
  | channelUpResume (ch : Fin 64)
  /-- RETRAIN_REQ (R145): A write of RETRAIN_REQ requests a background plan holding the channel, and a retrain at TARGET_IDX. -/
  | retrainReq (client : Nat) (ch : Fin 64) (target : Nat)
  /-- CHANNEL_GROUP_WAKE (R155): A channel group completes its 400-turn wake, restoring and checking each engine's PHY. -/
  | channelGroupWake (g : Fin 8) (failed : List Nat)
  /-- DECODE_COMPLETE (R250): A decode ends pass, fail or ERASED, with the syndrome check, tag check and proof check applied. -/
  | decodeComplete (job : DecodeJob) (res : DecodeResult)
  /-- READ_DISTURB_PROBE (R265): Firmware probes a block on a read-disturb report and makes it a refresh victim or halves its count. -/
  | readDisturbProbe (die : Fin 1024) (block cw : Nat)
  /-- PATROL_CYCLE (R266): Each patrol cycle reads one codeword of every 16th page address of closed member blocks that hold mapped data. -/
  | patrolCycle (die : Fin 1024) (block page : Nat) (res : PatrolSample)
  /-- HOST_PLACE (R203): A map update request of kind HOST_PLACE sets the map entry when its slot is the unit's newest residency. -/
  | hostPlace (q : MapReq)
  /-- COND_SET (R37): A COND_SET request sets the map entry only when it still equals EXPECT. -/
  | condSet (q : MapReq)
  /-- MAP_SET (R194): A SET request writes deallocation, ZEROED or LOST unconditionally and supersedes residencies. -/
  | mapSet (q : MapReq)
  /-- OVL_SET (R203): An OVL_SET request sets one field of an overlay record. -/
  | ovlSet (q : MapReq)
  /-- OVL_FREE (R203): An OVL_FREE request frees an overlay record. -/
  | ovlFree (q : MapReq)
  /-- ZONE_UPDATE (R203): A ZONE request sets a zone's state or its write pointer. -/
  | zoneUpdate (q : MapReq)
  /-- FBT_SET (R271): An FBT_SET request rewrites one forme-block table word. -/
  | fbtSet (q : MapReq)
  /-- TABLE_SET (R177): A TABLE_SET request writes one word of the granule table or the namespace table. -/
  | tableSet (q : MapReq)
  /-- JOURNAL_SLOT_PROGRAMMED (R204): A full journal slot is programmed to flash and freed once its proof read passes. -/
  | journalSlotProgrammed (slot : Nat)
  /-- MUP_TAIL_WRITE (R210): Advancing DMC.MUP_PTR.TAIL hands new ring requests to the map update port; a TAIL that would pass HEAD is ignored. -/
  | mupTailWrite (client tail : Nat)
  /-- SNAPSHOT_MARK (R205): Writing SNAP_CTRL.MARK takes a snapshot at the next edge and starts its copy-on-write write-out. -/
  | snapshotMark (client : Nat)
  /-- SNAPSHOT_COMPLETE (R206): Every page of the write-out has passed its proof read, and the snapshot is complete. -/
  | snapshotComplete
  /-- MIRROR_MOVE_START (R189): Writing GLY_MOVE.START begins moving a failed channel's galley copies into the move reserve. -/
  | mirrorMoveStart (client chan : Nat)
  /-- MIRROR_MOVE_COMPLETE (R189): The last slot is moved and the galley offers all its slots again. -/
  | mirrorMoveComplete
  /-- MAP_REPAIR (R355): Writing MAP_REPAIR.GO writes the rebuilt map line at the next turn edge. -/
  | mapRepair (client line : Nat)
  /-- DREDGE_COPY (R227): Dredging copies a victim's valid units to a destination forme-block with conditional map updates. -/
  | dredgeCopy (lane fb unit : Nat)
  /-- VICTIM_ERASE (R229): A victim's member blocks are erased once every copy has resolved and no plan pins them. -/
  | victimErase (lane fb : Nat)
  /-- FORME_BLOCK_OPEN (R220): Imposition or dredging opens a forme-block from free member blocks on 16 channels of one lane. -/
  | formeBlockOpen (lane : Nat) (forDredge : Bool)
  /-- FORME_PROGRAM_PLAN (R268): Imposition issues a forme's background program plan with all 14 data-in windows inside 128 turns. -/
  | formeProgramPlan (lane fb : Nat)
  /-- WEIR_EVALUATION (R222): Every 4,096 turns firmware evaluates φ, sets the weir level and writes SLU.WEIR.RATE. -/
  | weirEvaluation
  /-- SUSTAINABLE_RATE_COMPUTE (R223): Every 65,536 turns firmware computes h_sus and sizes the foreground dredge floor. -/
  | sustainableRateCompute
  /-- ALLOTMENT_TOPUP (R234): Every 4,096 turns in burst mode firmware tops the allotment balance up to its target. -/
  | allotmentTopup
  /-- ALLOT_ADD_WRITE (R120): A write of SLU.ALLOT_ADD adds its value to the allotment balance at the next turn edge. -/
  | allotAddWrite (client : Nat) (value : Word)
  /-- CHAN_OUT_WRITE (R132): Setting a bit of SLU.CHAN_OUT retires a channel; the sluice then books a rebuild. -/
  | chanOutWrite (client : Nat) (m : Fin 2) (value : Word)
  /-- DIE_STATE_WRITE (R133): A write of SLU.DIE_STATE sets a die in service, failing or retired. -/
  | dieStateWrite (client : Nat) (die : Fin 1024) (value : Nat)
  /-- REBUILD_START (R271): On a die or channel retirement, firmware rebuilds the written formes of every forme-block with a member on it. -/
  | rebuildStart
  /-- REBUILD_MEMBER_COMPLETE (R271): A rebuilt member's formes have all passed their proof reads, and its table word is rewritten. -/
  | rebuildMemberComplete (lane fb member : Nat)
  /-- SPARE_RECOMPUTE (R218): The spare ratio and Available Spare are recomputed after a retirement. -/
  | spareRecompute
  /-- SEAL_REQUEST (R240): Writing PMC.MODE_REQ.SEAL switches the device to Sealed mode at a turn edge, or at the end of a Conserve exit. -/
  | sealRequest (client : Nat)
  /-- RECOVER_REQUEST (R454): Writing PMC.MODE_REQ.RECOVER enters Recovery after the steps of R43. -/
  | recoverRequest (client : Nat)
  /-- EARLY_WARNING_EVENT (R239): Firmware raises an early-warning event once per crossing. -/
  | earlyWarningEvent
  /-- PWR_FAIL_ASSERT (R311): PWR_FAIL_n asserts, starting the 1 µs filter. -/
  | pwrFailAssert
  /-- V_HOLD_LOW (R312): The bank voltage falls below V_SPILL, starting the 1 µs filter. -/
  | vHoldLow
  /-- POWER_FAILURE (R311): The 1 µs filter completes; a spill is requested, or in Boot and Recovery the device waits. -/
  | powerFailure
  /-- SPILL_EDGE (R320): At the spill edge the mode becomes Spill, activities end as Table 09.1 states and the spill set is latched. -/
  | spillEdge
  /-- SPILL_COMPLETE (R323): After the seal, or when the spill cannot continue, every domain except PD0 is turned off. -/
  | spillComplete (sealed : Bool)
  /-- SUPPLY_RETURN (R323): With supply back for 1 ms after a spill, the PMC raises an internal power-on reset. -/
  | supplyReturn (b : Board)
  /-- SPILLWAY_RELEASE (R324): Once restored data is placed and journaled, the image is released and its set erased, and HELD clears. -/
  | spillwayRelease
  /-- CISTERN_TEST_START (R315): The hold-up health test begins at first full charge, on its period or on a START write. -/
  | cisternTestStart (client : Option Nat)
  /-- CISTERN_TEST_END (R315): The bank reaches 0.95 × V1; C_UF is computed and RESULT is updated. -/
  | cisternTestEnd
  /-- CISTERN_TEST_TIMEOUT (R315): 1,000,000 turns pass without reaching V2, and the test ends with RESULT 3. -/
  | cisternTestTimeout
  /-- SLOT_CAP_COMPUTE (R316): Every 1,024 turns the PMC computes CAP_SLOTS from the bank voltage and the measured capacitance. -/
  | slotCapCompute
  /-- THERMTRIP (R451): A junction gauge reaches 115 °C and asserts THERMTRIP_n until power-on reset. -/
  | thermtrip
  /-- VOTE_WRITE (R436): A write of PMC.VOTE holds or withdraws the writer's vote on a domain. -/
  | voteWrite (client dom : Nat) (hold : Bool)
  /-- DOMAIN_DROP (R436): 64 turns after its last vote is withdrawn, a voted domain powers off. -/
  | domainDrop (dom : Fin 24)
  /-- IDLE_TIMER_EXPIRY (R437): An idle-timer domain's timer expires; it drops, or the drop is refused and recorded. -/
  | idleTimerExpiry (dom : Fin 24)
  /-- DOMAIN_WAKE_ON_ACCESS (R435): An access to an OFF, WAKING or DROPPING domain wakes it and stalls until it is ON. -/
  | domainWakeOnAccess (dom : Fin 24) (client : Nat)
  /-- DOMAIN_WAKE_COMPLETE (R435): A domain reaches ON after its wake time, and stalled accesses proceed. -/
  | domainWakeComplete (dom : Fin 24)
  /-- DOMAIN_RETIRE (R438): Writing PMC.DOM[n].RETIRE powers the domain off for good and prunes its tree positions. -/
  | domainRetire (client : Nat) (dom : Fin 24)
  /-- CONSERVE_ENTRY_END (R83): The last old-state plan completes and the Conserve domains are off; the mode becomes Conserve. -/
  | conserveEntryEnd
  /-- APST_TRANSITION (R83): Autonomous power-state transition starts an entry to a non-operational state. -/
  | apstTransition (ps : Nat)
  /-- CONSERVE_EXIT_COMPLETE (R442): The last woken domain is ON and the mode becomes Service, or Sealed. -/
  | conserveExitComplete
  /-- PS3_PS4_CHANGE_APPLIED (R533): A change between PS3 and PS4 takes effect once the banks or DRAM halves reach their new state. -/
  | ps3Ps4ChangeApplied
  /-- DRAM_HALF_PS4_WAKE (R443): A DRAM half woken from PS4 restores and verifies its PHY, or runs a full search. -/
  | dramHalfPs4Wake (upper : Bool) (verified : Bool)
  /-- GLOBAL_STATE_BROADCAST (R502): GLOBAL_CMD OP 1 broadcasts die and channel states to every engine and furrow. -/
  | globalStateBroadcast (client : Nat)
  /-- GLOBAL_BARRIER (R26): GLOBAL_CMD OP 2 arms a barrier that completes in 4 turns. -/
  | globalBarrier (client : Nat)
  /-- BARRIER_COMPLETE (R26): The tree's combined ready reaches the root and the barrier completes. -/
  | barrierComplete
  /-- DATA_PLANE_RESET (R40): GLOBAL_CMD OP 3 empties the data-plane queues and calendars, or is refused outside Boot and Recovery. -/
  | dataPlaneReset (client : Nat)
  /-- FABRIC_PARITY_ERROR (R23): A router refuses a flit that fails parity, and the sender re-sends it. -/
  | fabricParityError (unit link : Nat)
  /-- RETIRED_DOMAIN_ACCESS (R25): An access to a retired, absent or fused-off domain completes as a bus error. -/
  | retiredDomainAccess (dom : Fin 24) (client addr : Nat) (write : Bool)
  /-- TRAINING_WRITE_PATTERN (R368): TRAIN_CTRL GO with OP 0 writes a pattern to DRAM lines. -/
  | trainingWritePattern (ch : Fin 12)
  /-- TRAINING_READ_COMPARE (R368): TRAIN_CTRL GO with OP 1 reads lines back and compares them. -/
  | trainingReadCompare (ch : Fin 12)
  /-- TRAINING_WRITE_READ_COMPARE (R368): TRAIN_CTRL GO with OP 2 writes a pattern and then reads and compares it. -/
  | trainingWriteReadCompare (ch : Fin 12)
  /-- ZQ_CALIBRATION (R368): TRAIN_CTRL GO with OP 3 runs ZQ calibration. -/
  | zqCalibration (ch : Fin 12)
  /-- TRAINING_DONE (R368): A training operation ends and reports pass, an error count and the failing lanes. -/
  | trainingDone (ch : Fin 12) (errors lanes : Nat)
  /-- MODE_REGISTER_WRITE (R368): MRW GO with READ clear issues a DRAM mode register write. -/
  | modeRegisterWrite (ch : Fin 12) (mr data : Byte) (subch rank : Bool)
  /-- MODE_REGISTER_READ (R368): MRW GO with READ set issues a DRAM mode register read. -/
  | modeRegisterRead (ch : Fin 12) (mr : Byte) (subch rank : Bool)
  /-- ZERO_FILL (R345): FILL GO starts the channel's zero-fill. -/
  | zeroFill (ch : Fin 12)
  /-- FILL_DONE (R345): The zero-fill ends and the channel becomes ready. -/
  | fillDone (ch : Fin 12)
  /-- DRAM_UNCORRECTABLE (R352): The first uncorrectable error in a block remaps it to the remap reserve. -/
  | dramUncorrectable (block : Nat) (client : Nat)
  /-- REMAP_COPY_COMPLETE (R352): A remap copy ends and every access to the block goes to the target. -/
  | remapCopyComplete (block : Nat)
  /-- HAMMER_WINDOW_EXPIRY (R350): A 32 ms activation window ends and its throttles lapse. -/
  | hammerWindowExpiry (ch : Fin 12)
  /-- DRAM_REFRESH (R349): The controller refreshes rows at tREFI, doubled above 85 °C. -/
  | dramRefresh (ch : Fin 12) (hot : Bool)
  /-- SCRUB_UNCORRECTABLE (R351): The scrubber finds an uncorrectable line, and its block is remapped. -/
  | scrubUncorrectable (ch : Fin 12) (block : Nat)
  /-- SRAM_UNCORRECTABLE (R302): An uncorrectable SRAM or DRAM word reaches its requester as Table 08.7 states. -/
  | sramUncorrectable (code : Nat) (addr client : Nat) (acc : MemAccess)
  /-- BANK_POWER_REQUEST (R360): The owner's write of OCM.BANK.REQ requests ON, RETENTION or OFF. -/
  | bankPowerRequest (client code req : Nat)
  /-- BANK_IDLE_ENTRY (R360): After 64 idle cycles a bank enters RETENTION, writing its canaries, or goes OFF. -/
  | bankIdleEntry (code : Nat)
  /-- BANK_WAKE (R361): An access or an ON request wakes a bank with a sweep or a wake scrub. -/
  | bankWake (code : Nat)
  /-- BANK_WAKE_COMPLETE (R361): The sweep or scrub ends and stalled accesses complete. -/
  | bankWakeComplete (code : Nat) (uncorrectable canaryBad : Bool)
  /-- BANK_LOST_CLEAR (R362): The owner clears LOST, and a held core restarts at its reset vector. -/
  | bankLostClear (client code : Nat)
  /-- BANK_OWNER_WRITE (R356): A write of OCM.BANK.OWNER hands the bank over, taking effect only while it is ON with REQ ON. -/
  | bankOwnerWrite (client code owner : Nat)
  /-- BANK_REDIRECT_WRITE (R373): A write of OCM.BANK.REDIRECT names a spare scratchpad bank. -/
  | bankRedirectWrite (client code spare : Nat)
  /-- BANK_DISABLE (R365): Writing OCM.BANK.DISABLE retires the bank, redirecting it where a spare exists. -/
  | bankDisable (client code : Nat)
  /-- COLUMN_REPAIR (R364): OCM.REPAIR GO burns a one-time field fuse to repair a column. -/
  | columnRepair (client code column : Nat)
  /-- COLUMN_REPAIR_DONE (R364): The fuse burn ends, and REPAIR_STATUS reports done, no spare left or fuse failed. -/
  | columnRepairDone (fuseOk : Bool)
  /-- OCM_FLIPMASK_ARM (R304): Setting OCM.FLIPMASK ARMED makes the next matching SRAM write store with the mask XORed in. -/
  | ocmFlipmaskArm (client : Nat) (w0 w1 w2 : Word)
  /-- DMC_FLIPMASK_ARM (R305): Setting DMC.FLIPMASK ARMED makes the next matching DRAM write store with the mask XORed in. -/
  | dmcFlipmaskArm (client : Nat) (ch : Fin 12) (w0 w1 w2 : Word)
  /-- FLIP_MASK_TAKEN (R303): An armed mask is applied to a write, and ARMED clears in the same cycle. -/
  | flipMaskTaken (dmc : Option (Fin 12)) (client addr : Nat)
  /-- ATOMIC_MEMORY_OPERATION (R359): A compositor AMO is executed at the memory as one read-modify-write. -/
  | atomicMemoryOperation (core : Fin 24) (op : AmoOp) (double : Bool) (addr : Nat) (value : BitVec 64)
  /-- LOAD_RESERVED (R359): LR reserves an aligned 64 B granule. -/
  | loadReserved (core : Fin 24) (double : Bool) (addr : Nat)
  /-- STORE_CONDITIONAL (R359): SC stores only while the reservation stands. -/
  | storeConditional (core : Fin 24) (double : Bool) (addr : Nat) (value : BitVec 64)
  /-- BIT_SET_ALIAS_WRITE (R359): A write to a bit-set alias ORs the value into the word indivisibly. -/
  | bitSetAliasWrite (client addr : Nat) (value : BitVec 64) (be : BitVec 8)
  /-- BIT_CLEAR_ALIAS_WRITE (R359): A write to a bit-clear alias clears the value's bits in the word indivisibly. -/
  | bitClearAliasWrite (client addr : Nat) (value : BitVec 64) (be : BitVec 8)
  /-- MAILBOX_COLLISION (R358): Both mailbox ports touch the same word in one cycle and resolve as Table R358 states. -/
  | mailboxCollision (addr : Nat) (portR portC : MbxAccess)
  /-- DMA_RING_TAIL_WRITE (R378): Advancing DMA.RING_PTR.TAIL makes new descriptors available to the channel. -/
  | dmaRingTailWrite (client : Nat) (ch : Fin 32) (tail : Nat)
  /-- DMA_DESCRIPTOR (R378): A channel fetches, validates and executes a descriptor, then writes back its status. -/
  | dmaDescriptor (ch : Fin 32) (hostErr : Option Nat)
  /-- DMA_BURST (R382): A paced burst starts when the request line is asserted. -/
  | dmaBurst (ch : Fin 32) (err : Nat)
  /-- DMA_REQUEST_WITHDRAWN (R385): A request line withdrawn mid-burst lets the burst complete and sets REQ_DROPPED. -/
  | dmaRequestWithdrawn (ch : Fin 32)
  /-- DMA_ABORT (R386): A write of DMA.CTRL.ABORT ends the descriptor in progress according to its state. -/
  | dmaAbort (client : Nat) (ch : Fin 32)
  /-- DMA_RESUME (R388): A write of DMA.CTRL.RESUME leaves the halted state. -/
  | dmaResume (client : Nat) (ch : Fin 32)
  /-- DMA_ENABLE_WRITE (R392): A write of DMA.CTRL.ENABLE starts or stops the fetching of descriptors. -/
  | dmaEnableWrite (client : Nat) (ch : Fin 32) (enable : Bool)
  /-- FWS_SEQUENCE_WRITE (R402): A write of FWS.KEY, CMD or ADDR advances the keyed command sequence. -/
  | fwsSequenceWrite (client : Nat) (reg : FwsReg) (value : Word)
  /-- FWS_SEQUENCE_TIMEOUT (R402): A sequence not completed within 1,024 cycles sets ERR_SEQ and relocks. -/
  | fwsSequenceTimeout
  /-- PROGRAM_PAGE (R404): PROGRAM_PAGE copies PBUF and programs a page with pulse-and-verify. -/
  | programPage (client addr : Nat) (data : Word)
  /-- ERASE_BLOCK (R405): ERASE_BLOCK sets the block's flag cell and erases it with pulse-and-verify. -/
  | eraseBlock (client addr : Nat)
  /-- ERASE_SUSPEND (R403): ERASE_SUSPEND holds the bank's erase. -/
  | eraseSuspend (client addr : Nat)
  /-- ERASE_RESUME (R403): ERASE_RESUME releases a held erase. -/
  | eraseResume (client addr : Nat)
  /-- CLEAR_FLAG (R405): CLEAR_FLAG blank-checks a block and clears its flag cell. -/
  | clearFlag (client addr : Nat)
  /-- FWS_OPERATION_END (R404): A store program, erase or blank check ends in pass or FAIL. -/
  | fwsOperationEnd (bank : Fin 2) (pass : Bool) (pulses : Nat)
  /-- FWS_ERASE_AUTO_SUSPEND (R407): A read of an erasing bank suspends the erase and is served. -/
  | fwsEraseAutoSuspend (bank : Fin 2) (client : Nat) (fetch : Bool)
  /-- FWS_ERASE_AUTO_RESUME (R407): 64 turns after the last read of the bank, the suspended erase resumes. -/
  | fwsEraseAutoResume (bank : Fin 2)
  /-- XO_DATA_READ (R400): A data load from an execute-only range faults and sets XO_READ. -/
  | xoDataRead (client addr : Nat)
  /-- XO_WRITE (R428): A write of FWS.XO sets an execute-only range, and LOCK freezes it until reset. -/
  | xoWrite (client : Nat) (bank : Fin 2) (value : Word)
  /-- READ_WINDOW_WRITE (R399): A write through the firmware-store read window is dropped and logged. -/
  | readWindowWrite (client addr : Nat) (value : Word)
  /-- DLX_NOW_WRITE (R278): A write of DLX_NOW loads the clock in Boot and Recovery, or adds to it once per Boot otherwise. -/
  | dlxNowWrite (client : Nat) (value : Word)
  /-- PAIR_LO_READ (R496): A read of a _LO word latches the _HI word for the reading client. -/
  | pairLoRead (client addr : Nat)
  /-- RC_FIELD_READ (R493): A firmware read of an RC field returns the count and clears it. -/
  | rcFieldRead (client addr : Nat)
  /-- IRQ_ENABLE_WRITE (R504): A write of IRQ.EN takes effect at once and interrupts for sources already asserted. -/
  | irqEnableWrite (client : Nat) (t : Fin 25) (w : Fin 6) (value : Word)
  /-- REGISTER_WRITE (R495): A write to a setup register with no row of its own takes effect under the access rules. -/
  | registerWrite (client addr : Nat) (value : Word) (width : Nat)
  /-- RIDER_LOCKSTEP_MISMATCH (R35): The rider's lockstep pair mismatches, and the rider restarts within one rotation. -/
  | riderLockstepMismatch
  /-- CLUSTER_WATCHDOG_RESET (R499): A cluster's watchdog resets its cores, with registers and bank states kept. -/
  | clusterWatchdogReset (cluster : Fin 3)
  /-- GAUGE_SAMPLE (R463): A gauge is sampled on its period and its value is pushed into the FIFO when enabled. -/
  | gaugeSample (k : Fin 30) (v : GaugeReading)
  /-- GAUGE_FIFO_POP (R465): A read of GAU.FIFO pops one word. -/
  | gaugeFifoPop (client : Nat)
  /-- RIDER_DOORBELL_SET (R486): A write of RDB_SET sets rider doorbell bits and interrupts the rider. -/
  | riderDoorbellSet (client : Nat) (bits : Word)
  /-- CLUSTER_DOORBELL_SET (R486): A write of CDB_SET sets a cluster's doorbell bits and interrupts its core 0. -/
  | clusterDoorbellSet (client : Nat) (cluster : Fin 3) (bits : Word)
  /-- UART_DATA_READ (R486): A read of UART_DATA pops a received byte. -/
  | uartDataRead (client : Nat)
  /-- UART_DATA_WRITE (R486): A write of UART_DATA pushes a byte for transmission. -/
  | uartDataWrite (client : Nat) (byte : Byte)
  /-- MCTP_RX_POP (R486): A read of MCTP_RX pops 4 B of a received packet. -/
  | mctpRxPop (client : Nat) (p : Fin 3)
  /-- MCTP_TX_PUSH (R486): A write of MCTP_TX pushes 4 B for transmission. -/
  | mctpTxPush (client : Nat) (p : Fin 3) (word : Word)
  /-- READ_NVME_MI_DATA_STRUCTURE (R461): NVMe-MI Read NVMe-MI Data Structure. -/
  | readNvmeMiDataStructure (path dtyp : Nat)
  /-- NVM_SUBSYSTEM_HEALTH_STATUS_POLL (R461): NVMe-MI NVM Subsystem Health Status Poll. -/
  | nvmSubsystemHealthStatusPoll (path : Nat) (clear : Bool)
  /-- CONTROLLER_HEALTH_STATUS_POLL (R461): NVMe-MI Controller Health Status Poll. -/
  | controllerHealthStatusPoll (path : Nat) (c : Fin 2)
  /-- CONFIGURATION_GET (R461): NVMe-MI Configuration Get. -/
  | configurationGet (path : Nat) (id : MiConfig)
  /-- CONFIGURATION_SET (R461): NVMe-MI Configuration Set of the SMBus frequency, health status change or MCTP unit size. -/
  | configurationSet (path : Nat) (id : MiConfig) (value : Nat)
  /-- VPD_READ (R461): NVMe-MI VPD Read. -/
  | vpdRead (path ofs len : Nat)
  /-- VPD_WRITE (R461): NVMe-MI VPD Write. -/
  | vpdWrite (path ofs : Nat) (data : Bytes)
  /-- NVME_MI_RESET (R461): NVMe-MI Reset acts as NVM Subsystem Reset, or boots from Recovery. -/
  | nvmeMiReset (path : Nat)
  /-- NVME_MI_TUNNELLED_ADMIN (R461): An admin command tunnelled through NVMe-MI is executed by the same handler as on an admin queue. -/
  | nvmeMiTunnelledAdmin (path cid : Nat) (c : AdminCmd)
  /-- CONSOLE_STATUS (R462): The UART console command status. -/
  | consoleStatus
  /-- CONSOLE_LOG (R462): The UART console command log. -/
  | consoleLog (format : Nat)
  /-- CONSOLE_EDITION (R462): The UART console command edition stage, commit or revert. -/
  | consoleEdition (op : ConsoleEdition)
  /-- CONSOLE_SELFTEST (R462): The UART console command selftest. -/
  | consoleSelftest (stc : Nat)
  /-- SELF_TEST_IN_SERVICE_PASS (R479): BST.CTRL START with KIND 1 starts an in-service pass. -/
  | selfTestInServicePass (client source : Nat)
  /-- SELF_TEST_SHORT_RUN (R482): BST.CTRL START with KIND 2 starts a short run. -/
  | selfTestShortRun (client source : Nat)
  /-- SELF_TEST_EXTENDED_RUN (R482): BST.CTRL START with KIND 3 starts an extended run. -/
  | selfTestExtendedRun (client source : Nat)
  /-- SELF_TEST_FULL_RUN (R481): BST.CTRL START with KIND 4 starts the full staggered test. -/
  | selfTestFullRun (client source : Nat)
  /-- SELF_TEST_SHUTDOWN_RUN (R480): BST.CTRL START with KIND 5 starts the shutdown test. -/
  | selfTestShutdownRun (client source : Nat)
  /-- SELF_TEST_ABORT (R485): A write of BST.CTRL.ABORT aborts the run in progress. -/
  | selfTestAbort (client : Nat)
  /-- SELF_TEST_SLICE (R479): A self-test slice runs as a background plan on its target. -/
  | selfTestSlice (item inst : Nat) (pass : Bool)
  /-- INTERRUPT_COALESCING_EXPIRY (R61): The aggregation time of Interrupt Coalescing (FID 08h) runs out and the held MSI-X message is sent. -/
  | interruptCoalescingExpiry (c : Fin 2) (vector : Nat)
  /-- L0P_WIDTH_REQUEST (R49): The link partner requests a width reduction, and the KG6432 answers it only down to half the trained width. -/
  | l0pWidthRequest (c : Fin 2) (width : Nat)
  /-- PWR_FAIL_RELEASE (R311): PWR_FAIL_n returns high before the 1 µs filter completes, and the pulse is ignored. -/
  | pwrFailRelease
  /-- SUPPLY_RETURN_WITHOUT_SPILL (R314): After a power failure in Boot or Recovery, the supply returns while the device waits with the data plane held. -/
  | supplyReturnWithoutSpill
  /-- RIDER_WATCHDOG_RESET (R499): The rider's watchdog expires and resets the rider, discarding open firmware-store sequences and the download buffer. -/
  | riderWatchdogReset
  /-- UART_BYTE_RECEIVED (R486): A byte arrives on UART_RX, filling the receive FIFO or setting OVERRUN or FRAME_ERR. -/
  | uartByteReceived (byte : Byte) (frameErr : Bool)
  /-- MCTP_PACKET_RECEIVED (R486): An MCTP packet arrives on an SMBus port or PCIe VDM and enters the receive FIFO, or is lost with RX_OVERFLOW set. -/
  | mctpPacketReceived (p : Fin 3) (packet : Bytes)
  /-- TAP_INSTRUCTION_UPDATE (R529): An instruction is loaded through the IEEE 1149.1 TAP and acts as R529 states, including BYPASS for EXTEST-class instructions without TESTEN. -/
  | tapInstructionUpdate (instr : TapInstr)
  /-- POWER_ON_RESET (R518): Power-on reset is released once POR_n, the rail monitors and the crystal allow it; the PLL locks, the turn counter starts at 0 and Boot step 1 begins. -/
  | powerOnReset (b : Board)
  /-- POR_N_FALL (R520): POR_n falls; it resets the device in Off, Boot or Recovery, and is ignored and logged in the other modes. -/
  | porNFall
  /-- RAIL_MONITOR_TRIP (R517): A rail stays below 90 % of nominal for 2 µs and raises power-on reset at once, in every mode. -/
  | railMonitorTrip (rail : Fin 6)
  /-- BOOT_END (R434): Boot step 7 completes: the host controllers are enabled, CSTS.RDY is set and the mode becomes Service, Sealed or Recovery. -/
  | bootEnd
  /-- TURN_EDGE (R29): A turn edge latches the data-plane state, and every turn-stepped unit performs its one step for the turn. -/
  | turnEdge (e : EdgeEnv)
  /-- PERMANENT_FAULT (R43): A mismatch repeats for 16 consecutive turns; admission stops, the galley drains to flash and the device enters Recovery. -/
  | permanentFault (unit : Nat)
  /-- SPAN_EDGE (R120): At each 16-turn span edge the sluice adds SLU.ALLOT_CREDIT to the allotment balance. -/
  | spanEdge
  /-- ROTATION_EDGE (R33): At each rotation edge the management plane updates health, telemetry, allotment, the thermal model, the log flush and edition bookkeeping. -/
  | rotationEdge
  deriving DecidableEq, Repr

end Sys2Proof
end

