-- ==== Sys2Proof/Decode.lean ====
section
/-! DEFINITION. The decoder over the opcode table's bits. The table gives no row a bit pattern: a command is an event
at one of the part's interfaces, not a word that is fetched. -/

namespace Sys2Proof

/-- The command that a word of the table's bits spells: none, for every width and word. -/
def decodeTableWord (_nbits _w : Nat) : Option Instr := none

end Sys2Proof
end

