-- ==== Sys2Proof/Config.lean ====
section
/-! DEFINITION. The values the spec leaves open, as constants with no body: nothing can be proved of their values, so
every claim holds for all of them. Each is applied to the operands it depends on, or to the plain counter
`State.free`, which the step that takes the value advances (assumption log 7). -/

namespace Sys2Proof.Config

/-- The CODE of a logged event to which Table 14.4 gives no code, by a number that names the kind of event. -/
opaque uncodedEvent : Nat → Nat

/-- The SEV that an event code carries: Table 14.3 gives the scale and no table assigns it. -/
opaque severity : Nat → Nat

/-- A free value of 64 bits (a result the spec calls undefined or does not state). -/
opaque freeWord : Nat → BitVec 64

/-- A free run of bytes of the given length. -/
opaque freeBytes : Nat → Nat → Bytes

/-- Whether a SECDED decoder sees an error of three or more bits in a word as uncorrectable (R300 states the single-
and double-bit cases): data flips, check flips. -/
opaque manyBitUncorrectable : Nat → Nat → Bool

/-- SHA-384 of image bytes (R411). -/
opaque sha384 : Bytes → Nat

/-- ECDSA P-384 verification of trailer bytes 16–83 under the key of a fused, unrevoked key hash: KEY_ID, the signed
bytes, the signature (R412). -/
opaque signatureOk : Nat → Bytes → Bytes → Bool

/-- The bytes of a firmware-store page as the part is shipped (R397, R414 name the areas; their contents are not stated). -/
opaque shippedStore : Nat → Bytes

/-- What a page of the firmware store reads as once an erase of its block has begun and has not passed (R405, R407 state no
contents): by free event and page. -/
opaque tornPage : Nat → Nat → Bytes

/-- The fused security epoch (R412). -/
opaque fusedEpoch : Nat

/-- Bytes of a host-visible log or identify structure that NVM Express defines and this spec does not give: by
structure code and an index. -/
opaque standardData : Nat → Nat → Bytes

/-- exp(−n ÷ τ) where the edition sets TAU_ROT to 0, for which R450 states no value. -/
opaque expZeroTau : Nat → Rat

/-- A decode of a codeword whose read the spec leaves undetermined after an upset of its media (by free counter). -/
opaque freeNat : Nat → Nat

/-- The read-back of a pointer record fails, by its SEQ (R420): no rule says when. -/
opaque pointerFails : Nat → Bool

/-- C_REFRESH: the corrected bits above which firmware refreshes a forme-block (R265, R275 name it and give no value). -/
opaque cRefresh : Nat

/-- AES-XTS-256 (R296) under a key pair, by its number, with a tweak: the keys come from the device's own entropy and no command gives them
(R297). -/
opaque xts : Nat → Nat → Bytes → Bytes

/-- The LDPC parity of 4,117 scrambled information bytes: R246 gives the code's size and rate and not its parity-check matrix. -/
opaque ldpcParity : Bytes → Bytes

end Sys2Proof.Config
end

