-- ==== Sys2Proof/Machine/Bits.lean ====
section
/-! DEFINITION. Bit fields, byte order and small list helpers, shared by every unit. -/

namespace Sys2Proof.Machine

/-- Bits [lo+n-1:lo] of a setup word, as a number. -/
def bitsOf (w : Word) (lo n : Nat) : Nat := w.toNat / 2 ^ lo % 2 ^ n

/-- A setup word with bits [lo+n-1:lo] replaced by `v` (taken modulo the field's width). -/
def putBits (w : Word) (lo n v : Nat) : Word :=
  BitVec.ofNat 32 (w.toNat - bitsOf w lo n * 2 ^ lo + v % 2 ^ n * 2 ^ lo)

/-- Bits [lo+n-1:lo] of a number. -/
def natBits (x lo n : Nat) : Nat := x / 2 ^ lo % 2 ^ n

/-- The little-endian value of a run of bytes (the first byte is the least significant). -/
def leNat : Bytes → Nat
  | [] => 0
  | b :: bs => b.toNat + 256 * leNat bs

/-- A number as `n` bytes, least significant first. -/
def leBytes : Nat → Nat → Bytes
  | 0, _ => []
  | n + 1, v => BitVec.ofNat 8 v :: leBytes n (v / 256)

/-- `n` bytes of one value. -/
def fill (n : Nat) (b : Byte) : Bytes := List.replicate n b

/-- A run of bytes cut or zero-padded to `n` bytes. -/
def padTo (n : Nat) (bs : Bytes) : Bytes := bs.take n ++ fill (n - bs.length) 0

/-- The bytes [ofs, ofs+len) of a run. -/
def slice (bs : Bytes) (ofs len : Nat) : Bytes := (bs.drop ofs).take len

/-- A run of bytes with the bytes from `ofs` on overwritten by `new`. -/
def splice (bs : Bytes) (ofs : Nat) (new : Bytes) : Bytes :=
  bs.take ofs ++ new ++ bs.drop (ofs + new.length)

/-- The number of bits of `x` that are 1 among its low `n`. -/
def popCount : Nat → Nat → Nat
  | 0, _ => 0
  | n + 1, x => x % 2 + popCount n (x / 2)

/-- ⌈a ÷ b⌉. -/
def cdiv (a b : Nat) : Nat := (a + b - 1) / b

/-- The least n with 2^n ≥ x, by search up to 64. -/
def clog2 (x : Nat) : Nat := ((List.range 65).find? (fun n => decide (x ≤ 2 ^ n))).getD 65

/-- A value held below or at a bound. -/
def sat (bound x : Nat) : Nat := min bound x

/-- Lookup in a keyed list: the value of the first pair with that key. -/
def klook {α : Type} (k : Nat) : List (Nat × α) → Option α
  | [] => none
  | (j, v) :: t => if j = k then some v else klook k t

/-- Insert or replace in a list held in strictly rising key order. -/
def kput {α : Type} (k : Nat) (v : α) : List (Nat × α) → List (Nat × α)
  | [] => [(k, v)]
  | (j, w) :: t => if k < j then (k, v) :: (j, w) :: t else if k = j then (k, v) :: t else (j, w) :: kput k v t

/-- Remove a key, wherever it stands. -/
def kdel {α : Type} (k : Nat) : List (Nat × α) → List (Nat × α)
  | [] => []
  | (j, w) :: t => if j = k then kdel k t else (j, w) :: kdel k t

/-- Replace element `i` of a list by `f` of it; a list that short is left alone. -/
def updAt {α : Type} (f : α → α) : Nat → List α → List α
  | _, [] => []
  | 0, a :: t => f a :: t
  | i + 1, a :: t => a :: updAt f i t

/-- Replace every element that a test picks by `f` of it. -/
def updIf {α : Type} (p : α → Bool) (f : α → α) : List α → List α
  | [] => []
  | a :: t => (if p a then f a else a) :: updIf p f t

/-- Set a bit of a number. -/
def setBitNat (x n : Nat) : Nat := if x / 2 ^ n % 2 = 1 then x else x + 2 ^ n

/-- Clear a bit of a number. -/
def clrBitNat (x n : Nat) : Nat := if x / 2 ^ n % 2 = 1 then x - 2 ^ n else x

end Sys2Proof.Machine
end

