-- ==== Sys2Proof/Machine/Codes.lean ====
section
/-! DEFINITION. The check codes of the spec, on bytes: CRC-32C (R287), the PI guard CRC-16 (R291), the ASC CRC-8
(R299), GF(2^8) for P and Q (R267), and the scrambler seed (R247). -/

namespace Sys2Proof.Machine

/-- One bit step of a reflected 32-bit CRC. -/
def crc32cBit (c : Nat) : Nat := if c % 2 = 1 then (c / 2) ^^^ 0x82F63B78 else c / 2

def iter {α : Type} (f : α → α) : Nat → α → α
  | 0, a => a
  | n + 1, a => iter f n (f a)

/-- CRC-32C of a run of bytes (R287). -/
def crc32c (bs : Bytes) : Nat :=
  (bs.foldl (fun c b => iter crc32cBit 8 (c ^^^ b.toNat)) 0xFFFFFFFF) ^^^ 0xFFFFFFFF

/-- One bit step of a most-significant-bit-first CRC of width `w`. -/
def crcMsbBit (w poly : Nat) (c : Nat) : Nat :=
  if c / 2 ^ (w - 1) % 2 = 1 then (c * 2 % 2 ^ w) ^^^ poly else c * 2 % 2 ^ w

/-- The PI guard: CRC-16 with polynomial 0x8BB7, initial value 0, over the block's data (R291). -/
def guard16 (bs : Bytes) : Nat :=
  bs.foldl (fun c b => iter (crcMsbBit 16 0x8BB7) 8 (c ^^^ (b.toNat * 256))) 0

/-- CRC-8 with polynomial 0x2F and initial value 0xFF over a list of bits, first bit first (R299). -/
def crc8Bits (bits : List Bool) : Nat :=
  bits.foldl (fun c b => if (c / 128 % 2 = 1) != b then (c * 2 % 256) ^^^ 0x2F else c * 2 % 256) 0xFF

/-- The seed of the scrambler (R247). -/
def scramblerSeed (block pagesPerBlock page j : Nat) : Nat :=
  ((block * pagesPerBlock + page) * 4 + j) % 8388607 + 1

/-- One byte of the scrambler's sequence: eight steps of the 23-bit register of x^23 + x^18 + 1, with the register after them. R247 gives the
polynomial and the seed; that the register shifts towards its tap 23 and a byte's first bit is its lowest is a DESIGN CHOICE (assumption log
178). -/
def scramblerByte (r : Nat) : Nat × Nat :=
  (List.range 8).foldl (fun a i =>
    let b := (a.2 / 2 ^ 22 + a.2 / 2 ^ 17) % 2
    (a.1 + b * 2 ^ i, a.2 * 2 % 2 ^ 23 + b)) (0, r)

/-- XOR of bytes with the scrambler's sequence from a register on (R247). -/
def scramble : Nat → Bytes → Bytes
  | _, [] => []
  | r, b :: t => let x := scramblerByte r; (b ^^^ BitVec.ofNat 8 x.1) :: scramble x.2 t

/-- Multiplication by g = 0x02 in GF(2^8) with polynomial 0x11D (R267). -/
def gfDouble (x : Nat) : Nat := if x ≥ 128 then (x * 2 % 256) ^^^ 0x1D else x * 2

/-- The P byte of 14 data bytes (R267). -/
def formeP (d : List Nat) : Nat := d.foldl (· ^^^ ·) 0

/-- The Q byte of 14 data bytes: the sum of g^i · d_i, by Horner's rule from member 13 down (R267). -/
def formeQ (d : List Nat) : Nat := d.reverse.foldl (fun q x => gfDouble q ^^^ x) 0

end Sys2Proof.Machine
end

