-- ==== Sys2Proof/Machine/RegMap.lean ====
section
/-! DEFINITION. The setup register map (R488, R490, R505): every register of the 64 MiB setup window with its
place in the window, its instances, and its fields with their types (R17) and reset values, and the name of
every field. The tables follow the register tables of the chapters named in Table 15.1. -/

namespace Sys2Proof.Machine

/-- The field types of Table 00.6 (R17), with `boot` for RW fields writable only in Boot and Recovery (R493). -/
inductive FieldType | ro | rw | boot | w1c | w1s | rc | wo | rwe | rsvd
  deriving DecidableEq, Repr

/-- One field of a register: place, width, type, and the value of its Reset column (of a fuse or strap field, the nominal
board's value, assumption log 3; values that depend on the instance are given by `descReset`). -/
structure FieldDesc where
  lsb : Nat
  width : Nat
  type : FieldType
  reset : Nat
  deriving DecidableEq, Repr

/-- A register or an array of registers: window offset of the first, the array's (count, stride) pairs, the fields. -/
structure RegDesc where
  base : Nat
  dims : List (Nat × Nat)
  fields : List FieldDesc
  deriving DecidableEq, Repr

/-- A field of one register word, by the word's window offset. -/
structure Fld where
  addr : Nat
  lsb : Nat
  width : Nat
  deriving DecidableEq, Repr

/-- Registers of the IDV block (R501). -/
def regsIdv : List RegDesc := [
  ⟨0, [], [⟨0, 16, .ro, 25650⟩, ⟨16, 8, .ro, 1⟩, ⟨24, 8, .rsvd, 0⟩]⟩,
  ⟨4, [], [⟨0, 2, .ro, 1⟩, ⟨2, 30, .rsvd, 0⟩]⟩,
  ⟨8, [], [⟨0, 8, .ro, 176⟩, ⟨8, 24, .rsvd, 0⟩]⟩,
  ⟨12, [], [⟨0, 4, .ro, 3⟩, ⟨4, 8, .ro, 18⟩, ⟨12, 4, .ro, 6⟩, ⟨16, 4, .ro, 6⟩, ⟨20, 12, .rsvd, 0⟩]⟩,
  ⟨16, [], [⟨0, 32, .ro, 131072⟩]⟩,
  ⟨20, [], [⟨0, 1, .rsvd, 0⟩, ⟨1, 23, .ro, 0⟩, ⟨24, 8, .rsvd, 0⟩]⟩,
  ⟨32, [], [⟨0, 32, .ro, 1⟩]⟩,
  ⟨36, [], [⟨0, 32, .ro, 0⟩]⟩,
  ⟨40, [], [⟨0, 32, .ro, 0⟩]⟩,
  ⟨44, [], [⟨0, 32, .ro, 0⟩]⟩]

/-- Registers of the EDC block (R477). -/
def regsEdc : List RegDesc := [
  ⟨65536, [], [⟨0, 32, .ro, 0⟩]⟩,
  ⟨65540, [], [⟨0, 32, .ro, 4294967295⟩]⟩,
  ⟨65544, [], [⟨0, 32, .ro, 4294967295⟩]⟩,
  ⟨65548, [], [⟨0, 3, .ro, 0⟩, ⟨3, 2, .ro, 1⟩, ⟨5, 4, .ro, 0⟩, ⟨9, 23, .rsvd, 0⟩]⟩,
  ⟨65560, [], [⟨0, 8, .ro, 0⟩, ⟨8, 8, .ro, 0⟩, ⟨16, 16, .ro, 0⟩]⟩,
  ⟨65564, [], [⟨0, 16, .ro, 0⟩, ⟨16, 16, .rsvd, 0⟩]⟩,
  ⟨65552, [], [⟨0, 32, .ro, 0⟩]⟩,
  ⟨65556, [], [⟨0, 32, .ro, 0⟩]⟩]

/-- Registers of the PMC block (R335, R336, R337, R338, R454, R455, R456, R457, R458). -/
def regsPmc : List RegDesc := [
  ⟨131072, [], [⟨0, 3, .ro, 1⟩, ⟨3, 3, .ro, 0⟩, ⟨6, 10, .rsvd, 0⟩, ⟨16, 8, .ro, 0⟩, ⟨24, 8, .rsvd, 0⟩]⟩,
  ⟨131076, [], [⟨0, 1, .w1s, 0⟩, ⟨1, 1, .w1s, 0⟩, ⟨2, 30, .rsvd, 0⟩]⟩,
  ⟨131080, [], [⟨0, 3, .ro, 0⟩, ⟨3, 3, .ro, 0⟩, ⟨6, 3, .ro, 0⟩, ⟨9, 1, .ro, 0⟩, ⟨10, 1, .ro, 0⟩, ⟨11, 21, .rsvd, 0⟩]⟩,
  ⟨131088, [], [⟨0, 5, .wo, 0⟩, ⟨5, 1, .wo, 0⟩, ⟨6, 26, .rsvd, 0⟩]⟩,
  ⟨131092, [], [⟨0, 12, .rwe, 256⟩, ⟨12, 12, .rwe, 64⟩, ⟨24, 8, .rwe, 4⟩]⟩,
  ⟨131104, [], [⟨0, 1, .ro, 0⟩, ⟨1, 1, .ro, 1⟩, ⟨2, 7, .ro, 0⟩, ⟨9, 10, .ro, 0⟩, ⟨19, 1, .rwe, 1⟩, ⟨20, 12, .rsvd, 0⟩]⟩,
  ⟨131108, [], [⟨0, 8, .rwe, 100⟩, ⟨8, 8, .rwe, 50⟩, ⟨16, 8, .rwe, 56⟩, ⟨24, 8, .rwe, 1⟩]⟩,
  ⟨131112, [], [⟨0, 8, .ro, 0⟩, ⟨8, 8, .ro, 0⟩, ⟨16, 12, .ro, 960⟩, ⟨28, 1, .ro, 0⟩, ⟨29, 3, .rsvd, 0⟩]⟩,
  ⟨131120, [], [⟨0, 1, .w1c, 0⟩, ⟨1, 1, .w1c, 0⟩, ⟨2, 1, .w1c, 0⟩, ⟨3, 1, .w1c, 0⟩, ⟨4, 1, .w1c, 0⟩, ⟨5, 1, .w1c, 0⟩, ⟨6, 1, .w1c, 0⟩, ⟨7, 25, .rsvd, 0⟩]⟩,
  ⟨131124, [], [⟨0, 1, .rw, 0⟩, ⟨1, 1, .rw, 0⟩, ⟨2, 1, .rw, 0⟩, ⟨3, 1, .rw, 0⟩, ⟨4, 1, .rw, 0⟩, ⟨5, 1, .rw, 0⟩, ⟨6, 1, .rw, 0⟩, ⟨7, 25, .rsvd, 0⟩]⟩,
  ⟨131136, [(8, 4)], [⟨0, 1, .rsvd, 0⟩, ⟨1, 23, .ro, 0⟩, ⟨24, 8, .rsvd, 0⟩]⟩,
  ⟨131328, [(24, 4)], [⟨0, 3, .ro, 0⟩, ⟨3, 2, .ro, 0⟩, ⟨5, 10, .ro, 0⟩, ⟨15, 1, .ro, 0⟩, ⟨16, 1, .w1s, 0⟩, ⟨17, 15, .rsvd, 0⟩]⟩,
  ⟨133120, [], [⟨0, 16, .rwe, 0⟩, ⟨16, 16, .rwe, 0⟩]⟩,
  ⟨133124, [], [⟨0, 16, .rwe, 0⟩, ⟨16, 16, .rwe, 0⟩]⟩,
  ⟨133128, [], [⟨0, 12, .rwe, 0⟩, ⟨12, 7, .rwe, 0⟩, ⟨19, 1, .rsvd, 0⟩, ⟨20, 8, .rw, 0⟩, ⟨28, 4, .rsvd, 0⟩]⟩,
  ⟨133132, [], [⟨0, 16, .rwe, 0⟩, ⟨16, 6, .rwe, 0⟩, ⟨22, 4, .rwe, 6⟩, ⟨26, 5, .rsvd, 0⟩, ⟨31, 1, .w1s, 0⟩]⟩,
  ⟨133136, [], [⟨0, 16, .ro, 0⟩, ⟨16, 1, .ro, 0⟩, ⟨17, 2, .ro, 0⟩, ⟨19, 13, .rsvd, 0⟩]⟩,
  ⟨133140, [], [⟨0, 24, .ro, 0⟩, ⟨24, 8, .rsvd, 0⟩]⟩,
  ⟨133144, [], [⟨0, 19, .ro, 0⟩, ⟨19, 13, .rsvd, 0⟩]⟩,
  ⟨133148, [], [⟨0, 2, .ro, 0⟩, ⟨2, 1, .ro, 0⟩, ⟨3, 1, .ro, 0⟩, ⟨4, 1, .ro, 0⟩, ⟨5, 11, .rsvd, 0⟩, ⟨16, 16, .ro, 0⟩]⟩]

/-- Registers of the PMC block (R338). -/
def regsPmc1 : List RegDesc := [
  ⟨133152, [], [⟨0, 32, .ro, 0⟩]⟩]

/-- Registers of the TRN block (R502). -/
def regsTrn : List RegDesc := [
  ⟨196608, [], [⟨0, 32, .ro, 0⟩]⟩,
  ⟨196612, [], [⟨0, 32, .ro, 0⟩]⟩,
  ⟨196616, [], [⟨0, 2, .wo, 0⟩, ⟨2, 30, .rsvd, 0⟩]⟩,
  ⟨196620, [], [⟨0, 1, .ro, 0⟩, ⟨1, 3, .ro, 0⟩, ⟨4, 2, .ro, 0⟩, ⟨6, 10, .ro, 0⟩, ⟨16, 16, .rsvd, 0⟩]⟩,
  ⟨196624, [], [⟨0, 16, .ro, 0⟩, ⟨16, 16, .rsvd, 0⟩]⟩]

/-- Registers of the SLU block (R125, R126, R127, R128, R129, R130, R131, R132, R133). -/
def regsSlu : List RegDesc := [
  ⟨262144, [], [⟨0, 1, .ro, 0⟩, ⟨1, 1, .ro, 0⟩, ⟨2, 1, .ro, 0⟩, ⟨3, 1, .ro, 0⟩, ⟨4, 3, .ro, 7⟩, ⟨7, 1, .rsvd, 0⟩, ⟨8, 7, .ro, 0⟩, ⟨15, 6, .ro, 32⟩, ⟨21, 4, .ro, 8⟩, ⟨25, 7, .rsvd, 0⟩]⟩,
  ⟨262160, [(8, 8)], [⟨0, 21, .rwe, 0⟩, ⟨21, 11, .rsvd, 0⟩]⟩,
  ⟨262164, [(8, 8)], [⟨0, 5, .rwe, 0⟩, ⟨5, 3, .rsvd, 0⟩, ⟨8, 5, .rwe, 0⟩, ⟨13, 19, .rsvd, 0⟩]⟩,
  ⟨262240, [], [⟨0, 18, .rw, 262143⟩, ⟨18, 14, .rsvd, 0⟩]⟩,
  ⟨262248, [], [⟨0, 32, .ro, 0⟩]⟩,
  ⟨262252, [], [⟨0, 32, .wo, 0⟩]⟩,
  ⟨262256, [], [⟨0, 16, .rw, 0⟩, ⟨16, 16, .rsvd, 0⟩]⟩,
  ⟨262264, [], [⟨0, 12, .rw, 960⟩, ⟨12, 12, .rw, 640⟩, ⟨24, 8, .rsvd, 0⟩]⟩,
  ⟨262272, [(10, 4)], [⟨0, 32, .rc, 0⟩]⟩,
  ⟨262336, [], [⟨0, 16, .rc, 0⟩, ⟨16, 16, .rc, 0⟩]⟩,
  ⟨262352, [(2, 4)], [⟨0, 32, .w1s, 0⟩]⟩,
  ⟨266240, [(1024, 16)], [⟨0, 10, .rw, 1023⟩, ⟨10, 8, .rw, 255⟩, ⟨18, 8, .rw, 255⟩, ⟨26, 6, .rw, 63⟩]⟩,
  ⟨266244, [(1024, 16)], [⟨0, 12, .rw, 4095⟩, ⟨12, 14, .rw, 16383⟩, ⟨26, 6, .rsvd, 0⟩]⟩,
  ⟨266248, [(1024, 16)], [⟨0, 2, .rw, 3⟩, ⟨2, 30, .rsvd, 0⟩]⟩]

/-- Registers of the HGT block (R86, R87, R88, R89, R90, R91). -/
def regsHgt : List RegDesc := [
  ⟨524288, [(2, 4)], [⟨0, 3, .ro, 0⟩, ⟨3, 5, .ro, 0⟩, ⟨8, 1, .ro, 0⟩, ⟨9, 1, .ro, 0⟩, ⟨10, 2, .ro, 0⟩, ⟨12, 20, .rsvd, 0⟩]⟩,
  ⟨524304, [(2, 4)], [⟨0, 20, .rwe, 262144⟩, ⟨20, 12, .rsvd, 0⟩]⟩,
  ⟨524320, [(2, 4)], [⟨0, 21, .ro, 0⟩, ⟨21, 11, .rsvd, 0⟩]⟩,
  ⟨524336, [(2, 4)], [⟨0, 16, .ro, 0⟩, ⟨16, 16, .ro, 0⟩]⟩,
  ⟨524352, [], [⟨0, 2, .ro, 0⟩, ⟨2, 6, .rsvd, 0⟩, ⟨8, 2, .ro, 0⟩, ⟨10, 22, .rsvd, 0⟩]⟩,
  ⟨524368, [], [⟨0, 1, .w1c, 0⟩, ⟨1, 1, .w1c, 0⟩, ⟨2, 1, .w1c, 0⟩, ⟨3, 1, .w1c, 0⟩, ⟨4, 1, .w1c, 0⟩, ⟨5, 1, .w1c, 0⟩, ⟨6, 1, .w1c, 0⟩, ⟨7, 1, .w1c, 0⟩, ⟨8, 24, .rsvd, 0⟩]⟩,
  ⟨524372, [], [⟨0, 1, .rw, 0⟩, ⟨1, 1, .rw, 0⟩, ⟨2, 1, .rw, 0⟩, ⟨3, 1, .rw, 0⟩, ⟨4, 1, .rw, 0⟩, ⟨5, 1, .rw, 0⟩, ⟨6, 1, .rw, 0⟩, ⟨7, 1, .rw, 0⟩, ⟨8, 24, .rsvd, 0⟩]⟩]

/-- Registers of the FCE block (R165, R166, R167, R168, R169, R170). -/
def regsFce : List RegDesc := [
  ⟨1048576, [(64, 16384)], [⟨0, 1, .w1s, 0⟩, ⟨1, 3, .rsvd, 0⟩, ⟨4, 4, .rw, 0⟩, ⟨8, 1, .rw, 0⟩, ⟨9, 23, .rsvd, 0⟩]⟩,
  ⟨1048580, [(64, 16384)], [⟨0, 3, .ro, 6⟩, ⟨3, 5, .ro, 0⟩, ⟨8, 1, .ro, 0⟩, ⟨9, 1, .ro, 0⟩, ⟨10, 4, .ro, 15⟩, ⟨14, 18, .rsvd, 0⟩]⟩,
  ⟨1048584, [(64, 16384)], [⟨0, 4, .rwe, 0⟩, ⟨4, 4, .rwe, 5⟩, ⟨8, 4, .ro, 15⟩, ⟨12, 20, .rsvd, 0⟩]⟩,
  ⟨1048588, [(64, 16384)], [⟨0, 16, .rc, 0⟩, ⟨16, 16, .rc, 0⟩]⟩,
  ⟨1048592, [(64, 16384)], [⟨0, 2, .ro, 0⟩, ⟨2, 16, .ro, 0⟩, ⟨18, 14, .rsvd, 0⟩]⟩,
  ⟨1048596, [(64, 16384)], [⟨0, 6, .ro, 0⟩, ⟨6, 10, .ro, 0⟩, ⟨16, 16, .rsvd, 0⟩]⟩,
  ⟨1048600, [(64, 16384)], [⟨0, 2, .ro, 0⟩, ⟨2, 3, .ro, 0⟩, ⟨5, 2, .ro, 0⟩, ⟨7, 1, .rsvd, 0⟩, ⟨8, 12, .ro, 0⟩, ⟨20, 2, .ro, 0⟩, ⟨22, 10, .rsvd, 0⟩]⟩,
  ⟨1048604, [(64, 16384)], [⟨0, 16, .ro, 0⟩, ⟨16, 16, .ro, 0⟩]⟩,
  ⟨1048608, [(64, 16384)], [⟨0, 1, .w1c, 0⟩, ⟨1, 1, .w1c, 0⟩, ⟨2, 1, .w1c, 0⟩, ⟨3, 1, .w1c, 0⟩, ⟨4, 1, .w1c, 0⟩, ⟨5, 1, .w1c, 0⟩, ⟨6, 1, .w1c, 0⟩, ⟨7, 25, .rsvd, 0⟩]⟩,
  ⟨1048612, [(64, 16384)], [⟨0, 1, .rw, 0⟩, ⟨1, 1, .rw, 0⟩, ⟨2, 1, .rw, 0⟩, ⟨3, 1, .rw, 0⟩, ⟨4, 1, .rw, 0⟩, ⟨5, 1, .rw, 0⟩, ⟨6, 1, .rw, 0⟩, ⟨7, 25, .rsvd, 0⟩]⟩,
  ⟨1048640, [(64, 16384)], [⟨0, 4, .rw, 0⟩, ⟨4, 4, .rw, 0⟩, ⟨8, 3, .rw, 0⟩, ⟨11, 21, .rsvd, 0⟩]⟩,
  ⟨1048644, [(64, 16384), (3, 4)], [⟨0, 32, .rw, 0⟩]⟩]

/-- Registers of the FUR block (R172, R173, R174). -/
def regsFur : List RegDesc := [
  ⟨2097152, [(1024, 1024)], [⟨0, 1, .rw, 0⟩, ⟨1, 3, .rw, 0⟩, ⟨4, 2, .rw, 0⟩, ⟨6, 1, .rw, 0⟩, ⟨7, 1, .rsvd, 0⟩, ⟨8, 1, .rw, 1⟩, ⟨9, 23, .rsvd, 0⟩]⟩,
  ⟨2097156, [(1024, 1024)], [⟨0, 4, .ro, 14⟩, ⟨4, 2, .ro, 0⟩, ⟨6, 1, .ro, 0⟩, ⟨7, 1, .rsvd, 0⟩, ⟨8, 8, .ro, 0⟩, ⟨16, 16, .rsvd, 0⟩]⟩,
  ⟨2097160, [(1024, 1024)], [⟨0, 10, .ro, 0⟩, ⟨10, 8, .ro, 0⟩, ⟨18, 8, .ro, 0⟩, ⟨26, 6, .rsvd, 0⟩]⟩,
  ⟨2097164, [(1024, 1024)], [⟨0, 12, .ro, 0⟩, ⟨12, 14, .ro, 0⟩, ⟨26, 6, .rsvd, 0⟩]⟩,
  ⟨2097168, [(1024, 1024)], [⟨0, 32, .ro, 0⟩]⟩,
  ⟨2097172, [(1024, 1024)], [⟨0, 32, .ro, 0⟩]⟩,
  ⟨2097176, [(1024, 1024)], [⟨0, 2, .ro, 0⟩, ⟨2, 16, .ro, 0⟩, ⟨18, 14, .rsvd, 0⟩]⟩,
  ⟨2097184, [(1024, 1024)], [⟨0, 1, .w1c, 0⟩, ⟨1, 1, .w1c, 0⟩, ⟨2, 1, .w1c, 0⟩, ⟨3, 1, .w1c, 0⟩, ⟨4, 1, .w1c, 0⟩, ⟨5, 27, .rsvd, 0⟩]⟩,
  ⟨2097188, [(1024, 1024)], [⟨0, 1, .rw, 0⟩, ⟨1, 1, .rw, 0⟩, ⟨2, 1, .rw, 0⟩, ⟨3, 1, .rw, 0⟩, ⟨4, 1, .rw, 0⟩, ⟨5, 27, .rsvd, 0⟩]⟩]

/-- Registers of the LDP block (R279, R280, R281). -/
def regsLdp : List RegDesc := [
  ⟨3145728, [], [⟨0, 8, .rw, 8⟩, ⟨8, 10, .rw, 72⟩, ⟨18, 14, .rsvd, 0⟩]⟩,
  ⟨3145736, [], [⟨0, 32, .w1s, 0⟩]⟩,
  ⟨3145740, [], [⟨0, 8, .w1s, 0⟩, ⟨8, 24, .rsvd, 0⟩]⟩,
  ⟨3145744, [], [⟨0, 32, .rc, 0⟩]⟩,
  ⟨3145748, [], [⟨0, 32, .rc, 0⟩]⟩,
  ⟨3145752, [], [⟨0, 32, .rc, 0⟩]⟩,
  ⟨3145756, [], [⟨0, 32, .rc, 0⟩]⟩,
  ⟨3145760, [], [⟨0, 32, .rc, 0⟩]⟩,
  ⟨3145776, [], [⟨0, 6, .rw, 0⟩, ⟨6, 2, .rsvd, 0⟩, ⟨8, 1, .rw, 0⟩, ⟨9, 23, .rsvd, 0⟩]⟩,
  ⟨3145780, [], [⟨0, 32, .rw, 0⟩]⟩,
  ⟨3145784, [(2, 4)], [⟨0, 8, .rw, 89⟩, ⟨8, 8, .rw, 89⟩, ⟨16, 8, .rw, 89⟩, ⟨24, 8, .rw, 89⟩]⟩,
  ⟨3145792, [], [⟨0, 19, .rw, 0⟩, ⟨19, 13, .rsvd, 0⟩]⟩,
  ⟨3145796, [], [⟨0, 5, .rw, 0⟩, ⟨5, 3, .rsvd, 0⟩, ⟨8, 10, .rw, 0⟩, ⟨18, 14, .rsvd, 0⟩]⟩,
  ⟨3145800, [(4, 4)], [⟨0, 2, .rw, 0⟩, ⟨2, 2, .rw, 0⟩, ⟨4, 2, .rw, 0⟩, ⟨6, 2, .rw, 0⟩, ⟨8, 2, .rw, 0⟩, ⟨10, 2, .rw, 0⟩, ⟨12, 2, .rw, 0⟩, ⟨14, 2, .rw, 0⟩, ⟨16, 2, .rw, 0⟩, ⟨18, 2, .rw, 0⟩, ⟨20, 2, .rw, 0⟩, ⟨22, 2, .rw, 0⟩, ⟨24, 2, .rw, 0⟩, ⟨26, 2, .rw, 0⟩, ⟨28, 2, .rw, 0⟩, ⟨30, 2, .rw, 0⟩]⟩,
  ⟨3145816, [(4, 4)], [⟨0, 3, .rw, 0⟩, ⟨3, 1, .rsvd, 0⟩, ⟨4, 4, .rw, 0⟩, ⟨8, 4, .rw, 0⟩, ⟨12, 4, .rw, 0⟩, ⟨16, 4, .rw, 0⟩, ⟨20, 4, .rw, 0⟩, ⟨24, 4, .rw, 0⟩, ⟨28, 4, .rw, 0⟩]⟩,
  ⟨3145832, [], [⟨0, 32, .rc, 0⟩]⟩,
  ⟨3145840, [], [⟨0, 5, .rw, 0⟩, ⟨5, 3, .rsvd, 0⟩, ⟨8, 4, .rw, 0⟩, ⟨12, 20, .rsvd, 0⟩]⟩,
  ⟨3145844, [], [⟨0, 16, .rw, 0⟩, ⟨16, 16, .ro, 0⟩]⟩,
  ⟨3145848, [], [⟨0, 19, .rw, 0⟩, ⟨19, 13, .rsvd, 0⟩]⟩,
  ⟨3145852, [], [⟨0, 32, .rwe, 98304⟩]⟩]

/-- Registers of the LDP block (R282). -/
def regsLdp1 : List RegDesc := [
  ⟨3145856, [], [⟨0, 1, .w1c, 0⟩, ⟨1, 1, .w1c, 0⟩, ⟨2, 1, .w1c, 0⟩, ⟨3, 29, .rsvd, 0⟩]⟩,
  ⟨3145860, [], [⟨0, 1, .rw, 0⟩, ⟨1, 1, .rw, 0⟩, ⟨2, 1, .rw, 0⟩, ⟨3, 29, .rsvd, 0⟩]⟩]

/-- Registers of the FRM block (R283). -/
def regsFrm : List RegDesc := [
  ⟨3407872, [], [⟨0, 5, .rw, 0⟩, ⟨5, 3, .rsvd, 0⟩, ⟨8, 3, .rw, 4⟩, ⟨11, 21, .rsvd, 0⟩]⟩,
  ⟨3407876, [], [⟨0, 8, .ro, 0⟩, ⟨8, 1, .ro, 0⟩, ⟨9, 23, .rsvd, 0⟩]⟩,
  ⟨3407880, [], [⟨0, 32, .rc, 0⟩]⟩,
  ⟨3407884, [], [⟨0, 32, .rc, 0⟩]⟩,
  ⟨3407888, [], [⟨0, 1, .w1c, 0⟩, ⟨1, 31, .rsvd, 0⟩]⟩,
  ⟨3407892, [], [⟨0, 1, .rw, 0⟩, ⟨1, 31, .rsvd, 0⟩]⟩]

/-- Registers of the DMC block (R367, R368, R369). -/
def regsDmc : List RegDesc := [
  ⟨3932160, [(12, 16384)], [⟨0, 2, .boot, 0⟩, ⟨2, 1, .boot, 0⟩, ⟨3, 1, .boot, 0⟩, ⟨4, 2, .boot, 0⟩, ⟨6, 1, .boot, 0⟩, ⟨7, 1, .boot, 0⟩, ⟨8, 24, .rsvd, 0⟩]⟩,
  ⟨3932164, [(12, 16384)], [⟨0, 3, .ro, 0⟩, ⟨3, 1, .ro, 0⟩, ⟨4, 4, .ro, 0⟩, ⟨8, 4, .ro, 0⟩, ⟨12, 20, .rsvd, 0⟩]⟩,
  ⟨3932176, [(12, 16384)], [⟨0, 1, .w1s, 0⟩, ⟨1, 3, .rw, 0⟩, ⟨4, 1, .rw, 0⟩, ⟨5, 1, .rw, 0⟩, ⟨6, 5, .rw, 0⟩, ⟨11, 10, .rw, 0⟩, ⟨21, 11, .rsvd, 0⟩]⟩,
  ⟨3932180, [(12, 16384)], [⟨0, 2, .rw, 0⟩, ⟨2, 30, .rw, 0⟩]⟩,
  ⟨3932184, [(12, 16384)], [⟨0, 1, .ro, 0⟩, ⟨1, 1, .ro, 0⟩, ⟨2, 14, .rsvd, 0⟩, ⟨16, 16, .ro, 0⟩]⟩,
  ⟨3932188, [(12, 16384)], [⟨0, 32, .ro, 0⟩]⟩,
  ⟨3932192, [(12, 16384)], [⟨0, 8, .ro, 0⟩, ⟨8, 24, .rsvd, 0⟩]⟩,
  ⟨3932196, [(12, 16384)], [⟨0, 6, .rw, 0⟩, ⟨6, 1, .rw, 0⟩, ⟨7, 1, .rw, 0⟩, ⟨8, 2, .rw, 0⟩, ⟨10, 22, .rsvd, 0⟩]⟩,
  ⟨3932200, [(12, 16384)], [⟨0, 10, .boot, 0⟩, ⟨10, 22, .rsvd, 0⟩]⟩,
  ⟨3932204, [(12, 16384)], [⟨0, 8, .rw, 0⟩, ⟨8, 8, .rw, 0⟩, ⟨16, 1, .rw, 0⟩, ⟨17, 1, .rw, 0⟩, ⟨18, 1, .rw, 0⟩, ⟨19, 1, .w1s, 0⟩, ⟨20, 8, .ro, 0⟩, ⟨28, 4, .rsvd, 0⟩]⟩,
  ⟨3932208, [(12, 16384)], [⟨0, 1, .w1s, 0⟩, ⟨1, 1, .ro, 0⟩, ⟨2, 30, .rsvd, 0⟩]⟩,
  ⟨3932224, [(12, 16384)], [⟨0, 12, .rwe, 500⟩, ⟨12, 20, .rsvd, 0⟩]⟩,
  ⟨3932228, [(12, 16384)], [⟨0, 8, .rwe, 8⟩, ⟨8, 8, .rwe, 4⟩, ⟨16, 8, .ro, 28⟩, ⟨24, 8, .rsvd, 0⟩]⟩,
  ⟨3932240, [(12, 16384)], [⟨0, 16, .rwe, 4096⟩, ⟨16, 8, .rwe, 125⟩, ⟨24, 1, .ro, 0⟩, ⟨25, 1, .ro, 0⟩, ⟨26, 6, .rsvd, 0⟩]⟩,
  ⟨3932244, [(12, 16384)], [⟨0, 10, .ro, 0⟩, ⟨10, 5, .ro, 0⟩, ⟨15, 1, .ro, 0⟩, ⟨16, 1, .ro, 0⟩, ⟨17, 15, .rsvd, 0⟩]⟩,
  ⟨3932248, [(12, 16384)], [⟨0, 18, .ro, 0⟩, ⟨18, 14, .rsvd, 0⟩]⟩,
  ⟨3932252, [(12, 16384)], [⟨0, 32, .rc, 0⟩]⟩,
  ⟨3932256, [(12, 16384)], [⟨0, 4, .rwe, 4⟩, ⟨4, 1, .rwe, 1⟩, ⟨5, 11, .rsvd, 0⟩, ⟨16, 16, .ro, 0⟩]⟩,
  ⟨3932272, [(12, 16384)], [⟨0, 13, .ro, 0⟩, ⟨13, 19, .rsvd, 0⟩]⟩,
  ⟨3932276, [(12, 16384)], [⟨0, 8, .ro, 0⟩, ⟨8, 8, .ro, 0⟩, ⟨16, 8, .ro, 0⟩, ⟨24, 8, .ro, 0⟩]⟩]

/-- Registers of the DMC block (R208, R209, R210, R304, R305, R370, R371). -/
def regsDmc1 : List RegDesc := [
  ⟨3932288, [(12, 16384)], [⟨0, 1, .w1c, 0⟩, ⟨1, 1, .w1c, 0⟩, ⟨2, 1, .w1c, 0⟩, ⟨3, 1, .w1c, 0⟩, ⟨4, 1, .w1c, 0⟩, ⟨5, 1, .w1c, 0⟩, ⟨6, 1, .w1c, 0⟩, ⟨7, 25, .rsvd, 0⟩]⟩,
  ⟨3932292, [(12, 16384)], [⟨0, 1, .rw, 0⟩, ⟨1, 1, .rw, 0⟩, ⟨2, 1, .rw, 0⟩, ⟨3, 1, .rw, 0⟩, ⟨4, 1, .rw, 0⟩, ⟨5, 1, .rw, 0⟩, ⟨6, 1, .rw, 0⟩, ⟨7, 25, .rsvd, 0⟩]⟩,
  ⟨3936000, [(12, 16384)], [⟨0, 32, .rw, 0⟩]⟩,
  ⟨3936004, [(12, 16384)], [⟨0, 32, .rw, 0⟩]⟩,
  ⟨3936008, [(12, 16384)], [⟨0, 8, .rw, 0⟩, ⟨8, 8, .rw, 0⟩, ⟨16, 3, .rw, 0⟩, ⟨19, 1, .rw, 0⟩, ⟨20, 10, .rw, 1023⟩, ⟨30, 1, .rsvd, 0⟩, ⟨31, 1, .w1s, 0⟩]⟩,
  ⟨3936256, [], [⟨0, 3, .ro, 0⟩, ⟨3, 1, .ro, 0⟩, ⟨4, 12, .ro, 0⟩, ⟨16, 6, .ro, 0⟩, ⟨22, 10, .rsvd, 0⟩]⟩,
  ⟨3936260, [], [⟨0, 10, .ro, 0⟩, ⟨10, 1, .ro, 0⟩, ⟨11, 21, .rsvd, 0⟩]⟩,
  ⟨3936264, [], [⟨0, 10, .boot, 0⟩, ⟨10, 22, .rsvd, 0⟩]⟩,
  ⟨3936268, [], [⟨0, 12, .rw, 0⟩, ⟨12, 20, .rsvd, 0⟩]⟩,
  ⟨3936272, [], [⟨0, 30, .rw, 0⟩, ⟨30, 1, .w1s, 0⟩, ⟨31, 1, .ro, 0⟩]⟩,
  ⟨3936276, [], [⟨0, 19, .rw, 0⟩, ⟨19, 13, .rsvd, 0⟩]⟩,
  ⟨3936280, [], [⟨0, 8, .ro, 0⟩, ⟨8, 24, .rsvd, 0⟩]⟩,
  ⟨4128768, [], [⟨0, 2, .rw, 0⟩, ⟨2, 28, .rw, 0⟩, ⟨30, 2, .rsvd, 0⟩]⟩,
  ⟨4128772, [], [⟨0, 9, .rw, 0⟩, ⟨9, 23, .rsvd, 0⟩]⟩,
  ⟨4128776, [], [⟨0, 5, .rw, 0⟩, ⟨5, 3, .rsvd, 0⟩, ⟨8, 5, .rw, 0⟩, ⟨13, 19, .rsvd, 0⟩]⟩,
  ⟨4128784, [], [⟨0, 19, .ro, 262144⟩, ⟨19, 13, .rsvd, 0⟩]⟩,
  ⟨4128788, [], [⟨0, 19, .ro, 0⟩, ⟨19, 13, .rsvd, 0⟩]⟩,
  ⟨4128792, [], [⟨0, 4, .rw, 0⟩, ⟨4, 1, .w1s, 0⟩, ⟨5, 1, .ro, 0⟩, ⟨6, 10, .rsvd, 0⟩, ⟨16, 16, .ro, 0⟩]⟩,
  ⟨4128800, [], [⟨0, 5, .rw, 0⟩, ⟨5, 3, .rsvd, 0⟩, ⟨8, 4, .rw, 0⟩, ⟨12, 20, .rsvd, 0⟩]⟩,
  ⟨4128804, [], [⟨0, 16, .rw, 0⟩, ⟨16, 16, .ro, 0⟩]⟩]

/-- Registers of the DMC block (R211, R212, R213). -/
def regsDmc2 : List RegDesc := [
  ⟨4128816, [], [⟨0, 17, .ro, 0⟩, ⟨17, 1, .ro, 0⟩, ⟨18, 14, .rsvd, 0⟩]⟩,
  ⟨4128824, [], [⟨0, 32, .ro, 0⟩]⟩,
  ⟨4128828, [], [⟨0, 32, .ro, 0⟩]⟩,
  ⟨4128832, [], [⟨0, 1, .w1s, 0⟩, ⟨1, 31, .rsvd, 0⟩]⟩,
  ⟨4128836, [], [⟨0, 1, .ro, 0⟩, ⟨1, 1, .w1c, 0⟩, ⟨2, 1, .ro, 0⟩, ⟨3, 5, .rsvd, 0⟩, ⟨8, 23, .ro, 0⟩, ⟨31, 1, .rsvd, 0⟩]⟩,
  ⟨4128840, [], [⟨0, 32, .ro, 0⟩]⟩,
  ⟨4128844, [], [⟨0, 32, .ro, 0⟩]⟩,
  ⟨4128848, [], [⟨0, 29, .ro, 0⟩, ⟨29, 3, .rsvd, 0⟩]⟩,
  ⟨4128852, [], [⟨0, 3, .rwe, 7⟩, ⟨3, 29, .rsvd, 0⟩]⟩]

/-- Registers of the DMA block (R392, R393, R394, R395). -/
def regsDma : List RegDesc := [
  ⟨4194304, [(32, 256)], [⟨0, 1, .rw, 0⟩, ⟨1, 1, .w1s, 0⟩, ⟨2, 1, .w1s, 0⟩, ⟨3, 29, .rsvd, 0⟩]⟩,
  ⟨4194308, [(32, 256)], [⟨0, 2, .ro, 0⟩, ⟨2, 4, .ro, 0⟩, ⟨6, 1, .ro, 0⟩, ⟨7, 25, .rsvd, 0⟩]⟩,
  ⟨4194312, [(32, 256)], [⟨0, 12, .rsvd, 0⟩, ⟨12, 20, .rw, 0⟩]⟩,
  ⟨4194316, [(32, 256)], [⟨0, 16, .rw, 0⟩, ⟨16, 16, .rsvd, 0⟩]⟩,
  ⟨4194320, [(32, 256)], [⟨0, 4, .rw, 0⟩, ⟨4, 28, .rsvd, 0⟩]⟩,
  ⟨4194324, [(32, 256)], [⟨0, 16, .rw, 0⟩, ⟨16, 16, .ro, 0⟩]⟩,
  ⟨4194328, [(32, 256)], [⟨0, 10, .rwe, 96⟩, ⟨10, 6, .rwe, 63⟩, ⟨16, 16, .rsvd, 0⟩]⟩,
  ⟨4194332, [(32, 256)], [⟨0, 32, .ro, 0⟩]⟩,
  ⟨4194344, [(32, 256)], [⟨0, 32, .rc, 0⟩]⟩,
  ⟨4194336, [(32, 256)], [⟨0, 1, .w1c, 0⟩, ⟨1, 1, .w1c, 0⟩, ⟨2, 1, .w1c, 0⟩, ⟨3, 1, .w1c, 0⟩, ⟨4, 28, .rsvd, 0⟩]⟩,
  ⟨4194340, [(32, 256)], [⟨0, 1, .rw, 0⟩, ⟨1, 1, .rw, 0⟩, ⟨2, 1, .rw, 0⟩, ⟨3, 1, .rw, 0⟩, ⟨4, 28, .rsvd, 0⟩]⟩]

/-- Registers of the OCM block (R304, R373). -/
def regsOcm : List RegDesc := [
  ⟨4259840, [], [⟨0, 8, .ro, 0⟩, ⟨8, 8, .ro, 0⟩, ⟨16, 16, .rsvd, 0⟩]⟩,
  ⟨4259844, [], [⟨0, 1, .w1c, 0⟩, ⟨1, 1, .w1c, 0⟩, ⟨2, 1, .w1c, 0⟩, ⟨3, 1, .w1c, 0⟩, ⟨4, 28, .rsvd, 0⟩]⟩,
  ⟨4259856, [], [⟨0, 5, .rwe, 16⟩, ⟨5, 27, .rsvd, 0⟩]⟩,
  ⟨4259860, [], [⟨0, 32, .rwe, 1513920225⟩]⟩,
  ⟨4259864, [], [⟨0, 32, .rc, 0⟩]⟩,
  ⟨4259872, [], [⟨0, 8, .rw, 0⟩, ⟨8, 11, .rw, 0⟩, ⟨19, 1, .w1s, 0⟩, ⟨20, 12, .rsvd, 0⟩]⟩,
  ⟨4259876, [], [⟨0, 1, .ro, 0⟩, ⟨1, 2, .ro, 0⟩, ⟨3, 29, .rsvd, 0⟩]⟩,
  ⟨4259848, [], [⟨0, 1, .rw, 0⟩, ⟨1, 1, .rw, 0⟩, ⟨2, 1, .rw, 0⟩, ⟨3, 1, .rw, 0⟩, ⟨4, 28, .rsvd, 0⟩]⟩,
  ⟨4260096, [(192, 4)], [⟨0, 2, .ro, 0⟩, ⟨2, 2, .rw, 1⟩, ⟨4, 1, .w1c, 0⟩, ⟨5, 1, .ro, 0⟩, ⟨6, 3, .ro, 4⟩, ⟨9, 1, .rsvd, 0⟩, ⟨10, 10, .rw, 96⟩, ⟨20, 1, .w1s, 0⟩, ⟨21, 8, .rw, 255⟩, ⟨29, 3, .rsvd, 0⟩]⟩,
  ⟨4263680, [], [⟨0, 32, .rw, 0⟩]⟩,
  ⟨4263684, [], [⟨0, 32, .rw, 0⟩]⟩,
  ⟨4263688, [], [⟨0, 8, .rw, 0⟩, ⟨8, 8, .rw, 0⟩, ⟨16, 10, .rw, 1023⟩, ⟨26, 5, .rsvd, 0⟩, ⟨31, 1, .w1s, 0⟩]⟩]

/-- Registers of the FWS block (R425, R426, R427, R428, R429). -/
def regsFws : List RegDesc := [
  ⟨4325376, [], [⟨0, 16, .wo, 0⟩, ⟨16, 16, .rsvd, 0⟩]⟩,
  ⟨4325380, [], [⟨0, 8, .rw, 0⟩, ⟨8, 24, .rsvd, 0⟩]⟩,
  ⟨4325384, [], [⟨0, 27, .rw, 0⟩, ⟨27, 5, .rsvd, 0⟩]⟩,
  ⟨4325388, [], [⟨0, 32, .wo, 0⟩]⟩,
  ⟨4325392, [], [⟨0, 3, .ro, 0⟩, ⟨3, 10, .ro, 0⟩, ⟨13, 1, .w1c, 0⟩, ⟨14, 1, .w1c, 0⟩, ⟨15, 1, .w1c, 0⟩, ⟨16, 1, .w1c, 0⟩, ⟨17, 1, .w1c, 0⟩, ⟨18, 14, .rsvd, 0⟩]⟩,
  ⟨4325396, [(2, 4)], [⟨0, 3, .ro, 0⟩, ⟨3, 1, .w1c, 0⟩, ⟨4, 6, .ro, 0⟩, ⟨10, 8, .ro, 0⟩, ⟨18, 14, .ro, 0⟩]⟩,
  ⟨4325408, [(2, 4)], [⟨0, 8, .rw, 0⟩, ⟨8, 8, .rw, 0⟩, ⟨16, 1, .rw, 0⟩, ⟨17, 14, .rsvd, 0⟩, ⟨31, 1, .w1s, 0⟩]⟩,
  ⟨4325424, [], [⟨0, 1, .w1c, 0⟩, ⟨1, 1, .w1c, 0⟩, ⟨2, 1, .w1c, 0⟩, ⟨3, 1, .w1c, 0⟩, ⟨4, 1, .w1c, 0⟩, ⟨5, 27, .rsvd, 0⟩]⟩,
  ⟨4325428, [], [⟨0, 1, .rw, 0⟩, ⟨1, 1, .rw, 0⟩, ⟨2, 1, .rw, 0⟩, ⟨3, 1, .rw, 0⟩, ⟨4, 1, .rw, 0⟩, ⟨5, 27, .rsvd, 0⟩]⟩,
  ⟨4325632, [(16, 4)], [⟨0, 32, .ro, 0⟩]⟩,
  ⟨4329472, [(128, 4)], [⟨0, 32, .rw, 0⟩]⟩]

/-- Registers of the MBX block (R486). -/
def regsMbx : List RegDesc := [
  ⟨4390912, [], [⟨0, 32, .wo, 0⟩]⟩,
  ⟨4390916, [], [⟨0, 32, .w1c, 0⟩]⟩,
  ⟨4390928, [(3, 8)], [⟨0, 32, .wo, 0⟩]⟩,
  ⟨4390932, [(3, 8)], [⟨0, 32, .w1c, 0⟩]⟩,
  ⟨4391168, [], [⟨0, 16, .rw, 270⟩, ⟨16, 1, .rw, 1⟩, ⟨17, 15, .rsvd, 0⟩]⟩,
  ⟨4391172, [], [⟨0, 6, .ro, 0⟩, ⟨6, 6, .ro, 32⟩, ⟨12, 1, .w1c, 0⟩, ⟨13, 1, .w1c, 0⟩, ⟨14, 18, .rsvd, 0⟩]⟩,
  ⟨4391176, [], [⟨0, 8, .rw, 0⟩, ⟨8, 24, .rsvd, 0⟩]⟩,
  ⟨4391424, [(3, 32)], [⟨0, 7, .rwe, 29⟩, ⟨7, 2, .rw, 0⟩, ⟨9, 1, .rw, 1⟩, ⟨10, 22, .rsvd, 0⟩]⟩,
  ⟨4391428, [(3, 32)], [⟨0, 11, .ro, 0⟩, ⟨11, 11, .ro, 1024⟩, ⟨22, 1, .w1c, 0⟩, ⟨23, 9, .rsvd, 0⟩]⟩,
  ⟨4391432, [(3, 32)], [⟨0, 32, .ro, 0⟩]⟩,
  ⟨4391436, [(3, 32)], [⟨0, 32, .wo, 0⟩]⟩]

/-- Registers of the GAU block (R465). -/
def regsGau : List RegDesc := [
  ⟨4456448, [], [⟨0, 1, .rw, 0⟩, ⟨1, 4, .rw, 5⟩, ⟨5, 8, .rwe, 0⟩, ⟨13, 19, .rsvd, 0⟩]⟩,
  ⟨4456452, [], [⟨0, 32, .ro, 0⟩]⟩,
  ⟨4456456, [], [⟨0, 10, .ro, 0⟩, ⟨10, 1, .w1c, 0⟩, ⟨11, 21, .rsvd, 0⟩]⟩,
  ⟨4456480, [], [⟨0, 1, .w1c, 0⟩, ⟨1, 1, .w1c, 0⟩, ⟨2, 1, .w1c, 0⟩, ⟨3, 29, .rsvd, 0⟩]⟩,
  ⟨4456464, [], [⟨0, 32, .ro, 0⟩]⟩,
  ⟨4456468, [], [⟨0, 32, .ro, 0⟩]⟩,
  ⟨4456484, [], [⟨0, 1, .rw, 0⟩, ⟨1, 1, .rw, 0⟩, ⟨2, 1, .rw, 0⟩, ⟨3, 29, .rsvd, 0⟩]⟩,
  ⟨4456704, [(24, 4)], [⟨0, 10, .ro, 0⟩, ⟨10, 20, .rsvd, 0⟩, ⟨30, 1, .ro, 0⟩, ⟨31, 1, .ro, 0⟩]⟩,
  ⟨4456800, [(6, 4)], [⟨0, 12, .ro, 0⟩, ⟨12, 16, .ro, 0⟩, ⟨28, 2, .rsvd, 0⟩, ⟨30, 1, .ro, 0⟩, ⟨31, 1, .ro, 0⟩]⟩]

/-- Registers of the ERC block (R307, R308, R309). -/
def regsErc : List RegDesc := [
  ⟨4521984, [], [⟨0, 1, .w1c, 0⟩, ⟨1, 1, .w1c, 0⟩, ⟨2, 1, .w1c, 0⟩, ⟨3, 1, .w1c, 0⟩, ⟨4, 1, .w1c, 0⟩, ⟨5, 1, .w1c, 0⟩, ⟨6, 26, .rsvd, 0⟩]⟩,
  ⟨4521988, [], [⟨0, 1, .rw, 0⟩, ⟨1, 1, .rw, 0⟩, ⟨2, 1, .rw, 0⟩, ⟨3, 1, .rw, 0⟩, ⟨4, 1, .rw, 0⟩, ⟨5, 1, .rw, 0⟩, ⟨6, 26, .rsvd, 0⟩]⟩,
  ⟨4522000, [], [⟨0, 32, .rc, 0⟩]⟩,
  ⟨4522004, [], [⟨0, 32, .rc, 0⟩]⟩,
  ⟨4522008, [], [⟨0, 32, .rc, 0⟩]⟩,
  ⟨4522012, [], [⟨0, 32, .rc, 0⟩]⟩,
  ⟨4522016, [], [⟨0, 32, .rc, 0⟩]⟩,
  ⟨4522032, [], [⟨0, 10, .ro, 0⟩, ⟨10, 4, .ro, 0⟩, ⟨14, 1, .ro, 0⟩, ⟨15, 1, .rsvd, 0⟩, ⟨16, 8, .ro, 0⟩, ⟨24, 6, .rsvd, 0⟩, ⟨30, 1, .w1c, 0⟩, ⟨31, 1, .w1c, 0⟩]⟩,
  ⟨4522036, [], [⟨0, 32, .ro, 0⟩]⟩,
  ⟨4522040, [], [⟨0, 8, .ro, 0⟩, ⟨8, 24, .rsvd, 0⟩]⟩,
  ⟨4522048, [], [⟨0, 11, .rw, 0⟩, ⟨11, 21, .rsvd, 0⟩]⟩,
  ⟨4522052, [], [⟨0, 32, .ro, 0⟩]⟩,
  ⟨4522056, [], [⟨0, 11, .rw, 0⟩, ⟨11, 3, .rw, 0⟩, ⟨14, 18, .rsvd, 0⟩]⟩,
  ⟨4522060, [], [⟨0, 32, .ro, 0⟩]⟩]

/-- Registers of the BST block (R485). -/
def regsBst : List RegDesc := [
  ⟨4587520, [], [⟨0, 1, .w1s, 0⟩, ⟨1, 3, .rw, 0⟩, ⟨4, 4, .rw, 0⟩, ⟨8, 1, .w1s, 0⟩, ⟨9, 23, .rsvd, 0⟩]⟩,
  ⟨4587524, [], [⟨0, 1, .ro, 0⟩, ⟨1, 3, .ro, 0⟩, ⟨4, 7, .ro, 0⟩, ⟨11, 4, .ro, 0⟩, ⟨15, 17, .rsvd, 0⟩]⟩,
  ⟨4587528, [], [⟨0, 8, .rwe, 50⟩, ⟨8, 12, .rwe, 256⟩, ⟨20, 1, .rwe, 1⟩, ⟨21, 11, .rsvd, 0⟩]⟩,
  ⟨4587532, [], [⟨0, 4, .ro, 15⟩, ⟨4, 4, .ro, 0⟩, ⟨8, 10, .ro, 0⟩, ⟨18, 14, .rsvd, 0⟩]⟩,
  ⟨4587536, [], [⟨0, 1, .w1c, 0⟩, ⟨1, 1, .w1c, 0⟩, ⟨2, 1, .w1c, 0⟩, ⟨3, 29, .rsvd, 0⟩]⟩,
  ⟨4587540, [], [⟨0, 1, .rw, 0⟩, ⟨1, 1, .rw, 0⟩, ⟨2, 1, .rw, 0⟩, ⟨3, 29, .rsvd, 0⟩]⟩]

/-- Registers of the IRQ block (R504). -/
def regsIrq : List RegDesc := [
  ⟨4653056, [(6, 4)], [⟨0, 32, .ro, 0⟩]⟩,
  ⟨4653312, [(25, 32), (6, 4)], [⟨0, 32, .rw, 0⟩]⟩,
  ⟨4655104, [(64, 4)], [⟨0, 16, .ro, 0⟩, ⟨16, 16, .rsvd, 0⟩]⟩]

/-- The registers of the block that holds a window offset (Table 15.1); none in a reserved block (R490). -/
def blockRegs (a : Nat) : List RegDesc :=
  if a < 0x10000 then regsIdv else
  if a < 0x20000 then regsEdc else
  if a < 0x30000 then regsPmc ++ regsPmc1 else
  if a < 0x40000 then regsTrn else
  if a < 0x80000 then regsSlu else
  if a < 0x100000 then regsHgt else
  if a < 0x200000 then regsFce else
  if a < 0x300000 then regsFur else
  if a < 0x340000 then regsLdp ++ regsLdp1 else
  if a < 0x380000 then regsFrm else
  if a < 0x3c0000 then [] else
  if a < 0x400000 then regsDmc ++ regsDmc1 ++ regsDmc2 else
  if a < 0x410000 then regsDma else
  if a < 0x420000 then regsOcm else
  if a < 0x430000 then regsFws else
  if a < 0x440000 then regsMbx else
  if a < 0x450000 then regsGau else
  if a < 0x460000 then regsErc else
  if a < 0x470000 then regsBst else
  if a < 0x480000 then regsIrq else
  []

/-- The word of an array lies at this offset from its first: each index is below its count and no remainder is left. -/
def dimsHit : List (Nat × Nat) → Nat → Bool
  | [], o => o == 0
  | (c, st) :: ds, o => decide (o / st < c) && dimsHit ds (o % st)

def RegDesc.hit (r : RegDesc) (a : Nat) : Bool := decide (r.base ≤ a) && dimsHit r.dims (a - r.base)

/-- The register whose word lies at a window offset, none where the offset is reserved (R490, R492). OCM.BANK
exists for the codes of Table 10.4 only. -/
def regAt (a : Nat) : Option RegDesc := (blockRegs a).find? (·.hit a)

namespace Reg

/-- IDV.PART (R501). -/
def IDV_PART : Nat := 0
def IDV_PART_NUMBER : Fld := ⟨IDV_PART, 0, 16⟩
def IDV_PART_FAMILY : Fld := ⟨IDV_PART, 16, 8⟩
/-- IDV.GRADE (R501). -/
def IDV_GRADE : Nat := 4
def IDV_GRADE_SUFFIX : Fld := ⟨IDV_GRADE, 0, 2⟩
/-- IDV.STEP (R501). -/
def IDV_STEP : Nat := 8
def IDV_STEP_STEPPING : Fld := ⟨IDV_STEP, 0, 8⟩
/-- IDV.LEVELS (R501). -/
def IDV_LEVELS : Nat := 12
def IDV_LEVELS_TWIOT_MAX : Fld := ⟨IDV_LEVELS, 0, 4⟩
def IDV_LEVELS_MI : Fld := ⟨IDV_LEVELS, 4, 8⟩
def IDV_LEVELS_EDITION_FMTS : Fld := ⟨IDV_LEVELS, 12, 4⟩
def IDV_LEVELS_LOG_FMTS : Fld := ⟨IDV_LEVELS, 16, 4⟩
/-- IDV.NVME_VS (R501). -/
def IDV_NVME_VS : Nat := 16
def IDV_NVME_VS_VS : Fld := ⟨IDV_NVME_VS, 0, 32⟩
/-- IDV.FUSED_DOM (R501). -/
def IDV_FUSED_DOM : Nat := 20
def IDV_FUSED_DOM_MASK : Fld := ⟨IDV_FUSED_DOM, 1, 23⟩
/-- IDV.UID_LO (R501). -/
def IDV_UID_LO : Nat := 32
def IDV_UID_LO_UID : Fld := ⟨IDV_UID_LO, 0, 32⟩
/-- IDV.UID_HI (R501). -/
def IDV_UID_HI : Nat := 36
def IDV_UID_HI_UID : Fld := ⟨IDV_UID_HI, 0, 32⟩
/-- IDV.RELEASE_LO (R501). -/
def IDV_RELEASE_LO : Nat := 40
def IDV_RELEASE_LO_CHARS : Fld := ⟨IDV_RELEASE_LO, 0, 32⟩
/-- IDV.RELEASE_HI (R501). -/
def IDV_RELEASE_HI : Nat := 44
def IDV_RELEASE_HI_CHARS : Fld := ⟨IDV_RELEASE_HI, 0, 32⟩
/-- EDC.CURRENT (R477). -/
def EDC_CURRENT : Nat := 65536
def EDC_CURRENT_NUMBER : Fld := ⟨EDC_CURRENT, 0, 32⟩
/-- EDC.PREVIOUS (R477). -/
def EDC_PREVIOUS : Nat := 65540
def EDC_PREVIOUS_NUMBER : Fld := ⟨EDC_PREVIOUS, 0, 32⟩
/-- EDC.STAGED (R477). -/
def EDC_STAGED : Nat := 65544
def EDC_STAGED_NUMBER : Fld := ⟨EDC_STAGED, 0, 32⟩
/-- EDC.STATUS (R477). -/
def EDC_STATUS : Nat := 65548
def EDC_STATUS_STATE : Fld := ⟨EDC_STATUS, 0, 3⟩
def EDC_STATUS_FORMAT : Fld := ⟨EDC_STATUS, 3, 2⟩
def EDC_STATUS_SOURCE : Fld := ⟨EDC_STATUS, 5, 4⟩
/-- EDC.RESULT (R477). -/
def EDC_RESULT : Nat := 65560
def EDC_RESULT_REASON : Fld := ⟨EDC_RESULT, 0, 8⟩
def EDC_RESULT_SECTION : Fld := ⟨EDC_RESULT, 8, 8⟩
def EDC_RESULT_RES_A : Fld := ⟨EDC_RESULT, 16, 16⟩
/-- EDC.RESULT_B (R477). -/
def EDC_RESULT_B : Nat := 65564
def EDC_RESULT_B_RES_B : Fld := ⟨EDC_RESULT_B, 0, 16⟩
/-- EDC.SWITCH_LO (R477). -/
def EDC_SWITCH_LO : Nat := 65552
def EDC_SWITCH_LO_TURN : Fld := ⟨EDC_SWITCH_LO, 0, 32⟩
/-- EDC.SWITCH_HI (R477). -/
def EDC_SWITCH_HI : Nat := 65556
def EDC_SWITCH_HI_TURN : Fld := ⟨EDC_SWITCH_HI, 0, 32⟩
/-- PMC.MODE (R454). -/
def PMC_MODE : Nat := 131072
def PMC_MODE_MODE : Fld := ⟨PMC_MODE, 0, 3⟩
def PMC_MODE_PREV : Fld := ⟨PMC_MODE, 3, 3⟩
def PMC_MODE_REC_CAUSE : Fld := ⟨PMC_MODE, 16, 8⟩
/-- PMC.MODE_REQ (R454). -/
def PMC_MODE_REQ : Nat := 131076
def PMC_MODE_REQ_SEAL : Fld := ⟨PMC_MODE_REQ, 0, 1⟩
def PMC_MODE_REQ_RECOVER : Fld := ⟨PMC_MODE_REQ, 1, 1⟩
/-- PMC.PS (R454). -/
def PMC_PS : Nat := 131080
def PMC_PS_PS : Fld := ⟨PMC_PS, 0, 3⟩
def PMC_PS_C0_SEL : Fld := ⟨PMC_PS, 3, 3⟩
def PMC_PS_C1_SEL : Fld := ⟨PMC_PS, 6, 3⟩
def PMC_PS_ENTERING : Fld := ⟨PMC_PS, 9, 1⟩
def PMC_PS_EXITING : Fld := ⟨PMC_PS, 10, 1⟩
/-- PMC.VOTE (R455). -/
def PMC_VOTE : Nat := 131088
def PMC_VOTE_DOMAIN : Fld := ⟨PMC_VOTE, 0, 5⟩
def PMC_VOTE_HOLD : Fld := ⟨PMC_VOTE, 5, 1⟩
/-- PMC.IDLE (R455). -/
def PMC_IDLE : Nat := 131092
def PMC_IDLE_FG : Fld := ⟨PMC_IDLE, 0, 12⟩
def PMC_IDLE_FWS : Fld := ⟨PMC_IDLE, 12, 12⟩
def PMC_IDLE_HPHY : Fld := ⟨PMC_IDLE, 24, 8⟩
/-- PMC.SURGE (R455). -/
def PMC_SURGE : Nat := 131104
def PMC_SURGE_ACTIVE : Fld := ⟨PMC_SURGE, 0, 1⟩
def PMC_SURGE_AVAIL : Fld := ⟨PMC_SURGE, 1, 1⟩
def PMC_SURGE_ROT_LEFT : Fld := ⟨PMC_SURGE, 2, 7⟩
def PMC_SURGE_COOL_ROT : Fld := ⟨PMC_SURGE, 9, 10⟩
def PMC_SURGE_ENABLE : Fld := ⟨PMC_SURGE, 19, 1⟩
/-- PMC.THERM_CFG (R456). -/
def PMC_THERM_CFG : Nat := 131108
def PMC_THERM_CFG_T_HOT : Fld := ⟨PMC_THERM_CFG, 0, 8⟩
def PMC_THERM_CFG_THETA : Fld := ⟨PMC_THERM_CFG, 8, 8⟩
def PMC_THERM_CFG_TAU_ROT : Fld := ⟨PMC_THERM_CFG, 16, 8⟩
def PMC_THERM_CFG_SURGE_MIN : Fld := ⟨PMC_THERM_CFG, 24, 8⟩
/-- PMC.THERM (R456). -/
def PMC_THERM : Nat := 131112
def PMC_THERM_TJ_MAX : Fld := ⟨PMC_THERM, 0, 8⟩
def PMC_THERM_TJ_PRED : Fld := ⟨PMC_THERM, 8, 8⟩
def PMC_THERM_CEIL_THERM : Fld := ⟨PMC_THERM, 16, 12⟩
def PMC_THERM_TRIP : Fld := ⟨PMC_THERM, 28, 1⟩
/-- PMC.EVENT (R458). -/
def PMC_EVENT : Nat := 131120
def PMC_EVENT_MODE_CHANGE : Fld := ⟨PMC_EVENT, 0, 1⟩
def PMC_EVENT_SURGE_START : Fld := ⟨PMC_EVENT, 1, 1⟩
def PMC_EVENT_SURGE_END : Fld := ⟨PMC_EVENT, 2, 1⟩
def PMC_EVENT_THROTTLE : Fld := ⟨PMC_EVENT, 3, 1⟩
def PMC_EVENT_THERMTRIP : Fld := ⟨PMC_EVENT, 4, 1⟩
def PMC_EVENT_DOM_REFUSED : Fld := ⟨PMC_EVENT, 5, 1⟩
def PMC_EVENT_CONSERVE_ABANDON : Fld := ⟨PMC_EVENT, 6, 1⟩
/-- PMC.EVENT_EN (R458). -/
def PMC_EVENT_EN : Nat := 131124
def PMC_EVENT_EN_MODE_CHANGE : Fld := ⟨PMC_EVENT_EN, 0, 1⟩
def PMC_EVENT_EN_SURGE_START : Fld := ⟨PMC_EVENT_EN, 1, 1⟩
def PMC_EVENT_EN_SURGE_END : Fld := ⟨PMC_EVENT_EN, 2, 1⟩
def PMC_EVENT_EN_THROTTLE : Fld := ⟨PMC_EVENT_EN, 3, 1⟩
def PMC_EVENT_EN_THERMTRIP : Fld := ⟨PMC_EVENT_EN, 4, 1⟩
def PMC_EVENT_EN_DOM_REFUSED : Fld := ⟨PMC_EVENT_EN, 5, 1⟩
def PMC_EVENT_EN_CONSERVE_ABANDON : Fld := ⟨PMC_EVENT_EN, 6, 1⟩
/-- PMC.FLOOR (R457). -/
def PMC_FLOOR (i : Nat) : Nat := 131136 + 4 * i
def PMC_FLOOR_MASK (i : Nat) : Fld := ⟨PMC_FLOOR i, 1, 23⟩
/-- PMC.DOM (R457). -/
def PMC_DOM (i : Nat) : Nat := 131328 + 4 * i
def PMC_DOM_STATE (i : Nat) : Fld := ⟨PMC_DOM i, 0, 3⟩
def PMC_DOM_POLICY (i : Nat) : Fld := ⟨PMC_DOM i, 3, 2⟩
def PMC_DOM_VOTES (i : Nat) : Fld := ⟨PMC_DOM i, 5, 10⟩
def PMC_DOM_FLOOR (i : Nat) : Fld := ⟨PMC_DOM i, 15, 1⟩
def PMC_DOM_RETIRE (i : Nat) : Fld := ⟨PMC_DOM i, 16, 1⟩
/-- PMC.CIS_CFG (R335). -/
def PMC_CIS_CFG : Nat := 133120
def PMC_CIS_CFG_V_MIN : Fld := ⟨PMC_CIS_CFG, 0, 16⟩
def PMC_CIS_CFG_V_SPILL : Fld := ⟨PMC_CIS_CFG, 16, 16⟩
/-- PMC.CIS_DIV (R335). -/
def PMC_CIS_DIV : Nat := 133124
def PMC_CIS_DIV_DIV_X256 : Fld := ⟨PMC_CIS_DIV, 0, 16⟩
def PMC_CIS_DIV_V_FULL : Fld := ⟨PMC_CIS_DIV, 16, 16⟩
/-- PMC.CIS_BOARD (R335). -/
def PMC_CIS_BOARD : Nat := 133128
def PMC_CIS_BOARD_P_BOARD : Fld := ⟨PMC_CIS_BOARD, 0, 12⟩
def PMC_CIS_BOARD_ETA : Fld := ⟨PMC_CIS_BOARD, 12, 7⟩
def PMC_CIS_BOARD_S_SPILL : Fld := ⟨PMC_CIS_BOARD, 20, 8⟩
/-- PMC.CIS_TEST (R336). -/
def PMC_CIS_TEST : Nat := 133132
def PMC_CIS_TEST_LOAD : Fld := ⟨PMC_CIS_TEST, 0, 16⟩
def PMC_CIS_TEST_GPIO : Fld := ⟨PMC_CIS_TEST, 16, 6⟩
def PMC_CIS_TEST_PERIOD_LOG2 : Fld := ⟨PMC_CIS_TEST, 22, 4⟩
def PMC_CIS_TEST_START : Fld := ⟨PMC_CIS_TEST, 31, 1⟩
/-- PMC.CIS_STATUS (R337). -/
def PMC_CIS_STATUS : Nat := 133136
def PMC_CIS_STATUS_VHOLD : Fld := ⟨PMC_CIS_STATUS, 0, 16⟩
def PMC_CIS_STATUS_TEST_BUSY : Fld := ⟨PMC_CIS_STATUS, 16, 1⟩
def PMC_CIS_STATUS_RESULT : Fld := ⟨PMC_CIS_STATUS, 17, 2⟩
/-- PMC.CIS_CAP (R337). -/
def PMC_CIS_CAP : Nat := 133140
def PMC_CIS_CAP_C_UF : Fld := ⟨PMC_CIS_CAP, 0, 24⟩
/-- PMC.CIS_SLOTS (R337). -/
def PMC_CIS_SLOTS : Nat := 133144
def PMC_CIS_SLOTS_CAP_SLOTS : Fld := ⟨PMC_CIS_SLOTS, 0, 19⟩
/-- PMC.SPILL_STATUS (R338). -/
def PMC_SPILL_STATUS : Nat := 133148
def PMC_SPILL_STATUS_LAST : Fld := ⟨PMC_SPILL_STATUS, 0, 2⟩
def PMC_SPILL_STATUS_SET : Fld := ⟨PMC_SPILL_STATUS, 2, 1⟩
def PMC_SPILL_STATUS_HELD : Fld := ⟨PMC_SPILL_STATUS, 3, 1⟩
def PMC_SPILL_STATUS_CAUSE : Fld := ⟨PMC_SPILL_STATUS, 4, 1⟩
def PMC_SPILL_STATUS_DURATION : Fld := ⟨PMC_SPILL_STATUS, 16, 16⟩
/-- PMC.SPILL_SEQ (R338). -/
def PMC_SPILL_SEQ : Nat := 133152
def PMC_SPILL_SEQ_SEQ : Fld := ⟨PMC_SPILL_SEQ, 0, 32⟩
/-- TRN.COUNT_LO (R502). -/
def TRN_COUNT_LO : Nat := 196608
def TRN_COUNT_LO_TURN_LO : Fld := ⟨TRN_COUNT_LO, 0, 32⟩
/-- TRN.COUNT_HI (R502). -/
def TRN_COUNT_HI : Nat := 196612
def TRN_COUNT_HI_TURN_HI : Fld := ⟨TRN_COUNT_HI, 0, 32⟩
/-- TRN.GLOBAL_CMD (R502). -/
def TRN_GLOBAL_CMD : Nat := 196616
def TRN_GLOBAL_CMD_OP : Fld := ⟨TRN_GLOBAL_CMD, 0, 2⟩
/-- TRN.GLOBAL_STATUS (R502). -/
def TRN_GLOBAL_STATUS : Nat := 196620
def TRN_GLOBAL_STATUS_BUSY : Fld := ⟨TRN_GLOBAL_STATUS, 0, 1⟩
def TRN_GLOBAL_STATUS_RESULT : Fld := ⟨TRN_GLOBAL_STATUS, 1, 3⟩
def TRN_GLOBAL_STATUS_OP : Fld := ⟨TRN_GLOBAL_STATUS, 4, 2⟩
def TRN_GLOBAL_STATUS_CLIENT : Fld := ⟨TRN_GLOBAL_STATUS, 6, 10⟩
/-- TRN.VOTE (R502). -/
def TRN_VOTE : Nat := 196624
def TRN_VOTE_MISMATCH : Fld := ⟨TRN_VOTE, 0, 16⟩
/-- SLU.STATUS (R125). -/
def SLU_STATUS : Nat := 262144
def SLU_STATUS_SURGE : Fld := ⟨SLU_STATUS, 0, 1⟩
def SLU_STATUS_CONSERVE : Fld := ⟨SLU_STATUS, 1, 1⟩
def SLU_STATUS_SEALED : Fld := ⟨SLU_STATUS, 2, 1⟩
def SLU_STATUS_REBUILD : Fld := ⟨SLU_STATUS, 3, 1⟩
def SLU_STATUS_CLUSTERS : Fld := ⟨SLU_STATUS, 4, 3⟩
def SLU_STATUS_CHANNELS : Fld := ⟨SLU_STATUS, 8, 7⟩
def SLU_STATUS_HARD_DEC : Fld := ⟨SLU_STATUS, 15, 6⟩
def SLU_STATUS_SOFT_DEC : Fld := ⟨SLU_STATUS, 21, 4⟩
/-- SLU.CLASS_DL (R126). -/
def SLU_CLASS_DL (i : Nat) : Nat := 262160 + 8 * i
def SLU_CLASS_DL_DEADLINE (i : Nat) : Fld := ⟨SLU_CLASS_DL i, 0, 21⟩
/-- SLU.CLASS_SCOPE (R127). -/
def SLU_CLASS_SCOPE (i : Nat) : Nat := 262164 + 8 * i
def SLU_CLASS_SCOPE_READ_LOG2 (i : Nat) : Fld := ⟨SLU_CLASS_SCOPE i, 0, 5⟩
def SLU_CLASS_SCOPE_WRITE_LOG2 (i : Nat) : Fld := ⟨SLU_CLASS_SCOPE i, 8, 5⟩
/-- SLU.WEIR (R128). -/
def SLU_WEIR : Nat := 262240
def SLU_WEIR_RATE : Fld := ⟨SLU_WEIR, 0, 18⟩
/-- SLU.ALLOT_BAL (R129). -/
def SLU_ALLOT_BAL : Nat := 262248
def SLU_ALLOT_BAL_BALANCE : Fld := ⟨SLU_ALLOT_BAL, 0, 32⟩
/-- SLU.ALLOT_ADD (R129). -/
def SLU_ALLOT_ADD : Nat := 262252
def SLU_ALLOT_ADD_ADD : Fld := ⟨SLU_ALLOT_ADD, 0, 32⟩
/-- SLU.ALLOT_CREDIT (R129). -/
def SLU_ALLOT_CREDIT : Nat := 262256
def SLU_ALLOT_CREDIT_CREDIT : Fld := ⟨SLU_ALLOT_CREDIT, 0, 16⟩
/-- SLU.POWER (R130). -/
def SLU_POWER : Nat := 262264
def SLU_POWER_CEIL : Fld := ⟨SLU_POWER, 0, 12⟩
def SLU_POWER_STATIC : Fld := ⟨SLU_POWER, 12, 12⟩
/-- SLU.REFUSE (R131). -/
def SLU_REFUSE (i : Nat) : Nat := 262272 + 4 * i
def SLU_REFUSE_COUNT (i : Nat) : Fld := ⟨SLU_REFUSE i, 0, 32⟩
/-- SLU.CULV (R131). -/
def SLU_CULV : Nat := 262336
def SLU_CULV_COLLIDE : Fld := ⟨SLU_CULV, 0, 16⟩
def SLU_CULV_NO_SECOND : Fld := ⟨SLU_CULV, 16, 16⟩
/-- SLU.CHAN_OUT (R132). -/
def SLU_CHAN_OUT (i : Nat) : Nat := 262352 + 4 * i
def SLU_CHAN_OUT_OUT (i : Nat) : Fld := ⟨SLU_CHAN_OUT i, 0, 32⟩
/-- SLU.DIE_TIME_A (R133). -/
def SLU_DIE_TIME_A (i : Nat) : Nat := 266240 + 16 * i
def SLU_DIE_TIME_A_T_R (i : Nat) : Fld := ⟨SLU_DIE_TIME_A i, 0, 10⟩
def SLU_DIE_TIME_A_T_SUSP_P (i : Nat) : Fld := ⟨SLU_DIE_TIME_A i, 10, 8⟩
def SLU_DIE_TIME_A_T_SUSP_E (i : Nat) : Fld := ⟨SLU_DIE_TIME_A i, 18, 8⟩
def SLU_DIE_TIME_A_T_RS (i : Nat) : Fld := ⟨SLU_DIE_TIME_A i, 26, 6⟩
/-- SLU.DIE_TIME_B (R133). -/
def SLU_DIE_TIME_B (i : Nat) : Nat := 266244 + 16 * i
def SLU_DIE_TIME_B_T_PROG (i : Nat) : Fld := ⟨SLU_DIE_TIME_B i, 0, 12⟩
def SLU_DIE_TIME_B_T_ERS (i : Nat) : Fld := ⟨SLU_DIE_TIME_B i, 12, 14⟩
/-- SLU.DIE_STATE (R133). -/
def SLU_DIE_STATE (i : Nat) : Nat := 266248 + 16 * i
def SLU_DIE_STATE_STATE (i : Nat) : Fld := ⟨SLU_DIE_STATE i, 0, 2⟩
/-- HGT.LINK_STATUS (R86). -/
def HGT_LINK_STATUS (i : Nat) : Nat := 524288 + 4 * i
def HGT_LINK_STATUS_RATE (i : Nat) : Fld := ⟨HGT_LINK_STATUS i, 0, 3⟩
def HGT_LINK_STATUS_WIDTH (i : Nat) : Fld := ⟨HGT_LINK_STATUS i, 3, 5⟩
def HGT_LINK_STATUS_FLIT (i : Nat) : Fld := ⟨HGT_LINK_STATUS i, 8, 1⟩
def HGT_LINK_STATUS_L0P_EN (i : Nat) : Fld := ⟨HGT_LINK_STATUS i, 9, 1⟩
def HGT_LINK_STATUS_HOSTCFG (i : Nat) : Fld := ⟨HGT_LINK_STATUS i, 10, 2⟩
/-- HGT.CTX_FLOOR (R87). -/
def HGT_CTX_FLOOR (i : Nat) : Nat := 524304 + 4 * i
def HGT_CTX_FLOOR_FLOOR (i : Nat) : Fld := ⟨HGT_CTX_FLOOR i, 0, 20⟩
/-- HGT.CTX_USE (R88). -/
def HGT_CTX_USE (i : Nat) : Nat := 524320 + 4 * i
def HGT_CTX_USE_IN_USE (i : Nat) : Fld := ⟨HGT_CTX_USE i, 0, 21⟩
/-- HGT.FETCH_LAT (R89). -/
def HGT_FETCH_LAT (i : Nat) : Nat := 524336 + 4 * i
def HGT_FETCH_LAT_MAX_NS (i : Nat) : Fld := ⟨HGT_FETCH_LAT i, 0, 16⟩
def HGT_FETCH_LAT_OVER_COUNT (i : Nat) : Fld := ⟨HGT_FETCH_LAT i, 16, 16⟩
/-- HGT.LEVEL (R90). -/
def HGT_LEVEL : Nat := 524352
def HGT_LEVEL_C0_LEVEL : Fld := ⟨HGT_LEVEL, 0, 2⟩
def HGT_LEVEL_C1_LEVEL : Fld := ⟨HGT_LEVEL, 8, 2⟩
/-- HGT.EVENT (R91). -/
def HGT_EVENT : Nat := 524368
def HGT_EVENT_C0_CTX_EXHAUST : Fld := ⟨HGT_EVENT, 0, 1⟩
def HGT_EVENT_C1_CTX_EXHAUST : Fld := ⟨HGT_EVENT, 1, 1⟩
def HGT_EVENT_C0_INVALID_DB : Fld := ⟨HGT_EVENT, 2, 1⟩
def HGT_EVENT_C1_INVALID_DB : Fld := ⟨HGT_EVENT, 3, 1⟩
def HGT_EVENT_C0_FREEZE : Fld := ⟨HGT_EVENT, 4, 1⟩
def HGT_EVENT_C1_FREEZE : Fld := ⟨HGT_EVENT, 5, 1⟩
def HGT_EVENT_ECRC_ERR : Fld := ⟨HGT_EVENT, 6, 1⟩
def HGT_EVENT_POISONED : Fld := ⟨HGT_EVENT, 7, 1⟩
/-- HGT.EVENT_EN (R91). -/
def HGT_EVENT_EN : Nat := 524372
def HGT_EVENT_EN_C0_CTX_EXHAUST : Fld := ⟨HGT_EVENT_EN, 0, 1⟩
def HGT_EVENT_EN_C1_CTX_EXHAUST : Fld := ⟨HGT_EVENT_EN, 1, 1⟩
def HGT_EVENT_EN_C0_INVALID_DB : Fld := ⟨HGT_EVENT_EN, 2, 1⟩
def HGT_EVENT_EN_C1_INVALID_DB : Fld := ⟨HGT_EVENT_EN, 3, 1⟩
def HGT_EVENT_EN_C0_FREEZE : Fld := ⟨HGT_EVENT_EN, 4, 1⟩
def HGT_EVENT_EN_C1_FREEZE : Fld := ⟨HGT_EVENT_EN, 5, 1⟩
def HGT_EVENT_EN_ECRC_ERR : Fld := ⟨HGT_EVENT_EN, 6, 1⟩
def HGT_EVENT_EN_POISONED : Fld := ⟨HGT_EVENT_EN, 7, 1⟩
/-- FCE.CTRL (R165). -/
def FCE_CTRL (i : Nat) : Nat := 1048576 + 16384 * i
def FCE_CTRL_RETRAIN_REQ (i : Nat) : Fld := ⟨FCE_CTRL i, 0, 1⟩
def FCE_CTRL_TARGET_IDX (i : Nat) : Fld := ⟨FCE_CTRL i, 4, 4⟩
def FCE_CTRL_IFCRC_EN (i : Nat) : Fld := ⟨FCE_CTRL i, 8, 1⟩
/-- FCE.STATUS (R165). -/
def FCE_STATUS (i : Nat) : Nat := 1048580 + 16384 * i
def FCE_STATUS_STATE (i : Nat) : Fld := ⟨FCE_STATUS i, 0, 3⟩
def FCE_STATUS_DIES (i : Nat) : Fld := ⟨FCE_STATUS i, 3, 5⟩
def FCE_STATUS_TOGGLE (i : Nat) : Fld := ⟨FCE_STATUS i, 8, 1⟩
def FCE_STATUS_DEGRADED (i : Nat) : Fld := ⟨FCE_STATUS i, 9, 1⟩
def FCE_STATUS_CUR_IDX (i : Nat) : Fld := ⟨FCE_STATUS i, 10, 4⟩
/-- FCE.RATE (R166). -/
def FCE_RATE (i : Nat) : Nat := 1048584 + 16384 * i
def FCE_RATE_MAX_IDX (i : Nat) : Fld := ⟨FCE_RATE i, 0, 4⟩
def FCE_RATE_FLOOR_IDX (i : Nat) : Fld := ⟨FCE_RATE i, 4, 4⟩
def FCE_RATE_BUILD_IDX (i : Nat) : Fld := ⟨FCE_RATE i, 8, 4⟩
/-- FCE.IFCRC (R167). -/
def FCE_IFCRC (i : Nat) : Nat := 1048588 + 16384 * i
def FCE_IFCRC_ERRORS (i : Nat) : Fld := ⟨FCE_IFCRC i, 0, 16⟩
def FCE_IFCRC_REPEATS_OK (i : Nat) : Fld := ⟨FCE_IFCRC i, 16, 16⟩
/-- FCE.RETRAIN (R167). -/
def FCE_RETRAIN (i : Nat) : Nat := 1048592 + 16384 * i
def FCE_RETRAIN_FAILED_ROT (i : Nat) : Fld := ⟨FCE_RETRAIN i, 0, 2⟩
def FCE_RETRAIN_TOTAL (i : Nat) : Fld := ⟨FCE_RETRAIN i, 2, 16⟩
/-- FCE.BUF (R167). -/
def FCE_BUF (i : Nat) : Nat := 1048596 + 16384 * i
def FCE_BUF_READ_SLOTS (i : Nat) : Fld := ⟨FCE_BUF i, 0, 6⟩
def FCE_BUF_PROG_KIB (i : Nat) : Fld := ⟨FCE_BUF i, 6, 10⟩
/-- FCE.GEOM_A (R168). -/
def FCE_GEOM_A (i : Nat) : Nat := 1048600 + 16384 * i
def FCE_GEOM_A_PAGE (i : Nat) : Fld := ⟨FCE_GEOM_A i, 0, 2⟩
def FCE_GEOM_A_PLANES (i : Nat) : Fld := ⟨FCE_GEOM_A i, 2, 3⟩
def FCE_GEOM_A_BPC (i : Nat) : Fld := ⟨FCE_GEOM_A i, 5, 2⟩
def FCE_GEOM_A_SPARE (i : Nat) : Fld := ⟨FCE_GEOM_A i, 8, 12⟩
def FCE_GEOM_A_LUNS (i : Nat) : Fld := ⟨FCE_GEOM_A i, 20, 2⟩
/-- FCE.GEOM_B (R168). -/
def FCE_GEOM_B (i : Nat) : Nat := 1048604 + 16384 * i
def FCE_GEOM_B_PAGES_PER_BLOCK (i : Nat) : Fld := ⟨FCE_GEOM_B i, 0, 16⟩
def FCE_GEOM_B_BLOCKS_PER_PLANE (i : Nat) : Fld := ⟨FCE_GEOM_B i, 16, 16⟩
/-- FCE.EVENT (R169). -/
def FCE_EVENT (i : Nat) : Nat := 1048608 + 16384 * i
def FCE_EVENT_IFCRC_EXHAUST (i : Nat) : Fld := ⟨FCE_EVENT i, 0, 1⟩
def FCE_EVENT_RETRAIN_OK (i : Nat) : Fld := ⟨FCE_EVENT i, 1, 1⟩
def FCE_EVENT_RETRAIN_FAIL (i : Nat) : Fld := ⟨FCE_EVENT i, 2, 1⟩
def FCE_EVENT_RATE_DROP (i : Nat) : Fld := ⟨FCE_EVENT i, 3, 1⟩
def FCE_EVENT_THIRD_FAIL (i : Nat) : Fld := ⟨FCE_EVENT i, 4, 1⟩
def FCE_EVENT_RATE_RAISE (i : Nat) : Fld := ⟨FCE_EVENT i, 5, 1⟩
def FCE_EVENT_WAKE_REINIT_FAIL (i : Nat) : Fld := ⟨FCE_EVENT i, 6, 1⟩
/-- FCE.EVENT_EN (R169). -/
def FCE_EVENT_EN (i : Nat) : Nat := 1048612 + 16384 * i
def FCE_EVENT_EN_IFCRC_EXHAUST (i : Nat) : Fld := ⟨FCE_EVENT_EN i, 0, 1⟩
def FCE_EVENT_EN_RETRAIN_OK (i : Nat) : Fld := ⟨FCE_EVENT_EN i, 1, 1⟩
def FCE_EVENT_EN_RETRAIN_FAIL (i : Nat) : Fld := ⟨FCE_EVENT_EN i, 2, 1⟩
def FCE_EVENT_EN_RATE_DROP (i : Nat) : Fld := ⟨FCE_EVENT_EN i, 3, 1⟩
def FCE_EVENT_EN_THIRD_FAIL (i : Nat) : Fld := ⟨FCE_EVENT_EN i, 4, 1⟩
def FCE_EVENT_EN_RATE_RAISE (i : Nat) : Fld := ⟨FCE_EVENT_EN i, 5, 1⟩
def FCE_EVENT_EN_WAKE_REINIT_FAIL (i : Nat) : Fld := ⟨FCE_EVENT_EN i, 6, 1⟩
/-- FCE.THR_DESC0 (R170). -/
def FCE_THR_DESC0 (i : Nat) : Nat := 1048640 + 16384 * i
def FCE_THR_DESC0_LEN (i : Nat) : Fld := ⟨FCE_THR_DESC0 i, 0, 4⟩
def FCE_THR_DESC0_OFS_POS (i : Nat) : Fld := ⟨FCE_THR_DESC0 i, 4, 4⟩
def FCE_THR_DESC0_OFS_COUNT (i : Nat) : Fld := ⟨FCE_THR_DESC0 i, 8, 3⟩
/-- FCE.THR_DESC (R170). -/
def FCE_THR_DESC (i j : Nat) : Nat := 1048644 + 16384 * i + 4 * j
def FCE_THR_DESC_BYTES (i j : Nat) : Fld := ⟨FCE_THR_DESC i j, 0, 32⟩
/-- FUR.CFG (R172). -/
def FUR_CFG (i : Nat) : Nat := 2097152 + 1024 * i
def FUR_CFG_CE (i : Nat) : Fld := ⟨FUR_CFG i, 0, 1⟩
def FUR_CFG_VOLUME (i : Nat) : Fld := ⟨FUR_CFG i, 1, 3⟩
def FUR_CFG_LUN (i : Nat) : Fld := ⟨FUR_CFG i, 4, 2⟩
def FUR_CFG_PRESENT (i : Nat) : Fld := ⟨FUR_CFG i, 6, 1⟩
def FUR_CFG_AUTO_RAISE (i : Nat) : Fld := ⟨FUR_CFG i, 8, 1⟩
/-- FUR.STATUS (R172). -/
def FUR_STATUS (i : Nat) : Nat := 2097156 + 1024 * i
def FUR_STATUS_STATE (i : Nat) : Fld := ⟨FUR_STATUS i, 0, 4⟩
def FUR_STATUS_HOLD (i : Nat) : Fld := ⟨FUR_STATUS i, 4, 2⟩
def FUR_STATUS_HOLD_SUSP (i : Nat) : Fld := ⟨FUR_STATUS i, 6, 1⟩
def FUR_STATUS_SR (i : Nat) : Fld := ⟨FUR_STATUS i, 8, 8⟩
/-- FUR.TMEAS_A (R173). -/
def FUR_TMEAS_A (i : Nat) : Nat := 2097160 + 1024 * i
def FUR_TMEAS_A_T_R_MAX (i : Nat) : Fld := ⟨FUR_TMEAS_A i, 0, 10⟩
def FUR_TMEAS_A_T_SUSP_P_MAX (i : Nat) : Fld := ⟨FUR_TMEAS_A i, 10, 8⟩
def FUR_TMEAS_A_T_SUSP_E_MAX (i : Nat) : Fld := ⟨FUR_TMEAS_A i, 18, 8⟩
/-- FUR.TMEAS_B (R173). -/
def FUR_TMEAS_B (i : Nat) : Nat := 2097164 + 1024 * i
def FUR_TMEAS_B_T_PROG_MAX (i : Nat) : Fld := ⟨FUR_TMEAS_B i, 0, 12⟩
def FUR_TMEAS_B_T_ERS_MAX (i : Nat) : Fld := ⟨FUR_TMEAS_B i, 12, 14⟩
/-- FUR.SUSP_CNT (R173). -/
def FUR_SUSP_CNT (i : Nat) : Nat := 2097168 + 1024 * i
def FUR_SUSP_CNT_COUNT (i : Nat) : Fld := ⟨FUR_SUSP_CNT i, 0, 32⟩
/-- FUR.HOLD_AGE (R173). -/
def FUR_HOLD_AGE (i : Nat) : Nat := 2097172 + 1024 * i
def FUR_HOLD_AGE_TURNS (i : Nat) : Fld := ⟨FUR_HOLD_AGE i, 0, 32⟩
/-- FUR.TIMEOUT (R173). -/
def FUR_TIMEOUT (i : Nat) : Nat := 2097176 + 1024 * i
def FUR_TIMEOUT_ROT (i : Nat) : Fld := ⟨FUR_TIMEOUT i, 0, 2⟩
def FUR_TIMEOUT_TOTAL (i : Nat) : Fld := ⟨FUR_TIMEOUT i, 2, 16⟩
/-- FUR.EVENT (R174). -/
def FUR_EVENT (i : Nat) : Nat := 2097184 + 1024 * i
def FUR_EVENT_T_EXCEED (i : Nat) : Fld := ⟨FUR_EVENT i, 0, 1⟩
def FUR_EVENT_TIMEOUT (i : Nat) : Fld := ⟨FUR_EVENT i, 1, 1⟩
def FUR_EVENT_THIRD_TIMEOUT (i : Nat) : Fld := ⟨FUR_EVENT i, 2, 1⟩
def FUR_EVENT_STATUS_FAIL (i : Nat) : Fld := ⟨FUR_EVENT i, 3, 1⟩
def FUR_EVENT_SAT (i : Nat) : Fld := ⟨FUR_EVENT i, 4, 1⟩
/-- FUR.EVENT_EN (R174). -/
def FUR_EVENT_EN (i : Nat) : Nat := 2097188 + 1024 * i
def FUR_EVENT_EN_T_EXCEED (i : Nat) : Fld := ⟨FUR_EVENT_EN i, 0, 1⟩
def FUR_EVENT_EN_TIMEOUT (i : Nat) : Fld := ⟨FUR_EVENT_EN i, 1, 1⟩
def FUR_EVENT_EN_THIRD_TIMEOUT (i : Nat) : Fld := ⟨FUR_EVENT_EN i, 2, 1⟩
def FUR_EVENT_EN_STATUS_FAIL (i : Nat) : Fld := ⟨FUR_EVENT_EN i, 3, 1⟩
def FUR_EVENT_EN_SAT (i : Nat) : Fld := ⟨FUR_EVENT_EN i, 4, 1⟩
/-- LDP.CFG (R279). -/
def LDP_CFG : Nat := 3145728
def LDP_CFG_SOFT_DELTA : Fld := ⟨LDP_CFG, 0, 8⟩
def LDP_CFG_C_WATCH : Fld := ⟨LDP_CFG, 8, 10⟩
/-- LDP.HARD_OUT (R279). -/
def LDP_HARD_OUT : Nat := 3145736
def LDP_HARD_OUT_OUT : Fld := ⟨LDP_HARD_OUT, 0, 32⟩
/-- LDP.SOFT_OUT (R279). -/
def LDP_SOFT_OUT : Nat := 3145740
def LDP_SOFT_OUT_OUT : Fld := ⟨LDP_SOFT_OUT, 0, 8⟩
/-- LDP.HARD_PASS (R279). -/
def LDP_HARD_PASS : Nat := 3145744
def LDP_HARD_PASS_COUNT : Fld := ⟨LDP_HARD_PASS, 0, 32⟩
/-- LDP.HARD_FAIL (R279). -/
def LDP_HARD_FAIL : Nat := 3145748
def LDP_HARD_FAIL_COUNT : Fld := ⟨LDP_HARD_FAIL, 0, 32⟩
/-- LDP.SOFT_PASS (R279). -/
def LDP_SOFT_PASS : Nat := 3145752
def LDP_SOFT_PASS_COUNT : Fld := ⟨LDP_SOFT_PASS, 0, 32⟩
/-- LDP.SOFT_FAIL (R279). -/
def LDP_SOFT_FAIL : Nat := 3145756
def LDP_SOFT_FAIL_COUNT : Fld := ⟨LDP_SOFT_FAIL, 0, 32⟩
/-- LDP.TAG_ERR (R279). -/
def LDP_TAG_ERR : Nat := 3145760
def LDP_TAG_ERR_COUNT : Fld := ⟨LDP_TAG_ERR, 0, 32⟩
/-- LDP.DLX_CFG (R280). -/
def LDP_DLX_CFG : Nat := 3145776
def LDP_DLX_CFG_PT_PERIOD_M1 : Fld := ⟨LDP_DLX_CFG, 0, 6⟩
def LDP_DLX_CFG_ENABLE : Fld := ⟨LDP_DLX_CFG, 8, 1⟩
/-- LDP.DLX_NOW (R280). -/
def LDP_DLX_NOW : Nat := 3145780
def LDP_DLX_NOW_ROT : Fld := ⟨LDP_DLX_NOW, 0, 32⟩
/-- LDP.DLX_TEMP (R280). -/
def LDP_DLX_TEMP (i : Nat) : Nat := 3145784 + 4 * i
def LDP_DLX_TEMP_G0 (i : Nat) : Fld := ⟨LDP_DLX_TEMP i, 0, 8⟩
def LDP_DLX_TEMP_G1 (i : Nat) : Fld := ⟨LDP_DLX_TEMP i, 8, 8⟩
def LDP_DLX_TEMP_G2 (i : Nat) : Fld := ⟨LDP_DLX_TEMP i, 16, 8⟩
def LDP_DLX_TEMP_G3 (i : Nat) : Fld := ⟨LDP_DLX_TEMP i, 24, 8⟩
/-- LDP.DLX_STAMP (R280). -/
def LDP_DLX_STAMP : Nat := 3145792
def LDP_DLX_STAMP_BASE_MIB : Fld := ⟨LDP_DLX_STAMP, 0, 19⟩
/-- LDP.DLX_TABLE (R280). -/
def LDP_DLX_TABLE : Nat := 3145796
def LDP_DLX_TABLE_BANK : Fld := ⟨LDP_DLX_TABLE, 0, 5⟩
def LDP_DLX_TABLE_OFFSET_KIB : Fld := ⟨LDP_DLX_TABLE, 8, 10⟩
/-- LDP.DLX_PTYPE (R280). -/
def LDP_DLX_PTYPE (i : Nat) : Nat := 3145800 + 4 * i
def LDP_DLX_PTYPE_TYPE0 (i : Nat) : Fld := ⟨LDP_DLX_PTYPE i, 0, 2⟩
def LDP_DLX_PTYPE_TYPE1 (i : Nat) : Fld := ⟨LDP_DLX_PTYPE i, 2, 2⟩
def LDP_DLX_PTYPE_TYPE2 (i : Nat) : Fld := ⟨LDP_DLX_PTYPE i, 4, 2⟩
def LDP_DLX_PTYPE_TYPE3 (i : Nat) : Fld := ⟨LDP_DLX_PTYPE i, 6, 2⟩
def LDP_DLX_PTYPE_TYPE4 (i : Nat) : Fld := ⟨LDP_DLX_PTYPE i, 8, 2⟩
def LDP_DLX_PTYPE_TYPE5 (i : Nat) : Fld := ⟨LDP_DLX_PTYPE i, 10, 2⟩
def LDP_DLX_PTYPE_TYPE6 (i : Nat) : Fld := ⟨LDP_DLX_PTYPE i, 12, 2⟩
def LDP_DLX_PTYPE_TYPE7 (i : Nat) : Fld := ⟨LDP_DLX_PTYPE i, 14, 2⟩
def LDP_DLX_PTYPE_TYPE8 (i : Nat) : Fld := ⟨LDP_DLX_PTYPE i, 16, 2⟩
def LDP_DLX_PTYPE_TYPE9 (i : Nat) : Fld := ⟨LDP_DLX_PTYPE i, 18, 2⟩
def LDP_DLX_PTYPE_TYPE10 (i : Nat) : Fld := ⟨LDP_DLX_PTYPE i, 20, 2⟩
def LDP_DLX_PTYPE_TYPE11 (i : Nat) : Fld := ⟨LDP_DLX_PTYPE i, 22, 2⟩
def LDP_DLX_PTYPE_TYPE12 (i : Nat) : Fld := ⟨LDP_DLX_PTYPE i, 24, 2⟩
def LDP_DLX_PTYPE_TYPE13 (i : Nat) : Fld := ⟨LDP_DLX_PTYPE i, 26, 2⟩
def LDP_DLX_PTYPE_TYPE14 (i : Nat) : Fld := ⟨LDP_DLX_PTYPE i, 28, 2⟩
def LDP_DLX_PTYPE_TYPE15 (i : Nat) : Fld := ⟨LDP_DLX_PTYPE i, 30, 2⟩
/-- LDP.DLX_PAGEMAP (R280). -/
def LDP_DLX_PAGEMAP (i : Nat) : Nat := 3145816 + 4 * i
def LDP_DLX_PAGEMAP_COUNT (i : Nat) : Fld := ⟨LDP_DLX_PAGEMAP i, 0, 3⟩
def LDP_DLX_PAGEMAP_LEVEL0 (i : Nat) : Fld := ⟨LDP_DLX_PAGEMAP i, 4, 4⟩
def LDP_DLX_PAGEMAP_LEVEL1 (i : Nat) : Fld := ⟨LDP_DLX_PAGEMAP i, 8, 4⟩
def LDP_DLX_PAGEMAP_LEVEL2 (i : Nat) : Fld := ⟨LDP_DLX_PAGEMAP i, 12, 4⟩
def LDP_DLX_PAGEMAP_LEVEL3 (i : Nat) : Fld := ⟨LDP_DLX_PAGEMAP i, 16, 4⟩
def LDP_DLX_PAGEMAP_LEVEL4 (i : Nat) : Fld := ⟨LDP_DLX_PAGEMAP i, 20, 4⟩
def LDP_DLX_PAGEMAP_LEVEL5 (i : Nat) : Fld := ⟨LDP_DLX_PAGEMAP i, 24, 4⟩
def LDP_DLX_PAGEMAP_LEVEL6 (i : Nat) : Fld := ⟨LDP_DLX_PAGEMAP i, 28, 4⟩
/-- LDP.DLX_MISS (R280). -/
def LDP_DLX_MISS : Nat := 3145832
def LDP_DLX_MISS_COUNT : Fld := ⟨LDP_DLX_MISS, 0, 32⟩
/-- LDP.MR_RING (R281). -/
def LDP_MR_RING : Nat := 3145840
def LDP_MR_RING_BANK : Fld := ⟨LDP_MR_RING, 0, 5⟩
def LDP_MR_RING_LOG2_ENTRIES : Fld := ⟨LDP_MR_RING, 8, 4⟩
/-- LDP.MR_PTR (R281). -/
def LDP_MR_PTR : Nat := 3145844
def LDP_MR_PTR_HEAD : Fld := ⟨LDP_MR_PTR, 0, 16⟩
def LDP_MR_PTR_TAIL : Fld := ⟨LDP_MR_PTR, 16, 16⟩
/-- LDP.RD_BASE (R281). -/
def LDP_RD_BASE : Nat := 3145848
def LDP_RD_BASE_BASE_MIB : Fld := ⟨LDP_RD_BASE, 0, 19⟩
/-- LDP.RD_LIMIT (R281). -/
def LDP_RD_LIMIT : Nat := 3145852
def LDP_RD_LIMIT_LIMIT : Fld := ⟨LDP_RD_LIMIT, 0, 32⟩
/-- LDP.EVENT (R282). -/
def LDP_EVENT : Nat := 3145856
def LDP_EVENT_MR_OVERFLOW : Fld := ⟨LDP_EVENT, 0, 1⟩
def LDP_EVENT_DEC_REMOVED : Fld := ⟨LDP_EVENT, 1, 1⟩
def LDP_EVENT_TAG_ERR : Fld := ⟨LDP_EVENT, 2, 1⟩
/-- LDP.EVENT_EN (R282). -/
def LDP_EVENT_EN : Nat := 3145860
def LDP_EVENT_EN_MR_OVERFLOW : Fld := ⟨LDP_EVENT_EN, 0, 1⟩
def LDP_EVENT_EN_DEC_REMOVED : Fld := ⟨LDP_EVENT_EN, 1, 1⟩
def LDP_EVENT_EN_TAG_ERR : Fld := ⟨LDP_EVENT_EN, 2, 1⟩
/-- FRM.ACC (R283). -/
def FRM_ACC : Nat := 3407872
def FRM_ACC_BANK_FIRST : Fld := ⟨FRM_ACC, 0, 5⟩
def FRM_ACC_BANKS : Fld := ⟨FRM_ACC, 8, 3⟩
/-- FRM.STATUS (R283). -/
def FRM_STATUS : Nat := 3407876
def FRM_STATUS_ACC_USED : Fld := ⟨FRM_STATUS, 0, 8⟩
def FRM_STATUS_REBUILDING : Fld := ⟨FRM_STATUS, 8, 1⟩
/-- FRM.REBUILT (R283). -/
def FRM_REBUILT : Nat := 3407880
def FRM_REBUILT_COUNT : Fld := ⟨FRM_REBUILT, 0, 32⟩
/-- FRM.SHORT (R283). -/
def FRM_SHORT : Nat := 3407884
def FRM_SHORT_COUNT : Fld := ⟨FRM_SHORT, 0, 32⟩
/-- FRM.EVENT (R283). -/
def FRM_EVENT : Nat := 3407888
def FRM_EVENT_SHORT : Fld := ⟨FRM_EVENT, 0, 1⟩
/-- FRM.EVENT_EN (R283). -/
def FRM_EVENT_EN : Nat := 3407892
def FRM_EVENT_EN_SHORT : Fld := ⟨FRM_EVENT_EN, 0, 1⟩
/-- DMC.CFG (R367). -/
def DMC_CFG (i : Nat) : Nat := 3932160 + 16384 * i
def DMC_CFG_RATE (i : Nat) : Fld := ⟨DMC_CFG i, 0, 2⟩
def DMC_CFG_X4 (i : Nat) : Fld := ⟨DMC_CFG i, 2, 1⟩
def DMC_CFG_RANKS (i : Nat) : Fld := ⟨DMC_CFG i, 3, 1⟩
def DMC_CFG_DENSITY (i : Nat) : Fld := ⟨DMC_CFG i, 4, 2⟩
def DMC_CFG_HALF (i : Nat) : Fld := ⟨DMC_CFG i, 6, 1⟩
def DMC_CFG_ENABLE (i : Nat) : Fld := ⟨DMC_CFG i, 7, 1⟩
/-- DMC.STATUS (R367). -/
def DMC_STATUS (i : Nat) : Nat := 3932164 + 16384 * i
def DMC_STATUS_STATE (i : Nat) : Fld := ⟨DMC_STATUS i, 0, 3⟩
def DMC_STATUS_REMAP_FULL (i : Nat) : Fld := ⟨DMC_STATUS i, 3, 1⟩
def DMC_STATUS_FAILING (i : Nat) : Fld := ⟨DMC_STATUS i, 4, 4⟩
def DMC_STATUS_RETIRED (i : Nat) : Fld := ⟨DMC_STATUS i, 8, 4⟩
/-- DMC.TRAIN_CTRL (R368). -/
def DMC_TRAIN_CTRL (i : Nat) : Nat := 3932176 + 16384 * i
def DMC_TRAIN_CTRL_GO (i : Nat) : Fld := ⟨DMC_TRAIN_CTRL i, 0, 1⟩
def DMC_TRAIN_CTRL_OP (i : Nat) : Fld := ⟨DMC_TRAIN_CTRL i, 1, 3⟩
def DMC_TRAIN_CTRL_SUBCH (i : Nat) : Fld := ⟨DMC_TRAIN_CTRL i, 4, 1⟩
def DMC_TRAIN_CTRL_RANK (i : Nat) : Fld := ⟨DMC_TRAIN_CTRL i, 5, 1⟩
def DMC_TRAIN_CTRL_BANK (i : Nat) : Fld := ⟨DMC_TRAIN_CTRL i, 6, 5⟩
def DMC_TRAIN_CTRL_LINES_M1 (i : Nat) : Fld := ⟨DMC_TRAIN_CTRL i, 11, 10⟩
/-- DMC.TRAIN_PAT (R368). -/
def DMC_TRAIN_PAT (i : Nat) : Nat := 3932180 + 16384 * i
def DMC_TRAIN_PAT_KIND (i : Nat) : Fld := ⟨DMC_TRAIN_PAT i, 0, 2⟩
def DMC_TRAIN_PAT_SEED (i : Nat) : Fld := ⟨DMC_TRAIN_PAT i, 2, 30⟩
/-- DMC.TRAIN_RESULT (R368). -/
def DMC_TRAIN_RESULT (i : Nat) : Nat := 3932184 + 16384 * i
def DMC_TRAIN_RESULT_BUSY (i : Nat) : Fld := ⟨DMC_TRAIN_RESULT i, 0, 1⟩
def DMC_TRAIN_RESULT_PASS (i : Nat) : Fld := ⟨DMC_TRAIN_RESULT i, 1, 1⟩
def DMC_TRAIN_RESULT_ERRORS (i : Nat) : Fld := ⟨DMC_TRAIN_RESULT i, 16, 16⟩
/-- DMC.TRAIN_LANES_LO (R368). -/
def DMC_TRAIN_LANES_LO (i : Nat) : Nat := 3932188 + 16384 * i
def DMC_TRAIN_LANES_LO_LANES (i : Nat) : Fld := ⟨DMC_TRAIN_LANES_LO i, 0, 32⟩
/-- DMC.TRAIN_LANES_HI (R368). -/
def DMC_TRAIN_LANES_HI (i : Nat) : Nat := 3932192 + 16384 * i
def DMC_TRAIN_LANES_HI_LANES (i : Nat) : Fld := ⟨DMC_TRAIN_LANES_HI i, 0, 8⟩
/-- DMC.LANE_SEL (R368). -/
def DMC_LANE_SEL (i : Nat) : Nat := 3932196 + 16384 * i
def DMC_LANE_SEL_LANE (i : Nat) : Fld := ⟨DMC_LANE_SEL i, 0, 6⟩
def DMC_LANE_SEL_SUBCH (i : Nat) : Fld := ⟨DMC_LANE_SEL i, 6, 1⟩
def DMC_LANE_SEL_RANK (i : Nat) : Fld := ⟨DMC_LANE_SEL i, 7, 1⟩
def DMC_LANE_SEL_KIND (i : Nat) : Fld := ⟨DMC_LANE_SEL i, 8, 2⟩
/-- DMC.LANE_DLY (R368). -/
def DMC_LANE_DLY (i : Nat) : Nat := 3932200 + 16384 * i
def DMC_LANE_DLY_VALUE (i : Nat) : Fld := ⟨DMC_LANE_DLY i, 0, 10⟩
/-- DMC.MRW (R368). -/
def DMC_MRW (i : Nat) : Nat := 3932204 + 16384 * i
def DMC_MRW_MR (i : Nat) : Fld := ⟨DMC_MRW i, 0, 8⟩
def DMC_MRW_DATA (i : Nat) : Fld := ⟨DMC_MRW i, 8, 8⟩
def DMC_MRW_SUBCH (i : Nat) : Fld := ⟨DMC_MRW i, 16, 1⟩
def DMC_MRW_RANK (i : Nat) : Fld := ⟨DMC_MRW i, 17, 1⟩
def DMC_MRW_READ (i : Nat) : Fld := ⟨DMC_MRW i, 18, 1⟩
def DMC_MRW_GO (i : Nat) : Fld := ⟨DMC_MRW i, 19, 1⟩
def DMC_MRW_RDATA (i : Nat) : Fld := ⟨DMC_MRW i, 20, 8⟩
/-- DMC.FILL (R368). -/
def DMC_FILL (i : Nat) : Nat := 3932208 + 16384 * i
def DMC_FILL_GO (i : Nat) : Fld := ⟨DMC_FILL i, 0, 1⟩
def DMC_FILL_DONE (i : Nat) : Fld := ⟨DMC_FILL i, 1, 1⟩
/-- DMC.QOS (R369). -/
def DMC_QOS (i : Nat) : Nat := 3932224 + 16384 * i
def DMC_QOS_AGE_SC3 (i : Nat) : Fld := ⟨DMC_QOS i, 0, 12⟩
/-- DMC.BUDGET (R369). -/
def DMC_BUDGET (i : Nat) : Nat := 3932228 + 16384 * i
def DMC_BUDGET_SC0_KIB (i : Nat) : Fld := ⟨DMC_BUDGET i, 0, 8⟩
def DMC_BUDGET_FLOOR_KIB (i : Nat) : Fld := ⟨DMC_BUDGET i, 8, 8⟩
def DMC_BUDGET_SC1_KIB (i : Nat) : Fld := ⟨DMC_BUDGET i, 16, 8⟩
/-- DMC.HAMMER (R369). -/
def DMC_HAMMER (i : Nat) : Nat := 3932240 + 16384 * i
def DMC_HAMMER_TH (i : Nat) : Fld := ⟨DMC_HAMMER i, 0, 16⟩
def DMC_HAMMER_GAP (i : Nat) : Fld := ⟨DMC_HAMMER i, 16, 8⟩
def DMC_HAMMER_RFM_SUP (i : Nat) : Fld := ⟨DMC_HAMMER i, 24, 1⟩
def DMC_HAMMER_DRFM_SUP (i : Nat) : Fld := ⟨DMC_HAMMER i, 25, 1⟩
/-- DMC.THROTTLE (R369). -/
def DMC_THROTTLE (i : Nat) : Nat := 3932244 + 16384 * i
def DMC_THROTTLE_CLIENT (i : Nat) : Fld := ⟨DMC_THROTTLE i, 0, 10⟩
def DMC_THROTTLE_BANK (i : Nat) : Fld := ⟨DMC_THROTTLE i, 10, 5⟩
def DMC_THROTTLE_SUBCH (i : Nat) : Fld := ⟨DMC_THROTTLE i, 15, 1⟩
def DMC_THROTTLE_RANK (i : Nat) : Fld := ⟨DMC_THROTTLE i, 16, 1⟩
/-- DMC.THROTTLE_ROW (R369). -/
def DMC_THROTTLE_ROW (i : Nat) : Nat := 3932248 + 16384 * i
def DMC_THROTTLE_ROW_ROW (i : Nat) : Fld := ⟨DMC_THROTTLE_ROW i, 0, 18⟩
/-- DMC.THROTTLE_CNT (R369). -/
def DMC_THROTTLE_CNT (i : Nat) : Nat := 3932252 + 16384 * i
def DMC_THROTTLE_CNT_COUNT (i : Nat) : Fld := ⟨DMC_THROTTLE_CNT i, 0, 32⟩
/-- DMC.SCRUB (R369). -/
def DMC_SCRUB (i : Nat) : Nat := 3932256 + 16384 * i
def DMC_SCRUB_ROT_LOG2 (i : Nat) : Fld := ⟨DMC_SCRUB i, 0, 4⟩
def DMC_SCRUB_ENABLE (i : Nat) : Fld := ⟨DMC_SCRUB i, 4, 1⟩
def DMC_SCRUB_PASSES (i : Nat) : Fld := ⟨DMC_SCRUB i, 16, 16⟩
/-- DMC.REMAP (R369). -/
def DMC_REMAP (i : Nat) : Nat := 3932272 + 16384 * i
def DMC_REMAP_USED (i : Nat) : Fld := ⟨DMC_REMAP i, 0, 13⟩
/-- DMC.SLICE_UE (R369). -/
def DMC_SLICE_UE (i : Nat) : Nat := 3932276 + 16384 * i
def DMC_SLICE_UE_UE_0 (i : Nat) : Fld := ⟨DMC_SLICE_UE i, 0, 8⟩
def DMC_SLICE_UE_UE_1 (i : Nat) : Fld := ⟨DMC_SLICE_UE i, 8, 8⟩
def DMC_SLICE_UE_UE_2 (i : Nat) : Fld := ⟨DMC_SLICE_UE i, 16, 8⟩
def DMC_SLICE_UE_UE_3 (i : Nat) : Fld := ⟨DMC_SLICE_UE i, 24, 8⟩
/-- DMC.EVENT (R370). -/
def DMC_EVENT (i : Nat) : Nat := 3932288 + 16384 * i
def DMC_EVENT_UE_REMAP (i : Nat) : Fld := ⟨DMC_EVENT i, 0, 1⟩
def DMC_EVENT_SLICE_FAILING (i : Nat) : Fld := ⟨DMC_EVENT i, 1, 1⟩
def DMC_EVENT_REMAP_FULL (i : Nat) : Fld := ⟨DMC_EVENT i, 2, 1⟩
def DMC_EVENT_SLICE_RETIRED (i : Nat) : Fld := ⟨DMC_EVENT i, 3, 1⟩
def DMC_EVENT_THROTTLE (i : Nat) : Fld := ⟨DMC_EVENT i, 4, 1⟩
def DMC_EVENT_FILL_DONE (i : Nat) : Fld := ⟨DMC_EVENT i, 5, 1⟩
def DMC_EVENT_TRAIN_DONE (i : Nat) : Fld := ⟨DMC_EVENT i, 6, 1⟩
/-- DMC.EVENT_EN (R370). -/
def DMC_EVENT_EN (i : Nat) : Nat := 3932292 + 16384 * i
def DMC_EVENT_EN_UE_REMAP (i : Nat) : Fld := ⟨DMC_EVENT_EN i, 0, 1⟩
def DMC_EVENT_EN_SLICE_FAILING (i : Nat) : Fld := ⟨DMC_EVENT_EN i, 1, 1⟩
def DMC_EVENT_EN_REMAP_FULL (i : Nat) : Fld := ⟨DMC_EVENT_EN i, 2, 1⟩
def DMC_EVENT_EN_SLICE_RETIRED (i : Nat) : Fld := ⟨DMC_EVENT_EN i, 3, 1⟩
def DMC_EVENT_EN_THROTTLE (i : Nat) : Fld := ⟨DMC_EVENT_EN i, 4, 1⟩
def DMC_EVENT_EN_FILL_DONE (i : Nat) : Fld := ⟨DMC_EVENT_EN i, 5, 1⟩
def DMC_EVENT_EN_TRAIN_DONE (i : Nat) : Fld := ⟨DMC_EVENT_EN i, 6, 1⟩
/-- DMC.FLIPMASK0 (R304). -/
def DMC_FLIPMASK0 (i : Nat) : Nat := 3936000 + 16384 * i
def DMC_FLIPMASK0_DATA_LO (i : Nat) : Fld := ⟨DMC_FLIPMASK0 i, 0, 32⟩
/-- DMC.FLIPMASK1 (R304). -/
def DMC_FLIPMASK1 (i : Nat) : Nat := 3936004 + 16384 * i
def DMC_FLIPMASK1_DATA_HI (i : Nat) : Fld := ⟨DMC_FLIPMASK1 i, 0, 32⟩
/-- DMC.FLIPMASK2 (R305). -/
def DMC_FLIPMASK2 (i : Nat) : Nat := 3936008 + 16384 * i
def DMC_FLIPMASK2_CHECK (i : Nat) : Fld := ⟨DMC_FLIPMASK2 i, 0, 8⟩
def DMC_FLIPMASK2_ASC (i : Nat) : Fld := ⟨DMC_FLIPMASK2 i, 8, 8⟩
def DMC_FLIPMASK2_WORD (i : Nat) : Fld := ⟨DMC_FLIPMASK2 i, 16, 3⟩
def DMC_FLIPMASK2_SUBCH (i : Nat) : Fld := ⟨DMC_FLIPMASK2 i, 19, 1⟩
def DMC_FLIPMASK2_CLIENT (i : Nat) : Fld := ⟨DMC_FLIPMASK2 i, 20, 10⟩
def DMC_FLIPMASK2_ARMED (i : Nat) : Fld := ⟨DMC_FLIPMASK2 i, 31, 1⟩
/-- DMC.LAYOUT (R371). -/
def DMC_LAYOUT : Nat := 3936256
def DMC_LAYOUT_K : Fld := ⟨DMC_LAYOUT, 0, 3⟩
def DMC_LAYOUT_HALF : Fld := ⟨DMC_LAYOUT, 3, 1⟩
def DMC_LAYOUT_PRESENT : Fld := ⟨DMC_LAYOUT, 4, 12⟩
def DMC_LAYOUT_CHAN_GIB : Fld := ⟨DMC_LAYOUT, 16, 6⟩
/-- DMC.SPARE (R371). -/
def DMC_SPARE : Nat := 3936260
def DMC_SPARE_GIB : Fld := ⟨DMC_SPARE, 0, 10⟩
def DMC_SPARE_SPARE_OK : Fld := ⟨DMC_SPARE, 10, 1⟩
/-- DMC.REMAP_BASE (R371). -/
def DMC_REMAP_BASE : Nat := 3936264
def DMC_REMAP_BASE_BASE_GIB : Fld := ⟨DMC_REMAP_BASE, 0, 10⟩
/-- DMC.RIDER_WIN (R371). -/
def DMC_RIDER_WIN : Nat := 3936268
def DMC_RIDER_WIN_BASE : Fld := ⟨DMC_RIDER_WIN, 0, 12⟩
/-- DMC.MAP_REPAIR (R371). -/
def DMC_MAP_REPAIR : Nat := 3936272
def DMC_MAP_REPAIR_LINE : Fld := ⟨DMC_MAP_REPAIR, 0, 30⟩
def DMC_MAP_REPAIR_GO : Fld := ⟨DMC_MAP_REPAIR, 30, 1⟩
def DMC_MAP_REPAIR_BUSY : Fld := ⟨DMC_MAP_REPAIR, 31, 1⟩
/-- DMC.MAP_REPAIR_SRC (R371). -/
def DMC_MAP_REPAIR_SRC : Nat := 3936276
def DMC_MAP_REPAIR_SRC_OFFSET : Fld := ⟨DMC_MAP_REPAIR_SRC, 0, 19⟩
/-- DMC.GLY_HOLD (R371). -/
def DMC_GLY_HOLD : Nat := 3936280
def DMC_GLY_HOLD_HOLD : Fld := ⟨DMC_GLY_HOLD, 0, 8⟩
/-- DMC.MAP_CFG (R208). -/
def DMC_MAP_CFG : Nat := 4128768
def DMC_MAP_CFG_LANES : Fld := ⟨DMC_MAP_CFG, 0, 2⟩
def DMC_MAP_CFG_UNITS_PER_MB : Fld := ⟨DMC_MAP_CFG, 2, 28⟩
/-- DMC.MAP_BASE (R208). -/
def DMC_MAP_BASE : Nat := 4128772
def DMC_MAP_BASE_BASE_GIB : Fld := ⟨DMC_MAP_BASE, 0, 9⟩
/-- DMC.MAP_GRAN (R208). -/
def DMC_MAP_GRAN : Nat := 4128776
def DMC_MAP_GRAN_GRAN_BANK : Fld := ⟨DMC_MAP_GRAN, 0, 5⟩
def DMC_MAP_GRAN_NS_BANK : Fld := ⟨DMC_MAP_GRAN, 8, 5⟩
/-- DMC.GLY_FREE (R209). -/
def DMC_GLY_FREE : Nat := 4128784
def DMC_GLY_FREE_FREE : Fld := ⟨DMC_GLY_FREE, 0, 19⟩
/-- DMC.GLY_CACHE (R209). -/
def DMC_GLY_CACHE : Nat := 4128788
def DMC_GLY_CACHE_CACHE : Fld := ⟨DMC_GLY_CACHE, 0, 19⟩
/-- DMC.GLY_MOVE (R209). -/
def DMC_GLY_MOVE : Nat := 4128792
def DMC_GLY_MOVE_CHAN : Fld := ⟨DMC_GLY_MOVE, 0, 4⟩
def DMC_GLY_MOVE_START : Fld := ⟨DMC_GLY_MOVE, 4, 1⟩
def DMC_GLY_MOVE_ACTIVE : Fld := ⟨DMC_GLY_MOVE, 5, 1⟩
def DMC_GLY_MOVE_LEFT_KSLOTS : Fld := ⟨DMC_GLY_MOVE, 16, 16⟩
/-- DMC.MUP_RING (R210). -/
def DMC_MUP_RING : Nat := 4128800
def DMC_MUP_RING_BANK : Fld := ⟨DMC_MUP_RING, 0, 5⟩
def DMC_MUP_RING_LOG2_ENTRIES : Fld := ⟨DMC_MUP_RING, 8, 4⟩
/-- DMC.MUP_PTR (R210). -/
def DMC_MUP_PTR : Nat := 4128804
def DMC_MUP_PTR_TAIL : Fld := ⟨DMC_MUP_PTR, 0, 16⟩
def DMC_MUP_PTR_HEAD : Fld := ⟨DMC_MUP_PTR, 16, 16⟩
/-- DMC.JNL_STATUS (R211). -/
def DMC_JNL_STATUS : Nat := 4128816
def DMC_JNL_STATUS_USED : Fld := ⟨DMC_JNL_STATUS, 0, 17⟩
def DMC_JNL_STATUS_FULL : Fld := ⟨DMC_JNL_STATUS, 17, 1⟩
/-- DMC.JNL_SEQ_LO (R211). -/
def DMC_JNL_SEQ_LO : Nat := 4128824
def DMC_JNL_SEQ_LO_SEQ_LO : Fld := ⟨DMC_JNL_SEQ_LO, 0, 32⟩
/-- DMC.JNL_SEQ_HI (R211). -/
def DMC_JNL_SEQ_HI : Nat := 4128828
def DMC_JNL_SEQ_HI_SEQ_HI : Fld := ⟨DMC_JNL_SEQ_HI, 0, 32⟩
/-- DMC.SNAP_CTRL (R212). -/
def DMC_SNAP_CTRL : Nat := 4128832
def DMC_SNAP_CTRL_MARK : Fld := ⟨DMC_SNAP_CTRL, 0, 1⟩
/-- DMC.SNAP_STATUS (R212). -/
def DMC_SNAP_STATUS : Nat := 4128836
def DMC_SNAP_STATUS_WRITING : Fld := ⟨DMC_SNAP_STATUS, 0, 1⟩
def DMC_SNAP_STATUS_MARK_LOST : Fld := ⟨DMC_SNAP_STATUS, 1, 1⟩
def DMC_SNAP_STATUS_SHADOW_FULL : Fld := ⟨DMC_SNAP_STATUS, 2, 1⟩
def DMC_SNAP_STATUS_DIRTY_KPAGES : Fld := ⟨DMC_SNAP_STATUS, 8, 23⟩
/-- DMC.SNAP_SEQ_LO (R212). -/
def DMC_SNAP_SEQ_LO : Nat := 4128840
def DMC_SNAP_SEQ_LO_SEQ_LO : Fld := ⟨DMC_SNAP_SEQ_LO, 0, 32⟩
/-- DMC.SNAP_SEQ_HI (R212). -/
def DMC_SNAP_SEQ_HI : Nat := 4128844
def DMC_SNAP_SEQ_HI_SEQ_HI : Fld := ⟨DMC_SNAP_SEQ_HI, 0, 32⟩
/-- DMC.OVL_STATUS (R213). -/
def DMC_OVL_STATUS : Nat := 4128848
def DMC_OVL_STATUS_IN_USE : Fld := ⟨DMC_OVL_STATUS, 0, 29⟩
/-- DMC.OVL_HIGH (R213). -/
def DMC_OVL_HIGH : Nat := 4128852
def DMC_OVL_HIGH_EIGHTHS : Fld := ⟨DMC_OVL_HIGH, 0, 3⟩
/-- DMA.CTRL (R392). -/
def DMA_CTRL (i : Nat) : Nat := 4194304 + 256 * i
def DMA_CTRL_ENABLE (i : Nat) : Fld := ⟨DMA_CTRL i, 0, 1⟩
def DMA_CTRL_ABORT (i : Nat) : Fld := ⟨DMA_CTRL i, 1, 1⟩
def DMA_CTRL_RESUME (i : Nat) : Fld := ⟨DMA_CTRL i, 2, 1⟩
/-- DMA.STATUS (R392). -/
def DMA_STATUS (i : Nat) : Nat := 4194308 + 256 * i
def DMA_STATUS_STATE (i : Nat) : Fld := ⟨DMA_STATUS i, 0, 2⟩
def DMA_STATUS_CODE (i : Nat) : Fld := ⟨DMA_STATUS i, 2, 4⟩
def DMA_STATUS_LINE (i : Nat) : Fld := ⟨DMA_STATUS i, 6, 1⟩
/-- DMA.RING_BASE_LO (R393). -/
def DMA_RING_BASE_LO (i : Nat) : Nat := 4194312 + 256 * i
def DMA_RING_BASE_LO_BASE_LO (i : Nat) : Fld := ⟨DMA_RING_BASE_LO i, 12, 20⟩
/-- DMA.RING_BASE_HI (R393). -/
def DMA_RING_BASE_HI (i : Nat) : Nat := 4194316 + 256 * i
def DMA_RING_BASE_HI_BASE_HI (i : Nat) : Fld := ⟨DMA_RING_BASE_HI i, 0, 16⟩
/-- DMA.RING_CFG (R393). -/
def DMA_RING_CFG (i : Nat) : Nat := 4194320 + 256 * i
def DMA_RING_CFG_LOG2_ENTRIES (i : Nat) : Fld := ⟨DMA_RING_CFG i, 0, 4⟩
/-- DMA.RING_PTR (R393). -/
def DMA_RING_PTR (i : Nat) : Nat := 4194324 + 256 * i
def DMA_RING_PTR_TAIL (i : Nat) : Fld := ⟨DMA_RING_PTR i, 0, 16⟩
def DMA_RING_PTR_HEAD (i : Nat) : Fld := ⟨DMA_RING_PTR i, 16, 16⟩
/-- DMA.ASSIGN (R394). -/
def DMA_ASSIGN (i : Nat) : Nat := 4194328 + 256 * i
def DMA_ASSIGN_OWNER (i : Nat) : Fld := ⟨DMA_ASSIGN i, 0, 10⟩
def DMA_ASSIGN_REQ_LINE (i : Nat) : Fld := ⟨DMA_ASSIGN i, 10, 6⟩
/-- DMA.RESIDUE (R392). -/
def DMA_RESIDUE (i : Nat) : Nat := 4194332 + 256 * i
def DMA_RESIDUE_BYTES (i : Nat) : Fld := ⟨DMA_RESIDUE i, 0, 32⟩
/-- DMA.BYTES (R394). -/
def DMA_BYTES (i : Nat) : Nat := 4194344 + 256 * i
def DMA_BYTES_KIB (i : Nat) : Fld := ⟨DMA_BYTES i, 0, 32⟩
/-- DMA.INT_STATUS (R395). -/
def DMA_INT_STATUS (i : Nat) : Nat := 4194336 + 256 * i
def DMA_INT_STATUS_DONE (i : Nat) : Fld := ⟨DMA_INT_STATUS i, 0, 1⟩
def DMA_INT_STATUS_ERROR (i : Nat) : Fld := ⟨DMA_INT_STATUS i, 1, 1⟩
def DMA_INT_STATUS_ABORTED (i : Nat) : Fld := ⟨DMA_INT_STATUS i, 2, 1⟩
def DMA_INT_STATUS_LATE_ABORT (i : Nat) : Fld := ⟨DMA_INT_STATUS i, 3, 1⟩
/-- DMA.INT_EN (R395). -/
def DMA_INT_EN (i : Nat) : Nat := 4194340 + 256 * i
def DMA_INT_EN_DONE (i : Nat) : Fld := ⟨DMA_INT_EN i, 0, 1⟩
def DMA_INT_EN_ERROR (i : Nat) : Fld := ⟨DMA_INT_EN i, 1, 1⟩
def DMA_INT_EN_ABORTED (i : Nat) : Fld := ⟨DMA_INT_EN i, 2, 1⟩
def DMA_INT_EN_LATE_ABORT (i : Nat) : Fld := ⟨DMA_INT_EN i, 3, 1⟩
/-- OCM.STATUS (R373). -/
def OCM_STATUS : Nat := 4259840
def OCM_STATUS_LOST_COUNT : Fld := ⟨OCM_STATUS, 0, 8⟩
def OCM_STATUS_DISABLED_COUNT : Fld := ⟨OCM_STATUS, 8, 8⟩
/-- OCM.EVENT (R373). -/
def OCM_EVENT : Nat := 4259844
def OCM_EVENT_LOST : Fld := ⟨OCM_EVENT, 0, 1⟩
def OCM_EVENT_DISABLED : Fld := ⟨OCM_EVENT, 1, 1⟩
def OCM_EVENT_MBX_COLLIDE : Fld := ⟨OCM_EVENT, 2, 1⟩
def OCM_EVENT_REPAIR_DONE : Fld := ⟨OCM_EVENT, 3, 1⟩
/-- OCM.STEAL (R373). -/
def OCM_STEAL : Nat := 4259856
def OCM_STEAL_LIMIT : Fld := ⟨OCM_STEAL, 0, 5⟩
/-- OCM.CANARY (R373). -/
def OCM_CANARY : Nat := 4259860
def OCM_CANARY_SEED : Fld := ⟨OCM_CANARY, 0, 32⟩
/-- OCM.MBX_COLLIDE (R373). -/
def OCM_MBX_COLLIDE : Nat := 4259864
def OCM_MBX_COLLIDE_COUNT : Fld := ⟨OCM_MBX_COLLIDE, 0, 32⟩
/-- OCM.REPAIR (R373). -/
def OCM_REPAIR : Nat := 4259872
def OCM_REPAIR_BANK : Fld := ⟨OCM_REPAIR, 0, 8⟩
def OCM_REPAIR_COLUMN : Fld := ⟨OCM_REPAIR, 8, 11⟩
def OCM_REPAIR_GO : Fld := ⟨OCM_REPAIR, 19, 1⟩
/-- OCM.REPAIR_STATUS (R373). -/
def OCM_REPAIR_STATUS : Nat := 4259876
def OCM_REPAIR_STATUS_BUSY : Fld := ⟨OCM_REPAIR_STATUS, 0, 1⟩
def OCM_REPAIR_STATUS_RESULT : Fld := ⟨OCM_REPAIR_STATUS, 1, 2⟩
/-- OCM.EVENT_EN (R373). -/
def OCM_EVENT_EN : Nat := 4259848
def OCM_EVENT_EN_LOST : Fld := ⟨OCM_EVENT_EN, 0, 1⟩
def OCM_EVENT_EN_DISABLED : Fld := ⟨OCM_EVENT_EN, 1, 1⟩
def OCM_EVENT_EN_MBX_COLLIDE : Fld := ⟨OCM_EVENT_EN, 2, 1⟩
def OCM_EVENT_EN_REPAIR_DONE : Fld := ⟨OCM_EVENT_EN, 3, 1⟩
/-- OCM.BANK (R373). -/
def OCM_BANK (i : Nat) : Nat := 4260096 + 4 * i
def OCM_BANK_STATE (i : Nat) : Fld := ⟨OCM_BANK i, 0, 2⟩
def OCM_BANK_REQ (i : Nat) : Fld := ⟨OCM_BANK i, 2, 2⟩
def OCM_BANK_LOST (i : Nat) : Fld := ⟨OCM_BANK i, 4, 1⟩
def OCM_BANK_SWEEP (i : Nat) : Fld := ⟨OCM_BANK i, 5, 1⟩
def OCM_BANK_SPARES (i : Nat) : Fld := ⟨OCM_BANK i, 6, 3⟩
def OCM_BANK_OWNER (i : Nat) : Fld := ⟨OCM_BANK i, 10, 10⟩
def OCM_BANK_DISABLE (i : Nat) : Fld := ⟨OCM_BANK i, 20, 1⟩
def OCM_BANK_REDIRECT (i : Nat) : Fld := ⟨OCM_BANK i, 21, 8⟩
/-- OCM.FLIPMASK0 (R304). -/
def OCM_FLIPMASK0 : Nat := 4263680
def OCM_FLIPMASK0_DATA_LO : Fld := ⟨OCM_FLIPMASK0, 0, 32⟩
/-- OCM.FLIPMASK1 (R304). -/
def OCM_FLIPMASK1 : Nat := 4263684
def OCM_FLIPMASK1_DATA_HI : Fld := ⟨OCM_FLIPMASK1, 0, 32⟩
/-- OCM.FLIPMASK2 (R304). -/
def OCM_FLIPMASK2 : Nat := 4263688
def OCM_FLIPMASK2_CHECK : Fld := ⟨OCM_FLIPMASK2, 0, 8⟩
def OCM_FLIPMASK2_MEM_SEL : Fld := ⟨OCM_FLIPMASK2, 8, 8⟩
def OCM_FLIPMASK2_CLIENT : Fld := ⟨OCM_FLIPMASK2, 16, 10⟩
def OCM_FLIPMASK2_ARMED : Fld := ⟨OCM_FLIPMASK2, 31, 1⟩
/-- FWS.KEY (R425). -/
def FWS_KEY : Nat := 4325376
def FWS_KEY_KEY : Fld := ⟨FWS_KEY, 0, 16⟩
/-- FWS.CMD (R425). -/
def FWS_CMD : Nat := 4325380
def FWS_CMD_OPCODE : Fld := ⟨FWS_CMD, 0, 8⟩
/-- FWS.ADDR (R425). -/
def FWS_ADDR : Nat := 4325384
def FWS_ADDR_ADDR : Fld := ⟨FWS_ADDR, 0, 27⟩
/-- FWS.DATA (R425). -/
def FWS_DATA : Nat := 4325388
def FWS_DATA_DATA : Fld := ⟨FWS_DATA, 0, 32⟩
/-- FWS.STATUS (R426). -/
def FWS_STATUS : Nat := 4325392
def FWS_STATUS_SEQ_STATE : Fld := ⟨FWS_STATUS, 0, 3⟩
def FWS_STATUS_HOLDER : Fld := ⟨FWS_STATUS, 3, 10⟩
def FWS_STATUS_ERR_SEQ : Fld := ⟨FWS_STATUS, 13, 1⟩
def FWS_STATUS_ERR_SELFBANK : Fld := ⟨FWS_STATUS, 14, 1⟩
def FWS_STATUS_ERR_ADDR : Fld := ⟨FWS_STATUS, 15, 1⟩
def FWS_STATUS_ERR_DATA : Fld := ⟨FWS_STATUS, 16, 1⟩
def FWS_STATUS_ERR_ORDER : Fld := ⟨FWS_STATUS, 17, 1⟩
/-- FWS.BANK (R427). -/
def FWS_BANK (i : Nat) : Nat := 4325396 + 4 * i
def FWS_BANK_STATE (i : Nat) : Fld := ⟨FWS_BANK i, 0, 3⟩
def FWS_BANK_FAIL (i : Nat) : Fld := ⟨FWS_BANK i, 3, 1⟩
def FWS_BANK_PULSES (i : Nat) : Fld := ⟨FWS_BANK i, 4, 6⟩
def FWS_BANK_BLOCK (i : Nat) : Fld := ⟨FWS_BANK i, 10, 8⟩
def FWS_BANK_SUSP_COUNT (i : Nat) : Fld := ⟨FWS_BANK i, 18, 14⟩
/-- FWS.XO (R428). -/
def FWS_XO (i : Nat) : Nat := 4325408 + 4 * i
def FWS_XO_FIRST (i : Nat) : Fld := ⟨FWS_XO i, 0, 8⟩
def FWS_XO_LAST (i : Nat) : Fld := ⟨FWS_XO i, 8, 8⟩
def FWS_XO_EN (i : Nat) : Fld := ⟨FWS_XO i, 16, 1⟩
def FWS_XO_LOCK (i : Nat) : Fld := ⟨FWS_XO i, 31, 1⟩
/-- FWS.EVENT (R429). -/
def FWS_EVENT : Nat := 4325424
def FWS_EVENT_DONE0 : Fld := ⟨FWS_EVENT, 0, 1⟩
def FWS_EVENT_DONE1 : Fld := ⟨FWS_EVENT, 1, 1⟩
def FWS_EVENT_FAIL : Fld := ⟨FWS_EVENT, 2, 1⟩
def FWS_EVENT_ERR : Fld := ⟨FWS_EVENT, 3, 1⟩
def FWS_EVENT_XO_READ : Fld := ⟨FWS_EVENT, 4, 1⟩
/-- FWS.EVENT_EN (R429). -/
def FWS_EVENT_EN : Nat := 4325428
def FWS_EVENT_EN_DONE0 : Fld := ⟨FWS_EVENT_EN, 0, 1⟩
def FWS_EVENT_EN_DONE1 : Fld := ⟨FWS_EVENT_EN, 1, 1⟩
def FWS_EVENT_EN_FAIL : Fld := ⟨FWS_EVENT_EN, 2, 1⟩
def FWS_EVENT_EN_ERR : Fld := ⟨FWS_EVENT_EN, 3, 1⟩
def FWS_EVENT_EN_XO_READ : Fld := ⟨FWS_EVENT_EN, 4, 1⟩
/-- FWS.FLAG (R428). -/
def FWS_FLAG (i : Nat) : Nat := 4325632 + 4 * i
def FWS_FLAG_SET (i : Nat) : Fld := ⟨FWS_FLAG i, 0, 32⟩
/-- FWS.PBUF (R425). -/
def FWS_PBUF (i : Nat) : Nat := 4329472 + 4 * i
def FWS_PBUF_BYTES (i : Nat) : Fld := ⟨FWS_PBUF i, 0, 32⟩
/-- MBX.RDB_SET (R486). -/
def MBX_RDB_SET : Nat := 4390912
def MBX_RDB_SET_BITS : Fld := ⟨MBX_RDB_SET, 0, 32⟩
/-- MBX.RDB (R486). -/
def MBX_RDB : Nat := 4390916
def MBX_RDB_BITS : Fld := ⟨MBX_RDB, 0, 32⟩
/-- MBX.CDB_SET (R486). -/
def MBX_CDB_SET (i : Nat) : Nat := 4390928 + 8 * i
def MBX_CDB_SET_BITS (i : Nat) : Fld := ⟨MBX_CDB_SET i, 0, 32⟩
/-- MBX.CDB (R486). -/
def MBX_CDB (i : Nat) : Nat := 4390932 + 8 * i
def MBX_CDB_BITS (i : Nat) : Fld := ⟨MBX_CDB i, 0, 32⟩
/-- MBX.UART_CFG (R486). -/
def MBX_UART_CFG : Nat := 4391168
def MBX_UART_CFG_DIV : Fld := ⟨MBX_UART_CFG, 0, 16⟩
def MBX_UART_CFG_EN : Fld := ⟨MBX_UART_CFG, 16, 1⟩
/-- MBX.UART_STATUS (R486). -/
def MBX_UART_STATUS : Nat := 4391172
def MBX_UART_STATUS_RX_LEVEL : Fld := ⟨MBX_UART_STATUS, 0, 6⟩
def MBX_UART_STATUS_TX_SPACE : Fld := ⟨MBX_UART_STATUS, 6, 6⟩
def MBX_UART_STATUS_OVERRUN : Fld := ⟨MBX_UART_STATUS, 12, 1⟩
def MBX_UART_STATUS_FRAME_ERR : Fld := ⟨MBX_UART_STATUS, 13, 1⟩
/-- MBX.UART_DATA (R486). -/
def MBX_UART_DATA : Nat := 4391176
def MBX_UART_DATA_BYTE : Fld := ⟨MBX_UART_DATA, 0, 8⟩
/-- MBX.MCTP_CFG (R486). -/
def MBX_MCTP_CFG (i : Nat) : Nat := 4391424 + 32 * i
def MBX_MCTP_CFG_SMB_ADDR (i : Nat) : Fld := ⟨MBX_MCTP_CFG i, 0, 7⟩
def MBX_MCTP_CFG_FREQ (i : Nat) : Fld := ⟨MBX_MCTP_CFG i, 7, 2⟩
def MBX_MCTP_CFG_EN (i : Nat) : Fld := ⟨MBX_MCTP_CFG i, 9, 1⟩
/-- MBX.MCTP_STATUS (R486). -/
def MBX_MCTP_STATUS (i : Nat) : Nat := 4391428 + 32 * i
def MBX_MCTP_STATUS_RX_LEVEL (i : Nat) : Fld := ⟨MBX_MCTP_STATUS i, 0, 11⟩
def MBX_MCTP_STATUS_TX_SPACE (i : Nat) : Fld := ⟨MBX_MCTP_STATUS i, 11, 11⟩
def MBX_MCTP_STATUS_RX_OVERFLOW (i : Nat) : Fld := ⟨MBX_MCTP_STATUS i, 22, 1⟩
/-- MBX.MCTP_RX (R486). -/
def MBX_MCTP_RX (i : Nat) : Nat := 4391432 + 32 * i
def MBX_MCTP_RX_WORD (i : Nat) : Fld := ⟨MBX_MCTP_RX i, 0, 32⟩
/-- MBX.MCTP_TX (R486). -/
def MBX_MCTP_TX (i : Nat) : Nat := 4391436 + 32 * i
def MBX_MCTP_TX_WORD (i : Nat) : Fld := ⟨MBX_MCTP_TX i, 0, 32⟩
/-- GAU.CFG (R465). -/
def GAU_CFG : Nat := 4456448
def GAU_CFG_FIFO_EN : Fld := ⟨GAU_CFG, 0, 1⟩
def GAU_CFG_BURST_LOG2 : Fld := ⟨GAU_CFG, 1, 4⟩
def GAU_CFG_RD_PRESENT : Fld := ⟨GAU_CFG, 5, 8⟩
/-- GAU.FIFO (R465). -/
def GAU_FIFO : Nat := 4456452
def GAU_FIFO_WORD : Fld := ⟨GAU_FIFO, 0, 32⟩
/-- GAU.FIFO_STATUS (R465). -/
def GAU_FIFO_STATUS : Nat := 4456456
def GAU_FIFO_STATUS_LEVEL : Fld := ⟨GAU_FIFO_STATUS, 0, 10⟩
def GAU_FIFO_STATUS_OVERFLOW : Fld := ⟨GAU_FIFO_STATUS, 10, 1⟩
/-- GAU.EVENT (R465). -/
def GAU_EVENT : Nat := 4456480
def GAU_EVENT_FAULT : Fld := ⟨GAU_EVENT, 0, 1⟩
def GAU_EVENT_FIFO_OVF : Fld := ⟨GAU_EVENT, 1, 1⟩
def GAU_EVENT_TJ_HOT : Fld := ⟨GAU_EVENT, 2, 1⟩
/-- GAU.ENERGY_LO (R465). -/
def GAU_ENERGY_LO : Nat := 4456464
def GAU_ENERGY_LO_UJ : Fld := ⟨GAU_ENERGY_LO, 0, 32⟩
/-- GAU.ENERGY_HI (R465). -/
def GAU_ENERGY_HI : Nat := 4456468
def GAU_ENERGY_HI_UJ : Fld := ⟨GAU_ENERGY_HI, 0, 32⟩
/-- GAU.EVENT_EN (R465). -/
def GAU_EVENT_EN : Nat := 4456484
def GAU_EVENT_EN_FAULT : Fld := ⟨GAU_EVENT_EN, 0, 1⟩
def GAU_EVENT_EN_FIFO_OVF : Fld := ⟨GAU_EVENT_EN, 1, 1⟩
def GAU_EVENT_EN_TJ_HOT : Fld := ⟨GAU_EVENT_EN, 2, 1⟩
/-- GAU.SAMPLE_T (R465). -/
def GAU_SAMPLE_T (i : Nat) : Nat := 4456704 + 4 * i
def GAU_SAMPLE_T_TEMP (i : Nat) : Fld := ⟨GAU_SAMPLE_T i, 0, 10⟩
def GAU_SAMPLE_T_FAULT (i : Nat) : Fld := ⟨GAU_SAMPLE_T i, 30, 1⟩
def GAU_SAMPLE_T_VALID (i : Nat) : Fld := ⟨GAU_SAMPLE_T i, 31, 1⟩
/-- GAU.SAMPLE_R (R465). -/
def GAU_SAMPLE_R (i : Nat) : Nat := 4456800 + 4 * i
def GAU_SAMPLE_R_MV (i : Nat) : Fld := ⟨GAU_SAMPLE_R i, 0, 12⟩
def GAU_SAMPLE_R_CURRENT (i : Nat) : Fld := ⟨GAU_SAMPLE_R i, 12, 16⟩
def GAU_SAMPLE_R_FAULT (i : Nat) : Fld := ⟨GAU_SAMPLE_R i, 30, 1⟩
def GAU_SAMPLE_R_VALID (i : Nat) : Fld := ⟨GAU_SAMPLE_R i, 31, 1⟩
/-- ERC.EVENT (R309). -/
def ERC_EVENT : Nat := 4521984
def ERC_EVENT_SRAM_UE : Fld := ⟨ERC_EVENT, 0, 1⟩
def ERC_EVENT_DRAM_UE : Fld := ⟨ERC_EVENT, 1, 1⟩
def ERC_EVENT_BUS_ERR : Fld := ⟨ERC_EVENT, 2, 1⟩
def ERC_EVENT_PROOF : Fld := ⟨ERC_EVENT, 3, 1⟩
def ERC_EVENT_FAB_LIMIT : Fld := ⟨ERC_EVENT, 4, 1⟩
def ERC_EVENT_FLIP_USED : Fld := ⟨ERC_EVENT, 5, 1⟩
/-- ERC.EVENT_EN (R309). -/
def ERC_EVENT_EN : Nat := 4521988
def ERC_EVENT_EN_SRAM_UE : Fld := ⟨ERC_EVENT_EN, 0, 1⟩
def ERC_EVENT_EN_DRAM_UE : Fld := ⟨ERC_EVENT_EN, 1, 1⟩
def ERC_EVENT_EN_BUS_ERR : Fld := ⟨ERC_EVENT_EN, 2, 1⟩
def ERC_EVENT_EN_PROOF : Fld := ⟨ERC_EVENT_EN, 3, 1⟩
def ERC_EVENT_EN_FAB_LIMIT : Fld := ⟨ERC_EVENT_EN, 4, 1⟩
def ERC_EVENT_EN_FLIP_USED : Fld := ⟨ERC_EVENT_EN, 5, 1⟩
/-- ERC.CE_SRAM (R307). -/
def ERC_CE_SRAM : Nat := 4522000
def ERC_CE_SRAM_COUNT : Fld := ⟨ERC_CE_SRAM, 0, 32⟩
/-- ERC.CE_DRAM (R307). -/
def ERC_CE_DRAM : Nat := 4522004
def ERC_CE_DRAM_COUNT : Fld := ⟨ERC_CE_DRAM, 0, 32⟩
/-- ERC.UE (R307). -/
def ERC_UE : Nat := 4522008
def ERC_UE_COUNT : Fld := ⟨ERC_UE, 0, 32⟩
/-- ERC.BUSERR (R307). -/
def ERC_BUSERR : Nat := 4522012
def ERC_BUSERR_COUNT : Fld := ⟨ERC_BUSERR, 0, 32⟩
/-- ERC.PROOF (R307). -/
def ERC_PROOF : Nat := 4522016
def ERC_PROOF_COUNT : Fld := ⟨ERC_PROOF, 0, 32⟩
/-- ERC.LAST (R307). -/
def ERC_LAST : Nat := 4522032
def ERC_LAST_CLIENT : Fld := ⟨ERC_LAST, 0, 10⟩
def ERC_LAST_KIND : Fld := ⟨ERC_LAST, 10, 4⟩
def ERC_LAST_WRITE : Fld := ⟨ERC_LAST, 14, 1⟩
def ERC_LAST_MEM : Fld := ⟨ERC_LAST, 16, 8⟩
def ERC_LAST_MORE : Fld := ⟨ERC_LAST, 30, 1⟩
def ERC_LAST_VALID : Fld := ⟨ERC_LAST, 31, 1⟩
/-- ERC.LAST_ADDR_LO (R307). -/
def ERC_LAST_ADDR_LO : Nat := 4522036
def ERC_LAST_ADDR_LO_ADDR_LO : Fld := ⟨ERC_LAST_ADDR_LO, 0, 32⟩
/-- ERC.LAST_ADDR_HI (R307). -/
def ERC_LAST_ADDR_HI : Nat := 4522040
def ERC_LAST_ADDR_HI_ADDR_HI : Fld := ⟨ERC_LAST_ADDR_HI, 0, 8⟩
/-- ERC.OVR_SEL (R308). -/
def ERC_OVR_SEL : Nat := 4522048
def ERC_OVR_SEL_UNIT : Fld := ⟨ERC_OVR_SEL, 0, 11⟩
/-- ERC.OVR_COUNT (R308). -/
def ERC_OVR_COUNT : Nat := 4522052
def ERC_OVR_COUNT_COUNT : Fld := ⟨ERC_OVR_COUNT, 0, 32⟩
/-- ERC.FAB_SEL (R308). -/
def ERC_FAB_SEL : Nat := 4522056
def ERC_FAB_SEL_UNIT : Fld := ⟨ERC_FAB_SEL, 0, 11⟩
def ERC_FAB_SEL_LINK : Fld := ⟨ERC_FAB_SEL, 11, 3⟩
/-- ERC.FAB_COUNT (R308). -/
def ERC_FAB_COUNT : Nat := 4522060
def ERC_FAB_COUNT_COUNT : Fld := ⟨ERC_FAB_COUNT, 0, 32⟩
/-- BST.CTRL (R485). -/
def BST_CTRL : Nat := 4587520
def BST_CTRL_START : Fld := ⟨BST_CTRL, 0, 1⟩
def BST_CTRL_KIND : Fld := ⟨BST_CTRL, 1, 3⟩
def BST_CTRL_SOURCE : Fld := ⟨BST_CTRL, 4, 4⟩
def BST_CTRL_ABORT : Fld := ⟨BST_CTRL, 8, 1⟩
/-- BST.STATUS (R485). -/
def BST_STATUS : Nat := 4587524
def BST_STATUS_BUSY : Fld := ⟨BST_STATUS, 0, 1⟩
def BST_STATUS_KIND : Fld := ⟨BST_STATUS, 1, 3⟩
def BST_STATUS_PCT : Fld := ⟨BST_STATUS, 4, 7⟩
def BST_STATUS_SOURCE : Fld := ⟨BST_STATUS, 11, 4⟩
/-- BST.CFG (R485). -/
def BST_CFG : Nat := 4587528
def BST_CFG_SLICE_TURNS : Fld := ⟨BST_CFG, 0, 8⟩
def BST_CFG_SLICES_PER_ROT : Fld := ⟨BST_CFG, 8, 12⟩
def BST_CFG_SERVICE_EN : Fld := ⟨BST_CFG, 20, 1⟩
/-- BST.RESULT (R485). -/
def BST_RESULT : Nat := 4587532
def BST_RESULT_CODE : Fld := ⟨BST_RESULT, 0, 4⟩
def BST_RESULT_ITEM : Fld := ⟨BST_RESULT, 4, 4⟩
def BST_RESULT_INST : Fld := ⟨BST_RESULT, 8, 10⟩
/-- BST.EVENT (R485). -/
def BST_EVENT : Nat := 4587536
def BST_EVENT_END : Fld := ⟨BST_EVENT, 0, 1⟩
def BST_EVENT_FAIL : Fld := ⟨BST_EVENT, 1, 1⟩
def BST_EVENT_ABORT : Fld := ⟨BST_EVENT, 2, 1⟩
/-- BST.EVENT_EN (R485). -/
def BST_EVENT_EN : Nat := 4587540
def BST_EVENT_EN_END : Fld := ⟨BST_EVENT_EN, 0, 1⟩
def BST_EVENT_EN_FAIL : Fld := ⟨BST_EVENT_EN, 1, 1⟩
def BST_EVENT_EN_ABORT : Fld := ⟨BST_EVENT_EN, 2, 1⟩
/-- IRQ.PEND (R504). -/
def IRQ_PEND (i : Nat) : Nat := 4653056 + 4 * i
def IRQ_PEND_SRC (i : Nat) : Fld := ⟨IRQ_PEND i, 0, 32⟩
/-- IRQ.EN (R504). -/
def IRQ_EN (i j : Nat) : Nat := 4653312 + 32 * i + 4 * j
def IRQ_EN_SRC (i j : Nat) : Fld := ⟨IRQ_EN i j, 0, 32⟩
/-- IRQ.FUR_PEND (R504). -/
def IRQ_FUR_PEND (i : Nat) : Nat := 4655104 + 4 * i
def IRQ_FUR_PEND_DIE (i : Nat) : Fld := ⟨IRQ_FUR_PEND i, 0, 16⟩

end Reg

end Sys2Proof.Machine
end

