-- ==== Sys2Proof/Machine/State.lean ====
section
/-! DEFINITION. The state of the KG6432 as plain data: the setup registers, the memories, and what each unit holds
beside its registers, grouped by chapter; with the faults, the refusals, and the state after power-on reset. -/

namespace Sys2Proof.Machine

/-- A command's meaning stops with one of these; no meaning of this model does, so the type has the one reason
that a later repair may need. Safe: a stopped machine proves nothing about the part. -/
inductive Fault
  /-- Raised by no meaning: kept for an access to an address that the spec says does not exist. Safe. -/
  | noSuchAddress
  deriving DecidableEq, Repr

/-- Why a command has no effect in this model. -/
inductive Refusal
  /-- The command's meaning is not written; raised by its arm of `exec` only. Safe. -/
  | notModelled (mnemonic : String)
  deriving DecidableEq, Repr

/-! ### Operating modes, power domains and pins (chapters 13 and 16) -/

/-- The eight modes (R431). `Off` is a mode, though PMC.MODE cannot be read in it. -/
inductive Mode | off | boot | service | surge | conserve | spill | sealed | recovery
  deriving DecidableEq, Repr

/-- The code of a mode in PMC.MODE (R454). -/
def Mode.code : Mode → Nat
  | .off => 0 | .boot => 1 | .service => 2 | .surge => 3 | .conserve => 4 | .spill => 5 | .sealed => 6 | .recovery => 7

/-- Service, Surge, Conserve or Sealed: the modes in which accepted commands run (Table 14.1, R520). -/
def Mode.carriesData : Mode → Bool
  | .service | .surge | .conserve | .sealed => true
  | _ => false

/-- The states of a power domain (R435). -/
inductive DomState | off | waking | on | dropping | retired | fused | absent
  deriving DecidableEq, Repr

/-- The code of a domain state in PMC.DOM.STATE (R457). -/
def DomState.code : DomState → Nat
  | .off => 0 | .waking => 1 | .on => 2 | .dropping => 3 | .retired => 4 | .fused => 5 | .absent => 6

/-- One power domain: its state, the client IDs whose votes it holds (R436), the turns that its wake, its drop
and its idle timer run from (R435–R437), its refusal record (R440), and the accesses that stall on it (R25, R497). -/
structure Domain where
  state : DomState := .off
  votes : List Nat := []
  wakeFrom : Nat := 0
  wakeLen : Nat := 0
  dropFrom : Nat := 0
  idleFrom : Nat := 0
  refused : Nat := 0
  aborted : Nat := 0
  lastClient : Nat := 0
  lastTurn : Nat := 0
  stalled : List Instr := []
  deriving DecidableEq, Repr

/-- A Conserve entry under way (R83, R441): when it began, the state it goes to, the Set Features command that
asked for it (none: autonomous), and who has held it longest (Table 13.4). -/
structure ConserveEntry where
  began : Nat
  target : Nat
  req : Option Adm
  /-- The client, and the domain, that held the entry last. -/
  holder : Nat × Nat := (0x3FF, 0)
  deriving DecidableEq, Repr

/-- A Conserve entry record of LID 0xC4 (Table 13.4). -/
structure EntryRecord where
  began : Nat
  ps : Nat
  outcome : Nat
  client : Nat
  dom : Nat
  turns : Nat
  deriving DecidableEq, Repr

/-- A Conserve exit under way (R84, R442): the turn it started, the state it returns to, the Set Features that
started it, if one did, and whether Sealed follows it (R240). -/
structure ConserveExit where
  began : Nat
  req : Option Adm
  deriving DecidableEq, Repr

/-- The mode, the domains and what the power controller holds beside its registers. -/
structure Power where
  mode : Mode := .boot
  prev : Mode := .off
  doms : Vector Domain 24 := (Vector.replicate 24 ({} : Domain)).set 0 { state := .on }
  /-- Conserve entry under way. -/
  entry : Option ConserveEntry := none
  /-- Conserve exit under way. -/
  exiting : Option ConserveExit := none
  /-- Newest first, at most 32 (R440). -/
  entryLog : List EntryRecord := []
  /-- A change between PS3 and PS4 under way: its target and its command (R533). -/
  psChange : Option (Nat × Option Adm) := none
  /-- An operational selection whose Set Features waits for old-state plans (R83). -/
  psWait : Option ConserveEntry := none
  /-- Set Features that have taken effect and complete in the turn after: (turn of the effect, command) (R83, R533). -/
  psDone : List (Nat × Adm) := []
  /-- The cluster's domain whose vote an admin command under way holds in Conserve (R442). -/
  adminVote : Option (Fin 24) := none
  /-- The most recent operational power state (R447). -/
  operPs : Nat := 0
  /-- FID 0xC3 masks, by controller and class (R439). -/
  floorMask : Vector (Vector Nat 8) 2 := Vector.replicate 2 (Vector.replicate 8 0)
  /-- FLOOR masks of the current edition (Table 14.8). -/
  floorEdition : Vector Nat 8 := Vector.replicate 8 0
  /-- Autonomous transitions: the APST table in force (FID 0Ch) and its enable. -/
  apstOn : Bool := false
  /-- REC_CAUSE of a Recovery entry whose steps (R43) are under way. -/
  recovering : Option Nat := none
  /-- GAU.ENERGY at the last rotation edge (R464). -/
  energyAtRot : Nat := 0
  /-- tj_now of the last rotation edge, in °C (R450), none before the first. -/
  tjNow : Option Rat := none
  /-- The ceiling, in 1/16 W, that the thermal model imposes since the last rotation edge (R450); none while it lowers nothing. -/
  thermCeil : Option Nat := none
  /-- The mode has been Service since the last rotation edge (R449). -/
  wholeService : Bool := false
  deriving DecidableEq, Repr

/-- The signals the spec gives the part a memory of: sampled straps (R513), reset and power-fail inputs (R311,
R517, R520), PERST_n of each port (R52, R519), the THERMTRIP_n output (R451), and the loaded TAP instruction (R529). -/
structure Pins where
  hostcfg : Nat := 0
  testen : Bool := false
  porLow : Bool := false
  railsDown : List Nat := []
  pwrFailLow : Bool := false
  vholdLow : Bool := false
  /-- The 1 µs filter of R311 or R312 is running, since this turn. -/
  filter : Option Nat := none
  perst : Vector Bool 2 := Vector.replicate 2 false
  thermtrip : Bool := false
  tap : TapInstr := .bypass
  /-- What the test data register that the instruction selects has captured: 0 for the bypass bit, the IDCODE, or the cells of the boundary-scan
  register (R12, R529). -/
  tapData : Nat := 0
  /-- The function of each GPIO that an edition gave one (R471): (GPIO, feature code). -/
  gpio : List (Nat × Nat) := []
  deriving DecidableEq, Repr
/-! ### Management plane (chapter 14) -/

/-- An event-log entry (Table 14.3). -/
structure LogEntry where
  turn : Nat
  time : Nat
  code : Nat
  sev : Nat
  source : Nat
  client : Nat
  param : Nat
  deriving DecidableEq, Repr

/-- A parsed edition (R471): its header and its sections. `blob` is the stored blob. -/
structure Edition where
  number : Nat := 0
  format : Nat := 1
  base : Nat := 0xFFFFFFFF
  blob : Bytes := []
  /-- REG entries: window address, mask, value. -/
  reg : List (Nat × Nat × Nat) := []
  /-- The RECLAIM parameters of Table 06.6, in table order, where the blob names them. -/
  reclaim : Option (List Nat) := none
  floor : List Nat := []
  /-- RESOURCE claims: (resource, feature). -/
  resource : List (Nat × Nat) := []
  /-- The Dellux threshold table, where the blob carries one. -/
  dellux : Option Bytes := none
  mi : Option (Nat × Nat) := none
  thermal : Option (List Nat) := none
  deriving DecidableEq, Repr

/-- An edition change in progress (R474–R476): the checks run, the switch is pending, or the bookkeeping is open. -/
inductive EditionPhase | validating | pending | booking
  deriving DecidableEq, Repr

/-- An edition change in progress. `revert` tells a Revert from a Commit; `number` is the number in progress (R476). -/
structure EditionChange where
  phase : EditionPhase
  revert : Bool
  number : Nat
  path : Nat
  /-- The command, until its completion is posted. -/
  adm : Option Adm
  /-- The turn in which the checks completed, or of the switch edge. -/
  since : Nat := 0
  /-- The previous edition as it stood before the switch (R333). -/
  before : Option Edition := none
  deriving DecidableEq, Repr

/-- A stored edition record (R473): the role record of one copy. -/
structure RoleRecord where
  seq : Nat
  current : Nat
  previous : Nat
  staged : Nat
  turn : Nat
  deriving DecidableEq, Repr

/-- A self-test run in progress (R478–R485): its kind, the path that started it, the admin command's namespace,
the slices it has run of those it needs, and, for the extended run, whether the media part is under way. -/
structure SelfTestRun where
  kind : Nat
  source : Nat
  began : Nat
  nsid : Nat := 0
  done : Nat := 0
  total : Nat := 0
  /-- Items that failed once and are being run again: (item, instance) (R483). -/
  retry : List (Nat × Nat) := []
  /-- A first failure that stands for the run: (item, instance). -/
  failed : Option (Nat × Nat) := none
  deriving DecidableEq, Repr

/-- A self-test result of LID 06h: result code, STC, failing segment, NSID, turn. -/
structure SelfTestResult where
  code : Nat
  stc : Nat
  segment : Nat
  nsid : Nat
  turn : Nat
  source : Nat
  deriving DecidableEq, Repr

/-- Per-domain self-test record of LID 0xC5 (R484). -/
structure DomTest where
  ended : Nat := 0
  duration : Nat := 0
  cov1 : Nat := 0
  cov2 : Nat := 0
  result : Nat := 0
  kind : Nat := 0
  source : Nat := 0
  failures : Nat := 0
  lastFail : Nat := 0
  deriving DecidableEq, Repr

/-- An MCTP port: receive packets as bytes waiting (length words included), and bytes pushed for transmission. -/
structure MctpPort where
  rx : Bytes := []
  tx : Bytes := []
  deriving DecidableEq, Repr

/-- One answer on a management path: an NVMe-MI response or console output. -/
structure MgmtReply where
  path : Nat
  status : Nat
  dw0 : Nat
  data : Bytes
  deriving DecidableEq, Repr

/-- A captured telemetry set (R470): its turn, the images of area 1, the last 1,024 event entries, and the log ring of area 2. -/
structure TeleSet where
  turn : Nat
  image : Bytes
  recent : List LogEntry
  ring : List LogEntry
  deriving DecidableEq, Repr

/-- Where a normal shutdown stands (R480): commands, galley, snapshot mark, snapshot, test. -/
inductive ShutPhase | commands | galley | mark | snapshot | test
  deriving DecidableEq, Repr

/-- A normal shutdown under way: its phase, the controllers that notified, the results that the domains' tests will have (domain,
passed), whether the test runs at all, and the turn in which it began. -/
structure Shutdown where
  phase : ShutPhase := .commands
  ctrls : List (Fin 2)
  results : List (Nat × Bool)
  tested : Bool := false
  began : Nat := 0
  deriving DecidableEq, Repr

/-- What the rider and its peripherals hold. -/
structure Mgmt where
  /-- Log entries not yet flushed, oldest first (R466). -/
  log : List LogEntry := []
  /-- Entries dropped while the buffer was full. -/
  logDropped : Nat := 0
  /-- The host timestamp last set and the turn it was set in (R466, FID 0Eh). -/
  timestamp : Option (Nat × Nat) := none
  /-- The rider restarts until this turn (R35). -/
  restartUntil : Option Nat := none
  /-- Commands of the admin queues that the rider executes once it is back (R421). -/
  waiting : List Instr := []
  current : Edition := {}
  previous : Option Edition := none
  staged : Option Edition := none
  change : Option EditionChange := none
  /-- Role records of the two copies of the edition area (R473). -/
  roles : Vector (Option RoleRecord) 2 := Vector.replicate 2 none
  /-- Gauge FIFO words, oldest first (R465). -/
  gaugeFifo : List Word := []
  /-- Rail energy since power-on: the sum over turns and rails of mV × 10 mA units (R463). -/
  energy : Nat := 0
  uartRx : Bytes := []
  uartTx : Bytes := []
  /-- The turn from which the byte at the head of the transmit FIFO is sent. -/
  uartFrom : Nat := 0
  mctp : Vector MctpPort 3 := Vector.replicate 3 {}
  /-- Health Status Change and MCTP unit sizes (R461). -/
  healthChange : Nat := 0
  mctpUnit : Vector Nat 3 := Vector.replicate 3 64
  run : Option SelfTestRun := none
  results : List SelfTestResult := []
  domTest : Vector DomTest 24 := Vector.replicate 24 {}
  passes : Nat := 0
  slices : Nat := 0
  /-- Slices run in the rotation under way (R479). -/
  rotSlices : Nat := 0
  replies : List MgmtReply := []
  shutdown : Option Shutdown := none
  /-- The controller-initiated telemetry set and its generation number, the host-initiated set (R470). -/
  teleCtrl : Option TeleSet := none
  teleGen : Nat := 0
  teleHost : Option TeleSet := none
  /-- A cause of a capture stands since the last turn edge; Critical Warning bits that a capture has been made for (R470). -/
  teleWanted : Bool := false
  teleSeen : Nat := 0
  /-- The last minute counted as busy (R468). -/
  busyMinute : Option Nat := none
  /-- The SMART counters as the last rotation edge refreshed them, in the order of Table 14.5: data units read and written, host reads
  and writes, busy minutes, power cycles, power-on hours, unsafe shutdowns, media errors, error log entries. -/
  smart : List Nat := [0, 0, 0, 0, 0, 0, 0, 0, 0, 0]
  deriving DecidableEq, Repr

/-- The counters the error collector holds beside its registers: overruns by unit (R31, R308) and parity errors
by unit and link in the current rotation (R23). -/
structure Collector where
  overruns : List (Nat × Nat) := []
  parity : List (Nat × Nat) := []
  /-- Consecutive duplicated-pair mismatches by unit (R43). -/
  pairRun : List (Nat × Nat) := []
  /-- Words of the duplicated structures that are uncorrectable in a copy: (unit, word, copies as bits) (R301). -/
  pairWords : List (Nat × Nat × Nat) := []
  /-- _HI words latched for a client: (window offset of the _LO word, client, latched value) (R496). -/
  latches : List (Nat × Nat × Nat) := []
  deriving DecidableEq, Repr
/-! ### DRAM and on-chip memory (chapter 10) -/

/-- Flipped bits of a stored 64-bit word (R299, R303): of its data, its check bits and, in DRAM, its pair's ASC. -/
structure Flips where
  data : Nat := 0
  check : Nat := 0
  asc : Nat := 0
  deriving DecidableEq, Repr

/-- A row activation record of the hammer tables (R350). -/
structure RowCount where
  ch : Nat
  subch : Nat
  rank : Nat
  bank : Nat
  row : Nat
  /-- Activations by client in the window, with the class of its last. -/
  clients : List (Nat × Nat × Nat)
  count : Nat
  throttled : Bool
  /-- The throttle is of a client's SC1 requests. -/
  sc1 : Bool := false
  /-- Clients of SC2 or SC3 that are throttled on the row, with the turn of the last activation that each was let make (R350). -/
  paced : List (Nat × Nat) := []
  deriving DecidableEq, Repr

/-- A remapped block of the interleaved space (R352): the block, its target in the reserve, and whether its copy
still runs; `lines` are the lines already at the target. -/
structure Remap where
  block : Nat
  target : Nat
  copying : Bool
  lines : List Nat
  deriving DecidableEq, Repr

/-- A field repair being burnt (R364): bank and column. -/
structure ColumnBurn where
  bank : Nat
  column : Nat
  deriving DecidableEq, Repr

/-- The memories' state beside their registers. `bytes` is every byte-addressed memory of the compositor map
(Table 10.2): TCMs, scratchpad, mailbox, rider SRAM and the interleaved DRAM space, keyed by that map's address,
sorted, with no entry equal to 0, which is what an unlisted byte reads as (R345, R361). -/
structure Memory where
  bytes : List Host.Cell := []
  /-- Flipped words by the map address of the word (R303). -/
  flips : List (Nat × Flips) := []
  /-- LR reservations: (core, granule number) (R359). -/
  reserved : List (Nat × Nat) := []
  /-- The trained delay or Vref of a lane: (channel × 2^12 + LANE_SEL, value) (R368). -/
  lanes : List (Nat × Nat) := []
  /-- Mode registers of the DRAM devices: (channel, subchannel, rank, MR) as one key, and the data. -/
  modeRegs : List (Nat × Nat) := []
  rows : List RowCount := []
  /-- The turn in which a channel's activation window began (R350). -/
  windows : List (Nat × Nat) := []
  remaps : List Remap := []
  /-- The canary words a bank wrote before it entered RETENTION (R360): (code, words). -/
  canaries : List (Nat × List Nat) := []
  /-- Banks whose power request waits for 64 idle cycles: (code, requested state) (R360). -/
  bankWait : List (Nat × Nat) := []
  /-- The turn from which a bank's running sweep or wake scrub can end: (code, turn) (R361). -/
  bankDue : List (Nat × Nat) := []
  /-- Accesses stalled on a waking bank: (code, access). -/
  bankStall : List (Nat × Instr) := []
  burn : Option ColumnBurn := none
  /-- Columns repaired at the next power-up from OFF: (bank, column). -/
  repaired : List (Nat × Nat) := []
  /-- Cores held at their reset vector while their TCM is LOST (R362), or removed with their disabled TCM (R365). -/
  coresHeld : List Nat := []
  /-- MAP_REPAIR waits for the next turn edge (R355). -/
  mapRepair : Bool := false
  /-- The channel whose failing slice starts a mirror move in the turn after (R353). -/
  moveFor : Option Nat := none
  /-- DRAM halves (0 lower, 1 upper) whose stored training values failed verification on a wake from PS4 and that run a full search
  (R443). -/
  searching : List Nat := []
  /-- Channels whose devices report above 85 °C, refreshed at twice the rate (R349). -/
  hot : List Nat := []
  /-- Training values restored and verified since power-on, by channel (R344). -/
  trained : List Nat := []
  deriving DecidableEq, Repr
/-! ### Host ports and queues (chapter 2) -/

/-- A completion queue entry as it is written to the host (R61), with the data the command returned. `sct`/`sc` are
the status code type and code; `sqhd` the SQ head at posting. -/
structure Cqe where
  sqid : Nat
  cid : Nat
  sct : Nat
  sc : Nat
  dnr : Bool
  dw0 : Nat
  dw1 : Nat := 0
  sqhd : Nat := 0
  turn : Nat := 0
  data : List Bytes := []
  deriving DecidableEq, Repr

/-- A quoin (R190): the namespace and the runs of units, (first, count), that a command touches. -/
structure Quoin where
  nsid : Nat
  units : List (Nat × Nat)
  deriving DecidableEq, Repr

/-- A completion held while its queue is full (R61): the entry, the class its command was decided in, whether it still holds a context,
and the command's deadline (R55, R56). -/
structure HeldCqe where
  e : Cqe
  cls : Nat := 7
  ctx : Bool := false
  due : Option Nat := none
  quoin : Option Quoin := none
  deriving DecidableEq, Repr

/-- A completion queue: its size, interrupt vector, the entries written and not yet freed by the host, and the
completions held while it is full (R61). -/
structure Cq where
  qid : Nat
  size : Nat
  vector : Nat := 0
  ien : Bool := true
  entries : List Cqe := []
  held : List HeldCqe := []
  head : Nat := 0
  /-- The head that the turn's doorbell writes leave, which the edge that closes the turn takes (R58). -/
  newHead : Option Nat := none
  deriving DecidableEq, Repr

/-- A submission queue: its size and CQ, the tail last observed and the head (next entry to fetch), its class and
mode (R80), the stamps of the entries made visible and not yet fetched, oldest first (R58), and its freeze (R74). -/
structure Sq where
  qid : Nat
  size : Nat
  cqid : Nat
  head : Nat := 0
  tail : Nat := 0
  cls : Nat := 7
  ordered : Bool := false
  /-- Stamps of entries visible and not fetched, with the class and mode they were observed under and the power state's
  deadline extension (R58, R80, R84). -/
  visible : List (Nat × Nat × Bool × Nat) := []
  frozen : Bool := false
  /-- Fetching pauses until a context is released (R56). -/
  paused : Bool := false
  storedTail : Option Nat := none
  deriving DecidableEq, Repr

/-- A frozen-queue record (Table 02.12). -/
structure FreezeRec where
  seq : Nat
  sqid : Nat
  trigCid : Nat
  trigStatus : Nat
  sqHead : Nat
  turn : Nat
  trigDw0 : Nat
  count : Nat
  first : Nat
  last : Nat
  deriving DecidableEq, Repr

/-- An Asynchronous Event waiting or to be reported: type, information, log page (R469). -/
structure AsyncEvent where
  type : Nat
  info : Nat
  lid : Nat
  deriving DecidableEq, Repr

/-- An Abort that has been processed and not completed: the command that it took out, with its fetch order, its DW0 bit, and the turn of
its processing (R71, R72). -/
structure PendingAbort where
  adm : Adm
  target : Option (CmdRef × Nat)
  bit : Nat
  turn : Nat
  deriving DecidableEq, Repr

/-- The link of a controller: what the registers do not show (R48–R52). -/
inductive LinkPower | l0 | l11 | l12
  deriving DecidableEq, Repr

/-- What a function's configuration space and BAR0 report (Tables 02.3, 02.5), with the AER status and the ECRC enables. CAP is the
NVM Express register: MQES 0xFFFF, CQR 1, AMS 0, TO 0xFF, DSTRD 0, NSSRS 1, CSS the NVM and I/O command set bits, MPSMIN 0, MPSMAX 4
(its bit positions and CSS are NVM Express's: assumption log 166). -/
structure PciConfig where
  classCode : Nat := 0x010802
  /-- (BAR, size in bytes). -/
  bars : List (Nat × Nat) := [(0, 128 * 1024), (2, 64 * 1024 * 1024), (4, 256 * 1024)]
  msixVectors : Nat := 8192
  maxPayload : Nat := 512
  maxReadRequest : Nat := 4096
  cap : Nat := 0xFFFF + 2 ^ 16 + 0xFF * 2 ^ 24 + 2 ^ 36 + 0x41 * 2 ^ 37 + 4 * 2 ^ 52
  /-- AER's correctable and uncorrectable error status, sticky (Table 02.4). -/
  aerCor : Nat := 0
  aerUnc : Nat := 0
  /-- ECRC checking and generation are enabled by host software (R48). -/
  ecrcCheck : Bool := false
  ecrcGen : Bool := false
  deriving DecidableEq, Repr

/-- One NVMe controller. -/
structure Controller where
  /-- CC.EN, CSTS.RDY, CSTS.SHST and the admin queue registers as written (R532). -/
  en : Bool := false
  rdy : Bool := false
  /-- The turn in which CSTS.RDY takes a value that a write of CC.EN gave it (R532). -/
  rdyAt : Option (Nat × Bool) := none
  shst : Nat := 0
  aqa : Nat := 0
  asq : Nat := 0
  acq : Nat := 0
  adminSq : Sq := { qid := 0, size := 0, cqid := 0 }
  adminCq : Cq := { qid := 0, size := 0 }
  sqs : List Sq := []
  cqs : List Cq := []
  freezes : List FreezeRec := []
  freezeSeq : Nat := 0
  freezeGen : Nat := 0
  /-- Held Asynchronous Event Requests, oldest first. -/
  aers : List Adm := []
  /-- Admin commands, by CID, whose entry fetch or host data has arrived poisoned (R51). -/
  poisoned : List Nat := []
  /-- Aborts that are to complete, oldest first. -/
  aborts : List PendingAbort := []
  /-- Events not yet reported. -/
  events : List AsyncEvent := []
  /-- Vendor event information codes masked until their log page is read (R469). -/
  masked : List Nat := []
  /-- MSI-X vectors with a message sent and not yet seen, and those that coalescing holds (R61). -/
  msix : List Nat := []
  coalesced : List (Nat × Nat) := []
  /-- Feature values in force: (FID, value) (Table 02.9). -/
  features : List (Nat × Nat) := []
  changedNs : List Nat := []
  changedZones : List Nat := []
  link : LinkPower := .l0
  /-- Lanes that an L0p width request left in use (R49), none: all. -/
  l0pWidth : Option Nat := none
  phyFailed : Bool := false
  pci : PciConfig := {}
  /-- Invalid doorbell writes of this turn, reported at the edge that closes it: the doorbell (2 × queue, + 1 for a CQ), the event's
  information and the value; a later write to the doorbell in the turn takes its place (R58, R60). -/
  badBells : List (Nat × Nat × Nat) := []
  /-- Round-robin fetch (R59): the SQ last fetched from with the entries taken from it since, and the turn of the last fetch with its
  entries. -/
  arb : Nat × Nat := (0, 0)
  fetchedIn : Nat × Nat := (0, 0)
  /-- Context exhaustion has been reported in this rotation (R56). -/
  exhausted : Bool := false
  deriving DecidableEq, Repr

/-- The progress of an I/O command in a context (R71). -/
inductive CmdPhase | fetched | held | accepted | started | short
  deriving DecidableEq, Repr

/-- A command in a context (R55): its entry, its stamp and class, its phase and what its plan has done. `status` is
set when the command's outcome is known before its posting turn. -/
structure Cmd where
  ref : CmdRef
  sqe : Sqe
  cls : Nat
  ordered : Bool
  level0 : Bool
  stamp : Nat
  fetched : Nat
  ext : Nat := 0
  order : Nat
  phase : CmdPhase := .fetched
  limit : Nat := 0
  plan : Nat := 0
  /-- The outcome, where a check or an event has already settled it: SCT, SC, DNR, DW0. -/
  outcome : Option (Nat × Nat × Bool × Nat) := none
  /-- Data read so far, one run of bytes for each unit in order. -/
  result : List Bytes := []
  /-- Slots reserved for a write, one for each unit (R107). -/
  slots : List Nat := []
  /-- Append LBA (R202). -/
  lba : Nat := 0
  poisoned : Bool := false
  /-- Its controller or queue is gone: it runs to its end and its completion is discarded (R53). -/
  discard : Bool := false
  /-- Its quoin, from its fetch to the write of its completion entry (R190). -/
  quoin : Option Quoin := none
  /-- The turn in which a settled outcome is posted. -/
  postAt : Option Nat := none
  deriving DecidableEq, Repr

/-- An error log entry (LID 01h). -/
structure ErrorEntry where
  count : Nat
  sqid : Nat
  cid : Nat
  sct : Nat
  sc : Nat
  lba : Nat
  nsid : Nat
  deriving DecidableEq, Repr

/-- The headgate: controllers, contexts, and what spans both. -/
structure Headgate where
  ctl : Vector Controller 2 := Vector.replicate 2 {}
  cmds : List Cmd := []
  /-- Submission order counter. -/
  order : Nat := 0
  /-- R43, R480: no further command is accepted. -/
  admitStop : Bool := false
  errors : List ErrorEntry := []
  errorCount : Nat := 0
  /-- Round trips measured since the last rotation edge: longest and those above 1,024 ns, by controller (R89). -/
  rtt : Vector (Nat × Nat) 2 := Vector.replicate 2 (0, 0)
  /-- Completions whose contexts were reset, discarded: counted (R53). -/
  discarded : Nat := 0
  /-- BAR2 reads in flight: (controller, address, arrival turn) (R498). -/
  barReads : List (Nat × Nat × Nat) := []
  deriving DecidableEq, Repr
/-! ### Host data, the media and the furrows (chapters 4, 5 and 7) -/

/-- A sector of 4 KiB as its fields: one run of bytes for each logical block that lies in it (8 in 512 B formats, 1 in
4,096 B formats), or, in a metadata unit, one for each block's metadata (R176, R292). `proof` is its proof code
(R287). -/
structure Sector where
  fields : List Bytes
  proof : Nat
  deriving DecidableEq, Repr

/-- What a codeword tag of a flash unit says (Table 07.2), sector by sector: owner G and sector number, with the
sector's bytes. A unit holds four sectors; an absent one is filler. -/
structure MediaUnit where
  kind : Nat
  sectors : List (Option (Nat × Nat × Sector))
  wrot : Nat
  wtemp : Nat
  member : Nat
  lane : Nat
  fblk : Nat
  /-- The key number of each sector's key pair (R296, R297). -/
  keys : List Nat := []
  /-- In a parity member, the information bytes of P or Q at each codeword position (R149, R267). -/
  code : List Bytes := []
  deriving DecidableEq, Repr

/-- One member block: block number on a die. -/
structure MBlock where
  die : Nat
  block : Nat
  deriving DecidableEq, Repr

/-- What firmware and silicon hold of a member block (R215, R219): whether it is erased and free, its erase count,
whether the maker marked it bad, whether it is a system block, whether it is retired, and its probes since its
last erase (R265). A block that the part has never erased is free with 0 erases: R219 states no first state of a block (DESIGN CHOICE,
assumption log 160). -/
structure BlockInfo where
  free : Bool := true
  erases : Nat := 0
  bad : Bool := false
  system : Bool := false
  retired : Bool := false
  probes : Nat := 0
  /-- Tag or proof mismatches after a pass: rotation of the last (R275). -/
  mismatch : Option Nat := none
  /-- The trigger with which it is retired when its relocation ends (Table 07.13); 0 while none is due. -/
  cause : Nat := 0
  deriving DecidableEq, Repr

/-- The array operation a die is busy with (Table 04.4). -/
inductive DieBusy | read | program | erase | suspend | reset
  deriving DecidableEq, Repr

/-- A hold of a die (R153): a program or an erase, running or suspended. `excluded` counts its suspended turns. -/
structure DieHold where
  erase : Bool
  block : Nat
  page : Nat
  plan : Nat
  since : Nat
  suspended : Option Nat := none
  excluded : Nat := 0
  suspends : Nat := 0
  deriving DecidableEq, Repr

/-- The operations that a furrow issues (R139); `readMulti` and `programMulti` name several planes. -/
inductive DieOp
  | read | readMulti | program | programMulti | programSlc | erase | suspendProgram | suspendErase | resumeProgram | resumeErase
  | lunReset | setFeatures | volumeSelect
  deriving DecidableEq, Repr

/-- The last operation that a furrow has sent its die: its block and unit offset, and the threshold template sent before a read, with its
offset bytes in place (R162, R163). -/
structure DieSeq where
  op : DieOp
  block : Nat := 0
  off : Nat := 0
  template : Bytes := []
  /-- The codewords that a program carries in (R246, R247). -/
  data : List Bytes := []
  deriving DecidableEq, Repr

/-- What a furrow holds beside its registers: the operation its die is busy with and since when, the die's page
register, its hold, the turn of its last resume, the rotation's maxima (Table 04.5: T_R, T_SUSP_P, T_SUSP_E, T_PROG,
T_ERS), and whether it has stopped (R154). -/
structure Die where
  busy : Option (DieBusy × Nat) := none
  page : Option (Nat × Nat) := none
  hold : Option DieHold := none
  resumed : Nat := 0
  maxima : List Nat := [0, 0, 0, 0, 0]
  stopped : Bool := false
  /-- Suspends issued in this rotation, and in the last one (R229). -/
  suspRot : Nat := 0
  suspLast : Nat := 0
  /-- The maxima of the last 16 completed rotations, newest first (R161). -/
  history : List (List Nat) := []
  sent : Option DieSeq := none
  /-- The patrol cycle in which firmware last moved the die's trims (R263). -/
  trimCycle : Option Nat := none
  deriving DecidableEq, Repr

/-- A channel engine beside its registers: the training it runs as (rung, end turn, second rung tried, requested),
the rung it left, its next retrain, the turn it was reported down, and whether THIRD_FAIL stopped it
(R144, R145). -/
structure Chan where
  training : Option (Nat × Nat) := none
  second : Bool := false
  raise : Bool := false
  left : Nat := 0
  retryAt : Option Nat := none
  stopped : Bool := false
  /-- First turn of the plan that a requested retrain starts at (R145). -/
  raiseAt : Option Nat := none
  /-- A training has passed in this turn: the rung at which the engine reports the channel up in the next, and the event it sets: 0 none,
  1 RATE_DROP, 2 RATE_RAISE (R144, R145). -/
  coming : Option (Nat × Nat) := none
  /-- The turn in which the channel was last reported up (R146). -/
  cameUp : Option Nat := none
  deriving DecidableEq, Repr

/-! ### Bookings and reads (chapter 3) -/

/-- The calendars of Table 03.3, the turns of the map update port (R107), and the galley read path (R106). -/
inductive Res
  | die (n : Nat) | chan (n : Nat) | hard | soft | forme | xts | host (c : Nat) (inbound : Bool) | power | compute
  | port | galley
  deriving DecidableEq, Repr

/-- A booking: `len` turns from `start`, `amt` of a count resource in each; a culvert booking has its set of source
channels (R99). -/
structure Booking where
  res : Res
  culvert : Bool := false
  start : Nat
  len : Nat
  amt : Nat := 1
  src : List Nat := []
  plan : Nat
  /-- Which chain of the plan holds it: 4 × unit + 0 direct, 1 soft retry, 2 second chance, 3 planned again. -/
  tag : Nat := 0
  deriving DecidableEq, Repr

/-- A read of one die in a plan: the turns of R103, and how it has gone. `outs` are the codeword positions to read;
`passed` those decoded. -/
inductive ReadPhase | waiting | issued | moved | failed
  deriving DecidableEq, Repr

structure DieRead where
  die : Nat
  block : Nat
  page : Nat
  member : Nat
  suspend : Option Nat
  issue : Nat
  ready : Nat
  xfer : Nat × Nat
  resume : Option Nat
  /-- First turn of its die interval. -/
  start : Nat := 0
  /-- The codeword positions that it transfers (R158). -/
  cws : List Nat := [0, 1, 2, 3]
  /-- Threshold offsets sent with the read, in the order of the page type's levels; none: default thresholds (R259, R262). -/
  thr : Option (List Int) := none
  /-- Repeats made of its transfer (R143). -/
  repeats : Nat := 0
  phase : ReadPhase := .waiting
  passed : List Nat := []
  failed : List Nat := []
  deriving DecidableEq, Repr

/-- One way to a unit's data from flash: die reads, the decode turns, the rebuild turn of a culvert path, proof check
and decrypt, host window, posting (R103, R104). -/
structure Chain where
  reads : List DieRead
  soft : Bool := false
  decode : Nat × Nat
  rebuild : Option Nat := none
  proof : Nat
  host : Nat × Nat
  post : Nat
  deriving DecidableEq, Repr

/-- A forme-block (R180, R220): its 16 member blocks, the next forme offset to program, whether it is open, for which
use and handle, when it closed (rotation), and its victim class of Table 06.2 (0: no victim). -/
structure FormeBlock where
  lane : Nat
  b : Nat
  members : List MBlock
  next : Nat := 0
  isOpen : Bool := true
  dredge : Bool := false
  handle : Nat := 0
  /-- The Dellux clock when it closed (R226, R255). -/
  closedRot : Nat := 0
  victim : Nat := 0
  /-- The turn in which its victim class was asked for (R226). -/
  asked : Nat := 0
  /-- Copies made of its units: forme-unit index, member, and the map updates that still have no result, as (unit, sector; 4 the whole unit)
  (R229). -/
  copies : List (Nat × Nat × List (Nat × Nat)) := []
  /-- Member blocks still to be erased once it is a spent victim, and those that are retired then (R229, R230). -/
  erasing : List MBlock := []
  failed : List MBlock := []
  /-- SEQ of its CLOSE record in the open log, written at the edge closing the turn (R328). -/
  closeSeq : Option Nat := none
  deriving DecidableEq, Repr

/-- Where a member of a forme being programmed stands (R149, R228, R268): waiting for its data-in window, being
programmed, ready with pass, being proof-read, proven, or failed. -/
inductive MemberStage | loading | programming | ready | proofing | proven | failed
  deriving DecidableEq, Repr

/-- A member of a forme's program plan: its die and block, the data-in window and issue turns, its proof read as it is booked (R36), and how
often its data-in was sent again (R143). -/
structure FormeMember where
  die : Nat
  block : Nat
  dataIn : Nat × Nat
  issue : Nat
  stage : MemberStage := .loading
  proof : Option Chain := none
  repeats : Nat := 0
  deriving DecidableEq, Repr

/-- A forme's background program plan (R268): its place, what its data members carry with the galley slot each came
from, and its members. -/
structure FormePlan where
  id : Nat
  lane : Nat
  b : Nat
  off : Nat
  units : List MediaUnit
  /-- Galley slots in PLACING for it. -/
  slots : List Nat
  members : List FormeMember
  /-- For dredging, where each unit was copied from: lane, b, forme-unit index, member. -/
  sources : List (Nat × Nat × Nat × Nat) := []
  deriving DecidableEq, Repr

/-- A unit copied by dredging and waiting for its destination forme: its content, and where it came from as
(forme-unit index, member, lane, victim b). -/
structure CopyUnit where
  unit : MediaUnit
  lane : Nat
  b : Nat
  place : Nat
  member : Nat
  handle : Nat
  deriving DecidableEq, Repr

/-- A rebuild record (Table 07.9). -/
structure Rebuild where
  chan : Bool
  unit : Nat
  state : Nat
  total : Nat
  done : Nat
  start : Nat
  ended : Nat := 0
  rate : Nat := 0
  /-- FB_DONE at the last rotation edge. -/
  doneAtRot : Nat := 0
  /-- Forme-block members still to rebuild: (lane, b, member). -/
  left : List (Nat × Nat × Nat) := []
  deriving DecidableEq, Repr

/-- The flash side. Keyed lists hold only what differs from the default; a die's or block's key is die × 65,536 +
block, a unit's adds its offset in the member block. -/
structure Flash where
  dies : List (Nat × Die) := []
  chans : List (Nat × Chan) := []
  blocks : List (Nat × BlockInfo) := []
  /-- Programmed units: (die × 2^48 + block × 2^32 + unit offset, content). -/
  units : List (Nat × MediaUnit) := []
  formeBlocks : List FormeBlock := []
  plans : List FormePlan := []
  copies : List CopyUnit := []
  rebuilds : List Rebuild := []
  rebuildGen : Nat := 0
  /-- Blocks whose erase has passed, free from the next turn (R156). -/
  freed : List MBlock := []
  /-- Erases waiting to issue: (die, block). -/
  eraseQueue : List MBlock := []
  /-- Non-zero syndromes on claimed passes this rotation: (decoder, soft) as decoder + 32 × soft (R251). -/
  syndromes : List (Nat × Nat) := []
  /-- Decoders whose second failure of a rotation was found: the farm removes them in the turn after, (soft, decoder) (R251). -/
  decLeaves : List (Bool × Nat) := []
  /-- Stamps that restart restores from the tags of their codewords after Service is entered: the forme-block's lane and number, the
  member, and the unit (R263, R330). -/
  stampsDue : List (Nat × Nat × Nat × Nat) := []
  /-- Formes whose accumulator is held: plan ids (R268). -/
  accs : List Nat := []
  /-- The foreground dredge floor, in GB/s of bus (R224). -/
  dredgeFloor : Rat := 0
  /-- h_sus of the last computation, the weir level (0 OPEN – 4 CLOSED), the victims' valid fraction (R222, R223). -/
  hsus : Rat := 0
  vfrac : Rat := 0
  weir : Nat := 0
  /-- The bandwidth b_w and the measured host write rate of the last computation, in GB/s (R223, R224). -/
  bw : Rat := 0
  hostRate : Rat := 0
  /-- Foreground read bus of the last 65,536 turns, in bytes, and host writes in units (R223, R224). -/
  readBus : Nat := 0
  hostUnits : Nat := 0
  /-- LID 0xC1 counters: reads passed at ladder step s, and L0 attempts and fails by cell (Table 07.11). -/
  ladder : List Nat := [0, 0, 0, 0, 0, 0, 0]
  misses : Nat := 0
  cells : List (Nat × Nat × Nat) := []
  /-- Valid stamps by age bucket at the last rotation edge. -/
  ages : List Nat := [0, 0, 0, 0, 0, 0, 0, 0]
  /-- The rider has written its DLX_NOW advance since Boot (R255), and a pending one. -/
  dlxTaken : Bool := false
  dlxAdd : Nat := 0
  /-- Cycles that the parameter page rates (Table 06.6), and the spare as last computed (R218). -/
  endurance : Nat := 3000
  avail : Nat := 100
  sigma : List Rat := []
  deriving DecidableEq, Repr

/-! ### The galley, the map tables and the journal (chapter 5) -/

/-- The slot states of Table 05.4; a slot that is not listed is FREE. -/
inductive SlotState | filling | resident | placing | superseded | cache
  deriving DecidableEq, Repr

/-- A galley slot in use: its unit, its sectors (a sector is present when its validity bit is set, R186), the place of
its residency in decision order (R190), the plans that pin it (R188), the plan that fills it, and whether a program from
it is in flight. -/
structure Slot where
  unit : Nat
  state : SlotState := .filling
  sectors : List (Option Sector) := [none, none, none, none]
  order : Nat := 0
  pins : List Nat := []
  plan : Nat := 0
  sq : Option CmdRef := none
  /-- The FDP handle of the write (R199, R200). -/
  handle : Nat := 0
  inFlight : Bool := false
  /-- Sectors that a deallocation decided after the write has taken from it before it has landed (R191, R194). -/
  cut : List Nat := []
  /-- Its merge met a LOST sector: it is placed as fragments whatever the overlay level (R183). -/
  frag : Bool := false
  deriving DecidableEq, Repr

/-- An overlay record (Table 05.2): BASE, FRAG0–FRAG3, SECT and UNIT. -/
structure Overlay where
  base : Nat := 0
  frags : List Nat := [0, 0, 0, 0]
  sect : Nat := 0
  unit : Nat := 0
  deriving DecidableEq, Repr

/-- A journal record (Table 05.7). -/
structure JournalRec where
  kind : Nat
  seq : Nat
  turn : Nat
  unit : Nat
  new : Nat
  old : Nat
  aux : Nat
  slot : Nat
  deriving DecidableEq, Repr

/-- The tables that the journal and the snapshot cover (R203): map entries that are not DEALLOCATED, overlay records,
forme-block words, granule and namespace table words, zones (state, write pointer). -/
structure Tables where
  map : List (Nat × Nat) := []
  ovl : List (Nat × Overlay) := []
  fbt : List (Nat × Nat) := []
  gran : List (Nat × Nat) := []
  nst : List (Nat × Nat) := []
  zones : List (Nat × Nat × Nat) := []
  deriving DecidableEq, Repr

/-- A namespace as firmware keeps it (R54, R177, R200, R292). `dataGrans` are the granules of its data; a namespace
with metadata has metadata granules behind them. `key` numbers its key pair (R297). -/
structure Namespace where
  nsid : Nat
  nsze : Nat
  lbaf : Nat
  extended : Bool := false
  pi : Nat := 0
  piFirst : Bool := false
  zoned : Bool := false
  handles : List Nat := []
  dataGrans : Nat
  gbase : Nat
  grans : Nat
  /-- Controllers it is attached to, as bits. -/
  attached : Nat := 0
  key : Nat := 0
  /-- A Format or Sanitize holds its commands off (R298): 1 Format, 2 Sanitize. -/
  busy : Nat := 0
  deriving DecidableEq, Repr

/-- A step of a map-only command (R107): a whole unit set to a new entry, a sector of a unit given an overlay kind
(R194), a zone's state or write pointer, or a request of firmware's. -/
inductive MapOp
  | unit (g new : Nat)
  | sector (g k kind : Nat)
  | zone (z : Nat) (pointer : Bool) (v : Nat)
  | req (kind : Nat) (q : MapReq)
  deriving DecidableEq, Repr

/-- A Format, a Sanitize or a namespace deletion under way (R298): the command that waits for its end, the operation (0 Format,
1 crypto-erase, 2 block erase, 3 deletion), its namespaces, whether the keys are replaced, the format that a Format gives
(LBA format, PI type, extended LBA, PI first), the turn from which its map scan is over once the new keys are installed, and, for
block erase, the member blocks still to be erased. -/
structure Wipe where
  adm : Option Adm
  kind : Nat
  nsids : List Nat
  rekey : Bool
  format : Option (Nat × Nat × Bool × Bool) := none
  scanned : Option Nat := none
  erasing : Option (List MBlock) := none
  /-- Its units are deallocated; the table and zone updates that end it are at the map update port (R203). -/
  closing : Bool := false
  deriving DecidableEq, Repr

/-- The galley and the map update port. -/
structure Galley where
  slots : List (Nat × Slot) := []
  order : Nat := 1
  /-- Journal records by journal slot, oldest slot first; the last one is current. -/
  journal : List (Nat × List JournalRec) := []
  /-- The SEQ of the next record. -/
  jnlSeq : Nat := 0
  nextSlot : Nat := 0
  ovl : List (Nat × Overlay) := []
  fbt : List (Nat × Nat) := []
  zones : List (Nat × Nat × Nat) := []
  /-- Pages changed since the last mark, pages of the snapshot not yet written, pages held in the shadow pool (R205);
  a page is (table, page number). -/
  dirty : List (Nat × Nat) := []
  unwritten : List (Nat × Nat) := []
  shadow : List (Nat × Nat) := []
  /-- The snapshot being written out, with its SNAP_SEQ. -/
  writing : Option (Nat × Tables) := none
  markSeq : Nat := 0
  /-- Slots and journal slots that the mirror move still has to copy, and the turn it starts (R189). -/
  moveLeft : Nat := 0
  moveDone : Nat := 0
  movePending : Bool := false
  /-- Slots that were landing when the move started: they are moved last (R189). -/
  moveLast : List Nat := []
  /-- Steps of map-only commands: (booked turn, plan, residency order at decision, step) (R107). -/
  booked : List (Nat × Nat × Nat × MapOp) := []
  /-- Hits of read units within the rotation, for the cache fill policy (R187). -/
  hits : List (Nat × Nat) := []
  /-- The channel pair that gave the published hold (R348). -/
  pair : Nat := 0
  /-- Residencies that a spill image gave back, as (order, unit), and its journal slots, until the image is released (R324). -/
  restored : List (Nat × Nat) := []
  restoredJnl : List Nat := []
  /-- The erase operation under way. -/
  wipe : Option Wipe := none
  /-- Namespace Management creates, with their NSIDs, whose table entries are at the map update port (R177, R203). -/
  creating : List (Adm × Nat) := []
  deriving DecidableEq, Repr

/-! ### The sluice (chapter 3) -/

/-- Which of its bookings a unit's read follows. -/
inductive Path | slot | primary | retry | second | special | done | lost | noData
  deriving DecidableEq, Repr

/-- A unit that a plan reads: fields `at_` to `at_ + len − 1` of unit G, each `per` to a sector, for the command's
blocks from `ofs` on, data or metadata. -/
structure UnitRead where
  g : Nat
  per : Nat
  at_ : Nat
  len : Nat
  ofs : Nat := 0
  md : Bool := false
  path : Path
  /-- The galley slot read, and the turn of the galley read step (R106). -/
  slot : Option (Nat × Nat) := none
  /-- The read of the mirror copy that a galley read books as its second chance, and its posting turn (R106). -/
  mirror : Option (Nat × Nat) := none
  /-- The flash location: lane, forme-unit index f, member, and the codeword position of the first sector. -/
  loc : Option (Nat × Nat × Nat) := none
  cw : Nat := 0
  /-- DEALLOCATED 0, ZEROED 1 or LOST 2, where the source, or what is behind an unlanded write, is such a unit. -/
  spec : Option Nat := none
  primary : Option Chain := none
  /-- The L3 step of R254. -/
  retry : Option Chain := none
  second : Option Chain := none
  secondUsed : Bool := false
  /-- A decode of its own codewords failed (R275). -/
  decFail : Bool := false
  /-- The previous contents behind an unlanded write (Table 05.11). -/
  prev : Option Nat := none
  ladder : Nat := 0
  /-- Earliest turn its data can leave, for a galley or special source. -/
  out : Nat := 0
  /-- Threshold offsets committed with the plan, in the order of the page type's levels; none: default thresholds (R259). -/
  thr : Option (List Int) := none
  data : List Bytes := []
  deriving DecidableEq, Repr

/-- A unit that a plan writes: fields `at_` to `at_ + len − 1`, for the command's blocks from `ofs` on, the slot it
fills, and the older residency it merges with (R192). -/
structure UnitWrite where
  g : Nat
  per : Nat
  at_ : Nat
  len : Nat
  ofs : Nat := 0
  md : Bool := false
  data : List Bytes
  slot : Nat
  older : Option Nat := none
  copies : Nat := 0
  landed : Bool := false
  cancelled : Bool := false
  deriving DecidableEq, Repr

/-- What firmware reads for with a background plan of its own: a dredge copy, of the unit at a lane, forme-block, forme-unit index and member
(R225); the other sectors of a partly written slot that is placed by merge (R183); the codewords of a read-disturb probe, with whether one
of them corrected more bits than C_REFRESH (R265); a patrol sample of a die's block, with what firmware's further probes on it showed: fewer
corrected bits at AGE_SHIFT − 1, and the way each level's trim moves (R263, R266). -/
inductive Work
  | dredge (lane b f m : Nat)
  | merge (slot : Nat)
  | probe (die block : Nat) (high : Bool)
  | patrol (die block : Nat) (below : Bool) (trims : List Int)
  deriving DecidableEq, Repr

/-- An accepted plan. `limit` is none for best effort (R96). `status` is the status it will post when it is already
known. -/
structure Plan where
  id : Nat
  ref : Option CmdRef
  decided : Nat
  limit : Option Nat
  cls : Nat
  reads : List UnitRead := []
  writes : List UnitWrite := []
  /-- Fill reads of partly written sectors (R193). -/
  fills : List UnitRead := []
  /-- Inbound or outbound host windows of the command. -/
  host : Nat × Nat := (0, 0)
  post : Nat
  first : Nat
  mapOnly : Bool := false
  started : Bool := false
  status : Option (Nat × Nat × Nat) := none
  /-- Domains it holds awake (R436). -/
  doms : List Nat := []
  slots : List Nat := []
  cancelled : Bool := false
  work : Option Work := none
  deriving DecidableEq, Repr

/-- Admission accounting of one class (Table 03.6). -/
structure ClassAcct where
  accepted : Nat := 0
  refused : Nat := 0
  reclassed : Nat := 0
  second : Nat := 0
  noData : Nat := 0
  held : Nat := 0
  maxLat : Nat := 0
  minSlack : Nat := 0xFFFFFFFF
  deriving DecidableEq, Repr

/-- The sluice beside its registers. -/
structure Sluice where
  bookings : List Booking := []
  /-- Second chances that run, by plan and chain tag (R104, R109). -/
  armed : List (Nat × Nat) := []
  plans : List Plan := []
  nextPlan : Nat := 1
  /-- Plans of commands aborted in this turn, released at the edge (R71). -/
  released : List Nat := []
  acct : Vector ClassAcct 8 := Vector.replicate 8 {}
  reasons : List Nat := [0, 0, 0, 0, 0, 0, 0, 0, 0, 0]
  collisions : Nat := 0
  noSecond : Nat := 0
  lowerBound : Nat := 0
  /-- Galley slots that write plans took in the current span (R121), and the span they count in. -/
  weirSpan : Nat := 0
  weirUsed : Nat := 0
  /-- The last span and rotation edges whose work is done. -/
  spanDone : Option Nat := none
  rotDone : Option Nat := none
  /-- ALLOT_ADD values written in this turn. -/
  allotAdd : Nat := 0
  /-- Channels reported down and dies in timeout, out of plan from a turn on and, once back,
  until a turn (R117). -/
  chansOut : List (Nat × Nat × Option Nat) := []
  diesOut : List (Nat × Nat × Option Nat) := []
  /-- Effects of ordered queues: (controller, SQ) as a key, the last planned effect turn and posting turn (R73). -/
  effects : List (Nat × Nat × Nat) := []
  /-- Map lines looked up for the commands fetched in a turn (R181). -/
  lookups : List (Nat × Nat) := []
  /-- Service ceiling while Surge is in force, in 1/16 W (R119). -/
  serviceCeil : Nat := 0x3C0
  /-- Global operations in flight (R28, R39, R502): OP, client, issue turn; and the hold after a data-plane reset (R40). -/
  globals : List (Nat × Nat × Nat) := []
  hold : Bool := true
  deriving DecidableEq, Repr

/-! ### Firmware DMA (chapter 11) -/

/-- A descriptor (Tables 11.2 and 11.3). -/
structure Desc where
  src : Nat
  dst : Nat
  count : Nat
  ctrl : Nat
  deriving DecidableEq, Repr

/-- A descriptor in progress: bytes moved, whether a burst is in flight and with which error, and the flags that its
status write-back will carry (Table 11.4). `source` is the source as it stood before the descriptor began (R383). -/
structure DmaJob where
  desc : Desc
  moved : Nat := 0
  inFlight : Bool := false
  err : Nat := 0
  dropped : Bool := false
  late : Bool := false
  abort : Bool := false
  deriving DecidableEq, Repr

/-- One DMA channel beside its registers. `spare` is the bytes moved below a whole KiB of DMA.BYTES. -/
structure DmaChan where
  job : Option DmaJob := none
  spare : Nat := 0
  deriving DecidableEq, Repr

/-! ### Firmware store (chapter 12) -/

/-- A program in a bank: page number and the data copied from PBUF (R404). -/
structure StoreProgram where
  page : Nat
  data : Bytes
  deriving DecidableEq, Repr

/-- One bank's operations in progress or suspended (R403). `quiet` is the turn of the bank's last read, and `waiting` the reads that
stall until its program or blank check ends (R407). -/
structure StoreBank where
  prog : Option StoreProgram := none
  erase : Option Nat := none
  /-- ERASE_SUSPEND holds the erase (R403). -/
  held : Bool := false
  blank : Option Nat := none
  quiet : Nat := 0
  waiting : List Instr := []
  deriving DecidableEq, Repr

/-- A firmware image as its trailer describes it (Table 12.5); `sound` tells whether its trailer, signature and digest
pass R412. -/
structure Image where
  len : Nat
  release : Nat
  epoch : Nat
  stateFmt : Nat
  editionFmts : Nat
  keyId : Nat
  sound : Bool
  deriving DecidableEq, Repr

/-- A pointer record (Table 12.6). -/
structure Pointer where
  seq : Nat
  active : Nat
  next : Nat
  deriving DecidableEq, Repr

/-- A firmware image being streamed in Recovery (Table 12.10). -/
structure Stream where
  path : Nat
  slot : Nat
  bytes : Bytes
  closed : Bool := false
  deriving DecidableEq, Repr

/-- A commit or activation in progress (R418–R422): its command, slot, and the clusters already reloaded. -/
structure Reload where
  adm : Option Adm
  slot : Nat
  old : Image
  moved : Nat := 0
  /-- Every cluster so far passed its self-check; when one failed, clusters are reloaded with the running image. -/
  back : Bool := false
  deriving DecidableEq, Repr

/-- The firmware store: cells, operations and what firmware keeps in its areas. `pages` are programmed pages by page
number (store address ÷ 512); a page not listed is erased. -/
structure Store where
  pages : List (Nat × Bytes) := []
  /-- Blocks erased since the part was shipped; the other blocks of the shipped areas hold their shipped pages. -/
  erased : List Nat := []
  /-- Blocks whose erase has begun and has not passed: block and free event. Their cells hold no stated value. -/
  torn : List (Nat × Nat) := []
  markers : List Nat := []
  flags : List Nat := []
  badBlocks : List Nat := []
  banks : Vector StoreBank 2 := Vector.replicate 2 {}
  /-- The bank of each client's most recent instruction fetch from the store (R406). -/
  fetchBank : List (Nat × Nat) := []
  /-- Slots A and B. -/
  slots : Vector (Option Image) 2 := #v[some ⟨44 * 2 ^ 20 - 4096, 0x303030313046474B, 0, 0, 6, 0, true⟩, none]
  ext : Vector Bool 2 := Vector.replicate 2 true
  pointer : Option Pointer := some ⟨1, 1, 1⟩
  /-- The next page of the pointer block in use. -/
  pointerPage : Nat := 1
  running : Option Nat := none
  /-- The download buffer: the controller that fills it and its chunks as (offset, bytes) (R416). -/
  buffer : Option (Nat × List (Nat × Bytes)) := none
  stream : Option Stream := none
  activation : Option Reload := none
  vpd : Bytes := []
  /-- The log ring's records, oldest first: the block of the ring that holds each, and its entries (R466). -/
  ring : List (Nat × List LogEntry) := []
  /-- The ring's next page, and the SEQ of its last record (R409). -/
  logAt : Nat := 0
  logSeq : Nat := 0
  /-- The edition area's records, oldest first: the block of each copy that holds one, and its payload (R473). -/
  edRecs : List (Nat × Bytes) := []
  edAt : Nat := 0
  edSeq : Nat := 0
  deriving DecidableEq, Repr

/-! ### Power loss (chapter 9) -/

/-- The spill set as the spill edge latches it (R321), and what of the spill image restart can use of it (Tables 09.2,
09.5): the directory's entries, its journal slots and its galley slots that were written. -/
structure SpillImage where
  seq : Nat
  cause : Nat
  turn : Nat
  dlxNow : Nat
  /-- Spilled slots in directory order: unit G and its valid sectors. -/
  slots : List (Nat × List (Option Sector))
  /-- Unfreed journal slots in SEQ order. -/
  journal : List (Nat × List JournalRec)
  /-- The edition change whose bookkeeping was open. -/
  edition : Option EditionChange
  log : List LogEntry
  weir : Nat
  /-- The set that holds it: 0 A, 1 B. -/
  set : Nat := 0
  /-- The state record was written whole, and the seal with it. -/
  record : Bool := false
  complete : Bool := false
  dirs : Nat := 0
  jnls : Nat := 0
  gals : Nat := 0
  deriving DecidableEq, Repr

/-- Where a cistern test stands (R315): the turn it started, V1 in 10 mV. -/
structure CisTest where
  began : Nat
  v1 : Nat
  deriving DecidableEq, Repr

/-- The cistern's and the spill's state beside their registers. -/
structure Cistern where
  test : Option CisTest := none
  /-- The first full charge after Boot has started a test (R315). -/
  first : Bool := false
  lastTestRot : Nat := 0
  /-- A test has completed since power-on. -/
  tested : Bool := false
  /-- The last test was abandoned on time (R318). -/
  timedOut : Bool := false
  /-- A spill has been requested, with its cause and turn, and not yet begun (R311). -/
  request : Option (Nat × Nat) := none
  /-- The spill set as the spill edge latched it (R321). -/
  latched : Option SpillImage := none
  /-- A power failure in Boot or Recovery: the device waits for supply to collapse or return (R314). -/
  waiting : Bool := false
  began : Nat := 0
  ended : Bool := false
  deriving DecidableEq, Repr
/-! ### What survives power: the system area (chapters 6, 7, 9) -/

/-- A record of the integrity and retirement ledger (Table 07.13). -/
structure LedgerRec where
  turn : Nat
  rot : Nat
  kind : Nat
  trigger : Nat
  id : Nat
  aux : Nat
  spare : Nat
  deriving DecidableEq, Repr

/-- The allotment ledger (Table 06.3): erases spent, saved allotment, mode, and the units programmed in the last 16
rotations as (data units, host data units), newest first. -/
structure Wear where
  rot0 : Nat := 0
  used : Nat := 0
  lastRot : Nat := 0
  saved : Rat := 0
  burst : Bool := true
  programmed : List (Nat × Nat) := []
  /-- Units programmed in the rotation under way: data, host data. -/
  nowData : Nat := 0
  nowHost : Nat := 0
  deriving DecidableEq, Repr

/-- The system area and what else the part keeps without power: first-format figures (R217), namespaces and key
numbers, the retirement ledger, Sealed (R243), the completed snapshot and the journal records in flash (R204,
R206), the wear ledger, saved features, and the last sanitize (R298). -/
structure NonVol where
  formatted : Bool := false
  n0 : List Nat := []
  d : Nat := 0
  grans : Nat := 0
  opPermille : Nat := 0
  namespaces : List Namespace := []
  nextKey : Nat := 1
  ledger : List LedgerRec := []
  records : Nat := 0
  /-- Retirements by unit kind 1–8 since first format. -/
  kinds : List Nat := [0, 0, 0, 0, 0, 0, 0, 0]
  lostUnits : Nat := 0
  mismatches : Nat := 0
  sealed : Bool := false
  snapshot : Tables := {}
  snapSeq : Nat := 0
  journal : List JournalRec := []
  wear : Wear := {}
  dlxSaved : Nat := 0
  timeSaved : Nat := 0
  features : List (Nat × Nat) := []
  fdp : Bool := false
  /-- Sanitize status: 0 never, 1 completed, 2 in progress, 3 failed; the action. -/
  sanitize : Nat := 0
  sanitizeAction : Nat := 0
  /-- Retired units that Boot writes back into the never-clearing fields (R500): (register offset, bits). -/
  outWords : List (Nat × Nat) := []
  /-- DRAM remaps, retired slices by channel, and scratchpad redirects and disabled banks (code, redirect, disabled), kept likewise. -/
  remaps : List Remap := []
  slicesOut : List (Nat × Nat) := []
  bankOut : List (Nat × Nat × Bool) := []
  /-- Domains whose shutdown test passed in the shutdown immediately before (R481). -/
  shutTested : List Nat := []
  /-- The copy of the stamp region in system blocks: the valid stamps by address (R263). -/
  stamps : List (Nat × Nat) := []
  retiredDies : List Nat := []
  retiredDoms : List Nat := []
  /-- Events of Table 06.5 raised and not re-armed: (code, rotation from which the condition is clear). -/
  raised : List (Nat × Option Nat) := []
  /-- Critical Warning bits that an unrecorded clear leaves set: bits 0, 2 and 3. -/
  warning : Nat := 0
  /-- The FDP events log, newest first: (event type, namespace, placement id). -/
  fdpEvents : List (Nat × Nat × Nat) := []
  /-- SMART counters: data units read and written, host reads and writes, power cycles, unsafe shutdowns. -/
  unitsRead : Nat := 0
  unitsWritten : Nat := 0
  hostReads : Nat := 0
  hostWrites : Nat := 0
  powerCycles : Nat := 0
  unsafeShutdowns : Nat := 0
  /-- Completions with Unrecovered Read Error or Deadline Reached Without Data; minutes with an I/O command outstanding; turns
  powered in earlier power cycles (R468). -/
  mediaErrors : Nat := 0
  busyMinutes : Nat := 0
  poweredTurns : Nat := 0
  /-- A normal shutdown notification has completed since the last start (R468). -/
  clean : Bool := false
  /-- The newest spill image that is not released, the sequence number of the last spill and the mark of a requested one
  (R324, R325), and PMC.SPILL_STATUS as Boot loads it (R338). -/
  image : Option SpillImage := none
  spillSeq : Nat := 0
  spillMark : Bool := false
  spillWord : Word := 0
  /-- An incomplete spill has been found: Critical Warning bit 4, and the 0xD8 event, which does not clear (R329). -/
  incomplete : Bool := false
  deriving DecidableEq, Repr

/-- What the last command that answers a requester answered: read data, an access fault with the address that mtval
takes (R302), or nothing (a write). -/
inductive Answer
  | value (client v : Nat)
  | bytes (client : Nat) (b : Bytes)
  | loadFault (client mtval : Nat)
  | fetchFault (client mtval : Nat)
  | storeFault (client mtval : Nat)
  | dmaError (client code : Nat)
  deriving DecidableEq, Repr

/-- The whole machine. `pending` is the queue of waiting commands, first in first out; `turn` is the turn counter
(R29); `free` numbers the free values taken so far (assumption log 7). -/
structure State where
  pending : List Instr := []
  /-- Setup registers by window offset, sorted, no word equal to its reset value. -/
  regs : List (Nat × Word) := []
  /-- Words as the turn-stepped units still see them: registers written since the last turn edge, with their words
  before the write (R495). -/
  edgeRegs : List (Nat × Word) := []
  turn : Nat := 0
  free : Nat := 0
  answer : Option Answer := none
  memory : Memory := {}
  power : Power := {}
  pins : Pins := {}
  mgmt : Mgmt := {}
  collector : Collector := {}
  host : Headgate := {}
  dma : Vector DmaChan 32 := Vector.replicate 32 {}
  store : Store := {}
  cistern : Cistern := {}
  flash : Flash := {}
  galley : Galley := {}
  sluice : Sluice := {}
  nv : NonVol := {}
  /-- What the board and package present, as the last power-on found it (assumption log 3). -/
  board : Board := {}
  deriving DecidableEq, Repr

/-- The machine when power-on reset is released (R518): mode Boot, the turn counter 0, every setup register at its reset
value (R499), PD0 the only domain ON (R434, R457), no command waiting, and media and system area never formatted
(assumption logs 3, 4, 6, 8). -/
def State.reset : State := {}

end Sys2Proof.Machine
end

