-- ==== Sys2Proof/Machine/Ops.lean ====
section
/-! DEFINITION. The named operations over the setup registers, the event log, the error collector and the power
domains that every unit's meaning shares. -/

namespace Sys2Proof.Machine

/-! ### Setup registers -/

/-- The reset values that depend on the instance (Tables 03.1, 03.2): the class deadlines and scopes. -/
def classDl : List Nat := [384, 1024, 3072, 10240, 49152, 245760, 1048576, 0]
def classRead : List Nat := [16, 20, 23, 31, 31, 31, 31, 31]
def classWrite : List Nat := [0, 18, 23, 31, 31, 31, 31, 31]

/-- The domain policies of Table 13.3: 0 always on, 1 rider-held, 2 idle timer, 3 vote. -/
def domPolicy (n : Nat) : Nat :=
  if n = 0 then 0 else if n = 1 then 1
  else if n = 2 || n = 3 || n = 23 || (13 ≤ n && n ≤ 20) then 2 else 3

/-- The word of a register after a power-on reset (R499), fuse and strap fields aside. -/
def descReset (r : RegDesc) (a : Nat) : Nat :=
  let base := r.fields.foldl (fun acc f => acc + f.reset * 2 ^ f.lsb) 0
  if Reg.SLU_CLASS_DL 0 ≤ a && a < Reg.SLU_CLASS_DL 8 then
    let n := (a - Reg.SLU_CLASS_DL 0) / 8
    if (a - Reg.SLU_CLASS_DL 0) % 8 = 0 then classDl.getD n 0
    else classRead.getD n 0 + classWrite.getD n 0 * 256
  else if Reg.PMC_DOM 0 ≤ a && a < Reg.PMC_DOM 24 then base + domPolicy ((a - Reg.PMC_DOM 0) / 4) * 8
  else base

/-- The reset word at a window offset; reserved offsets read 0 (R492). -/
def resetWord (a : Nat) : Word :=
  match regAt a with
  | some r => BitVec.ofNat 32 (descReset r a)
  | none => 0

/-- A register word as it stands. -/
def State.word (s : State) (a : Nat) : Word := (klook a s.regs).getD (resetWord a)

/-- The register list with one word changed; a word equal to its reset value is not listed. -/
def putReg (a : Nat) (w : Word) (rs : List (Nat × Word)) : List (Nat × Word) :=
  if w = resetWord a then kdel a rs else kput a w rs

/-- Set a register word. -/
def State.setWord (s : State) (a : Nat) (w : Word) : State := { s with regs := putReg a w s.regs }

/-- A field's value. -/
def State.fld (s : State) (f : Fld) : Nat := bitsOf (s.word f.addr) f.lsb f.width

/-- Set a field. -/
def State.setFld (s : State) (f : Fld) (v : Nat) : State :=
  s.setWord f.addr (putBits (s.word f.addr) f.lsb f.width v)

/-- A field as the turn-stepped units see it in this turn (R495). -/
def State.efld (s : State) (f : Fld) : Nat :=
  bitsOf ((klook f.addr s.edgeRegs).getD (s.word f.addr)) f.lsb f.width

/-- Add to a counter field; it saturates at its width. -/
def State.addFld (s : State) (f : Fld) (n : Nat) : State := s.setFld f (min (2 ^ f.width - 1) (s.fld f + n))

/-- Subtract from a counter field, not below 0. -/
def State.subFld (s : State) (f : Fld) (n : Nat) : State := s.setFld f (s.fld f - n)

/-- A field of one bit reads 1. -/
def State.flag (s : State) (f : Fld) : Bool := s.fld f == 1

/-- Set several fields, in order. -/
def State.setFlds (s : State) (l : List (Fld × Nat)) : State := l.foldl (fun s p => s.setFld p.1 p.2) s

/-- A cluster is present in the compute pool or absent from it (SLU.STATUS.CLUSTERS). -/
def State.setCluster (s : State) (c : Nat) (present : Bool) : State :=
  let m := s.fld Reg.SLU_STATUS_CLUSTERS
  s.setFld Reg.SLU_STATUS_CLUSTERS (if present then setBitNat m c else clrBitNat m c)

/-! ### Record lenses -/

def State.onMemory (s : State) (f : Memory → Memory) : State := { s with memory := f s.memory }
def State.onPower (s : State) (f : Power → Power) : State := { s with power := f s.power }
def State.onPins (s : State) (f : Pins → Pins) : State := { s with pins := f s.pins }
def State.onMgmt (s : State) (f : Mgmt → Mgmt) : State := { s with mgmt := f s.mgmt }
def State.onCollector (s : State) (f : Collector → Collector) : State := { s with collector := f s.collector }
def State.onHost (s : State) (f : Headgate → Headgate) : State := { s with host := f s.host }
def State.onStore (s : State) (f : Store → Store) : State := { s with store := f s.store }
def State.onCistern (s : State) (f : Cistern → Cistern) : State := { s with cistern := f s.cistern }

/-- Change one element of a fixed array. -/
def vupd {α : Type} {n : Nat} (v : Vector α n) (i : Fin n) (f : α → α) : Vector α n := v.set i (f v[i])

def State.onCtl (s : State) (c : Fin 2) (f : Controller → Controller) : State :=
  s.onHost fun h => { h with ctl := vupd h.ctl c f }

def State.onDma (s : State) (c : Fin 32) (f : DmaChan → DmaChan) : State := { s with dma := vupd s.dma c f }

def State.onBank (s : State) (b : Fin 2) (f : StoreBank → StoreBank) : State :=
  s.onStore fun t => { t with banks := vupd t.banks b f }

def State.onDom (s : State) (n : Fin 24) (f : Domain → Domain) : State :=
  s.onPower fun p => { p with doms := vupd p.doms n f }

def State.dom (s : State) (n : Fin 24) : Domain := s.power.doms[n]
def State.ctl (s : State) (c : Fin 2) : Controller := s.host.ctl[c]

/-- Advance the free-value counter, after a step has taken the value it numbers. -/
def State.tookFree (s : State) : State := { s with free := s.free + 1 }

/-! ### Time -/

/-- The rotation the turn lies in (R15). -/
def State.rotation (s : State) : Nat := s.turn / 2 ^ 20

/-- The host timestamp in ms, advanced by the turns since it was set; 0 before the first Timestamp (Table 14.3). -/
def State.timeMs (s : State) : Nat :=
  match s.mgmt.timestamp with
  | some (ms, t) => ms + (s.turn - t) * 1024 / 1000000
  | none => 0

/-! ### The event log (R466) -/

/-- Enter an event; an entry that finds the buffer of 8,192 entries full is dropped and counted. -/
def State.log (s : State) (code source client param : Nat) : State :=
  s.onMgmt fun m =>
    if m.log.length < 8192 then
      { m with log := m.log ++ [⟨s.turn, s.timeMs, code, Config.severity code, source, client, param⟩] }
    else { m with logDropped := m.logDropped + 1 }

/-- A register write that is ignored, or that sets reserved bits, is logged with its address and value (R489, R492). -/
def State.logWrite (s : State) (client a : Nat) (v : Word) : State :=
  s.log 0x0901 0 client (a + v.toNat * 2 ^ 32)

/-- A cause of a controller-initiated telemetry capture (R470): the set is captured at the edge that closes the turn. -/
def State.captureTele (s : State) : State := s.onMgmt fun m => { m with teleWanted := true }

/-- Events that the manual says are logged and to which Table 14.4 gives no code (assumption log 9). -/
inductive Uncoded | porIgnored | storeWrite | recoveryStall | voteIgnored | fallback | remap | throttle | xoRead
  | dramSpare | training | population | geometry | laneRule | selfTest | ledger | storeFallback | malformed | tableFault | refix | event
  deriving DecidableEq, Repr

def Uncoded.num : Uncoded → Nat
  | .porIgnored => 0 | .storeWrite => 1 | .recoveryStall => 2 | .voteIgnored => 3 | .fallback => 4 | .remap => 5
  | .throttle => 6 | .xoRead => 7 | .dramSpare => 8 | .training => 9 | .population => 10 | .geometry => 11
  | .laneRule => 12 | .selfTest => 13 | .ledger => 14 | .storeFallback => 15
  | .malformed => 16 | .tableFault => 17 | .refix => 18 | .event => 19

def State.logUncoded (s : State) (u : Uncoded) (client param : Nat) : State :=
  s.log (Config.uncodedEvent u.num) 0 client param

/-! ### The error collector (R300, R307) -/

/-- Record an error in ERC.LAST: the first while VALID is 0, MORE for a later one (R307). -/
def State.ercLast (s : State) (client kind : Nat) (write : Bool) (mem addr : Nat) : State :=
  if s.flag Reg.ERC_LAST_VALID then s.setFld Reg.ERC_LAST_MORE 1
  else s.setFlds [(Reg.ERC_LAST_CLIENT, client), (Reg.ERC_LAST_KIND, kind),
    (Reg.ERC_LAST_WRITE, if write then 1 else 0), (Reg.ERC_LAST_MEM, mem), (Reg.ERC_LAST_VALID, 1),
    (Reg.ERC_LAST_ADDR_LO_ADDR_LO, addr), (Reg.ERC_LAST_ADDR_HI_ADDR_HI, addr / 2 ^ 32)]

/-- A bus error of a retired, absent or fused-off domain (R25, R497). -/
def State.busError (s : State) (client addr : Nat) (write : Bool) : State :=
  ((s.addFld Reg.ERC_BUSERR_COUNT 1).setFld Reg.ERC_EVENT_BUS_ERR 1).ercLast client 4 write 0 addr

/-- A proof-code (kind 5) or transit (kind 6) mismatch (R290). -/
def State.proofError (s : State) (client : Nat) (transit : Bool) (addr : Nat) : State :=
  ((s.addFld Reg.ERC_PROOF_COUNT 1).setFld Reg.ERC_EVENT_PROOF 1).ercLast client (if transit then 6 else 5) false 0 addr

/-! ### Power domains (R435–R440) -/

/-- Wake times of Table 13.3, in turns; a DRAM half from PS4 takes 4,608 (R443), except at a spill edge. -/
def domWake (n : Nat) (fromPs4 : Bool) : Nat :=
  if n = 2 || n = 3 then 48
  else if n = 11 || n = 12 then (if fromPs4 then 4608 else 250)
  else if 13 ≤ n && n ≤ 20 then 400
  else 32

/-- The PHY domain of a controller's link, and whether a PHY domain carries no link (Table 02.1). -/
def State.linkDom (s : State) (c : Fin 2) : Fin 24 :=
  if s.pins.hostcfg = 1 then 2 else if s.pins.hostcfg = 2 then 3 else if c = 0 then 2 else 3
def State.portDown (s : State) (n : Nat) : Bool := (n = 3 && s.pins.hostcfg = 1) || (n = 2 && s.pins.hostcfg = 2)

/-- The domains Recovery keeps on (R433); a DRAM half only when its training completed in Boot. -/
def State.recoveryKeeps (s : State) (n : Nat) : Bool :=
  n = 0 || n = 1 || ((n = 2 || n = 3) && !s.portDown n) || n = 4 || n = 23 ||
  (n = 11 && (List.range 6).any (fun i => s.memory.trained.contains i)) ||
  (n = 12 && (List.range 6).any (fun i => s.memory.trained.contains (i + 6)))

/-- The idle timer of a domain restarts (R437). -/
def State.restartIdle (s : State) (n : Fin 24) : State := s.onDom n fun d => { d with idleFrom := s.turn }

/-- Record a refused or aborted domain entry (R440). -/
def State.countRefusal (s : State) (n : Fin 24) (aborted : Bool) (client : Nat) : State :=
  ((s.onDom n fun d =>
      { d with
        refused := if aborted then d.refused else sat (2 ^ 64 - 1) (d.refused + 1)
        aborted := if aborted then sat (2 ^ 64 - 1) (d.aborted + 1) else d.aborted
        lastClient := client, lastTurn := s.turn }).setFld Reg.PMC_EVENT_DOM_REFUSED 1).log 0x0505 0 client n

/-- Begin to power a domain up. -/
def State.startWake (s : State) (n : Fin 24) : State :=
  s.onDom n fun d =>
    { d with state := .waking, wakeFrom := s.turn, wakeLen := domWake n (s.power.mode == .conserve && s.fld Reg.PMC_PS_PS == 4) }

/-- A domain answers accesses now. -/
def State.isOn (s : State) (n : Fin 24) : Bool := (s.dom n).state == .on

/-- A domain that never answers: accesses to it are bus errors (R25, R438, R497). -/
def State.isDead (s : State) (n : Fin 24) : Bool :=
  match (s.dom n).state with
  | .retired | .fused | .absent => true
  | _ => false

/-- An access or a vote reaches a domain: it wakes an OFF domain, returns a DROPPING one to ON at once as an aborted
entry (R436), and restarts the idle timer (R437). In Recovery a domain held off is not woken (R433). -/
def State.touch (s : State) (n : Fin 24) (client : Nat) : State :=
  match (s.dom n).state with
  | .off =>
    if s.power.mode == .recovery && !s.recoveryKeeps n then s.logUncoded .recoveryStall client n
    else (s.startWake n).restartIdle n
  | .dropping => ((s.onDom n fun d => { d with state := .on }).countRefusal n true client).restartIdle n
  | .on => s.restartIdle n
  | _ => s

/-- The domain whose register file holds a block (Table 15.1). -/
def blockDomain (a : Nat) : Fin 24 :=
  if a < 0x40000 then 0
  else if a < 0x80000 then 5
  else if a < 0x100000 then 4
  else if a < 0x200000 then Fin.ofNat 24 (13 + (a - 0x100000) / 0x4000 / 8)
  else if a < 0x300000 then Fin.ofNat 24 (13 + (a - 0x200000) / 0x400 / 128)
  else if a < 0x340000 then 0
  else if a < 0x3C0000 then 22
  else if a < 0x3F0000 then (if (a - 0x3C0000) / 0x4000 < 6 then 11 else 12)
  else if a < 0x400000 then 11
  else if a < 0x410000 then 22
  else if a < 0x420000 then 0
  else if a < 0x430000 then 23
  else if a < 0x440000 then 1
  else 0

/-- A command waits for a domain that is not ON. -/
def State.stall (s : State) (n : Fin 24) (i : Instr) : State :=
  s.onDom n fun d => { d with stalled := d.stalled ++ [i] }

/-- A client that reaches the window through BAR2 (R488). -/
def viaBar2 (client : Nat) : Bool := client == 0x20 || client == 0x21

/-- The processors: compositors 0–23 and the rider (R375, R356; assumption log 12). -/
def isProcessor (client : Nat) : Bool := client < 24 || client == 0x60

/-- An access to a power domain runs now, stalls until it is ON, or ends as a bus error (R25, R497). `i` is the
command to run again when the domain is ON. -/
def State.gate (s : State) (n : Fin 24) (client addr : Nat) (write : Bool) (i : Instr) (k : State → State) : State :=
  if s.isDead n then s.busError client addr write
  else if (s.touch n client).isOn n then k (s.touch n client)
  else (s.touch n client).stall n i

/-- A setup write by a client: BAR2 writes are ignored and logged (R489), and the block's domain gates the rest. -/
def State.setupWrite (s : State) (client a : Nat) (v : Word) (i : Instr) (k : State → State) : State :=
  if viaBar2 client then s.logWrite client a v
  else s.gate (blockDomain a) client (0x20000000 + a) true i k

/-! ### Register writes by type (R17, R492, R493) -/

/-- One field after a write of a word: the mode decides the fields marked Boot. -/
def writeField (bootMode : Bool) (v : Word) (old : Word) (f : FieldDesc) : Word :=
  let n := bitsOf v f.lsb f.width
  let o := bitsOf old f.lsb f.width
  match f.type with
  | .rw => putBits old f.lsb f.width n
  | .boot => if bootMode then putBits old f.lsb f.width n else old
  | .w1c => putBits old f.lsb f.width (o &&& (2 ^ f.width - 1 - n))
  | .w1s => putBits old f.lsb f.width (o ||| n)
  | .ro | .rc | .wo | .rwe | .rsvd => old

/-- A register word after a typed write. -/
def writeWord (bootMode : Bool) (r : RegDesc) (old v : Word) : Word := r.fields.foldl (writeField bootMode v) old

/-- The write sets a reserved bit, or meets an RWE field, or a Boot field outside Boot and Recovery, whatever value it gives it: it is
logged (R17, R492, R493). -/
def writeLogged (bootMode : Bool) (r : RegDesc) (v : Word) : Bool :=
  r.fields.any fun f =>
    match f.type with
    | .rsvd => bitsOf v f.lsb f.width != 0
    | .rwe => true
    | .boot => !bootMode
    | _ => false

/-- Boot or Recovery: the modes that take Boot fields (R493). -/
def State.bootMode (s : State) : Bool := s.power.mode == .boot || s.power.mode == .recovery

/-- Keep the word that the turn-stepped units go on seeing until the next turn edge (R495). -/
def State.holdWord (s : State) (a : Nat) : State :=
  match klook a s.edgeRegs with
  | some _ => s
  | none => { s with edgeRegs := kput a (s.word a) s.edgeRegs }

/-- The typed write of one register word by a client. -/
def State.regWrite (s : State) (client a : Nat) (v : Word) : State :=
  match regAt a with
  | none => s.logWrite client a v
  | some r =>
    let old := s.word a
    let s := (s.holdWord a).setWord a (writeWord s.bootMode r old v)
    if writeLogged s.bootMode r v then s.logWrite client a v else s

end Sys2Proof.Machine
end

