-- ==== Sys2Proof/Machine/MemOps.lean ====
section
/-! DEFINITION. The memories of the compositor map (Table 10.2): bytes, stored words with their check bits (R299,
R300), flip masks (R303), banks with their power states (R356–R361), and DRAM blocks and slices (R342). -/

namespace Sys2Proof.Machine

/-! ### Bytes -/

/-- A byte of memory; an unlisted byte reads 0 (R345, R361). -/
def memGet (a : Nat) (m : List Host.Cell) : Byte := (klook a m).getD 0

/-- Write one byte; a byte equal to 0 is not listed. -/
def memPut (a : Nat) (b : Byte) (m : List Host.Cell) : List Host.Cell := if b = 0 then kdel a m else kput a b m

/-- Read `n` bytes from an address. -/
def memRead (m : List Host.Cell) : Nat → Nat → Bytes
  | _, 0 => []
  | a, n + 1 => memGet a m :: memRead m (a + 1) n

/-- Write a run of bytes from an address on. -/
def memWrite : Nat → Bytes → List Host.Cell → List Host.Cell
  | _, [], m => m
  | a, b :: bs, m => memWrite (a + 1) bs (memPut a b m)

/-- The canonical form: addresses strictly rising, and no byte equal to 0. -/
def cellsWf : List Host.Cell → Bool
  | [] => true
  | [(_, b)] => b != 0
  | (a, b) :: (a', b') :: t => decide (a < a') && b != 0 && cellsWf ((a', b') :: t)

/-- The canonical form of the machine's memory. -/
def Memory.wf (m : Memory) : Bool := cellsWf m.bytes

/-- Set a range of bytes to zeros: a sweep or a zero-fill (R345, R361). -/
def memZero (lo hi : Nat) (m : List Host.Cell) : List Host.Cell := m.filter fun c => decide (c.1 < lo) || decide (hi ≤ c.1)

/-- Little-endian number of `n` bytes at an address. -/
def State.peek (s : State) (a n : Nat) : Nat := leNat (memRead s.memory.bytes a n)

/-- Store a number as `n` bytes, with no check on the way: silicon's own writes of tables and rings. -/
def State.poke (s : State) (a n v : Nat) : State := s.onMemory fun m => { m with bytes := memWrite a (leBytes n v) m.bytes }

/-! ### Banks (Table 10.4) -/

/-- The base address of the interleaved DRAM space in the compositor map (Table 10.2). -/
def dramBase : Nat := 0x10000000000

/-- The address of a bank's first byte in the compositor map, for the codes that lie in it. -/
def bankBase (code : Nat) : Option Nat :=
  if code < 16 then some (0x10000000 + code * 0x100000)
  else if code < 32 then some (0x13000000 + (code - 16) * 0x100000)
  else if code = 0x20 then some 0x18000000
  else if 0x21 ≤ code && code ≤ 0x24 then some (0x1C000000 + (code - 0x21) * 0x100000)
  else if 0x40 ≤ code && code ≤ 0x57 then some (0x01000000 + (code - 0x40) * 0x100000)
  else none

/-- A bank's size in bytes. -/
def bankSize (code : Nat) : Nat :=
  if code = 0x20 then 0x40000 else if 0x80 ≤ code then 0x80000 else 0x100000

/-- The codes of Table 10.4. -/
def bankExists (code : Nat) : Bool :=
  decide (code ≤ 0x24) || (decide (0x40 ≤ code) && decide (code ≤ 0x57)) || (decide (0x80 ≤ code) && decide (code ≤ 0xBF))

/-- The domain of a bank. -/
def bankDomain (code : Nat) : Fin 24 :=
  if code < 0x20 then 21
  else if code < 0x40 then 1
  else if code < 0x80 then Fin.ofNat 24 (6 + (code - 0x40) / 8)
  else Fin.ofNat 24 (13 + (code - 0x80) / 8)

/-- The bank that holds an address of the compositor map, aliases included. -/
def bankOf (a : Nat) : Option Nat :=
  if 0x01000000 ≤ a && a < 0x01000000 + 24 * 0x100000 then some (0x40 + (a - 0x01000000) / 0x100000)
  else if 0x10000000 ≤ a && a < 0x13000000 then some ((a - 0x10000000) % 0x1000000 / 0x100000)
  else if 0x13000000 ≤ a && a < 0x16000000 then some (16 + (a - 0x13000000) % 0x1000000 / 0x100000)
  else if 0x18000000 ≤ a && a < 0x1B000000 && (a - 0x18000000) % 0x1000000 < 0x40000 then some 0x20
  else if 0x1C000000 ≤ a && a < 0x1C400000 then some (0x21 + (a - 0x1C000000) / 0x100000)
  else none

/-- 0: the address itself; 1: a bit-set alias; 2: a bit-clear alias (R343). -/
def aliasOf (a : Nat) : Nat :=
  if 0x10000000 ≤ a && a < 0x13000000 then (a - 0x10000000) / 0x1000000
  else if 0x13000000 ≤ a && a < 0x16000000 then (a - 0x13000000) / 0x1000000
  else if 0x18000000 ≤ a && a < 0x1B000000 then (a - 0x18000000) / 0x1000000
  else 0

/-- A processor's address in the compositor map: a core's own TCM lies at 0 for that core, the rider SRAM at 0 and the
256 MiB window at 0x8000_0000 for the rider (Table 10.2). -/
def State.resolve (s : State) (client a : Nat) : Nat :=
  if client < 24 && a < 0x100000 then 0x01000000 + client * 0x100000 + a
  else if client = 0x60 && a < 0x400000 then 0x1C000000 + a
  else if client = 0x60 && 0x80000000 ≤ a && a < 0x90000000 then
    dramBase + s.fld Reg.DMC_RIDER_WIN_BASE * 0x10000000 + (a - 0x80000000)
  else a

/-- Where an address's bytes are stored: an alias is the storage it aliases, and a disabled bank with a redirect is
stored in its spare (R365). -/
def State.storage (s : State) (a : Nat) : Nat :=
  match bankOf a with
  | none => a
  | some code =>
    let a := a - aliasOf a * 0x1000000
    if s.flag (Reg.OCM_BANK_DISABLE code) && s.fld (Reg.OCM_BANK_REDIRECT code) != 0xFF then
      match bankBase code, bankBase (s.fld (Reg.OCM_BANK_REDIRECT code)) with
      | some b, some r => r + (a - b)
      | _, _ => a
    else a

/-! ### DRAM layout (R342) -/

/-- Slices present: one per subchannel of each channel in use (one at half width). -/
def State.slices (s : State) : Nat :=
  s.fld Reg.DMC_LAYOUT_K * 2 * (if s.flag Reg.DMC_LAYOUT_HALF then 1 else 2)

/-- The channels present in the order 0, 6, 1, 7, … (R342). -/
def State.chanOrder (s : State) : List Nat :=
  [0, 6, 1, 7, 2, 8, 3, 9, 4, 10, 5, 11].filter fun c => s.fld Reg.DMC_LAYOUT_PRESENT / 2 ^ c % 2 = 1

/-- The channel and subchannel that hold a block of the interleaved space. -/
def State.sliceOf (s : State) (block : Nat) : Nat × Nat :=
  let q := if s.slices = 0 then 0 else block % s.slices
  if s.flag Reg.DMC_LAYOUT_HALF then (s.chanOrder.getD q 0, 0) else (s.chanOrder.getD (q / 2) 0, q % 2)

/-- A slice's error index in DMC.STATUS and SLICE_UE: subchannel plus twice the rank; rank 1 holds the upper half of a
slice's blocks (R342, R367). -/
def State.sliceIndex (s : State) (block : Nat) : Nat :=
  let ch := (s.sliceOf block).1
  let per := if s.slices = 0 then 0 else s.fld Reg.DMC_LAYOUT_CHAN_GIB * 2 ^ 18 / (if s.flag Reg.DMC_LAYOUT_HALF then 1 else 2)
  let rank := if s.flag (Reg.DMC_CFG_RANKS ch) && decide (per / 2 ≤ block / max 1 s.slices) then 1 else 0
  (s.sliceOf block).2 + 2 * rank

/-- Bytes of the interleaved space actually present: every channel's data capacity less its galley area (R342). -/
def State.dramBytes (s : State) : Nat :=
  let k := s.fld Reg.DMC_LAYOUT_K
  2 * k * s.fld Reg.DMC_LAYOUT_CHAN_GIB * 2 ^ 30 - 2 * k * (5 * 2 ^ 30 / (k - 1))

/-! ### Checked words (R299–R303) -/

/-- How a stored word reads: clean, corrected, or uncorrectable with its ERC kind (R300, R307). -/
inductive WordCheck | clean | corrected | uncorrectable (kind : Nat)
  deriving DecidableEq, Repr

/-- An address of the interleaved DRAM space. -/
def isDram (a : Nat) : Bool := decide (dramBase ≤ a) && decide (a < 2 * dramBase)

/-- The check of the 64-bit word at a storage address. -/
def State.checkWord (s : State) (a : Nat) : WordCheck :=
  match klook (a / 8 * 8) s.memory.flips with
  | none => .clean
  | some f =>
    let k := if isDram a then 2 else 1
    let n := popCount 64 f.data + popCount 8 f.check
    if n ≥ 3 && Config.manyBitUncorrectable f.data f.check then .uncorrectable k
    else if n = 2 then .uncorrectable k
    else if isDram a && f.asc != 0 then .uncorrectable 3
    else if n = 0 then .clean else .corrected

/-- The MEM code of an address for ERC.LAST: the bank's MEM_SEL code, or the DRAM channel (R307). -/
def State.memCode (s : State) (a : Nat) : Nat :=
  match bankOf a with
  | some c => c
  | none => (s.sliceOf ((a - dramBase) / 4096)).1

/-- Count and record an uncorrectable word (R300). -/
def State.uncorrectable (s : State) (client a kind : Nat) (write : Bool) : State :=
  ((s.addFld Reg.ERC_UE_COUNT 1).setFld (if kind = 1 then Reg.ERC_EVENT_SRAM_UE else Reg.ERC_EVENT_DRAM_UE) 1).ercLast
    client kind write (s.memCode a) a

/-- A corrected word is counted and written back clean (R300). -/
def State.correct (s : State) (a : Nat) : State :=
  (s.addFld (if isDram a then Reg.ERC_CE_DRAM_COUNT else Reg.ERC_CE_SRAM_COUNT) 1).onMemory fun m =>
    { m with flips := kdel (a / 8 * 8) m.flips }

/-- Read the 64-bit word at a storage address: its value where it reads, and the state after correction or error. -/
def State.readWord (s : State) (client a : Nat) : Option Nat × State :=
  match s.checkWord a with
  | .clean => (some (s.peek (a / 8 * 8) 8), s)
  | .corrected => (some (s.peek (a / 8 * 8) 8), s.correct a)
  | .uncorrectable k => (none, s.uncorrectable client a k false)

/-- The OCM flip mask's target holds this storage address: the MEM_SEL codes of R304. -/
def State.ocmMaskHits (s : State) (client a : Nat) : Bool :=
  s.flag Reg.OCM_FLIPMASK2_ARMED && bankOf a == some (s.fld Reg.OCM_FLIPMASK2_MEM_SEL) &&
  (s.fld Reg.OCM_FLIPMASK2_CLIENT == 0x3FF || s.fld Reg.OCM_FLIPMASK2_CLIENT == client)

/-- A DRAM channel's flip mask targets this word: channel, subchannel and word of the burst (R305). -/
def State.dmcMaskHits (s : State) (client a : Nat) : Bool :=
  let sl := s.sliceOf ((a - dramBase) / 4096)
  isDram a && s.flag (Reg.DMC_FLIPMASK2_ARMED sl.1) && s.fld (Reg.DMC_FLIPMASK2_SUBCH sl.1) == sl.2 &&
  s.fld (Reg.DMC_FLIPMASK2_WORD sl.1) == a / 8 % 8 &&
  (s.fld (Reg.DMC_FLIPMASK2_CLIENT sl.1) == 0x3FF || s.fld (Reg.DMC_FLIPMASK2_CLIENT sl.1) == client)

/-- The mask that OCM.FLIPMASK holds (R304). -/
def State.ocmMask (s : State) : Flips :=
  ⟨s.fld Reg.OCM_FLIPMASK0_DATA_LO + s.fld Reg.OCM_FLIPMASK1_DATA_HI * 2 ^ 32, s.fld Reg.OCM_FLIPMASK2_CHECK, 0⟩

/-- The mask that DMC[n].FLIPMASK holds (R305). -/
def State.dmcMask (s : State) (n : Nat) : Flips :=
  ⟨s.fld (Reg.DMC_FLIPMASK0_DATA_LO n) + s.fld (Reg.DMC_FLIPMASK1_DATA_HI n) * 2 ^ 32,
    s.fld (Reg.DMC_FLIPMASK2_CHECK n), s.fld (Reg.DMC_FLIPMASK2_ASC n)⟩

def State.setFlips (s : State) (w : Nat) (f : Flips) : State :=
  s.onMemory fun m => { m with flips := kput w f m.flips }

/-- After a word is stored: its check bits are fresh, unless an armed mask is taken, which disarms it (R303). -/
def State.sealWord (s : State) (client a : Nat) : State :=
  let w := a / 8 * 8
  let n := (s.sliceOf ((a - dramBase) / 4096)).1
  if s.ocmMaskHits client a then
    ((s.setFlips w s.ocmMask).setFld Reg.OCM_FLIPMASK2_ARMED 0).setFld Reg.ERC_EVENT_FLIP_USED 1
  else if s.dmcMaskHits client a then
    ((s.setFlips w (s.dmcMask n)).setFld (Reg.DMC_FLIPMASK2_ARMED n) 0).setFld Reg.ERC_EVENT_FLIP_USED 1
  else s.onMemory fun m => { m with flips := kdel w m.flips }

/-- Any write to a granule by another client clears reservations of it (R359). -/
def State.breakReservations (s : State) (client a : Nat) : State :=
  s.onMemory fun m => { m with reserved := m.reserved.filter fun r => r.2 != a / 64 || r.1 == client }

/-- The bytes of a word after a write with byte enables. -/
def mergeWord : Nat → Nat → Nat → Nat → Nat
  | 0, _, _, _ => 0
  | n + 1, old, new, be => (if be % 2 = 1 then new % 256 else old % 256) + 256 * mergeWord n (old / 256) (new / 256) (be / 2)

/-- A write during a remapped block's copy goes to the target, where its line counts as copied (R352). -/
def State.markLine (s : State) (a : Nat) : State :=
  let line := a % 4096 / 64
  let mark (r : Remap) : Remap := { r with lines := if r.lines.contains line then r.lines else line :: r.lines }
  let now (r : Remap) : Bool := r.copying && dramBase + r.block * 4096 == a / 4096 * 4096
  if s.memory.remaps.any now then s.onMemory fun m => { m with remaps := updIf now mark m.remaps } else s

/-- Store to the word at a storage address with byte enables. A partial store to an uncorrectable word is refused and
leaves it unchanged (R302); a full store replaces it with fresh check bits. Answers whether the store was made. -/
def State.storeWord (s : State) (client a value be : Nat) : Bool × State :=
  let w := a / 8 * 8
  let put (s : State) : State :=
    (((s.poke w 8 (mergeWord 8 (s.peek w 8) value be)).sealWord client w).breakReservations client w).markLine w
  if be = 0xFF then (true, put s)
  else match s.checkWord a with
    | .uncorrectable k => (false, s.uncorrectable client a k true)
    | .corrected => (true, put (s.correct a))
    | .clean => (true, put s)

/-! ### Bank readiness (R360, R361) -/

/-- A bank's state code: 0 OFF, 1 ON, 2 RETENTION, 3 DISABLED (R373). -/
def State.bankState (s : State) (code : Nat) : Nat := s.fld (Reg.OCM_BANK_STATE code)

/-- The turns of a bank's sweep or scrub: its size by 128 B cycles (R361). -/
def sweepTurns (code : Nat) : Nat := bankSize code / 2 ^ 18

/-- A bank's sweep or scrub runs for some turns from now. -/
def State.startSweep (s : State) (code turns : Nat) : State :=
  (s.setFld (Reg.OCM_BANK_SWEEP code) 1).onMemory fun m => { m with bankDue := kput code (s.turn + turns) m.bankDue }

/-- An access or an ON request starts a bank's power-up of 2 turns with its sweep or wake scrub, unless one runs (R361). -/
def State.startBankWake (s : State) (code : Nat) : State :=
  if s.flag (Reg.OCM_BANK_SWEEP code) then s else s.startSweep code (2 + sweepTurns code)

/-- Gate a memory access on its bank, after its domain: OFF and RETENTION wake and stall it, DISABLED without a redirect
is a bus error (R361, R365). -/
def State.bankGate (s : State) (code client addr : Nat) (write : Bool) (i : Instr) (k : State → State) : State :=
  if s.flag (Reg.OCM_BANK_DISABLE code) && s.fld (Reg.OCM_BANK_REDIRECT code) == 0xFF then s.busError client addr write
  else
    let c := if s.flag (Reg.OCM_BANK_DISABLE code) then s.fld (Reg.OCM_BANK_REDIRECT code) else code
    if s.bankState c == 1 && !s.flag (Reg.OCM_BANK_SWEEP c) then k s
    else (s.startBankWake c).onMemory fun m => { m with bankStall := m.bankStall ++ [(c, i)] }

/-- Gate a memory access by its address: the bank's or the DRAM half's domain, then the bank, or the
zero-fill of the DRAM channel, which stalls it (R345, under 0x100 and the channel); an address outside every
region of Table 10.2 is a bus error (assumption log 13). -/
def State.memGate (s : State) (client addr : Nat) (write : Bool) (i : Instr) (k : State → State) : State :=
  match bankOf addr with
  | some code => s.gate (bankDomain code) client addr write i fun s => s.bankGate code client addr write i k
  | none =>
    if isDram addr then
      let ch := (s.sliceOf ((addr - dramBase) / 4096)).1
      s.gate (if ch < 6 then 11 else 12) client addr write i fun s =>
        if s.flag (Reg.DMC_FILL_GO ch) then s.onMemory fun m => { m with bankStall := m.bankStall ++ [(0x100 + ch, i)] } else k s
    else s.busError client addr write

end Sys2Proof.Machine
end

