-- ==== Sys2Proof/Machine/Map.lean ====
section
/-! DEFINITION. The map and its tables, residencies and slots, the map update port, the journal and the snapshot
(chapter 5, R176–R213), with the commands on them. -/

namespace Sys2Proof.Machine

abbrev Out := Host.Outcome State Fault Refusal

/-! ### Geometry and units (R168, R176–R180) -/

/-- Lanes of the build (R179, R208). -/
def State.lanes (s : State) : Nat := match s.fld Reg.DMC_MAP_CFG_LANES with | 0 => 1 | 1 => 2 | _ => 4

/-- The Dellux clock: rotations since the first format, power cycles included (R255; assumption log 191). -/
def State.dlxNow (s : State) : Nat := s.fld Reg.LDP_DLX_NOW_ROT

/-- U: the 16 KiB units of a member block (R180). -/
def State.unitsPerMb (s : State) : Nat := s.fld Reg.DMC_MAP_CFG_UNITS_PER_MB

/-- The lane of a unit (R179). -/
def State.laneOf (s : State) (g : Nat) : Nat := ((g % 4) ^^^ (g / 2 ^ 16 % 4) ^^^ (g / 2 ^ 32 % 4)) % s.lanes

/-- Dies present on the device. -/
def State.diesPresent (s : State) : Nat :=
  (List.range 64).foldl (fun n c => n + s.fld (Reg.FCE_STATUS_DIES c)) 0

/-- Units of raw capacity. -/
def State.rawUnits (s : State) : Nat := s.diesPresent * s.fld (Reg.FCE_GEOM_B_BLOCKS_PER_PLANE 0) * s.unitsPerMb

/-- Overlay records that the region holds: 2^28 records of 32 B in a 256 TiB build, one for every 64 units (R182). -/
def State.ovlRecords (s : State) : Nat := s.rawUnits / 64

/-- The key of a unit of flash in `Flash.units`. -/
def unitKey (die block off : Nat) : Nat := die * 2 ^ 48 + block * 2 ^ 32 + off

/-- The key of a member block. -/
def blockKey (die block : Nat) : Nat := die * 2 ^ 16 + block

/-- A forme-block table word's index: lane, b, member. -/
def fbtKey (lane b m : Nat) : Nat := (lane * 2 ^ 28 + b) * 16 + m

/-- The forme-block table word of a member; 0 where none was written. -/
def State.fbtWord (s : State) (lane b m : Nat) : Nat := (klook (fbtKey lane b m) s.galley.fbt).getD 0

/-- The member block that a table word names (R180). -/
def wordBlock (w : Nat) : MBlock := ⟨natBits w 0 6 * 16 + natBits w 6 4, natBits w 10 16⟩

/-- The table word of a member block. -/
def blockWord (m : MBlock) : Nat := m.die / 16 + m.die % 16 * 2 ^ 6 + m.block * 2 ^ 10

/-- A member's block and the unit's offset in it, of forme-unit index f (R180). -/
def State.place (s : State) (lane f m : Nat) : MBlock × Nat :=
  let u := max 1 s.unitsPerMb
  (wordBlock (s.fbtWord lane (f / u) m), f % u)

/-! ### Map entries (R178) -/

/-- What a map entry says (Table 05.1). -/
inductive Entry
  | flash (m f : Nat) | deallocated | zeroed | lost | overlay (i : Nat)
  deriving DecidableEq, Repr

/-- Decode a map entry; a reserved code is never written, and reads as LOST. -/
def entryOf (w : Nat) : Entry :=
  let c := natBits w 28 4
  let v := natBits w 0 28
  if c = 15 then .overlay v
  else if c ≠ 0 then .flash (c - 1) v
  else if v = 0 then .deallocated else if v = 1 then .zeroed else .lost

/-- The word of a map entry. -/
def entryWord : Entry → Nat
  | .flash m f => (m + 1) * 2 ^ 28 + f
  | .deallocated => 0
  | .zeroed => 1
  | .lost => 2
  | .overlay i => 15 * 2 ^ 28 + i

/-- A word in a reserved code of Table 05.1. -/
def reservedEntry (w : Nat) : Bool := decide (w < 2 ^ 28) && decide (2 < w)

/-- The address of the entry of G in the compositor map: DMC.MAP_BASE + 4 × G in DRAM (R178). -/
def State.mapAddr (s : State) (g : Nat) : Nat := dramBase + s.fld Reg.DMC_MAP_BASE_BASE_GIB * 2 ^ 30 + 4 * g

/-- The map entry of G as a word. -/
def State.mapWord (s : State) (g : Nat) : Nat := s.peek (s.mapAddr g) 4

def State.mapEntry (s : State) (g : Nat) : Entry := entryOf (s.mapWord g)

/-- The address of a granule table entry (R177, R208). -/
def State.granAddr (s : State) (i : Nat) : Nat := 0x10000000 + s.fld Reg.DMC_MAP_GRAN_GRAN_BANK * 0x100000 + 4 * i

/-- The address of a word of the namespace table; namespace n has entry n − 1 (assumption log 16). -/
def State.nstAddr (s : State) (i w : Nat) : Nat := 0x10000000 + s.fld Reg.DMC_MAP_GRAN_NS_BANK * 0x100000 + 8 * i + 4 * w

/-- The global unit index of unit u of a namespace, or a table fault (R177). -/
def State.unitIndex (s : State) (nsid u : Nat) : Option Nat :=
  let e := s.peek (s.nstAddr (nsid - 1) 0) 4
  let n := s.peek (s.nstAddr (nsid - 1) 1) 4 % 2 ^ 19
  let i := natBits e 0 18 + u / 65536
  let g := s.peek (s.granAddr i) 4
  if nsid = 0 || nsid > 256 || natBits e 31 1 = 0 || u / 65536 ≥ n || i ≥ 262144 || natBits g 31 1 = 0 then none
  else some (natBits g 0 18 * 65536 + u % 65536)

/-! ### Residencies and slots (R186–R192) -/

def State.onGalley (s : State) (f : Galley → Galley) : State := { s with galley := f s.galley }
def State.onFlash (s : State) (f : Flash → Flash) : State := { s with flash := f s.flash }
def State.onSluice (s : State) (f : Sluice → Sluice) : State := { s with sluice := f s.sluice }
def State.onNv (s : State) (f : NonVol → NonVol) : State := { s with nv := f s.nv }

def State.slot (s : State) (n : Nat) : Option Slot := klook n s.galley.slots

def State.onSlot (s : State) (n : Nat) (f : Slot → Slot) : State :=
  s.onGalley fun g => { g with slots := updIf (fun p => p.1 == n) (fun p => (p.1, f p.2)) g.slots }

/-- A residency that serves reads: landed and not superseded. -/
def SlotState.landed : SlotState → Bool
  | .resident | .placing => true
  | _ => false

/-- The slot of highest residency order among those that a test picks. -/
def newestOf (p : Nat × Slot → Bool) (l : List (Nat × Slot)) : Option (Nat × Slot) :=
  l.foldl (fun best x =>
    if p x then (match best with | some b => if b.2.order < x.2.order then some x else some b | none => some x)
    else best) none

/-- The newest landed residency of a unit. -/
def State.residency (s : State) (g : Nat) : Option (Nat × Slot) :=
  newestOf (fun x => x.2.unit == g && x.2.state.landed) s.galley.slots

/-- The newest residency of a unit, landed or still filling (R190). -/
def State.newest (s : State) (g : Nat) : Option (Nat × Slot) :=
  newestOf (fun x => x.2.unit == g && (x.2.state.landed || x.2.state == .filling)) s.galley.slots

/-- A read-cache slot of a unit. -/
def State.cached (s : State) (g : Nat) : Option (Nat × Slot) :=
  newestOf (fun x => x.2.unit == g && x.2.state == .cache) s.galley.slots

/-- Free every slot that is superseded, unpinned and has no program in flight (R187, R188). -/
def State.freeSlots (s : State) : State :=
  s.onGalley fun g => { g with slots := g.slots.filter fun x =>
    !(x.2.state == .superseded && x.2.pins.isEmpty && !x.2.inFlight) }

/-- Supersede the landed residencies of a unit that are older than an order, and its read-cache slot (R187, R194). An older one that is still
filling is superseded when it lands (R191). -/
def State.supersede (s : State) (g below : Nat) : State :=
  (s.onGalley fun y => { y with slots :=
      (updIf (fun x => x.2.unit == g && decide (x.2.order < below) && x.2.state != .filling)
        (fun x => (x.1, { x.2 with state := .superseded })) y.slots) }).freeSlots

/-- What a deallocation leaves of a slot's sectors: a write that has not landed will land without them (R187, R191); a landed residency loses
them, and is superseded with its last; a read-cache slot goes. A landed residency that keeps other sectors is not superseded whole, as R194's
words have it: those sectors are acknowledged host data that nothing else holds (DESIGN CHOICE, assumption log 167). -/
def Slot.without (ks : List Nat) (x : Slot) : Slot :=
  let left := x.sectors.zipIdx.map fun y => if ks.contains y.2 then none else y.1
  match x.state with
  | .filling => { x with cut := (ks ++ x.cut).eraseDups }
  | .cache => { x with state := .superseded }
  | _ => { x with sectors := left, state := if left.all (·.isNone) then .superseded else x.state }

/-- Deallocate sectors of a unit in the slots that were allocated before an order. -/
def State.cutSectors (s : State) (g below : Nat) (ks : List Nat) : State :=
  (s.onGalley fun y => { y with slots :=
      (updIf (fun x => x.2.unit == g && decide (x.2.order < below)) (fun x => (x.1, x.2.without ks)) y.slots) }).freeSlots

/-- What a DRAM channel can move in a turn, in KiB (R347). -/
def State.dramKib (s : State) (ch : Nat) : Nat :=
  let full := match s.fld (Reg.DMC_CFG_RATE ch) with | 0 => 40 | 1 => 35 | _ => 30
  if s.flag (Reg.DMC_CFG_HALF ch) then full / 2 else full

/-- The SC1 budget of a channel. -/
def State.sc1Kib (s : State) (ch : Nat) : Nat :=
  s.dramKib ch - s.fld (Reg.DMC_BUDGET_SC0_KIB ch) - s.fld (Reg.DMC_BUDGET_FLOOR_KIB ch)

/-- The two DRAM channels of a slot's copies (R185): with fewer than 12 channels, slot n takes n mod LAYOUT.K, of which the rule's i mod 6
is the case of six (DESIGN CHOICE, assumption log 159). -/
def State.copyChans (s : State) (n : Nat) : Nat × Nat :=
  let k := max 1 (s.fld Reg.DMC_LAYOUT_K)
  (n % k, 6 + n % k)

/-- Of n things numbered from 0, those with a copy on the channel that a mirror move moves. -/
def State.moveShare (s : State) (n : Nat) : Nat :=
  let k := max 1 (s.fld Reg.DMC_LAYOUT_K)
  (n - s.fld Reg.DMC_GLY_MOVE_CHAN % 6 + k - 1) / k

/-- A mirror move is under way, and a slot or journal slot has a copy on its channel. -/
def State.moves (s : State) (n : Nat) : Bool :=
  let c := s.fld Reg.DMC_GLY_MOVE_CHAN
  s.flag Reg.DMC_GLY_MOVE_ACTIVE && ((s.copyChans n).1 == c || (s.copyChans n).2 == c)

/-- Copies that the move makes before a slot's: slots first, then journal slots, then the slots that were landing when it started (R189). -/
def State.movePlace (s : State) (n : Nat) : Nat :=
  let k := max 1 (s.fld Reg.DMC_LAYOUT_K)
  let l := s.galley.moveLast
  if l.contains n then s.moveShare 262144 + s.moveShare 65536 - l.length + l.idxOf n else n / k - (l.filter (· < n)).length

/-- A slot cannot be allocated while the mirror move still has its copy to move (R189). -/
def State.barredSlot (s : State) (n : Nat) : Bool := s.moves n && decide (s.galley.moveDone ≤ s.movePlace n)

/-- A journal slot likewise. -/
def State.barredJnl (s : State) (n : Nat) : Bool :=
  s.moves n && decide (s.galley.moveDone + s.galley.moveLast.length ≤ s.moveShare 262144 + n / max 1 (s.fld Reg.DMC_LAYOUT_K))

/-- The first slot number, from `n` in steps, that is free and not barred. -/
def State.freeSlotFrom (s : State) (by_ : Nat) : Nat → Nat → Option Nat
  | 0, _ => none
  | fuel + 1, n =>
    if decide (n < 262144) && (s.slot n).isNone && !s.barredSlot n then some n else s.freeSlotFrom by_ fuel (n + by_)

/-- Slots that hold unplaced host data: those that CAP_SLOTS bounds (R317). -/
def State.dirtySlots (s : State) : Nat := (s.galley.slots.filter fun x => x.2.state != .cache).length

/-- Slots barred by the mirror move. -/
def State.barredCount (s : State) : Nat :=
  let l := s.galley.moveLast.length
  if s.flag Reg.DMC_GLY_MOVE_ACTIVE then
    (s.moveShare 262144 - l - s.galley.moveDone) + min l (s.moveShare 262144 + s.moveShare 65536 - s.galley.moveDone)
  else 0

/-- Slots that a write may still take: the slots of the galley, CACHE slots counted as room (R21), under CAP_SLOTS
(R317). -/
def State.slotRoom (s : State) : Nat := min (262144 - s.barredCount) (s.fld Reg.PMC_CIS_SLOTS_CAP_SLOTS) - s.dirtySlots

/-- A FREE slot: on the pair of channels that gives the published hold (R348), else any. -/
def State.freeSlot (s : State) : Option Nat :=
  match s.freeSlotFrom (max 1 (s.fld Reg.DMC_LAYOUT_K)) 262144 s.galley.pair with
  | some n => some n
  | none => s.freeSlotFrom 1 262144 0

/-- Allocate a slot for a unit: a FREE one, else the place of a CACHE slot (R21, R187). -/
def State.allocSlot (s : State) (x : Slot) : Nat × State :=
  match s.freeSlot with
  | some n => (n, s.onGalley fun g => { g with slots := kput n x g.slots })
  | none =>
    match s.galley.slots.find? (fun y => y.2.state == .cache && y.2.pins.isEmpty) with
    | some y => (y.1, s.onGalley fun g => { g with slots := kput y.1 x g.slots })
    | none => (262144, s)

/-- Pin or unpin a slot for a plan (R188). -/
def State.pin (s : State) (n plan : Nat) : State := s.onSlot n fun x => { x with pins := plan :: x.pins }

def State.unpin (s : State) (plan : Nat) : State :=
  (s.onGalley fun g => { g with slots := g.slots.map fun x => (x.1, { x.2 with pins := x.2.pins.filter (· != plan) }) }).freeSlots

/-! ### Journal and snapshot (R204–R206) -/

/-- A journal slot number is in use. -/
def State.jnlUsed (s : State) (n : Nat) : Bool := s.galley.journal.any fun j => j.1 == n

def State.freeJnlFrom (s : State) : Nat → Nat → Option Nat
  | 0, _ => none
  | fuel + 1, n =>
    if !s.jnlUsed (n % 65536) && !s.barredJnl (n % 65536) then some (n % 65536) else s.freeJnlFrom fuel (n + 1)

/-- The current journal slot takes another record. -/
def State.jnlOpen (s : State) : Bool := match s.galley.journal.getLast? with | some j => decide (j.2.length < 256) | none => false

/-- The 64 bytes of a journal record (Table 05.7), its CRC-32C over the first 60 in the last four. -/
def JournalRec.bytes (r : JournalRec) : Bytes :=
  let b := leBytes 4 r.kind ++ leBytes 8 r.seq ++ leBytes 8 r.turn ++ leBytes 8 r.unit ++ leBytes 4 r.new ++ leBytes 4 r.old ++ leBytes 4 r.aux ++
    leBytes 4 r.slot ++ fill 16 0
  b ++ leBytes 4 (crc32c b)

/-- No record can be appended: every journal slot is in use and the last one is full. R204 says 'all 65,536 journal slots in use' and not
whether a last slot with room still takes records: it does (DESIGN CHOICE, assumption log 168). -/
def State.jnlFull (s : State) : Bool := !s.jnlOpen && (s.freeJnlFrom 65536 s.galley.nextSlot).isNone

/-- Append to the last journal slot. -/
def appendLast (r : JournalRec) : List (Nat × List JournalRec) → List (Nat × List JournalRec)
  | [] => []
  | [(n, l)] => [(n, l ++ [r])]
  | x :: t => x :: appendLast r t

/-- Append a journal record to the current slot, opening a new one where it is full (R204). -/
def State.journal (s : State) (kind unit new old aux slot : Nat) : State :=
  let r : JournalRec := ⟨kind, s.galley.jnlSeq, s.turn, unit, new, old, aux, slot⟩
  let s := if s.jnlOpen then s else
    match s.freeJnlFrom 65536 s.galley.nextSlot with
    | some n => s.onGalley fun g => { g with journal := g.journal ++ [(n, [])], nextSlot := (n + 1) % 65536 }
    | none => s
  s.onGalley fun g => { g with journal := appendLast r g.journal, jnlSeq := g.jnlSeq + 1 }

/-- A page is in the snapshot being written and not in the shadow pool. -/
def State.unshadowed (s : State) (p : Nat × Nat) : Bool := s.galley.unwritten.contains p && !s.galley.shadow.contains p

/-- The shadow pool is full (R205). -/
def State.shadowFull (s : State) : Bool := decide (65536 ≤ s.galley.shadow.length)

/-- A request changes a page: it is dirty, and copied to the shadow pool first where the write-out still needs it. -/
def State.touchPage (s : State) (p : Nat × Nat) : State :=
  s.onGalley fun g => { g with
    dirty := if g.dirty.contains p then g.dirty else p :: g.dirty
    shadow := if g.unwritten.contains p && !g.shadow.contains p then p :: g.shadow else g.shadow }

/-- The tables as they stand (R205). Map entries are the cells of the map region. -/
def State.tables (s : State) : Tables :=
  let words (lo n : Nat) : List (Nat × Nat) :=
    ((s.memory.bytes.filter fun c => decide (lo ≤ c.1) && decide (c.1 < lo + 4 * n)).map fun c => (c.1 - lo) / 4).eraseDups.map
      fun i => (i, s.peek (lo + 4 * i) 4)
  { map := words (s.mapAddr 0) (2 ^ 34), ovl := s.galley.ovl, fbt := s.galley.fbt
    gran := words (s.granAddr 0) 262144, nst := words (s.nstAddr 0 0) 512, zones := s.galley.zones }

/-! ### The map update port (R203) -/

/-- The results of Table 05.6. -/
inductive MapResult | applied | stale | superseded | rejected | malformed
  deriving DecidableEq, Repr

def MapResult.code : MapResult → Nat
  | .applied => 1 | .stale => 2 | .superseded => 3 | .rejected => 4 | .malformed => 5

/-- The page that a request changes: table and page number. -/
def State.reqPage (s : State) (kind : Nat) (q : MapReq) : Nat × Nat :=
  match kind with
  | 1 | 2 | 3 => (0, 4 * natBits q.target 0 34 / 16384)
  | 4 | 5 => (1, 32 * natBits q.target 0 28 / 16384)
  | 6 => (5, natBits q.target 0 32 / 1024)
  | 7 => (2, 64 * (natBits q.target 2 28 * s.lanes + natBits q.target 0 2) / 16384)
  | _ => if natBits q.target 32 1 = 0 then (3, 4 * natBits q.target 0 18 / 16384) else (4, 0)

/-- A TARGET beyond its table, or with bits that Table 05.9 leaves 0. -/
def State.badTarget (s : State) (kind : Nat) (q : MapReq) : Bool :=
  match kind with
  | 1 | 2 | 3 => decide (s.rawUnits ≤ q.target)
  | 4 => decide (2 ^ 36 ≤ q.target) || decide (7 < natBits q.target 32 4) || natBits q.target 28 4 != 0 ||
      decide (s.ovlRecords ≤ natBits q.target 0 28)
  | 5 => decide (min (2 ^ 28) s.ovlRecords ≤ q.target)
  | 6 => decide (2 ^ 33 ≤ q.target) || decide (262144 ≤ natBits q.target 0 32)
  | 7 => decide (2 ^ 34 ≤ q.target) || decide (s.lanes ≤ natBits q.target 0 2) ||
      decide (2 ^ 28 ≤ natBits q.target 2 28 * max 1 s.unitsPerMb)
  | 8 => decide (2 ^ 34 ≤ q.target) || natBits q.target 18 14 != 0 ||
      (natBits q.target 32 1 == 1 && decide (256 ≤ natBits q.target 0 18)) ||
      (natBits q.target 32 1 == 0 && natBits q.target 33 1 == 1)
  | _ => true

/-- A malformed request (Table 05.6). -/
def State.malformed (s : State) (kind : Nat) (q : MapReq) : Bool :=
  s.badTarget kind q || (kind != 1 && q.slot != 0xFFFFFFFF) ||
  (decide (kind ≤ 3) && reservedEntry q.new) ||
  (kind == 4 && decide (natBits q.target 32 4 ≤ 4) && decide (15 * 2 ^ 28 ≤ q.new))

def State.overlay (s : State) (i : Nat) : Overlay := (klook i s.galley.ovl).getD {}

/-- A field of an overlay record by the selector of Table 05.9. -/
def Overlay.field (o : Overlay) (k : Nat) : Nat :=
  match k with
  | 0 => o.base
  | 5 => o.sect
  | 6 => o.unit % 2 ^ 32
  | 7 => o.unit / 2 ^ 32
  | k => o.frags.getD (k - 1) 0

def Overlay.setField (o : Overlay) (k v : Nat) : Overlay :=
  match k with
  | 0 => { o with base := v }
  | 5 => { o with sect := v }
  | 6 => { o with unit := o.unit / 2 ^ 32 * 2 ^ 32 + v % 2 ^ 32 }
  | 7 => { o with unit := v % 256 * 2 ^ 32 + o.unit % 2 ^ 32 }
  | k => { o with frags := updAt (fun _ => v) (k - 1) o.frags }

/-- The value that a request replaces. -/
def State.reqOld (s : State) (kind : Nat) (q : MapReq) : Nat :=
  match kind with
  | 1 | 2 | 3 => s.mapWord q.target
  | 4 => (s.overlay (natBits q.target 0 28)).field (natBits q.target 32 4)
  | 5 => (s.overlay q.target).base
  | 6 =>
    let z := (klook (natBits q.target 0 32) s.galley.zones).getD (0, 0)
    if natBits q.target 32 1 = 0 then z.1 else z.2
  | 7 => s.fbtWord (natBits q.target 0 2) (natBits q.target 2 28) (natBits q.target 30 4)
  | _ =>
    if natBits q.target 32 1 = 0 then s.peek (s.granAddr (natBits q.target 0 18)) 4
    else s.peek (s.nstAddr (natBits q.target 0 18) (natBits q.target 33 1)) 4

/-- Whether a request's condition holds (Tables 05.6, 05.10). -/
def State.reqHolds (s : State) (kind : Nat) (q : MapReq) : Bool :=
  match kind with
  | 1 => match s.newest q.target with | some r => r.1 == q.slot && r.2.state.landed | none => false
  | 2 => s.reqOld kind q == q.expect
  | 4 | 7 => !q.cond || s.reqOld kind q == q.expect
  | _ => true

/-- Journal KIND of a request kind (Table 05.10). -/
def journalKind : Nat → Nat
  | 1 => 1 | 2 => 2 | 3 => 1 | 4 => 3 | 5 => 4 | 6 => 5 | 7 => 7 | _ => 8

/-- Write what a request names. -/
def State.reqWrite (s : State) (kind : Nat) (q : MapReq) : State :=
  match kind with
  | 1 | 2 | 3 => s.poke (s.mapAddr q.target) 4 q.new
  | 4 =>
    let o := (s.overlay (natBits q.target 0 28)).setField (natBits q.target 32 4) q.new
    s.onGalley fun g => { g with ovl := kput (natBits q.target 0 28) o g.ovl }
  | 5 => s.onGalley fun g => { g with ovl := kdel q.target g.ovl }
  | 6 =>
    let z := natBits q.target 0 32
    let old := (klook z s.galley.zones).getD (0, 0)
    let new := if natBits q.target 32 1 = 0 then (q.new % 16, old.2) else (old.1, q.new)
    s.onGalley fun g => { g with zones := kput z new g.zones }
  | 7 =>
    let k := fbtKey (natBits q.target 0 2) (natBits q.target 2 28) (natBits q.target 30 4)
    s.onGalley fun g => { g with fbt := kput k q.new g.fbt }
  | _ =>
    if natBits q.target 32 1 = 0 then s.poke (s.granAddr (natBits q.target 0 18)) 4 q.new
    else s.poke (s.nstAddr (natBits q.target 0 18) (natBits q.target 33 1)) 4 q.new

/-- What an applied request does to residencies: host placement releases its slot, and an unconditional set supersedes
every residency of the unit (R36, R187, R194). -/
def State.reqSlots (s : State) (kind : Nat) (q : MapReq) (below : Nat) : State :=
  match kind with
  | 1 => (s.onSlot q.slot fun x => { x with state := .superseded, inFlight := false }).freeSlots
  | 3 => s.cutSectors q.target below [0, 1, 2, 3]
  | _ => s

/-- The waiting updates of a dredge copy that a conditional request settles (R229): the whole unit's (place 4) by a map set that expects the
copied location or by a set of its overlay's BASE, a fragment's by a set of its overlay field; a fold's map set, which expects the overlay
record, settles all of its unit. -/
def State.settles (s : State) (kind : Nat) (q : MapReq) (f m : Nat) (w : Nat × Nat) : Bool :=
  let here := entryOf q.expect == .flash m f
  if kind = 2 then
    w.1 == q.target && (match entryOf q.expect with | .overlay _ => true | _ => here && w.2 == 4)
  else
    let k := natBits q.target 32 4
    q.cond && here && decide (k ≤ 4) && w == ((s.overlay (natBits q.target 0 28)).unit, if k = 0 then 4 else k - 1)

/-- A conditional request resolves copies of dredge victims, applied or stale (R229). -/
def State.resolveCopies (s : State) (kind : Nat) (q : MapReq) : State :=
  let fix (fb : FormeBlock) : FormeBlock :=
    { fb with copies := fb.copies.map fun c => (c.1, c.2.1, c.2.2.filter fun w => !s.settles kind q c.1 c.2.1 w) }
  let lane := s.laneOf (if kind = 2 then q.target else (s.overlay (natBits q.target 0 28)).unit)
  s.onFlash fun x => { x with formeBlocks := updIf (fun fb => fb.lane == lane && !fb.copies.isEmpty) fix x.formeBlocks }

/-- Apply one request: its result, and the state (R203, R204). `below` is the residency order that an unconditional
set supersedes: everything, for a ring request. -/
def State.applyReq (s : State) (kind : Nat) (q : MapReq) (below : Nat) : MapResult × State :=
  if s.malformed kind q then (.malformed, s)
  else if s.jnlFull || (s.unshadowed (s.reqPage kind q) && s.shadowFull) then (.rejected, s)
  else
    let s := if kind = 2 ∨ kind = 4 then s.resolveCopies kind q else s
    if s.reqHolds kind q then
      let old := s.reqOld kind q
      (.applied, (((s.touchPage (s.reqPage kind q)).reqWrite kind q).journal (journalKind kind) q.target q.new old q.aux q.slot).reqSlots kind q below)
    else if kind = 1 then (.superseded, (s.onSlot q.slot fun x => { x with inFlight := false }).freeSlots)
    else (.stale, s)

/-- Book a step of firmware's own at the port, for the edge that closes this turn (R203). -/
def State.bookOp (s : State) (o : MapOp) : State := s.onGalley fun g => { g with booked := g.booked ++ [(s.turn, 0, g.order, o)] }

/-- A map entry names a unit of a forme whose 16 members have not all passed their proof reads: firmware issues no update for it yet (R228). -/
def State.unproven (s : State) (g w : Nat) : Bool :=
  match entryOf w with
  | .flash _ f => s.flash.plans.any fun p => p.lane == s.laneOf g && p.b * max 1 s.unitsPerMb + p.off == f
  | _ => false

/-- One request handed to the port by a command of its own kind: the result is the answer. -/
def State.portRequest (s : State) (kind : Nat) (q : MapReq) : State :=
  let r := s.applyReq kind q (s.galley.order + 1)
  let t := if r.1 == .malformed then r.2.logUncoded .malformed 0x3FF q.target else r.2
  { t with answer := some (.value 0x3FF r.1.code) }

/-- HOST_PLACE (R203): issued once the forme is proven (R228). -/
def execHostPlace (q : MapReq) (s : State) : Out := .next (if s.unproven q.target q.new then s else s.portRequest 1 q)

/-- COND_SET (R37), likewise. -/
def execCondSet (q : MapReq) (s : State) : Out := .next (if s.unproven q.target q.new then s else s.portRequest 2 q)

/-- MAP_SET (R194). -/
def execMapSet (q : MapReq) (s : State) : Out := .next (s.portRequest 3 q)

/-- OVL_SET (R203). -/
def execOvlSet (q : MapReq) (s : State) : Out := .next (s.portRequest 4 q)

/-- OVL_FREE (R203). -/
def execOvlFree (q : MapReq) (s : State) : Out := .next (s.portRequest 5 q)

/-- ZONE_UPDATE (R203). -/
def execZoneUpdate (q : MapReq) (s : State) : Out := .next (s.portRequest 6 q)

/-- FBT_SET (R271). -/
def execFbtSet (q : MapReq) (s : State) : Out := .next (s.portRequest 7 q)

/-- TABLE_SET (R177). -/
def execTableSet (q : MapReq) (s : State) : Out := .next (s.portRequest 8 q)

/-! ### The ring -/

/-- Entries of the update ring (R210). -/
def State.mupEntries (s : State) : Nat := 2 ^ (s.fld Reg.DMC_MUP_RING_LOG2_ENTRIES + 4)

def State.mupAddr (s : State) (i : Nat) : Nat := 0x10000000 + s.fld Reg.DMC_MUP_RING_BANK * 0x100000 + 32 * i

/-- Apply the ring slot at HEAD, write its RESULT and move HEAD past it. -/
def State.ringStep (s : State) : State :=
  let h := s.fld Reg.DMC_MUP_PTR_HEAD
  let a := s.mupAddr h
  let kind := s.peek a 1
  let flags := s.peek (a + 1) 1
  let q : MapReq := ⟨flags % 2 == 1, s.peek (a + 4) 8, s.peek (a + 12) 4, s.peek (a + 16) 4, s.peek (a + 20) 4, s.peek (a + 24) 4⟩
  let r := if flags > 1 || kind = 0 || kind > 8 then (MapResult.malformed, s) else s.applyReq kind q (s.galley.order + 1)
  let t := if r.1 == .malformed then r.2.logUncoded .malformed 0x3FF h else r.2
  (t.poke (a + 28) 2 r.1.code).setFld Reg.DMC_MUP_PTR_HEAD ((h + 1) % s.mupEntries)

/-- Apply up to n ring requests in ring order. -/
def State.ringRun : Nat → State → State
  | 0, s => s
  | n + 1, s => if s.fld Reg.DMC_MUP_PTR_HEAD = s.fld Reg.DMC_MUP_PTR_TAIL then s else s.ringStep.ringRun n

/-- A TAIL that would pass HEAD (R210). -/
def ringPasses (n head tail new : Nat) : Bool :=
  decide (n ≤ new) || decide (n ≤ (new + n - tail) % n + (tail + n - head) % n)

/-- MUP_TAIL_WRITE (R210). -/
def execMupTailWrite (client tail : Nat) (s : State) : Out :=
  .next (s.setupWrite client Reg.DMC_MUP_PTR (BitVec.ofNat 32 tail) (.mupTailWrite client tail) fun s =>
    if ringPasses s.mupEntries (s.fld Reg.DMC_MUP_PTR_HEAD) (s.fld Reg.DMC_MUP_PTR_TAIL) tail then
      s.logWrite client Reg.DMC_MUP_PTR (BitVec.ofNat 32 tail)
    else s.setFld Reg.DMC_MUP_PTR_TAIL tail)

/-- JOURNAL_SLOT_PROGRAMMED (R204): a full slot's flash copy has passed its proof read. -/
def execJournalSlotProgrammed (slot : Nat) (s : State) : Out :=
  .next (match s.galley.journal.find? (fun j => j.1 == slot && decide (256 ≤ j.2.length)) with
    | some j => (s.onGalley fun g => { g with journal := g.journal.filter fun x => x.1 != slot }).onNv fun n =>
        { n with journal := n.journal ++ j.2 }
    | none => s)

/-! ### Snapshot commands -/

/-- SNAPSHOT_MARK (R205, R212). -/
def execSnapshotMark (client : Nat) (s : State) : Out :=
  .next (s.setupWrite client Reg.DMC_SNAP_CTRL 1 (.snapshotMark client) fun s =>
    if s.galley.writing.isSome then s.setFld Reg.DMC_SNAP_STATUS_MARK_LOST 1 else s.setFld Reg.DMC_SNAP_CTRL_MARK 1)

/-- The mark at a turn edge (R205). While no record can be journaled it waits, as requests do (R204). -/
def State.takeMark (s : State) : State :=
  if !s.flag Reg.DMC_SNAP_CTRL_MARK || s.jnlFull then s
  else
    let s := s.setFld Reg.DMC_SNAP_CTRL_MARK 0
    let seq := s.galley.jnlSeq - 1
    let t := s.tables
    (s.onGalley fun g => { g with writing := some (seq, t), markSeq := seq, unwritten := g.dirty, dirty := [], shadow := [] }).journal
      6 0 0 0 0 0xFFFFFFFF

/-- SNAPSHOT_COMPLETE (R206): every page of the write-out has passed its proof read. -/
def execSnapshotComplete (s : State) : Out :=
  .next (match s.galley.writing with
    | some (seq, t) =>
      if !s.galley.unwritten.isEmpty then s
      else (s.onGalley fun g => { g with writing := none, shadow := [] }).onNv fun n =>
        { n with snapshot := t, snapSeq := seq, journal := n.journal.filter fun r => decide (seq < r.seq) }
    | none => s)

/-! ### Mirror move and map repair (R189, R209, R355) -/

/-- Slots and journal slots with a copy on the moved channel. -/
def State.moveTotal (s : State) : Nat := s.moveShare 262144 + s.moveShare 65536

/-- Start the mirror move of the channel in GLY_MOVE.CHAN: slots of it whose data is landing are moved last (R189). -/
def State.startMove (s : State) : State :=
  let k := max 1 (s.fld Reg.DMC_LAYOUT_K)
  let landing := (s.galley.slots.filter fun x => x.2.state == .filling && x.1 % k == s.fld Reg.DMC_GLY_MOVE_CHAN % 6).map (·.1)
  ((s.onGalley fun g => { g with moveLeft := s.moveTotal, moveDone := 0, movePending := false, moveLast := landing }).setFlds
    [(Reg.DMC_GLY_MOVE_START, 0), (Reg.DMC_GLY_MOVE_ACTIVE, 1), (Reg.DMC_GLY_MOVE_LEFT_KSLOTS, cdiv s.moveTotal 1024)])

/-- MIRROR_MOVE_START (R189, R209): a START while ACTIVE is 1 is ignored; the move starts at the next turn edge. -/
def execMirrorMoveStart (client chan : Nat) (s : State) : Out :=
  .next (s.setupWrite client Reg.DMC_GLY_MOVE (BitVec.ofNat 32 (chan + 16)) (.mirrorMoveStart client chan) fun s =>
    if s.flag Reg.DMC_GLY_MOVE_ACTIVE then s
    else (s.setFlds [(Reg.DMC_GLY_MOVE_CHAN, chan), (Reg.DMC_GLY_MOVE_START, 1)]).onGalley fun g => { g with movePending := true })

/-- One copy of the mirror move in a turn (R189). -/
def State.moveStep (s : State) : State :=
  if s.flag Reg.DMC_GLY_MOVE_ACTIVE && decide (0 < s.galley.moveLeft) then
    (s.onGalley fun g => { g with moveLeft := g.moveLeft - 1, moveDone := g.moveDone + 1 }).setFld
      Reg.DMC_GLY_MOVE_LEFT_KSLOTS (cdiv (s.galley.moveLeft - 1) 1024)
  else s

/-- MIRROR_MOVE_COMPLETE (R189): the last slot has been moved. -/
def execMirrorMoveComplete (s : State) : Out :=
  .next (if s.flag Reg.DMC_GLY_MOVE_ACTIVE && s.galley.moveLeft == 0 then
      s.setFlds [(Reg.DMC_GLY_MOVE_ACTIVE, 0), (Reg.DMC_GLY_MOVE_LEFT_KSLOTS, 0)]
    else s)

/-- MAP_REPAIR (R355): GO is taken at the next turn edge. -/
def execMapRepair (client line : Nat) (s : State) : Out :=
  .next (s.setupWrite client Reg.DMC_MAP_REPAIR (BitVec.ofNat 32 (line + 2 ^ 30)) (.mapRepair client line) fun s =>
    (s.setFlds [(Reg.DMC_MAP_REPAIR_LINE, line), (Reg.DMC_MAP_REPAIR_GO, 1), (Reg.DMC_MAP_REPAIR_BUSY, 1)]).onMemory
      fun m => { m with mapRepair := true })

/-- The repair at the turn edge: 64 B from the scratchpad into the line, with fresh check bits, and nothing journaled. -/
def State.takeRepair (s : State) : State :=
  if !s.memory.mapRepair then s
  else
    let a := s.mapAddr (16 * s.fld Reg.DMC_MAP_REPAIR_LINE)
    let b := 0x10000000 + 64 * s.fld Reg.DMC_MAP_REPAIR_SRC_OFFSET
    (s.onMemory fun m => { m with
      bytes := memWrite a (memRead m.bytes b 64) m.bytes
      flips := m.flips.filter fun f => decide (f.1 < a) || decide (a + 64 ≤ f.1)
      mapRepair := false }).setFlds [(Reg.DMC_MAP_REPAIR_GO, 0), (Reg.DMC_MAP_REPAIR_BUSY, 0)]

end Sys2Proof.Machine
end

