-- ==== Sys2Proof/Machine/Retire.lean ====
section
/-! DEFINITION. Capacity, spare and retirement (chapter 6, R215–R219, R237, R238; R43, R277): the formable count, the
spare ratio, the retirement of each kind of unit and its ledger record, and the start of a permanent fault. -/

namespace Sys2Proof.Machine

/-! ### Edition parameters (Table 06.6) -/

/-- Defaults of Table 06.6, in its order, ENDURANCE aside. -/
def reclaimDefaults : List Nat := [70, 25, 30, 20, 12, 6, 2, 0, 21, 20, 10, 50]

/-- A RECLAIM parameter of the edition in force, by its place in Table 06.6: 0 OP_PERMILLE, 1 SPARE_FLOOR, 2–5 L_OPEN to
L_CLOSED, 6 HYST, 7 ENDURANCE, 8 SAVE_CAP_LOG2, 9 TOPUP_LOG2, 10 AVSPT, 11 WL_SPREAD. -/
def State.param (s : State) (k : Nat) : Nat :=
  match s.mgmt.current.reclaim with
  | some l => l.getD k 0
  | none => if k = 7 then s.flash.endurance else reclaimDefaults.getD k 0

/-! ### Member blocks (R215, R216, R219) -/

def State.blockInfo (s : State) (die block : Nat) : BlockInfo := (klook (blockKey die block) s.flash.blocks).getD {}

def State.onBlock (s : State) (die block : Nat) (f : BlockInfo → BlockInfo) : State :=
  s.onFlash fun x => { x with blocks := kput (blockKey die block) (f (s.blockInfo die block)) x.blocks }

/-- The channel of a die is retired (R132). -/
def State.chanRetired (s : State) (c : Nat) : Bool := s.fld (Reg.SLU_CHAN_OUT_OUT (c / 32)) / 2 ^ (c % 32) % 2 == 1

/-- A die is present and neither it nor its channel is retired (R133). -/
def State.dieCounts (s : State) (n : Nat) : Bool :=
  s.flag (Reg.FUR_CFG_PRESENT n) && s.fld (Reg.SLU_DIE_STATE_STATE n) != 2 && s.fld (Reg.SLU_DIE_STATE_STATE n) != 3 &&
  !s.chanRetired (n / 16)

/-- Blocks on a die that are listed with a property. -/
def State.listedOn (s : State) (die : Nat) (p : BlockInfo → Bool) : Nat :=
  (s.flash.blocks.filter fun b => b.1 / 65536 == die && p b.2).length

/-- Member blocks of a die that do not have a property; an unlisted block has none of those asked for. -/
def State.blocksWithout (s : State) (die : Nat) (p : BlockInfo → Bool) : Nat :=
  if s.dieCounts die then s.fld (Reg.FCE_GEOM_B_BLOCKS_PER_PLANE (die / 16)) - s.listedOn die p else 0

/-- Member blocks of one channel and lane without a property (R179: position p lies in lane p mod L). -/
def State.chanBlocks (s : State) (lane c : Nat) (p : BlockInfo → Bool) : Nat :=
  (List.range 16).foldl (fun n i => if i % s.lanes = lane then n + s.blocksWithout (16 * c + i) p else n) 0

/-- Per channel counts of a lane. -/
def State.laneBlocks (s : State) (lane : Nat) (p : BlockInfo → Bool) : List Nat :=
  (List.range 64).map fun c => s.chanBlocks lane c p

/-- A set of counts forms n forme-blocks (R216). -/
def forms (x : List Nat) (n : Nat) : Bool := decide (16 * n ≤ x.foldl (fun t v => t + min v n) 0)

/-- Set bits of n from the highest down while the counts still form it. -/
def formableFrom (x : List Nat) : Nat → Nat → Nat
  | 0, n => n
  | k + 1, n => formableFrom x k (if forms x (n + 2 ^ k) then n + 2 ^ k else n)

/-- The formable count: the largest n with Σ min(x_c, n) ≥ 16 n (R216). -/
def formable (x : List Nat) : Nat := formableFrom x 24 0

/-- Counted out of b_c: retired, bad or system blocks (R215). -/
def BlockInfo.gone (b : BlockInfo) : Bool := b.retired || b.bad || b.system

/-- N(λ). -/
def State.capacityN (s : State) (lane : Nat) : Nat := formable (s.laneBlocks lane BlockInfo.gone)

/-- σ(λ) in ‰ (R218). -/
def State.sigmaOf (s : State) (lane : Nat) : Rat :=
  (1000 * ((s.capacityN lane : Int) - s.nv.d) : Int) / ((max 1 (s.nv.n0.getD lane 0) : Nat) : Rat)

/-- Available Spare (R218), over the OP_PERMILLE that the capacity was fixed with (R217, R244). -/
def State.availOf (s : State) : Nat :=
  let one (l : Nat) : Int :=
    (100 * (s.sigmaOf l - (s.param 1 : Nat)) / ((s.nv.opPermille - s.param 1 : Nat) : Rat)).floor
  (max 0 (min 100 ((List.range s.lanes).foldl (fun m l => min m (one l)) 100))).toNat

/-- Recompute the spare ratios and Available Spare (R218). -/
def State.recomputeSpare (s : State) : State :=
  let sig := (List.range s.lanes).map s.sigmaOf
  let av := s.availOf
  s.onFlash fun x => { x with sigma := sig, avail := av }

/-- SPARE_RECOMPUTE (R218). -/
def execSpareRecompute (s : State) : Out := .next s.recomputeSpare

/-! ### The ledger (R277) -/

/-- Record a retirement or a loss: kind, trigger, ID and AUX of Table 07.13 (R238). -/
def State.retireRecord (s : State) (kind trigger id aux : Nat) : State :=
  let r : LedgerRec := ⟨s.turn, s.fld Reg.LDP_DLX_NOW_ROT, kind, trigger, id, aux, s.availOf⟩
  (s.onNv fun n => { n with
      ledger := r :: n.ledger
      records := n.records + 1
      kinds := updAt (· + 1) (kind - 1) n.kinds
      lostUnits := if kind = 9 then n.lostUnits + 1 else n.lostUnits
      warning := if kind = 9 then setBitNat n.warning 2 else n.warning }).log
    0x0401 0 0x3FF (kind + trigger * 256 + id * 2 ^ 32)

/-- A unit is recorded LOST (R231). -/
def State.recordLost (s : State) (g trigger : Nat) : State := s.retireRecord 9 trigger (g % 2 ^ 32) (g / 2 ^ 32)

/-! ### FDP events (R200) -/

/-- An FDP event of a handle, while FDP is enabled: type 0 Reclaim Unit Not Fully Written, 0x80 Media Reallocated. R200 gives no codes and no
namespace: the codes are those of the NVMe base specification (PRESUMED), and the event names none (assumption log 172). -/
def State.fdpEvent (s : State) (type handle : Nat) : State :=
  if s.nv.fdp then s.onNv fun n => { n with fdpEvents := (type, 0, handle) :: n.fdpEvents } else s

/-- Dredging or retirement has moved data of a handle. -/
def State.fdpMoved (s : State) (handle : Nat) : State := s.fdpEvent 0x80 handle

/-! ### Forme-blocks that lose a member (R230, R271) -/

/-- A forme-block with a member that a test picks. -/
def FormeBlock.has (f : FormeBlock) (p : MBlock → Bool) : Bool := f.members.any p

/-- Abandon the forme plans that a test picks, with their bookings: their slots return to RESIDENT, to be placed again, and dredge copies are
to be planned again from their source (R231). -/
def State.dropPlans (s : State) (p : FormePlan → Bool) : State :=
  let slots := (s.flash.plans.filter p).flatMap (·.slots)
  let srcs := (s.flash.plans.filter p).flatMap (·.sources)
  let again (f : FormeBlock) : FormeBlock :=
    { f with copies := f.copies.filter fun c => !srcs.contains (f.lane, f.b, c.1, c.2.1) }
  let ids := (s.flash.plans.filter p).map (·.id)
  let back (x : Nat × Slot) : Nat × Slot :=
    if slots.contains x.1 then
      (x.1, { x.2 with inFlight := false, state := if x.2.state == .placing then .resident else x.2.state })
    else x
  let s := s.onGalley fun g => { g with slots := g.slots.map back }
  let s := s.onSluice fun x => { x with bookings := x.bookings.filter fun b => !ids.contains b.plan }
  s.onFlash fun x =>
    { x with formeBlocks := x.formeBlocks.map again, plans := x.plans.filter (fun y => !p y), accs := x.accs.filter (fun a => !ids.contains a) }

/-- Close the open forme-blocks that a test picks and abandon their unproven formes (R271). -/
def State.closeFormeBlocks (s : State) (p : FormeBlock → Bool) (victim : Nat) : State :=
  let hit := s.flash.formeBlocks.filter fun f => p f && f.isOpen
  let close (f : FormeBlock) : FormeBlock :=
    { f with
      isOpen := false
      closedRot := if f.isOpen then s.dlxNow else f.closedRot
      victim := if victim = 0 || f.victim = 9 then f.victim else victim
      asked := if victim = 0 || victim = f.victim || f.victim = 9 then f.asked else s.turn }
  let short := hit.filter fun f => !f.dredge && decide (0 < f.next)
  let s := short.foldl (fun s f => s.fdpEvent 0 f.handle) s
  (s.onFlash fun x => { x with formeBlocks := updIf p close x.formeBlocks }).dropPlans
    fun y => hit.any fun f => f.lane == y.lane && f.b == y.b

/-! ### Retirement (Table 06.4) -/

/-- Keep a never-clearing register word in the system area, for Boot (R500). -/
def State.keepOut (s : State) (a : Nat) : State :=
  s.onNv fun n => { n with outWords := kput a (s.word a).toNat n.outWords }

/-- Retire a power domain: its votes go, and it is powered off for good at the next turn edge (R438). -/
def State.retireDomain (s : State) (n : Fin 24) : State :=
  ((s.onDom n fun d => { d with votes := [] }).setFld (Reg.PMC_DOM_RETIRE n.val) 1).onNv fun v =>
    { v with retiredDoms := if v.retiredDoms.contains n.val then v.retiredDoms else n.val :: v.retiredDoms }

/-- Set a die's state in the sluice and its furrow: 1 failing, 2 retired (R133, R150); a retired die stays so. Decisions see it from the
next turn edge (R123). -/
def State.setDieState (s : State) (die v : Nat) : State :=
  if s.fld (Reg.SLU_DIE_STATE_STATE die) = 2 then s
  else
    let s := (s.holdWord (Reg.SLU_DIE_STATE die)).setFld (Reg.SLU_DIE_STATE_STATE die) v
    if v = 1 then s.setFld (Reg.FUR_STATUS_STATE die) 0xA
    else if v = 2 then
      (s.setFld (Reg.FUR_STATUS_STATE die) 0xB).onNv fun n =>
        { n with retiredDies := if n.retiredDies.contains die then n.retiredDies else die :: n.retiredDies }
    else if s.fld (Reg.FUR_STATUS_STATE die) = 0xA then s.setFld (Reg.FUR_STATUS_STATE die) 1
    else s

/-- Rates of the rungs of Table 04.3, in MT/s. -/
def rungRate (r : Nat) : Nat := [4800, 4000, 3600, 3200, 2400, 1600, 1200, 800, 400].getD r 0

/-- S of R319 in whole GB/s, which firmware writes into S_SPILL: over the channels in service at their rates, and the dies in service. -/
def State.writeSpillRate (s : State) : State :=
  let mts := (List.range 64).foldl (fun n c => if s.fld (Reg.FCE_STATUS_STATE c) = 5 then n else n + rungRate (s.fld (Reg.FCE_STATUS_CUR_IDX c))) 0
  let dies := ((List.range 1024).filter fun d => s.fld (Reg.SLU_DIE_STATE_STATE d) == 0).length
  let bus : Rat := (mts : Rat) * 92 / 125600
  let slc : Rat := (dies * s.board.geom.slcMBs * 14 : Nat) / 16000
  s.setFld Reg.PMC_CIS_BOARD_S_SPILL (min 255 (min bus slc).floor.toNat)

/-- A die is retired: recorded, and its open forme-blocks close (R237, R271). -/
def State.retireDie (s : State) (die trigger : Nat) : State :=
  if s.fld (Reg.SLU_DIE_STATE_STATE die) = 2 then s
  else (((s.setDieState die 2).retireRecord 2 trigger die 0).closeFormeBlocks (fun f => f.has fun m => m.die == die) 0).writeSpillRate

/-- A die is set failing; its open forme-blocks close and are relocation victims (R161, R271). -/
def State.failDie (s : State) (die : Nat) : State :=
  if s.fld (Reg.SLU_DIE_STATE_STATE die) = 1 || s.fld (Reg.SLU_DIE_STATE_STATE die) = 2 then s
  else (s.setDieState die 1).closeFormeBlocks (fun f => f.has fun m => m.die == die) 1

/-- A member block is retired; a die with more than 1/32 of its blocks retired is set failing (R237). -/
def State.retireBlock (s : State) (die block trigger : Nat) : State :=
  if (s.blockInfo die block).retired then s
  else
    let s := (s.onBlock die block fun b => { b with retired := true, free := false }).retireRecord 1 trigger die block
    if s.fld (Reg.FCE_GEOM_B_BLOCKS_PER_PLANE (die / 16)) < 32 * s.listedOn die (·.retired) then s.failDie die else s

/-- A channel is retired: its bit in CHAN_OUT, its engine and the channels in plan; a flash group whose eight channels
are all retired goes with it (R132, R237). -/
def State.retireChannel (s : State) (ch trigger : Nat) : State :=
  if s.chanRetired ch then s
  else
    let f := Reg.SLU_CHAN_OUT_OUT (ch / 32)
    let s := (s.holdWord f.addr).setFld f (setBitNat (s.fld f) (ch % 32))
    let s := (((s.holdWord (Reg.FCE_STATUS ch)).setFld (Reg.FCE_STATUS_STATE ch) 5).subFld Reg.SLU_STATUS_CHANNELS 1).keepOut (Reg.SLU_CHAN_OUT (ch / 32))
    let s := (s.retireRecord 3 trigger ch 0).closeFormeBlocks (fun f => f.has fun m => m.die / 16 == ch) 0
    let s := (s.onSluice fun x => { x with chansOut := (ch, s.turn + 1, none) :: x.chansOut }).writeSpillRate
    if (List.range 8).all (fun i => s.chanRetired (ch / 8 * 8 + i)) then s.retireDomain (Fin.ofNat 24 (13 + ch / 8)) else s

/-- A permanent fault of logic that exists once (R43): commands are no longer accepted, RECOVER is set by the
duplicated-pair checker, and Critical Warning bit 2 stands; Recovery follows when the galley's writes are in flash. -/
def State.permanentFault (s : State) : State :=
  ((((s.setFld Reg.PMC_MODE_REQ_RECOVER 1).onHost fun h => { h with admitStop := true }).onPower fun p =>
    { p with recovering := some 6 }).onNv fun n => { n with warning := setBitNat n.warning 2 }).captureTele

/-- A write of the galley that is not yet in flash and mapped. -/
def State.galleyDrained (s : State) : Bool :=
  s.galley.slots.all fun x => x.2.state == .cache || x.2.state == .superseded

end Sys2Proof.Machine
end

