-- ==== Sys2Proof/Machine/Media.lean ====
section
/-! DEFINITION. Dies, furrows and channel engines (chapter 4), the Dellux ledger, media reports, read counters and the
classification of media events (chapter 7), with the commands on them. -/

namespace Sys2Proof.Machine

/-! ### Dies -/

def State.die (s : State) (n : Nat) : Die := (klook n s.flash.dies).getD {}

def State.onDie (s : State) (n : Nat) (f : Die → Die) : State :=
  s.onFlash fun x => { x with dies := kput n (f (s.die n)) x.dies }

def State.chan (s : State) (c : Nat) : Chan := (klook c s.flash.chans).getD {}

def State.onChan (s : State) (c : Nat) (f : Chan → Chan) : State :=
  s.onFlash fun x => { x with chans := kput c (f (s.chan c)) x.chans }

/-- Report a furrow state in FUR.STATUS; FAILING and RETIRED stand (R150). -/
def State.setFur (s : State) (n st : Nat) : State :=
  if s.fld (Reg.FUR_STATUS_STATE n) = 0xA || s.fld (Reg.FUR_STATUS_STATE n) = 0xB then s
  else s.setFld (Reg.FUR_STATUS_STATE n) st

/-- Learned times of a die (R133): T_R, T_SUSP_P, T_SUSP_E, T_PROG, T_ERS, in the order of Table 04.5. -/
def learnedFld (n : Nat) : Nat → Fld
  | 0 => Reg.SLU_DIE_TIME_A_T_R n
  | 1 => Reg.SLU_DIE_TIME_A_T_SUSP_P n
  | 2 => Reg.SLU_DIE_TIME_A_T_SUSP_E n
  | 3 => Reg.SLU_DIE_TIME_B_T_PROG n
  | _ => Reg.SLU_DIE_TIME_B_T_ERS n

def State.learned (s : State) (n k : Nat) : Nat := s.efld (learnedFld n k)

/-- B_turn of each rung, in bytes (Table 04.3). -/
def bTurn (rung : Nat) : Nat := [4521, 3768, 3391, 3014, 2260, 1507, 1130, 753, 376].getD rung 376

/-- Turns of a transfer of n codewords at a rung (R102, R140). -/
def xferTurns (rung n : Nat) : Nat := cdiv (n * 4501) (bTurn rung)

/-- A unit is out of plan in turn t (R117). -/
def outAt (l : List (Nat × Nat × Option Nat)) (n t : Nat) : Bool :=
  l.any fun x => x.1 == n && decide (x.2.1 ≤ t) && (match x.2.2 with | some b => decide (t < b) | none => true)

/-- Set a channel engine's state; units that run by turns see it from the next edge (R29). -/
def State.setChanState (s : State) (c v : Nat) : State := (s.holdWord (Reg.FCE_STATUS c)).setFld (Reg.FCE_STATUS_STATE c) v

/-- A channel is in plan in turn t: up, or off with its group asleep (R122), not retired, not reported down. -/
def State.chanInPlan (s : State) (c t : Nat) : Bool :=
  (s.efld (Reg.FCE_STATUS_STATE c) == 2 || s.efld (Reg.FCE_STATUS_STATE c) == 0) && !outAt s.sluice.chansOut c t &&
    s.efld (Reg.SLU_CHAN_OUT_OUT (c / 32)) / 2 ^ (c % 32) % 2 == 0

/-- Foreground steps may be planned on a die in turn t: in service, not stopped, not out, its channel in plan (R105,
R117). -/
def State.dieInPlan (s : State) (n t : Nat) : Bool :=
  s.efld (Reg.SLU_DIE_STATE_STATE n) == 0 && !(s.die n).stopped && !outAt s.sluice.diesOut n t && s.chanInPlan (n / 16) t

/-- A die can still be read by background steps: in service or failing. -/
def State.dieReadable (s : State) (n t : Nat) : Bool :=
  decide (s.efld (Reg.SLU_DIE_STATE_STATE n) ≤ 1) && !(s.die n).stopped && !outAt s.sluice.diesOut n t && s.chanInPlan (n / 16) t

/-! ### Pages (R180) -/

/-- Page data in KiB (R168). -/
def State.pageKib (s : State) : Nat := 4 * 2 ^ s.fld (Reg.FCE_GEOM_A_PAGE 0)

/-- The first page address of a unit offset: the planes of a page address come in ascending order, and a unit takes
16 KiB ÷ page size consecutive pages of one plane. -/
def State.pageOf (s : State) (off : Nat) : Nat :=
  off / max 1 (s.fld (Reg.FCE_GEOM_A_PLANES 0)) * (16 / s.pageKib)

/-! ### Media reports (R252) -/

/-- Post a media report, or drop it while the ring is full. The ring is full with one slot unused, so that HEAD = TAIL is an empty ring:
R252 does not say whether all its slots are used (DESIGN CHOICE, assumption log 164). -/
def State.report (s : State) (kind step die block page cw bits : Nat) : State :=
  let n := 2 ^ (s.fld Reg.LDP_MR_RING_LOG2_ENTRIES + 6)
  let t := s.fld Reg.LDP_MR_PTR_TAIL
  if (t + 1) % n = s.fld Reg.LDP_MR_PTR_HEAD then s.setFld Reg.LDP_EVENT_MR_OVERFLOW 1
  else
    let a := 0x10000000 + s.fld Reg.LDP_MR_RING_BANK * 0x100000 + 16 * t
    (s.poke a 16 (kind + step * 2 ^ 8 + die * 2 ^ 16 + block * 2 ^ 32 + page * 2 ^ 48 + cw * 2 ^ 64 + bits * 2 ^ 80 +
      s.turn % 2 ^ 32 * 2 ^ 96)).setFld Reg.LDP_MR_PTR_TAIL ((t + 1) % n)

/-! ### Read counters (R264) -/

def State.rdAddr (s : State) (die block : Nat) : Nat :=
  dramBase + s.fld Reg.LDP_RD_BASE_BASE_MIB * 2 ^ 20 + 4 * (die * s.fld (Reg.FCE_GEOM_B_BLOCKS_PER_PLANE 0) + block)

/-- One array read of a member block: its counter counts and reports at RD_LIMIT; an uncorrectable counter is taken as
RD_LIMIT (R302). -/
def State.countRead (s : State) (die block : Nat) : State :=
  let a := s.rdAddr die block
  let lim := s.fld Reg.LDP_RD_LIMIT_LIMIT
  match s.checkWord a with
  | .uncorrectable k => ((s.uncorrectable (0x80 + die / 16) a k false).poke a 4 lim).report 5 0 die block 0 0 0
  | _ =>
    let c := s.peek a 4
    let s := s.poke a 4 (min (2 ^ 32 - 1) (c + 1))
    if c + 1 = lim then s.report 5 0 die block 0 0 0 else s

/-! ### Dellux (R255–R262) -/

/-- A stamp's address: lane, b, member, unit offset (R257). -/
def State.stampAddr (s : State) (lane b m off : Nat) : Nat :=
  dramBase + s.fld Reg.LDP_DLX_STAMP_BASE_MIB * 2 ^ 20 +
    8 * (((b * s.lanes + lane) * 16 + m) * cdiv s.unitsPerMb 32 + off / 32)

/-- The media temperature code of a die's channel group (R256). -/
def State.mediaTemp (s : State) (die : Nat) : Nat :=
  let g := die / 128
  let r := g / 4
  match g % 4 with
  | 0 => s.fld (Reg.LDP_DLX_TEMP_G0 r)
  | 1 => s.fld (Reg.LDP_DLX_TEMP_G1 r)
  | 2 => s.fld (Reg.LDP_DLX_TEMP_G2 r)
  | _ => s.fld (Reg.LDP_DLX_TEMP_G3 r)

/-- The wear bucket of a block: min(7, ⌊8 × erases ÷ ENDURANCE⌋) (Table 07.6). -/
def State.wearBucket (s : State) (die block : Nat) : Nat :=
  min 7 (8 * (s.blockInfo die block).erases / max 1 (s.param 7))

/-- Write the stamp of a stamp unit at a program's confirm (R258). -/
def State.writeStamp (s : State) (lane b m off die block : Nat) : State :=
  s.poke (s.stampAddr lane b m off) 8
    (s.fld Reg.LDP_DLX_NOW_ROT + s.mediaTemp die * 2 ^ 32 + s.wearBucket die block * 2 ^ 40 + 2 ^ 63)

/-- The stamp that the tags of a unit's codewords give (R258, R263). -/
def State.tagStamp (s : State) (key : Nat) (x : MediaUnit) : Nat :=
  x.wrot + x.wtemp * 2 ^ 32 + s.wearBucket (key / 2 ^ 48) (key / 2 ^ 32 % 2 ^ 16) * 2 ^ 40 + 2 ^ 63

/-- Clear every stamp of a member block (R258). -/
def State.clearStamps (s : State) (lane b m : Nat) : State :=
  let a := s.stampAddr lane b m 0
  s.onMemory fun x => { x with bytes := memZero a (a + 8 * cdiv s.unitsPerMb 32) x.bytes }

/-- Age bucket of an age in rotations (Table 07.7). -/
def ageBucket (age : Nat) : Nat :=
  if age < 64 then 0 else if age < 1024 then 1 else if age < 16384 then 2 else if age < 131072 then 3
  else if age < 1048576 then 4 else if age < 8388608 then 5 else if age < 67108864 then 6 else 7

/-- ΔT bucket (Table 07.7). -/
def dtBucket (d : Int) : Nat := if d ≤ -25 then 0 else if d ≤ -9 then 1 else if d ≤ 8 then 2 else if d ≤ 24 then 3 else 4

/-- A signed value of n bits. -/
def signed (n v : Nat) : Int := if v < 2 ^ (n - 1) then (v : Int) else (v : Int) - 2 ^ n

def clampInt (lo hi x : Int) : Int := max lo (min hi x)

/-- The page type of a page address (R261). -/
def State.pageType (s : State) (page : Nat) : Nat :=
  let i := page % (s.fld Reg.LDP_DLX_CFG_PT_PERIOD_M1 + 1)
  bitsOf (s.word (Reg.LDP_DLX_PTYPE (i / 16))) (2 * (i % 16)) 2

/-- The levels of a page type in template order (R280). -/
def State.pageLevels (s : State) (t : Nat) : List Nat :=
  (List.range (s.fld (Reg.LDP_DLX_PAGEMAP_COUNT t))).map fun i => bitsOf (s.word (Reg.LDP_DLX_PAGEMAP t)) (4 * i + 4) 4

/-- Address of the threshold table in its scratchpad bank (R261, R280). -/
def State.dlxTable (s : State) : Nat :=
  0x10000000 + s.fld Reg.LDP_DLX_TABLE_BANK * 0x100000 + s.fld Reg.LDP_DLX_TABLE_OFFSET_KIB * 1024

/-- The cell of the threshold table for a stamp read on a die with the ladder's steps (R260). -/
def State.dlxCell (s : State) (stamp die ageStep wearStep : Nat) : Nat :=
  let age := s.fld Reg.LDP_DLX_NOW_ROT - natBits stamp 0 32
  let ab := (clampInt 0 7 ((ageBucket age : Int) + signed 4 (natBits stamp 44 4) + ageStep)).toNat
  let db := dtBucket ((s.mediaTemp die : Int) - natBits stamp 32 8)
  let wb := min 7 (natBits stamp 40 3 + wearStep)
  (ab * 5 + db) * 8 + wb

/-- The threshold offsets that a stamp gives a read on a die, in template order: the die's own media temperature and trim (R260, R262).
None where the read uses the die's default thresholds: Dellux selection off, no template on the channel, or the stamp not valid
(R163, R259). -/
def State.offsetsFor (s : State) (st off die ageStep wearStep : Nat) : Option (List Int) :=
  if !s.flag Reg.LDP_DLX_CFG_ENABLE || s.fld (Reg.FCE_THR_DESC0_LEN (die / 16)) = 0 || natBits st 63 1 = 0 then none
  else
    let e := s.dlxTable + 16 * s.dlxCell st die ageStep wearStep
    let t := s.dlxTable + 5120 + 16 * die
    some ((s.pageLevels (s.pageType (s.pageOf off))).map fun l =>
      clampInt (-128) 127 (signed 8 (s.peek (e + l - 1) 1) + signed 8 (s.peek (t + l - 1) 1)))

/-- The stamp of a read; an uncorrectable word is taken as not valid (R302). -/
def State.stampOf (s : State) (lane b m off : Nat) : Nat :=
  let a := s.stampAddr lane b m off
  match s.checkWord a with | .uncorrectable _ => 0 | _ => s.peek a 8

/-- The threshold offsets of a read of a unit by its own stamp (R259, R260). -/
def State.thresholds (s : State) (lane b m off die ageStep wearStep : Nat) : Option (List Int) :=
  s.offsetsFor (s.stampOf lane b m off) off die ageStep wearStep

/-- Count a read in the Dellux accounting of LID 0xC1: a miss, or an L0 attempt of its cell (Table 07.11). -/
def State.countDellux (s : State) (lane b m off die : Nat) : State :=
  match s.thresholds lane b m off die 0 0 with
  | none => (s.addFld Reg.LDP_DLX_MISS_COUNT 1).onFlash fun x => { x with misses := x.misses + 1 }
  | some _ =>
    let c := s.dlxCell (s.peek (s.stampAddr lane b m off) 8) die 0 0
    let old := (klook c s.flash.cells).getD (0, 0)
    s.onFlash fun y => { y with cells := kput c (old.1 + 1, old.2) y.cells }

/-! ### Furrow steps (R151–R153) -/

/-- A die's state allows a read: nothing busy, and its hold, if any, suspended. -/
def Die.canRead (d : Die) : Bool := d.busy.isNone && !d.stopped && (match d.hold with | some h => h.suspended.isSome | none => true)

/-- Byte i of a channel's threshold template (R170). -/
def State.thrByte (s : State) (c i : Nat) : Byte := BitVec.ofNat 8 (s.fld (Reg.FCE_THR_DESC_BYTES c (i / 4)) / 256 ^ (i % 4))

/-- The template sent before a read: the channel's bytes with the offset bytes over them from OFS_POS on. None is sent for default
thresholds, or where every offset is 0 (R162, R163, R260). -/
def State.templateOf (s : State) (die : Nat) (ofs : Option (List Int)) : Bytes :=
  let c := die / 16
  let l := (ofs.getD []).take (s.fld (Reg.FCE_THR_DESC0_OFS_COUNT c))
  let pos := s.fld (Reg.FCE_THR_DESC0_OFS_POS c)
  if l.all (· == 0) then []
  else (List.range (s.fld (Reg.FCE_THR_DESC0_LEN c))).map fun i =>
    if pos ≤ i ∧ i < pos + l.length then BitVec.ofInt 8 (l.getD (i - pos) 0) else s.thrByte c i

/-- Issue an array read, after its threshold template if it has one. -/
def State.issueRead (s : State) (n block off : Nat) (ofs : Option (List Int)) : State :=
  ((s.onDie n fun d =>
    { d with busy := some (.read, s.turn), page := some (block, off), sent := some { op := .read, block := block, off := off, template := s.templateOf n ofs } }).setFur n 2).countRead
      n block

/-- Issue a suspend of the running hold. -/
def State.issueSuspend (s : State) (n : Nat) : State :=
  match (s.die n).hold with
  | some h =>
    if h.suspended.isSome || (s.die n).stopped then s
    else
      ((s.onDie n fun d => { d with
          busy := some (.suspend, s.turn)
          suspRot := d.suspRot + 1
          sent := some { op := if h.erase then .suspendErase else .suspendProgram }
          hold := some { h with suspended := some s.turn, suspends := h.suspends + 1 } }).setFur n 7).setFlds
        [(Reg.FUR_STATUS_HOLD_SUSP n, 1), (Reg.FUR_SUSP_CNT_COUNT n, min (2 ^ 32 - 1) (h.suspends + 1))]
  | none => s

/-- Issue the resume of a suspended hold; the page register's data is gone. -/
def State.issueResume (s : State) (n : Nat) : State :=
  match (s.die n).hold with
  | some h =>
    match h.suspended with
    | some t =>
      if (s.die n).busy.isSome then s
      else
        ((s.onDie n fun d => { d with
            busy := some (if h.erase then .erase else .program, s.turn), page := none, resumed := s.turn
            sent := some { op := if h.erase then .resumeErase else .resumeProgram }
            hold := some { h with suspended := none, excluded := h.excluded + (s.turn - t) } }).setFur n
          (if h.erase then 6 else 5)).setFld (Reg.FUR_STATUS_HOLD_SUSP n) 0
    | none => s
  | none => s

/-- A program or erase can be issued: nothing busy, no hold (R151, R153). -/
def Die.canHold (d : Die) : Bool := d.busy.isNone && d.hold.isNone && !d.stopped

/-- Issue a program or an erase: the die has a hold. -/
def State.issueHold (s : State) (n : Nat) (erase : Bool) (block off plan : Nat) : State :=
  ((s.onDie n fun d => { d with
      busy := some (if erase then .erase else .program, s.turn), page := none
      sent := some { op := if erase then .erase else .program, block := block, off := off }
      hold := some ⟨erase, block, off, plan, s.turn, none, 0, 0⟩ }).setFur n (if erase then 6 else 5)).setFlds
    [(Reg.FUR_STATUS_HOLD n, if erase then 2 else 1), (Reg.FUR_STATUS_HOLD_SUSP n, 0), (Reg.FUR_SUSP_CNT_COUNT n, 0)]

/-- The hold ends. -/
def State.endHold (s : State) (n : Nat) : State :=
  ((s.onDie n fun d => { d with busy := none, hold := none, page := none }).setFur n 1).setFlds
    [(Reg.FUR_STATUS_HOLD n, 0), (Reg.FUR_STATUS_HOLD_SUSP n, 0), (Reg.FUR_SUSP_CNT_COUNT n, 0)]

/-! ### Measured times (R159, R160) -/

/-- A measurement of quantity k on a die: the rotation's maximum, saturation, at which firmware sets the die failing (R161), and the raise of the learned value, which plans see from
the edge that closes the turn. -/
def State.measure (s : State) (n k m : Nat) : State :=
  let f := learnedFld n k
  let top := 2 ^ f.width - 1
  let s := s.onDie n fun d => { d with maxima := updAt (fun v => max v (min top m)) k d.maxima }
  let s := if top ≤ m then (s.setFld (Reg.FUR_EVENT_SAT n) 1).failDie n else s
  if s.flag (Reg.FUR_CFG_AUTO_RAISE n) && decide (s.fld f < m) then
    ((s.holdWord f.addr).setFld f (min top (m + max 2 (cdiv m 16)))).setFld (Reg.FUR_EVENT_T_EXCEED n) 1
  else s

/-! ### The free pool (R219, R220) -/

/-- Blocks per plane of a channel's dies. -/
def State.blocksOn (s : State) (ch : Nat) : Nat := s.fld (Reg.FCE_GEOM_B_BLOCKS_PER_PLANE ch)

/-- A member block is free (R219). -/
def State.isFree (s : State) (die block : Nat) : Bool := (s.blockInfo die block).free && !(s.blockInfo die block).gone

/-- A die on which a forme-block may open: in service, with no hold of 65,536 turns or more. -/
def State.opensOn (s : State) (die : Nat) : Bool :=
  s.efld (Reg.SLU_DIE_STATE_STATE die) == 0 && !s.chanRetired (die / 16) &&
    (match (s.die die).hold with | some h => decide (s.turn - h.since < 65536) | none => true)

/-- The better of two blocks: lower erase count, or for a wear victim's data the higher (R235); then the one found first. -/
def State.lessWorn (s : State) (wear : Bool) (best : Option MBlock) (m : MBlock) : Option MBlock :=
  match best with
  | some x =>
    let a := (s.blockInfo m.die m.block).erases
    let b := (s.blockInfo x.die x.block).erases
    if (if wear then decide (b < a) else decide (a < b)) then some m else some x
  | none => some m

/-- The member block that a channel gives to a lane: the lowest erase count, then position, then block number. -/
def State.bestBlock (s : State) (wear : Bool) (lane ch : Nat) : Option MBlock :=
  (List.range 16).foldl (fun best p =>
    if p % s.lanes = lane ∧ s.opensOn (16 * ch + p) then
      (List.range (s.blocksOn ch)).foldl (fun best b => if s.isFree (16 * ch + p) b then s.lessWorn wear best ⟨16 * ch + p, b⟩ else best) best
    else best) none

/-- A channel has a free member block of a lane on a die on which a forme-block may open. -/
def State.chanOpens (s : State) (lane c : Nat) : Bool :=
  (List.range 16).any fun p => p % s.lanes == lane && s.opensOn (16 * c + p) && decide (0 < s.blocksWithout (16 * c + p) fun b => b.gone || !b.free)

/-- F(λ): the formable count of free member blocks (R219), and 0 where fewer than 16 channels have one that can be taken (R220). -/
def State.freeF (s : State) (lane : Nat) : Nat :=
  if ((List.range 64).filter (s.chanOpens lane)).length < 16 then 0 else formable (s.laneBlocks lane fun b => b.gone || !b.free)

/-- The free ratio φ in ‰ (R219). -/
def State.phi (s : State) : Nat :=
  (List.range s.lanes).foldl (fun m l => min m (1000 * s.freeF l / max 1 (s.nv.n0.getD l 0))) 1000

/-! ### Classification (R275) -/

/-- The forme-block that holds a member block. -/
def State.fbOf (s : State) (die block : Nat) : Option FormeBlock :=
  s.flash.formeBlocks.find? fun f => f.has fun m => m == ⟨die, block⟩

/-- Make the forme-block of a member block a victim of a class of Table 06.2; a class of higher priority stands, and so does
one that is being erased. -/
def State.makeVictim (s : State) (die block cls : Nat) : State :=
  let mark (f : FormeBlock) : FormeBlock :=
    let up := f.victim = 0 || (cls < f.victim && f.victim != 9)
    { f with victim := if up then cls else f.victim, isOpen := false
             asked := if up then s.turn else f.asked
             closedRot := if f.isOpen then s.dlxNow else f.closedRot }
  s.onFlash fun x => { x with formeBlocks := updIf (fun f => f.has fun m => m == ⟨die, block⟩) mark x.formeBlocks }

/-- The first channel of the lane of a die that has a member block to give. -/
def State.spareBlock (s : State) (die : Nat) : Option MBlock :=
  ((List.range 64).map fun i => (die / 16 + i) % 64).findSome? fun c => s.bestBlock false (die % 16 % s.lanes) c

/-- A system block fails: it is retired, and replaced from the free pool of its lane (R215). -/
def State.replaceSystem (s : State) (die block trigger : Nat) : State :=
  let s := (s.retireBlock die block trigger).onBlock die block fun b => { b with system := false }
  match s.spareBlock die with
  | some m => s.onBlock m.die m.block fun b => { b with system := true, free := false }
  | none => s

/-- A member block fails for good, with a trigger of Table 07.13: its forme-block is a relocation victim, and the block is retired when
it ends; a system block is replaced at once. -/
def State.condemn (s : State) (die block trigger : Nat) : State :=
  if (s.blockInfo die block).system then s.replaceSystem die block trigger
  else
  let mark (f : FormeBlock) : FormeBlock :=
    { f with failed := if f.failed.contains ⟨die, block⟩ then f.failed else ⟨die, block⟩ :: f.failed }
  ((s.makeVictim die block 1).onBlock die block fun b => { b with cause := if b.cause = 0 then trigger else b.cause }).onFlash fun x =>
    { x with formeBlocks := updIf (fun f => f.has fun m => m == ⟨die, block⟩) mark x.formeBlocks }

/-- A tag or proof mismatch after a pass: transient, and permanent on the second in one block within 16 rotations. -/
def State.mismatch (s : State) (die block : Nat) : State :=
  let again := match (s.blockInfo die block).mismatch with | some r => decide (s.rotation ≤ r + 16) | none => false
  let s := (s.onBlock die block fun b => { b with mismatch := some s.rotation }).onNv fun n => { n with mismatches := n.mismatches + 1 }
  if again then s.condemn die block 4 else s.makeVictim die block 2

/-- The decoders of one half are all removed (Table 13.3). -/
def State.halfOut (s : State) (half : Nat) : Bool :=
  decide (s.fld Reg.LDP_HARD_OUT_OUT / 65536 ^ half % 65536 = 65535) && decide (s.fld Reg.LDP_SOFT_OUT_OUT / 16 ^ half % 16 = 15)

/-- Remove a decoder (R251): its bit, the farm's count and its record; a half with none left is retired. -/
def State.removeDecoder (s : State) (soft : Bool) (dec : Nat) : State :=
  let f := if soft then Reg.LDP_SOFT_OUT_OUT else Reg.LDP_HARD_OUT_OUT
  if s.fld f / 2 ^ dec % 2 = 1 then s
  else
    let s := (s.setFld f (setBitNat (s.fld f) dec)).subFld (if soft then Reg.SLU_STATUS_SOFT_DEC else Reg.SLU_STATUS_HARD_DEC) 1
    let s := ((s.setFld Reg.LDP_EVENT_DEC_REMOVED 1).keepOut f.addr).retireRecord (if soft then 5 else 4) 0x09 dec 0
    let half := if soft then dec / 4 else dec / 16
    if s.halfOut half && !s.flag (Reg.PMC_DOM_RETIRE (9 + half)) then s.retireDomain (Fin.ofNat 24 (9 + half)) else s

/-- A claimed pass with a non-zero syndrome: after the decoder's second in a rotation the farm removes it in the turn after (R251). -/
def State.syndrome (s : State) (soft : Bool) (dec : Nat) : State :=
  let k := dec + (if soft then 32 else 0)
  let n := (klook k s.flash.syndromes).getD 0 + 1
  let s := s.onFlash fun x => { x with syndromes := kput k n x.syndromes }
  if n = 2 then s.onFlash fun x => { x with decLeaves := x.decLeaves ++ [(soft, dec)] } else s

/-- Count a failed L0 decode in its Dellux cell, where the read had offsets (Table 07.11). -/
def State.countL0Fail (s : State) (die block off : Nat) : State :=
  match s.fbOf die block with
  | none => s
  | some f =>
    let m := f.members.findIdx fun x => x == ⟨die, block⟩
    match s.thresholds f.lane f.b m off die 0 0 with
    | none => s
    | some _ =>
      let c := s.dlxCell (s.peek (s.stampAddr f.lane f.b m off) 8) die 0 0
      let old := (klook c s.flash.cells).getD (0, 0)
      s.onFlash fun y => { y with cells := kput c (old.1, old.2 + 1) y.cells }

/-- AGE_SHIFT of a stamp unit moves within −8 and +7: up by 1 or 2 where L1 or L2 passed after L0 failed, down by 1 after a patrol probe;
only in a closed member block (R258, R263). -/
def State.learnShift (s : State) (die block off : Nat) (n : Int) : State :=
  match s.fbOf die block with
  | none => s
  | some f =>
    let a := s.stampAddr f.lane f.b (f.members.findIdx fun x => x == ⟨die, block⟩) off
    let st := s.peek a 8
    if f.isOpen || natBits st 63 1 = 0 then s
    else
      let v := clampInt (-8) 7 (signed 4 (natBits st 44 4) + n)
      s.poke a 8 (st - natBits st 44 4 * 2 ^ 44 + (v % 16).toNat * 2 ^ 44)

/-- A read recovered only by a rebuild, its own decode having failed: the forme-block is a refresh victim; with data of age bucket 2 or
younger the member block fails for good (R275). Without a valid stamp the age is not known. -/
def State.recoveredByPeers (s : State) (lane b m off die block : Nat) : State :=
  let st := s.peek (s.stampAddr lane b m off) 8
  if natBits st 63 1 = 1 && decide (ageBucket (s.fld Reg.LDP_DLX_NOW_ROT - natBits st 0 32) ≤ 2) then s.condemn die block 4
  else s.makeVictim die block 2

/-- Count and report one decode as the farm does (R250–R252), and take the action of its class (R275). Answers whether
the codeword passed. -/
def State.decoded (s : State) (soft : Bool) (dec step die block off cw : Nat) (r : DecodeResult) : Bool × State :=
  let page := s.pageOf off
  let fail (s : State) : State :=
    let s := if step = 0 && !soft then s.countL0Fail die block off else s
    (s.addFld (if soft then Reg.LDP_SOFT_FAIL_COUNT else Reg.LDP_HARD_FAIL_COUNT) 1).report (if soft then 3 else 2) step die
      block page cw 0xFFFF
  let pass (s : State) : State :=
    (s.addFld (if soft then Reg.LDP_SOFT_PASS_COUNT else Reg.LDP_HARD_PASS_COUNT) 1).onFlash fun x =>
      { x with ladder := updAt (· + 1) step x.ladder }
  match r with
  | .pass c =>
    let s := pass s
    let s := if s.fld Reg.LDP_CFG_C_WATCH < c then s.report 1 step die block page cw c else s
    let s := if Config.cRefresh < c || 0 < step then s.makeVictim die block 2 else s
    (true, if !soft && (step == 1 || step == 2) then s.learnShift die block off step else s)
  | .fail => (false, fail s)
  | .badSyndrome => (false, (fail s).syndrome soft dec)
  | .erased => (false, s.condemn die block 4)
  | .tagMismatch =>
    (false, (((pass s).addFld Reg.LDP_TAG_ERR_COUNT 1).setFld Reg.LDP_EVENT_TAG_ERR 1 |>.report 4 step die block page cw 0).mismatch
      die block)
  | .proofMismatch => (false, ((pass s).proofError 0x3FF false (unitKey die block off)).mismatch die block)

/-! ### DIE_READY (R152, R156, R160, R230, R232) -/

/-- The place of a member block in its forme-block. -/
def FormeBlock.memberAt (f : FormeBlock) (m : MBlock) : Nat := f.members.findIdx (· == m)

/-- A program reached ready: pass goes on to the proof read (R36); a fail closes the forme-block (R230). -/
def State.programEnd (s : State) (n : Nat) (h : DieHold) (fail : Bool) : State :=
  let stage (st : MemberStage) (p : FormePlan) : FormePlan :=
    { p with members := updIf (fun m => m.die == n && m.block == h.block) (fun m => { m with stage := st }) p.members }
  if fail then
    let s := (s.setFld (Reg.FUR_EVENT_STATUS_FAIL n) 1).condemn n h.block 2
    s.closeFormeBlocks (fun f => f.has fun m => m == ⟨n, h.block⟩) 1 |>.dropPlans fun p => p.id == h.plan
  else s.onFlash fun x => { x with plans := updIf (fun p => p.id == h.plan) (stage .ready) x.plans }

/-- An erase reached ready with a pass: free in the next turn, stamps and read counter cleared, wear counted (R156). Only a passed erase
counts as spent: R233 does not say whether one that ends with fail status does (DESIGN CHOICE, assumption log 163). -/
def State.erasePass (s : State) (n block : Nat) : State :=
  let s := match s.fbOf n block with
    | some f => s.clearStamps f.lane f.b (f.memberAt ⟨n, block⟩)
    | none => s
  let lo := unitKey n block 0
  let s := (s.poke (s.rdAddr n block) 4 0).onFlash fun x =>
    { x with
      units := x.units.filter fun u => decide (u.1 < lo) || decide (lo + 2 ^ 32 ≤ u.1)
      freed := ⟨n, block⟩ :: x.freed }
  (s.onBlock n block fun b => { b with erases := b.erases + 1, probes := 0, mismatch := none }).onNv fun v =>
    { v with wear := { v.wear with used := v.wear.used + 1, lastRot := v.wear.lastRot + 1 } }

/-- Take a member block out of its spent forme-block; the forme-block goes with its last member. -/
def State.dropMember (s : State) (n block : Nat) : State :=
  let less (f : FormeBlock) : FormeBlock := { f with erasing := f.erasing.filter fun m => m != ⟨n, block⟩ }
  let left (l : List FormeBlock) : List FormeBlock :=
    (updIf (fun f => f.erasing.contains ⟨n, block⟩) less l).filter fun f => !(f.victim == 9 && f.erasing.isEmpty)
  s.onFlash fun x => { x with formeBlocks := left x.formeBlocks }

def State.eraseEnd (s : State) (n : Nat) (h : DieHold) (fail : Bool) : State :=
  if fail then ((s.setFld (Reg.FUR_EVENT_STATUS_FAIL n) 1).retireBlock n h.block 0x01).dropMember n h.block
  else (s.erasePass n h.block).dropMember n h.block

/-- The first poll that shows ready (R152). -/
def State.dieReady (s : State) (n : Nat) (fail : Bool) (sr : Nat) : State :=
  match (s.die n).busy with
  | none => s
  | some (op, since) =>
    let s := s.setFld (Reg.FUR_STATUS_SR n) sr
    match op with
    | .read => ((s.onDie n fun d => { d with busy := none }).setFur n 3).measure n 0 (s.turn - since)
    | .suspend =>
      let k := match (s.die n).hold with | some h => if h.erase then 2 else 1 | none => 1
      ((s.onDie n fun d => { d with busy := none }).setFur n 8).measure n k (s.turn - since)
    | .reset => ((s.onDie n fun d => { d with busy := none }).setFur n 1).onSluice fun x =>
        { x with diesOut := x.diesOut.map fun o => if o.1 == n then (o.1, o.2.1, some (s.turn + 1)) else o }
    | .program =>
      match (s.die n).hold with
      | some h => ((s.endHold n).measure n 3 (s.turn - h.since - h.excluded)).programEnd n h fail
      | none => s
    | .erase =>
      match (s.die n).hold with
      | some h =>
        let s := s.endHold n
        (if h.suspends = 0 then s.measure n 4 (s.turn - h.since) else s).eraseEnd n h fail
      | none => s

/-- DIE_READY (R152). -/
def execDieReady (die : Fin 1024) (fail : Bool) (sr : Byte) (s : State) : Out := .next (s.dieReady die fail sr.toNat)

/-! ### Timeouts and LUN resets (R154) -/

/-- Turns that the die's operation has been measured: suspended turns do not count. -/
def State.opAge (s : State) (n : Nat) : Nat :=
  match (s.die n).busy with
  | some (.program, _) | some (.erase, _) =>
    match (s.die n).hold with | some h => s.turn - h.since - h.excluded | none => 0
  | some (_, since) => s.turn - since
  | none => 0

/-- The turns an operation may take before it times out. -/
def State.opLimit (s : State) (n : Nat) : Nat :=
  match (s.die n).busy with
  | some (.read, _) => 2 * s.learned n 0 + 16
  | some (.suspend, _) =>
    2 * s.learned n (match (s.die n).hold with | some h => if h.erase then 2 else 1 | none => 1) + 16
  | some (.program, _) => 2 * s.learned n 3 + 16
  | some (.erase, _) => 2 * s.learned n 4 + 16
  | _ => 1024

/-- The furrow reports the timeout, issues a LUN reset and counts it; the third in a rotation stops issue. An aborted program is planned
again, and so is an aborted erase: its block is not free. -/
def State.statusTimeout (s : State) (n : Nat) : State :=
  if (s.die n).busy.isNone || decide (s.opAge n < s.opLimit n) then s
  else
    let hold := (s.die n).hold
    let plan := match hold with | some h => if h.erase then 0 else h.plan | none => 0
    let s := ((s.endHold n).onDie n fun d => { d with busy := some (.reset, s.turn), sent := some { op := .lunReset } }).setFur n 9
    let s := ((s.addFld (Reg.FUR_TIMEOUT_ROT n) 1).addFld (Reg.FUR_TIMEOUT_TOTAL n) 1).setFld (Reg.FUR_EVENT_TIMEOUT n) 1
    let s := s.onSluice fun x => { x with diesOut := (n, s.turn + 1, none) :: x.diesOut.filter fun o => o.1 != n }
    let s := if plan = 0 then s else s.dropPlans fun p => p.id == plan
    let s := match hold with
      | some h => if h.erase then s.onFlash fun x => { x with eraseQueue := x.eraseQueue ++ [⟨n, h.block⟩] } else s
      | none => s
    if s.fld (Reg.FUR_TIMEOUT_ROT n) = 3 then
      (s.setFld (Reg.FUR_EVENT_THIRD_TIMEOUT n) 1).onDie n fun d => { d with stopped := true }
    else s

/-- STATUS_TIMEOUT (R154). -/
def execStatusTimeout (die : Fin 1024) (s : State) : Out := .next (s.statusTimeout die)

/-- LUN_RESET_COMPLETE (R154): the die returns to plan in the next turn. The status byte read then is a free value (R172). -/
def execLunResetComplete (die : Fin 1024) (s : State) : Out :=
  .next (match (s.die die).busy with
    | some (.reset, _) => s.tookFree.dieReady die false (Config.freeNat s.free % 256)
    | _ => s)

/-! ### Retrains (R144–R146) -/

/-- The rung a channel trains at: its current one. -/
def State.rung (s : State) (c : Nat) : Nat := s.fld (Reg.FCE_STATUS_CUR_IDX c)

/-- Begin a training attempt of 256 turns at a rung. -/
def State.train (s : State) (c rung : Nat) (second : Bool) : State :=
  (s.onChan c fun x => { x with training := some (rung, s.turn + 256), second := second }).setChanState c 3

/-- A retrain begins: the channel is reported down, and its unexecuted steps fail from the next turn (R117). -/
def State.retrain (s : State) (c rung : Nat) (raise : Bool) : State :=
  let s := s.addFld (Reg.FCE_RETRAIN_TOTAL c) 1
  let s := s.onChan c fun x =>
    { x with raise := raise, left := s.rung c, retryAt := none, raiseAt := if raise then none else x.raiseAt }
  (s.train c rung false).onSluice fun x => { x with chansOut := (c, s.turn + 1, none) :: x.chansOut.filter fun o => o.1 != c }

/-- RETRAIN_START (R144). -/
def execRetrainStart (ch : Fin 64) (s : State) : Out :=
  .next (if s.fld (Reg.FCE_STATUS_STATE ch) == 2 && !(s.chan ch).stopped then s.retrain ch (s.rung ch) false else s)

/-- The edge that closes the turn in which a training passed: in the next turn the engine reports the channel up at its rung, and the
sluice plans on it from the turn after (R144). Every furrow of the channel sets the die's interface to the rung (R139). -/
def State.bringUp (s : State) (c : Nat) : State :=
  match (s.chan c).coming with
  | none => s
  | some (rung, ev) =>
    let s := s.onChan c fun x => { x with coming := none, cameUp := some (s.turn + 1) }
    let s := s.setFlds [(Reg.FCE_STATUS_STATE c, 2), (Reg.FCE_STATUS_CUR_IDX c, rung), (Reg.FCE_EVENT_RETRAIN_OK c, 1),
      (Reg.FCE_STATUS_DEGRADED c, if s.fld (Reg.FCE_RATE_BUILD_IDX c) < rung then 1 else 0)]
    let s := if ev = 1 then s.setFld (Reg.FCE_EVENT_RATE_DROP c) 1 else if ev = 2 then s.setFld (Reg.FCE_EVENT_RATE_RAISE c) 1 else s
    s.writeSpillRate.onSluice fun x => { x with chansOut := x.chansOut.map fun o => if o.1 == c then (o.1, o.2.1, some (s.turn + 2)) else o }

/-- The retrain has failed: the channel stays down; the third failure of a rotation stops the engine. -/
def State.retrainFailed (s : State) (c : Nat) (counted : Bool) : State :=
  let s := (s.onChan c fun x => { x with training := none, raise := false, retryAt := some (s.turn + 1024) }).setChanState c 4
  if !counted then s
  else
    let s := (s.addFld (Reg.FCE_RETRAIN_FAILED_ROT c) 1).setFld (Reg.FCE_EVENT_RETRAIN_FAIL c) 1
    if s.fld (Reg.FCE_RETRAIN_FAILED_ROT c) = 3 then
      (s.setFld (Reg.FCE_EVENT_THIRD_FAIL c) 1).onChan c fun x => { x with stopped := true, retryAt := none }
    else s

/-- A training attempt ends. -/
def State.trainingEnd (s : State) (c : Nat) (pass : Bool) : State :=
  match (s.chan c).training with
  | none => s
  | some (rung, ends) =>
    if s.turn < ends then s
    else
      let x := s.chan c
      let s := if x.raise && (pass || x.second) then s.setFld (Reg.FCE_CTRL_RETRAIN_REQ c) 0 else s
      if pass then
        s.onChan c fun y => { y with training := none, retryAt := none, raise := false
                                     coming := some (rung, if x.raise then (if x.second then 0 else 2) else if x.second then 1 else 0) }
      else if x.raise then (if x.second then s.retrainFailed c false else s.train c x.left true)
      else if !x.second && decide (rung + 1 ≤ s.fld (Reg.FCE_RATE_FLOOR_IDX c)) then s.train c (rung + 1) true
      else s.retrainFailed c true

/-- RETRAIN_TRAINING_END (R144). -/
def execRetrainTrainingEnd (ch : Fin 64) (pass : Bool) (s : State) : Out := .next (s.trainingEnd ch pass)

/-- RETRAIN_RETRY (R144): 1,024 turns after a failed retrain. -/
def execRetrainRetry (ch : Fin 64) (s : State) : Out :=
  .next (match (s.chan ch).retryAt with
    | some t => if t ≤ s.turn && !(s.chan ch).stopped then s.retrain ch (s.rung ch) false else s
    | none => s)

end Sys2Proof.Machine
end

