-- ==== Sys2Proof/Machine/Calendar.lean ====
section
/-! DEFINITION. The sluice's calendars (chapter 3, R97–R101, R118, R119): what a resource holds, and where a step
fits. -/

namespace Sys2Proof.Machine

/-- Bookings being composed, and how long each reason's resource made the plan wait (R111). -/
structure Trial where
  bs : List Booking
  waits : List (Nat × Nat) := []
  deriving DecidableEq, Repr

/-- A wait at the resource of a reason; the longest stands. -/
def Trial.wait (tr : Trial) (reason w : Nat) : Trial :=
  { tr with waits := kput reason (max w ((klook reason tr.waits).getD 0)) tr.waits }

def Trial.book (tr : Trial) (b : Booking) : Trial := { tr with bs := b :: tr.bs }

/-- A turn lies in the coarse ring: its span has not entered the fine ring (R98). -/
def coarse (now t : Nat) : Bool := decide (now + 4096 ≤ t / 16 * 16)

/-- A booking holds a turn; in the coarse ring a die step holds whole spans. -/
def Booking.covers (now : Nat) (b : Booking) (t : Nat) : Bool :=
  match b.res with
  | .die _ =>
    if coarse now t then decide (b.start / 16 ≤ t / 16) && decide (t / 16 ≤ (b.start + b.len - 1) / 16) && decide (0 < b.len)
    else decide (b.start ≤ t) && decide (t < b.start + b.len)
  | _ => decide (b.start ≤ t) && decide (t < b.start + b.len)

/-- The bookings of a resource in a turn. -/
def at' (now : Nat) (bs : List Booking) (r : Res) (t : Nat) : List Booking := bs.filter fun b => b.res == r && b.covers now t

/-- Two source sets share a channel. -/
def shares (a b : List Nat) : Bool := a.any fun x => b.contains x

/-! ### Interval resources -/

/-- A plan-layer step may stand on a turn of a die or channel: no plan or culvert booking holds it (R99). -/
def planFree (now : Nat) (bs : List Booking) (r : Res) (t : Nat) : Bool := (at' now bs r t).isEmpty

/-- A culvert booking may stand on a turn: no plan booking, and no culvert booking whose sources share a channel; in
the coarse ring there is no stacking (R98, R99). -/
def culvertFree (now : Nat) (bs : List Booking) (r : Res) (src : List Nat) (t : Nat) : Bool :=
  (at' now bs r t).all fun b => b.culvert && !coarse now t && !shares b.src src

/-- Plan-layer turns that a channel may hold in a span (R100). -/
def spanBudget (span : Nat) : Nat := if span % 5 = 2 || span % 5 = 4 then 13 else 14

/-- Plan-layer turns a channel holds in a span. -/
def spanUsed (now : Nat) (bs : List Booking) (c span : Nat) : Nat :=
  ((List.range 16).filter fun i => (at' now bs (.chan c) (span * 16 + i)).any fun b => !b.culvert).length

/-- Rebuild floors booked, in GB/s (R116). -/
def State.rebuildFloors (s : State) : Rat :=
  (s.flash.rebuilds.filter fun r => r.state == 1).foldl (fun n r => n + if r.chan then 10 else 2) 0

/-- Turns of a span that the rebuild floors and the foreground dredge floor hold on each channel (R116, R224): their bus in equal parts
over the channels in plan and, in whole turns, over the spans. -/
def State.floorTurns (s : State) (span : Nat) : Nat :=
  if s.flash.rebuilds.isEmpty && s.flash.dredgeFloor == 0 then 0
  else
    let n := ((List.range 64).filter fun c => s.chanInPlan c s.turn).length
    let x : Rat := (s.rebuildFloors + s.flash.dredgeFloor) * 16 / ((max 1 n : Nat) * (4416 / 1000))
    ((((span + 1 : Nat) : Rat) * x).floor - ((span : Rat) * x).floor).toNat

/-- A transfer window of len turns from t keeps within every span's budget, less what floors hold of it (R100, R116). -/
def budgetFits (now : Nat) (floor : Nat → Nat) (bs : List Booking) (c t len : Nat) : Bool :=
  (List.range (len / 16 + 2)).all fun i =>
    let sp := t / 16 + i
    let own := min (t + len) (sp * 16 + 16) - max t (sp * 16)
    decide (own = 0) || decide (spanUsed now bs c sp + own ≤ spanBudget sp - floor sp)

/-- An interval step of len turns from t fits in a layer. -/
def intervalFits (now : Nat) (bs : List Booking) (culvert : Bool) (src : List Nat) (r : Res) (t len : Nat) : Bool :=
  (List.range len).all fun i => if culvert then culvertFree now bs r src (t + i) else planFree now bs r (t + i)

/-- A transfer window fits on a channel. -/
def windowFits (now : Nat) (floor : Nat → Nat) (bs : List Booking) (culvert : Bool) (src : List Nat) (c t len : Nat) : Bool :=
  intervalFits now bs culvert src (.chan c) t len && (culvert || budgetFits now floor bs c t len)

/-! ### Count resources -/

/-- Plan-layer count in a turn. -/
def planCount (now : Nat) (bs : List Booking) (r : Res) (t : Nat) : Nat :=
  (at' now bs r t).foldl (fun n b => if b.culvert then n else n + b.amt) 0

/-- The culvert demand of a source channel in a turn; in the coarse ring every booking counts. -/
def culvertDemand (now : Nat) (bs : List Booking) (r : Res) (t ch : Nat) : Nat :=
  (at' now bs r t).foldl (fun n b => if b.culvert && (coarse now t || b.src.contains ch) then n + b.amt else n) 0

/-- The largest culvert demand of any one source in a turn: a flash channel, or a DRAM half (64 and 65, R106). -/
def culvertMax (now : Nat) (bs : List Booking) (r : Res) (t : Nat) : Nat :=
  (List.range 66).foldl (fun m ch => max m (culvertDemand now bs r t ch)) 0

/-- Usable host data of a link, in thousandths of a 4 KiB unit per turn (Table 02.2, R47, R49): 1 GB/s is 250. -/
def State.hostCap (s : State) (c : Nat) : Nat :=
  let x16 := [0, 875, 1750, 3425, 6850, 13750, 28000].getD (s.fld (Reg.HGT_LINK_STATUS_RATE c)) 0
  let x8 := [0, 425, 875, 1725, 3425, 6850, 14000].getD (s.fld (Reg.HGT_LINK_STATUS_RATE c)) 0
  let w := s.fld (Reg.HGT_LINK_STATUS_WIDTH c)
  let cap := if 8 < w then x16 * w / 16 else x8 * w / 8
  if s.flag (Reg.HGT_LINK_STATUS_L0P_EN c) then cap / 2 else cap

/-- Sectors that the galley read path carries in a turn: what the SC1 budgets of one half's channels leave, the smaller of the halves
(R106 gives it no figure; DESIGN CHOICE, assumption log 165). -/
def State.galleyPath (s : State) : Nat :=
  let half (h : Nat) : Nat := (List.range 6).foldl (fun n i => n + s.sc1Kib (6 * h + i)) 0
  min (half 0) (half 1) / 4

/-- Capacity of a count resource in each turn (Table 03.3): host links in thousandths, soft decoders each for the two
turns of a codeword; compositor compute in each span. -/
def State.cap (s : State) : Res → Nat
  | .hard => 2 * s.fld Reg.SLU_STATUS_HARD_DEC
  | .soft => s.fld Reg.SLU_STATUS_SOFT_DEC
  | .forme | .xts => 16
  | .host c _ => s.hostCap c
  | .port => 256
  | .compute => 16
  | .galley => s.galleyPath
  | _ => 1

/-- The plan layer's share of a count resource (R101). -/
def State.planCap (s : State) : Res → Nat
  | .hard => s.cap .hard - 8
  | r => s.cap r

/-- What a layer may still take of a count resource in a turn (R99, R101). -/
def State.room (s : State) (bs : List Booking) (culvert : Bool) (src : List Nat) (r : Res) (t : Nat) : Nat :=
  let p := planCount s.turn bs r t
  if culvert then
    src.foldl (fun m ch => min m (s.cap r - p - culvertDemand s.turn bs r t ch)) (s.cap r - p)
  else min (s.planCap r - p) (s.cap r - culvertMax s.turn bs r t - p)

/-! ### Search -/

/-- The first turn from t on that a test picks, within `fuel` turns. -/
def firstTurn (p : Nat → Bool) : Nat → Nat → Option Nat
  | 0, _ => none
  | fuel + 1, t => if p t then some t else firstTurn p fuel (t + 1)

/-- The span of the calendars: one rotation (R98). -/
def ringLen : Nat := 1048576

/-- Spread `total` units of a count resource over turns from t on, up to `per` in each: the bookings, and the last
turn used. -/
def State.spread (s : State) (mk : Nat → Nat → Booking) (culvert : Bool) (src : List Nat) (r : Res) (per : Nat) :
    Nat → Nat → Nat → List Booking → Option (List Booking × Nat)
  | 0, _, _, _ => none
  | fuel + 1, t, total, bs =>
    let n := min (min total per) (s.room bs culvert src r t)
    let bs := if n = 0 then bs else mk t n :: bs
    if total ≤ n then some (bs, t) else s.spread mk culvert src r per fuel (t + 1) (total - n) bs

/-- The first span from a turn's on with a core of compositor compute free (R97). -/
def State.computeSpan (s : State) (bs : List Booking) (from_ : Nat) : Option Nat :=
  firstTurn (fun sp => decide (planCount s.turn bs .compute (16 * sp) < s.cap .compute)) 65536 (from_ / 16)

/-! ### Power (R118, R119) -/

/-- The planned power of a booking in a turn it holds, in mW (Table 03.9). -/
def Booking.weight (b : Booking) : Nat :=
  if b.culvert then 0
  else match b.res with
    | .chan _ => 140
    | .hard => 250 * cdiv b.amt 2
    | .soft => 250 * b.amt
    | .host _ _ => 30 * b.amt / 1000
    | _ => 0

/-- Planned power of a span, in mW-turns. -/
def spanPower (bs : List Booking) (span : Nat) : Nat :=
  bs.foldl (fun n b => n + b.weight * (min (b.start + b.len) (span * 16 + 16) - max b.start (span * 16))) 0

/-- The ceiling that a span is planned against from a decision turn: under Surge, the Surge ceiling holds for 4,096
turns only (R119). -/
def State.ceilFor (s : State) (t span : Nat) : Nat :=
  if s.flag Reg.SLU_STATUS_SURGE && decide (t + 4096 ≤ span * 16) then s.sluice.serviceCeil else s.efld Reg.SLU_POWER_CEIL

/-- A plan fits the power calendar: in every span that its steps touch, planned power and STATIC stay within the ceiling; a unit of
1/16 W over 16 turns is 1,000 mW-turns. -/
def State.powerFits (s : State) (t : Nat) (old new : List Booking) : Bool :=
  (new.take (new.length - old.length)).all fun b =>
    (List.range (b.len / 16 + 2)).all fun i =>
      let sp := b.start / 16 + i
      decide (b.start + b.len ≤ sp * 16) ||
        decide (spanPower new sp ≤ (s.ceilFor t sp - s.efld Reg.SLU_POWER_STATIC) * 1000)

end Sys2Proof.Machine
end

