-- ==== Sys2Proof/Machine/Status.lean ====
section
/-! DEFINITION. Completion statuses: the standard codes that the spec names (their numbers are NVM Express's, assumption
log 18), the vendor codes of Table 02.15, and the DNR bit of Table 02.18. -/

namespace Sys2Proof.Machine

/-- A status: its type, code and DW0. -/
structure Status where
  sct : Nat := 0
  sc : Nat := 0
  dw0 : Nat := 0
  deriving DecidableEq, Repr

namespace St

def ok : Status := {}
def invalidOpcode : Status := { sc := 0x01 }
def invalidField : Status := { sc := 0x02 }
def dataTransfer : Status := { sc := 0x04 }
def internal : Status := { sc := 0x06 }
def abortRequested : Status := { sc := 0x07 }
def invalidNamespace : Status := { sc := 0x0B }
def sequence : Status := { sc := 0x0C }
def sanitizeInProgress : Status := { sc := 0x1D }
def writeProtected : Status := { sc := 0x20 }
def lbaRange : Status := { sc := 0x80 }
def formatInProgress : Status := { sc := 0x84 }
def invalidCq : Status := { sct := 1, sc := 0x00 }
def invalidQueue : Status := { sct := 1, sc := 0x01 }
def invalidQueueSize : Status := { sct := 1, sc := 0x02 }
def abortLimit : Status := { sct := 1, sc := 0x03 }
def aerLimit : Status := { sct := 1, sc := 0x05 }
def invalidSlot : Status := { sct := 1, sc := 0x06 }
def invalidImage : Status := { sct := 1, sc := 0x07 }
def invalidVector : Status := { sct := 1, sc := 0x08 }
def invalidLog : Status := { sct := 1, sc := 0x09 }
def invalidFormat : Status := { sct := 1, sc := 0x0A }
def needsReset : Status := { sct := 1, sc := 0x0B }
def invalidDeletion : Status := { sct := 1, sc := 0x0C }
def notSaveable : Status := { sct := 1, sc := 0x0D }
def activationProhibited : Status := { sct := 1, sc := 0x13 }
def overlapping : Status := { sct := 1, sc := 0x14 }
def insufficientCapacity : Status := { sct := 1, sc := 0x15 }
def nsidUnavailable : Status := { sct := 1, sc := 0x16 }
def alreadyAttached : Status := { sct := 1, sc := 0x18 }
def notAttached : Status := { sct := 1, sc := 0x1A }
def invalidControllers : Status := { sct := 1, sc := 0x1C }
def selfTestInProgress : Status := { sct := 1, sc := 0x1D }
def zoneBoundary : Status := { sct := 1, sc := 0xB8 }
def zoneFull : Status := { sct := 1, sc := 0xB9 }
def zoneReadOnly : Status := { sct := 1, sc := 0xBA }
def zoneOffline : Status := { sct := 1, sc := 0xBB }
def zoneInvalidWrite : Status := { sct := 1, sc := 0xBC }
def zoneTransition : Status := { sct := 1, sc := 0xBF }
def unrecovered : Status := { sct := 2, sc := 0x81 }
def guard : Status := { sct := 2, sc := 0x82 }
def appTag : Status := { sct := 2, sc := 0x83 }
def refTag : Status := { sct := 2, sc := 0x84 }
def compareFailure : Status := { sct := 2, sc := 0x85 }
/-- Admission Refused, with its reason and hint (R112). -/
def refused (reason hint : Nat) : Status := { sct := 7, sc := 0x80, dw0 := hint + reason * 2 ^ 16 }
def noData : Status := { sct := 7, sc := 0x81 }
def frozen (seq : Nat) : Status := { sct := 7, sc := 0x82, dw0 := seq }
def conflict (edition : Nat) : Status := { sct := 7, sc := 0x83, dw0 := edition }
def domainRetired (mask : Nat) : Status := { sct := 7, sc := 0x84, dw0 := mask }

end St

/-- A successful status, with its DW0. -/
def St.done (dw0 : Nat) : Status := { dw0 := dw0 }

/-- Successful Completion. -/
def Status.good (x : Status) : Bool := x.sct == 0 && x.sc == 0

/-- The DNR bit (Tables 02.15, 02.18): clear for success, Admission Refused, Queue Frozen, Edition Conflict, and the
standard codes a retry may pass. -/
def Status.dnr (x : Status) : Bool :=
  match x.sct, x.sc with
  | 0, 0x00 | 0, 0x04 | 0, 0x06 | 0, 0x07 | 0, 0x1D | 0, 0x84 => false
  | 1, 0x1D => false
  | 7, 0x80 | 7, 0x82 | 7, 0x83 => false
  | _, _ => true

end Sys2Proof.Machine
end

