-- ==== Sys2Proof/Machine/Planner.lean ====
section
/-! DEFINITION. The worst-case plan (chapter 3, R102–R109): what a command's blocks are made of, where each sector's
contents come from at the decision (R191), and the placing of every step on the calendars. -/

namespace Sys2Proof.Machine

/-! ### Formats and pieces (R66, R176, R292) -/

/-- Data bytes of a block (Table 02.8). -/
def blockBytes (lbaf : Nat) : Nat := if lbaf ≤ 1 then 512 else 4096

/-- Metadata bytes of a block. -/
def mdBytes (lbaf : Nat) : Nat := match lbaf with | 1 | 3 => 8 | 4 => 64 | _ => 0

/-- Blocks of a sector. -/
def blocksPerSector (lbaf : Nat) : Nat := 4096 / blockBytes lbaf

/-- A run of fields of one unit: unit number in the namespace, fields per sector, first field, fields, and the command's
first block it carries. -/
structure Piece where
  unit : Nat
  per : Nat
  at_ : Nat
  len : Nat
  ofs : Nat
  md : Bool := false
  deriving DecidableEq, Repr

/-- Cut n fields from field `start` on, w to a unit. -/
def cutRun (w per base : Nat) (md : Bool) : Nat → Nat → Nat → Nat → List Piece
  | 0, _, _, _ => []
  | fuel + 1, start, n, ofs =>
    if n = 0 then []
    else
      let len := min n (w - start % w)
      ⟨base + start / w, per, start % w, len, ofs, md⟩ :: cutRun w per base md fuel (start + len) (n - len) (ofs + len)

/-- The pieces of a block range in its data units. -/
def dataPieces (ns : Namespace) (slba n ofs : Nat) : List Piece :=
  let per := blocksPerSector ns.lbaf
  cutRun (4 * per) per 0 false (n / (4 * per) + 2) slba n ofs

/-- The pieces of a block range in its metadata units: one field for each block (R292). -/
def mdPieces (ns : Namespace) (slba n ofs : Nat) : List Piece :=
  let ms := mdBytes ns.lbaf
  if ms = 0 then [] else cutRun (16384 / ms) (4096 / ms) (ns.dataGrans * 65536) true (n / (16384 / ms) + 2) slba n ofs

/-- A namespace by its NSID. -/
def State.ns (s : State) (nsid : Nat) : Option Namespace := s.nv.namespaces.find? fun n => n.nsid == nsid

/-- The metadata of a block that reads as DEALLOCATED or ZEROED (R196, R295). -/
def specialMd (ns : Namespace) (zeroed : Bool) : Bytes :=
  let ms := mdBytes ns.lbaf
  let pi : Bytes := [0, 0, 0xFF, 0xFF, 0xFF, 0xFF, 0xFF, 0xFF]
  if !zeroed then fill ms 0xFF
  else if ms = 64 then (if ns.piFirst then pi ++ fill 56 0 else fill 56 0 ++ pi)
  else pi.take ms

/-! ### Sources of a sector (R181, R190, R191) -/

/-- Where a sector is: a galley slot, a codeword of a flash unit, or a special code (0 DEALLOCATED, 1 ZEROED, 2 LOST). -/
inductive Src
  | slot (n : Nat)
  | flash (lane f m cw : Nat)
  | special (c : Nat)
  deriving DecidableEq, Repr

/-- A sector's source at the decision: an unlanded write that it waits for, what is there without that write, and the
turn of the last booked map-only step that it lies behind (R107). -/
structure SecSrc where
  unlanded : Option Nat := none
  src : Src
  after : Nat := 0
  deriving DecidableEq, Repr

/-- The source that a map entry or a base gives to sector k. -/
def entrySrc (lane k : Nat) : Entry → Src
  | .flash m f => .flash lane f m k
  | .deallocated => .special 0
  | .zeroed => .special 1
  | _ => .special 2

/-- The source of sector k of a unit by the map and its overlay record (R182). -/
def State.mapSrc (s : State) (g k : Nat) : Src :=
  match s.mapEntry g with
  | .overlay i =>
    let o := s.overlay i
    let b := natBits o.sect (8 * k) 8
    match b % 4 with
    | 0 => entrySrc (s.laneOf g) k (entryOf o.base)
    | 1 => entrySrc (s.laneOf g) (b / 4 % 4) (entryOf (o.frags.getD k 0))
    | 2 => .special 0
    | _ => .special 1
  | e => entrySrc (s.laneOf g) k e

/-- A unit's walk needs its overlay record (R110). -/
def State.needsOverlay (s : State) (g : Nat) : Bool := match s.mapEntry g with | .overlay _ => true | _ => false

/-- The unlanded write that fills a slot, and its copies turn. -/
def State.fillingWrite (s : State) (n : Nat) : Option UnitWrite :=
  (s.sluice.plans.flatMap (·.writes)).find? fun w => w.slot == n && !w.landed && !w.cancelled

/-- A slot holds sector k, or will once its write lands: written whole, filled, or merged from the older residency. -/
def State.willHold (s : State) : Nat → Nat → Nat → Bool
  | 0, _, _ => false
  | fuel + 1, n, k =>
    match s.slot n with
    | none => false
    | some x =>
      if x.cut.contains k then false
      else if x.state == .filling then
        match s.fillingWrite n with
        | some w =>
          (decide (w.at_ < (k + 1) * w.per) && decide (k * w.per < w.at_ + w.len)) ||
            (match w.older with | some o => s.willHold fuel o k | none => false)
        | none => false
      else (x.sectors.getD k none).isSome

/-- The latest booked map-only step on sector k of a unit: order, turn, special code. -/
def State.bookedOp (s : State) (g k : Nat) : Option (Nat × Nat × Nat) :=
  s.galley.booked.foldl (fun best b =>
    let hit : Option Nat := match b.2.2.2 with
      | .unit g' new => if g' = g then some (match entryOf new with | .deallocated => 0 | .zeroed => 1 | _ => 2) else none
      | .sector g' k' kind => if g' = g ∧ k' = k then some (kind - 2) else none
      | .zone _ _ _ | .req _ _ => none
    match hit with
    | some c => (match best with | some (o, _, _) => if o ≤ b.2.2.1 then some (b.2.2.1, b.1, c) else best | none => some (b.2.2.1, b.1, c))
    | none => best) none

/-- The newest landed residency's sector k, below an order; if the newest residency lacks it, the map has it. -/
def State.landedWith (s : State) (g k : Nat) : Option (Nat × Nat) :=
  match s.residency g with
  | some x => if (x.2.sectors.getD k none).isSome then some (x.2.order, x.1) else none
  | none => none

/-- What sector k reads as without any unlanded write: a booked map-only step, the newest residency, the cache, or the
map; with the turn it lies behind. -/
def State.settled (s : State) (g k : Nat) : Src × Nat :=
  let base : Src :=
    match s.landedWith g k with
    | some (_, n) => .slot n
    | none =>
      match s.cached g with
      | some x => if (s.residency g).isNone && (x.2.sectors.getD k none).isSome then .slot x.1 else s.mapSrc g k
      | none => s.mapSrc g k
  match s.bookedOp g k with
  | some (o, t, c) =>
    if (match s.residency g with | some x => decide (o < x.2.order) | none => false) then (base, 0) else (.special c, t + 1)
  | none => (base, 0)

/-- A sector's source: behind the newest unlanded write that a test picks, where it is newer than what has settled. -/
def State.source (s : State) (own : Slot → Bool) (g k : Nat) : SecSrc :=
  let set := s.settled g k
  let opOrder := match s.bookedOp g k with | some (o, _, _) => o | none => 0
  match newestOf (fun x => x.2.unit == g && x.2.state == .filling && own x.2 && s.willHold 64 x.1 k) s.galley.slots with
  | some x => if opOrder < x.2.order then ⟨some x.1, set.1, set.2⟩ else ⟨none, set.1, set.2⟩
  | none => ⟨none, set.1, set.2⟩

/-- Two neighbouring sectors read as one step: n sectors from one source, and the next. -/
def Src.continues (a : Src) (n : Nat) (b : Src) : Bool :=
  match a, b with
  | .slot x, .slot y => x == y
  | .special x, .special y => x == y
  | .flash l f m c, .flash l' f' m' c' => l == l' && f == f' && m == m' && c + n == c'
  | _, _ => false

/-- Runs of sectors with one source: (first sector, sectors, source). -/
def groupSrc : List (Nat × SecSrc) → List (Nat × Nat × SecSrc)
  | [] => []
  | (k, x) :: t =>
    match groupSrc t with
    | (k', n, y) :: r =>
      if k' = k + 1 && x.unlanded == y.unlanded && x.after == y.after && x.src.continues 1 y.src then (k, n + 1, x) :: r
      else (k, 1, x) :: (k', n, y) :: r
    | [] => [(k, 1, x)]

/-- A read of one run of a piece, before its steps are placed. `out` is the earliest turn that its source allows. -/
def mkRead (p : Piece) (g : Nat) (r : Nat × Nat × SecSrc) : UnitRead :=
  let a := max p.at_ (r.1 * p.per)
  let b := min (p.at_ + p.len) ((r.1 + r.2.1) * p.per)
  let u : UnitRead :=
    { g := g, per := p.per, at_ := a, len := b - a, ofs := p.ofs + (a - p.at_), md := p.md, path := .special, out := r.2.2.after }
  let u : UnitRead := match r.2.2.src with
    | .slot n => { u with path := .slot, slot := some (n, 0), prev := some n }
    | .flash l f m c => { u with path := .primary, loc := some (l, f, m), cw := c }
    | .special c => { u with path := if c = 2 then .lost else .special, spec := some c }
  match r.2.2.unlanded with
  | some n => { u with path := .slot, slot := some (n, 0) }
  | none => { u with prev := none }

/-- The reads of one piece. -/
def State.pieceReads (s : State) (own : Slot → Bool) (p : Piece) (g : Nat) : List UnitRead :=
  let ks := (List.range ((p.at_ + p.len - 1) / p.per + 1 - p.at_ / p.per)).map (· + p.at_ / p.per)
  (groupSrc (ks.map fun k => (k, s.source own g k))).map (mkRead p g)

/-! ### Laying steps -/

/-- A composition of steps: the bookings so far, or the reason it failed for. -/
abbrev Lay := StateT Trial (Except Nat)

/-- What a plan is composed for: the decision turn, the first turn a step may take, the posting limit, the plan, the
class, whether it is best effort, and the host link of its data with its direction. -/
structure Ask where
  t : Nat
  start : Nat
  limit : Nat
  plan : Nat
  cls : Nat
  best : Bool
  link : Option (Nat × Bool)
  /-- The chain being laid (`Booking.tag`). -/
  tag : Nat := 0
  deriving DecidableEq, Repr

/-- The reason of the longest wait; a tie goes to the lowest code (R111). -/
def Trial.limiting (tr : Trial) : Nat :=
  (tr.waits.foldl (fun (b : Nat × Nat) w => if b.2 < w.2 ∨ (b.2 = w.2 ∧ w.1 < b.1) then w else b) (1, 0)).1

/-- The plan is late: it fails for its limiting resource. -/
def late {α : Type} : Lay α := fun tr => .error tr.limiting

/-- Spread steps of a count resource from a turn on: the last turn used. -/
def State.stage (s : State) (a : Ask) (culvert : Bool) (src : List Nat) (r : Res) (per total from_ reason : Nat) : Lay Nat :=
  fun tr =>
    match s.spread (fun t n => ⟨r, culvert, t, 1, n, src, a.plan, a.tag⟩) culvert src r per ringLen from_ total tr.bs with
    | some (bs, e) => .ok (e, { tr with bs := bs }.wait reason (e + 1 - from_ - cdiv total (max 1 per)))
    | none => .error reason

/-- Book a core of compositor compute for a span, from a turn on (R97, R107): the turn from which it runs. -/
def State.layCompute (s : State) (a : Ask) (from_ : Nat) : Lay Nat := fun tr =>
  match s.computeSpan tr.bs from_ with
  | some sp =>
    let e := max from_ (16 * sp)
    .ok (e, (tr.book ⟨.compute, false, 16 * sp, 16, 1, [], a.plan, a.tag⟩).wait 4 (e - from_))
  | none => .error 4

/-- Turns of T_RS still to run at a turn, and the suspend time: a plan-layer read suspends a hold that is there; a
second chance books the worst suspend in any case (R102, R104). -/
def State.suspendOf (s : State) (bs : List Booking) (die : Nat) (second : Bool) (e : Nat) : Nat × Nat :=
  let d := s.die die
  let held := d.hold.isSome
  let r := bs.foldl (fun m b => if b.res == .die die && !b.culvert && decide (b.start + b.len ≤ e) then max m (b.start + b.len) else m) d.resumed
  let gap := if r = 0 then 0 else r + s.efld (Reg.SLU_DIE_TIME_A_T_RS die) - e
  if second then (gap, max (s.learned die 1) (s.learned die 2))
  else
    match d.hold with
    | some h => (gap, s.learned die (if h.erase then 2 else 1))
    | none => (if held then gap else 0, 0)

/-- No plan-layer step of a held die starts within T_RS of a resume in a turn. -/
def State.gapFree (s : State) (bs : List Booking) (die x : Nat) : Bool :=
  (s.die die).hold.isNone ||
    bs.all fun b => !(b.res == .die die && !b.culvert && decide (x < b.start) && decide (b.start < x + s.efld (Reg.SLU_DIE_TIME_A_T_RS die)))

/-- Lay one array read and its transfer: suspend, read, window, and the resume after it (R103). The window ends no earlier than
`late`. -/
def State.layRead (s : State) (a : Ask) (culvert second : Bool) (src : List Nat) (member : Nat) (mb : MBlock) (off n from_ late : Nat) :
    Lay DieRead := fun tr =>
  let ch := mb.die / 16
  let len := xferTurns (s.rung ch) n
  let sus (e : Nat) := s.suspendOf tr.bs mb.die second e
  let ready (e : Nat) := e + (sus e).1 + (sus e).2 + s.learned mb.die 0
  let win (e : Nat) := firstTurn (fun w => windowFits s.turn s.floorTurns tr.bs culvert src ch w len) ringLen (max (ready e + 1) (late + 1 - len))
  let fits (e : Nat) := match win e with
    | some w => intervalFits s.turn tr.bs culvert src (.die mb.die) e (w + len - e) && s.gapFree tr.bs mb.die (w + len)
    | none => false
  match firstTurn fits (a.t + ringLen - from_) from_ with
  | none => .error (if culvert then 7 else 1)
  | some e =>
    match win e with
    | none => .error (if culvert then 7 else 2)
    | some w =>
      let issue := e + (sus e).1 + (sus e).2
      let rd : DieRead :=
        { die := mb.die, block := mb.block, page := off, member := member
          suspend := if (sus e).2 = 0 then none else some (e + (sus e).1)
          issue := issue, ready := ready e, xfer := (w, w + len - 1), resume := some (w + len)
          start := e }
      let tr := (tr.book ⟨.die mb.die, culvert, e, w + len - e, 1, src, a.plan, a.tag⟩).book ⟨.chan ch, culvert, w, len, 1, src, a.plan, a.tag⟩
      .ok (rd, (tr.wait (if culvert then 7 else 1) (e - from_)).wait (if culvert then 7 else 2) (w - (ready e + 1)))

/-- The turns a domain still needs before it is ON (R122). -/
def State.domWait (s : State) (n : Fin 24) : Nat :=
  match (s.dom n).state with
  | .waking => (s.dom n).wakeFrom + (s.dom n).wakeLen - s.turn
  | .off => domWake n (s.power.mode == .conserve && s.fld Reg.PMC_PS_PS == 4)
  | _ => 0

/-- The flash group of a die. -/
def groupOf (die : Nat) : Fin 24 := Fin.ofNat 24 (13 + die / 128)

/-- A peer may be read by a plan: in service for foreground plans, readable for background ones (R105). -/
def State.peerUsable (s : State) (a : Ask) (die t : Nat) : Bool := if a.best then s.dieReadable die t else s.dieInPlan die t

/-- Lay one read on each member of a list, from a turn of its own and with a least turn for its window's end. -/
def State.layEach (s : State) (a : Ask) (culvert second : Bool) (src : List Nat) (n : Nat) :
    List ((Nat × MBlock × Nat) × Nat × Nat) → Lay (List DieRead)
  | [] => pure []
  | x :: t => do
    let r ← s.layRead a culvert second src x.1.1 x.1.2.1 x.1.2.2 n x.2.1 x.2.2
    let q ← s.layEach a culvert second src n t
    pure (r :: q)

/-- Insert by a number, before an equal one. -/
def insertEnd {α : Type} (x : α × Nat) : List (α × Nat) → List (α × Nat)
  | [] => [x]
  | y :: t => if x.2 ≤ y.2 then x :: y :: t else y :: insertEnd x t

/-- The turn from which a peer's read may start: its group's wake counts from the decision turn (R104). -/
def State.peerFrom (s : State) (a : Ask) (from_ : Nat) (p : Nat × MBlock × Nat) : Nat := max from_ (a.t + s.domWait (groupOf p.2.1.die))

/-- The `want` peers whose transfers would end first, each laid alone; a tie goes to the lower member. None where fewer can be laid. -/
def State.pickPeers (s : State) (a : Ask) (culvert second : Bool) (src : List Nat) (n from_ want : Nat) (ps : List (Nat × MBlock × Nat))
    (tr : Trial) : Option (List (Nat × MBlock × Nat)) :=
  let ends := ps.filterMap fun p =>
    let e := s.peerFrom a from_ p
    if !s.peerUsable a p.2.1.die e then none
    else match s.layRead a culvert second src p.1 p.2.1 p.2.2 n e 0 tr with
      | .ok (r, _) => some (p, r.xfer.2)
      | .error _ => none
  if ends.length < want then none
  else
    let first := ((ends.foldr insertEnd []).take want).map (·.1)
    some (ps.filter first.contains)

/-- The other 15 members of a unit's forme. -/
def State.peers (s : State) (lane f m : Nat) : List (Nat × MBlock × Nat) :=
  ((List.range 16).filter (· != m)).map fun i => (i, (s.place lane f i).1, (s.place lane f i).2)

/-- The last turn of the reads' windows. -/
def lastXfer (rs : List DieRead) : Nat := rs.foldl (fun m r => max m r.xfer.2) 0

/-- Lay the host window of n sectors from a turn on; without a host window the unit is done at `from_ − 1`. -/
def State.layHost (s : State) (a : Ask) (culvert : Bool) (src : List Nat) (n from_ : Nat) : Lay (Nat × Nat) :=
  match a.link with
  | none => pure (from_ - 1, from_ - 1)
  | some (c, inbound) => do
    let e ← s.stage a culvert src (.host c inbound) (s.hostCap c) (1000 * n) from_ (if culvert then 7 else 9)
    pure (from_, e)

/-- Lay what follows the transfers: decode, forme rebuild where asked, proof check, host window, posting. A wait at the XTS calendar has
reason 03 and one at the forme rebuild 07: Table 03.5 names neither (DESIGN CHOICE, assumption log 161). -/
def State.layTail (s : State) (a : Ask) (culvert soft : Bool) (src : List Nat) (per total from_ : Nat) (rebuild : Bool) (n : Nat) :
    Lay Chain := do
  let rs (x : Nat) : Nat := if culvert then 7 else x
  let d ← s.stage a culvert src (if soft then .soft else .hard) per total from_ (rs 3)
  let f ← if rebuild then s.stage a culvert src .forme 16 n (d + 1) 7 else pure d
  let p ← s.stage a culvert src .xts 16 1 (f + 1) (rs 3)
  let h ← s.layHost a culvert src n (p + 1)
  pure { reads := [], soft := soft, decode := (from_, d), rebuild := if rebuild then some f else none, proof := p, host := h, post := h.2 + 1 }

/-- Lay a chain whose last window ends no earlier than a turn, later and later until its decode ends within 48 turns of every window
that a test picks (R148). -/
def layWithin (go : Nat → Lay Chain) (near : DieRead → Chain → Bool) : Nat → Nat → Lay Chain
  | 0, _ => fun _ => .error 3
  | fuel + 1, late => fun tr =>
    match go late tr with
    | .ok (c, tr') =>
      if c.reads.all (fun r => !near r c || decide (c.decode.2 ≤ r.xfer.2 + 48)) then .ok (c, tr')
      else layWithin go near fuel (c.decode.2 - 48) tr
    | .error x => .error x

/-- Every window counts. -/
def anyWindow (_ : DieRead) (_ : Chain) : Bool := true

/-- The last window of a chain counts: the codewords read before it wait in their read slots for the soft lease. -/
def lastWindow (r : DieRead) (c : Chain) : Bool := r.xfer.2 == lastXfer c.reads

/-- The direct path of n codewords of a unit (R103). -/
def State.layDirect (s : State) (a : Ask) (culvert second : Bool) (src : List Nat) (lane f m n from_ : Nat) : Lay Chain :=
  let x := s.place lane f m
  layWithin (fun late => do
    let r ← s.layRead a culvert second src m x.1 x.2 n from_ late
    let c ← s.layTail a culvert false src 2 n (r.xfer.2 + 1) false n
    pure { c with reads := [r] }) anyWindow 64 0

/-- A rebuild from `want` peers: the chain, and the peers left (R104, R105). -/
def State.layRebuild (s : State) (a : Ask) (culvert : Bool) (src : List Nat) (ps : List (Nat × MBlock × Nat)) (want per n from_ : Nat) :
    Lay (Chain × List (Nat × MBlock × Nat)) := fun tr =>
  match s.pickPeers a culvert culvert src n from_ want ps tr with
  | none => .error (if culvert then 7 else 1)
  | some pick =>
    let go (late : Nat) : Lay Chain := do
      let rs ← s.layEach a culvert culvert src n (pick.map fun p => (p, s.peerFrom a from_ p, late))
      let c ← s.layTail a culvert false src per (want * n) (lastXfer rs + 1) true n
      pure { c with reads := rs }
    match layWithin go anyWindow 64 0 tr with
    | .ok (c, tr') => .ok ((c, ps.filter fun p => !pick.contains p), tr')
    | .error x => .error x

/-- The soft retry of R254 from a turn on: two more reads, the soft lease, proof check, host window. -/
def State.laySoft (s : State) (a : Ask) (lane f m n from_ : Nat) : Lay Chain :=
  let x := s.place lane f m
  layWithin (fun late => do
    let r1 ← s.layRead a false false [] m x.1 x.2 n from_ 0
    let r2 ← s.layRead a false false [] m x.1 x.2 n (r1.xfer.2 + 1) late
    let c ← s.layTail a false true [] n (2 * n) (r2.xfer.2 + 1) false n
    pure { c with reads := [r1, r2] }) lastWindow 64 0

/-- What laying a unit's read gives: the read, its plan-layer posting, the turn by which its data is there in the worst
case, and reads accepted without a second chance. -/
structure Got where
  u : UnitRead
  post : Nat
  worst : Nat
  noSecond : Nat := 0
  deriving DecidableEq, Repr

/-- Codewords that a read needs: the sectors it touches. -/
def UnitRead.sectors (u : UnitRead) : Nat := (u.at_ + u.len - 1) / u.per + 1 - u.at_ / u.per

/-- The codeword positions it reads. -/
def UnitRead.cws (u : UnitRead) : List Nat := (List.range u.sectors).map (· + u.cw)

/-- A chain's reads take the given codeword positions. -/
def Chain.positions (cws : List Nat) (c : Chain) : Chain := { c with reads := c.reads.map fun r => { r with cws := cws } }

/-- Every chain of a read takes the positions that it needs (R158). -/
def UnitRead.positions (u : UnitRead) : UnitRead :=
  { u with primary := u.primary.map (Chain.positions u.cws), retry := u.retry.map (Chain.positions u.cws), second := u.second.map (Chain.positions u.cws) }

/-- Hold a chain to the posting limit. -/
def inTime (a : Ask) (c : Chain) : Lay Chain := if a.limit < c.post then late else pure c

/-- The direct path with its soft retry and its second chance (R103, R104, R254). Where fewer than 14 peers can be read there is no
second chance to book, and the read is accepted without one (R105, R270). -/
def State.layDirectRead (s : State) (a : Ask) (u : UnitRead) (lane f m from_ : Nat) (peers : Bool) : Lay Got := fun tr => do
  let n := u.sectors
  let ch := (s.place lane f m).1.die / 16
  let (c, tr) ← (do let c ← s.layDirect a false false [] lane f m n from_; inTime a c) tr
  if a.best then .ok (⟨{ u with path := .primary, primary := some c }, c.post, c.proof, 0⟩, tr)
  else
    let soft : Except Nat (Chain × Trial) := if 3 ≤ a.cls then (do let x ← s.laySoft { a with tag := a.tag + 1 } lane f m n (c.decode.2 + 1); inTime a x) tr else .error 0
    let second (arm : Nat) : Lay Chain := do
      let q ← s.layRebuild { a with tag := a.tag + 2 } true [ch] (s.peers lane f m) 14 8 n arm
      if a.limit < q.1.post then fun _ => .error 7 else pure q.1
    let done (x : Option Chain) (q : Chain) : Got := ⟨{ u with path := .primary, primary := some c, retry := x, second := some q }, c.post, q.proof, 0⟩
    match peers, soft with
    | false, .ok (x, tr) => .ok (⟨{ u with path := .primary, primary := some c, retry := some x }, c.post, x.proof, 1⟩, tr)
    | false, .error _ => .ok (⟨{ u with path := .primary, primary := some c }, c.post, c.proof, 1⟩, tr)
    | true, .ok (x, tr') =>
      match second (x.decode.2 + 1) tr' with
      | .ok (q, tr'') => .ok (done (some x) q, tr'')
      | .error _ => match second (c.decode.2 + 1) tr with | .ok (q, tr'') => .ok (done none q, tr'') | .error _ => .error 7
    | true, .error _ => match second (c.decode.2 + 1) tr with | .ok (q, tr'') => .ok (done none q, tr'') | .error _ => .error 7

/-- The culvert primary: 14 peers in the plan layer, the 15th as second chance (R105). -/
def State.layCulvertRead (s : State) (a : Ask) (u : UnitRead) (lane f m from_ : Nat) : Lay Got := fun tr => do
  let n := u.sectors
  let (q, tr) ← s.layRebuild a false [] (s.peers lane f m) 14 28 n from_ tr
  let (c, tr) ← inTime a q.1 tr
  let u := { u with path := .primary, primary := some c }
  if a.best then .ok (⟨u, c.post, c.proof, 0⟩, tr)
  else
    let left := q.2.filter fun p => s.peerUsable a p.2.1.die from_
    if left.isEmpty then .ok (⟨u, c.post, c.proof, 1⟩, tr)
    else
      match s.layRebuild { a with tag := a.tag + 2 } true (c.reads.map (·.die / 16)) left 1 8 n (c.decode.2 + 1) tr with
      | .ok (w, tr') => if a.limit < w.1.post then .error 7 else .ok (⟨{ u with second := some w.1 }, c.post, w.1.proof, 0⟩, tr')
      | .error _ => .error 7

/-- A flash read: the direct path with its second chance, else a culvert primary (R105), which a read of a die that is not in service is
in any case; a best-effort read that has no 14 peers still reads a failing die (R150). Where both fail, the reason is 07 if the direct path
lacks its second chance only, else the culvert primary's (R110, R111). Where neither the member nor 14 peers can be read there is no data:
the read is accepted and posts so at its posting limit, a background read at once (R109, R270). -/
def State.layFlash (s : State) (a : Ask) (u : UnitRead) (lane f m from_ : Nat) : Lay Got := fun tr =>
  let die := (s.place lane f m).1.die
  let peers := decide (14 ≤ ((s.peers lane f m).filter fun p => s.peerUsable a p.2.1.die from_).length)
  let here := s.dieInPlan die from_ || (a.best && !peers && s.dieReadable die from_)
  if !here && !peers then
    (if a.best then .ok (⟨{ u with path := .noData }, a.t + 1, a.t, 0⟩, tr) else .ok (⟨{ u with path := .noData }, a.limit, a.limit, 0⟩, tr))
  else
    match (if here then s.layDirectRead a u lane f m from_ peers tr else .error 1) with
    | .ok r => .ok r
    | .error x =>
      match (if peers then s.layCulvertRead a u lane f m from_ tr else .error x) with
      | .ok r => .ok r
      | .error y => .error (if here ∧ x = 7 then 7 else y)

/-- The bookings behind an unlanded write whose previous contents are in flash: a read of that location in the culvert
layer with its own second chance (Table 05.11). -/
def State.layBehind (s : State) (a : Ask) (u : UnitRead) (lane f m from_ : Nat) : Lay Got := fun tr =>
  let n := u.sectors
  let die := (s.place lane f m).1.die
  let fail : Except Nat (Got × Trial) := .error 7
  match s.layDirect a true true [die / 16] lane f m n from_ tr with
  | .error _ => fail
  | .ok (c, tr) =>
    match s.layRebuild { a with tag := a.tag + 2 } true [die / 16] (s.peers lane f m) 14 8 n (c.decode.2 + 1) tr with
    | .error _ => fail
    | .ok (q, tr) =>
      if a.limit < max c.post q.1.post then fail
      else .ok (⟨{ u with primary := some c, second := some q.1 }, c.post, q.1.proof, 0⟩, tr)

/-- The published DRAM hold (R102, R348). -/
def State.glyHold (s : State) : Nat := s.fld Reg.DMC_GLY_HOLD_HOLD

/-- The turn in which a filling slot's copies are written. -/
def State.copiesOf (s : State) (n : Nat) : Nat := match s.fillingWrite n with | some w => w.copies | none => 0

/-- SC1 backlog of the two channels of each pair, in KiB: landing writes go to both, and a read goes to the copy with less before it
(R348). -/
def State.pairBacklog (s : State) (i : Nat) : Nat × Nat :=
  let k := max 1 (s.fld Reg.DMC_LAYOUT_K)
  let w := (s.sluice.plans.flatMap (·.writes)).foldl (fun n w =>
    if !w.landed && !w.cancelled && w.slot % k == i then n + 16 else n) 0
  (s.sluice.plans.flatMap fun p => p.reads ++ p.fills).foldl (fun (a : Nat × Nat) u =>
    match u.path, u.slot with
    | .slot, some (n, _) => if n % k = i then (if a.1 ≤ a.2 then (a.1 + 4 * u.sectors, a.2) else (a.1, a.2 + 4 * u.sectors)) else a
    | _, _ => a) (w, w)

/-- The half whose copy a galley read of a slot takes: the channel with the smaller backlog (R348). -/
def State.firstHalf (s : State) (n : Nat) : Nat :=
  let b := s.pairBacklog (n % max 1 (s.fld Reg.DMC_LAYOUT_K))
  if b.1 ≤ b.2 then 0 else 1

/-- The read of the mirror copy on the other DRAM half, in the culvert layer of the galley read path: its DRAM turn, proof check, host
window and posting (R106). The failure of the half read first invokes it. -/
def State.layMirror (s : State) (a : Ask) (n sectors from_ : Nat) : Lay (Nat × Nat × Nat) := do
  let src := [64 + s.firstHalf n]
  let r ← s.stage a true src .galley (s.cap .galley) sectors from_ 7
  let x ← s.stage a true src .xts 16 1 (r + 1) 7
  let h ← s.layHost a true src sectors (x + 1)
  if a.limit < h.2 + 1 then fun _ => .error 7 else pure (r, x, h.2 + 1)

/-- Lay one read of a unit, its codeword positions aside. -/
def State.laySource (s : State) (a : Ask) (u : UnitRead) : Lay Got :=
  match u.path, u.slot with
  | .slot, some (n, _) => do
    let landed : Bool := match s.slot n with | some x => x.state != .filling | none => true
    let r := max (max (a.start + s.glyHold) u.out) (if landed then 0 else s.copiesOf n + 1)
    let x ← s.stage a false [] .xts 16 1 (r + 1) 3
    let h ← s.layHost a false [] u.sectors (x + 1)
    let u := { u with slot := some (n, r), out := h.2 + 1 }
    if a.limit < h.2 + 1 then late
    else if a.best then pure ⟨u, h.2 + 1, x, 0⟩
    else do
      let w ← s.layMirror { a with tag := a.tag + 2 } n u.sectors (x + 1 + s.glyHold)
      let u := { u with mirror := some (w.1, w.2.2) }
      match (if landed then none else u.loc) with
      | some (l, f, m) => do
        let g ← s.layBehind a u l f m (s.copiesOf n + 1)
        pure ⟨g.u, h.2 + 1, max w.2.1 g.worst, 0⟩
      | none => pure ⟨u, h.2 + 1, w.2.1, 0⟩
  | .primary, _ =>
    match u.loc with
    | some (l, f, m) => s.layFlash a u l f m (max a.start u.out)
    | none => pure ⟨u, a.t + 1, a.t, 0⟩
  | _, _ => do
    let e := max (a.t + 1) u.out
    let h ← s.layHost a false [] u.sectors e
    if a.limit < h.2 + 1 then late else pure ⟨{ u with out := h.2 + 1 }, h.2 + 1, e - 1, 0⟩

/-- Lay one read of a unit. -/
def State.layUnit (s : State) (a : Ask) (u : UnitRead) : Lay Got := do
  let g ← s.laySource a u
  pure { g with u := g.u.positions }

/-- Lay every read of a list. -/
def State.layUnits (s : State) (a : Ask) : List UnitRead → Lay (List Got)
  | [] => pure []
  | u :: t => do
    let g ← s.layUnit a u
    let r ← s.layUnits { a with tag := a.tag + 4 } t
    pure (g :: r)

/-- The latest posting and the latest worst-case turn of laid reads. -/
def gotPost (l : List Got) : Nat := l.foldl (fun m g => max m g.post) 0
def gotWorst (l : List Got) : Nat := l.foldl (fun m g => max m g.worst) 0

/-! ### The wake of a plan (R122) -/

/-- Dies that a laid chain reads. -/
def chainDies : Option Chain → List Nat
  | some c => c.reads.map (·.die)
  | none => []

/-- The domains on a read's path: its flash group, decoders and XTS, or the DRAM halves of a galley step. -/
def State.readDoms (s : State) (u : UnitRead) : List Nat :=
  match u.path with
  | .slot => [11, 12]
  | .primary =>
    match u.loc with
    | some (l, f, m) => [9, 10, 22, (groupOf (s.place l f m).1.die).val]
    | none => []
  | _ => []

/-- The longest wake among domains. -/
def State.longestWake (s : State) (doms : List Nat) : Nat :=
  doms.foldl (fun m n => max m (s.domWait (Fin.ofNat 24 n))) 0

/-- The groups of a flash read's peers (R104). -/
def State.peerDoms (s : State) (u : UnitRead) : List Nat :=
  match u.path, u.loc with
  | .primary, some (l, f, m) => (s.peers l f m).map fun p => (groupOf p.2.1.die).val
  | _, _ => []

/-- The wake of a read's peers alone passes a limit: fewer than 14 of the peers in plan have their groups ON by it (R122). -/
def State.peersLate (s : State) (limit : Nat) (u : UnitRead) : Bool :=
  match u.path, u.loc with
  | .primary, some (l, f, m) =>
    let ps := (s.peers l f m).filter fun p => s.dieInPlan p.2.1.die s.turn
    decide (14 ≤ ps.length) &&
      decide ((ps.filter fun p => decide (s.turn + s.domWait (groupOf p.2.1.die) ≤ limit)).length < 14)
  | _, _ => false

end Sys2Proof.Machine
end

