-- ==== Sys2Proof/Machine/Admission.lean ====
section
/-! DEFINITION. The admission decision (chapter 3, R92–R96, R107–R113, R118–R123): kinds and sizes, the drafts of read,
write, Copy and map-only plans, the refusal with its reason and hint, and the commit. -/

namespace Sys2Proof.Machine

/-! ### Kinds, sizes and classes (R92–R94) -/

/-- What a command is to the sluice (Table 03.2). -/
inductive Kind | read | write | copy | mapOnly | zoneSend | zoneReceive | unplanned
  deriving DecidableEq, Repr

def sqeKind (q : Sqe) : Kind :=
  match q.opcode with
  | 0x01 | 0x7D => .write
  | 0x02 | 0x05 | 0x0C => .read
  | 0x08 => .mapOnly
  | 0x09 => if q.ad then .mapOnly else .unplanned
  | 0x19 => .copy
  | 0x79 => .zoneSend
  | 0x7A => .zoneReceive
  | _ => .unplanned

def Cmd.kind (c : Cmd) : Kind := sqeKind c.sqe

/-- Kinds that are writes for scope and for Sealed. -/
def Kind.writes : Kind → Bool
  | .write | .copy | .mapOnly | .zoneSend => true
  | _ => false

/-- Blocks of a list of ranges. -/
def rangeBlocks (l : List (Nat × Nat)) : Nat := l.foldl (fun n r => n + r.2) 0

/-- Blocks of a zone: one granule (R201). -/
def zoneBlocks (ns : Namespace) : Nat := 65536 * 4 * blocksPerSector ns.lbaf

/-- Zones that a Zone Management Send acts on. -/
def sqeZones (q : Sqe) (ns : Namespace) : List Nat := if q.selAll then List.range ns.dataGrans else [q.slba / zoneBlocks ns]

/-- Bytes of zone descriptors that a Zone Management Receive returns: a 64-byte header and 64 bytes for each zone from
SLBA on, up to the length asked for in dwords. -/
def sqeZoneBytes (q : Sqe) (ns : Namespace) : Nat :=
  min (4 * (q.nlb + 1)) (64 + 64 * (ns.dataGrans - q.slba / zoneBlocks ns))

/-- A command's size in bytes (Table 03.2). -/
def sqeSize (q : Sqe) (ns : Namespace) : Nat :=
  let bb := blockBytes ns.lbaf
  match sqeKind q with
  | .mapOnly => if q.opcode = 0x09 then rangeBlocks q.ranges * bb else (q.nlb + 1) * bb
  | .copy => rangeBlocks q.ranges * bb
  | .zoneSend => (sqeZones q ns).length * 2 ^ 30
  | .zoneReceive => sqeZoneBytes q ns
  | .unplanned => 0
  | _ => (q.nlb + 1) * bb

/-- A scope field admits a size (R127). -/
def scopeAdmits (k size : Nat) : Bool := k == 31 || (k != 0 && decide (size ≤ 2 ^ k))

/-- The lowest class from n on whose scope admits a size (R94). -/
def State.effectiveClass (s : State) (write : Bool) (size : Nat) : Nat → Nat → Nat
  | 0, n => n
  | fuel + 1, n =>
    let f := if write then Reg.SLU_CLASS_SCOPE_WRITE_LOG2 n else Reg.SLU_CLASS_SCOPE_READ_LOG2 n
    if 7 ≤ n || scopeAdmits (s.fld f) size then n else s.effectiveClass write size fuel (n + 1)

/-- The class a command is decided under; level 0 is scheduled as DC7 (R79, R96). -/
def State.decideClass (s : State) (c : Cmd) (ns : Namespace) : Nat :=
  if c.level0 || c.cls = 7 then 7 else s.effectiveClass c.kind.writes (sqeSize c.sqe ns) 8 c.cls

/-- The posting limit of a command in a class (R32, R84, R110). -/
def State.limitOf (s : State) (c : Cmd) (cls stamp : Nat) : Nat := stamp + s.fld (Reg.SLU_CLASS_DL_DEADLINE cls) + c.ext - 4

/-! ### What a command reads and writes -/

/-- The global unit of a piece. -/
def State.pieceUnit (s : State) (nsid : Nat) (p : Piece) : Option Nat := s.unitIndex nsid p.unit

/-- Give each piece its unit; none on a table fault. -/
def State.withUnits (s : State) (nsid : Nat) : List Piece → Option (List (Piece × Nat))
  | [] => some []
  | p :: t =>
    match s.pieceUnit nsid p, s.withUnits nsid t with
    | some g, some r => some ((p, g) :: r)
    | _, _ => none

/-- Merge neighbouring runs of blocks by what their data is: a special code, or stored. -/
def mdRuns : List UnitRead → List (Option Nat × Nat × Nat)
  | [] => []
  | u :: t =>
    let k := match u.path with | .special | .lost => u.spec | _ => none
    match mdRuns t with
    | (k', o, n) :: r => if k = k' ∧ u.ofs + u.len = o then (k, u.ofs, u.len + n) :: r else (k, u.ofs, u.len) :: (k', o, n) :: r
    | [] => [(k, u.ofs, u.len)]

/-- The reads of one block range: its data, then its metadata; metadata of blocks that read as special codes needs no
metadata unit (R292, R295). -/
def State.rangeReads (s : State) (own : Slot → Bool) (nsid : Nat) (ns : Namespace) (slba n ofs : Nat) : Option (List UnitRead) := do
  let ps ← s.withUnits nsid (dataPieces ns slba n ofs)
  let data := ps.flatMap fun x => s.pieceReads own x.1 x.2
  if mdBytes ns.lbaf = 0 then pure data
  else do
    let runs := mdRuns data
    let mds ← runs.mapM fun r =>
      match r.1 with
      | some c =>
        pure [({ g := 0, per := 1, at_ := 0, len := r.2.2, ofs := r.2.1, md := true, path := if c = 2 then .lost else .special
                 spec := some c } : UnitRead)]
      | none => do
        let qs ← s.withUnits nsid (mdPieces ns (slba + (r.2.1 - ofs)) r.2.2 r.2.1)
        pure (qs.flatMap fun x => s.pieceReads own x.1 x.2)
    pure (data ++ mds.flatten)

/-- The reads of a list of ranges, the command's blocks counted on from `ofs`. -/
def State.rangesReads (s : State) (own : Slot → Bool) (nsid : Nat) (ns : Namespace) : List (Nat × Nat) → Nat → Option (List UnitRead)
  | [], _ => some []
  | r :: t, ofs => do
    let a ← s.rangeReads own nsid ns r.1 r.2 ofs
    let b ← s.rangesReads own nsid ns t (ofs + r.2)
    pure (a ++ b)

/-- A slot is filled by a write of the same submission queue. -/
def sameSq (r : CmdRef) (x : Slot) : Bool := match x.sq with | some q => q.ctrl == r.ctrl && q.sqid == r.sqid | none => false

/-- Block ranges that a command reads for itself. -/
def Cmd.readRanges (c : Cmd) : List (Nat × Nat) := if c.kind = .copy then c.sqe.ranges else [(c.sqe.slba, c.sqe.nlb + 1)]

/-- The reads of a command, as at the decision. -/
def State.cmdReads (s : State) (c : Cmd) (ns : Namespace) : Option (List UnitRead) :=
  s.rangesReads (sameSq c.ref) c.sqe.nsid ns c.readRanges 0

/-- Sectors of a piece that it covers only in part. -/
def Piece.partials (p : Piece) : List Nat :=
  ((List.range ((p.at_ + p.len - 1) / p.per + 1 - p.at_ / p.per)).map (· + p.at_ / p.per)).filter fun k =>
    !(decide (p.at_ ≤ k * p.per) && decide ((k + 1) * p.per ≤ p.at_ + p.len))

/-- The fill reads of a piece (R193): one for each partly covered sector, behind an older residency of any queue. -/
def State.fillReads (s : State) (p : Piece) (g : Nat) : List UnitRead :=
  p.partials.map fun k =>
    { mkRead ⟨p.unit, p.per, k * p.per, p.per, 0, p.md⟩ g (k, 1, s.source (fun _ => true) g k) with ofs := 0 }

/-- A unit write before it is laid: the older residency is the newest of the unit (R192). -/
def State.mkWrite (s : State) (p : Piece) (g : Nat) : UnitWrite :=
  { g := g, per := p.per, at_ := p.at_, len := p.len, ofs := p.ofs, md := p.md, data := [], slot := 0
    older := (s.newest g).map (·.1) }

/-- A write covers its whole unit, and so moves nothing from an older residency (R192). -/
def UnitWrite.whole (w : UnitWrite) : Bool := w.len == 4 * w.per

/-- The turn before which a unit's write cannot write its copies: after the older residency that it merges with lands and after the booked
map-only steps of the unit (R192, R107). -/
def State.writeAfter (s : State) (w : UnitWrite) : Nat :=
  let older := match w.older with
    | some n => (match s.slot n with | some x => if x.state == .filling && !w.whole then s.copiesOf n + 1 else 0 | none => 0)
    | none => 0
  (s.galley.booked.filter fun b => match b.2.2.2 with | .unit g _ => g == w.g | .sector g _ _ => g == w.g | _ => false).foldl
    (fun m b => max m (b.1 + 1)) older

/-! ### Drafts -/

/-- A plan as composed, before its commit. -/
structure Draft where
  reads : List UnitRead := []
  writes : List UnitWrite := []
  fills : List UnitRead := []
  ops : List (Nat × MapOp) := []
  host : Nat × Nat := (0, 0)
  post : Nat
  effect : Nat := 0
  noSecond : Nat := 0
  deriving DecidableEq, Repr

/-- A read-like draft. -/
def State.draftReads (s : State) (a : Ask) (rs : List UnitRead) (floor : Nat) : Lay Draft := do
  let l ← s.layUnits a rs
  let post := max (gotPost l) floor
  let d : Draft := { reads := l.map (·.u), post := post, effect := post, noSecond := l.foldl (fun n g => n + g.noSecond) 0 }
  if a.limit < post then late else pure d

/-- A draft of unit writes: fills and sources first, the inbound window so that it ends in the turn before the copies,
the copies with the DRAM hold, and posting in the turn after (R107, R192, R193). -/
def State.draftWrites (s : State) (a : Ask) (rs : List UnitRead) (ws : List (Piece × Nat)) (inbound : Nat) (floor : Nat) : Lay Draft := do
  let quiet := { a with link := none }
  let src ← s.layUnits quiet rs
  let fills ← s.layUnits { quiet with tag := 4 * rs.length } (ws.flatMap fun w => s.fillReads w.1 w.2)
  let us := ws.map fun w => s.mkWrite w.1 w.2
  let ready := us.foldl (fun m w => max m (s.writeAfter w)) (max (max (gotWorst src) (gotWorst fills) + 1) floor)
  let h ← s.layHost a false [] inbound (max a.start (ready - 1))
  let last := match a.link with | some _ => h.2 | none => max (a.start - 1) (ready - 1)
  let copies := last + 1 + s.glyHold
  let d : Draft :=
    { reads := src.map (·.u), fills := fills.map (·.u), writes := us.map fun w => { w with copies := copies }
      host := (h.1, last), post := copies + 1, effect := copies, noSecond := (src ++ fills).foldl (fun n g => n + g.noSecond) 0 }
  if a.limit < d.post then late else pure d

/-- The map-only steps of a piece: the whole unit, or its whole sectors (R194, R195). -/
def pieceOps (zeroed : Bool) (p : Piece) (g : Nat) : List MapOp :=
  if p.len = 4 * p.per then [.unit g (if zeroed then 1 else 0)]
  else
    (((List.range 4).filter fun k => decide (p.at_ ≤ k * p.per) && decide ((k + 1) * p.per ≤ p.at_ + p.len))).map fun k =>
      .sector g k (if zeroed then 3 else 2)

/-- Requests that a map-only step hands to the port: a sector's kind takes a new overlay record where its unit has none (R194, R203). -/
def State.opCost (s : State) : MapOp → Nat
  | .unit g _ => if s.needsOverlay g then 2 else 1
  | .sector g _ _ => if s.needsOverlay g then 1 else 5
  | _ => 1

/-- Give each map-only step the turn of its last request among the booked turns (R107). -/
def State.assignOps (s : State) (turns : List (Nat × Nat)) (ops : List MapOp) : List (Nat × MapOp) :=
  let ts := turns.flatMap fun t => List.replicate t.2 t.1
  (ops.foldl (fun (a : List (Nat × MapOp) × Nat) o =>
    let e := a.2 + s.opCost o
    ((ts.getD (e - 1) 0, o) :: a.1, e)) ([], 0)).1.reverse

/-- The port bookings of a plan, earliest first. -/
def portTurns (plan : Nat) (bs : List Booking) : List (Nat × Nat) :=
  (bs.filter fun b => b.plan == plan && b.res == .port).reverse.map fun b => (b.start, b.amt)

/-- A map-only draft: a compute span, and port turns inside it and after it (R107). -/
def State.draftOps (s : State) (a : Ask) (ops : List MapOp) (floor : Nat) : Lay Draft := do
  let first := max (a.t + 1) floor
  let from_ ← if ops.isEmpty then pure first else s.layCompute a first
  let last ← if ops.isEmpty then pure (first - 1) else s.stage a false [] .port 256 (ops.foldl (fun n o => n + s.opCost o) 0) from_ 4
  fun tr =>
    let d : Draft := { ops := s.assignOps (portTurns a.plan tr.bs) ops, post := last + 1, effect := last }
    if a.limit < d.post then .error tr.limiting else .ok (d, tr)

/-! ### Zones (R201, R202) -/

/-- The zone number of a namespace's zone: its granule number. -/
def State.zoneOf (s : State) (nsid z : Nat) : Option Nat := (s.unitIndex nsid (z * 65536)).map (· / 65536)

/-- A zone's state, Empty where it has no entry, and its write pointer: as the steps booked for it will leave them, in decision order
(R202). -/
def State.zone (s : State) (z : Nat) : Nat × Nat :=
  let now : Nat × Nat := match klook z s.galley.zones with
    | some (0, p) => (1, p)
    | some x => x
    | none => (1, 0)
  s.galley.booked.foldl (fun x b =>
    match b.2.2.2 with
    | .zone z' pointer v => if z' = z then (if pointer then (x.1, v) else (v, x.2)) else x
    | _ => x) now

/-- Zone Send Actions: 1 close, 2 finish, 3 open, 4 reset, 5 offline. -/
def State.zoneOps (s : State) (q : Sqe) (ns : Namespace) (z : Nat) : List MapOp :=
  match s.zoneOf q.nsid z with
  | none => []
  | some g =>
    let st := (s.zone g).1
    let units (from_ : Nat) : List MapOp := (List.range (65536 - from_)).map fun u => .unit (g * 65536 + from_ + u) 0
    match q.zsa with
    | 1 => if st = 2 ∨ st = 3 then [.zone g false 4] else []
    | 2 => if st = 0xE then [] else
        units (cdiv (s.zone g).2 (4 * blocksPerSector ns.lbaf)) ++ [.zone g true (zoneBlocks ns), .zone g false 0xE]
    | 3 => if st = 1 ∨ st = 2 ∨ st = 4 then [.zone g false 3] else []
    | 4 => units 0 ++ [.zone g true 0, .zone g false 1]
    | 5 => if st = 0xD then [.zone g false 0xF] else []
    | _ => []

/-- The LBA that a write takes: a Zone Append takes the zone's write pointer at its decision (R202). -/
def State.writeLba (s : State) (c : Cmd) (ns : Namespace) : Nat :=
  if c.sqe.opcode = 0x7D then
    match s.zoneOf c.sqe.nsid (c.sqe.slba / zoneBlocks ns) with
    | some g => c.sqe.slba / zoneBlocks ns * zoneBlocks ns + (s.zone g).2
    | none => c.sqe.slba
  else c.sqe.slba

/-! ### The draft of a command -/

/-- What stops a command before its plan: a table fault (R177). -/
inductive Faulted (α : Type) | fault | ok (a : α)

/-- The pieces that a command writes: its range, or what Write Zeroes writes over through R193. -/
def State.writePieces (_s : State) (c : Cmd) (ns : Namespace) (lba : Nat) : List Piece :=
  match c.kind with
  | .write => dataPieces ns lba (c.sqe.nlb + 1) 0 ++ mdPieces ns lba (c.sqe.nlb + 1) 0
  | .copy => let n := rangeBlocks c.sqe.ranges; dataPieces ns lba n 0 ++ mdPieces ns lba n 0
  | .mapOnly =>
    if c.sqe.opcode = 0x09 then []
    else
      let per := blocksPerSector ns.lbaf
      let a := c.sqe.slba
      let n := c.sqe.nlb + 1
      let front := min n ((per - a % per) % per)
      let back := if front = n then 0 else (a + n) % per
      dataPieces ns a front 0 ++ mdPieces ns a front 0 ++ dataPieces ns (a + n - back) back (n - back) ++
        mdPieces ns (a + n - back) back (n - back)
  | _ => []

/-- The map-only pieces of a command. -/
def opRanges (c : Cmd) : List (Nat × Nat) :=
  if c.kind = .mapOnly then (if c.sqe.opcode = 0x09 then c.sqe.ranges else [(c.sqe.slba, c.sqe.nlb + 1)]) else []

/-- A command's parts: what it reads, the units it writes with their pieces, and its map-only steps; none on a table
fault. -/
structure Parts where
  reads : List UnitRead := []
  writes : List (Piece × Nat) := []
  ops : List MapOp := []

def State.parts (s : State) (c : Cmd) (ns : Namespace) : Option Parts := do
  let k := c.kind
  let reads ← if k = .read ∨ k = .copy then s.cmdReads c ns else pure []
  let writes ← s.withUnits c.sqe.nsid (s.writePieces c ns (s.writeLba c ns))
  let ops ← s.withUnits c.sqe.nsid ((opRanges c).flatMap fun r => dataPieces ns r.1 r.2 0)
  let zeroed := c.sqe.opcode = 0x08 ∧ !c.sqe.deac
  let zops := if k = .zoneSend then (sqeZones c.sqe ns).flatMap (s.zoneOps c.sqe ns) else []
  pure ⟨reads, writes, ops.flatMap (fun x => pieceOps zeroed x.1 x.2) ++ zops⟩

/-- Galley slots that a command needs. -/
def Parts.slots (p : Parts) : Nat := p.writes.length

/-- 4 KiB units of host data that a command debits: a written range, or the partial sectors of a Write Zeroes (R120). -/
def Cmd.units4k (c : Cmd) (ns : Namespace) (p : Parts) : Nat :=
  match c.kind with
  | .write | .copy => cdiv (sqeSize c.sqe ns) 4096
  | .mapOnly => (p.writes.filter fun w => !w.1.md).length
  | _ => 0

/-- The host link of a command's data (R102). -/
def Cmd.link (c : Cmd) : Option (Nat × Bool) :=
  match c.sqe.opcode with
  | 0x02 | 0x7A => some (c.ref.ctrl.val, false)
  | 0x01 | 0x7D | 0x05 => some (c.ref.ctrl.val, true)
  | _ => none

/-- The last planned effect and posting of an ordered queue (R73). -/
def State.orderFloor (s : State) (c : Cmd) : Nat × Nat :=
  if c.ordered then (klook (c.ref.ctrl.val * 65536 + c.ref.sqid) s.sluice.effects).getD (0, 0) else (0, 0)

/-- Sectors that a command moves from the host. -/
def inboundSectors (ws : List (Piece × Nat)) : Nat :=
  ws.foldl (fun n w => n + ((w.1.at_ + w.1.len - 1) / w.1.per + 1 - w.1.at_ / w.1.per)) 0

/-- Compose a command's plan (R110). -/
def State.draft (s : State) (c : Cmd) (ns : Namespace) (p : Parts) (a : Ask) : Lay Draft :=
  let fl := s.orderFloor c
  match c.kind with
  | .read => s.draftReads a p.reads fl.2
  | .write => s.draftWrites a [] p.writes (inboundSectors p.writes) fl.1
  | .copy => s.draftWrites a p.reads p.writes 0 fl.1
  | .mapOnly => do
    let d ← s.draftOps a p.ops fl.1
    if p.writes.isEmpty then pure d
    else do
      let w ← s.draftWrites a [] p.writes 0 fl.1
      pure { w with ops := d.ops, post := max d.post w.post, effect := max d.effect w.effect }
  | .zoneSend => s.draftOps a p.ops fl.1
  | .zoneReceive => do
    let h ← s.layHost a false [] (cdiv (sqeZoneBytes c.sqe ns) 4096) (max a.start fl.2)
    if a.limit < h.2 + 1 then late else pure { host := h, post := h.2 + 1, effect := h.2 }
  | .unplanned => pure { post := a.t + 1 }

/-! ### Trying a plan -/

/-- Galley slots that the weir still admits in the span of a turn (R121). -/
def State.weirLeft (s : State) : Nat :=
  let rate := s.efld Reg.SLU_WEIR_RATE
  if rate = 0x3FFFF then rate else rate - (if s.sluice.weirSpan = s.turn / 16 then s.sluice.weirUsed else 0)

/-- Journal slots that outstanding map-only plans have booked: one for each 256 of their steps still to be applied (R107). -/
def State.jnlBooked (s : State) : Nat :=
  ((s.galley.booked.map (·.2.1)).eraseDups).foldl (fun n id => n + cdiv (s.galley.booked.filter fun b => b.2.1 == id).length 256) 0

/-- Journal slots neither in use nor booked. -/
def State.jnlRoom (s : State) : Nat := 65536 - s.galley.journal.length - s.jnlBooked

/-- The domains on a command's path, its fill reads' among them. -/
def State.pathDoms (s : State) (p : Parts) : List Nat :=
  ((p.reads ++ p.writes.flatMap (fun w : Piece × Nat => s.fillReads w.1 w.2)).flatMap s.readDoms ++ (if p.writes.isEmpty then [] else [11, 12])).eraseDups

/-- The conditions a write meets before its plan is composed (R110): Sealed, allotment, weir; and the journal slots of
map-only steps (R107). The reason where it does not: 04 for journal slots too, and below for port turns and compute, which Table 03.5 does not
name (DESIGN CHOICE, assumption log 161). -/
def State.writeBar (s : State) (c : Cmd) (ns : Namespace) (p : Parts) : Option Nat :=
  if !c.kind.writes then none
  else if s.power.mode == .sealed then some 0xA
  else if s.fld Reg.SLU_ALLOT_BAL_BALANCE < c.units4k ns p then some 5
  else if s.slotRoom < p.slots || s.weirLeft < p.slots || s.jnlRoom < cdiv p.ops.length 256 then some 4
  else none

/-- Compose a plan at the state's turn for a posting limit: the draft with its bookings, or the reason it fails. -/
def State.compose (s : State) (c : Cmd) (ns : Namespace) (p : Parts) (cls limit wake : Nat) (bs : List Booking) :
    Except Nat (Draft × Trial) :=
  let a : Ask := ⟨s.turn, max (s.turn + 1) (s.turn + wake), limit, s.sluice.nextPlan, cls, cls == 7, c.link, 0⟩
  s.draft c ns p a ⟨bs, []⟩

/-- Decide whether a command is accepted at the state's turn (R110, R111, R122). -/
def State.tryPlan (s : State) (c : Cmd) (ns : Namespace) (p : Parts) (cls stamp : Nat) : Except Nat (Draft × Trial) :=
  match s.writeBar c ns p with
  | some r => .error r
  | none =>
    let limit := if cls = 7 then s.turn + 2 * ringLen else s.limitOf c cls stamp
    let wake := s.longestWake (s.pathDoms p)
    match s.compose c ns p cls limit wake s.sluice.bookings with
    | .ok (d, tr) => if s.powerFits s.turn s.sluice.bookings tr.bs then .ok (d, tr) else .error 6
    | .error r =>
      let alone := decide (0 < wake && limit < s.turn + wake) ||
        (r == 7 && (p.reads ++ p.writes.flatMap fun w => s.fillReads w.1 w.2).any (s.peersLate limit))
      .error (if alone then 8 else r)

/-! ### The retry hint (R113) -/

/-- Span edges in (a, b]. -/
def spanEdges (a b : Nat) : Nat := b / 16 - a / 16

/-- The turn by which a slot that a forme program takes is planned to be released: after the last member's planned proof read (R36). -/
def State.releaseTurn (s : State) (p : FormePlan) : Nat :=
  p.members.foldl (fun m x => max m (match x.proof with | some c => c.proof + 1 | none => x.issue + s.learned x.die 3)) 0

/-- The conditions of R113 at a later turn: credits, wakes, and the planned releases of slots. -/
def State.future (s : State) (t : Nat) : State :=
  let freed := (s.flash.plans.filter fun p => decide (s.releaseTurn p ≤ t)).flatMap (·.slots)
  let credit := s.efld Reg.SLU_ALLOT_CREDIT_CREDIT * spanEdges s.turn t
  let ready (d : Domain) : Domain := if d.state == .waking && decide (d.wakeFrom + d.wakeLen ≤ t) then { d with state := .on } else d
  let s := s.setFld Reg.SLU_ALLOT_BAL_BALANCE (min (2 ^ 32 - 1) (s.fld Reg.SLU_ALLOT_BAL_BALANCE + credit))
  let s := s.onGalley fun g => { g with slots := g.slots.filter fun x => !freed.contains x.1 }
  let s := s.onPower fun p => { p with doms := p.doms.map ready }
  { s with turn := t }

/-- The least h, from h on, whose retry is accepted on the unchanged calendar: observed at p + 16h and decided three
turns later. -/
def State.hintFrom (s : State) (c : Cmd) (ns : Namespace) (p : Parts) (cls post : Nat) : Nat → Nat → Nat
  | 0, _ => 0xFFFF
  | fuel + 1, h =>
    match (s.future (post + 16 * h + 3)).tryPlan c ns p cls (post + 16 * h) with
    | .ok _ => h
    | .error _ => s.hintFrom c ns p cls post fuel (h + 1)

/-- The hint of a refusal for a reason decided now (R112, R113). -/
def State.hint (s : State) (c : Cmd) (ns : Namespace) (p : Parts) (cls reason : Nat) : Nat :=
  if reason = 0xA then 0xFFFF else s.hintFrom c ns p cls (s.turn + 1) 0xFFFF 0

/-! ### Accounting and outcomes -/

def State.onCmd (s : State) (r : CmdRef) (f : Cmd → Cmd) : State :=
  s.onHost fun h => { h with cmds := updIf (fun c => c.ref == r) f h.cmds }

def State.cmd (s : State) (r : CmdRef) : Option Cmd := s.host.cmds.find? fun c => c.ref == r

def State.onAcct (s : State) (cls : Nat) (f : ClassAcct → ClassAcct) : State :=
  s.onSluice fun x => { x with acct := vupd x.acct (Fin.ofNat 8 cls) f }

/-- Settle a command's outcome, posted in a turn. -/
def State.settle (s : State) (r : CmdRef) (st : Status) (post : Nat) : State :=
  s.onCmd r fun c => { c with outcome := some (st.sct, st.sc, st.dnr, st.dw0), postAt := some post }

/-- A refusal for reason 08 starts the wake it waited on; any other starts none (R122). -/
def State.wakeFor (s : State) (p : Parts) (reason : Nat) : State :=
  let doms := if reason = 8 then s.pathDoms p ++ (if s.longestWake (s.pathDoms p) = 0 then p.reads.flatMap s.peerDoms else []) else []
  doms.eraseDups.foldl (fun s n => s.touch (Fin.ofNat 24 n) 0x30) s

/-- The hint that a refusal carries: with the wake that it has started under way (R112, R113, Table 03.5). -/
def State.refusalHint (s : State) (c : Cmd) (ns : Namespace) (p : Parts) (cls reason : Nat) : Nat := (s.wakeFor p reason).hint c ns p cls reason

/-- A refusal with its reason and hint: posted in the next turn and counted (R112, R131). A refusal for reason 04 counts as one whose hint is
a lower bound where it has a hint: one with 0xFFFF bounds nothing (R114; DESIGN CHOICE, assumption log 162). -/
def State.refuseWith (s : State) (c : Cmd) (cls reason h : Nat) : State :=
  let s := (s.settle c.ref (St.refused reason h) (s.turn + 1)).addFld (Reg.SLU_REFUSE_COUNT (reason - 1)) 1
  (s.onAcct cls fun x => { x with refused := x.refused + 1 }).onSluice fun x =>
    { x with lowerBound := if reason = 4 && h != 0xFFFF then x.lowerBound + 1 else x.lowerBound }

/-- Refuse a command (R112, R122). -/
def State.refuse (s : State) (c : Cmd) (ns : Namespace) (p : Parts) (cls reason : Nat) : State :=
  (s.wakeFor p reason).refuseWith c cls reason (s.refusalHint c ns p cls reason)

/-! ### The commit -/

/-- The FDP handle of a write: the one its directive names, else the namespace's first (Table 05.5). -/
def handleOf (ns : Namespace) (q : Sqe) : Nat := ns.handles.getD (if q.dtype = 2 then q.dspec else 0) 0

/-- Give each unit write a galley slot (R187, R190). -/
def State.takeSlots (s : State) (c : Cmd) (handle plan : Nat) : List UnitWrite → List UnitWrite × State
  | [] => ([], s)
  | w :: t =>
    let x : Slot := { unit := w.g, state := .filling, order := s.galley.order, plan := plan, sq := some c.ref, handle := handle }
    let a := s.allocSlot x
    let s := a.2.onGalley fun g => { g with order := g.order + 1 }
    let r := s.takeSlots c handle plan t
    ({ w with slot := a.1 } :: r.1, r.2)

/-- Slots that a read pins: the one it reads and the one behind it (R188). -/
def UnitRead.pinned (u : UnitRead) : List Nat := (match u.slot with | some x => [x.1] | none => []) ++ u.prev.toList

/-- Domains that a laid plan holds awake (R122, R436): those on its path and the groups of its second chances. -/
def State.planDoms (s : State) (d : Draft) : List Nat :=
  let us := d.reads ++ d.fills
  let seconds := us.flatMap fun u => (chainDies u.second ++ chainDies u.primary).map fun x => (groupOf x).val
  (us.flatMap s.readDoms ++ seconds ++ (if d.writes.isEmpty then [] else [11, 12])).eraseDups

/-- The stamp line of a flash read (R257, R259). -/
def State.stampLine (s : State) (u : UnitRead) : Option Nat :=
  match u.path, u.loc with
  | .primary, some (l, f, m) => some (s.stampAddr l (f / max 1 s.unitsPerMb) m (s.place l f m).2 / 64)
  | _, _ => none

/-- The stamp walk serves this read: its line is among those of the plan that the turn's 4,096 still take (R259). -/
def State.stampServed (s : State) (turn : Nat) (us : List UnitRead) (u : UnitRead) : Bool :=
  match s.stampLine u with
  | some n => ((us.filterMap s.stampLine).eraseDups.take (4096 - (klook (turn * 16 + 14) s.sluice.lookups).getD 0)).contains n
  | none => false

/-- Count the stamp lines of a plan in its lookup turn. -/
def State.countStamps (s : State) (turn : Nat) (us : List UnitRead) : State :=
  let k := turn * 16 + 14
  let n := (us.filterMap s.stampLine).eraseDups.length
  s.onSluice fun x => { x with lookups := kput k (min 4096 ((klook k x.lookups).getD 0 + n)) x.lookups }

/-- Count a flash read for the read cache and the Dellux ledger (R187, R259). -/
def State.noteRead (s : State) (host served : Bool) (u : UnitRead) : State :=
  match u.path, u.loc with
  | .primary, some (l, f, m) =>
    let x := s.place l f m
    let s := if served then s.countDellux l (f / max 1 s.unitsPerMb) m x.2 x.1.die
      else (s.addFld Reg.LDP_DLX_MISS_COUNT 1).onFlash fun x => { x with misses := x.misses + 1 }
    if host && !u.md then s.onGalley fun g => { g with hits := kput u.g ((klook u.g g.hits).getD 0 + 1) g.hits } else s
  | _, _ => s

/-- The step of SOFT_DELTA at which read i of a soft chain senses (Table 07.5): −1, +1, −2, +2, −3, +3. -/
def softStep (soft : Bool) (i : Nat) : Int := if !soft then 0 else if i % 2 = 0 then -(i / 2 + 1 : Nat) else (i / 2 + 1 : Nat)

/-- Threshold offsets moved by a step of SOFT_DELTA; around the die's default thresholds where there are none. Without a template no offset is
sent (R163). -/
def State.sensed (s : State) (r : DieRead) (step : Int) (o : Option (List Int)) : Option (List Int) :=
  if step = 0 then o
  else if s.fld (Reg.FCE_THR_DESC0_LEN (r.die / 16)) = 0 then none
  else
    let base := o.getD ((s.pageLevels (s.pageType (s.pageOf r.page))).map fun _ => 0)
    some (base.map fun x => clampInt (-128) 127 (x + step * (s.fld Reg.LDP_CFG_SOFT_DELTA : Nat)))

/-- Give the reads of a chain their threshold offsets by one stamp: each die's own media temperature and trim, a peer's among them (R260,
R262); the extra reads of a soft step sense around them (R253). -/
def State.offset (s : State) (stamp age wear : Nat) (c : Chain) : Chain :=
  { c with reads := c.reads.zipIdx.map fun x =>
      { x.1 with thr := s.sensed x.1 (softStep c.soft x.2) (s.offsetsFor stamp x.1.page x.1.die age wear) } }

/-- Choose a flash read's thresholds, for every chain of its plan: the die's default ones where the stamp walk does not serve it (R259). -/
def State.choose (s : State) (served : Bool) (u : UnitRead) : UnitRead :=
  match u.path, u.loc with
  | .primary, some (l, f, m) =>
    let x := s.place l f m
    let st := if served then s.stampOf l (f / max 1 s.unitsPerMb) m x.2 else 0
    { u with thr := s.offsetsFor st x.2 x.1.die 0 0, primary := u.primary.map (s.offset st 0 0), retry := u.retry.map (s.offset st 0 0)
             second := u.second.map (s.offset st 0 0) }
  | _, _ => u

/-- The zone updates of an accepted write, Zone Append, Copy or Write Zeroes: the write pointer advances, and the zone opens or
fills (R202). The port applies them at the edge that closes the decision's turn (R203). -/
def State.zoneAdvance (s : State) (c : Cmd) (ns : Namespace) (lba : Nat) : List MapOp :=
  let n := match c.kind with | .copy => rangeBlocks c.sqe.ranges | _ => c.sqe.nlb + 1
  if !(ns.zoned && (c.kind == .write || c.kind == .copy || c.sqe.opcode == 0x08)) then []
  else
    match s.zoneOf c.sqe.nsid (lba / zoneBlocks ns) with
    | none => []
    | some z =>
      let p := lba % zoneBlocks ns + n
      let st := if zoneBlocks ns ≤ p then 0xE else if (s.zone z).1 = 1 ∨ (s.zone z).1 = 4 then 2 else (s.zone z).1
      .zone z true p :: (if st = (s.zone z).1 then [] else [.zone z false st])

/-- Commit a draft (R22, R110): bookings, slots, pins, debits, wakes, the plan and the command's new phase. The slots that it reads are
pinned before it takes any (R188). -/
def State.commit (s : State) (c : Cmd) (ns : Namespace) (p : Parts) (cls : Nat) (d : Draft) (tr : Trial) : State :=
  let id := s.sluice.nextPlan
  let lba := s.writeLba c ns
  let doms := s.planDoms d
  let ord := s.galley.order
  let us := d.reads ++ d.fills
  let s := (us.flatMap UnitRead.pinned ++ d.writes.filterMap (·.older)).foldl (fun s n => s.pin n id) s
  let zops := s.zoneAdvance c ns lba
  let t := s.takeSlots c (handleOf ns c.sqe) id d.writes
  let s := t.2
  let look := c.fetched + 1
  let base := s
  let reads := d.reads.map fun u => base.choose (base.stampServed look us u) u
  let s := us.foldl (fun s u => s.noteRead (c.sqe.opcode == 0x02) (base.stampServed look us u) u) s
  let s := if (us.filterMap base.stampLine).isEmpty then s else s.countStamps look us
  let s := s.onGalley fun g =>
    { g with
      order := if d.ops.isEmpty then g.order else g.order + 1
      booked := g.booked ++ zops.map (fun o => (base.turn, id, ord, o)) ++ d.ops.map fun o => (o.1, id, ord, o.2) }
  let s := doms.foldl (fun s n => s.touch (Fin.ofNat 24 n) 0x30) s
  let plan : Plan :=
    { id := id, ref := some c.ref, decided := s.turn, limit := if cls = 7 then none else some (s.limitOf c cls c.stamp), cls := cls
      reads := reads, writes := t.1, fills := d.fills, host := d.host, post := d.post, first := s.turn + 1
      mapOnly := d.writes.isEmpty && !d.ops.isEmpty, doms := doms, slots := t.1.map (·.slot) }
  let key := c.ref.ctrl.val * 65536 + c.ref.sqid
  let span := s.turn / 16
  let s := (s.subFld Reg.SLU_ALLOT_BAL_BALANCE (c.units4k ns p)).addFld Reg.SLU_CULV_NO_SECOND d.noSecond
  let s := s.onSluice fun x =>
    { x with
      bookings := tr.bs, plans := x.plans ++ [plan], nextPlan := id + 1
      weirSpan := span, weirUsed := (if x.weirSpan = span then x.weirUsed else 0) + t.1.length
      effects := if c.ordered then kput key (max d.effect (s.orderFloor c).1, max d.post (s.orderFloor c).2) x.effects else x.effects }
  (s.onAcct cls fun x => { x with accepted := x.accepted + 1 }).onCmd c.ref fun k =>
    { k with phase := .accepted, limit := plan.limit.getD 0, plan := id, cls := cls, lba := lba, slots := plan.slots }

/-! ### The decision -/

/-- Map lines that a command's walk reads, by DRAM channel (R181, R347). -/
def State.mapLines (s : State) (p : Parts) (c : Cmd) : List Nat :=
  if c.kind = .read ∨ c.kind = .copy then
    ((p.reads.filter fun u => !(u.md && u.spec.isSome)).map fun u => s.mapAddr u.g / 64).eraseDups
  else []

/-- Lines a lookup turn has served: in all, and on a channel. -/
def State.linesUsed (s : State) (turn k : Nat) : Nat := (klook (turn * 16 + k) s.sluice.lookups).getD 0

/-- The DRAM channel of a map line. -/
def State.lineChan (s : State) (line : Nat) : Nat := (s.sliceOf ((line * 64 - dramBase) / 4096)).1

/-- The walk fits its lookup turn: 4,096 lines in all, and each channel's SC0 share. -/
def State.linesFit (s : State) (c : Cmd) (lines : List Nat) : Bool :=
  let t := c.fetched + 1
  decide (s.linesUsed t 15 + lines.length ≤ 4096) &&
    (List.range 12).all fun ch =>
      decide (s.linesUsed t ch + (lines.filter fun l => s.lineChan l == ch).length ≤ 16 * s.fld (Reg.DMC_BUDGET_SC0_KIB ch)) ||
        !(lines.any fun l => s.lineChan l == ch)

def State.countLines (s : State) (c : Cmd) (lines : List Nat) : State :=
  let add (k n : Nat) (s : State) : State :=
    s.onSluice fun x => { x with lookups := kput ((c.fetched + 1) * 16 + k) (s.linesUsed (c.fetched + 1) k + n) x.lookups }
  lines.foldl (fun s l => add (s.lineChan l) 1 s) (add 15 lines.length s)

/-- A map line of the walk is uncorrectable (R302, R355). -/
def State.badLine (s : State) (lines : List Nat) : Option Nat :=
  lines.find? fun l => (List.range 8).any fun i => match s.checkWord (l * 64 + 8 * i) with | .uncorrectable _ => true | _ => false

/-- Hold a best-effort command until a background plan fits (R96). -/
def State.holdBest (s : State) (c : Cmd) : State := s.onCmd c.ref fun k => { k with phase := .held, cls := 7 }

/-- The unit number of the namespace whose walk meets a table fault. -/
def State.faultUnit (s : State) (c : Cmd) (ns : Namespace) : Nat :=
  let reads := if c.kind = .read ∨ c.kind = .copy then c.readRanges else []
  let ps := (reads ++ opRanges c).flatMap (fun r => dataPieces ns r.1 r.2 0 ++ mdPieces ns r.1 r.2 0) ++ s.writePieces c ns (s.writeLba c ns)
  ((ps.find? fun p => (s.pieceUnit c.sqe.nsid p).isNone).map (·.unit)).getD 0

/-- A table fault ends the command with Internal Error and is logged with its namespace and unit number (R177). -/
def State.tableFault (s : State) (c : Cmd) (ns : Namespace) : State :=
  (s.settle c.ref St.internal s.turn).logUncoded .tableFault 0x3FF (c.sqe.nsid + s.faultUnit c ns * 2 ^ 32)

/-- Decide one command (R110); while a DRAM half searches, every command is refused with reason 08 (R443). -/
def State.decideOne (s : State) (c : Cmd) : State :=
  match s.ns c.sqe.nsid with
  | none => s.settle c.ref St.invalidNamespace (s.turn + 1)
  | some ns =>
    match s.parts c ns with
    | none => s.tableFault c ns
    | some p =>
      let cls := s.decideClass c ns
      let lines := s.mapLines p c
      if cls = 7 then (if s.linesFit c lines then s.countLines c lines else s).holdBest c
      else
        let s := if cls = c.cls then s else s.onAcct cls fun x => { x with reclassed := x.reclassed + 1 }
        match s.writeBar c ns p with
        | some r => s.refuse c ns p cls r
        | none =>
          if !s.memory.searching.isEmpty then s.refuseWith c cls 8 0xFFFF
          else if !s.linesFit c lines then s.refuseWith c cls 9 1
          else
            let s := s.countLines c lines
            match s.badLine lines with
            | some l => (s.uncorrectable 0x30 (l * 64) 2 false).refuseWith c cls 9 0xFFFF
            | none =>
              match s.tryPlan c ns p cls c.stamp with
              | .ok (d, tr) => s.commit c ns p cls d tr
              | .error r => s.refuse c ns p cls r

/-! ### Which commands are due -/

/-- Commands that read the map wait for both DRAM halves to be ON (R444). -/
def State.dramOn (s : State) : Bool := (s.isOn 11 && s.isOn 12) || (s.dom 11).state == .retired || (s.dom 12).state == .retired

/-- A command's walk needs overlay records, read a turn later (R110). -/
def State.overlayWalk (s : State) (c : Cmd) : Bool :=
  match s.ns c.sqe.nsid with
  | none => false
  | some ns =>
    if c.kind = .read ∨ c.kind = .copy then
      c.readRanges.any fun r => (dataPieces ns r.1 r.2 0 ++ mdPieces ns r.1 r.2 0).any fun p =>
        match s.pieceUnit c.sqe.nsid p with | some g => s.needsOverlay g | none => false
    else false

/-- A command counts as accepted for the commands behind it on an ordered queue: a best-effort one from the turn after its background plan
is committed (R73). -/
def State.countsAccepted (s : State) (k : Cmd) : Bool :=
  (k.phase == .accepted || k.phase == .started) && (k.cls != 7 || !s.sluice.plans.any fun p => p.id == k.plan && decide (s.turn ≤ p.decided))

/-- Every earlier command of an ordered queue has been accepted (R73), or is one that needs no plan. -/
def State.orderReady (s : State) (c : Cmd) : Bool :=
  !c.ordered || s.host.cmds.all fun k =>
    !(k.ref.ctrl == c.ref.ctrl && k.ref.sqid == c.ref.sqid && decide (k.order < c.order)) || s.countsAccepted k ||
      (match k.outcome with | some (0, 0, _) => true | _ => false)

/-- A command is due for its decision. -/
def State.due (s : State) (c : Cmd) : Bool :=
  c.phase == .fetched && c.outcome.isNone && c.kind != .unplanned && decide (c.fetched + 2 + (if s.overlayWalk c then 1 else 0) ≤ s.turn) &&
    (s.dramOn || !s.memory.searching.isEmpty || c.kind == .write) && s.orderReady c && !s.sluice.hold

/-- Before: earlier stamp, controller 0 first, fetch order (R110). -/
def Cmd.before (a b : Cmd) : Bool :=
  decide (a.stamp < b.stamp) ||
    (a.stamp == b.stamp && (decide (a.ref.ctrl.val < b.ref.ctrl.val) || (a.ref.ctrl == b.ref.ctrl && decide (a.order < b.order))))

/-- The first due command in decision order. -/
def State.nextDue (s : State) : Option Cmd :=
  s.host.cmds.foldl (fun best c => if s.due c then (match best with | some b => if c.before b then some c else some b | none => some c) else best)
    none

/-- Decide due commands in order, until none is left or a test on the next one says to stop. -/
def State.decideWhile (go : Cmd → Bool) : Nat → State → State
  | 0, s => s
  | fuel + 1, s =>
    match s.nextDue with
    | some c => if go c then State.decideWhile go fuel (s.decideOne c) else s
    | none => s

/-- Decide every command that is due. -/
def State.decideDue (s : State) : State := State.decideWhile (fun _ => true) s.host.cmds.length s

/-- ADMISSION_DECISION (R110). -/
def execAdmissionDecision (s : State) : Out := .next s.decideDue

/-- Commit a held command's background plan where everything admits it (R96); one decided after Sealed entry ends with
Namespace Is Write Protected. -/
def State.commitBest (s : State) (c : Cmd) : State :=
  match s.ns c.sqe.nsid with
  | none => s.settle c.ref St.invalidNamespace (s.turn + 1)
  | some ns =>
    if c.kind.writes && s.power.mode == .sealed then s.settle c.ref St.writeProtected (s.turn + 1)
    else
      match s.parts c ns with
      | none => s.tableFault c ns
      | some p =>
        match s.tryPlan c ns p 7 c.stamp with
        | .ok (d, tr) => s.commit c ns p 7 d tr
        | .error r => if r = 8 then (s.pathDoms p).foldl (fun s n => s.touch (Fin.ofNat 24 n) 0x30) s else s

/-- BEST_EFFORT_COMMIT (R96). -/
def execBestEffortCommit (r : CmdRef) (s : State) : Out :=
  .next (match s.cmd r with
    | some c => if c.phase == .held && c.outcome.isNone then s.commitBest c else s
    | none => s)

/-- The decisions up to and including one command, where it is of the kind that the row names. -/
def State.decideUpTo (s : State) (r : CmdRef) (k : Nat → Bool) : State :=
  match s.cmd r with
  | some c =>
    if k c.sqe.opcode && s.due c then State.decideWhile (fun d => d.ref == r || d.before c) s.host.cmds.length s else s
  | none => s

/-- WRITE (R107). -/
def execWrite (r : CmdRef) (s : State) : Out := .next (s.decideUpTo r (· == 0x01))

/-- READ (R103). -/
def execRead (r : CmdRef) (s : State) : Out := .next (s.decideUpTo r (· == 0x02))

/-- COMPARE (R102). -/
def execCompare (r : CmdRef) (s : State) : Out := .next (s.decideUpTo r (· == 0x05))

/-- WRITE_ZEROES (R195). -/
def execWriteZeroes (r : CmdRef) (s : State) : Out := .next (s.decideUpTo r (· == 0x08))

/-- VERIFY (R93). -/
def execVerify (r : CmdRef) (s : State) : Out := .next (s.decideUpTo r (· == 0x0C))

/-- COPY (R197). -/
def execCopy (r : CmdRef) (s : State) : Out := .next (s.decideUpTo r (· == 0x19))

/-- ZONE_MANAGEMENT_SEND (R201). -/
def execZoneManagementSend (r : CmdRef) (s : State) : Out := .next (s.decideUpTo r (· == 0x79))

/-- ZONE_MANAGEMENT_RECEIVE (R201). -/
def execZoneManagementReceive (r : CmdRef) (s : State) : Out := .next (s.decideUpTo r (· == 0x7A))

/-- ZONE_APPEND (R202). -/
def execZoneAppend (r : CmdRef) (s : State) : Out := .next (s.decideUpTo r (· == 0x7D))

end Sys2Proof.Machine
end

