-- ==== Sys2Proof/Machine/Board.lean ====
section
/-! DEFINITION. What the board carries (R136–R138, R179, R184, R340, R341): its DRAM and flash populations, the limits on them, and the
capacities that follow. -/

namespace Sys2Proof

/-! ### The board's populations (R136–R138, R179, R184, R340, R341) -/

/-- A population of Table 10.1 at a supported rate. -/
def DramPop.supported (p : DramPop) : Bool :=
  p.ok && decide (p.rate ≤ 2) && decide (p.density ≤ 2) && (!p.ranks2 || p.density == 0) && (!p.x4 || (!p.ranks2 && p.density == 0 && !p.half))

/-- Data capacity of a channel, in GiB. -/
def DramPop.gib (p : DramPop) : Nat :=
  let full := if p.x4 || p.ranks2 then 32 else [16, 24, 32].getD p.density 16
  if p.half then full / 2 else full

def Board.pop (b : Board) (c : Nat) : Option DramPop := b.dram.getD c none

/-- Populated pairs: channels from 0 up without a gap. -/
def Board.pairs (b : Board) : Nat := ((List.range 6).takeWhile fun i => (b.pop i).isSome).length

/-- The first channel that breaks the population rules (R341). -/
def Board.dramBad (b : Board) : Option Nat :=
  let k := b.pairs
  if k < 2 then some k
  else (List.range 12).find? fun c =>
    match b.pop c with
    | some p => !decide (c % 6 < k) || !p.supported || b.pop 0 != some p
    | none => decide (c % 6 < k)

/-- Channels in use: those of pairs in which both train. -/
def Board.dramUsed (b : Board) : List Nat :=
  (List.range 12).filter fun c => (b.pop c).isSome && !b.dramFail.contains (c % 6) && !b.dramFail.contains (c % 6 + 6)

def Board.ceCount (b : Board) (ch ce : Nat) : Nat :=
  let n := match b.diesPerCe[ch]? with | some p => if ce = 0 then p.1 else p.2 | none => 0
  min n (if b.geom.toggle then min 4 b.geom.luns else 8)

/-- The positions present on a channel. -/
def Board.positions (b : Board) (ch : Nat) : List Nat := List.range (b.ceCount ch 0) ++ (List.range (b.ceCount ch 1)).map (· + 8)

def Board.diesOn (b : Board) : List Nat := (List.range 64).flatMap fun c => (b.positions c).map (· + 16 * c)

/-- The limits of Table 04.2. -/
def DieGeom.accepted (g : DieGeom) : Bool :=
  (g.pageKiB == 4 || g.pageKiB == 8 || g.pageKiB == 16) && decide (405 * (g.pageKiB / 4) ≤ g.spare) && decide (1 ≤ g.planes) && decide (g.planes ≤ 6) && (g.multiPlane || g.planes == 1) &&
  decide (1 ≤ g.bpc) && decide (g.bpc ≤ 4) && decide (g.pagesPerBlock * g.pageKiB ≤ 131072) && decide (g.blocksPerPlane ≤ 65535) &&
  decide (g.planes * g.blocksPerPlane * g.pagesPerBlock * g.pageKiB ≤ 2 ^ 28) && (g.luns == 1 || g.luns == 2 || g.luns == 4) && g.suspend && g.slc &&
  decide (g.tR ≤ 1023) && decide (g.tSuspP ≤ 255) && decide (g.tSuspE ≤ 255) && decide (g.tProg ≤ 4095) && decide (g.tErs ≤ 16383)

/-- The first position whose die is not accepted, or differs from die 0. -/
def Board.geomBad (b : Board) : Option Nat := if b.geom.accepted then b.diesOn.find? b.oddDies.contains else b.diesOn.head?

/-- 16 KiB units of a member block. -/
def DieGeom.units (g : DieGeom) : Nat := g.planes * g.pagesPerBlock * g.pageKiB / 16

/-- Units of raw capacity. -/
def Board.rawUnits (b : Board) : Nat := b.diesOn.length * b.geom.blocksPerPlane * b.geom.units

/-- The lane count (R179). -/
def Board.lanes (b : Board) : Nat := if b.rawUnits ≤ 2 ^ 32 then 1 else if b.rawUnits ≤ 2 ^ 33 then 2 else 4

/-- The first channel whose lanes do not hold the same number of dies (R179). -/
def Board.laneBad (b : Board) : Option Nat :=
  (List.range 64).find? fun c =>
    let count (l : Nat) : Nat := ((b.positions c).filter fun p => p % b.lanes == l).length
    (List.range b.lanes).any fun l => count l != count 0

/-- DRAM in GiB that Table 05.3 requires with k pairs. -/
def Board.dramNeed (b : Board) (k : Nat) : Rat :=
  let c : Rat := (b.rawUnits : Rat) / 2 ^ 26
  c / 4 + c / 16 + 10 * (k : Rat) / ((k : Rat) - 1) + 4

def Board.dramGib (b : Board) : Nat := b.dramUsed.length * ((b.pop 0).getD {}).gib

end Sys2Proof
end

