-- ==== Sys2Proof/Machine/Dram.lean ====
section
/-! DEFINITION. Commands on the DRAM channels (chapter 10, R344–R355, R366–R371): training helpers, mode registers,
zero-fill, uncorrectable errors and block remap, hammered rows, refresh. -/

namespace Sys2Proof.Machine

/-- The DMC half that holds a channel. -/
def dmcDomain (ch : Nat) : Fin 24 := if ch < 6 then 11 else 12

/-! ### Training (R344, R368) -/

/-- GO of TRAIN_CTRL with an operation: the helper runs until TRAINING_DONE; a GO while one runs is ignored. That training
never runs in Service (R344) is controller firmware's rule: it asks for none there. -/
def State.startTraining (s : State) (ch op : Nat) : State :=
  if s.flag (Reg.DMC_TRAIN_RESULT_BUSY ch) then s
  else s.setFlds [(Reg.DMC_TRAIN_CTRL_OP ch, op), (Reg.DMC_TRAIN_CTRL_GO ch, 1), (Reg.DMC_TRAIN_RESULT_BUSY ch, 1),
    (Reg.DMC_TRAIN_RESULT_PASS ch, 0), (Reg.DMC_TRAIN_RESULT_ERRORS ch, 0)]

/-- The setup write that starts a helper: client 0x060, the rider, runs controller firmware's training in Boot. -/
def State.trainingGo (s : State) (ch : Fin 12) (op : Nat) (i : Instr) : State :=
  s.setupWrite 0x60 (Reg.DMC_TRAIN_CTRL ch) (BitVec.ofNat 32 (1 + op * 2)) i fun s => s.startTraining ch op

/-- TRAINING_WRITE_PATTERN (R368), OP 0. -/
def execTrainingWritePattern (ch : Fin 12) (s : State) : Out := .next (s.trainingGo ch 0 (.trainingWritePattern ch))

/-- TRAINING_READ_COMPARE (R368), OP 1. -/
def execTrainingReadCompare (ch : Fin 12) (s : State) : Out := .next (s.trainingGo ch 1 (.trainingReadCompare ch))

/-- TRAINING_WRITE_READ_COMPARE (R368), OP 2. -/
def execTrainingWriteReadCompare (ch : Fin 12) (s : State) : Out := .next (s.trainingGo ch 2 (.trainingWriteReadCompare ch))

/-- ZQ_CALIBRATION (R368), OP 3. -/
def execZqCalibration (ch : Fin 12) (s : State) : Out := .next (s.trainingGo ch 3 (.zqCalibration ch))

/-- TRAINING_DONE (R368): the operation ends; a compare reports its error count and failing lanes. -/
def execTrainingDone (ch : Fin 12) (errors lanes : Nat) (s : State) : Out :=
  .next (if s.flag (Reg.DMC_TRAIN_RESULT_BUSY ch) then
      let cmp := s.fld (Reg.DMC_TRAIN_CTRL_OP ch) == 1 || s.fld (Reg.DMC_TRAIN_CTRL_OP ch) == 2
      let l := if cmp then lanes else 0
      s.setFlds [(Reg.DMC_TRAIN_RESULT_BUSY ch, 0), (Reg.DMC_TRAIN_CTRL_GO ch, 0),
        (Reg.DMC_TRAIN_RESULT_PASS ch, if l % 2 ^ 40 = 0 then 1 else 0),
        (Reg.DMC_TRAIN_RESULT_ERRORS ch, if cmp then sat 0xFFFF errors else 0),
        (Reg.DMC_TRAIN_LANES_LO_LANES ch, l), (Reg.DMC_TRAIN_LANES_HI_LANES ch, l / 2 ^ 32),
        (Reg.DMC_EVENT_TRAIN_DONE ch, 1)]
    else s)

/-! ### Mode registers (R368) -/

/-- The key of a device mode register. -/
def modeKey (ch mr : Nat) (subch rank : Bool) : Nat := ((ch * 2 + subch.toNat) * 2 + rank.toNat) * 256 + mr

/-- The word that MRW takes. -/
def mrwWord (mr data : Nat) (subch rank read : Bool) : Word :=
  BitVec.ofNat 32 (mr + data * 256 + subch.toNat * 2 ^ 16 + rank.toNat * 2 ^ 17 + read.toNat * 2 ^ 18 + 2 ^ 19)

/-- MODE_REGISTER_WRITE (R368): the device takes the data, and GO reads 0 again. -/
def execModeRegisterWrite (ch : Fin 12) (mr data : Byte) (subch rank : Bool) (s : State) : Out :=
  .next (s.setupWrite 0x60 (Reg.DMC_MRW ch) (mrwWord mr.toNat data.toNat subch rank false)
    (.modeRegisterWrite ch mr data subch rank) fun s =>
      (s.setFlds [(Reg.DMC_MRW_MR ch, mr.toNat), (Reg.DMC_MRW_DATA ch, data.toNat), (Reg.DMC_MRW_SUBCH ch, subch.toNat),
        (Reg.DMC_MRW_RANK ch, rank.toNat), (Reg.DMC_MRW_READ ch, 0), (Reg.DMC_MRW_GO ch, 0)]).onMemory fun m =>
        { m with modeRegs := kput (modeKey ch mr.toNat subch rank) data.toNat m.modeRegs })

/-- MODE_REGISTER_READ (R368): RDATA takes the device's mode register; one that no command has written holds a value the
spec does not give. -/
def execModeRegisterRead (ch : Fin 12) (mr : Byte) (subch rank : Bool) (s : State) : Out :=
  .next (s.setupWrite 0x60 (Reg.DMC_MRW ch) (mrwWord mr.toNat 0 subch rank true) (.modeRegisterRead ch mr subch rank) fun s =>
    let k := modeKey ch mr.toNat subch rank
    let d := (klook k s.memory.modeRegs).getD ((Config.freeWord s.free).toNat % 256)
    (s.setFlds [(Reg.DMC_MRW_MR ch, mr.toNat), (Reg.DMC_MRW_SUBCH ch, subch.toNat), (Reg.DMC_MRW_RANK ch, rank.toNat),
      (Reg.DMC_MRW_READ ch, 1), (Reg.DMC_MRW_GO ch, 0), (Reg.DMC_MRW_RDATA ch, d)]).tookFree)

/-! ### Zero-fill (R345) -/

/-- ZERO_FILL (R345): the fill of the whole channel starts; accesses to it stall until it ends. -/
def execZeroFill (ch : Fin 12) (s : State) : Out :=
  .next (s.setupWrite 0x60 (Reg.DMC_FILL ch) 1 (.zeroFill ch) fun s =>
    s.setFlds [(Reg.DMC_FILL_GO ch, 1), (Reg.DMC_FILL_DONE ch, 0), (Reg.DMC_STATUS_STATE ch, 2)])

/-- A byte of the interleaved space lies on a channel. -/
def State.onChannel (s : State) (ch a : Nat) : Bool := isDram a && (s.sliceOf ((a - dramBase) / 4096)).1 == ch

/-- FILL_DONE (R345): the channel holds zeros with valid check bits; it reads ready from the next turn edge on. -/
def execFillDone (ch : Fin 12) (s : State) : Out :=
  .next (if s.flag (Reg.DMC_FILL_GO ch) then
      (s.setFlds [(Reg.DMC_FILL_GO ch, 0), (Reg.DMC_FILL_DONE ch, 1),
        (Reg.DMC_EVENT_FILL_DONE ch, 1)]).onMemory fun m =>
        { m with bytes := m.bytes.filter (fun c => !s.onChannel ch c.1), flips := m.flips.filter fun f => !s.onChannel ch f.1 }
    else s)

/-! ### Uncorrectable blocks (R351–R354) -/

/-- The error counter of a slice in this rotation (R367). -/
def sliceUe (ch i : Nat) : Fld :=
  match i with
  | 0 => Reg.DMC_SLICE_UE_UE_0 ch
  | 1 => Reg.DMC_SLICE_UE_UE_1 ch
  | 2 => Reg.DMC_SLICE_UE_UE_2 ch
  | _ => Reg.DMC_SLICE_UE_UE_3 ch

/-- Bit i of FAILING or RETIRED. -/
def State.sliceBit (s : State) (f : Fld) (i : Nat) : Bool := s.fld f / 2 ^ i % 2 == 1

/-- Remapped blocks of a slice. -/
def State.remappedOn (s : State) (ch i : Nat) : Nat :=
  (s.memory.remaps.filter fun r => (s.sliceOf r.block).1 == ch && s.sliceIndex r.block == i).length

/-- The next free target of the remap reserve on a slice other than the failing one: the reserve is 192 MiB at
REMAP_BASE, 49,152 blocks (R352). -/
def State.remapTarget (s : State) (block : Nat) : Option Nat :=
  let base := s.fld Reg.DMC_REMAP_BASE_BASE_GIB * 2 ^ 18
  ((List.range 49152).find? fun k =>
    s.sliceOf (base + k) != s.sliceOf block && !s.memory.remaps.any (fun r => r.target == base + k)).map (base + ·)

/-- A slice becomes failing (R353): its record names the device that the compare helper finds, which is the free
choice of the failing rows, and the mirror move starts in the turn after. -/
def State.sliceFails (s : State) (ch i : Nat) : State :=
  let s := (s.setFld (Reg.DMC_STATUS_FAILING ch) (setBitNat (s.fld (Reg.DMC_STATUS_FAILING ch)) i)).setFld
    (Reg.DMC_EVENT_SLICE_FAILING ch) 1
  ((s.retireRecord 7 0x0A (ch + 256 * ((Config.freeNat s.free) % 40)) 0).tookFree).onMemory fun m =>
    { m with moveFor := some ch }

/-- A slice's capacity in GiB (R342). -/
def State.sliceGib (s : State) : Rat := (s.fld Reg.DMC_LAYOUT_CHAN_GIB : Rat) / (if s.flag Reg.DMC_LAYOUT_HALF then 1 else 2)

/-- Slices that are retired. -/
def State.retiredSlices (s : State) : Nat := (List.range 12).foldl (fun n c => n + popCount 4 (s.fld (Reg.DMC_STATUS_RETIRED c))) 0

/-- SPARE (R354, R371): the DRAM above the requirement that no retired slice uses up, and whether a slice of it is left
(DEDUCED, assumption log 186). -/
def State.countSpare (s : State) : State :=
  let left : Rat := (s.board.dramGib : Rat) - s.board.dramNeed (s.fld Reg.DMC_LAYOUT_K) - (s.retiredSlices : Rat) * s.sliceGib
  s.setFlds [(Reg.DMC_SPARE_GIB, left.floor.toNat), (Reg.DMC_SPARE_SPARE_OK, (decide (s.sliceGib ≤ left)).toNat)]

/-- A slice is retired (R354): onto spare DRAM where SPARE_OK is 1, which is then spare no longer; otherwise the fault is handled as R43. -/
def State.sliceRetires (s : State) (ch i : Nat) : State :=
  let s := (s.setFld (Reg.DMC_STATUS_RETIRED ch) (setBitNat (s.fld (Reg.DMC_STATUS_RETIRED ch)) i)).setFld
    (Reg.DMC_EVENT_SLICE_RETIRED ch) 1
  if s.flag Reg.DMC_SPARE_SPARE_OK then s.countSpare.retireRecord 7 0x0A ch 0
  else s.permanentFault

/-- An uncorrectable error in a block of the interleaved space: the slice's count, the block's remap where it has none, the
slice's failure, and its retirement on a further error once the table is full (R352–R354). -/
def State.blockError (s : State) (client block : Nat) : State :=
  let ch := (s.sliceOf block).1
  let i := s.sliceIndex block
  let s := s.addFld (sliceUe ch i) 1
  let failing := s.sliceBit (Reg.DMC_STATUS_FAILING ch) i
  let s :=
    if s.memory.remaps.any (fun r => r.block == block) then s
    else if s.fld (Reg.DMC_REMAP_USED ch) ≥ 4096 then
      if failing && !s.sliceBit (Reg.DMC_STATUS_RETIRED ch) i then s.sliceRetires ch i else s
    else match s.remapTarget block with
      | none => s
      | some t =>
        let s := (((s.onMemory fun m => { m with remaps := m.remaps ++ [⟨block, t, true, []⟩] }).addFld
          (Reg.DMC_REMAP_USED ch) 1).setFld (Reg.DMC_EVENT_UE_REMAP ch) 1).logUncoded .remap client block
        if s.fld (Reg.DMC_REMAP_USED ch) ≥ 4096 then
          s.setFlds [(Reg.DMC_STATUS_REMAP_FULL ch, 1), (Reg.DMC_EVENT_REMAP_FULL ch, 1)]
        else s
  if !failing && (decide (s.fld (sliceUe ch i) ≥ 8) || decide (s.remappedOn ch i > 1024)) then s.sliceFails ch i else s

/-- DRAM_UNCORRECTABLE (R352): a requester meets a double-bit error in a block, which reads as uncorrectable until a full
write replaces it. -/
def execDramUncorrectable (block client : Nat) (s : State) : Out :=
  .next (let a := dramBase + block * 4096
    let s := if (s.memory.flips.any fun f => decide (a ≤ f.1) && decide (f.1 < a + 4096)) then s else s.setFlips a ⟨3, 0, 0⟩
    (s.uncorrectable client a 2 false).blockError client block)

/-- REMAP_COPY_COMPLETE (R352): from here every access to the block goes to its target. Pairs that held an uncorrectable
word are stored with their ASC inverted, so they still read as uncorrectable; corrected words are clean. -/
def execRemapCopyComplete (block : Nat) (s : State) : Out :=
  .next (let a := dramBase + block * 4096
    let inBlock (x : Nat) : Bool := decide (a ≤ x) && decide (x < a + 4096)
    if s.memory.remaps.any (fun r => r.block == block && r.copying) then
      s.onMemory fun m =>
        { m with
          remaps := updIf (fun r => r.block == block) (fun r => { r with copying := false, lines := [] }) m.remaps
          flips := (m.flips.filter fun f => !inBlock f.1 || (match s.checkWord f.1 with | .uncorrectable _ => true | _ => false)).map
            fun f => if inBlock f.1 then (f.1, ⟨0, 0, 0xFF⟩) else f }
    else s)

/-- SCRUB_UNCORRECTABLE (R351): the scrubber finds a line uncorrectable; it counts as a read by the channel itself, for
which the collector holds no client ID (0x3FF). A channel whose scrub is off finds none. -/
def execScrubUncorrectable (ch : Fin 12) (block : Nat) (s : State) : Out :=
  .next (if s.flag (Reg.DMC_SCRUB_ENABLE ch) && (s.sliceOf block).1 == ch.val then
      let a := dramBase + block * 4096
      let s := if (s.memory.flips.any fun f => decide (a ≤ f.1) && decide (f.1 < a + 4096)) then s else s.setFlips a ⟨3, 0, 0⟩
      (s.uncorrectable 0x3FF a 2 false).blockError 0x3FF block
    else s)

/-! ### Hammered rows and refresh (R349, R350) -/

/-- The row that an activation counts for. -/
def RowCount.is (r : RowCount) (a : Activation) : Bool :=
  r.ch == a.ch.val && r.subch == a.subch.val && r.rank == a.rank.val && r.bank == a.bank.val && r.row == a.row

/-- The client that activated a row most often in the window, and the class of its requests. -/
def RowCount.client (r : RowCount) : Nat × Nat :=
  let p := r.clients.foldl (fun best p => if p.2.1 > best.2.1 then p else best) (0x3FF, 0, 0)
  (p.1, p.2.2)

/-- A row reaches TH: a refresh where the devices have one, which resets its count, then the throttle of the recorded
client, which SC0 never takes (R350). -/
def State.hammerHit (s : State) (r : RowCount) : State :=
  let (client, cls) := r.client
  let rfm := s.flag (Reg.DMC_HAMMER_RFM_SUP r.ch) || s.flag (Reg.DMC_HAMMER_DRFM_SUP r.ch)
  let hit (x : RowCount) : RowCount :=
    { x with
      count := if rfm then 0 else x.count, throttled := x.throttled || cls != 0, sc1 := x.sc1 || cls == 1
      paced := if 2 ≤ cls then kput client s.turn x.paced else x.paced }
  let s := s.onMemory fun m => { m with rows := updIf (fun x => x == r) hit m.rows }
  if cls = 0 then s
  else
    ((s.setFlds [(Reg.DMC_THROTTLE_CLIENT r.ch, client), (Reg.DMC_THROTTLE_BANK r.ch, r.bank),
      (Reg.DMC_THROTTLE_SUBCH r.ch, r.subch), (Reg.DMC_THROTTLE_RANK r.ch, r.rank), (Reg.DMC_THROTTLE_ROW_ROW r.ch, r.row),
      (Reg.DMC_EVENT_THROTTLE r.ch, 1)]).addFld (Reg.DMC_THROTTLE_CNT_COUNT r.ch) 1).logUncoded .throttle client
      (r.row + r.bank * 2 ^ 18 + r.subch * 2 ^ 23 + r.rank * 2 ^ 24)

/-- Turns between two activations of a row by a throttled client: GAP, in 64 ns, of which 16 are a turn (assumption log 122). -/
def State.gapTurns (s : State) (ch : Nat) : Nat := cdiv (s.efld (Reg.DMC_HAMMER_GAP ch)) 16

/-- The activations of a row that a client is let make in a turn: a throttled client's are held to one per GAP (R350). -/
def State.letPass (s : State) (r : RowCount) (a : Activation) : Nat :=
  match klook a.client r.paced with
  | some t => if s.turn < t + s.gapTurns a.ch then 0 else min 1 a.times
  | none => a.times

/-- The activations of one row in a turn: the row meets its throttle each time its count reaches TH (R350). -/
def State.activate (s : State) (a : Activation) : State :=
  let old : RowCount := (s.memory.rows.find? (·.is a)).getD ⟨a.ch, a.subch, a.rank, a.bank, a.row, [], 0, false, false, []⟩
  let had := match klook a.client old.clients with | some p => p.1 | none => 0
  let n := s.letPass old a
  let r : RowCount := { old with
    count := old.count + n, clients := kput a.client (had + n, a.cls) old.clients
    paced := if (klook a.client old.paced).isSome ∧ 0 < n then kput a.client s.turn old.paced else old.paced }
  let s := s.onMemory fun m => { m with rows := r :: m.rows.filter fun x => !x.is a }
  let th := s.efld (Reg.DMC_HAMMER_TH a.ch)
  if old.count < th && th ≤ r.count then s.hammerHit r else s

/-- HAMMER_WINDOW_EXPIRY (R350): at the end of the window's 31,250 turns the channel's counts start again and its throttles lapse. -/
def execHammerWindowExpiry (ch : Fin 12) (s : State) : Out :=
  .next (if s.turn < (klook ch.val s.memory.windows).getD 0 + 31250 then s
    else s.onMemory fun m =>
      { m with rows := m.rows.filter fun r => r.ch != ch.val, windows := kput ch s.turn m.windows })

/-- DRAM_REFRESH (R349): a refresh keeps the contents. The device's temperature report, which doubles the rate above
85 °C, is kept for the channel until the next refresh. -/
def execDramRefresh (ch : Fin 12) (hot : Bool) (s : State) : Out :=
  .next (s.onMemory fun m => { m with hot := if hot then ch.val :: m.hot.erase ch.val else m.hot.erase ch.val })

end Sys2Proof.Machine
end

