-- ==== Sys2Proof/Machine/Queues.lean ====
section
/-! DEFINITION. The headgate's queues (chapter 2): completion posting, interrupts, asynchronous events, the freeze of an
ordered queue, the cancelling of plans, doorbells and entry fetch. -/

namespace Sys2Proof.Machine

/-! ### Queues -/

/-- Change an I/O submission queue. -/
def State.onSq (s : State) (c : Fin 2) (qid : Nat) (f : Sq → Sq) : State :=
  if qid = 0 then s.onCtl c fun x => { x with adminSq := f x.adminSq }
  else s.onCtl c fun x => { x with sqs := updIf (fun q => q.qid == qid) f x.sqs }

def State.sq (s : State) (c : Fin 2) (qid : Nat) : Option Sq :=
  if qid = 0 then some (s.ctl c).adminSq else (s.ctl c).sqs.find? fun q => q.qid == qid

def State.onCq (s : State) (c : Fin 2) (qid : Nat) (f : Cq → Cq) : State :=
  if qid = 0 then s.onCtl c fun x => { x with adminCq := f x.adminCq }
  else s.onCtl c fun x => { x with cqs := updIf (fun q => q.qid == qid) f x.cqs }

def State.cq (s : State) (c : Fin 2) (qid : Nat) : Option Cq :=
  if qid = 0 then some (s.ctl c).adminCq else (s.ctl c).cqs.find? fun q => q.qid == qid

/-- A controller's Twiot level (R79, R90). -/
def State.level (s : State) (c : Fin 2) : Nat := s.fld (if c = 0 then Reg.HGT_LEVEL_C0_LEVEL else Reg.HGT_LEVEL_C1_LEVEL)

/-- Set an HGT.EVENT bit that has one instance for each controller. -/
def State.hgtEvent (s : State) (c : Fin 2) (bit0 : Nat) : State := s.setFld ⟨Reg.HGT_EVENT, bit0 + c.val, 1⟩ 1

/-- A feature's value in force. -/
def State.feature (s : State) (c : Fin 2) (fid : Nat) : Nat := (klook fid (s.ctl c).features).getD 0

/-! ### Interrupts (R61, R48) -/

/-- Send an MSI-X message. -/
def State.sendMsix (s : State) (c : Fin 2) (v : Nat) : State :=
  s.onCtl c fun x => { x with msix := if x.msix.contains v then x.msix else v :: x.msix, coalesced := kdel v x.coalesced }

/-- An interrupt for a completion on a vector: Interrupt Coalescing (FID 08h) holds it up to its threshold and time; the
admin vector, and vectors with coalescing disabled by FID 09h, are never held. -/
def State.interrupt (s : State) (c : Fin 2) (v : Nat) : State :=
  let f := s.feature c 0x08
  let thr := f % 256
  let off := v = 0 ∨ natBits f 8 8 = 0 ∨ thr = 0 ∨ natBits (s.feature c (0x0900 + v)) 16 1 = 1
  let n := (klook v (s.ctl c).coalesced).getD 0 + 1
  if off ∨ thr < n then s.sendMsix c v else s.onCtl c fun x => { x with coalesced := kput v n x.coalesced }

/-- INTERRUPT_COALESCING_EXPIRY (R61): the aggregation time has run out. -/
def execInterruptCoalescingExpiry (c : Fin 2) (vector : Nat) (s : State) : Out :=
  .next (match klook vector (s.ctl c).coalesced with | some _ => s.sendMsix c vector | none => s)

/-! ### Completions (R61) -/

/-- A completion queue is full: one entry always stays free. -/
def Cq.full (q : Cq) : Bool := decide (q.size ≤ q.entries.length + 1)

/-- Write a completion entry, or hold it while the queue is full: its context stays taken (R55, R61). -/
def State.postCqe (s : State) (c : Fin 2) (cqid : Nat) (x : HeldCqe) : State :=
  match s.cq c cqid with
  | none => s.onHost fun h => { h with discarded := h.discarded + 1 }
  | some q =>
    if q.size = 0 then s.onHost fun h => { h with discarded := h.discarded + 1 }
    else if q.full || !q.held.isEmpty then s.onCq c cqid fun q => { q with held := q.held ++ [x] }
    else
      let s := s.onCq c cqid fun q => { q with entries := q.entries ++ [x.e] }
      if q.ien then s.interrupt c q.vector else s

/-- An error log entry (LID 01h) for an error status other than Admission Refused and Queue Frozen; reads that end without data are
counted as media errors (R468). -/
def State.logError (s : State) (sqid cid : Nat) (st : Status) (lba nsid : Nat) : State :=
  if st.sct == 7 && (st.sc == 0x80 || st.sc == 0x82) then s
  else
  let lost := st == St.unrecovered || st == St.noData
  (s.onNv fun n => { n with mediaErrors := if lost then n.mediaErrors + 1 else n.mediaErrors }).onHost fun h => { h with
    errorCount := h.errorCount + 1
    errors := (⟨h.errorCount + 1, sqid, cid, st.sct, st.sc, lba, nsid⟩ :: h.errors).take 256 }

/-- The controller of an admin path (Table 14.1). -/
def admCtrl (path : Nat) : Option (Fin 2) := if path = 1 then some 0 else if path = 2 then some 1 else none

/-- The mode lets a controller's queues run: it is enabled and ready. -/
def State.running (s : State) (c : Fin 2) : Bool := (s.ctl c).en && (s.ctl c).rdy && s.power.mode.carriesData

/-- The rider is restarting (R35). -/
def State.restarting (s : State) : Bool := match s.mgmt.restartUntil with | some t => decide (s.turn < t) | none => false

/-- A management path takes requests (Table 14.1): an admin queue while its controller is ready and the mode carries
data; the other paths in every mode except Off and Spill, VDM while its link is up. -/
def State.pathOpen (s : State) (path : Nat) : Bool :=
  match admCtrl path with
  | some c => s.running c
  | none =>
    s.power.mode != .off && s.power.mode != .spill &&
    (if path = 3 ∨ path = 4 then s.flag (Reg.MBX_MCTP_CFG_EN (path - 3))
     else if path = 5 then s.fld (Reg.HGT_LINK_STATUS_RATE 0) != 0 && s.flag (Reg.MBX_MCTP_CFG_EN 2)
     else if path = 6 then s.fld (Reg.HGT_LINK_STATUS_RATE 1) != 0 && s.flag (Reg.MBX_MCTP_CFG_EN 2)
     else path == 7 && s.flag Reg.MBX_UART_CFG_EN)

/-- The reply of an admin command on its path: a completion on an admin queue, or an answer on a management path. -/
def State.reply (s : State) (a : Adm) (st : Status) (data : List Bytes) : State :=
  match admCtrl a.path with
  | some c =>
    let s := if st.good then s else s.logError 0 a.cid st 0 0
    s.postCqe c 0
      { e := { sqid := 0, cid := a.cid, sct := st.sct, sc := st.sc, dnr := st.dnr, dw0 := st.dw0
               sqhd := (s.ctl c).adminSq.head, turn := s.turn, data := data }
        cls := 8 }
  | none => s.onMgmt fun m => { m with replies := m.replies ++ [⟨a.path, st.sct * 256 + st.sc, st.dw0, data.flatten⟩] }

/-- The status of a busy response on an NVMe-MI path, which is no NVMe status (R35). -/
def miBusy : Nat := 2 ^ 16

/-- A request on a path that takes none does not arrive. One of an admin queue whose entry or data arrived poisoned ends with Data Transfer
Error (R51). While the rider restarts, NVMe-MI requests are answered busy and a console command gets no answer (R35, R462). -/
def State.hear (s : State) (a : Adm) (k : State → State) : State :=
  if !s.pathOpen a.path then s
  else
    match admCtrl a.path with
    | some c =>
      if (s.ctl c).poisoned.contains a.cid then (s.onCtl c fun x => { x with poisoned := x.poisoned.erase a.cid }).reply a St.dataTransfer []
      else k s
    | none =>
      if s.restarting then (if a.path = 7 then s else s.onMgmt fun m => { m with replies := m.replies ++ [⟨a.path, miBusy, 0, []⟩] })
      else k s

/-- The domains that Conserve turns off (Table 13.5). -/
def conserveDoms : List Nat := [6, 7, 8, 9, 10, 11, 12, 13, 14, 15, 16, 17, 18, 19, 20, 22]

/-- A Set Features that a later event supersedes completes with success (R445). -/
def State.replyDone (s : State) : Option Adm → State
  | some a => s.reply a St.ok []
  | none => s

/-- A Set Features that has taken effect completes in the turn after (R83, R533). -/
def State.replyNext (s : State) : Option Adm → State
  | some a => s.onPower fun p => { p with psDone := p.psDone ++ [(s.turn, a)] }
  | none => s

/-- The completions of power states that took effect in an earlier turn are posted. -/
def State.postPsDone (s : State) : State :=
  let go := s.power.psDone.filter fun x => decide (x.1 < s.turn)
  if go.isEmpty then s
  else go.foldl (fun s x => s.reply x.2 St.ok []) (s.onPower fun p => { p with psDone := p.psDone.filter fun x => !decide (x.1 < s.turn) })

/-- Scratchpad banks that hold only copies: the Dellux, granule and namespace tables, where no update ring, report ring or accumulator shares
the bank, and no mailbox fallback (R363). -/
def State.copyBanks (s : State) : List Nat :=
  let acc := s.fld Reg.FRM_ACC_BANK_FIRST
  ([s.fld Reg.LDP_DLX_TABLE_BANK, s.fld Reg.DMC_MAP_GRAN_GRAN_BANK, s.fld Reg.DMC_MAP_GRAN_NS_BANK].eraseDups).filter fun b =>
    b != s.fld Reg.DMC_MUP_RING_BANK && b != s.fld Reg.LDP_MR_RING_BANK && !(decide (acc ≤ b) && decide (b < acc + s.fld Reg.FRM_ACC_BANKS)) &&
      decide (b < 30)

/-- The banks that PS4 keeps in RETENTION are asked to enter it (Table 13.5, R533). -/
def State.parkBanks (s : State) : State :=
  s.copyBanks.foldl (fun s b =>
    if s.fld (Reg.OCM_BANK_STATE b) = 1 then (s.setFld (Reg.OCM_BANK_REQ b) 2).onMemory fun m => { m with bankWait := kput b 2 m.bankWait } else s) s

/-- Banks return to ON: a waiting request goes, and one in RETENTION is woken (R361). -/
def State.unparkBanks (s : State) (banks : List Nat) : State :=
  banks.foldl (fun s b =>
    if s.fld (Reg.OCM_BANK_REQ b) != 2 then s
    else
      let s := (s.setFld (Reg.OCM_BANK_REQ b) 1).onMemory fun m => { m with bankWait := kdel b m.bankWait }
      if s.fld (Reg.OCM_BANK_STATE b) = 2 then s.startBankWake b else s) s

/-- A domain that Conserve turned off, or is turning off, comes back (R442). -/
def State.wakeBack (s : State) (n : Fin 24) : State :=
  match (s.dom n).state with
  | .off => ((s.startWake n).onDom n fun d => { d with wakeFrom := s.turn + 1 }).restartIdle n
  | .dropping => s.touch n 0x3FF
  | _ => s

/-- Start a Conserve exit (R84, R442): in the next turn every domain that Conserve turned off is woken, and a change between PS3 and PS4
under way is superseded (R533). -/
def State.startExit (s : State) (req : Option Adm) : State :=
  if s.power.exiting.isSome then s
  else
    let old := s.power.psChange.bind (·.2)
    let s := (s.onPower fun p => { p with exiting := some ⟨s.turn, req⟩, psChange := none }).setFld Reg.PMC_PS_EXITING 1
    ((conserveDoms.foldl (fun s n => s.wakeBack (Fin.ofNat 24 n)) s).unparkBanks s.copyBanks).replyDone old

/-- An admin command of a controller's queue that the headgate or the rider executes starts the exit from Conserve; one that a cluster
executes does not (R84, R442). The exit starts as the command is taken: its doorbell alone does not tell who executes it (DESIGN CHOICE,
assumption log 173). -/
def State.adminExit (s : State) (a : Adm) : State :=
  if s.power.mode == .conserve && (admCtrl a.path).isSome then s.startExit none else s

/-- The headgate executes an admin command. -/
def State.admin (s : State) (a : Adm) (k : State → State) : State := s.hear a fun s => k (s.adminExit a)

/-- The rider executes an admin command: while it restarts, one from an admin queue waits (R421). `i` is the command to run
again. -/
def State.riderAdmin (s : State) (a : Adm) (i : Instr) (k : State → State) : State :=
  s.admin a fun s => if s.restarting then s.onMgmt fun m => { m with waiting := m.waiting ++ [i] } else k s

/-! ### Asynchronous events (R60, R469) -/

/-- The key under which a reported event is masked until its log page is read. -/
def eventKey (type info lid : Nat) : Nat := type * 65536 + info * 256 + lid

/-- Report an event on a controller: it completes the oldest held request, or waits for one. -/
def State.raise (s : State) (c : Fin 2) (type info lid : Nat) : State :=
  if (s.ctl c).masked.contains (eventKey type info lid) then s
  else
    match (s.ctl c).aers with
    | a :: rest =>
      (s.onCtl c fun x => { x with aers := rest, masked := eventKey type info lid :: x.masked }).reply a
        (St.done (type + info * 256 + lid * 65536)) []
    | [] => s.onCtl c fun x => { x with events := if x.events.contains ⟨type, info, lid⟩ then x.events else x.events ++ [⟨type, info, lid⟩] }

/-- Report an event on both controllers. -/
def State.raiseBoth (s : State) (type info lid : Nat) : State := (s.raise 0 type info lid).raise 1 type info lid

/-- A read of a log page re-arms its events. -/
def State.rearm (s : State) (c : Fin 2) (lid : Nat) : State :=
  s.onCtl c fun x => { x with masked := x.masked.filter fun k => k % 256 != lid }

/-- ASYNCHRONOUS_EVENT_REQUEST (R62): held until an event completes it; AERL is 15, so 16 are held at most. -/
def execAsynchronousEventRequest (a : Adm) (s : State) : Out :=
  .next (s.admin a fun s =>
    match admCtrl a.path with
        | none => s.reply a St.invalidOpcode []
        | some c =>
          if 16 ≤ (s.ctl c).aers.length then s.reply a St.aerLimit []
          else
            match (s.ctl c).events with
            | e :: rest =>
              (s.onCtl c fun x => { x with events := rest, masked := eventKey e.type e.info e.lid :: x.masked }).reply a
                (St.done (e.type + e.info * 256 + e.lid * 65536)) []
            | [] => s.onCtl c fun x => { x with aers := x.aers ++ [a] })

/-! ### Ending plans -/

/-- End a plan: its bookings, pins and map-only steps go; slots that have not landed are FREE once unpinned (R22, R187). -/
def State.endPlan (s : State) (id : Nat) : State :=
  let s := s.onSluice fun x =>
    { x with bookings := x.bookings.filter (fun b => b.plan != id), plans := x.plans.filter (fun p => p.id != id)
             armed := x.armed.filter fun y => y.1 != id }
  let void (x : Nat × Slot) : Nat × Slot := (x.1, { x.2 with state := .superseded, sectors := [none, none, none, none] })
  let s := s.onGalley fun g =>
    { g with
      booked := g.booked.filter (fun b => b.2.1 != id)
      slots := updIf (fun x => x.2.plan == id && x.2.state == .filling) void g.slots }
  s.unpin id

/-- Cancel the writes of a plan that have not landed, unit by unit (R53). -/
def State.cancelWrites (s : State) (id : Nat) : State :=
  let cancel (w : UnitWrite) : UnitWrite := if w.landed then w else { w with cancelled := true }
  let s := s.onSluice fun x =>
    { x with plans := updIf (fun p => p.id == id) (fun p => { p with writes := p.writes.map cancel, cancelled := true }) x.plans }
  let void (x : Nat × Slot) : Nat × Slot := (x.1, { x.2 with state := .superseded, sectors := [none, none, none, none] })
  (s.onGalley fun g => { g with slots := updIf (fun x => x.2.plan == id && x.2.state == .filling) void g.slots }).freeSlots

/-- Take a command out of its context. -/
def State.dropCmd (s : State) (r : CmdRef) : State := s.onHost fun h => { h with cmds := h.cmds.filter fun c => c.ref != r }

/-! ### Posting an I/O completion -/

/-- Commands of one submission queue. -/
def Cmd.onSqOf (c : Cmd) (r : CmdRef) : Bool := c.ref.ctrl == r.ctrl && c.ref.sqid == r.sqid

/-- Freeze an ordered queue on a non-successful completion (R74): fetching stops, fetched commands that have not
started end with Queue Frozen, whatever they were to end with, a record is written and an event raised. -/
def State.freeze (s : State) (c : Cmd) (st : Status) : State :=
  match s.sq c.ref.ctrl c.ref.sqid with
  | none => s
  | some q =>
    if !q.ordered || q.frozen || (st.sct == 7 && st.sc == 0x82) then s
    else
      let x := s.ctl c.ref.ctrl
      let hit := s.host.cmds.filter fun k => k.onSqOf c.ref && k.ref != c.ref && k.phase != .started
      let seq := x.freezeSeq + 1
      let rec_ : FreezeRec :=
        { seq := seq, sqid := q.qid, trigCid := c.ref.cid, trigStatus := st.sct * 256 + st.sc + (if st.dnr then 2 ^ 14 else 0)
          sqHead := q.head, turn := s.turn, trigDw0 := st.dw0, count := hit.length
          first := (hit.head?.map (·.ref.cid)).getD 0xFFFF, last := (hit.getLast?.map (·.ref.cid)).getD 0xFFFF }
      let s := s.onSq c.ref.ctrl q.qid fun q => { q with frozen := true }
      let s := s.onCtl c.ref.ctrl fun x =>
        { x with freezes := x.freezes ++ [rec_], freezeSeq := seq, freezeGen := x.freezeGen + 1 }
      let s := hit.foldl (fun s k =>
        (if k.phase == .accepted then s.endPlan k.plan else s).settle k.ref (St.frozen seq) s.turn) s
      (s.hgtEvent c.ref.ctrl 4).raise c.ref.ctrl 7 0xD9 0xC0 |>.log 0x0804 0 0x3FF (q.qid + seq * 2 ^ 32)

/-- The latency accounting of LID 0xC2 for a posted command (Table 03.6). A refusal counts in neither MAX_LATENCY nor MIN_SLACK: the table
speaks of posting and does not name it (DESIGN CHOICE, assumption log 162). -/
def State.account (s : State) (c : Cmd) (st : Status) : State :=
  if c.phase != .accepted && c.phase != .started then s
  else s.onAcct c.cls fun x =>
    { x with
      noData := if st.sct = 7 ∧ st.sc = 0x81 then x.noData + 1 else x.noData
      maxLat := max x.maxLat (min (2 ^ 32 - 1) (s.turn - c.stamp))
      minSlack := if c.limit = 0 then x.minSlack else min x.minSlack (c.limit + 4 - s.turn) }

/-- Post a command: its completion entry and interrupt, the end of its context and plan, accounting, error log and, for an
ordered queue, the freeze (R61, R55, R74). A discarded completion only ends the context (R53). -/
def State.postCmd (s : State) (c : Cmd) (st : Status) (data : List Bytes) : State :=
  let s := if c.phase == .accepted || c.phase == .started then (s.account c st).endPlan c.plan else s
  let s := s.dropCmd c.ref
  if c.discard then s.onHost fun h => { h with discarded := h.discarded + 1 }
  else
    match s.sq c.ref.ctrl c.ref.sqid with
    | none => s
    | some q =>
      let s := if st.good then s else s.logError c.ref.sqid c.ref.cid st c.sqe.slba c.sqe.nsid
      let zoned := c.sqe.opcode = 0x7D ∧ st.good
      let s := s.postCqe c.ref.ctrl q.cqid
        { e := { sqid := c.ref.sqid, cid := c.ref.cid, sct := st.sct, sc := st.sc, dnr := st.dnr
                 dw0 := if zoned then c.lba % 2 ^ 32 else st.dw0, dw1 := if zoned then c.lba / 2 ^ 32 else 0
                 sqhd := q.head, turn := s.turn, data := data }
          cls := c.cls, ctx := c.phase != .short, due := if c.limit = 0 then none else some (c.limit + 4), quoin := c.quoin }
      if st.good then s else s.freeze c st

/-- An earlier command of the same ordered queue is still to post: completions follow submission order (R73). -/
def State.waitsTurn (s : State) (c : Cmd) : Bool :=
  c.ordered && s.host.cmds.any fun k => k.onSqOf c.ref && decide (k.order < c.order)

/-! ### Doorbells (R58, R60, R61, R75) -/

/-- An invalid doorbell write is ignored, and reported at the edge that closes the turn unless a later write to the doorbell takes its
place (R58, R60): register (0) or value (1). The doorbell is 2 × queue, + 1 for a completion queue. -/
def State.badDoorbell (s : State) (c : Fin 2) (info bell value : Nat) : State :=
  s.onCtl c fun x => { x with badBells := kput bell (info, value) x.badBells }

/-- The report of an invalid doorbell write (R60). -/
def State.reportBell (s : State) (c : Fin 2) (b : Nat × Nat × Nat) : State :=
  ((s.hgtEvent c 2).raise c 0 b.2.1 0x01).log 0x0803 0 0x3FF (b.1 / 2 + b.2.2 * 2 ^ 32)

/-- A valid write to a doorbell takes the place of an invalid one of the same turn. -/
def State.goodDoorbell (s : State) (c : Fin 2) (bell : Nat) : State :=
  if (s.ctl c).badBells.isEmpty then s else s.onCtl c fun x => { x with badBells := kdel bell x.badBells }

/-- The deadline extension in force (R84): Conserve, and until the exit completes. -/
def State.extension (s : State) : Nat :=
  if s.power.mode == .conserve then (if s.fld Reg.PMC_PS_PS = 4 then 4883 else 489) else 0

/-- The stamped entries that a tail makes visible. -/
def stampNew (s : State) (q : Sq) (n : Nat) : List (Nat × Nat × Bool × Nat) :=
  List.replicate n (s.turn, q.cls, q.ordered, s.extension)

/-- A Conserve entry ends with an outcome: 1 completed, 2 abandoned, 3 superseded (R445, Table 13.4). -/
def State.endEntry (s : State) (outcome : Nat) : State :=
  match s.power.entry with
  | none => s
  | some e =>
    let r : EntryRecord := ⟨e.began, e.target, outcome, e.holder.1, e.holder.2, s.turn - e.began⟩
    let s := (s.onPower fun p => { p with entry := none, entryLog := (r :: p.entryLog).take 32 }).setFld Reg.PMC_PS_ENTERING 0
    let s := if outcome = 1 then s else s.unparkBanks s.copyBanks
    if outcome = 2 then s.setFld Reg.PMC_EVENT_CONSERVE_ABANDON 1 else s

/-- A doorbell abandons an autonomous entry under way (R445) or, of an I/O queue, starts the exit from Conserve; an admin
command starts none (R442). -/
def State.doorbellPower (s : State) (qid : Nat) : State :=
  if s.power.mode == .conserve then (if qid = 0 then s else s.startExit none)
  else
    match s.power.entry with
    | some e => if e.req.isSome then s else s.endEntry 2
    | none => s

/-- A tail of a queue that is not frozen is observed (R58, R60): entries that the same turn has made visible and that are still to be
fetched give way, so that several writes to one doorbell in a turn count as the last. -/
def State.observeTail (s : State) (c : Fin 2) (q : Sq) (value : Nat) : State :=
  let kept := q.visible.filter fun v => v.1 != s.turn
  let new := (value + q.size - q.head) % q.size
  if q.size ≤ value || decide (new < kept.length) then
    (if kept.length = q.visible.length then s
      else s.onSq c q.qid fun q => { q with tail := (q.head + kept.length) % q.size, visible := kept }).badDoorbell c 1 (2 * q.qid) value
  else ((s.goodDoorbell c (2 * q.qid)).onSq c q.qid fun q =>
    { q with tail := value, visible := kept ++ stampNew s q (new - kept.length) }).doorbellPower q.qid

/-- SQ_TAIL_DOORBELL (R58, R60, R75): the write is observed, or stored while the queue is frozen. The entries of an admin queue are taken
as they are observed: their commands come with rows of their own. -/
def State.tailDoorbell (s : State) (c : Fin 2) (qid value : Nat) : State :=
  match s.sq c qid with
  | none => s.badDoorbell c 0 (2 * qid) value
  | some q =>
    if q.frozen then s.onSq c qid fun q => { q with storedTail := some value }
    else if qid = 0 then
      (if q.size ≤ value then s.badDoorbell c 1 0 value
        else ((s.goodDoorbell c 0).onSq c 0 fun q => { q with tail := value, head := value }).doorbellPower 0)
    else s.observeTail c q value

/-- A link leaves L1; its PHY domain is woken where it has dropped (R50, R435). -/
def State.leaveL1 (s : State) (c : Fin 2) : State := (s.onCtl c fun x => { x with link := .l0 }).touch (s.linkDom c) (0x20 + c.val)

/-- The exit from L1 comes before the doorbell write (R50). -/
def execSqTailDoorbell (c : Fin 2) (qid value : Nat) (s : State) : Out :=
  .next (if s.running c then (if (s.ctl c).link = .l0 then s else s.leaveL1 c).tailDoorbell c qid value else s)

/-- Post held completions while the queue has room; the turns held are counted in the class that the command was decided in (R61). -/
def State.drainCq (s : State) (c : Fin 2) (qid : Nat) : Nat → State
  | 0 => s
  | fuel + 1 =>
    match s.cq c qid with
    | none => s
    | some q =>
      match q.held with
      | [] => s
      | x :: rest =>
        if q.full then s
        else
          let s := s.onCq c qid fun q => { q with held := rest, entries := q.entries ++ [x.e] }
          let s := if x.cls < 8 then s.onAcct x.cls fun y => { y with held := y.held + (s.turn - x.e.turn) } else s
          (if q.ien then s.interrupt c q.vector else s).drainCq c qid fuel

/-- A completion queue takes the head that its doorbell was left at in the turn: entries before it are free, and held completions follow
(R58, R60, R61). -/
def State.takeHead (s : State) (c : Fin 2) (q : Cq) (value : Nat) : State :=
  let s := s.onCq c q.qid fun x => { x with newHead := none }
  let n := (value + q.size - q.head) % q.size
  if q.size ≤ value || decide (q.entries.length < n) then s.badDoorbell c 1 (2 * q.qid + 1) value
  else (s.onCq c q.qid fun x => { x with head := value, entries := x.entries.drop n }).drainCq c q.qid q.held.length

/-- CQ_HEAD_DOORBELL (R58, R60, R61): the doorbell's value stands until the edge that closes the turn samples it. -/
def execCqHeadDoorbell (c : Fin 2) (qid value : Nat) (s : State) : Out :=
  .next (
    if !s.running c then s
    else
      match s.cq c qid with
      | none => s.badDoorbell c 0 (2 * qid + 1) value
      | some _ => s.onCq c qid fun q => { q with newHead := some value })

/-- A controller's completion queues, the admin queue first. -/
def State.allCqs (s : State) (c : Fin 2) : List Cq := (s.ctl c).adminCq :: (s.ctl c).cqs

/-- The doorbells of a controller at the edge that closes a turn: heads are taken, and invalid writes reported. -/
def State.bellTurn (s : State) (c : Fin 2) : State :=
  let s := (s.allCqs c).foldl (fun s q => match q.newHead with | some v => s.takeHead c q v | none => s) s
  (s.ctl c).badBells.foldl (fun s b => s.reportBell c b) (if (s.ctl c).badBells.isEmpty then s else s.onCtl c fun x => { x with badBells := [] })

/-! ### Entry fetch (R55, R56, R59, R67) -/

/-- Completions of a controller that are held on full queues with their contexts (R55). -/
def State.heldCtx (s : State) (c : Fin 2) : List HeldCqe := ((s.ctl c).cqs.flatMap (·.held)).filter (·.ctx)

/-- Contexts that a controller holds. -/
def State.ctxUse (s : State) (c : Fin 2) : Nat :=
  (s.host.cmds.filter fun k => k.ref.ctrl == c && k.phase != .short).length + (s.heldCtx c).length

/-- Contexts of a controller beyond its floor. -/
def State.ctxPool (s : State) (c : Fin 2) : Nat := s.ctxUse c - s.fld (Reg.HGT_CTX_FLOOR_FLOOR c)

/-- A context is free for a controller: in its floor, or in the shared pool (R55). -/
def State.ctxFree (s : State) (c : Fin 2) : Bool :=
  let f0 := s.fld (Reg.HGT_CTX_FLOOR_FLOOR 0)
  let f1 := s.fld (Reg.HGT_CTX_FLOOR_FLOOR 1)
  decide (s.ctxUse c < s.fld (Reg.HGT_CTX_FLOOR_FLOOR c)) || decide (s.ctxPool 0 + s.ctxPool 1 < 1048576 - (f0 + f1))

/-- The deadline of a DC0–DC6 command: that of the class it is planned under, or before its decision of the class it was observed under;
none for best effort. -/
def State.deadlineOf (s : State) (k : Cmd) : Option Nat :=
  if k.limit != 0 then some (k.limit + 4)
  else if k.level0 || k.cls == 7 || k.phase != .fetched then none
  else some (k.stamp + s.fld (Reg.SLU_CLASS_DL_DEADLINE k.cls) + k.ext)

/-- The deadlines of a controller's context holders: completions held on full queues, then commands in the order of their fetch. -/
def State.ctxDues (s : State) (c : Fin 2) : List (Option Nat) :=
  (s.heldCtx c).map (·.due) ++ (s.host.cmds.filter fun k => k.ref.ctrl == c && k.phase != .short).map s.deadlineOf

/-- The deadlines of those who hold contexts of the pool for a controller, or its floor: all of its own, and the other controller's beyond
that one's floor. -/
def State.ctxHolders (s : State) (c : Fin 2) : List (Option Nat) :=
  let other : Fin 2 := if c = 0 then 1 else 0
  s.ctxDues c ++ (s.ctxDues other).drop (s.fld (Reg.HGT_CTX_FLOOR_FLOOR other))

/-- The hint of a context refusal that posts in the next turn (R56): until the earliest deadline among the DC0–DC6 commands that hold this
controller's floor or the pool. -/
def State.ctxHint (s : State) (c : Fin 2) : Nat :=
  match (s.ctxHolders c).filterMap id with
  | [] => 0xFFFF
  | d :: t => min 0xFFFE (cdiv (t.foldl min d - (s.turn + 1)) 16)

/-- Largest blocks of a data transfer: MDTS is 8 MiB, counting metadata in an extended LBA (Table 02.8). -/
def maxBlocks (ns : Namespace) : Nat :=
  2 ^ 23 / (blockBytes ns.lbaf + (if ns.extended then mdBytes ns.lbaf else 0))

/-- Opcodes that carry host data. -/
def carriesHostData (op : Nat) : Bool := op == 0x01 || op == 0x02 || op == 0x05 || op == 0x7D

/-- Opcodes of the zone commands and of the NVM commands (Table 02.7). -/
def zoneOpcode (op : Nat) : Bool := op == 0x79 || op == 0x7A || op == 0x7D
def nvmOpcode (op : Nat) : Bool := [0x00, 0x01, 0x02, 0x05, 0x08, 0x09, 0x0C, 0x19].contains op

/-- A namespace is attached to a controller. -/
def Namespace.on (n : Namespace) (c : Fin 2) : Bool := n.attached / 2 ^ c.val % 2 == 1

/-- Check 4 of R67: the fields of a command. -/
def badFields (ns : Namespace) (q : Sqe) : Bool :=
  q.rsvd || decide (65536 ≤ q.nlb) || (carriesHostData q.opcode && decide (maxBlocks ns < q.nlb + 1)) ||
  (q.opcode == 0x09 && decide (256 < q.ranges.length)) ||
  (q.opcode == 0x19 && (decide (128 < q.ranges.length) || q.ranges.isEmpty || q.ranges.any (fun r => decide (65536 < r.2)) ||
    decide (262144 < rangeBlocks q.ranges))) ||
  ((q.opcode == 0x01 || q.opcode == 0x7D) && q.dtype == 2 && !ns.handles.isEmpty && decide (ns.handles.length ≤ q.dspec)) ||
  (q.opcode == 0x79 && !(decide (1 ≤ q.zsa) && decide (q.zsa ≤ 5))) ||
  ((q.opcode == 0x7D || (q.opcode == 0x79 && !q.selAll)) && ns.zoned && q.slba % zoneBlocks ns != 0)

/-- Check 5 of R67: a range beyond the namespace. -/
def outOfRange (ns : Namespace) (q : Sqe) : Bool :=
  match q.opcode with
  | 0x00 => false
  | 0x09 => q.ad && q.ranges.any fun r => decide (ns.nsze < r.1 + r.2)
  | 0x19 => decide (ns.nsze < q.slba + rangeBlocks q.ranges) || q.ranges.any fun r => decide (ns.nsze < r.1 + r.2)
  | 0x79 => !q.selAll && decide (ns.nsze ≤ q.slba)
  | 0x7A => decide (ns.nsze ≤ q.slba)
  | _ => decide (ns.nsze < q.slba + q.nlb + 1)

/-- The zone checks between checks 5 and 6 (R201). -/
def State.zoneCheck (s : State) (ns : Namespace) (q : Sqe) : Option Status :=
  if !(ns.zoned && (q.opcode == 0x01 || q.opcode == 0x7D || q.opcode == 0x08 || q.opcode == 0x19)) then none
  else
    let n := if q.opcode = 0x19 then rangeBlocks q.ranges else q.nlb + 1
    match s.zoneOf q.nsid (q.slba / zoneBlocks ns) with
    | none => none
    | some z =>
      let x := s.zone z
      let at_ := if q.opcode = 0x7D then x.2 else q.slba % zoneBlocks ns
      if zoneBlocks ns < at_ + n && x.1 != 0xE then some St.zoneBoundary
      else if x.1 = 0xE then some St.zoneFull
      else if x.1 = 0xD then some St.zoneReadOnly
      else if x.1 = 0xF then some St.zoneOffline
      else if q.opcode != 0x7D && at_ != x.2 then some St.zoneInvalidWrite
      else none

/-- Zone states from which a Zone Send Action may start; from the others the transition is invalid (PRESUMED, the Zoned Namespace Command
Set: assumption log 174). -/
def zoneMoves (zsa st : Nat) : Bool :=
  match zsa with
  | 1 => st == 2 || st == 3 || st == 4
  | 2 => st == 1 || st == 2 || st == 3 || st == 4 || st == 0xE
  | 3 => st == 1 || st == 2 || st == 3 || st == 4
  | 4 => !(st == 0xD || st == 0xF)
  | _ => st == 0xD || st == 0xF

/-- A Zone Management Send of one zone that asks for an invalid state transition (R201). -/
def State.zoneSendCheck (s : State) (ns : Namespace) (q : Sqe) : Option Status :=
  if !(ns.zoned && q.opcode == 0x79 && !q.selAll) then none
  else
    match s.zoneOf q.nsid (q.slba / zoneBlocks ns) with
    | none => none
    | some z => if zoneMoves q.zsa (s.zone z).1 then none else some St.zoneTransition

/-- A Format or Sanitize holds the namespace's commands off (R298). -/
def Namespace.barred (n : Namespace) : Option Status :=
  if n.busy = 1 then some St.formatInProgress else if n.busy = 2 then some St.sanitizeInProgress else none

/-- Checks 2 to 6 of R67 on an entry of a queue that is not frozen: the first that fails. -/
def State.check (s : State) (c : Fin 2) (q : Sqe) : Option Status :=
  let here := (s.ns q.nsid).filter fun n => n.on c
  let wrongSet := match here with | some n => !n.zoned && zoneOpcode q.opcode | none => false
  if !(nvmOpcode q.opcode || zoneOpcode q.opcode) || wrongSet then some St.invalidOpcode
  else if q.opcode = 0x00 ∧ q.nsid = 0xFFFFFFFF then (if q.rsvd then some St.invalidField else none)
  else
    match here with
    | none => some St.invalidNamespace
    | some n =>
      if q.opcode = 0x00 then (if q.rsvd then some St.invalidField else none)
      else if badFields n q then some St.invalidField
      else if outOfRange n q then some St.lbaRange
      else
        match (s.zoneCheck n q).orElse fun _ => s.zoneSendCheck n q with
        | some st => some st
        | none =>
          if s.power.mode == .sealed && (sqeKind q).writes then some St.writeProtected
          else n.barred

/-- The run of units, (first, count), that a range of blocks touches. -/
def unitRun (ns : Namespace) (r : Nat × Nat) : Nat × Nat :=
  let per := 4 * blocksPerSector ns.lbaf
  (r.1 / per, if r.2 = 0 then 0 else (r.1 + r.2 - 1) / per + 1 - r.1 / per)

/-- The quoin of a command (R190): the units of its ranges; of a command on zones, the units of its zones. -/
def quoinOf (ns : Namespace) (q : Sqe) : Quoin :=
  { nsid := q.nsid
    units :=
      match q.opcode with
      | 0x00 | 0x7A => []
      | 0x09 => q.ranges.map (unitRun ns)
      | 0x19 => unitRun ns (q.slba, rangeBlocks q.ranges) :: q.ranges.map (unitRun ns)
      | 0x79 => [unitRun ns (if q.selAll then (0, ns.nsze) else (q.slba, zoneBlocks ns))]
      | 0x7D => [unitRun ns (q.slba, zoneBlocks ns)]
      | _ => [unitRun ns (q.slba, q.nlb + 1)] }

/-- Two commands overlap when they touch a common unit of one namespace (R190). -/
def Quoin.overlaps (a b : Quoin) : Bool :=
  a.nsid == b.nsid && a.units.any fun x => b.units.any fun y => decide (x.1 < y.1 + y.2) && decide (y.1 < x.1 + x.2)

/-- The quoin table (R190): one quoin for each context, held until the completion entry is written. -/
def State.quoins (s : State) : List Quoin :=
  s.host.cmds.filterMap (·.quoin) ++ (((s.ctl 0).cqs ++ (s.ctl 1).cqs).flatMap (·.held)).filterMap (·.quoin)

/-- Take one fetched entry into a context, settled where a check fails (R55, R56, R67, R51). -/
def State.takeEntry (s : State) (c : Fin 2) (q : Sq) (v : Nat × Nat × Bool × Nat) (e : Sqe) : State :=
  let base : Cmd :=
    { ref := ⟨c, q.qid, e.cid⟩, sqe := e, cls := v.2.1, ordered := v.2.2.1, level0 := s.level c == 0, stamp := v.1, fetched := s.turn
      ext := v.2.2.2, order := s.host.order, quoin := (s.ns e.nsid).map fun n => quoinOf n e }
  let put (k : Cmd) (s : State) : State := s.onHost fun h => { h with cmds := h.cmds ++ [k], order := h.order + 1 }
  let out (st : Status) (k : Cmd) : Cmd := { k with outcome := some (st.sct, st.sc, st.dnr, st.dw0), postAt := some (s.turn + 1) }
  let s := s.onSq c q.qid fun x => { x with head := (x.head + 1) % max 1 x.size, visible := x.visible.drop 1 }
  let base := if s.ctxFree c then base else { base with phase := .short }
  if e.poisoned then (put (out St.dataTransfer base) s).setFld Reg.HGT_EVENT_POISONED 1
  else
    match s.check c e with
    | some st => put (out st base) s
    | none =>
      if !s.ctxFree c then
        ((put (out (St.refused 9 (s.ctxHint c)) base) s).addFld (Reg.SLU_REFUSE_COUNT 8) 1).onAcct base.cls fun x =>
          { x with refused := x.refused + 1 }
      else if e.opcode = 0x00 ∨ sqeKind e = .unplanned then put (out St.ok base) s
      else put base s

/-- Fetching from a queue pauses: its next entry is best effort and no context is free (R56). -/
def State.pauses (s : State) (c : Fin 2) (q : Sq) : Bool :=
  !s.ctxFree c && (s.level c == 0 || match q.visible with | v :: _ => v.2.1 == 7 | [] => true)

/-- The first exhaustion of a rotation sets the event (R56). -/
def State.exhaust (s : State) (c : Fin 2) : State :=
  if s.ctxFree c || (s.ctl c).exhausted then s
  else (s.hgtEvent c 0).onCtl c fun x => { x with exhausted := true }

/-- A queue has entries to fetch. -/
def Sq.fetchable (q : Sq) : Bool := !q.visible.isEmpty && !q.frozen && !q.paused

/-- Entries that one queue may give before the next (FID 01h, Arbitration Burst): a power of 2, 7 for no limit. -/
def State.burst (s : State) (c : Fin 2) : Nat := let b := s.feature c 0x01 % 8; if b = 7 then 65536 else 2 ^ b

/-- The queue that the controller fetches from next, in round-robin order (R59): the one it is at while its burst lasts, else the next
with entries to fetch. -/
def State.nextSq (s : State) (c : Fin 2) : Option Nat :=
  let x := s.ctl c
  let l := x.sqs.filter Sq.fetchable
  if l.any (fun q => q.qid == x.arb.1) && decide (x.arb.2 < s.burst c) then some x.arb.1
  else
    let i := x.sqs.findIdx fun q => q.qid == x.arb.1
    (((x.sqs.drop (i + 1) ++ x.sqs.take (i + 1)).find? Sq.fetchable)).map (·.qid)

/-- Entries that the controller has fetched in the turn. -/
def State.fetchedNow (s : State) (c : Fin 2) : Nat := if (s.ctl c).fetchedIn.1 = s.turn then (s.ctl c).fetchedIn.2 else 0

/-- The controller's arbitration and its 2,048 entries of a turn take one more entry of a queue (R59). -/
def State.countFetch (s : State) (c : Fin 2) (sqid : Nat) : State :=
  let n := s.fetchedNow c + 1
  let same : Bool := (s.ctl c).arb.1 == sqid && decide ((s.ctl c).arb.2 < s.burst c)
  s.onCtl c fun x => { x with arb := (sqid, if same then x.arb.2 + 1 else 1), fetchedIn := (s.turn, n) }

/-- Take the fetched entries of a queue, as long as entries are visible, the queue's turn in the round robin lasts, the controller has
fetched fewer than 2,048 in the turn, and fetching does not pause. -/
def State.fetch (s : State) (c : Fin 2) (sqid : Nat) : List Sqe → State
  | [] => s
  | e :: t =>
    match s.sq c sqid with
    | none => s
    | some q =>
      match q.visible with
      | [] => s
      | v :: _ =>
        if q.frozen || q.paused || s.nextSq c != some sqid || decide (2048 ≤ s.fetchedNow c) then s
        else
          let s := s.exhaust c
          if s.pauses c q then s.onSq c sqid fun x => { x with paused := true }
          else ((s.countFetch c sqid).takeEntry c q v e).fetch c sqid t

/-- ENTRY_FETCH (R59): the entries return with a round trip that HGT.FETCH_LAT measures; no command is accepted once
admission has stopped (R43, R480). -/
def execEntryFetch (c : Fin 2) (sqid : Nat) (entries : List Sqe) (rttNs : Nat) (s : State) : Out :=
  .next (
    if !s.running c || s.host.admitStop || sqid = 0 then s
    else
      let r := s.host.rtt[c]
      let r' := (max r.1 rttNs, if 1024 < rttNs then r.2 + 1 else r.2)
      (s.onHost fun h => { h with rtt := h.rtt.set c r' }).fetch c sqid entries)

/-- FETCH_RESUME_ON_CONTEXT (R56): with a context free, the controller's paused queues are fetched from again. -/
def execFetchResumeOnContext (c : Fin 2) (s : State) : Out :=
  .next (if s.ctxFree c then s.onCtl c fun x => { x with sqs := x.sqs.map fun q => { q with paused := false } } else s)

/-- FLUSH (R68): it completes in the turn after its fetch. -/
def execFlush (r : CmdRef) (s : State) : Out :=
  .next (match s.cmd r with
    | some c =>
      if c.sqe.opcode = 0x00 && decide (c.fetched + 1 ≤ s.turn) && c.outcome.isSome && !s.waitsTurn c then
        match c.outcome with
        | some (sct, sc, _, dw0) => s.postCmd c ⟨sct, sc, dw0⟩ []
        | none => s
      else s
    | none => s)

/-- DATASET_MANAGEMENT (R194): with AD set the sluice decides it; with AD clear it completes in the turn after its
fetch. -/
def execDatasetManagement (r : CmdRef) (s : State) : Out :=
  .next (match s.cmd r with
    | some c =>
      if c.sqe.opcode = 0x09 && !c.sqe.ad && decide (c.fetched + 1 ≤ s.turn) && !s.waitsTurn c then
        match c.outcome with
        | some (sct, sc, _, dw0) => s.postCmd c ⟨sct, sc, dw0⟩ []
        | none => s
      else s.decideUpTo r (· == 0x09)
    | none => s)

/-! ### Queue management (R62, R57) -/

/-- CREATE_IO_CQ (R62). -/
def State.createCq (s : State) (c : Fin 2) (a : Adm) (qid qsize vector : Nat) (pc ien : Bool) : State :=
  if !pc then s.reply a St.invalidField []
  else if qid = 0 || 8192 < qid || (s.cq c qid).isSome then s.reply a St.invalidQueue []
  else if qsize = 0 || 65536 ≤ qsize then s.reply a St.invalidQueueSize []
  else if 8192 ≤ vector then s.reply a St.invalidVector []
  else (s.onCtl c fun x => { x with cqs := x.cqs ++ [{ qid := qid, size := qsize + 1, vector := vector, ien := ien }] }).reply a St.ok []

def execCreateIoCq (a : Adm) (qid qsize vector : Nat) (pc ien : Bool) (s : State) : Out :=
  .next (s.admin a fun s =>
    match admCtrl a.path with
        | some c => s.createCq c a qid qsize vector pc ien
        | none => s.reply a St.invalidOpcode [])

/-- CREATE_IO_SQ (R62): class DC7 and unordered until FID 0xC1 and 0xC2 say otherwise. -/
def State.createSq (s : State) (c : Fin 2) (a : Adm) (qid qsize cqid : Nat) (pc : Bool) : State :=
  if !pc then s.reply a St.invalidField []
  else if cqid = 0 || (s.cq c cqid).isNone then s.reply a St.invalidCq []
  else if qid = 0 || 8192 < qid || (s.sq c qid).isSome then s.reply a St.invalidQueue []
  else if qsize = 0 || 65536 ≤ qsize then s.reply a St.invalidQueueSize []
  else (s.onCtl c fun x => { x with sqs := x.sqs ++ [{ qid := qid, size := qsize + 1, cqid := cqid }] }).reply a St.ok []

def execCreateIoSq (a : Adm) (qid qsize cqid : Nat) (pc : Bool) (s : State) : Out :=
  .next (s.admin a fun s =>
    match admCtrl a.path with
        | some c => s.createSq c a qid qsize cqid pc
        | none => s.reply a St.invalidOpcode [])

/-- End the commands of a controller or a queue as R53 states. -/
def State.abandon (s : State) (p : Cmd → Bool) : State :=
  let hit := s.host.cmds.filter p
  hit.foldl (fun s k =>
    if k.phase == .accepted || k.phase == .started then
      (if k.sqe.opcode == 0x01 || k.sqe.opcode == 0x7D then s.cancelWrites k.plan else s).onCmd k.ref fun k => { k with discard := true }
    else s.dropCmd k.ref) s

/-- DELETE_IO_SQ (R62): its outstanding commands end as R53 states, and its frozen record is discarded. -/
def State.deleteSq (s : State) (c : Fin 2) (a : Adm) (qid : Nat) : State :=
  if qid = 0 || (s.sq c qid).isNone then s.reply a St.invalidQueue []
  else
    ((s.abandon fun k => k.ref.ctrl == c && k.ref.sqid == qid).onCtl c fun x =>
      { x with sqs := x.sqs.filter (fun q => q.qid != qid), freezes := x.freezes.filter fun f => f.sqid != qid }).reply a St.ok []

def execDeleteIoSq (a : Adm) (qid : Nat) (s : State) : Out :=
  .next (s.admin a fun s =>
    match admCtrl a.path with | some c => s.deleteSq c a qid | none => s.reply a St.invalidOpcode [])

/-- DELETE_IO_CQ (R62): a completion queue that a submission queue still uses is not deleted. -/
def State.deleteCq (s : State) (c : Fin 2) (a : Adm) (qid : Nat) : State :=
  if qid = 0 || (s.cq c qid).isNone then s.reply a St.invalidQueue []
  else if (s.ctl c).sqs.any fun q => q.cqid == qid then s.reply a St.invalidDeletion []
  else (s.onCtl c fun x => { x with cqs := x.cqs.filter fun q => q.qid != qid }).reply a St.ok []

def execDeleteIoCq (a : Adm) (qid : Nat) (s : State) : Out :=
  .next (s.admin a fun s =>
    match admCtrl a.path with | some c => s.deleteCq c a qid | none => s.reply a St.invalidOpcode [])

/-! ### Abort (R71, R72) -/

/-- The Abort completes in a later turn, and not before the command that it took out (R72). -/
def State.abortLater (s : State) (c : Fin 2) (a : Adm) (target : Option (CmdRef × Nat)) (bit : Nat) : State :=
  s.onCtl c fun x => { x with aborts := x.aborts ++ [⟨a, target, bit, s.turn⟩] }

/-- A command's completion is issued in this turn or has been (R71). -/
def Cmd.posting (k : Cmd) (now : Nat) : Bool := match k.outcome, k.postAt with | some _, some t => decide (t ≤ now) | _, _ => false

/-- Abort a target by its state as the turn's opening edge latched it (Table 02.11, R29): one that was not fetched before is unaffected, as
is one that has started or is in posting; another ends with Command Abort Requested, posted from the next turn on, and its reservations
go at the edge. -/
def State.abortIo (s : State) (c : Fin 2) (a : Adm) (k : Cmd) : State :=
  if k.fetched = s.turn || k.posting s.turn || k.phase == .started then s.abortLater c a none 1
  else
    let s := if k.phase == .accepted then s.onSluice fun x => { x with released := x.released ++ [k.plan] } else s
    ((s.onCmd k.ref fun k => { k with phase := .fetched }).settle k.ref St.abortRequested (s.turn + 1)).abortLater c a (some (k.ref, k.order)) 0

/-- Whether an Abort can complete: it was processed in an earlier turn, and the completion entry of the command that it took out has
been written (R72). -/
def State.abortReady (s : State) (c : Fin 2) (p : PendingAbort) : Bool :=
  decide (p.turn < s.turn) &&
    match p.target with
    | none => true
    | some (r, n) => !(s.host.cmds.any fun k => k.order == n) && !((s.ctl c).cqs.any fun q => q.held.any fun x => x.e.sqid == r.sqid && x.e.cid == r.cid)

/-- Aborts complete in the posting part of the turn, after their targets. -/
def State.replyAborts (s : State) (c : Fin 2) : State :=
  let go := (s.ctl c).aborts.filter (s.abortReady c)
  go.foldl (fun s p => s.reply p.adm (St.done p.bit) [])
    (if go.isEmpty then s else s.onCtl c fun x => { x with aborts := x.aborts.filter fun p => !s.abortReady c p })

/-- ABORT (R71): ACL is 63, so 64 are outstanding at most. -/
def State.abortCmd (s : State) (c : Fin 2) (a : Adm) (sqid cid : Nat) : State :=
  if 64 ≤ (s.ctl c).aborts.length then s.reply a St.abortLimit []
  else if sqid = 0 then
    match (s.ctl c).aers.find? fun x => x.cid == cid with
    | some e => ((s.onCtl c fun x => { x with aers := x.aers.filter fun y => y.cid != cid }).reply e St.abortRequested []).abortLater c a none 0
    | none => s.abortLater c a none 1
  else
    match s.cmd ⟨c, sqid, cid⟩ with
    | some k => s.abortIo c a k
    | none => s.abortLater c a none 1

def execAbort (a : Adm) (sqid cid : Nat) (s : State) : Out :=
  .next (s.admin a fun s => match admCtrl a.path with | some c => s.abortCmd c a sqid cid | none => s.reply a St.invalidOpcode [])

/-! ### Queue Restart (R77, R75) -/

def State.restartSq (s : State) (c : Fin 2) (a : Adm) (sqid freezeSeq : Nat) : State :=
  if s.level c < 2 then s.reply a St.invalidOpcode []
  else
    match (if sqid = 0 then none else s.sq c sqid) with
    | none => s.reply a St.invalidQueue []
    | some q =>
      if !q.frozen then s.reply a St.sequence []
      else if !((s.ctl c).freezes.any fun f => f.sqid == sqid && f.seq == freezeSeq) then s.reply a St.invalidField []
      else
        let s := s.onSq c sqid fun q => { q with frozen := false, storedTail := none }
        let s := match q.storedTail with | some v => s.observeTail c q v | none => s
        (s.onCtl c fun x =>
          { x with freezes := x.freezes.filter (fun f => f.sqid != sqid), freezeGen := x.freezeGen + 1 }).reply a St.ok []

/-- QUEUE_RESTART (R77). -/
def execQueueRestart (a : Adm) (sqid freezeSeq : Nat) (s : State) : Out :=
  .next (s.admin a fun s =>
    match admCtrl a.path with | some c => s.restartSq c a sqid freezeSeq | none => s.reply a St.invalidOpcode [])

/-- A command whose range list is host data that it still has to read: a Copy or Dataset Management that is not decided. -/
def Cmd.readsRanges (k : Cmd) : Bool := (k.sqe.opcode == 0x19 || k.sqe.opcode == 0x09) && (k.phase == .fetched || k.phase == .held)

/-- The outcome of a command is settled, other than the success of a Dataset Management that is still to complete. -/
def Cmd.isSettled (k : Cmd) : Bool :=
  match k.outcome with
  | none => false
  | some o => !(k.sqe.opcode == 0x09 && o.1 == 0 && o.2.1 == 0)

/-- A poisoned or failed TLP of an I/O command: it ends with Data Transfer Error and touches no data (R51). -/
def State.poisonIo (s : State) (r : CmdRef) : State :=
  match s.cmd r with
  | some k =>
    let landed := (s.sluice.plans.filter fun p => p.id == k.plan).any fun p => p.writes.any (·.landed)
    if k.isSettled || landed || !((carriesHostData k.sqe.opcode && k.sqe.opcode != 0x02) || k.readsRanges) then s
    else
      let s := if k.phase == .accepted || k.phase == .started then s.endPlan k.plan else s
      ((s.onCmd r fun k => { k with phase := .fetched, poisoned := true, outcome := none }).settle r St.dataTransfer (s.turn + 1)).setFld
        Reg.HGT_EVENT_POISONED 1
  | none => s

/-- POISONED_TLP (R51). Of an admin queue, the entry's fetch or the command's data arrives poisoned: the command ends with Data Transfer
Error when its row comes. -/
def execPoisonedTlp (r : CmdRef) (s : State) : Out :=
  .next (if r.sqid = 0 then
      (s.onCtl r.ctrl fun x => { x with poisoned := r.cid :: x.poisoned.erase r.cid }).setFld Reg.HGT_EVENT_POISONED 1
    else s.poisonIo r)

end Sys2Proof.Machine
end

