-- ==== Sys2Proof/Machine/Deliver.lean ====
section
/-! DEFINITION. What a command delivers: protection information (R291–R295), the contents of its reads, and the sectors
that its writes land (R192, R193, R286). -/

namespace Sys2Proof.Machine

/-! ### Protection information -/

/-- Big-endian bytes. -/
def beBytes (n v : Nat) : Bytes := (leBytes n v).reverse
def beNat (b : Bytes) : Nat := leNat b.reverse

/-- The offset of the 8 bytes of protection information in a block's metadata (R291). -/
def piOffset (ns : Namespace) : Nat := if mdBytes ns.lbaf = 64 && !ns.piFirst then 56 else 0

/-- The fields that protection information carries. -/
structure PiFields where
  guard : Nat
  app : Nat
  ref : Nat
  deriving DecidableEq, Repr

def piOf (ns : Namespace) (md : Bytes) : PiFields :=
  let t := slice md (piOffset ns) 8
  ⟨beNat (t.take 2), beNat (slice t 2 2), beNat (slice t 4 4)⟩

def piBytes (f : PiFields) : Bytes := beBytes 2 f.guard ++ beBytes 2 f.app ++ beBytes 4 f.ref

/-- Checks are disabled for the block: application tag all ones, and for Type 3 the reference tag as well. -/
def piDisabled (ns : Namespace) (f : PiFields) : Bool := f.app == 0xFFFF && (ns.pi != 3 || f.ref == 0xFFFFFFFF)

/-- Check the fields named by PRCHK of block i (R293, R294). -/
def checkPi (ns : Namespace) (prinfo ilbrt lbat lbatm i : Nat) (data md : Bytes) : Option Status :=
  let f := piOf ns md
  if ns.pi = 0 || piDisabled ns f then none
  else if natBits prinfo 2 1 = 1 && f.guard != guard16 data then some St.guard
  else if natBits prinfo 1 1 = 1 && (f.app &&& lbatm) != (lbat &&& lbatm) then some St.appTag
  else if natBits prinfo 0 1 = 1 && ns.pi != 3 && f.ref != (ilbrt + i) % 2 ^ 32 then some St.refTag
  else none

/-- Form the protection information of block i (PRACT 1). -/
def formPi (ns : Namespace) (ilbrt lbat i : Nat) (data md : Bytes) : Bytes :=
  let f : PiFields := ⟨guard16 data, lbat % 2 ^ 16, if ns.pi = 3 then ilbrt % 2 ^ 32 else (ilbrt + i) % 2 ^ 32⟩
  splice (padTo (mdBytes ns.lbaf) md) (piOffset ns) (piBytes f)

/-- PRACT. -/
def pract (prinfo : Nat) : Bool := natBits prinfo 3 1 == 1

/-- The first failing check of a list of blocks, from block i on, with its number. -/
def firstBad (check : Nat → Bytes → Bytes → Option Status) : Nat → List Bytes → List Bytes → Option (Nat × Status)
  | i, d :: ds, m :: ms => match check i d m with | some st => some (i, st) | none => firstBad check (i + 1) ds ms
  | _, _, _ => none

/-- The metadata that enters with a write, or the status of its failing check (Table 08.4): formed when PRACT is 1, else
checked and stored as received. -/
def entryMd (ns : Namespace) (q : Sqe) (data md : List Bytes) : Except Status (List Bytes) :=
  let ms := mdBytes ns.lbaf
  let md := (List.range data.length).map fun i => padTo ms (md.getD i [])
  if ns.pi = 0 then .ok md
  else if pract q.prinfo then .ok ((data.zip md).zipIdx.map fun x => formPi ns q.ilbrt q.lbat x.2 x.1.1 x.1.2)
  else
    match firstBad (checkPi ns q.prinfo q.ilbrt q.lbat q.lbatm) 0 data md with
    | some b => .error b.2
    | none => .ok md

/-- The exit check of read blocks: the first failing block (R293). -/
def exitCheck (ns : Namespace) (prinfo : Nat) (q : Sqe) (data md : List Bytes) : Option (Nat × Status) :=
  firstBad (checkPi ns prinfo q.ilbrt q.lbat q.lbatm) 0 data md

/-- What a read returns of its blocks: metadata stripped where PRACT is 1 and it is 8 bytes, and interleaved in an
extended LBA (R66, R293). -/
def returned (ns : Namespace) (q : Sqe) (data md : List Bytes) : List Bytes :=
  if md.isEmpty || (ns.pi != 0 && pract q.prinfo && mdBytes ns.lbaf == 8) then data
  else if ns.extended then List.zipWith (· ++ ·) data md
  else data ++ md

/-! ### Contents of a read -/

/-- Fields of sectors: field i of the run from field `at_` on, sectors counted from the run's first. -/
def fieldsFrom (secs : List (Option Sector)) (per at_ len : Nat) : List Bytes :=
  (List.range len).map fun i =>
    let j := at_ % per + i
    match secs.getD (j / per) none with
    | some x => x.fields.getD (j % per) []
    | none => []

/-- A read's fields from its galley slot, where its sectors are valid (R186). -/
def State.slotData (s : State) (n : Nat) (u : UnitRead) : Option (List Bytes) :=
  match s.slot n with
  | none => none
  | some x =>
    let secs := (x.sectors.drop (u.at_ / u.per)).take u.sectors
    if secs.all (·.isSome) && decide (secs.length = u.sectors) then some (fieldsFrom secs u.per u.at_ u.len) else none

/-- The stored content of a flash unit. -/
def State.unitAt (s : State) (lane f m : Nat) : Option MediaUnit :=
  let x := s.place lane f m
  klook (unitKey x.1.die x.1.block x.2) s.flash.units

/-- A read's fields from flash; what was never programmed is a free value. -/
def State.flashData (s : State) (u : UnitRead) : List Bytes :=
  match u.loc with
  | none => []
  | some (l, f, m) =>
    match s.unitAt l f m with
    | some x => fieldsFrom (((x.sectors.drop u.cw).take u.sectors).map (·.map (·.2.2))) u.per u.at_ u.len
    | none => (List.range u.len).map fun i => Config.freeBytes (s.free + i) (if u.per = 8 then 512 else 4096)

/-- Fields of a special code: zeros, or the metadata of R295. -/
def specialFields (ns : Namespace) (u : UnitRead) : List Bytes :=
  let z := u.spec == some 1
  List.replicate u.len (if u.md then specialMd ns z else fill (blockBytes ns.lbaf) 0)

/-- The fields of a settled read. -/
def readFields (ns : Namespace) (u : UnitRead) : List Bytes := match u.path with | .special => specialFields ns u | _ => u.data

/-- The data and the metadata blocks of a command's reads, in block order. -/
def gathered (ns : Namespace) (us : List UnitRead) : List Bytes × List Bytes :=
  ((us.filter fun u => !u.md).flatMap (readFields ns), (us.filter fun u => u.md).flatMap (readFields ns))

/-- A read has ended one way or another. -/
def UnitRead.settled (u : UnitRead) : Bool :=
  match u.path with | .done | .special | .lost | .noData => true | _ => false

/-- The status that reads end with: LOST, or without data (R109). -/
def readsStatus (level0 best : Bool) (us : List UnitRead) : Option Status :=
  if us.any (·.path == .lost) then some St.unrecovered
  else if us.any (·.path == .noData) then some (if level0 || best then St.unrecovered else St.noData)
  else none

/-! ### Zone descriptors -/

/-- A zone descriptor of the Zoned Namespace Command Set: type, state, capacity, start, write pointer. -/
def zoneDescriptor (ns : Namespace) (z st wp : Nat) : Bytes :=
  [2, BitVec.ofNat 8 (st * 16)] ++ fill 6 0 ++ leBytes 8 (zoneBlocks ns) ++ leBytes 8 (z * zoneBlocks ns) ++
    leBytes 8 (z * zoneBlocks ns + wp) ++ fill 32 0

/-- What Zone Management Receive returns. -/
def State.zoneReport (s : State) (q : Sqe) (ns : Namespace) : Bytes :=
  let zs := (List.range ns.dataGrans).drop (q.slba / zoneBlocks ns)
  let one (z : Nat) : Bytes :=
    match s.zoneOf q.nsid z with | some g => zoneDescriptor ns z (s.zone g).1 (s.zone g).2 | none => []
  (leBytes 8 zs.length ++ fill 56 0 ++ zs.flatMap one).take (sqeZoneBytes q ns)

/-! ### Sectors that a write lands -/

/-- A sector with its proof code (R287). -/
def mkSector (fields : List Bytes) : Sector := ⟨fields, crc32c fields.flatten⟩

/-- Put new fields over a sector's fields: field i of the sector is written where the write covers it. -/
def overlayFields (w : UnitWrite) (k : Nat) (old : List Bytes) : List Bytes :=
  (List.range w.per).map fun i =>
    let j := k * w.per + i
    if w.at_ ≤ j ∧ j < w.at_ + w.len then w.data.getD (j - w.at_) [] else old.getD i []

/-- The fields that a fill read supplies for sector k of a unit. -/
def fillFields (ns : Namespace) (fills : List UnitRead) (w : UnitWrite) (k : Nat) : List Bytes :=
  match fills.find? fun u => u.g == w.g && u.at_ == k * w.per with
  | some u => readFields ns u
  | none => []

/-- Sector k of a landing unit: written whole, filled, or moved whole from the older residency (R192, R193). -/
def landSector (ns : Namespace) (fills : List UnitRead) (w : UnitWrite) (older : Option Slot) (k : Nat) : Option Sector :=
  if w.at_ ≤ k * w.per ∧ (k + 1) * w.per ≤ w.at_ + w.len then some (mkSector (overlayFields w k []))
  else if k * w.per < w.at_ + w.len ∧ w.at_ < (k + 1) * w.per then some (mkSector (overlayFields w k (fillFields ns fills w k)))
  else older.bind fun x => x.sectors.getD k none

end Sys2Proof.Machine
end

