-- ==== Sys2Proof/Machine/Exec.lean ====
section
/-! DEFINITION. How accepted plans run, turn by turn (chapter 3, R103–R109, R117; R30, R151): the steps of each read's chain on
its die and channel, the change of path when a chain fails, the landing of writes, the map-only steps, and the posting. -/

namespace Sys2Proof.Machine

/-- A unit's step of the turn is withheld: it overran, or its pair disagreed (R31, R43). The units are those of R308. -/
def withheld (e : EdgeEnv) (u : Nat) : Bool := e.overruns.contains u || e.mismatches.contains u

/-! ### One die read -/

/-- What a die read is stepped for: its plan and the chain's bookings, whether it is an armed second chance, whether its plan has a posting
limit, and the turn before which a repeated transfer must be over. -/
structure ReadFor where
  plan : Nat
  tag : Nat
  second : Bool
  fore : Bool
  bound : Nat
  deriving DecidableEq, Repr

/-- A unit that a step needs has gone out of plan: the step counts as failed (R117). -/
def State.stepLost (s : State) (r : DieRead) : Bool :=
  !s.chanInPlan (r.die / 16) s.turn || outAt s.sluice.diesOut r.die s.turn || (s.die r.die).stopped

/-- The steps due in a turn whose unit's step is withheld are run again in the next (R31). -/
def DieRead.again (t : Nat) (r : DieRead) : DieRead :=
  let up (x : Nat) : Nat := if x = t then t + 1 else x
  { r with suspend := r.suspend.map up, issue := up r.issue, resume := r.resume.map up }

/-- The issue of a read in its turn, after its threshold template; a die that cannot take it fails the step (R151). -/
def State.stepIssue (s : State) (r : DieRead) : State × DieRead :=
  if (s.die r.die).canRead then (s.issueRead r.die r.block r.page r.thr, { r with phase := .issued }) else (s, { r with phase := .failed })

/-- A waiting read in a turn: its suspend, or its issue, each only in the turn that the plan holds for it (R151). A second chance on a die
that has no hold reads at once inside its booked interval (R104). -/
def State.stepWaiting (s : State) (w : ReadFor) (r : DieRead) : State × DieRead :=
  let d := s.die r.die
  if r.issue = s.turn || (w.second && decide (r.start ≤ s.turn) && d.hold.isNone && d.canRead) then s.stepIssue r
  else if r.issue < s.turn then (s, { r with phase := .failed })
  else if r.suspend = some s.turn && d.busy.isSome then (s.issueSuspend r.die, r)
  else (s, r)

/-- A free window of len turns on a channel for a repeated transfer, over before a bound (R143). -/
def State.repeatTurn (s : State) (ch len bound : Nat) : Option Nat :=
  firstTurn (fun t => (List.range len).all fun i => (at' s.turn s.sluice.bookings (.chan ch) (t + i)).isEmpty) (bound - s.turn - len) (s.turn + 1)

/-- A transfer that fails its interface CRC: counted, and repeated in a booked window at most three times; then, or where no window comes in
time, its codewords go forward as hard-decode failures, and after the third repeat the engine starts a retrain (R143). -/
def State.crcFailure (s : State) (w : ReadFor) (r : DieRead) : State × DieRead :=
  let ch := r.die / 16
  let s := s.addFld (Reg.FCE_IFCRC_ERRORS ch) 1
  let lost : DieRead := { r with phase := .moved, failed := r.cws }
  if 3 ≤ r.repeats then ((s.setFld (Reg.FCE_EVENT_IFCRC_EXHAUST ch) 1).retrain ch (s.rung ch) false, lost)
  else
    let len := xferTurns (s.rung ch) r.cws.length
    match s.repeatTurn ch len w.bound with
    | some t =>
      let b : Booking := { res := .chan ch, start := t, len := len, plan := w.plan, tag := w.tag }
      (s.onSluice fun x => { x with bookings := b :: x.bookings }, { r with xfer := (t, t + len - 1), repeats := r.repeats + 1 })
    | none => (s, lost)

/-- An issued read in a turn: ready in its ready turn, then its transfer window, which the channel engine opens. -/
def State.stepIssued (s : State) (e : EdgeEnv) (w : ReadFor) (r : DieRead) : State × DieRead :=
  let ch := r.die / 16
  if r.ready = s.turn && (s.die r.die).busy.isSome then (s, { r with phase := .failed })
  else if s.turn < r.xfer.2 then (s, r)
  else if withheld e (0x400 + ch) then (s, { r with xfer := (r.xfer.1, s.turn + 1) })
  else if (s.die r.die).busy.isSome || (s.die r.die).page != some (r.block, r.page) then (s, { r with phase := .failed })
  else if s.flag (Reg.FCE_CTRL_IFCRC_EN ch) && e.ifcrcFails.contains (w.plan, r.die) then s.crcFailure w r
  else
    let s := if 0 < r.repeats then s.addFld (Reg.FCE_IFCRC_REPEATS_OK ch) 1 else s
    let s := if w.fore then s.onFlash fun x => { x with readBus := x.readBus + (r.xfer.2 + 1 - r.xfer.1) * bTurn (s.rung ch) } else s
    (s.setFur r.die (if (s.die r.die).hold.isSome then 8 else 1), { r with phase := .moved })

/-- The resume of a suspended hold, in the turn after the window, unless another step is booked on the die or its channel is
down (R103, R146). -/
def State.stepResume (s : State) (r : DieRead) : State :=
  match r.resume with
  | some t =>
    if t = s.turn && (s.die r.die).busy.isNone && s.efld (Reg.FCE_STATUS_STATE (r.die / 16)) == 2 &&
      planFree s.turn s.sluice.bookings (.die r.die) t then s.issueResume r.die else s
  | none => s

/-- One turn of one die read of a chain. -/
def State.stepDie (s : State) (e : EdgeEnv) (w : ReadFor) (r : DieRead) : State × DieRead :=
  if withheld e r.die then (s, r.again s.turn)
  else
    match r.phase with
    | .failed | .moved => (s.stepResume r, r)
    | .waiting => if s.stepLost r then (s, { r with phase := .failed }) else s.stepWaiting w r
    | .issued => if s.stepLost r then (s, { r with phase := .failed }) else s.stepIssued e w r

/-- One turn of a list of die reads. -/
def State.stepDies (s : State) (e : EdgeEnv) (w : ReadFor) : List DieRead → State × List DieRead
  | [] => (s, [])
  | r :: t =>
    let a := s.stepDie e w r
    let b := a.1.stepDies e w t
    (b.1, a.2 :: b.2)

/-- The steps of a chain that does not run yet fail with their unit, and stay failed when it is back (R117). -/
def State.loseSteps (s : State) (c : Chain) : Chain :=
  { c with reads := c.reads.map fun r => if r.phase == .waiting && s.stepLost r then { r with phase := .failed } else r }

/-! ### A unit's read -/

/-- The chain that a path follows. -/
def UnitRead.chain (u : UnitRead) : Option Chain :=
  match u.path with
  | .primary => u.primary
  | .retry => u.retry
  | .second => u.second
  | _ => none

def UnitRead.setChain (u : UnitRead) (c : Chain) : UnitRead :=
  match u.path with
  | .primary => { u with primary := some c }
  | .retry => { u with retry := some c }
  | .second => { u with second := some c }
  | _ => u

/-- The chains that a path does not follow lose the steps of units that have gone out of plan. -/
def State.loseOthers (s : State) (u : UnitRead) : UnitRead :=
  let f (c : Option Chain) : Option Chain := c.map s.loseSteps
  match u.path with
  | .primary => { u with retry := f u.retry, second := f u.second }
  | .retry => { u with second := f u.second }
  | .slot => { u with primary := f u.primary, second := f u.second }
  | _ => u

/-- Reads of a chain that passed a codeword, where the chain is a rebuild or where it is not. -/
def passedIn (rebuild : Bool) (cw : Nat) : Option Chain → Nat
  | some c => if c.rebuild.isSome == rebuild then (c.reads.filter fun r => r.passed.contains cw).length else 0
  | none => 0

/-- A codeword was decoded itself. -/
def UnitRead.direct (u : UnitRead) (cw : Nat) : Bool := decide (0 < passedIn false cw u.primary + passedIn false cw u.retry)

/-- A codeword is there: decoded itself, or rebuilt from 14 members (R104, R267). -/
def UnitRead.has (u : UnitRead) (cw : Nat) : Bool :=
  u.direct cw || decide (14 ≤ passedIn true cw u.primary + passedIn true cw u.second)

/-- Every codeword of the read is there. -/
def UnitRead.complete (u : UnitRead) : Bool := u.cws.all u.has

/-- The codeword positions still missing. -/
def UnitRead.missing (u : UnitRead) : List Nat := u.cws.filter fun k => !u.has k

/-- What laying a read again is asked for: background, in free capacity of the plan layer. -/
def State.askAgain (s : State) (p : Plan) (tag : Nat) (c : Option Cmd) : Ask :=
  ⟨s.turn, s.turn + 1, p.limit.getD (s.turn + 2 * ringLen), p.id, p.cls, true,
    match c with | some c => (if c.kind = .read then c.link else none) | none => none, tag⟩

/-- Lay a chain now and book it. -/
def State.layNow (s : State) (l : Lay Chain) : Option (Chain × State) :=
  match l ⟨s.sluice.bookings, []⟩ with
  | .ok (c, tr) => some (c, s.onSluice fun x => { x with bookings := tr.bs })
  | .error _ => none

/-- The members that can still be read for a rebuild. -/
def State.readable (s : State) (lane f m : Nat) : Nat :=
  ((s.peers lane f m).filter fun p => s.dieReadable p.2.1.die s.turn).length

/-- The six extra reads of L4 (Table 07.5). -/
def State.layReads (s : State) (a : Ask) (m : Nat) (mb : MBlock) (off n : Nat) : Nat → Nat → Lay (List DieRead)
  | 0, _ => pure []
  | k + 1, from_ => do
    let r ← s.layRead a false false [] m mb off n from_ 0
    let t ← s.layReads a m mb off n k (r.xfer.2 + 1)
    pure (r :: t)

/-- The chain of a background ladder step (Table 07.5): 0 to 2 hard reads, 3 and 4 soft, 5 a rebuild. -/
def State.layLadder (s : State) (a : Ask) (u : UnitRead) (lane f m : Nat) : Lay Chain :=
  let n := u.sectors
  let x := s.place lane f m
  if u.ladder ≤ 2 then s.layDirect a false false [] lane f m n a.start
  else if u.ladder = 3 then s.laySoft a lane f m n a.start
  else if u.ladder = 4 then do
    let rs ← s.layReads a m x.1 x.2 n 6 a.start
    let c ← s.layTail a false true [] n (2 * n) (lastXfer rs + 1) false n
    pure { c with reads := rs }
  else do
    let q ← s.layRebuild a false [] (s.peers lane f m) 14 28 n a.start
    pure q.1

/-- The age and wear steps of a ladder step (R260). -/
def ladderSteps (k : Nat) : Nat × Nat := match k with | 1 => (1, 0) | 2 => (2, 1) | _ => (0, 0)

/-- The next step of the background ladder that the member allows: an unreadable member goes straight to the rebuild,
and a forme with fewer than 14 readable members ends the read (R109, R253). -/
def State.climb (s : State) (u : UnitRead) (lane f m : Nat) : UnitRead :=
  let next := if s.dieReadable (s.place lane f m).1.die s.turn then u.ladder + 1 else 5
  if 5 < next ∨ (5 ≤ next ∧ u.ladder = 5) then { u with path := if s.readable lane f m < 14 then .lost else .primary, primary := none, ladder := 5 }
  else { u with ladder := next, path := .primary, primary := none }

/-- Plan a background read that has no chain yet, with the thresholds of its ladder step; where nothing fits it is tried again in the next
turn. A member that cannot be read is rebuilt. -/
def State.layPending (s : State) (p : Plan) (c : Option Cmd) (tag : Nat) (u : UnitRead) : State × UnitRead :=
  match u.path, u.primary, u.loc with
  | .primary, none, some (l, f, m) =>
    let x := s.place l f m
    let u := if s.dieReadable x.1.die s.turn then u else { u with ladder := 5 }
    if u.ladder = 5 ∧ s.readable l f m < 14 then (s, { u with path := .lost })
    else
      match s.layNow (s.layLadder (s.askAgain p (tag + 3) c) u l f m) with
      | some (ch, s) =>
        let st := s.stampOf l (f / max 1 s.unitsPerMb) m x.2
        let k := ladderSteps u.ladder
        (s, { u with primary := some (s.offset st k.1 k.2 (ch.positions u.cws)), thr := s.offsetsFor st x.2 x.1.die k.1 k.2 })
      | none => (s, u)
  | _, _, _ => (s, u)

/-! ### Second chances (R104, R109) -/

/-- A rebuild reads only the missing codeword positions of each peer, in a window as long as they take (R104, R158). -/
def State.narrow (s : State) (cws : List Nat) (c : Chain) : Chain :=
  { c with reads := c.reads.map fun r =>
      { r with cws := cws, xfer := (r.xfer.1, min r.xfer.2 (r.xfer.1 + xferTurns (s.rung (r.die / 16)) cws.length - 1)) } }

/-- Two bookings of armed second chances that cannot both be used: one turn of a die or channel, or a turn of a counted resource without
room for all that is armed (R109). -/
def State.clash (s : State) (armed : List Booking) (a b : Booking) : Bool :=
  a.res == b.res && decide (a.start < b.start + b.len) && decide (b.start < a.start + a.len) &&
  match a.res with
  | .die _ | .chan _ => true
  | r => (List.range a.len).any fun i =>
      let t := a.start + i
      decide (b.start ≤ t) && decide (t < b.start + b.len) &&
        decide (s.cap r < planCount s.turn s.sluice.bookings r t + (armed.filter fun x => x.res == r && x.covers s.turn t).foldl (fun n x => n + x.amt) 0)

/-- The other armed second chances that need a culvert booking of this one. -/
def State.rivals (s : State) (me : Nat × Nat) : List (Nat × Nat) :=
  let all := s.sluice.bookings.filter fun b => b.culvert && s.sluice.armed.contains (b.plan, b.tag)
  let mine := all.filter fun b => (b.plan, b.tag) == me
  s.sluice.armed.filter fun y => y != me && all.any fun b => (b.plan, b.tag) == y && mine.any fun a => s.clash all a b

/-- Lay a second chance again at once in free capacity of either layer, in the layer in which it posts first: a culvert booking that stacks
on no other (R109). A read behind a cancelled write is laid as a read of its location. -/
def State.relay (s : State) (p : Plan) (c : Option Cmd) (tag : Nat) (u : UnitRead) : Option (Chain × State) :=
  match u.loc with
  | none => none
  | some (l, f, m) =>
    let bs := s.sluice.bookings.filter fun b => !(b.plan == p.id && b.tag == tag)
    let a := s.askAgain p tag c
    let src (culvert : Bool) : List Nat := if culvert then List.range 66 else []
    let lay (culvert : Bool) : Except Nat (Chain × Trial) :=
      (if tag % 4 = 0 then s.layDirect a culvert culvert (src culvert) l f m u.sectors a.start
        else do let q ← s.layRebuild a culvert (src culvert) (s.peers l f m) 14 (if culvert then 8 else 28) u.sectors a.start; pure q.1) ⟨bs, []⟩
    let done (x : Chain × Trial) : Option (Chain × State) := some (x.1, s.onSluice fun y => { y with bookings := x.2.bs })
    match lay false, lay true with
    | .ok x, .ok y => if y.1.post < x.1.post then done y else done x
    | .ok x, _ => done x
    | _, .ok y => done y
    | _, _ => none

/-- A read takes the chain that was laid again for it; without one it waits for its posting limit without data. -/
def State.takeChain (s : State) (tag : Nat) (u : UnitRead) (x : Option (Chain × State)) : State × UnitRead :=
  match x with
  | none => (s, { u with path := .noData })
  | some (ch, t) =>
    let st := match u.loc with | some (l, f, m) => t.stampOf l (f / max 1 t.unitsPerMb) m (t.place l f m).2 | none => 0
    let ch := t.offset st 0 0 (ch.positions u.cws)
    (t, if tag % 4 = 0 then { u with primary := some ch } else { u with second := some (t.narrow u.missing ch) })

/-- Change the read that a chain of a plan belongs to. -/
def Plan.setRead (p : Plan) (i : Nat) (u : UnitRead) : Plan :=
  if i < p.reads.length then { p with reads := updAt (fun _ => u) i p.reads } else { p with fills := updAt (fun _ => u) (i - p.reads.length) p.fills }

/-- Plan the second chance of another plan's read again. -/
def State.relayOther (s : State) (y : Nat × Nat) : State :=
  match s.sluice.plans.find? fun q => q.id == y.1 with
  | none => s
  | some q =>
    match (q.reads ++ q.fills)[y.2 / 4]? with
    | none => s
    | some u =>
      let r := s.takeChain y.2 u (s.relay q (q.ref.bind s.cmd) y.2 u)
      r.1.onSluice fun x => { x with plans := updIf (fun z => z.id == q.id) (fun z => z.setRead (y.2 / 4) r.2) x.plans }

/-- The posting limit of a plan by its number; a best-effort plan has none. -/
def State.limitOfPlan (s : State) (id : Nat) : Nat := ((s.sluice.plans.find? fun q => q.id == id).bind (·.limit)).getD (s.turn + 4 * ringLen)

/-- Invoke a second chance: it is armed, and where it needs the bookings of others that are, the read with the earlier posting limit uses
them and the other is planned again at once (R109). -/
def State.invoke (s : State) (p : Plan) (c : Option Cmd) (tag : Nat) (u : UnitRead) : State × UnitRead :=
  let s := (s.onAcct p.cls fun x => { x with second := x.second + 1 }).onSluice fun x => { x with armed := x.armed ++ [(p.id, tag)] }
  let rs := s.rivals (p.id, tag)
  if rs.isEmpty then (s, u)
  else
    let s := s.addFld Reg.SLU_CULV_COLLIDE 1
    if rs.all fun y => decide (s.limitOfPlan p.id < s.limitOfPlan y.1) then (rs.foldl State.relayOther s, u)
    else s.takeChain tag u (s.relay p c tag u)

/-- Arm a second chance (R104), with its media report (R252). -/
def State.arm (s : State) (p : Plan) (c : Option Cmd) (tag : Nat) (u : UnitRead) (sec : Chain) : State × UnitRead :=
  let s := match u.loc with
    | some (l, f, m) =>
      let x := s.place l f m
      s.report 6 5 x.1.die x.1.block (s.pageOf x.2) ((u.cws.find? fun k => !u.has k).getD u.cw) 0
    | none => s
  s.invoke p c (tag + 2) { u with path := .second, secondUsed := true, second := some (s.narrow u.missing sec) }

/-- The path after a chain fails: the soft retry, then the second chance, or the background ladder (R104, R254, R253). A background read
that was not issued or not transferred, with no decode of its own failed, is planned again at the same step (R151). -/
def State.advancePath (s : State) (p : Plan) (c : Option Cmd) (tag : Nat) (u : UnitRead) : State × UnitRead :=
  let best := p.limit.isNone
  let failed : Bool := match u.chain with | some ch => ch.reads.any (fun r => !r.failed.isEmpty) | none => false
  let own : Bool := match u.chain with | some ch => failed && ch.rebuild.isNone | none => false
  let u := { u with decFail := u.decFail || own }
  match u.path, u.retry, u.second, u.loc with
  | .primary, some _, _, _ => (s, { u with path := .retry })
  | .primary, none, some d, _ => s.arm p c tag u d
  | .retry, _, some d, _ => s.arm p c tag u d
  | .primary, none, none, some (l, f, m) =>
    if !best then (s, { u with path := .noData })
    else if failed then (s, s.climb u l f m) else (s, { u with primary := none })
  | _, _, _, _ => (s, { u with path := .noData })

/-- Deliver a read at the end of its proof check: its data, and the turn from which the command can post. -/
def State.deliver (s : State) (u : UnitRead) (c : Chain) : UnitRead := { u with path := .done, data := s.flashData u, out := c.post }

/-- A chain whose decode starts after a turn: where a background transfer was repeated, the steps after it move (R143). -/
def Chain.after (c : Chain) (t : Nat) : Chain :=
  let d := t + 1 - c.decode.1
  { c with decode := (c.decode.1 + d, c.decode.2 + d), rebuild := c.rebuild.map (· + d), proof := c.proof + d, host := (c.host.1 + d, c.host.2 + d)
           post := c.post + d }

/-- The steps of a chain from a turn on, each a turn later. -/
def Chain.slip (c : Chain) (t : Nat) : Chain :=
  let up (x : Nat) : Nat := if t ≤ x then x + 1 else x
  { c with decode := (c.decode.1, up c.decode.2), rebuild := c.rebuild.map up, proof := up c.proof, host := (up c.host.1, up c.host.2), post := up c.post }

/-- A step after the transfers whose unit's step is withheld is run again in the next turn (R31, R43): the decoder farm's, the forme engine's,
the crypto engine's. -/
def Chain.again (c : Chain) (e : EdgeEnv) (t : Nat) : Chain :=
  if (decide (c.decode.1 ≤ t) && decide (t ≤ c.decode.2) && withheld e 0x452) || (c.rebuild == some t && withheld e 0x444) ||
    (c.proof == t && withheld e 0x445) then c.slip t else c

/-- A read that a rebuild delivers has passed at ladder step L5 (R276), and has the class of one recovered from its peers where its own
decode failed (R275). -/
def State.noteRebuilt (s : State) (u : UnitRead) (c : Chain) : State :=
  match c.rebuild, u.loc with
  | some _, some (l, f, m) =>
    let s := s.onFlash fun x => { x with ladder := updAt (· + 1) 5 x.ladder }
    let x := s.place l f m
    if u.decFail then s.recoveredByPeers l (f / max 1 s.unitsPerMb) m x.2 x.1.die x.1.block else s
  | _, _ => s

/-- The place of a path's chain among the chains of its read. -/
def Path.tag : Path → Nat
  | .retry => 1
  | .second => 2
  | _ => 0

/-- The codewords of a chain all count as failed. -/
def Chain.spoilt (c : Chain) : Chain :=
  { c with reads := c.reads.map fun r => { r with passed := [], failed := r.passed ++ r.failed } }

/-- The proof check at the headgate exit fails for a unit from flash: it is rebuilt through its second chance, or by the next step of the
background ladder; where that was the rebuild, there is no data (R290; DEDUCED, assumption log 187). -/
def State.exitFails (s : State) (p : Plan) (c : Option Cmd) (tag : Nat) (u : UnitRead) : State × UnitRead :=
  let at_ := match u.loc with | some (l, f, m) => let x := s.place l f m; unitKey x.1.die x.1.block x.2 | none => 0
  let s := s.proofError 0x3FF false at_
  let u := { u with primary := u.primary.map Chain.spoilt, retry := u.retry.map Chain.spoilt, decFail := true }
  match u.path, u.second, u.loc with
  | .second, _, _ => (s, { u with path := .noData })
  | _, some d, _ => s.arm p c tag u d
  | _, none, some (l, f, m) => if p.limit.isNone then (s, s.climb u l f m) else (s, { u with path := .noData })
  | _, none, none => (s, { u with path := .noData })

/-- One turn of a chain: its die steps, the test at the end of its decodes, and the delivery after its proof check. -/
def State.stepChain (s : State) (e : EdgeEnv) (p : Plan) (c : Option Cmd) (tag : Nat) (u : UnitRead) (ch : Chain) : State × UnitRead :=
  let fore := p.limit.isSome
  let a := s.stepDies e ⟨p.id, tag + u.path.tag, u.path == .second, fore, if fore then ch.decode.2 + 1 else s.turn + ringLen⟩ ch.reads
  let s := a.1
  let ch := ({ ch with reads := a.2 }.after (if fore then 0 else lastXfer (a.2.filter fun r => r.phase == ReadPhase.issued))).again e s.turn
  let u := u.setChain ch
  if ch.proof ≤ s.turn && u.complete then
    (if e.proofFails.contains p.id then s.exitFails p c tag u else (s.noteRebuilt u ch, s.deliver u ch))
  else if ch.decode.2 ≤ s.turn && !u.complete then
    (if ch.rebuild.isSome then (s.addFld Reg.FRM_SHORT_COUNT 1).setFld Reg.FRM_EVENT_SHORT 1 else s).advancePath p c tag u
  else if ch.rebuild = some s.turn then (s.addFld Reg.FRM_REBUILT_COUNT (u.cws.filter fun k => !u.direct k).length, u)
  else (s, u)

/-- The galley controller's step, or the step of a DRAM channel that holds a copy of a slot, is withheld (R31). -/
def State.galleyHeld (s : State) (e : EdgeEnv) (n : Nat) : Bool :=
  withheld e 0x443 || withheld e (0x446 + (s.copyChans n).1) || withheld e (0x446 + (s.copyChans n).2)

/-- A galley copy whose proof check fails, or that holds an uncorrectable word: the mirror copy is read, in its booked turn or, for best effort, at once; where that fails too the
read has no data, and the unit is recorded LOST (R106, R290, R302). -/
def State.slotFails (s : State) (p : Plan) (u : UnitRead) (n : Nat) : State × UnitRead :=
  if u.secondUsed then ((s.recordLost u.g 0x0C).bookOp (.unit u.g 2), { u with path := .noData })
  else
    let m := u.mirror.getD (s.turn + 1 + s.glyHold, s.turn + 3 + s.glyHold)
    (s.onAcct p.cls fun x => { x with second := x.second + 1 },
      { u with slot := some (n, m.1), out := max u.out m.2, mirror := none, secondUsed := true })

/-- A galley read: in its turn from its slot; where the write it waits for was cancelled, from what was behind it
(Table 05.11). -/
def State.stepSlot (s : State) (e : EdgeEnv) (p : Plan) (c : Option Cmd) (tag : Nat) (u : UnitRead) (n t : Nat) : State × UnitRead :=
  let filling : Bool := match s.slot n with | some x => x.state == .filling | none => false
  match s.slotData n u with
  | some d =>
    if s.turn < t || s.galleyHeld e n then (s, u)
    else if e.galleyUes.contains p.id then
      (((s.addFld Reg.ERC_UE_COUNT 1).setFld Reg.ERC_EVENT_DRAM_UE 1).ercLast 0x3FF 2 false (s.copyChans n).1 (n * 16384)).slotFails p u n
    else if e.proofFails.contains p.id then (s.proofError 0x3FF false (n * 16384)).slotFails p u n
    else (s, { u with path := .done, data := d, out := u.out + (s.turn - t) })
  | none =>
    if filling then (s, u)
    else
      let again (v : UnitRead) : State × UnitRead :=
        match s.layUnit (s.askAgain p (tag + 3) c) v ⟨s.sluice.bookings, []⟩ with
        | .ok (g, tr) => (s.onSluice fun x => { x with bookings := tr.bs }, g.u)
        | .error _ => (s, { u with path := .noData })
      match u.loc, u.prev, u.spec with
      | some _, _, _ => s.invoke p c tag { u with path := .primary, slot := none }
      | none, some m, _ => if m = n then (s, { u with path := .noData }) else again { u with slot := some (m, 0), out := 0 }
      | none, none, some k => again { u with path := if k = 2 then .lost else .special, slot := none, out := 0 }
      | none, none, none => (s, { u with path := .noData })

/-- One turn of one unit read. -/
def State.stepUnit (s : State) (e : EdgeEnv) (p : Plan) (c : Option Cmd) (tag : Nat) (u : UnitRead) : State × UnitRead :=
  let a := s.layPending p c tag u
  let s := a.1
  let u := s.loseOthers a.2
  match u.path, u.slot, u.chain with
  | .slot, some (n, t), _ => s.stepSlot e p c tag u n t
  | .primary, _, some ch | .retry, _, some ch | .second, _, some ch => s.stepChain e p c tag u ch
  | _, _, _ => (s, u)

/-- One turn of a plan's reads. -/
def State.stepUnits (s : State) (e : EdgeEnv) (p : Plan) (c : Option Cmd) : Nat → List UnitRead → State × List UnitRead
  | _, [] => (s, [])
  | tag, u :: t =>
    let a := s.stepUnit e p c tag u
    let b := a.1.stepUnits e p c (tag + 4) t
    (b.1, a.2 :: b.2)

/-! ### Windows given back (R22) -/

/-- The soft retry delivered its data. -/
def UnitRead.byRetry (u : UnitRead) : Bool :=
  match u.primary, u.retry with
  | some a, some b => u.out == b.post && a.post != b.post
  | _, _ => false

/-- Chains that a read no longer needs: the direct path and the soft retry once another path runs or has delivered, and the soft retry
once the direct path has. A second chance stays until the posting, or until the soft retry has delivered (R254). -/
def UnitRead.released (u : UnitRead) (i : Nat) (b : Booking) : Bool :=
  match u.path with
  | .retry => b.tag == i
  | .second => b.tag == i || b.tag == i + 1
  | .done =>
    if u.secondUsed then b.tag == i || b.tag == i + 1
    else if u.byRetry then b.tag == i || b.tag == i + 2
    else b.tag == i + 1
  | _ => false

def releasedBy (us : List UnitRead) (b : Booking) : Bool := (us.zipIdx).any fun x => x.1.released (4 * x.2) b

/-- The windows of a step that has failed: nothing uses them any more (R22, R117). -/
def Chain.dropped (c : Chain) (now tag : Nat) (b : Booking) : Bool :=
  b.tag == tag && c.reads.any fun r => r.phase == .failed && decide (now < r.start + b.len) && decide (r.start ≤ b.start) &&
    (match b.res with
      | .die d => r.die == d && b.start == r.start
      | .chan n => r.die / 16 == n && b.start == r.xfer.1
      | _ => false)

/-- The failed steps of a read's chains, in the bookings of its three tags. -/
def UnitRead.dropped (u : UnitRead) (now i : Nat) (b : Booking) : Bool :=
  ([(u.primary, i), (u.retry, i + 1), (u.second, i + 2)].any fun x => match x.1 with | some c => c.dropped now x.2 b | none => false)

/-- Give back a plan's unused windows after a turn. -/
def State.giveBack (s : State) (p : Plan) : State :=
  let us := p.reads ++ p.fills
  s.onSluice fun x =>
    { x with bookings := x.bookings.filter fun b => !(b.plan == p.id && decide (s.turn < b.start) &&
        (releasedBy us b || us.zipIdx.any fun y => y.1.dropped s.turn (4 * y.2) b)) }

/-! ### Landing (R107, R186, R191–R193) -/

/-- The block that a write carries at place i, of its data or metadata. -/
def blockAt (zero : Bytes) (l : List Bytes) (i : Nat) : Bytes := match l[i]? with | some b => padTo zero.length b | none => zero

/-- The blocks that a command's writes carry: entry data with its metadata, what a Copy has read, or zeros. -/
def entryBlocks (p : Plan) (c : Cmd) (ns : Namespace) : Except Status (List Bytes × List Bytes) :=
  match c.kind with
  | .copy =>
    let r := gathered ns p.reads
    match readsStatus c.level0 p.limit.isNone p.reads with
    | some st => .error st
    | none =>
      match (if ns.pi = 0 then none else exitCheck ns c.sqe.prinfoR c.sqe r.1 r.2) with
      | some b => .error b.2
      | none =>
        match entryMd ns c.sqe r.1 r.2 with
        | .ok md => .ok (r.1, md)
        | .error st => .error st
  | .write =>
    let data := (List.range (c.sqe.nlb + 1)).map (blockAt (fill (blockBytes ns.lbaf) 0) c.sqe.data)
    match entryMd ns c.sqe data c.sqe.md with
    | .ok md => .ok (data, md)
    | .error st => .error st
  | _ => .ok ([], [])

/-- A fill of a write ended without data or on a LOST sector: no copy of the unit is written (R193). -/
def fillFails (fills : List UnitRead) (w : UnitWrite) : Bool :=
  fills.any fun u => u.g == w.g && (u.path == .lost || u.path == .noData)

/-- Two writes of a plan carry the same blocks, one as data and one as metadata (R292). -/
def sameBlocks (a b : UnitWrite) : Bool := a.md != b.md && decide (a.ofs < b.ofs + b.len) && decide (b.ofs < a.ofs + a.len)

/-- What lands of a unit: the sectors that no deallocation decided after the write has taken (R191, R194). -/
def State.landedSectors (s : State) (ns : Namespace) (fills : List UnitRead) (w : UnitWrite) (x : Slot) : List (Option Sector) :=
  let older := newestOf (fun y => y.2.unit == w.g && y.2.state.landed && decide (y.2.order < x.order)) s.galley.slots
  (List.range 4).map fun k => if x.cut.contains k then none else landSector ns fills w (older.map (·.2)) k

/-- Land one unit: its residency is RESIDENT, or SUPERSEDED where a newer one has landed or nothing of it is left; the older landed ones
are superseded. -/
def State.landUnit (s : State) (ns : Namespace) (fills : List UnitRead) (w : UnitWrite) : State :=
  match s.slot w.slot with
  | none => s
  | some x =>
    let secs := s.landedSectors ns fills w x
    let newer := s.galley.slots.any fun y => y.2.unit == w.g && y.2.state.landed && decide (x.order < y.2.order)
    let gone := newer || secs.all (·.isNone)
    let s := s.onSlot w.slot fun y => { y with state := if gone then .superseded else .resident, sectors := secs, cut := [] }
    (if newer then s.freeSlots else s.supersede w.g x.order).onFlash fun x => { x with hostUnits := if w.md then x.hostUnits else x.hostUnits + 1 }

/-- A write of a plan lands in this turn: its copies turn has come, the reads of a Copy, its fills and those of the unit that carries the same
blocks had settled before it, a residency that it merges has landed, and the galley and the channels of both copies take their step (R31,
R107, R191, R193, R197). `q` is the plan as the turn found it. -/
def State.landsNow (s : State) (e : EdgeEnv) (q : Plan) (w : UnitWrite) : Bool :=
  let mine (u : UnitRead) : Bool := u.g == w.g || q.writes.any fun v => sameBlocks w v && u.g == v.g
  decide (w.copies ≤ s.turn) && !w.landed && !w.cancelled && !s.galleyHeld e w.slot && q.reads.all (·.settled) &&
    q.fills.all (fun u => u.settled || !mine u) &&
    (w.whole || match w.older.bind s.slot with | some x => x.state != .filling | none => true)

/-- The special or zero metadata of blocks that carry none. -/
def Cmd.emptyMd (c : Cmd) (ns : Namespace) : Bytes := if c.kind = .mapOnly then specialMd ns true else fill (mdBytes ns.lbaf) 0

/-- A write with the blocks that it carries. -/
def UnitWrite.filled (ns : Namespace) (zd : Bytes) (data md : List Bytes) (w : UnitWrite) : UnitWrite :=
  { w with data := (List.range w.len).map fun i =>
      if w.md then blockAt zd md (w.ofs + i) else blockAt (fill (blockBytes ns.lbaf) 0) data (w.ofs + i) }

/-- Free the slots of writes that will not land. -/
def State.voidSlots (s : State) (gone : List Nat) : State :=
  let void (x : Nat × Slot) : Nat × Slot := (x.1, { x.2 with state := .superseded, sectors := [none, none, none, none] })
  (s.onGalley fun g => { g with slots := updIf (fun x => gone.contains x.1 && x.2.state == .filling) void g.slots }).freeSlots

/-- Land the writes of a plan that can land. -/
def State.landPlan (s : State) (e : EdgeEnv) (q p : Plan) (c : Cmd) (ns : Namespace) : State × Plan :=
  let due := p.writes.filter (s.landsNow e q)
  if due.isEmpty then (s, p)
  else
    match entryBlocks p c ns with
    | .error st =>
      let s := s.cancelWrites p.id
      (s, { p with writes := p.writes.map (fun w => { w with cancelled := !w.landed }), status := some (st.sct, st.sc, st.dw0) })
    | .ok (data, md) =>
      let bad (w : UnitWrite) : Bool := fillFails p.fills w || p.writes.any fun v => sameBlocks w v && fillFails p.fills v
      let go (a : State × List UnitWrite) (w : UnitWrite) : State × List UnitWrite :=
        if !due.contains w then (a.1, a.2 ++ [w])
        else if bad w then (a.1, a.2 ++ [{ w with cancelled := true }])
        else (a.1.landUnit ns p.fills (w.filled ns (c.emptyMd ns) data md), a.2 ++ [{ w with landed := true, copies := s.turn }])
      let r := p.writes.foldl go (s, [])
      let st := if due.any bad then readsStatus c.level0 p.limit.isNone p.fills else none
      (r.1.voidSlots ((r.2.filter (·.cancelled)).map (·.slot)),
        { p with writes := r.2, status := match st with | some x => some (x.sct, x.sc, x.dw0) | none => p.status })

/-! ### Map-only steps (R107, R194, R195) -/

/-- The first overlay record not in use. -/
def State.freeOverlay (s : State) : Nat → Nat → Nat
  | 0, i => i
  | fuel + 1, i => if (klook i s.galley.ovl).isSome then s.freeOverlay fuel (i + 1) else i

/-- A sector's overlay kind: its record, made where the unit has none with the old entry as BASE. -/
def State.setSectorKind (s : State) (g k kind : Nat) : State :=
  let old := s.mapWord g
  match entryOf old with
  | .overlay i =>
    let sect := (s.overlay i).sect
    let new := sect - natBits sect (8 * k) 8 * 2 ^ (8 * k) + kind * 2 ^ (8 * k)
    (s.applyReq 4 { target := i + 5 * 2 ^ 32, new := new } 0).2
  | _ =>
    let i := s.freeOverlay s.galley.ovl.length 0
    let set (s : State) (field v : Nat) : State := (s.applyReq 4 { target := i + field * 2 ^ 32, new := v } 0).2
    let s := set (set (set (set s 0 old) 5 (kind * 2 ^ (8 * k))) 6 (g % 2 ^ 32)) 7 (g / 2 ^ 32)
    (s.applyReq 2 { target := g, expect := old, new := entryWord (.overlay i) } 0).2

/-- Apply one booked step: residencies decided before it lose what it deallocates. -/
def State.applyOp (s : State) (order : Nat) : MapOp → State
  | .unit g new =>
    let s := match s.mapEntry g with | .overlay i => (s.applyReq 5 { target := i } 0).2 | _ => s
    (s.applyReq 3 { target := g, new := new } order).2
  | .sector g k kind => (s.setSectorKind g k kind).cutSectors g order [k]
  | .zone z pointer v => (s.applyReq 6 { target := z + (if pointer then 2 ^ 32 else 0), new := v } 0).2
  | .req kind q => (s.applyReq kind q (order + 1)).2

/-- A booked step cannot be journaled, or its page has no room in the shadow pool: it waits (R204, R205). One that needs a new overlay record
waits too while the region has none free: an index never exceeds the region (R182), which says no more (DESIGN CHOICE, assumption log 169). -/
def State.opWaits (s : State) (o : MapOp) : Bool :=
  let page := match o with
    | .unit g _ | .sector g _ _ => s.reqPage 3 { target := g, new := 0 }
    | .zone z _ _ => s.reqPage 6 { target := z, new := 0 }
    | .req kind q => s.reqPage kind q
  let full : Bool := match o with
    | .sector g _ _ => !s.needsOverlay g && decide (min (2 ^ 28) s.ovlRecords ≤ s.freeOverlay s.galley.ovl.length 0)
    | _ => false
  s.jnlFull || (s.unshadowed page && s.shadowFull) || full

/-- The booked steps of this turn, up to the 256 requests that the port applies, then ring requests with what they leave (R203). A step that
must wait keeps those after it. -/
def State.portTurn (s : State) : State :=
  let now := s.galley.booked.filter fun b => decide (b.1 ≤ s.turn)
  let step (a : State × List (Nat × Nat × Nat × MapOp) × Nat) (b : Nat × Nat × Nat × MapOp) : State × List (Nat × Nat × Nat × MapOp) × Nat :=
    let n := a.1.opCost b.2.2.2
    if !a.2.1.isEmpty || a.2.2 < n || a.1.opWaits b.2.2.2 then (a.1, a.2.1 ++ [b], a.2.2)
    else (a.1.applyOp b.2.2.1 b.2.2.2, [], a.2.2 - n)
  let r := now.foldl step (s, [], 256)
  (r.1.onGalley fun g => { g with booked := r.2.1 ++ g.booked.filter fun b => decide (s.turn < b.1) }).ringRun r.2.2

/-! ### Started, late, posted -/

/-- A plan has started (R71): a furrow has issued a step, host data moves, or a galley read is served. -/
def Plan.hasStarted (p : Plan) (now : Nat) : Bool :=
  (p.reads ++ p.fills).any (fun u =>
    (match u.chain with | some c => c.reads.any fun r => r.phase != .waiting | none => u.path == .done) ||
    (match u.slot with | some (_, t) => u.path == .slot && decide (0 < t) && decide (t ≤ now) | none => false)) ||
  (!p.writes.isEmpty && decide (0 < p.host.1) && decide (p.host.1 ≤ now)) || (p.mapOnly && decide (p.first ≤ now))

/-- The turn from which a plan can post: its own, the posting turn of every path that supplied data, and the turn after every landing. -/
def Plan.postTurn (p : Plan) : Nat :=
  p.writes.foldl (fun m w => max m (if w.landed then w.copies + 1 else 0))
    (p.reads.foldl (fun m u => max m (if u.path == .done || u.path == .special then u.out else 0)) p.post)

/-- Everything a plan waits for has ended. -/
def State.planDone (s : State) (p : Plan) : Bool :=
  p.reads.all (·.settled) && p.fills.all (·.settled) && p.writes.all (fun w => w.landed || w.cancelled) &&
    !(s.galley.booked.any fun b => b.2.1 == p.id)

/-- A read at its posting limit without data: its forme-block is refreshed later, so that the recovered unit is rewritten
(R109). -/
def State.noteNoData (s : State) (p : Plan) : State :=
  (p.reads ++ p.fills).foldl (fun s u =>
    match u.settled && u.path != .noData, u.loc with
    | false, some (l, f, m) => let x := s.place l f m; s.makeVictim x.1.die x.1.block 2
    | _, _ => s) s

/-- The status and data of a plan that posts (R81, R109, R293). -/
def State.outcomeOf (s : State) (p : Plan) (c : Cmd) (ns : Namespace) : Status × List Bytes :=
  match p.status, readsStatus c.level0 p.limit.isNone p.reads with
  | some (a, b, d), _ => (⟨a, b, d⟩, [])
  | none, some st => (st, [])
  | none, none =>
    let r := gathered ns p.reads
    match c.sqe.opcode with
    | 0x02 =>
      match exitCheck ns c.sqe.prinfo c.sqe r.1 r.2 with
      | some (i, st) => (st, returned ns c.sqe (r.1.take i) (r.2.take i))
      | none => (St.ok, returned ns c.sqe r.1 r.2)
    | 0x05 =>
      match exitCheck ns c.sqe.prinfo c.sqe r.1 r.2 with
      | some (_, st) => (st, [])
      | none =>
        let same := r.1 == c.sqe.data && (c.sqe.md.isEmpty || r.2 == c.sqe.md)
        (if same then St.ok else St.compareFailure, [])
    | 0x0C =>
      match exitCheck ns c.sqe.prinfo c.sqe r.1 r.2 with
      | some (_, st) => (st, [])
      | none => (St.ok, [])
    | 0x7A => (St.ok, [s.zoneReport c.sqe ns])
    | _ => (St.ok, [])

/-- Fill the read cache with a flash unit on its second host read within a rotation (R187). -/
def State.fillCache (s : State) (u : UnitRead) : State :=
  match u.path, u.loc with
  | .done, some (l, f, m) =>
    let whole := match s.mapEntry u.g with | .flash m' f' => m' == m && f' == f | _ => false
    let used := s.galley.slots.any fun x => x.2.unit == u.g
    if u.md || !whole || used || (klook u.g s.galley.hits).getD 0 < 2 then s
    else
      match s.freeSlot, s.unitAt l f m with
      | some n, some x =>
        let slot : Slot := { unit := u.g, state := .cache, sectors := x.sectors.map (·.map (·.2.2)) }
        s.onGalley fun g => { g with slots := kput n slot g.slots }
      | _, _ => s
  | _, _ => s

/-- Count a completed host command (SMART). -/
def State.countHost (s : State) (c : Cmd) (ns : Namespace) : State :=
  let k := sqeSize c.sqe ns / 512
  match c.sqe.opcode with
  | 0x02 | 0x05 | 0x0C => s.onNv fun n => { n with hostReads := n.hostReads + 1, unitsRead := n.unitsRead + k }
  | 0x01 | 0x7D | 0x19 => s.onNv fun n => { n with hostWrites := n.hostWrites + 1, unitsWritten := n.unitsWritten + k }
  | _ => s

/-- Post a plan's command. -/
def State.postPlan (s : State) (p : Plan) (c : Cmd) : State :=
  match s.ns c.sqe.nsid with
  | none => s.postCmd c St.invalidNamespace []
  | some ns =>
    let o := s.outcomeOf p c ns
    let s := if o.1.good && c.sqe.opcode == 0x02 then p.reads.foldl State.fillCache s else s
    (s.countHost c ns).postCmd c o.1 o.2

/-- One command in the posting part of the turn: a settled outcome, a finished plan, or a plan at its limit (R108, R109). -/
def State.postOne (s : State) (c : Cmd) : State :=
  if s.waitsTurn c then s
  else
    match c.outcome, c.postAt with
    | some (sct, sc, _, dw0), some t => if t ≤ s.turn then s.postCmd c ⟨sct, sc, dw0⟩ [] else s
    | _, _ =>
      match s.sluice.plans.find? fun p => p.id == c.plan && c.phase != .held && c.phase != .fetched with
      | none => s
      | some p =>
        if s.planDone p && decide (p.postTurn ≤ s.turn) then s.postPlan p c
        else
          match p.limit with
          | some l =>
            if l ≤ s.turn && (p.reads ++ p.fills).any (fun u => !u.settled || u.path == .noData) then
              (s.noteNoData p).postCmd c (if c.level0 then St.unrecovered else St.noData) []
            else s
          | none => s

/-- The posting part of the turn, in submission order; a headgate whose step is withheld posts nothing. -/
def State.postTurn (s : State) (e : EdgeEnv) : State :=
  s.host.cmds.foldl (fun s c =>
    if withheld e (0x441 + c.ref.ctrl.val) then s else match s.cmd c.ref with | some k => s.postOne k | none => s) s

/-- Replace a plan. -/
def State.setPlan (s : State) (p : Plan) : State :=
  s.onSluice fun x => { x with plans := updIf (fun q => q.id == p.id) (fun _ => p) x.plans }

/-- One turn of one plan: reads, landing, windows given back. -/
def State.stepPlan (s : State) (e : EdgeEnv) (q : Plan) : State :=
  let c := q.ref.bind s.cmd
  let a := s.stepUnits e q c 0 q.reads
  let b := a.1.stepUnits e q c (4 * q.reads.length) q.fills
  let p := { q with reads := a.2, fills := b.2 }
  let s := b.1.setPlan p
  let r : State × Plan :=
    match c with
    | some c =>
      match s.ns c.sqe.nsid with
      | some ns => s.landPlan e q p c ns
      | none => (s, p)
    | none => (s, p)
  let p := { r.2 with started := r.2.started || r.2.hasStarted s.turn }
  let s := (r.1.setPlan p).giveBack p
  match c with
  | some c => if p.started && c.phase == .accepted then s.onCmd c.ref fun k => { k with phase := .started } else s
  | none => s

/-- One turn of every plan, in order of acceptance. -/
def State.stepPlans (s : State) (e : EdgeEnv) : State :=
  s.sluice.plans.foldl (fun s p => match s.sluice.plans.find? fun q => q.id == p.id with | some q => s.stepPlan e q | none => s) s

/-! ### DECODE_COMPLETE (R250, R157) -/

/-- Record a codeword's decode on the reads of a plan that asked for it. -/
def markDecoded (job : DecodeJob) (pass : Bool) (r : DieRead) : DieRead :=
  let k := job.cw.val
  if r.die == job.die && r.block == job.block && r.page == job.page && r.cws.contains k && !r.passed.contains k && r.phase != .failed then
    (if pass then { r with passed := k :: r.passed, failed := r.failed.filter (· != k) }
     else { r with failed := if r.failed.contains k then r.failed else k :: r.failed })
  else r

def UnitRead.decoded (job : DecodeJob) (pass : Bool) (u : UnitRead) : UnitRead :=
  match u.chain with
  | some c => if c.soft == job.soft then u.setChain { c with reads := c.reads.map (markDecoded job pass) } else u
  | none => u

/-- A member of a forme that is proof-read takes a codeword's decode (R36). -/
def FormeMember.decoded (job : DecodeJob) (pass : Bool) (m : FormeMember) : FormeMember :=
  { m with proof := m.proof.map fun c => { c with reads := c.reads.map (markDecoded job pass) } }

/-- A member's proof read fails: its forme-block closes as a relocation victim and places the units of its unproven formes again (R230). -/
def State.proofLost (s : State) (die block plan : Nat) : State :=
  ((s.condemn die block 3).closeFormeBlocks (fun f => f.has fun m => m == ⟨die, block⟩) 1).dropPlans fun p => p.id == plan

/-- A decode that fails is a proof read's. -/
def State.proofReadFailed (s : State) (job : DecodeJob) : State :=
  if s.flash.plans.any fun p => p.id == job.plan && p.members.any fun m => m.die == job.die && m.block == job.block && m.stage == .proofing then
    s.proofLost job.die job.block job.plan
  else s

/-- The decode's outcome reaches the plan it serves. -/
def State.decodeDone (s : State) (job : DecodeJob) (res : DecodeResult) : State :=
  let r := s.decoded job.soft job.decoder job.step job.die job.block job.page job.cw.val res
  let s := r.2.onSluice fun x =>
    let high : Bool := match res with | .pass c => decide (Config.cRefresh < c) | _ => false
    let mark (p : Plan) : Plan :=
      { p with
        reads := p.reads.map (UnitRead.decoded job r.1), fills := p.fills.map (UnitRead.decoded job r.1)
        work := match p.work with | some (.probe d b h) => some (.probe d b (h || high)) | w => w }
    { x with plans := updIf (fun p => p.id == job.plan) mark x.plans }
  if r.1 then
    s.onFlash fun x =>
      let mark (p : FormePlan) : FormePlan := { p with members := p.members.map (FormeMember.decoded job true) }
      { x with plans := updIf (fun p => p.id == job.plan) mark x.plans }
  else s.proofReadFailed job

/-- DECODE_COMPLETE (R250). A decoder that has been removed runs no decode. -/
def execDecodeComplete (job : DecodeJob) (res : DecodeResult) (s : State) : Out :=
  let f := if job.soft then Reg.LDP_SOFT_OUT_OUT else Reg.LDP_HARD_OUT_OUT
  .next (if s.fld f / 2 ^ job.decoder % 2 = 1 then s else s.decodeDone job res)

end Sys2Proof.Machine
end

