-- ==== Sys2Proof/Machine/OnChip.lean ====
section
/-! DEFINITION. Commands on the on-chip memories and on memory words (chapter 10, R356–R365, R372, R373; R302–R305):
uncorrectable words, bank power, repair and retirement, flip masks, atomics and aliases. -/

namespace Sys2Proof.Machine

/-! ### Uncorrectable words (R302) -/

/-- What an uncorrectable word answers its requester (Table 08.7). A full 64-bit store meets no error: it replaces the
word. The map and stamp walks, the read counters and the channel buffers find the word by its check when they read. -/
def State.uncorrectableAnswer (s : State) (client addr : Nat) : MemAccess → State
  | .load => { s with answer := some (.loadFault client addr) }
  | .fetch => { s with answer := some (.fetchFault client addr) }
  | .storeNarrow => { s with answer := some (.storeFault client addr) }
  | .dmaRead => { s with answer := some (.dmaError client 3) }
  | .dmaWrite => { s with answer := some (.dmaError client 4) }
  | .storeFull _ | .readSlot | .programRegion | .mapWalk | .stampWalk | .readCounter => s

/-- An access finds a double-bit error in the word at an address of the compositor map. The word is uncorrectable from
the upset on, until a full write replaces it. -/
def State.upsetWord (s : State) (client addr : Nat) (acc : MemAccess) : State :=
  let a := s.storage addr
  let s := s.setFlips (a / 8 * 8) ⟨3, 0, 0⟩
  match acc with
  | .storeFull v => (s.storeWord client a v.toNat 0xFF).2
  | acc =>
    (s.uncorrectable client a (if isDram a then 2 else 1) (acc == .storeNarrow || acc == .dmaWrite)).uncorrectableAnswer
      client addr acc

/-- A codeword of a die read that lies in a read slot of its channel's buffer: transferred, and not decoded (R148). -/
def DieRead.inSlot (ch : Nat) (r : DieRead) : Option Nat :=
  if r.die / 16 = ch ∧ r.phase = .moved then r.cws.find? fun k => !r.passed.contains k && !r.failed.contains k else none

/-- The first codeword of a read in a channel's read slots is handled as a hard-decode failure (R302). -/
def UnitRead.failSlot (ch : Nat) (u : UnitRead) : UnitRead :=
  let f (r : DieRead) : DieRead := match r.inSlot ch with | some k => { r with failed := k :: r.failed } | none => r
  match u.chain with | some c => u.setChain { c with reads := c.reads.map f } | none => u

/-- A read slot of a channel is uncorrectable. Its codeword is taken as that of the oldest plan with one in the buffer: the spec gives the
slots no addresses (DESIGN CHOICE, assumption log 180). -/
def State.readSlotLost (s : State) (ch : Nat) : State :=
  let has (u : UnitRead) : Bool := match u.chain with | some c => c.reads.any fun r => (r.inSlot ch).isSome | none => false
  match s.sluice.plans.find? fun p => (p.reads ++ p.fills).any has with
  | none => s
  | some p =>
    match ((p.reads ++ p.fills).zipIdx.find? fun x => has x.1) with
    | some x => s.setPlan (p.setRead x.2 (x.1.failSlot ch))
    | none => s

/-- A channel's program region is uncorrectable: the data-in windows that wait are not issued, and are planned again once the region is
filled from the galley, 16 turns ahead (R148, R302). -/
def State.refillRegion (s : State) (ch : Nat) : State :=
  let again (m : FormeMember) : FormeMember :=
    let len := m.dataIn.2 + 1 - m.dataIn.1
    { m with dataIn := (s.turn + 17, s.turn + 16 + len), issue := s.turn + 17 + len }
  s.onFlash fun x => { x with plans := x.plans.map fun p =>
    { p with members := updIf (fun m => m.die / 16 == ch && m.stage == .loading && decide (s.turn ≤ m.dataIn.2)) again p.members } }

/-- SRAM_UNCORRECTABLE (R302). A channel buffer (codes 0x80–0xBF) lies in no processor map, so its word is named by the
bank's code alone. -/
def execSramUncorrectable (code addr client : Nat) (acc : MemAccess) (s : State) : Out :=
  .next (if 0x80 ≤ code && code ≤ 0xBF then
      let s := ((s.addFld Reg.ERC_UE_COUNT 1).setFld Reg.ERC_EVENT_SRAM_UE 1).ercLast client 1 false code addr
      match acc with
      | .readSlot => s.readSlotLost (code - 0x80)
      | .programRegion => s.refillRegion (code - 0x80)
      | _ => s
    else s.upsetWord client addr acc)

/-! ### Bank power (R360–R362) -/

/-- The eight canary words of a bank (R360): word j is SEED xor (code × 0x0101_0101), rotated left by 4j bits, in both
32-bit halves. -/
def canaryWord (seed code j : Nat) : Nat :=
  let x := (seed ^^^ (code * 0x01010101)) % 2 ^ 32
  let r := (x * 2 ^ (4 * j) + x / 2 ^ (32 - 4 * j)) % 2 ^ 32
  r + r * 2 ^ 32

def canaryWords (seed code : Nat) : List Nat := (List.range 8).map (canaryWord seed code)

/-- A request by a client for a bank's power state: the owner's alone takes effect (R356, R360). -/
def State.bankRequest (s : State) (client code req : Nat) : State :=
  if !bankExists code || client != s.fld (Reg.OCM_BANK_OWNER code) || req ≥ 3 || s.bankState code == 3 then
    s.logWrite client (Reg.OCM_BANK code) (BitVec.ofNat 32 (req * 4))
  else
    let s := s.setFld (Reg.OCM_BANK_REQ code) req
    if req = 1 then
      let s := s.onMemory fun m => { m with bankWait := kdel code m.bankWait }
      if s.bankState code = 1 then s else s.startBankWake code
    else if s.bankState code = req then s
    else s.onMemory fun m => { m with bankWait := kput code req m.bankWait }

/-- BANK_POWER_REQUEST (R360). -/
def execBankPowerRequest (client code req : Nat) (s : State) : Out :=
  .next (s.setupWrite client (Reg.OCM_BANK code) (BitVec.ofNat 32 (req * 4)) (.bankPowerRequest client code req)
    fun s => s.bankRequest client code req)

/-- Lose a bank's contents: a sweep to zeros. -/
def State.sweepBank (s : State) (code : Nat) : State :=
  match bankBase code with
  | none => s
  | some b => s.onMemory fun m =>
      { m with bytes := memZero b (b + bankSize code) m.bytes
               flips := m.flips.filter fun f => decide (f.1 < b) || decide (b + bankSize code ≤ f.1) }

/-- A bank with a request waiting enters RETENTION, writing its canaries, or goes OFF and loses its contents (R360). -/
def State.bankEnter (s : State) (code : Nat) : State :=
  match klook code s.memory.bankWait with
  | none => s
  | some req =>
    if s.bankState code != 1 || s.flag (Reg.OCM_BANK_SWEEP code) then s
    else
      let s := s.onMemory fun m => { m with bankWait := kdel code m.bankWait }
      if req = 2 then
        (s.setFld (Reg.OCM_BANK_STATE code) 2).onMemory fun m =>
          { m with canaries := kput code (canaryWords (s.fld Reg.OCM_CANARY_SEED) code) m.canaries }
      else (s.sweepBank code).setFld (Reg.OCM_BANK_STATE code) 0

/-- BANK_IDLE_ENTRY (R360): 64 cycles have passed with no access to the bank. -/
def execBankIdleEntry (code : Nat) (s : State) : Out := .next (s.bankEnter code)

/-- BANK_WAKE (R361). -/
def execBankWake (code : Nat) (s : State) : Out :=
  .next (if bankExists code && (s.bankState code == 0 || s.bankState code == 2) then s.startBankWake code else s)

/-- Words of a bank whose flips a wake scrub meets. -/
def State.bankFlips (s : State) (code : Nat) : List Nat :=
  match bankBase code with
  | none => []
  | some b => (s.memory.flips.filter fun f => decide (b ≤ f.1) && decide (f.1 < b + bankSize code)).map (·.1)

/-- The end of a bank's sweep or wake scrub, up to the completion of the stalled accesses (R361, R362): OFF sweeps to
zeros; RETENTION corrects single-bit errors, and an uncorrectable word or a canary mismatch sets LOST and sweeps, which takes the sweep's
time more, with STATE ON (DEDUCED, assumption log 188). It ends no earlier than its turns allow. -/
def State.bankAwake (s : State) (code : Nat) (uncorrectable canaryBad : Bool) : State :=
  if !s.flag (Reg.OCM_BANK_SWEEP code) || decide (s.turn < (klook code s.memory.bankDue).getD 0) then s
  else
    let from0 := s.bankState code == 0
    let from2 := s.bankState code == 2
    let bad := (s.bankFlips code).any fun w => match s.checkWord w with | .uncorrectable _ => true | _ => false
    let canary := match klook code s.memory.canaries with
      | some ws => ws != canaryWords (s.fld Reg.OCM_CANARY_SEED) code
      | none => false
    let lost := from2 && (uncorrectable || canaryBad || bad || canary)
    let s := (s.setFld (Reg.OCM_BANK_SWEEP code) 0).setFld (Reg.OCM_BANK_STATE code) 1
    let s := if from2 then
        (s.bankFlips code).foldl (fun s w => match s.checkWord w with | .corrected => s.correct w | _ => s) s
      else if from0 then s.onMemory fun m => { m with repaired := m.repaired.filter fun r => r.1 != code } else s
    let s := if from2 && !lost then s else s.sweepBank code
    let s := if lost then s.startSweep code (sweepTurns code) else s
    let s := if lost && !s.flag (Reg.OCM_BANK_LOST code) then
        let s := ((s.setFld (Reg.OCM_BANK_LOST code) 1).setFld Reg.OCM_EVENT_LOST 1).addFld Reg.OCM_STATUS_LOST_COUNT 1
        if 0x40 ≤ code && code ≤ 0x57 then
          s.onMemory fun m => { m with coresHeld := (code - 0x40) :: m.coresHeld.erase (code - 0x40) }
        else s
      else s
    if s.fld (Reg.OCM_BANK_REQ code) = 1 then s
    else s.onMemory fun m => { m with bankWait := kput code (s.fld (Reg.OCM_BANK_REQ code)) m.bankWait }

/-- BANK_LOST_CLEAR (R362): LOST is write-one-to-clear. The core of a TCM leaves its reset vector in the turn after. -/
def execBankLostClear (client code : Nat) (s : State) : Out :=
  .next (s.setupWrite client (Reg.OCM_BANK code) (BitVec.ofNat 32 16) (.bankLostClear client code) fun s =>
    if s.flag (Reg.OCM_BANK_LOST code) then (s.setFld (Reg.OCM_BANK_LOST code) 0).subFld Reg.OCM_STATUS_LOST_COUNT 1 else s)

/-- BANK_OWNER_WRITE (R356). -/
def execBankOwnerWrite (client code owner : Nat) (s : State) : Out :=
  .next (s.setupWrite client (Reg.OCM_BANK code) (BitVec.ofNat 32 (owner * 1024)) (.bankOwnerWrite client code owner) fun s =>
    if bankExists code && (client == s.fld (Reg.OCM_BANK_OWNER code) || client == 0x60) && s.bankState code == 1 &&
        s.fld (Reg.OCM_BANK_REQ code) == 1 then
      s.setFld (Reg.OCM_BANK_OWNER code) owner
    else s.logWrite client (Reg.OCM_BANK code) (BitVec.ofNat 32 (owner * 1024)))

/-- A bank is some bank's redirect target. -/
def State.isRedirectTarget (s : State) (spare : Nat) : Bool :=
  (List.range 0xC0).any fun c => bankExists c && s.fld (Reg.OCM_BANK_REDIRECT c) == spare

/-- BANK_REDIRECT_WRITE (R373). -/
def execBankRedirectWrite (client code spare : Nat) (s : State) : Out :=
  .next (s.setupWrite client (Reg.OCM_BANK code) (BitVec.ofNat 32 (spare * 2 ^ 21)) (.bankRedirectWrite client code spare) fun s =>
    if bankExists code && (spare == 0xFF || (decide (spare < 0x20) && s.bankState spare == 1 && !s.isRedirectTarget spare)) then
      s.setFld (Reg.OCM_BANK_REDIRECT code) spare
    else s.logWrite client (Reg.OCM_BANK code) (BitVec.ofNat 32 (spare * 2 ^ 21)))

/-- Retire a bank (R365, Table 10.6): its record, its event (accesses that wait on it end at the next turn edge as bus
errors), the core of a TCM, which is removed, and the channel of a channel buffer, which is retired as after THIRD_FAIL. -/
def State.disableBank (s : State) (code : Nat) : State :=
  if s.flag (Reg.OCM_BANK_DISABLE code) then s
  else
    let s := s.onMemory fun m => { m with bankWait := kdel code m.bankWait }
    let s := (((s.setFlds [(Reg.OCM_BANK_DISABLE code, 1), (Reg.OCM_BANK_STATE code, 3), (Reg.OCM_BANK_SWEEP code, 0),
      (Reg.OCM_EVENT_DISABLED, 1)]).addFld Reg.OCM_STATUS_DISABLED_COUNT 1)).retireRecord 8 0x0B code 0
    if 0x80 ≤ code then s.retireChannel (code - 0x80) 0x08
    else if 0x40 ≤ code then s.onMemory fun m => { m with coresHeld := (code - 0x40) :: m.coresHeld.erase (code - 0x40) } else s

/-- BANK_DISABLE (R365). -/
def execBankDisable (client code : Nat) (s : State) : Out :=
  .next (s.setupWrite client (Reg.OCM_BANK code) (BitVec.ofNat 32 (2 ^ 20)) (.bankDisable client code) fun s =>
    if bankExists code then s.disableBank code else s.logWrite client (Reg.OCM_BANK code) (BitVec.ofNat 32 (2 ^ 20)))

/-! ### Column repair (R364) -/

/-- COLUMN_REPAIR (R364): the write of OCM.REPAIR with GO starts the burn; GO while one runs is ignored. -/
def execColumnRepair (client code column : Nat) (s : State) : Out :=
  .next (s.setupWrite client Reg.OCM_REPAIR (BitVec.ofNat 32 (code + column * 256 + 2 ^ 19)) (.columnRepair client code column) fun s =>
    if s.flag Reg.OCM_REPAIR_STATUS_BUSY then s
    else
      (s.setFlds [(Reg.OCM_REPAIR_BANK, code), (Reg.OCM_REPAIR_COLUMN, column), (Reg.OCM_REPAIR_GO, 1),
        (Reg.OCM_REPAIR_STATUS_BUSY, 1), (Reg.OCM_REPAIR_STATUS_RESULT, 0)]).onMemory fun m =>
        { m with burn := some ⟨code, column⟩ })

/-- COLUMN_REPAIR_DONE (R364): no spare left, fuse failed, or done; the repair takes effect at the bank's next power-up
from OFF. -/
def execColumnRepairDone (fuseOk : Bool) (s : State) : Out :=
  .next (match s.memory.burn with
    | none => s
    | some b =>
      let left := s.fld (Reg.OCM_BANK_SPARES b.bank)
      let r := if left = 0 then 2 else if fuseOk then 1 else 3
      let s := s.setFlds [(Reg.OCM_REPAIR_GO, 0), (Reg.OCM_REPAIR_STATUS_BUSY, 0), (Reg.OCM_REPAIR_STATUS_RESULT, r),
        (Reg.OCM_EVENT_REPAIR_DONE, 1), (Reg.OCM_BANK_SPARES b.bank, if left = 0 then 0 else left - 1)]
      s.onMemory fun m =>
        { m with burn := none, repaired := if r = 1 then (b.bank, b.column) :: m.repaired else m.repaired })

/-! ### Flip masks (R303–R305) -/

/-- OCM_FLIPMASK_ARM (R304): a write of the three words. ARMED is set in every mode except Spill, and every arming is
logged; rewriting while ARMED replaces the mask. -/
def execOcmFlipmaskArm (client : Nat) (w0 w1 w2 : Word) (s : State) : Out :=
  .next (s.setupWrite client Reg.OCM_FLIPMASK2 w2 (.ocmFlipmaskArm client w0 w1 w2) fun s =>
    let s := ((s.regWrite client Reg.OCM_FLIPMASK0 w0).regWrite client Reg.OCM_FLIPMASK1 w1).regWrite client Reg.OCM_FLIPMASK2 w2
    if s.power.mode == .spill then s.setFld Reg.OCM_FLIPMASK2_ARMED 0
    else if bitsOf w2 31 1 = 1 then s.log 0x0A01 0 client w2.toNat else s)

/-- DMC_FLIPMASK_ARM (R305). -/
def execDmcFlipmaskArm (client : Nat) (ch : Fin 12) (w0 w1 w2 : Word) (s : State) : Out :=
  .next (s.setupWrite client (Reg.DMC_FLIPMASK2 ch) w2 (.dmcFlipmaskArm client ch w0 w1 w2) fun s =>
    let s := ((s.regWrite client (Reg.DMC_FLIPMASK0 ch) w0).regWrite client (Reg.DMC_FLIPMASK1 ch) w1).regWrite client
      (Reg.DMC_FLIPMASK2 ch) w2
    if s.power.mode == .spill then s.setFld (Reg.DMC_FLIPMASK2_ARMED ch) 0
    else if bitsOf w2 31 1 = 1 then s.log 0x0A01 0 client w2.toNat else s)

/-- FLIP_MASK_TAKEN (R303): a full write by a client of the word at an address, with its present data; the mask of the
memory that holds the address is applied when it is armed for the client and the target, and ARMED clears. -/
def execFlipMaskTaken (dmc : Option (Fin 12)) (client addr : Nat) (s : State) : Out :=
  .next (let a := s.storage addr
    let onThis := match dmc with
      | none => s.ocmMaskHits client a
      | some n => s.dmcMaskHits client a && (s.sliceOf ((a - dramBase) / 4096)).1 == n.val
    if onThis then s.sealWord client a else s)

/-! ### Atomics and aliases (R359) -/

/-- The new value of an atomic operation on `n`-bit operands. -/
def amoValue (n : Nat) (op : AmoOp) (old v : Nat) : Nat :=
  let sg (x : Nat) : Int := if x ≥ 2 ^ (n - 1) then (x : Int) - 2 ^ n else x
  match op with
  | .swap => v
  | .add => (old + v) % 2 ^ n
  | .and => old &&& v
  | .or => old ||| v
  | .xor => old ^^^ v
  | .min => if sg old ≤ sg v then old else v
  | .max => if sg old ≤ sg v then v else old
  | .minu => if old ≤ v then old else v
  | .maxu => if old ≤ v then v else old

/-- The value a W-form load leaves in a 64-bit register: sign-extended, as the RV64 A extension defines. -/
def signExtendW (v : Nat) : Nat := if v ≥ 2 ^ 31 then v + 2 ^ 64 - 2 ^ 32 else v

/-- A part of a word: the value of the aligned half at a byte address, or the whole. -/
def partOf (double : Bool) (a w : Nat) : Nat := if double then w else w / 2 ^ (a % 8 / 4 * 32) % 2 ^ 32

/-- A value placed for a store of the part. -/
def partValue (double : Bool) (a v : Nat) : Nat := if double then v else v % 2 ^ 32 * 2 ^ (a % 8 / 4 * 32)
def partEnable (double : Bool) (a : Nat) : Nat := if double then 0xFF else 0xF * 2 ^ (a % 8 / 4 * 4)

/-- An atomic's address is aligned to its width; the A extension makes any other a store access fault. -/
def atomicAligned (double : Bool) (a : Nat) : Bool := a % (if double then 8 else 4) == 0

/-- The scratchpad, the mailbox, a TCM or DRAM: the memories that execute atomics (R359). -/
def takesAtomics (a : Nat) : Bool :=
  isDram a || (match bankOf a with | some c => decide (c ≤ 0x20) || decide (0x40 ≤ c) | none => false)

/-- One atomic read-modify-write at a storage address; an uncorrectable word refuses it with a store access fault and
stays unchanged. -/
def State.amo (s : State) (core : Nat) (op : AmoOp) (double : Bool) (addr v : Nat) : State :=
  let a := s.storage addr
  match s.readWord core a with
  | (none, s) => { s with answer := some (.storeFault core addr) }
  | (some w, s) =>
    let old := partOf double a w
    let n := if double then 64 else 32
    let s := (s.storeWord core a (mergeWord 8 w (partValue double a (amoValue n op old (v % 2 ^ n))) (partEnable double a)) 0xFF).2
    { s with answer := some (.value core (if double then old else signExtendW old)) }

/-- ATOMIC_MEMORY_OPERATION (R359). -/
def execAtomicMemoryOperation (core : Fin 24) (op : AmoOp) (double : Bool) (addr : Nat) (value : BitVec 64) (s : State) : Out :=
  .next (let a := s.resolve core addr
    if !atomicAligned double addr || !takesAtomics a then { s with answer := some (.storeFault core addr) }
    else s.memGate core a true (.atomicMemoryOperation core op double addr value) fun s => s.amo core op double a value.toNat)

/-- LOAD_RESERVED (R359): the load answers its value and reserves the aligned 64 B granule for the core. -/
def execLoadReserved (core : Fin 24) (double : Bool) (addr : Nat) (s : State) : Out :=
  .next (let a := s.resolve core addr
    if !atomicAligned double addr || !takesAtomics a then { s with answer := some (.loadFault core addr) }
    else s.memGate core a false (.loadReserved core double addr) fun s =>
      match s.readWord core (s.storage a) with
      | (none, s) => { s with answer := some (.loadFault core addr) }
      | (some w, s) =>
        let v := partOf double a w
        let s := s.onMemory fun m =>
          { m with reserved := (core.val, s.storage a / 64) :: m.reserved.filter (fun r => r.1 != core.val) }
        { s with answer := some (.value core (if double then v else signExtendW v)) })

/-- STORE_CONDITIONAL (R359): stores and answers 0 while the core's reservation of the granule stands, and answers 1
otherwise; either way the reservation ends. -/
def execStoreConditional (core : Fin 24) (double : Bool) (addr : Nat) (value : BitVec 64) (s : State) : Out :=
  .next (let a := s.resolve core addr
    if !atomicAligned double addr || !takesAtomics a then { s with answer := some (.storeFault core addr) }
    else s.memGate core a true (.storeConditional core double addr value) fun s =>
      let held := s.memory.reserved.contains (core.val, s.storage a / 64)
      let s := s.onMemory fun m => { m with reserved := m.reserved.filter fun r => r.1 != core.val }
      if held then
        match s.storeWord core (s.storage a) (partValue double a value.toNat) (partEnable double a) with
        | (true, s) => { s with answer := some (.value core 0) }
        | (false, s) => { s with answer := some (.storeFault core addr) }
      else { s with answer := some (.value core 1) })

/-- The 64-bit mask of the bytes that byte enables pick. -/
def beMask (be : Nat) : Nat := mergeWord 8 0 (2 ^ 64 - 1) be

/-- One indivisible bit-set or bit-clear of a word (R359). `set`: w OR v; otherwise w AND NOT v. -/
def State.aliasWrite (s : State) (client addr v be : Nat) (set : Bool) : State :=
  let a := s.storage addr
  match s.readWord client a with
  | (none, s) => { s with answer := some (if isProcessor client then .storeFault client addr else .dmaError client 4) }
  | (some w, s) =>
    let m := v &&& beMask be
    (s.storeWord client a (if set then w ||| m else w &&& (2 ^ 64 - 1 - m)) 0xFF).2

/-- The storage word of a scratchpad or mailbox address, whichever of its aliases names it. -/
def hasAliases (a : Nat) : Bool := match bankOf a with | some c => decide (c ≤ 0x20) | none => false

/-- BIT_SET_ALIAS_WRITE (R359). -/
def execBitSetAliasWrite (client addr : Nat) (value : BitVec 64) (be : BitVec 8) (s : State) : Out :=
  .next (if aliasOf addr == 1 && hasAliases addr then
      s.memGate client addr true (.bitSetAliasWrite client addr value be) fun s => s.aliasWrite client addr value.toNat be.toNat true
    else s)

/-- BIT_CLEAR_ALIAS_WRITE (R359). -/
def execBitClearAliasWrite (client addr : Nat) (value : BitVec 64) (be : BitVec 8) (s : State) : Out :=
  .next (if aliasOf addr == 2 && hasAliases addr then
      s.memGate client addr true (.bitClearAliasWrite client addr value be) fun s => s.aliasWrite client addr value.toNat be.toNat false
    else s)

/-! ### The mailbox's two ports (R358) -/

/-- What one port leaves of a word. -/
def mbxApply (w : Nat) : MbxAccess → Nat
  | .read => w
  | .write d be => mergeWord 8 w d.toNat be.toNat
  | .setBits d => w ||| d.toNat
  | .clearBits d => w &&& (2 ^ 64 - 1 - d.toNat)

def isAtomicAccess : MbxAccess → Bool
  | .setBits _ | .clearBits _ => true
  | _ => false

def isPlainWrite : MbxAccess → Bool
  | .write _ _ => true
  | _ => false

/-- The word after both ports, and what a read of port R and of port C returns (R358): an atomic write holds the word and
a plain access sees its result; two atomics go port C first; two plain writes merge with port C's bytes winning; a
plain read beside a plain write returns the word before it. -/
def mbxResolve (w : Nat) (r c : MbxAccess) : Nat × Nat × Nat :=
  match isAtomicAccess r, isAtomicAccess c with
  | true, true => (mbxApply (mbxApply w c) r, w, w)
  | true, false => (mbxApply (mbxApply w r) c, w, mbxApply w r)
  | false, true => (mbxApply (mbxApply w c) r, mbxApply w c, w)
  | false, false => (mbxApply (mbxApply w r) c, w, w)

/-- MAILBOX_COLLISION (R358). Port R is the rider's (0x060). The answer is port C's read value where port C reads, and
port R's where only port R reads. -/
def execMailboxCollision (addr : Nat) (portR portC : MbxAccess) (s : State) : Out :=
  .next (if bankOf addr == some 0x20 then
      s.memGate 0x60 addr true (.mailboxCollision addr portR portC) fun s =>
        let a := s.storage addr
        match s.readWord 0x60 a with
        | (none, s) => { s with answer := some (.loadFault 0x60 addr) }
        | (some w, s) =>
          let x := mbxResolve w portR portC
          let s := if x.1 = w then s else (s.storeWord 0x3FE a x.1 0xFF).2
          let s := if isPlainWrite portR && isPlainWrite portC then
              (s.addFld Reg.OCM_MBX_COLLIDE_COUNT 1).setFld Reg.OCM_EVENT_MBX_COLLIDE 1
            else s
          if portC == .read then { s with answer := some (.value 0x3FE x.2.2) }
          else if portR == .read then { s with answer := some (.value 0x60 x.2.1) } else s
    else s)

end Sys2Proof.Machine
end

