-- ==== Sys2Proof/Machine/Power.lean ====
section
/-! DEFINITION. Operating modes, power domains, Conserve, Surge and the global operations (chapter 13, R431–R459; R26–R28,
R40, R43, R82–R84, R240, R502, R533), with the commands on them. -/

namespace Sys2Proof.Machine

/-! ### Votes (R436) -/

/-- A client holds its vote on a voted domain; the vote wakes the domain, or keeps it (R436). -/
def State.holdVote (s : State) (n : Fin 24) (client : Nat) : State :=
  if (s.dom n).votes.contains client || s.isDead n then s
  else (s.onDom n fun d => { d with votes := client :: d.votes }).touch n client

/-- A client withdraws its vote; after the last one the domain is DROPPING for 64 turns, but for one that a Conserve exit holds up (R442). -/
def State.dropVote (s : State) (n : Fin 24) (client : Nat) : State :=
  if !(s.dom n).votes.contains client then s
  else
    let kept := s.power.exiting.isSome && conserveDoms.contains n.val
    s.onDom n fun d =>
    let left := d.votes.erase client
    if left.isEmpty then { d with votes := left, dropFrom := s.turn, state := if d.state == .on && !kept then .dropping else d.state }
    else { d with votes := left }

/-- A client asks for a domain's drop by withdrawing its vote: refused, and recorded, where another vote is held (R440). -/
def State.requestDrop (s : State) (n : Fin 24) (client : Nat) : State :=
  if !(s.dom n).votes.contains client then s
  else
    let t := s.dropVote n client
    match (t.dom n).votes with
    | h :: _ => t.countRefusal n false h
    | [] => t

/-- VOTE_WRITE (R436). Votes on PD0, PD1 and idle-timer domains are ignored and logged. -/
def execVoteWrite (client dom : Nat) (hold : Bool) (s : State) : Out :=
  .next (s.setupWrite client Reg.PMC_VOTE (BitVec.ofNat 32 (dom + hold.toNat * 32)) (.voteWrite client dom hold) fun s =>
    if 24 ≤ dom ∨ domPolicy dom ≠ 3 then s.logUncoded .voteIgnored client dom
    else if hold then s.holdVote (Fin.ofNat 24 dom) client else s.requestDrop (Fin.ofNat 24 dom) client)

/-- The cluster that executes admin commands in Conserve: the lowest one not retired. -/
def State.adminCluster (s : State) : Option (Fin 24) :=
  (([6, 7, 8] : List Nat).find? fun n => !s.isDead (Fin.ofNat 24 n)).map (Fin.ofNat 24)

/-- The client ID of a cluster's vote: its first core. -/
def clusterClient (n : Fin 24) : Nat := 8 * (n.val - 6)

/-- Some admin command that a cluster executes is under way: its completion comes later. -/
def State.clusterBusy (s : State) : Bool :=
  !s.galley.creating.isEmpty || s.store.activation.isSome || (match s.galley.wipe with | some w => w.adm.isSome | none => false)

/-- A cluster executes an admin command (Table 02.6). In Conserve the command holds a vote on one cluster, waits until it is ON, and
withdraws the vote in the turn in which its completion is posted (R442). `i` is the command to run again. -/
def State.onCluster (s : State) (i : Instr) (k : State → State) : State :=
  if s.power.mode != .conserve then k s
  else
    match s.adminCluster with
    | none => k s
    | some n =>
      let s := s.holdVote n (clusterClient n)
      if s.isOn n then
        let t := k s
        if t.clusterBusy then t.onPower fun p => { p with adminVote := some n } else t.dropVote n (clusterClient n)
      else s.stall n i

/-- The vote of an admin command that has completed is withdrawn (R442). -/
def State.adminVoteTurn (s : State) : State :=
  match s.power.adminVote with
  | some n => if s.clusterBusy then s else (s.dropVote n (clusterClient n)).onPower fun p => { p with adminVote := none }
  | none => s

/-- A request for a command that a cluster executes. -/
def State.clusterAdmin (s : State) (a : Adm) (i : Instr) (k : State → State) : State := s.hear a fun s => s.onCluster i k

/-! ### Keep-awake floors (R439) -/

/-- The effective floor of a class: the edition's mask, and the masks of controllers now at Twiot level 3. -/
def State.effFloor (s : State) (cls : Nat) : Nat :=
  let own (c : Fin 2) : Nat := if s.level c = 3 then (s.power.floorMask[c]).toList.getD cls 0 else 0
  s.power.floorEdition.toList.getD cls 0 ||| own 0 ||| own 1

/-- At least one SQ of a controller at level 1 or higher is bound to a class. -/
def State.classBound (s : State) (cls : Nat) : Bool :=
  (List.finRange 2).any fun c => decide (1 ≤ s.level c) && (s.ctl c).sqs.any fun q => q.cls == cls

/-- Floors are withdrawn from the start of a PS3 or PS4 entry to its end, and through Conserve to the exit's start. -/
def State.floorsOn (s : State) : Bool :=
  s.power.mode.carriesData && s.power.entry.isNone && (s.power.mode != .conserve || s.power.exiting.isSome)

/-- The domains that floors hold, as a mask. -/
def State.heldFloors (s : State) : Nat :=
  if s.floorsOn then (List.range 8).foldl (fun m c => if s.classBound c then m ||| s.effFloor c else m) 0 else 0

/-- Domains that silicon's votes of the sluice hold: accepted plans' domains, HCORE and SLUICE, and floors (R436). -/
def State.sluiceHolds (s : State) (n : Nat) : Bool :=
  s.power.mode.carriesData && (n == 4 || n == 5) || s.sluice.plans.any (fun p => p.doms.contains n) ||
    decide (s.heldFloors / 2 ^ n % 2 = 1)

/-- Silicon's votes at a turn edge; a floor keeps an idle-timer domain ON by holding its timer at zero. -/
def State.silentVotes (s : State) : State :=
  (List.finRange 24).foldl (fun s (n : Fin 24) =>
    if domPolicy n = 3 then (if s.sluiceHolds n then s.holdVote n 0x030 else s.dropVote n 0x030)
    else if domPolicy n = 2 && decide (s.heldFloors / 2 ^ n.val % 2 = 1) then s.touch n 0x030
    else s) s

/-! ### Domains going off (R435–R438) -/

/-- Banks of a domain (Table 10.4). -/
def domainBanks (n : Nat) : List Nat :=
  if n = 21 then List.range 32
  else if n = 1 then (List.range 5).map (· + 0x20)
  else if 6 ≤ n ∧ n ≤ 8 then (List.range 8).map (· + (0x40 + 8 * (n - 6)))
  else if 13 ≤ n ∧ n ≤ 20 then (List.range 8).map (· + (0x80 + 8 * (n - 13)))
  else []

/-- At a domain's first power its banks sweep within the domain's wake time, and those with REQ ON are ON (R361). -/
def State.powerBanks (s : State) (n : Fin 24) : State :=
  (domainBanks n).foldl (fun s b =>
    if s.bankState b = 0 && s.fld (Reg.OCM_BANK_REQ b) == 1 && !s.flag (Reg.OCM_BANK_DISABLE b) then s.setFld (Reg.OCM_BANK_STATE b) 1 else s) s

/-- The TCMs of a cluster that goes off for Conserve are asked to enter RETENTION (R363, Table 13.5). -/
def State.parkTcms (s : State) (n : Fin 24) : State :=
  if 6 ≤ n.val && decide (n.val ≤ 8) && (s.power.entry.isSome || s.power.mode == .conserve) then
    (domainBanks n).foldl (fun s b =>
      if s.bankState b = 1 then (s.setFld (Reg.OCM_BANK_REQ b) 2).onMemory fun m => { m with bankWait := kput b 2 m.bankWait } else s) s
  else s

/-- The engines and furrows of a flash group that goes off: one that is up is off, and so is every die that the group has, but for retired
ones (R150, R165). -/
def State.groupOff (s : State) (g : Nat) : State :=
  (List.range 128).foldl (fun s i =>
    let st := s.fld (Reg.FUR_STATUS_STATE (128 * g + i))
    if st = 0xB ∨ st = 0xE then s else s.setFld (Reg.FUR_STATUS_STATE (128 * g + i)) 0)
    ((List.range 8).foldl (fun s i =>
      if s.fld (Reg.FCE_STATUS_STATE (8 * g + i)) = 2 then s.setFld (Reg.FCE_STATUS_STATE (8 * g + i)) 0 else s) s)

/-- They are back with the group: engines up on their rung, dies idle, or failing where SLU.DIE_STATE says so. -/
def State.groupOn (s : State) (g : Nat) : State :=
  (List.range 128).foldl (fun s i =>
    if s.fld (Reg.FUR_STATUS_STATE (128 * g + i)) = 0 then
      s.setFld (Reg.FUR_STATUS_STATE (128 * g + i)) (if s.fld (Reg.SLU_DIE_STATE_STATE (128 * g + i)) = 1 then 0xA else 1)
    else s)
    ((List.range 8).foldl (fun s i =>
      if s.fld (Reg.FCE_STATUS_STATE (8 * g + i)) = 0 then s.setFld (Reg.FCE_STATUS_STATE (8 * g + i)) 2 else s) s)

/-- A domain loses power: its banks with a request for RETENTION that waits enter it, and those that are not in it are OFF (R360, R361). -/
def State.domainOff (s : State) (n : Fin 24) : State :=
  let s := (domainBanks n).foldl (fun s b =>
    let s := if klook b s.memory.bankWait = some 2 then s.bankEnter b else s
    if s.bankState b = 1 then (s.sweepBank b).setFlds [(Reg.OCM_BANK_STATE b, 0), (Reg.OCM_BANK_SWEEP b, 0)] else s)
    ((s.parkTcms n).onDom n fun d => { d with state := .off })
  if 13 ≤ n.val && decide (n.val ≤ 20) then s.groupOff (n.val - 13) else s

/-- DOMAIN_DROP (R436): 64 turns after the last vote was withdrawn. -/
def execDomainDrop (dom : Fin 24) (s : State) : Out :=
  .next (if (s.dom dom).state == .dropping && decide ((s.dom dom).dropFrom + 64 ≤ s.turn) then s.domainOff dom else s)

/-- The group's dies are idle, absent or retired, with no hold, and no plan holds a step on its channels (R155). -/
def State.groupIdle (s : State) (g : Nat) : Bool :=
  ((List.range 128).all fun i => [0, 1, 0xB, 0xE].contains (s.fld (Reg.FUR_STATUS_STATE (128 * g + i)))) &&
  !(s.flash.dies.any fun d => d.1 / 128 == g && (d.2.busy.isSome || d.2.hold.isSome)) &&
  !(s.sluice.bookings.any fun b => match b.res with | .die n => n / 128 == g | .chan c => c / 8 == g | _ => false) &&
  !((s.flash.plans.flatMap (·.members)).any fun m => m.die / 128 == g && m.stage != .proven)

/-- The condition under which an idle-timer domain may drop (R437). -/
def State.idleCond (s : State) (n : Nat) : Bool :=
  if n = 2 || n = 3 then (List.finRange 2).all fun c => (s.linkDom c).val != n || (s.ctl c).link == .l12
  else if n = 23 then s.store.banks.toList.all fun b => b.prog.isNone && b.erase.isNone && b.blank.isNone
  else s.groupIdle (n - 13)

/-- The idle timer of a domain, in turns (R455). -/
def State.idleTimer (s : State) (n : Nat) : Nat :=
  16 * s.fld (if n = 23 then Reg.PMC_IDLE_FWS else if n ≤ 3 then Reg.PMC_IDLE_HPHY else Reg.PMC_IDLE_FG)

/-- The unit that fails a domain's condition. -/
def idleRefuser (n : Nat) : Nat :=
  if n = 2 then 0x20 else if n = 3 then 0x21 else if n = 23 then 0x3FF else 0x80 + 8 * (n - 13)

/-- IDLE_TIMER_EXPIRY (R437). -/
def execIdleTimerExpiry (dom : Fin 24) (s : State) : Out :=
  .next (if domPolicy dom != 2 || (s.dom dom).state != .on || decide (s.turn < (s.dom dom).idleFrom + s.idleTimer dom) then s
    else if s.power.exiting.isSome && conserveDoms.contains dom.val then s.restartIdle dom
    else if s.idleCond dom then s.domainOff dom
    else (s.countRefusal dom false (idleRefuser dom)).restartIdle dom)

/-- DOMAIN_WAKE_ON_ACCESS (R435). -/
def execDomainWakeOnAccess (dom : Fin 24) (client : Nat) (s : State) : Out := .next (s.touch dom client)

/-- Table 13.3: the domains that can be retired. -/
def retirable (n : Nat) : Bool := n == 2 || n == 3 || (decide (6 ≤ n) && decide (n ≤ 10)) || (decide (13 ≤ n) && decide (n ≤ 20))

/-- DOMAIN_RETIRE (R438). A cluster leaves the compute pool and makes a record (R237); another domain is recorded in the event log (DESIGN
CHOICE, assumption log 190). -/
def execDomainRetire (client : Nat) (dom : Fin 24) (s : State) : Out :=
  .next (s.setupWrite client (Reg.PMC_DOM dom) (BitVec.ofNat 32 65536) (.domainRetire client dom) fun s =>
    if !retirable dom then s.logWrite client (Reg.PMC_DOM dom) (BitVec.ofNat 32 65536)
    else if s.flag (Reg.PMC_DOM_RETIRE dom) then s
    else
      let s := s.retireDomain dom
      if 6 ≤ dom.val ∧ dom.val ≤ 8 then (s.setCluster (dom.val - 6) false).retireRecord 6 0x0E (dom.val - 6) 0
      else s.log 0x0401 0 client dom)

/-- RETIRED_DOMAIN_ACCESS (R25, R497). -/
def execRetiredDomainAccess (dom : Fin 24) (client addr : Nat) (write : Bool) (s : State) : Out :=
  .next (if s.isDead dom then
      { s.busError client addr write with answer := if write then s.answer else some (.value client 0xFFFFFFFF) }
    else s)

/-- FABRIC_PARITY_ERROR (R23): counted on the link; the flit is sent again. -/
def execFabricParityError (unit link : Nat) (s : State) : Out :=
  let n := (klook (unit * 8 + link) s.collector.parity).getD 0 + 1
  let t := s.onCollector fun c => { c with parity := kput (unit * 8 + link) n c.parity }
  .next (if 1024 < n then t.setFld Reg.ERC_EVENT_FAB_LIMIT 1 else t)

/-! ### The ceiling (R447) -/

/-- The ceiling of the operational power state, in 1/16 W (Table 02.16). -/
def psCeiling (ps : Nat) : Nat := [960, 720, 480].getD ps 960

/-- Write SLU.POWER.CEIL, for the next turn edge. -/
def State.applyCeil (s : State) : State :=
  let under (c : Nat) : Nat := match s.power.thermCeil with | some t => min c t | none => c
  let base := under (psCeiling s.power.operPs)
  let now := if s.power.mode == .surge then under 0x4E0 else base
  ((s.holdWord Reg.SLU_POWER).setFld Reg.SLU_POWER_CEIL now).onSluice fun x => { x with serviceCeil := base }

/-! ### Mode changes (R431) -/

/-- The mode changes. -/
def State.setMode (s : State) (m : Mode) : State :=
  let old := s.power.mode
  let s := (s.onPower fun p => { p with mode := m, prev := old, wholeService := p.wholeService && m == .service }).setFlds
    [(Reg.PMC_EVENT_MODE_CHANGE, 1), (Reg.SLU_STATUS_SURGE, if m = .surge then 1 else 0),
     (Reg.SLU_STATUS_CONSERVE, if m = .conserve then 1 else 0)]
  let s := if m = .sealed then s.setFld Reg.SLU_STATUS_SEALED 1 else s
  s.log 0x0101 0 0x3FF (m.code + old.code * 256)

/-- Surge starts (R448). -/
def State.startSurge (s : State) : State :=
  (((s.setMode .surge).setFlds [(Reg.PMC_SURGE_ACTIVE, 1), (Reg.PMC_SURGE_AVAIL, 0), (Reg.PMC_SURGE_ROT_LEFT, 111), (Reg.PMC_SURGE_COOL_ROT, 0),
    (Reg.PMC_EVENT_SURGE_START, 1)]).log 0x0501 0 0x3FF 0).applyCeil

/-- Surge ends into a mode (R449). -/
def State.endSurge (s : State) (m : Mode) : State :=
  let s := s.setMode m
  ((s.setFlds [(Reg.PMC_SURGE_ACTIVE, 0), (Reg.PMC_SURGE_ROT_LEFT, 0), (Reg.PMC_SURGE_COOL_ROT, 0),
    (Reg.PMC_EVENT_SURGE_END, 1)]).log 0x0502 0 0x3FF 0).applyCeil

/-- Leave the present mode, ending Surge with it. -/
def State.leaveTo (s : State) (m : Mode) : State := if s.power.mode == .surge then s.endSurge m else s.setMode m

/-- A furrow that a data-plane reset empties: no operation, hold or page, and idle (R40). -/
def State.emptyFurrow (s : State) (n : Nat) : State :=
  let t := (s.endHold n).onDie n fun d => { d with busy := none, page := none }
  if s.fld (Reg.FUR_STATUS_STATE n) = 0 ∨ s.fld (Reg.FUR_STATUS_STATE n) = 0xE then t else t.setFur n 1

/-- What a data-plane reset empties (R40): calendars, plans, furrow queues, channel windows and leases, and the accumulators of the plans; it
holds the turn-stepped units. Galley slots stay as they are. -/
def State.emptyDataPlane (s : State) : State :=
  let s := s.flash.dies.foldl (fun s d => s.emptyFurrow d.1) s
  let s := (s.onFlash fun x => { x with plans := [], eraseQueue := [], accs := [] }).setFld Reg.FRM_STATUS_ACC_USED 0
  s.onSluice fun x => { x with bookings := [], plans := [], released := [], armed := [], lookups := [], hold := true }

/-- The domains of Recovery (R433): the kept ones on, every other one off. -/
def State.recoveryDomains (s : State) : State :=
  (List.finRange 24).foldl (fun s n =>
    if s.isDead n then s
    else if s.recoveryKeeps n then (s.onDom n fun d => { d with state := .on }).powerBanks n
    else s.domainOff n) s

/-- Recovery runs in place from the first valid boot extension copy: the rider fetches from its bank (R414, R406). -/
def State.fetchFromExt (s : State) : State :=
  s.onStore fun t => { t with fetchBank := match (List.finRange 2).find? fun i => t.ext[i] with | some i => [(0x60, i.val)] | none => [] }

/-! ### Global operations (R26–R28, R39, R40, R502) -/

def State.globalStatus (s : State) (busy : Bool) (result op client : Nat) : State :=
  s.setFlds [(Reg.TRN_GLOBAL_STATUS_BUSY, busy.toNat), (Reg.TRN_GLOBAL_STATUS_RESULT, result), (Reg.TRN_GLOBAL_STATUS_OP, op),
    (Reg.TRN_GLOBAL_STATUS_CLIENT, client)]

/-- A data-plane reset at the next turn edge; it ends an open barrier as ABORTED (R28). -/
def State.issueReset (s : State) (client : Nat) : State :=
  let open_ := s.sluice.globals.find? fun g => g.1 == 2
  let s := s.onSluice fun x => { x with globals := (x.globals.filter fun g => g.2.2 != s.turn + 1 && g.1 != 2) ++ [(3, client, s.turn + 1)] }
  match open_ with
  | some g => s.globalStatus true 2 2 g.2.1
  | none => (s.setWord Reg.TRN_GLOBAL_STATUS 0).globalStatus true 0 3 client

/-- Issue a global operation at the next turn edge; the root takes one in a turn, the sluice's first. -/
def State.issueGlobal (s : State) (client op : Nat) : State :=
  let taken := s.sluice.globals.any fun g => g.2.2 == s.turn + 1 && (g.2.1 == 0x030 || client != 0x030)
  if op = 3 && !s.bootMode then s.globalStatus (!s.sluice.globals.isEmpty) 3 op client
  else if taken then s.globalStatus true 4 op client
  else if op = 3 then s.issueReset client
  else (s.onSluice fun x =>
    { x with globals := (x.globals.filter fun g => g.2.2 != s.turn + 1) ++ [(op, client, s.turn + 1)] }).globalStatus true 0 op client

/-- Entry into Recovery with its cause (R43, R433): a data-plane reset is issued, whose issuer has no client ID (R39), and no controller is
ready. -/
def State.enterRecovery (s : State) (cause : Nat) : State :=
  let s := (((s.leaveTo .recovery).setFld Reg.PMC_MODE_REC_CAUSE cause).log 0x0103 0 0x3FF cause).captureTele
  let s := (s.issueReset 0x3FF).recoveryDomains.fetchFromExt
  let s := s.onHost fun h => { h with cmds := [] }
  let s := (s.onCtl 0 fun x => { x with rdy := false }).onCtl 1 fun x => { x with rdy := false }
  s.onPower fun p => { p with entry := none, exiting := none, recovering := none, psChange := none, psWait := none, psDone := [] }

/-- SEAL_REQUEST (R240, R454). From Conserve the write starts the exit. -/
def execSealRequest (client : Nat) (s : State) : Out :=
  .next (s.setupWrite client Reg.PMC_MODE_REQ 1 (.sealRequest client) fun s =>
    let s := s.setFld Reg.PMC_MODE_REQ_SEAL 1
    if s.power.mode == .conserve then s.startExit none else s)

/-- RECOVER_REQUEST (R454): the steps of R43 begin; from Conserve, after every domain is awake. -/
def execRecoverRequest (client : Nat) (s : State) : Out :=
  .next (s.setupWrite client Reg.PMC_MODE_REQ 2 (.recoverRequest client) fun s =>
    let s := s.setFld Reg.PMC_MODE_REQ_RECOVER 1
    if !s.power.mode.carriesData then s
    else
      let s := (s.onHost fun h => { h with admitStop := true }).onPower fun p => { p with recovering := some 6 }
      if s.power.mode == .conserve then s.startExit none else s)

/-- PERMANENT_FAULT (R43): a duplicated pair has disagreed in 16 consecutive turns. -/
def execPermanentFault (unit : Nat) (s : State) : Out :=
  .next (if 16 ≤ (klook unit s.collector.pairRun).getD 0 then
      (if s.power.mode == .conserve then s.permanentFault.startExit none else s.permanentFault)
    else s)

/-- Abandon a PS3 or PS4 entry at the Sealed edge (R432): the domains it turned off are woken, and its Set Features ends. -/
def State.abandonForSealed (s : State) : State :=
  match s.power.entry with
  | none => s
  | some e =>
    let s := conserveDoms.foldl (fun s n =>
      let n := Fin.ofNat 24 n
      if (s.dom n).state == .off then s.startWake n else s) (s.endEntry 2)
    match e.req with
    | some a => s.reply a St.invalidField []
    | none => s

/-- The mode requests at a turn edge (Table 13.1, R240, R43). Surge is permitted in PS0 alone: another power state, and the entry into one,
end it (Table 02.16). -/
def State.modeTurn (s : State) : State :=
  let m := s.power.mode
  let s :=
    if s.flag Reg.PMC_MODE_REQ_SEAL && m.carriesData && !s.flag Reg.SLU_STATUS_SEALED then
      let s := ((s.abandonForSealed).setFld Reg.SLU_STATUS_SEALED 1).onNv fun n => { n with sealed := true }
      if m == .conserve then s else s.leaveTo .sealed
    else if m == .surge && (s.fld Reg.PMC_PS_PS != 0 || s.power.entry.isSome) then s.endSurge .service
    else s
  if s.flag Reg.PMC_MODE_REQ_RECOVER && s.power.recovering.isSome && s.power.mode != .conserve && s.power.mode.carriesData &&
      s.galleyDrained then s.enterRecovery 6
  else s

/-! ### Power states (R82–R84, R441–R445, R533) -/

/-- The power state that governs: the higher-power selection (R82). -/
def State.governing (s : State) : Nat := min (s.fld Reg.PMC_PS_C0_SEL) (s.fld Reg.PMC_PS_C1_SEL)

/-- A selection still under way is superseded by a later one (R445). -/
def State.supersede_ps (s : State) : State :=
  let e := s.power.entry.bind (·.req)
  let w := s.power.psWait.bind (·.req)
  let c := s.power.psChange.bind (·.2)
  let s := if e.isSome then s.endEntry 3 else s
  ((((s.onPower fun p => { p with psWait := none, psChange := none }).replyDone e).replyDone w).replyDone c)

/-- A Conserve entry begins: for PS4 the scratchpad banks that R363 permits go to RETENTION (Table 13.5). -/
def State.beginEntry (s : State) (target : Nat) (req : Option Adm) : State :=
  let s := (s.onPower fun p => { p with entry := some { began := s.turn, target := target, req := req } }).setFld Reg.PMC_PS_ENTERING 1
  if target = 4 then s.parkBanks else s

/-- A change between PS3 and PS4 begins (R533): to PS3 the DRAM halves are woken, and the banks return to ON; to PS4 the banks go to
RETENTION. -/
def State.beginChange (s : State) (target : Nat) (req : Option Adm) : State :=
  let s := s.onPower fun p => { p with psChange := some (target, req) }
  if target = 3 then ((s.startWake 11).startWake 12).unparkBanks s.copyBanks else s.parkBanks

/-- A selection made while the device is in Conserve (Table 02.19). -/
def State.selectInConserve (s : State) (g : Nat) (a : Adm) : State :=
  if g ≤ 2 then
    let s := s.onPower fun p => { p with operPs := g }
    match s.power.exiting with
    | none => s.startExit (some a)
    | some x => (s.onPower fun p => { p with exiting := some { x with req := some a } }).replyDone x.req
  else if s.power.exiting.isSome then s.beginEntry g (some a)
  else if g = s.fld Reg.PMC_PS_PS then s.replyNext (some a)
  else s.beginChange g (some a)

/-- A power state selected by a controller (R83): the governing state moves, and the completion waits for the old state's
plans. -/
def State.selectPower (s : State) (c : Fin 2) (ps : Nat) (a : Adm) : State :=
  if 4 < ps || (decide (3 ≤ ps) && s.flag Reg.SLU_STATUS_SEALED) then s.reply a St.invalidField []
  else
    let s := (s.supersede_ps).setFld (if c = 0 then Reg.PMC_PS_C0_SEL else Reg.PMC_PS_C1_SEL) ps
    let g := s.governing
    if s.power.mode == .conserve then s.selectInConserve g a
    else if 3 ≤ g then s.beginEntry g (some a)
    else if g = s.fld Reg.PMC_PS_PS then s.reply a St.ok []
    else
      ((s.setFld Reg.PMC_PS_PS g).onPower fun p =>
        { p with operPs := g, psWait := some { began := s.turn, target := g, req := some a } }).applyCeil

/-- Plans accepted before a turn are still running. -/
def State.oldPlans (s : State) (t : Nat) : Bool := s.sluice.plans.any fun p => decide (p.decided ≤ t)

/-- An operational selection completes when the last plan of the old state has (R83). -/
def State.psTurn (s : State) : State :=
  match s.power.psWait with
  | some e => if s.oldPlans e.began then s else (s.onPower fun p => { p with psWait := none }).replyNext e.req
  | none => s

/-- Every domain that Conserve turns off is off. -/
def State.conserveOff (s : State) : Bool :=
  conserveDoms.all fun n => (s.dom (Fin.ofNat 24 n)).state == .off || s.isDead (Fin.ofNat 24 n)

/-- Every domain that Conserve turned off is on again. -/
def State.conserveOn (s : State) : Bool :=
  conserveDoms.all fun n => s.isOn (Fin.ofNat 24 n) || s.isDead (Fin.ofNat 24 n)

/-- The client that still holds a Conserve entry, and in which domain. -/
def State.entryHolder (s : State) : Option (Nat × Nat) :=
  (conserveDoms.find? fun n => !(s.dom (Fin.ofNat 24 n)).votes.isEmpty).map fun n =>
    (((s.dom (Fin.ofNat 24 n)).votes.head?).getD 0x3FF, n)

def State.entryTurn (s : State) : State :=
  match s.power.entry, s.entryHolder with
  | some e, some h => s.onPower fun p => { p with entry := some { e with holder := h } }
  | _, _ => s

/-- CONSERVE_ENTRY_END (R83, R441). -/
def execConserveEntryEnd (s : State) : Out :=
  .next (match s.power.entry with
    | some e =>
      if s.power.mode != .service || s.oldPlans e.began || !s.conserveOff then s
      else (((s.endEntry 1).setMode .conserve).setFld Reg.PMC_PS_PS e.target).replyNext e.req
    | none => s)

/-- APST_TRANSITION (R83): an autonomous entry, or a deeper non-operational state from Conserve. -/
def execApstTransition (ps : Nat) (s : State) : Out :=
  .next (if !s.power.apstOn || ps < 3 || 4 < ps || s.flag Reg.SLU_STATUS_SEALED then s
    else if s.power.mode == .conserve then
      if s.power.exiting.isSome || s.power.psChange.isSome || ps ≤ s.fld Reg.PMC_PS_PS then s
      else s.beginChange ps none
    else if !(s.power.mode == .service || s.power.mode == .surge) || s.power.entry.isSome then s
    else s.beginEntry ps none)

/-- CONSERVE_EXIT_COMPLETE (R442): Service, or Sealed where SEAL is pending; the TCMs are woken from RETENTION. -/
def execConserveExitComplete (s : State) : Out :=
  .next (match s.power.exiting with
    | some x =>
      if s.power.mode != .conserve || !s.conserveOn then s
      else
        let s := (s.onPower fun p => { p with exiting := none }).setFlds [(Reg.PMC_PS_EXITING, 0), (Reg.PMC_PS_PS, s.power.operPs)]
        let s := s.unparkBanks ((List.range 24).map (· + 0x40))
        ((s.setMode (if s.flag Reg.PMC_MODE_REQ_SEAL then .sealed else .service)).applyCeil).replyNext x.req
    | none => s)

/-- PS3_PS4_CHANGE_APPLIED (R533): PS4 applies once the banks are in RETENTION, PS3 once both DRAM halves have restored
their training and are back in self-refresh. -/
def execPs3Ps4ChangeApplied (s : State) : Out :=
  .next (match s.power.psChange with
    | some (g, req) =>
      if s.power.mode != .conserve || (s.dom 11).state == .waking || (s.dom 12).state == .waking ||
          (g == 4 && s.copyBanks.any fun b => s.fld (Reg.OCM_BANK_REQ b) == 2 && s.fld (Reg.OCM_BANK_STATE b) != 2) then s
      else
        let back (s : State) (n : Fin 24) : State := if (s.dom n).state == .on && (s.dom n).votes.isEmpty then s.domainOff n else s
        let s := if g = 3 then back (back s 11) 12 else s
        (((s.onPower fun p => { p with psChange := none }).setFld Reg.PMC_PS_PS g).replyNext req)
    | none => s)

/-! ### Thermal trip (R451) -/

/-- THERMTRIP (R451). -/
def execThermtrip (s : State) : Out :=
  .next (if s.power.mode == .off || s.pins.thermtrip then s
    else (((s.onPins fun p => { p with thermtrip := true }).setFlds
      [(Reg.PMC_THERM_TRIP, 1), (Reg.PMC_EVENT_THERMTRIP, 1)]).log 0x0504 0 0x3FF 0))

/-! ### Global operations by command (R26–R28, R39, R40, R502) -/

def State.globalWrite (s : State) (client op : Nat) (i : Instr) : State :=
  s.setupWrite client Reg.TRN_GLOBAL_CMD (BitVec.ofNat 32 op) i fun s => s.issueGlobal client op

/-- GLOBAL_STATE_BROADCAST (R502). -/
def execGlobalStateBroadcast (client : Nat) (s : State) : Out := .next (s.globalWrite client 1 (.globalStateBroadcast client))

/-- GLOBAL_BARRIER (R26). -/
def execGlobalBarrier (client : Nat) (s : State) : Out := .next (s.globalWrite client 2 (.globalBarrier client))

/-- DATA_PLANE_RESET (R40): refused outside Boot and Recovery. -/
def execDataPlaneReset (client : Nat) (s : State) : Out := .next (s.globalWrite client 3 (.dataPlaneReset client))

/-- BARRIER_COMPLETE (R26, R27): 4 turns after its issue, or after the last turn in which a group that it woke was waking. -/
def execBarrierComplete (s : State) : Out :=
  .next (match s.sluice.globals.find? fun g => g.1 == 2 with
    | some g =>
      if s.turn < g.2.2 + 4 || (List.range 8).any (fun k => (s.dom (Fin.ofNat 24 (13 + k))).state == .waking) then s
      else
        let s := s.onSluice fun x => { x with globals := x.globals.erase g }
        s.globalStatus (!s.sluice.globals.isEmpty) 1 2 g.2.1
    | none => s)

/-- Every engine and furrow reloads its states from SLU.DIE_STATE and SLU.CHAN_OUT. -/
def State.reloadStates (s : State) : State :=
  (List.range 1024).foldl (fun s d =>
    match s.fld (Reg.SLU_DIE_STATE_STATE d) with
    | 1 => s.setFld (Reg.FUR_STATUS_STATE d) 0xA
    | 2 => s.setFld (Reg.FUR_STATUS_STATE d) 0xB
    | _ => s)
    ((List.range 64).foldl (fun s c => if s.chanRetired c then s.setFld (Reg.FCE_STATUS_STATE c) 5 else s) s)

/-- A broadcast or barrier reaches the group nodes in the turn after its issue, and wakes the groups that are off (R26, R27). -/
def State.wakeGroups (s : State) : State :=
  if s.sluice.globals.any fun g => g.1 != 3 && g.2.2 == s.turn then
    (List.range 8).foldl (fun s g =>
      let n := Fin.ofNat 24 (13 + g)
      if (s.dom n).state == .off then (s.touch n 0x30).onDom n fun d => { d with wakeFrom := s.turn + 1 } else s) s
  else s

/-- A barrier's arm broadcast waits at the node of a group that is waking: its 4 turns count from there (R27). -/
def State.holdBarrier (s : State) : State :=
  if (List.range 8).any fun k => (s.dom (Fin.ofNat 24 (13 + k))).state == .waking then
    s.onSluice fun x => { x with globals := x.globals.map fun g => if g.1 = 2 then (g.1, g.2.1, max g.2.2 s.turn) else g }
  else s

/-- Global operations that end with this turn: a broadcast 3 turns after its issue, a data-plane reset 8 turns after. -/
def State.globalTurn (s : State) : State :=
  let s := s.wakeGroups.holdBarrier
  s.sluice.globals.foldl (fun s g =>
    let len := if g.1 = 3 then 8 else 3
    if g.1 = 2 || s.turn + 1 < g.2.2 + len then s
    else
      let s := s.onSluice fun x => { x with globals := x.globals.erase g }
      let s := if g.1 = 3 then s.emptyDataPlane else s.reloadStates
      s.globalStatus (!s.sluice.globals.isEmpty) 1 g.1 g.2.1) s

end Sys2Proof.Machine
end

