-- ==== Sys2Proof/Machine/Reclaim.lean ====
section
/-! DEFINITION. Dredging, placement, the weir, the wear allotment, retirement writes, rebuilds and early warnings (chapter 6,
R215–R244; R132, R133, R144–R146, R155, R268–R274), with the commands on them. -/

namespace Sys2Proof.Machine

/-! ### Opening a forme-block (R220) -/

/-- Insert by descending count; a tie keeps the earlier, lower channel. -/
def insertDesc (x : Nat × MBlock) : List (Nat × MBlock) → List (Nat × MBlock)
  | [] => [x]
  | y :: t => if y.1 < x.1 then x :: y :: t else y :: insertDesc x t

/-- Channels of a lane with a free member block, by descending count of free member blocks. -/
def State.openOrder (s : State) (wear : Bool) (lane : Nat) (skip : List Nat) : List (Nat × MBlock) :=
  (List.range 64).foldl (fun l c =>
    if skip.contains c then l
    else
      match s.bestBlock wear lane c with
      | some m => insertDesc (s.chanBlocks lane c fun b => b.gone || !b.free, m) l
      | none => l) []

/-- The lowest forme-block number of a lane not in use. -/
def State.nextFb (s : State) (lane : Nat) : Nat → Nat → Nat
  | 0, b => b
  | fuel + 1, b => if s.flash.formeBlocks.any (fun f => f.lane == lane && f.b == b) then s.nextFb lane fuel (b + 1) else b

/-- The members of forme-block b: ascending channels, member i at place (i + b) mod 16. -/
def memberOrder (b : Nat) (l : List MBlock) : List MBlock :=
  let asc := (List.range 64).filterMap fun c => l.find? fun m => m.die / 16 == c
  (List.range 16).filterMap fun i => asc[(i + b) % 16]?

/-- Book the forme-block table words of members from `i` on at the port (R180, R203). -/
def State.writeFbt (s : State) (lane b : Nat) : Nat → List MBlock → State
  | _, [] => s
  | i, m :: t => (s.bookOp (.req 7 { target := lane + b * 4 + i * 2 ^ 30, new := blockWord m })).writeFbt lane b (i + 1) t

/-- The table words of a forme-block stand as its members are: no member is programmed before (R220). -/
def State.tableWritten (s : State) (f : FormeBlock) : Bool :=
  f.members.zipIdx.all fun x => decide (wordBlock (s.fbtWord f.lane f.b x.2) = x.1)

/-- The next copy that waits for a destination in a lane is a wear victim's (R235). -/
def State.wearNext (s : State) (lane : Nat) : Bool :=
  match s.flash.copies.find? fun c => c.lane == lane with
  | some c => s.flash.formeBlocks.any fun f => f.lane == lane && f.b == c.b && f.victim == 3
  | none => false

/-- Open a forme-block in a lane; with fewer than 16 channels none is opened. -/
def State.openForme (s : State) (lane : Nat) (dredge : Bool) : State :=
  let l := (s.openOrder (dredge && s.wearNext lane) lane []).take 16
  if l.length < 16 then s
  else
    let b := s.nextFb lane s.flash.formeBlocks.length 0
    let ms := memberOrder b (l.map (·.2))
    let s := s.writeFbt lane b 0 ms
    let s := ms.foldl (fun s m => s.onBlock m.die m.block fun x => { x with free := false }) s
    s.onFlash fun x => { x with formeBlocks := x.formeBlocks ++ [{ lane := lane, b := b, members := ms, dredge := dredge }] }

/-- FORME_BLOCK_OPEN (R220). -/
def execFormeBlockOpen (lane : Nat) (forDredge : Bool) (s : State) : Out := .next (if lane < s.lanes then s.openForme lane forDredge else s)

/-! ### Valid units -/

def State.formeBlock (s : State) (lane b : Nat) : Option FormeBlock := s.flash.formeBlocks.find? fun f => f.lane == lane && f.b == b

/-- Replace a forme-block. -/
def State.onForme (s : State) (lane b : Nat) (g : FormeBlock → FormeBlock) : State :=
  s.onFlash fun x => { x with formeBlocks := updIf (fun f => f.lane == lane && f.b == b) g x.formeBlocks }

/-- The map still names a sector's location: the entry, its overlay's base, or the sector's fragment (R227). -/
def State.sectorLive (s : State) (kind f m g k : Nat) : Bool :=
  match s.mapEntry g with
  | .flash m' f' => kind == 0 && m' == m && f' == f
  | .overlay i =>
    let o := s.overlay i
    if kind = 0 then natBits o.sect (8 * k) 2 == 0 && entryOf o.base == .flash m f
    else natBits o.sect (8 * k) 2 == 1 && entryOf (o.frags.getD k 0) == .flash m f
  | _ => false

/-- The live sectors of a unit of flash. -/
def State.liveSectors (s : State) (x : MediaUnit) (f m : Nat) : List (Option (Nat × Nat × Sector)) :=
  x.sectors.map fun o => match o with | some (g, k, c) => if s.sectorLive x.kind f m g k then some (g, k, c) else none | none => none

/-- A unit is valid: one of its sectors is. -/
def State.unitLive (s : State) (lane f m : Nat) : Bool :=
  match s.unitAt lane f m with | some x => (s.liveSectors x f m).any (·.isSome) | none => false

/-- The places of a forme-block's written data units: (f, member). -/
def State.placesOf (s : State) (fb : FormeBlock) : List (Nat × Nat) :=
  (List.range fb.next).flatMap fun o => (List.range 14).map fun m => (fb.b * max 1 s.unitsPerMb + o, m)

/-- Valid data units of a forme-block. -/
def State.validUnits (s : State) (fb : FormeBlock) : Nat := ((s.placesOf fb).filter fun p => s.unitLive fb.lane p.1 p.2).length

/-- The valid fraction v of a forme-block's data units. -/
def State.validFrac (s : State) (fb : FormeBlock) : Rat := (s.validUnits fb : Rat) / (max 1 (14 * fb.next) : Nat)

/-! ### Victims (R226) -/

/-- The lane of lowest F. -/
def State.poorestLane (s : State) : Nat := (List.range s.lanes).foldl (fun m l => if s.freeF l < s.freeF m then l else m) 0

/-- A space victim is better than another in a weir level; v = 0 goes ahead of the score. -/
def State.betterVictim (s : State) (a b : FormeBlock) : Bool :=
  let va := s.validFrac a
  let vb := s.validFrac b
  let score (v : Rat) (f : FormeBlock) : Rat := (1 - v) * ((s.dlxNow - f.closedRot + 1 : Nat) : Rat) / (2 * v)
  if vb = 0 then false
  else if va = 0 then true
  else if s.flash.weir ≤ 1 then decide (score vb b < score va a) else decide (va < vb)

/-- The space victim that Table 06.2 chooses; background dredging in OPEN takes v up to a half (Table 06.1). -/
def State.spaceVictim (s : State) : Option FormeBlock :=
  (s.flash.formeBlocks.filter fun f => f.lane == s.poorestLane && !f.isOpen && f.victim == 0 &&
      (s.flash.weir != 0 || decide (s.validFrac f ≤ 1 / 2))).foldl
    (fun best f => match best with | some b => if s.betterVictim f b then some f else some b | none => some f) none

/-- A unit of a forme-block has been copied, or a plan of one runs. -/
def State.copying (s : State) (fb : FormeBlock) (f m : Nat) : Bool :=
  (fb.copies.any fun c => c.1 == f && c.2.1 == m) || s.sluice.plans.any fun p => p.work == some (.dredge fb.lane fb.b f m)

/-- A forme-block has a live unit still to copy. -/
def State.toCopy (s : State) (fb : FormeBlock) : Bool := (s.placesOf fb).any fun p => s.unitLive fb.lane p.1 p.2 && !s.copying fb p.1 p.2

/-- The class of Table 06.2 in which a forme-block is dredged: its own, or the space victim's; 0 none. -/
def State.victimClass (s : State) (fb : FormeBlock) : Nat :=
  if fb.victim = 9 then 0
  else if fb.victim ≠ 0 then fb.victim
  else match s.spaceVictim with | some v => (if v.lane = fb.lane ∧ v.b = fb.b then 4 else 0) | none => 0

/-- A victim comes before another: a higher class, or in one class but the space victims' the older request (R226). -/
def victimBefore (a b : FormeBlock) (ca cb : Nat) : Bool :=
  1 ≤ ca && ca ≤ 3 && (decide (ca < cb) || (ca == cb && decide (a.asked < b.asked)))

/-- A forme-block may be dredged: it is a victim, and no victim that comes before it has a unit left to copy (R226); Sealed serves relocation
and refresh only (R242). -/
def State.mayDredge (s : State) (fb : FormeBlock) : Bool :=
  let c := s.victimClass fb
  let serves (k : Nat) : Bool := k != 0 && (!s.flag Reg.SLU_STATUS_SEALED || decide (k ≤ 2))
  serves c && !s.flash.formeBlocks.any fun g => victimBefore g fb (if g.victim = 9 then 0 else g.victim) c && s.toCopy g

/-! ### Dredge copies (R227) -/

/-- Overlay records in use, at or above the merge level (R183, R213). -/
def State.overlayHigh (s : State) : Bool :=
  decide (s.fld Reg.DMC_OVL_HIGH_EIGHTHS * s.ovlRecords ≤ 8 * s.galley.ovl.length)

/-- The namespace that owns a unit, and whether the unit holds its metadata (R177, R292). -/
def State.ownerOf (s : State) (g : Nat) : Option (Namespace × Bool) :=
  s.nv.namespaces.findSome? fun n =>
    ((List.range n.grans).find? fun i => s.peek (s.granAddr (n.gbase + i)) 4 == g / 65536 + 2 ^ 31).map fun i => (n, decide (n.dataGrans ≤ i))

/-- A sector that a merge or a fold writes for a deallocated or a zeroed one: the bytes that it reads as (R195, R295). -/
def State.specialSector (s : State) (g : Nat) (zeroed : Bool) : Sector :=
  match s.ownerOf g with
  | some (n, true) => mkSector (List.replicate (4096 / max 1 (mdBytes n.lbaf)) (specialMd n zeroed))
  | some (n, false) => mkSector (List.replicate (blocksPerSector n.lbaf) (fill (blockBytes n.lbaf) 0))
  | none => mkSector [fill 4096 0]

/-- The sector that the map gives, as stored; none where it is LOST or unread. -/
def State.mapSector (s : State) (g k : Nat) : Option Sector :=
  match s.mapSrc g k with
  | .flash lane f m cw => (s.unitAt lane f m).bind fun x => (x.sectors.getD cw none).map (·.2.2)
  | .special c => if c = 2 then none else some (s.specialSector g (c == 1))
  | .slot _ => none

/-- The background reads of sectors of a unit as the map gives them. -/
def State.mapReads (s : State) (g : Nat) (ks : List Nat) : List UnitRead :=
  (groupSrc (ks.map fun k => (k, ⟨none, s.mapSrc g k, 0⟩))).map (mkRead ⟨0, 1, 0, 4, 0, false⟩ g)

/-- A read ended without data. -/
def UnitRead.gone (u : UnitRead) : Bool := u.path == .lost || u.path == .noData

/-- A fragment's owner is folded: the overlay is high, or all its sectors are fragments. -/
def State.folds (s : State) (g : Nat) : Bool :=
  match s.mapEntry g with
  | .overlay i => s.overlayHigh || (List.range 4).all fun k => natBits (s.overlay i).sect (8 * k) 2 == 1
  | _ => false

/-- The owners of a fragment unit's live sectors that are folded. -/
def State.foldsOf (s : State) (x : MediaUnit) (f m : Nat) : List Nat :=
  if x.kind = 0 then [] else (((s.liveSectors x f m).filterMap fun o => o.map (·.1)).eraseDups).filter s.folds

/-- The whole unit that a fold places. -/
def State.folded (s : State) (g : Nat) (like : MediaUnit) : MediaUnit :=
  { like with kind := 0, sectors := (List.range 4).map fun k => (s.mapSector g k).map fun c => (g, k, c) }

/-- What dredging copies of a unit: the unit, or a fragment unit's folds and its remaining live sectors. A fold that has met a LOST sector is
not made: its sectors stay fragments (R183). -/
def State.copiesOfUnit (s : State) (x : MediaUnit) (f m : Nat) (lost : List Nat) : List MediaUnit :=
  let live := s.liveSectors x f m
  if x.kind = 0 then [{ x with sectors := live }]
  else
    let folds := (s.foldsOf x f m).filter fun g => !lost.contains g
    let rest := live.map fun o => match o with | some y => if folds.contains y.1 then none else some y | none => none
    folds.map (fun g => s.folded g x) ++ (if rest.any (·.isSome) then [{ x with sectors := rest }] else [])

/-- The map updates that wait for the copies of a unit: of the whole unit (4), or of each fragment (R229). -/
def pendingOf (us : List MediaUnit) : List (Nat × Nat) :=
  (us.flatMap fun u => (u.sectors.filterMap id).map fun y => (y.1, if u.kind = 0 then 4 else y.2.1)).eraseDups

/-- A unit that no path recovers is recorded LOST by an unconditional update (R231). -/
def State.loseUnit (s : State) (f m : Nat) (x : MediaUnit) : State :=
  ((s.liveSectors x f m).filterMap fun o => o.map (·.1)).eraseDups.foldl (fun s g =>
    ((s.applyReq 3 { target := g, new := 2 } 0).2).recordLost g 0x0C) s

/-- Accept a background plan of firmware's own, of reads that are laid in the turns after this one (R225). -/
def State.startWork (s : State) (w : Work) (us : List UnitRead) : State :=
  let p : Plan :=
    { id := s.sluice.nextPlan, ref := none, decided := s.turn, limit := none, cls := 7, reads := us, post := s.turn + 1, first := s.turn + 1
      work := some w }
  s.onSluice fun x => { x with plans := x.plans ++ [p], nextPlan := x.nextPlan + 1 }

/-- The read of a victim's unit, whole. -/
def dredgeRead (lane f m : Nat) : UnitRead := { g := 0, per := 1, at_ := 0, len := 4, path := .primary, loc := some (lane, f, m) }

/-- Plan the copy of one live unit of a victim: its read, and the reads of the folds of a fragment unit (R225, R227). -/
def State.dredgeCopy (s : State) (fb : FormeBlock) (f m : Nat) : State :=
  match s.unitAt fb.lane f m with
  | none => s
  | some x =>
    if s.copying fb f m || !s.unitLive fb.lane f m then s
    else
      (s.startWork (.dredge fb.lane fb.b f m)
        (dredgeRead fb.lane f m :: (s.foldsOf x f m).flatMap fun g => s.mapReads g [0, 1, 2, 3])).onForme fb.lane fb.b fun y =>
          { y with victim := if y.victim = 0 then 4 else y.victim, asked := if y.victim = 0 then s.turn else y.asked }

/-- DREDGE_COPY (R227): `unit` is the forme offset × 14 + the member. -/
def execDredgeCopy (lane fb unit : Nat) (s : State) : Out :=
  .next (match s.formeBlock lane fb with
    | some f => if s.mayDredge f && decide (unit / 14 < f.next) then s.dredgeCopy f (fb * max 1 s.unitsPerMb + unit / 14) (unit % 14) else s
    | none => s)

/-- The read of a victim's unit has ended: its copies wait for a destination forme; a unit that no path recovers is LOST (R231). -/
def State.dredgeEnd (s : State) (us : List UnitRead) (lane b f m : Nat) : State :=
  match s.formeBlock lane b, s.unitAt lane f m, us with
  | some fb, some x, u :: rest =>
    if u.path == .lost then s.loseUnit f m x
    else if u.path != .done || !s.unitLive lane f m then s
    else
      let l := s.copiesOfUnit x f m ((rest.filter UnitRead.gone).map (·.g))
      let cs := l.map fun y => ({ unit := y, lane := lane, b := b, place := f, member := m, handle := fb.handle } : CopyUnit)
      ((s.onFlash fun y => { y with copies := y.copies ++ cs }).onForme lane b fun y => { y with copies := (f, m, pendingOf l) :: y.copies }).fdpMoved fb.handle
  | _, _, _ => s

/-! ### Merges (R183) -/

/-- The sectors of a slot with the rest as the map gives them. -/
def State.merged (s : State) (x : Slot) : List (Option Sector) :=
  x.sectors.zipIdx.map fun y => match y.1 with | some c => some c | none => s.mapSector x.unit y.2

/-- The fill reads of a merge have ended: the slot holds the whole unit, or is placed as fragments where one met a LOST sector. A map-only
step that is booked for the unit meanwhile leaves the merge to be made again. -/
def State.mergeEnd (s : State) (us : List UnitRead) (n : Nat) : State :=
  match s.slot n with
  | some x =>
    if us.any UnitRead.gone then s.onSlot n fun y => { y with frag := true }
    else if x.state != .resident || (List.range 4).any (fun k => (s.bookedOp x.unit k).isSome) then s
    else s.onSlot n fun y => { y with sectors := s.merged x }
  | none => s

/-! ### Read disturb and patrol (R263, R265, R266) -/

/-- The background read of one codeword of a member's unit. -/
def codewordRead (lane f m cw : Nat) : UnitRead :=
  { g := 0, per := 1, at_ := 0, len := 1, path := .primary, loc := some (lane, f, m), cw := cw }

/-- READ_DISTURB_PROBE (R265): background reads of one codeword each, the one that the command names, of a member block's first, middle and last page addresses; of an open
block, of those written (DESIGN CHOICE, assumption log 179). -/
def State.probe (s : State) (die block cw : Nat) : State :=
  match s.fbOf die block with
  | none => s
  | some f =>
    if f.next = 0 then s
    else
      let read (o : Nat) : UnitRead := codewordRead f.lane (f.b * max 1 s.unitsPerMb + o) (f.memberAt ⟨die, block⟩) (cw % 4)
      (s.startWork (.probe die block false) [read 0, read (f.next / 2), read (f.next - 1)]).onBlock die block fun b => { b with probes := b.probes + 1 }

def execReadDisturbProbe (die : Fin 1024) (block cw : Nat) (s : State) : Out := .next (s.probe die block cw)

/-- A probe's read has failed at L0. -/
def UnitRead.failedL0 (u : UnitRead) : Bool := u.decFail || decide (0 < u.ladder) || u.gone

/-- A probe ends: the forme-block is a refresh victim after a fail, too many corrected bits or the block's fourth probe; else the read counter
goes back to half the limit. -/
def State.probeEnd (s : State) (us : List UnitRead) (die block : Nat) (high : Bool) : State :=
  if high || us.any (·.failedL0) || decide (4 ≤ (s.blockInfo die block).probes) then s.makeVictim die block 2
  else s.poke (s.rdAddr die block) 4 (s.fld Reg.LDP_RD_LIMIT_LIMIT / 2)

/-- The patrol cycle under way, of PATROL_ROT = 16,384 rotations. -/
def State.patrolCycle (s : State) : Nat := s.rotation / 16384

/-- A unit offset lies on a page address that the cycle samples. -/
def State.patrolPage (s : State) (off : Nat) : Bool :=
  (List.range (16 / s.pageKib)).any fun i => (s.pageOf off + i) % 16 == s.patrolCycle % 16

/-- PATROL_CYCLE (R266): a background read of one codeword of a closed member block that holds mapped data, at the cycle's page addresses;
`page` is the unit offset read. -/
def State.patrolRead (s : State) (die block off cw : Nat) (below : Bool) (trims : List Int) : State :=
  match s.fbOf die block with
  | none => s
  | some f =>
    if f.isOpen || f.next ≤ off || !s.patrolPage off || s.validUnits f = 0 then s
    else s.startWork (.patrol die block below trims) [codewordRead f.lane (f.b * max 1 s.unitsPerMb + off) (f.memberAt ⟨die, block⟩) (cw % 4)]

def execPatrolCycle (die : Fin 1024) (block page : Nat) (res : PatrolSample) (s : State) : Out :=
  .next (s.patrolRead die block page res.cw res.below res.trims)

/-- A die's trims move by at most one step per level, once in a patrol cycle (R261, R263). -/
def State.moveTrims (s : State) (die : Nat) (trims : List Int) : State :=
  if trims.isEmpty || (s.die die).trimCycle == some s.patrolCycle then s
  else
    let move (s : State) (x : Int × Nat) : State :=
      let a := s.dlxTable + 5120 + 16 * die + x.2
      s.poke a 1 ((clampInt (-128) 127 (signed 8 (s.peek a 1) + clampInt (-1) 1 x.1)) % 256).toNat
    ((trims.take 15).zipIdx.foldl move s).onDie die fun d => { d with trimCycle := some s.patrolCycle }

/-- The oldest stamp of a forme-block has reached AGE_REFRESH, the start of age bucket 7 (R266). -/
def State.tooOld (s : State) (f : FormeBlock) : Bool :=
  (List.range 16).any fun m => (List.range (cdiv s.unitsPerMb 32)).any fun j =>
    let st := s.peek (s.stampAddr f.lane f.b m (32 * j)) 8
    natBits st 63 1 == 1 && decide (67108864 ≤ s.fld Reg.LDP_DLX_NOW_ROT - natBits st 0 32)

/-- A patrol read has ended: what it taught firmware, and the forme-block's age; a unit that no path recovers is LOST. -/
def State.patrolEnd (s : State) (us : List UnitRead) (die block : Nat) (below : Bool) (trims : List Int) : State :=
  let s := us.foldl (fun s u =>
    match u.path, u.loc with
    | .lost, some (l, f, m) => match s.unitAt l f m with | some x => s.loseUnit f m x | none => s
    | .done, some (_, f, _) => if below && u.ladder = 0 then s.learnShift die block (f % max 1 s.unitsPerMb) (-1) else s
    | _, _ => s) s
  let s := s.moveTrims die trims
  match s.fbOf die block with
  | some f => if s.tooOld f then s.makeVictim die block 2 else s
  | none => s

/-- The work of each plan of firmware's own whose reads have all ended; a probe ends with the first read that fails at L0. -/
def State.stepWorks (s : State) : State :=
  s.sluice.plans.foldl (fun s p =>
    match p.work with
    | some (.probe die block high) =>
      if p.reads.all (·.settled) || p.reads.any (·.failedL0) then (s.probeEnd p.reads die block high).endPlan p.id else s
    | w =>
    if !p.reads.all (·.settled) then s
    else
      match w with
      | some (.dredge lane b f m) => (s.dredgeEnd p.reads lane b f m).endPlan p.id
      | some (.merge n) => (s.mergeEnd p.reads n).endPlan p.id
      | some (.patrol die block below trims) => (s.patrolEnd p.reads die block below trims).endPlan p.id
      | _ => s) s

/-! ### Erasing a victim (R229) -/

/-- An accepted plan still holds a read step on a member block (R188). -/
def State.blockPinned (s : State) (m : MBlock) : Bool :=
  let on (c : Option Chain) : Bool := match c with | some c => c.reads.any fun r => r.die == m.die && r.block == m.block && r.phase != .moved && r.phase != .failed | none => false
  s.sluice.plans.any fun p => (p.reads ++ p.fills).any fun u => !u.settled && (on u.primary || on u.retry || on u.second)

/-- Order of issue: the die with fewer suspends in the last rotation first (R229). -/
def State.eraseOrder (s : State) (l : List MBlock) : List MBlock :=
  l.foldl (fun acc m =>
    let n := (s.die m.die).suspLast
    acc.takeWhile (fun x => decide ((s.die x.die).suspLast ≤ n)) ++ [m] ++ acc.dropWhile (fun x => decide ((s.die x.die).suspLast ≤ n))) []

/-- A victim with nothing valid left whose copies are resolved and whose blocks no plan reads: its failed members are
retired, the others wait for their erase (R229, R230). -/
def State.eraseVictim (s : State) (fb : FormeBlock) : State :=
  if fb.isOpen || fb.victim == 9 || fb.copies.any (fun c => !c.2.2.isEmpty) || decide (0 < s.validUnits fb) || fb.members.any s.blockPinned then s
  else
    let dead := fb.members.filter fun m => fb.failed.contains m || !s.dieCounts m.die
    let live := fb.members.filter fun m => !dead.contains m
    let s := (dead.filter fun m => s.dieCounts m.die).foldl (fun s m => s.retireBlock m.die m.block (let t := (s.blockInfo m.die m.block).cause; if t = 0 then 0x02 else t)) s
    let s := s.onForme fb.lane fb.b fun y => { y with victim := 9, erasing := live, copies := [] }
    let gone (y : FormeBlock) : Bool := y.lane == fb.lane && y.b == fb.b && live.isEmpty
    s.onFlash fun x => { x with eraseQueue := x.eraseQueue ++ s.eraseOrder live, formeBlocks := x.formeBlocks.filter fun y => !gone y }

/-- VICTIM_ERASE (R229). -/
def execVictimErase (lane fb : Nat) (s : State) : Out :=
  .next (match s.formeBlock lane fb with | some f => s.eraseVictim f | none => s)

/-! ### Placing a forme (R149, R228, R268) -/

/-- What waits to be placed: the unit as it is stored, and the slot or the copy's source it comes from. -/
structure Placing where
  unit : MediaUnit
  slots : List Nat := []
  source : Option (Nat × Nat × Nat × Nat) := none
  deriving DecidableEq, Repr

/-- Slots of a lane and handle that wait for placement, oldest first: RESIDENT, or PLACING behind a member die with a hold (R221). -/
def State.waitingSlots (s : State) (lane : Nat) (handle : Option Nat) : List (Nat × Slot) :=
  let l := s.galley.slots.filter fun x => (x.2.state == .resident || x.2.state == .placing) && !x.2.inFlight && s.laneOf x.2.unit == lane &&
    (match handle with | some h => x.2.handle == h | none => true) &&
    (match s.residency x.2.unit with | some r => r.1 == x.1 | none => false)
  l.foldl (fun acc x => acc.takeWhile (fun y => decide (y.2.order ≤ x.2.order)) ++ [x] ++ acc.dropWhile (fun y => decide (y.2.order ≤ x.2.order))) []

/-- A slot is whole, or is placed as fragments: the overlay is below its level, or its merge met a LOST sector (R183). -/
def State.slotReady (s : State) (x : Slot) : Bool := x.sectors.all (·.isSome) || x.frag || !s.overlayHigh

/-- Plan the merges of waiting slots that are not ready: a background read of the sectors that each lacks (R183). -/
def State.startMerges (s : State) (l : List (Nat × Slot)) : State :=
  l.foldl (fun s x =>
    if s.slotReady x.2 || x.2.state != .resident || (s.sluice.plans.any fun p => p.work == some (.merge x.1)) ||
      (List.range 4).any (fun k => (s.bookedOp x.2.unit k).isSome) then s
    else s.startWork (.merge x.1) (s.mapReads x.2.unit ((List.range 4).filter fun k => (x.2.sectors.getD k none).isNone))) s

/-- A unit of flash before its place is known. -/
def rawUnit (kind : Nat) (l : List (Option (Nat × Nat × Sector))) : MediaUnit :=
  { kind := kind, sectors := l, wrot := 0, wtemp := 0, member := 0, lane := 0, fblk := 0 }

/-- Cut a list into runs of four. -/
def chunk4 {α : Type} : Nat → List α → List (List α)
  | 0, _ => []
  | fuel + 1, l => if l.isEmpty then [] else l.take 4 :: chunk4 fuel (l.drop 4)

/-- A slot's sectors with their owner. -/
def Slot.owned (x : Slot) : List (Option (Nat × Nat × Sector)) := x.sectors.zipIdx.map fun y => y.1.map fun c => (x.unit, y.2, c)

/-- The units that slots give: whole units, and fragment units of up to four sectors (R182). -/
def slotUnits (l : List (Nat × Slot)) : List Placing :=
  let whole (x : Nat × Slot) : Bool := x.2.sectors.all (·.isSome)
  let frags := (l.filter fun x => !whole x).flatMap fun x => (x.2.owned.filterMap id).map fun y => (x.1, y)
  (l.filter whole).map (fun x => ⟨rawUnit 0 x.2.owned, [x.1], none⟩) ++
    (chunk4 frags.length frags).map fun q => ⟨rawUnit 1 (q.map fun y => some y.2), (q.map (·.1)).eraseDups, none⟩

/-- The handle that the next forme of a forme-block takes. -/
def State.formeHandle (s : State) (fb : FormeBlock) : Nat :=
  if fb.next ≠ 0 then fb.handle
  else if fb.dredge then ((s.flash.copies.find? fun c => c.lane == fb.lane).map (·.handle)).getD 0
  else ((s.waitingSlots fb.lane none).head?.map (·.2.handle)).getD 0

/-- The units that the next forme of a forme-block takes: slots or dredge copies of its lane and handle. -/
def State.formeUnits (s : State) (fb : FormeBlock) : List Placing :=
  let h := s.formeHandle fb
  if fb.dredge then
    ((s.flash.copies.filter fun c => c.lane == fb.lane && c.handle == h).take 14).map fun c => ⟨c.unit, [], some (c.lane, c.b, c.place, c.member)⟩
  else
    (slotUnits (((s.waitingSlots fb.lane (some h)).filter fun x => s.slotReady x.2).take 14)).take 14

/-- The first window of `len` turns on a die's channel from a turn on that no booking and no other data-in window holds, with the die
unbooked to the turn after it, in which its program issues (R147, R268). -/
def State.dataInAt (s : State) (die len from_ : Nat) : Option Nat :=
  let ch := die / 16
  let loads := (s.flash.plans.flatMap (·.members)).filter fun m => m.die / 16 == ch && m.stage == .loading
  firstTurn (fun t =>
    windowFits s.turn (fun _ => 0) s.sluice.bookings false [] ch t len &&
      !(loads.any fun m => decide (m.dataIn.1 < t + len) && decide (t ≤ m.dataIn.2)) &&
      intervalFits s.turn s.sluice.bookings false [] (.die die) t (len + 1)) ringLen from_

/-- The data-in windows of the 14 data members, and the programs after them, within 128 turns (R268). -/
def State.dataIns (s : State) (ms : List MBlock) : Nat → Nat → Option (List (Nat × Nat))
  | 0, _ => none
  | fuel + 1, from_ =>
    let w := ms.filterMap fun m =>
      let len := xferTurns (s.rung (m.die / 16)) 4
      (s.dataInAt m.die len from_).map fun t => (t, t + len - 1)
    let first := w.foldl (fun a x => min a x.1) (from_ + ringLen)
    let last := w.foldl (fun a x => max a x.2) 0
    if w.length < ms.length then none
    else if last + 1 < first + 128 then some w
    else s.dataIns ms fuel (last - 126)

/-- Accumulators of the forme engine (R268). -/
def State.accRoom (s : State) : Bool := decide (s.flash.accs.length < 31 * s.fld Reg.FRM_ACC_BANKS)

/-- A member's unit as it is stored: its tag's fields, and the key of each sector's namespace (R248, R296). Parity members carry no data of
their own. -/
def State.tagged (s : State) (fb : FormeBlock) (i die : Nat) (x : MediaUnit) : MediaUnit :=
  let key (o : Option (Nat × Nat × Sector)) : Nat := match o.bind fun y => s.ownerOf y.1 with | some n => n.1.key | none => 0
  { x with keys := x.sectors.map key, wrot := s.fld Reg.LDP_DLX_NOW_ROT, wtemp := s.mediaTemp die, member := i, lane := fb.lane, fblk := fb.b }

/-- The information bytes of codeword j of a unit: its data, encrypted with the tweak 4 × G + k, and its tag (R296, Tables 07.1, 07.2). A
position without a sector carries zeros. -/
def MediaUnit.info (u : MediaUnit) (j : Nat) : Bytes :=
  let x := u.sectors.getD j none
  let data := match x with | some y => padTo 4096 (Config.xts (u.keys.getD j 0) (4 * y.1 + y.2.1) (padTo 4096 y.2.2.fields.flatten)) | none => fill 4096 0
  let tag := match x with | some y => leBytes 4 y.2.2.proof ++ leBytes 5 (y.1 + y.2.1 * 2 ^ 34) | none => fill 9 0
  data ++ tag ++ leBytes 1 u.kind ++ leBytes 4 u.wrot ++ leBytes 1 u.wtemp ++ leBytes 1 (u.member + 16 * u.lane) ++ leBytes 4 u.fblk ++ [0]

/-- The codeword at position k of a unit as the channel engine sends it to the die: the information bytes, scrambled with the seed of their page
address and place in the page, and their LDPC parity (R246, R247). -/
def State.codeword (s : State) (u : MediaUnit) (block off k : Nat) : Bytes :=
  let per := max 1 (s.pageKib / 4)
  let seed := scramblerSeed block (s.fld (Reg.FCE_GEOM_B_PAGES_PER_BLOCK 0)) (s.pageOf off + k / per) (k % per)
  let sent := scramble seed (if u.code.isEmpty then u.info k else u.code.getD k [])
  sent ++ padTo 384 (Config.ldpcParity sent)

/-- The bytes at each position of a list of byte strings. -/
def columns : Nat → List Bytes → List (List Nat)
  | 0, _ => []
  | n + 1, ds => (ds.map fun d => (d.headD 0).toNat) :: columns n (ds.map List.tail)

/-- A parity member's information bytes by the code of one byte position. -/
def parityInfo (code : List Nat → Nat) (ds : List Bytes) : Bytes := (columns 4117 ds).map fun c => BitVec.ofNat 8 (code c)

/-- The 16 units of a forme: 14 data members, and P and Q over them (R149, R267). -/
def formeMembers (data : List MediaUnit) (p q : MediaUnit) : List MediaUnit :=
  let at_ (j : Nat) : List Bytes := data.map fun u => u.info j
  data ++ [{ p with code := (List.range 4).map fun j => parityInfo formeP (at_ j) }, { q with code := (List.range 4).map fun j => parityInfo formeQ (at_ j) }]

/-- The proof read of member i, from the turn after its program's booked ready turn (R36). -/
def State.layProof (s : State) (id lane f i n from_ : Nat) : Lay Chain :=
  s.layDirect ⟨s.turn, from_, s.turn + ringLen, id, 7, true, none, 4 * i⟩ false false [] lane f i n from_

/-- Lay the proof reads of a forme's members. -/
def State.layProofs (s : State) (id lane f : Nat) : List (FormeMember × Nat) → Lay (List FormeMember)
  | [] => pure []
  | (m, i) :: t => do
    let c ← s.layProof id lane f i 4 (m.issue + s.learned m.die 3 + 1)
    let r ← s.layProofs id lane f t
    pure ({ m with proof := some c } :: r)

/-- A forme's members with their data-in windows and issue turns: the parity members' after all the data members' (R149, R268). -/
def State.planMembers (s : State) (fb : FormeBlock) (w : List (Nat × Nat)) : List FormeMember :=
  let last := w.foldl (fun a x => max a x.2) 0
  fb.members.zipIdx.map fun x =>
    let len := xferTurns (s.rung (x.1.die / 16)) 4
    let from_ := (s.dataInAt x.1.die len (last + 1)).getD (last + 1)
    let d := w.getD x.2 (from_, from_ + len - 1)
    { die := x.1.die, block := x.1.block, dataIn := d, issue := d.2 + 1 }

/-- The background plan of a forme. -/
def State.formePlan (s : State) (fb : FormeBlock) (us : List Placing) (ms : List FormeMember) : FormePlan :=
  let raw := (List.range 16).map fun i => (us[i]?.map (·.unit)).getD (rawUnit 5 [none, none, none, none])
  let tagged := (raw.zip fb.members).zipIdx.map fun x => s.tagged fb x.2 x.1.2.die x.1.1
  let parity (i : Nat) : MediaUnit := tagged.getD i (rawUnit 5 [none, none, none, none])
  { id := s.sluice.nextPlan, lane := fb.lane, b := fb.b, off := fb.next, units := formeMembers (tagged.take 14) (parity 14) (parity 15)
    slots := (us.flatMap (·.slots)).eraseDups, members := ms, sources := us.filterMap (·.source) }

/-- Commit the background plan of a forme with its bookings. -/
def State.commitForme (s : State) (fb : FormeBlock) (handle : Nat) (plan : FormePlan) (bs : List Booking) : State :=
  let done := fb.next + 1 = s.unitsPerMb
  let s := s.onForme fb.lane fb.b fun y =>
    { y with next := y.next + 1, handle := handle, isOpen := !done, closedRot := if done then s.dlxNow else y.closedRot }
  let s := s.onFlash fun x =>
    { x with
      plans := x.plans ++ [plan], accs := plan.id :: x.accs
      copies := if fb.dredge then x.copies.filter (fun c => !plan.sources.contains (c.lane, c.b, c.place, c.member)) else x.copies }
  let s := s.onGalley fun g =>
    { g with slots := g.slots.map fun x => if plan.slots.contains x.1 then (x.1, { x.2 with state := .placing, inFlight := true }) else x }
  (s.onSluice fun x => { x with bookings := bs, nextPlan := plan.id + 1 }).setFld Reg.FRM_STATUS_ACC_USED (s.flash.accs.length)

/-- A forme waits behind a member die with a hold, with its slots in PLACING (R221, R268). -/
def State.holdPlacing (s : State) (us : List Placing) : State :=
  let hold (x : Nat × Slot) : Nat × Slot :=
    if us.any (fun u => u.slots.contains x.1) && x.2.state == .resident then (x.1, { x.2 with state := .placing }) else x
  s.onGalley fun g => { g with slots := g.slots.map hold }

/-- A forme's background plan: laid when an accumulator is free and all its members' dies can take a program, with the proof read of each. Its
data-in windows start at least 16 turns after the DRAM step that fills the program region (R148). Slots that are still to be merged are
read for first (R183). -/
def State.planForme (s : State) (fb : FormeBlock) : State :=
  let s := if fb.isOpen && !fb.dredge then s.startMerges (s.waitingSlots fb.lane (some (s.formeHandle fb))) else s
  let us := s.formeUnits fb
  if !fb.isOpen || us.isEmpty || !s.accRoom || decide (s.unitsPerMb ≤ fb.next) || !s.tableWritten fb ||
      !fb.members.all (fun m => s.chanInPlan (m.die / 16) s.turn) then s
  else if !fb.members.all (fun m => (s.die m.die).canHold) then s.holdPlacing us
  else
    match s.dataIns (fb.members.take 14) 64 (s.turn + 17) with
    | none => s
    | some w =>
      match s.layProofs s.sluice.nextPlan fb.lane (fb.b * max 1 s.unitsPerMb + fb.next) (s.planMembers fb w).zipIdx ⟨s.sluice.bookings, []⟩ with
      | .ok (ms, tr) => s.commitForme fb (s.formeHandle fb) (s.formePlan fb us ms) tr.bs
      | .error _ => s

/-- FORME_PROGRAM_PLAN (R268). -/
def execFormeProgramPlan (lane fb : Nat) (s : State) : Out :=
  .next (match s.formeBlock lane fb with | some f => s.planForme f | none => s)

/-! ### A turn of the forme plans -/

/-- No booking stands on a die but those of one plan. -/
def State.dieUnbooked (s : State) (plan die : Nat) : Bool :=
  !s.sluice.bookings.any fun b => b.res == .die die && b.plan != plan && decide (s.turn < b.start + b.len)

/-- All 14 data members have contributed (R149). -/
def FormePlan.contributed (p : FormePlan) (t : Nat) : Bool := (p.members.take 14).all fun m => decide (m.dataIn.2 < t)

/-- Confirm a member's program: its unit is on the die, and its stamp is written (R258). -/
def State.programMember (s : State) (p : FormePlan) (i : Nat) (m : FormeMember) : State :=
  let unit := p.units.getD i (rawUnit 5 [])
  let s := (s.issueHold m.die false m.block p.off p.id).onDie m.die fun d =>
    { d with sent := d.sent.map fun q => { q with data := (List.range 4).map fun k => s.codeword unit m.block p.off k } }
  let s := s.onFlash fun x => { x with units := kput (unitKey m.die m.block p.off) unit x.units }
  s.writeStamp p.lane p.b i p.off m.die m.block

/-- A data-in window ends: where the die saw its interface CRC fail it is counted and sent again, at most three times; then the background
plan goes and the engine starts a retrain (R143). Data whose proof code fails is read from its twin, from which the placement goes on
(R290). -/
def State.dataInEnd (s : State) (e : EdgeEnv) (p : FormePlan) (m : FormeMember) : State × FormeMember :=
  let ch := m.die / 16
  let s := if e.proofFails.contains p.id then s.proofError 0x3FF false (p.slots.headD 0 * 16384) else s
  if s.flag (Reg.FCE_CTRL_IFCRC_EN ch) && e.ifcrcFails.contains (p.id, m.die) then
    let s := s.addFld (Reg.FCE_IFCRC_ERRORS ch) 1
    if 3 ≤ m.repeats then ((s.setFld (Reg.FCE_EVENT_IFCRC_EXHAUST ch) 1).retrain ch (s.rung ch) false, { m with stage := .failed })
    else
      let t := (s.dataInAt m.die (m.dataIn.2 + 1 - m.dataIn.1) (s.turn + 1)).getD (s.turn + 1)
      (s, { m with repeats := m.repeats + 1, dataIn := (t, t + (m.dataIn.2 - m.dataIn.1)), issue := t + (m.dataIn.2 + 1 - m.dataIn.1) })
  else (if 0 < m.repeats then s.addFld (Reg.FCE_IFCRC_REPEATS_OK ch) 1 else s, m)

/-- A data-in whose data fails its transit check at the channel engine is not issued: its window is planned again, 16 turns after the program
region is filled anew from the galley (R148, R290; DEDUCED, assumption log 187). -/
def State.transitFails (s : State) (m : FormeMember) : State × FormeMember :=
  let len := m.dataIn.2 + 1 - m.dataIn.1
  let t := (s.dataInAt m.die len (s.turn + 17)).getD (s.turn + 17)
  (s.proofError (0x80 + m.die / 16) true 0, { m with dataIn := (t, t + len - 1), issue := t + len })

/-- A proof read that was not issued or not transferred leaves its windows, and is planned again (R36, R151). -/
def State.dropProof (s : State) (p : FormePlan) (i : Nat) (m : FormeMember) : State × FormeMember :=
  (s.onSluice fun x => { x with bookings := x.bookings.filter fun b => !(b.plan == p.id && b.tag == 4 * i) }, { m with proof := none })

/-- Plan a member's proof read from the next turn on; where nothing fits it is tried again. -/
def State.replanProof (s : State) (p : FormePlan) (i : Nat) (m : FormeMember) : State × FormeMember :=
  match s.layProof p.id p.lane (p.b * max 1 s.unitsPerMb + p.off) i 4 (s.turn + 1) ⟨s.sluice.bookings, []⟩ with
  | .ok (c, tr) => (s.onSluice fun x => { x with bookings := tr.bs }, { m with proof := some c, stage := .ready })
  | .error _ => (s, { m with stage := .ready })

/-- A member's proof read in a turn: its booked steps, and its end: proven with every codeword decoded and checked, failed with one that is
not (R36, R143). -/
def State.stepProof (s : State) (e : EdgeEnv) (p : FormePlan) (i : Nat) (m : FormeMember) : State × FormeMember :=
  match m.proof with
  | none => s.replanProof p i m
  | some c =>
    let a := s.stepDies e ⟨p.id, 4 * i, false, false, s.turn + ringLen⟩ c.reads
    let c := ({ c with reads := a.2 }.after (lastXfer (a.2.filter fun r => r.phase == ReadPhase.issued))).again e s.turn
    let m := { m with proof := some c, stage := if a.2.all (fun r => r.phase == .waiting) then m.stage else .proofing }
    if a.2.any (fun r => !r.failed.isEmpty) then (a.1, { m with stage := .failed })
    else if a.2.any (fun r => r.phase == .failed) then a.1.dropProof p i { m with stage := .ready }
    else if c.proof ≤ s.turn && a.2.all (fun r => decide (4 ≤ r.passed.length)) then (a.1, { m with stage := .proven })
    else (a.1, m)

/-- One turn of one member: a data-in window that a plan has taken, or that the channel's outage interrupts, moves, the program issues when its
die is clear, a proof read whose turn comes before its program is ready is planned again, and a program that reached ready is
proof-read (R36). -/
def State.stepMember (s : State) (e : EdgeEnv) (p : FormePlan) (i : Nat) (m : FormeMember) : State × FormeMember :=
  let clear := (s.die m.die).busy.isNone && s.dieUnbooked p.id m.die && s.chanInPlan (m.die / 16) s.turn && !withheld e m.die
  let early := m.proof.any fun c => c.reads.any fun r => decide (r.start ≤ s.turn)
  match m.stage with
  | .loading =>
    let moves := decide (s.turn ≤ m.dataIn.2) && decide (m.dataIn.1 ≤ s.turn)
    let taken := moves && (!(at' s.turn s.sluice.bookings (.chan (m.die / 16)) s.turn).isEmpty || !s.chanInPlan (m.die / 16) s.turn)
    let a := if early then s.dropProof p i m else (s, m)
    let s := a.1
    let m := a.2
    if moves && e.transitFails.contains (p.id, m.die) then s.transitFails m
    else if taken then (s, { m with dataIn := (s.turn + 1, m.dataIn.2 + (s.turn + 1 - m.dataIn.1)), issue := m.issue + (s.turn + 1 - m.dataIn.1) })
    else if m.dataIn.2 = s.turn && !withheld e (0x400 + m.die / 16) then s.dataInEnd e p m
    else if m.dataIn.2 = s.turn then (s, { m with dataIn := (m.dataIn.1, s.turn + 1), issue := m.issue + 1 })
    else if m.issue ≤ s.turn && clear && (s.die m.die).canHold && (decide (i < 14) || p.contributed s.turn) then
      (s.programMember p i m, { m with stage := .programming })
    else (s, m)
  | .programming => if early then s.dropProof p i m else (s, m)
  | .ready | .proofing => s.stepProof e p i m
  | _ => (s, m)

def State.stepMembers (s : State) (e : EdgeEnv) (p : FormePlan) : Nat → List FormeMember → State × List FormeMember
  | _, [] => (s, [])
  | i, m :: t =>
    let a := s.stepMember e p i m
    let b := a.1.stepMembers e p (i + 1) t
    (b.1, a.2 :: b.2)

/-- One turn of a forme plan: its accumulator is freed when P and Q are handed over, and a forme with every member proven
ends (R228): its units wait only for their map updates. -/
def State.stepForme (s : State) (e : EdgeEnv) (p : FormePlan) : State :=
  let a := s.stepMembers e p 0 p.members
  let q := { p with members := a.2 }
  let s := a.1.onFlash fun x => { x with plans := updIf (fun y => y.id == p.id) (fun _ => q) x.plans }
  let handed := (q.members.drop 14).all fun m => m.stage != .loading
  let s := if handed then s.onFlash fun x => { x with accs := x.accs.filter (· != p.id) } else s
  let s := s.setFld Reg.FRM_STATUS_ACC_USED s.flash.accs.length
  match q.members.find? fun m => m.stage == .failed with
  | some m => if m.proof.any (fun c => c.reads.any fun r => !r.failed.isEmpty) then s.proofLost m.die m.block p.id else s.dropPlans fun y => y.id == p.id
  | none =>
  if q.members.all fun m => m.stage == .proven then
    let host := if q.sources.isEmpty then 14 else 0
    (s.onFlash fun x => { x with plans := x.plans.filter fun y => y.id != p.id }).onNv fun n =>
      { n with wear := { n.wear with nowData := n.wear.nowData + 14, nowHost := n.wear.nowHost + host } }
  else s

def State.stepFormes (s : State) (e : EdgeEnv) : State :=
  s.flash.plans.foldl (fun s p => match s.flash.plans.find? fun q => q.id == p.id with | some q => s.stepForme e q | none => s) s

/-- One turn of the erases that wait: a die without a hold, no plan on it (R229). Blocks of dies that no longer count are
left alone (R238). -/
def State.stepErases (s : State) (e : EdgeEnv) : State :=
  s.flash.eraseQueue.foldl (fun s m =>
    if !s.dieCounts m.die then (s.onFlash fun x => { x with eraseQueue := x.eraseQueue.erase m }).dropMember m.die m.block
    else if (s.die m.die).canHold && s.dieUnbooked 0 m.die && s.chanInPlan (m.die / 16) s.turn && !s.blockPinned m && !withheld e m.die then
      (s.issueHold m.die true m.block 0 0).onFlash fun x => { x with eraseQueue := x.eraseQueue.erase m }
    else s) s

/-- A hold left suspended, whose resume could not issue in its turn, resumes in a turn with no booking on its die (R146, R151). -/
def State.resumeLate (s : State) : State :=
  s.flash.dies.foldl (fun s d =>
    match (s.die d.1).hold with
    | some h =>
      if h.suspended.isSome && (s.die d.1).busy.isNone && !(s.die d.1).stopped && s.chanInPlan (d.1 / 16) s.turn &&
        (at' s.turn s.sluice.bookings (.die d.1) s.turn).isEmpty then s.issueResume d.1 else s
    | none => s) s

/-- Erases that passed in this turn: their blocks are free in the next (R156). -/
def State.takeFreed (s : State) : State :=
  (s.flash.freed.foldl (fun s m => s.onBlock m.die m.block fun b => { b with free := true }) s).onFlash fun x => { x with freed := [] }

/-! ### The weir (R222–R224) -/

/-- The level of a free ratio: 0 OPEN to 4 CLOSED. -/
def State.weirOf (s : State) (phi : Nat) : Nat := ((List.range 4).find? fun k => decide (s.param (2 + k) ≤ phi)).getD 4

/-- The new level: a fall at once, a rise only from HYST above the higher level's bound. -/
def State.weirNext (s : State) (phi : Nat) : Nat :=
  let raw := s.weirOf phi
  if s.flash.weir ≤ raw then raw
  else (((List.range s.flash.weir).find? fun k => decide (s.param (2 + k) + s.param 6 ≤ phi))).getD s.flash.weir

/-- SLU.WEIR.RATE of a level (Table 06.1). -/
def State.weirRate (s : State) (level : Nat) : Nat :=
  match level with
  | 0 | 1 => 0x3FFFF
  | 2 => min 0x3FFFF s.flash.hsus.floor.toNat
  | 3 => min 0x3FFFF (s.flash.hsus / 2).floor.toNat
  | _ => 0

/-- The foreground dredge floor of the level (R224): of what the last computation gave, and never above b_w. -/
def State.setDredgeFloor (s : State) : State :=
  s.onFlash fun x =>
    let v := x.vfrac
    let c : Rat := match x.weir with
      | 0 => 0
      | 1 => x.hostRate * v / (1 - v)
      | 4 => x.bw / (2355 / 1000)
      | _ => x.hsus * v / (1 - v)
    { x with dredgeFloor := min x.bw ((2355 / 1000) * c) }

/-- WEIR_EVALUATION (R222). In Sealed the weir is not evaluated (R242). -/
def execWeirEvaluation (s : State) : Out :=
  .next (if s.flag Reg.SLU_STATUS_SEALED then s
    else
      let n := s.weirNext s.phi
      (((s.onFlash fun x => { x with weir := n }).holdWord Reg.SLU_WEIR).setFld Reg.SLU_WEIR_RATE (s.weirRate n)).setDredgeFloor)

/-- Plannable bus in GB/s (Table 03.8): 240.2 at 64 channels and 4,800 MT/s, in proportion to the channels' rates. -/
def State.plannableBus (s : State) : Rat :=
  let sum := (List.range 64).foldl (fun n c => if s.chanInPlan c s.turn then n + bTurn (s.rung c) else n) 0
  (2402 / 10 : Rat) * (sum : Nat) / (64 * 4521 : Nat)

/-- The space queue: the closed forme-blocks of the lane of lowest F that no other class takes, best victim first (R226). -/
def State.spaceQueue (s : State) : List FormeBlock :=
  (s.flash.formeBlocks.filter fun f => f.lane == s.poorestLane && !f.isOpen && (f.victim == 0 || f.victim == 4)).foldl
    (fun acc f => acc.takeWhile (fun g => !s.betterVictim f g) ++ [f] ++ acc.dropWhile (fun g => !s.betterVictim f g)) []

/-- The mean valid fraction of the victims at the head of the space queue that together free 1 ‰ of N0, at most 0.95. The N0 is that of the
queue's lane, and with no closed forme-block v is 0: R223 states neither (DESIGN CHOICE, assumption log 170). -/
def State.headFrac (s : State) : Rat :=
  let want : Rat := (s.nv.n0.getD s.poorestLane 0 : Nat) / 1000
  let head := (s.spaceQueue.foldl (fun (a : List Rat × Rat) f => if want ≤ a.2 then a else (s.validFrac f :: a.1, a.2 + (1 - s.validFrac f))) ([], 0)).1
  if head.isEmpty then 0 else min (95 / 100) (head.foldl (· + ·) 0 / (head.length : Nat))

/-- Data bytes of one program operation: every page of a page address in every plane (R180, R223). -/
def State.programBytes (s : State) : Nat := s.pageKib * 1024 * max 1 (s.fld (Reg.FCE_GEOM_A_PLANES 0)) * (s.fld (Reg.FCE_GEOM_A_BPC 0) + 1)

/-- Program bandwidth of the dies in service, in GB/s (R223). -/
def State.programSum (s : State) : Rat :=
  (List.range 1024).foldl (fun n d =>
    if s.fld (Reg.SLU_DIE_STATE_STATE d) = 0 ∧ s.dieCounts d then
      n + (s.programBytes : Rat) / ((max 1 (s.learned d 3) : Nat) * 1024)
    else n) 0

/-- SUSTAINABLE_RATE_COMPUTE (R223, R224): h_sus and the foreground dredge floor from the last 65,536 turns. -/
def State.computeRate (s : State) : State :=
  let v := s.headFrac
  let readBus : Rat := (s.flash.readBus : Nat) / (65536 * 1024 : Nat)
  let bw := max 0 (s.plannableBus - readBus - s.rebuildFloors)
  let hbus := bw / ((1256 / 1000 : Rat) + (2355 / 1000) * v / (1 - v))
  let hprog := s.programSum * 14 / 16 * (1 - v)
  let hostRate : Rat := (s.flash.hostUnits * 16384 : Nat) / (65536 * 1024 : Nat)
  (s.onFlash fun x => { x with hsus := min hbus hprog, vfrac := v, bw := bw, hostRate := hostRate, readBus := 0, hostUnits := 0 }).setDredgeFloor

def execSustainableRateCompute (s : State) : Out := .next s.computeRate

/-! ### The wear allotment (R233–R236) -/

/-- Λ: the rated life in rotations. -/
def ratedLife : Nat := 734757632

/-- Member blocks in service, system blocks included. -/
def State.blocksInService (s : State) : Nat :=
  (List.range 1024).foldl (fun n d => n + s.blocksWithout d fun b => b.retired || b.bad) 0

/-- Erases already spent on member blocks that are out of service. -/
def State.spentRetired (s : State) : Nat :=
  (s.flash.blocks.filter fun b => b.2.retired || b.2.bad || !s.dieCounts (b.1 / 65536)).foldl (fun n b => n + b.2.erases) 0

def State.eTotal (s : State) : Nat := s.param 7 * s.blocksInService + s.spentRetired

/-- k: 4 KiB host units for each erase, with ω at least 1. -/
def State.unitsPerErase (s : State) : Rat :=
  let w := s.nv.wear.programmed.foldl (fun (a : Nat × Nat) p => (a.1 + p.1, a.2 + p.2)) (0, 0)
  let omega : Rat := if w.2 = 0 then 1 else max 1 ((w.1 : Nat) / (w.2 : Nat))
  ((s.unitsPerMb * 4 * 14 : Nat) : Rat) / 16 / omega

/-- Percentage Used (R236). -/
def State.percentUsed (s : State) : Nat := min 255 (100 * s.nv.wear.used / max 1 s.eTotal)

/-- The cap of the saved allotment. -/
def State.savedCap (s : State) : Rat := (2 ^ s.param 8 * s.eTotal : Nat) / (ratedLife : Nat)

/-- The top-up target. -/
def State.topupTarget (s : State) : Nat := 2 ^ s.param 9

/-- Round to the nearest, halves up. -/
def roundRat (x : Rat) : Int := (x + 1 / 2).floor

/-- The lowest and highest erase counts of a lane's counted member blocks (R235). -/
def State.eraseSpan (s : State) (lane : Nat) : Nat × Nat :=
  let l := (s.flash.blocks.filter fun b => b.1 / 65536 % 16 % s.lanes == lane && s.dieCounts (b.1 / 65536) && !b.2.gone).map (·.2.erases)
  let all := (s.laneBlocks lane BlockInfo.gone).foldl (· + ·) 0
  (if l.length < all then 0 else l.foldl min (l.headD 0), l.foldl max 0)

/-- Erases of a forme-block's members. -/
def State.erasesOf (s : State) (f : FormeBlock) : Nat := f.members.foldl (fun n m => n + (s.blockInfo m.die m.block).erases) 0

/-- One wear victim in a rotation (R235): in the first lane whose counts differ by more than WL_SPREAD ‰ of ENDURANCE, the closed
forme-block with the lowest mean erase count. None in Sealed (R242). -/
def State.wearTurn (s : State) : State :=
  let wide (l : Nat) : Bool := let x := s.eraseSpan l; decide (s.param 11 * s.param 7 < 1000 * (x.2 - x.1))
  if !s.nv.formatted || s.flag Reg.SLU_STATUS_SEALED then s
  else
    match (List.range s.lanes).find? wide with
    | none => s
    | some l =>
      let least := (s.flash.formeBlocks.filter fun f => f.lane == l && !f.isOpen && f.victim == 0).foldl
        (fun (best : Option FormeBlock) f => match best with | some b => if s.erasesOf f < s.erasesOf b then some f else some b | none => some f) none
      match least with
      | some f => s.onForme l f.b fun y => { y with victim := 3, asked := s.turn }
      | none => s

/-- The ledger at a rotation edge (R234). -/
def State.ledgerTurn (s : State) : State :=
  let w := s.nv.wear
  let r := s.fld Reg.LDP_DLX_NOW_ROT - w.rot0
  let et : Rat := (s.eTotal : Nat)
  let a := max (et / (ratedLife : Nat) / 4) ((et - (w.used : Nat)) / (max 1 (ratedLife - r) : Nat))
  let k := s.unitsPerErase
  let saved := min s.savedCap (w.saved + a - (w.lastRot : Nat))
  let bal := s.fld Reg.SLU_ALLOT_BAL_BALANCE
  let prog := ((w.nowData, w.nowHost) :: w.programmed).take 16
  let base := { w with programmed := prog, nowData := 0, nowHost := 0, lastRot := 0 }
  if 0 < saved then
    let back : Rat := if w.burst then 0 else (bal - s.topupTarget : Nat) / k
    ((s.onNv fun n => { n with wear := { base with saved := saved - back, burst := true } }).holdWord Reg.SLU_ALLOT_CREDIT).setFld
      Reg.SLU_ALLOT_CREDIT_CREDIT 0
  else
    let credit := (a * k / 65536).floor
    let add := roundRat (a * k - 65536 * (credit : Rat))
    (((s.onNv fun n => { n with wear := { base with saved := saved, burst := false } }).holdWord Reg.SLU_ALLOT_CREDIT).setFld Reg.SLU_ALLOT_CREDIT_CREDIT
      (min (2 ^ Reg.SLU_ALLOT_CREDIT_CREDIT.width - 1) credit.toNat)).onSluice fun x => { x with allotAdd := x.allotAdd + add.toNat }

/-- ALLOTMENT_TOPUP (R234). -/
def execAllotmentTopup (s : State) : Out :=
  .next (if s.nv.wear.burst then
      s.onSluice fun x => { x with allotAdd := x.allotAdd + (s.topupTarget - s.fld Reg.SLU_ALLOT_BAL_BALANCE) }
    else s)

/-- ALLOT_ADD_WRITE (R120): added at the next turn edge. -/
def execAllotAddWrite (client : Nat) (value : Word) (s : State) : Out :=
  .next (s.setupWrite client Reg.SLU_ALLOT_ADD value (.allotAddWrite client value) fun s =>
    s.onSluice fun x => { x with allotAdd := x.allotAdd + bitsOf value 0 Reg.SLU_ALLOT_ADD_ADD.width })

/-! ### Retirement writes (R132, R133, R237) -/

/-- CHAN_OUT_WRITE (R132): every bit newly set retires its channel. -/
def execChanOutWrite (client : Nat) (m : Fin 2) (value : Word) (s : State) : Out :=
  .next (s.setupWrite client (Reg.SLU_CHAN_OUT m) value (.chanOutWrite client m value) fun s =>
    (List.range 32).foldl (fun s i =>
      let ch := 32 * m.val + i
      if bitsOf value i 1 = 1 then s.retireChannel ch (if s.flag (Reg.FCE_EVENT_THIRD_FAIL ch) then 0x08 else 0x0E) else s) s)

/-- The trigger of a die's retirement (Table 06.4). -/
def State.dieTrigger (s : State) (die : Nat) : Nat :=
  if s.flag (Reg.FUR_EVENT_THIRD_TIMEOUT die) then 0x05
  else if s.flag (Reg.FUR_EVENT_SAT die) then 0x06
  else if s.blocksOn (die / 16) < 32 * s.listedOn die (·.retired) then 0x07
  else 0x0E

/-- DIE_STATE_WRITE (R133, R154). Once a die is retired, further writes are ignored. -/
def execDieStateWrite (client : Nat) (die : Fin 1024) (value : Nat) (s : State) : Out :=
  .next (s.setupWrite client (Reg.SLU_DIE_STATE die) (BitVec.ofNat 32 value) (.dieStateWrite client die value) fun s =>
    if s.fld (Reg.SLU_DIE_STATE_STATE die) = 2 then s
    else
      let s := s.onDie die fun d => { d with stopped := false }
      match value % 4 with
      | 1 => s.failDie die
      | 2 => s.retireDie die (s.dieTrigger die)
      | v => s.setDieState die v)

/-! ### Rebuilds (R271–R274) -/

/-- The forme-blocks with a written forme and a member that a test picks. -/
def State.hitBlocks (s : State) (p : Nat → Bool) : List (Nat × Nat × Nat) :=
  (s.flash.formeBlocks.filter fun f => decide (0 < f.next) && f.victim != 9 && decide (0 < s.validUnits f)).flatMap fun f =>
    (f.members.zipIdx.filter fun m => p m.1.die).map fun m => (f.lane, f.b, m.2)

/-- Units retired and not yet recorded: (channel?, number). -/
def State.unrecorded (s : State) : List (Bool × Nat) :=
  let had (c : Bool) (n : Nat) : Bool := s.flash.rebuilds.any fun r => r.chan == c && r.unit == n
  ((List.range 64).filter fun c => s.chanRetired c && !had true c).map (fun c => (true, c)) ++
    ((s.nv.retiredDies.filter fun d => !s.chanRetired (d / 16) && !had false d).map fun d => (false, d))

/-- SLU.STATUS.REBUILD (R272). -/
def State.rebuildFlag (s : State) : State :=
  (s.setFld Reg.SLU_STATUS_REBUILD (if s.flash.rebuilds.any (fun r => decide (r.state ≤ 1)) then 1 else 0))

/-- Start the first queued rebuild when none runs (R273). -/
def startQueued (turn : Nat) : List Rebuild → List Rebuild
  | [] => []
  | r :: t => if r.state = 0 then { r with state := 1, start := turn } :: t else r :: startQueued turn t

/-- Begin the rebuild of each newly retired unit, or queue it; at most 31 records are kept, the oldest completed one goes. -/
def State.startRebuilds (s : State) : State :=
  let add (s : State) (u : Bool × Nat) : State :=
    let l := s.hitBlocks fun d => if u.1 then d / 16 == u.2 else d == u.2
    if l.isEmpty then s
    else
      let r : Rebuild := { chan := u.1, unit := u.2, state := 0, total := l.length, done := 0, start := 0, left := l }
      s.onFlash fun x =>
        let old := if x.rebuilds.length < 31 then x.rebuilds
          else match x.rebuilds.find? fun y => decide (2 ≤ y.state) with | some y => x.rebuilds.erase y | none => x.rebuilds
        { x with rebuilds := old ++ [r], rebuildGen := x.rebuildGen + 1 }
  let s := s.unrecorded.foldl add s
  (s.onFlash fun x =>
    { x with rebuilds := if x.rebuilds.any (fun r => r.state == 1) then x.rebuilds else startQueued s.turn x.rebuilds }).rebuildFlag

/-- REBUILD_START (R271). -/
def execRebuildStart (s : State) : Out := .next s.startRebuilds

/-- The channels of a forme-block. -/
def FormeBlock.chans (f : FormeBlock) : List Nat := f.members.map fun m => m.die / 16

/-- A member's rebuilt units lie in its new block too; its table word is rewritten at the edge (R271). What the retired block holds stays. -/
def State.moveMember (s : State) (f : FormeBlock) (i : Nat) (new : MBlock) : State :=
  let old := f.members.getD i new
  let lo := unitKey old.die old.block 0
  let dst := unitKey new.die new.block 0
  let s := s.onFlash fun x =>
    let cp := (x.units.filter fun u => decide (lo ≤ u.1) && decide (u.1 < lo + 2 ^ 32)).map fun u => (u.1 - lo + dst, u.2)
    { x with units := cp.foldl (fun l u => kput u.1 u.2 l) x.units }
  let s := s.bookOp (.req 7 { target := f.lane + f.b * 4 + i * 2 ^ 30, new := blockWord new })
  let s := (s.onForme f.lane f.b fun y => { y with members := updAt (fun _ => new) i y.members }).onBlock new.die new.block fun b => { b with free := false }
  (s.addFld Reg.FRM_REBUILT_COUNT (4 * f.next)).fdpMoved f.handle

/-- A record moves on: one member done, or halted with its units LOST. -/
def State.recordRebuild (s : State) (key : Nat × Nat × Nat) (halt : Bool) : State :=
  let step (r : Rebuild) : Rebuild :=
    if !r.left.contains key then r
    else if halt then { r with state := 3, ended := s.turn, left := r.left.erase key }
    else
      let left := r.left.erase key
      { r with left := left, done := r.done + 1, state := if left.isEmpty then 2 else r.state, ended := if left.isEmpty then s.turn else r.ended }
  let s := s.onFlash fun x =>
    let l := updIf (fun r => r.state == 1) step x.rebuilds
    { x with rebuildGen := x.rebuildGen + 1
             rebuilds := if l.any (fun r => r.state == 1) then l else startQueued s.turn l }
  s.rebuildFlag

/-- One member's rebuild ends: onto a new block, or below 14 members with its units LOST (R273). -/
def State.rebuildMember (s : State) (f : FormeBlock) (i : Nat) : State :=
  let key := (f.lane, f.b, i)
  let u := max 1 s.unitsPerMb
  let broken := ((List.range f.next).filter fun o => decide (s.readable f.lane (f.b * u + o) i < 14))
  if !broken.isEmpty then
    let lose (s : State) (o : Nat) : State :=
      (List.range 14).foldl (fun s m => match s.unitAt f.lane (f.b * u + o) m with | some x => s.loseUnit (f.b * u + o) m x | none => s) s
    (((broken.foldl lose s).addFld Reg.FRM_SHORT_COUNT broken.length).setFld Reg.FRM_EVENT_SHORT 1).recordRebuild key true
  else
    match s.openOrder false f.lane f.chans with
    | (_, m) :: _ => (s.moveMember f i m).recordRebuild key false
    | [] => s

/-- REBUILD_MEMBER_COMPLETE (R271). -/
def execRebuildMemberComplete (lane fb member : Nat) (s : State) : Out :=
  .next (match s.formeBlock lane fb with
    | some f => if s.flash.rebuilds.any (fun r => r.state == 1 && r.left.contains (lane, fb, member)) then s.rebuildMember f member else s
    | none => s)

/-! ### Early warnings (R239, Table 06.5) -/

/-- An early warning: its key, whether its condition holds, whether it can clear, and how it is raised: type, info, log
page, and a Critical Warning bit. -/
structure Warning where
  key : Nat
  now : Bool
  clears : Bool
  type : Nat
  info : Nat
  lid : Nat := 2
  bit : Option Nat := none
  deriving DecidableEq, Repr

/-- The warnings of Table 06.5 as they stand. -/
def State.warnings (s : State) : List Warning :=
  let v (c : Nat) (now clears : Bool) : Warning := { key := c, now := now, clears := clears, type := 7, info := c }
  let avail := s.flash.avail
  [v 0xD0 (s.flash.weir == 3) true, v 0xD1 (s.flash.weir == 4) true, v 0xD2 (decide (avail ≤ 50)) false,
   v 0xD3 (s.nv.formatted && decide (s.nv.wear.saved < s.savedCap / 8)) true, v 0xD4 (s.nv.formatted && !s.nv.wear.burst) true,
   v 0xD5 (decide (80 ≤ s.percentUsed)) false, v 0xD6 (decide (100 ≤ s.percentUsed)) false,
   { key := 0x100, now := decide (avail < s.param 10), clears := false, type := 1, info := 2, bit := some 0 },
   { key := 0x102, now := decide (0 < s.nv.lostUnits), clears := false, type := 1, info := 0, bit := some 2 },
   { key := 0x103, now := s.flag Reg.SLU_STATUS_SEALED, clears := false, type := 1, info := 0, bit := some 3 }] ++
  (s.nv.retiredDies.map fun d => { key := 0x10000 + d, now := true, clears := false, type := 7, info := 0xD7, lid := 0xC3 }) ++
  (((List.range 64).filter s.chanRetired).map fun c => { key := 0x20000 + c, now := true, clears := false, type := 7, info := 0xD7, lid := 0xC3 })

/-- One warning: raised once per crossing, and armed again when its condition has been clear for a full rotation. -/
def State.warn (s : State) (w : Warning) : State :=
  match klook w.key s.nv.raised with
  | none =>
    if w.now then
      let s := s.onNv fun n =>
        { n with raised := kput w.key none n.raised, warning := match w.bit with | some b => setBitNat n.warning b | none => n.warning }
      (s.raiseBoth w.type w.info w.lid).log 0x0601 0 0x3FF w.key
    else s
  | some since =>
    if w.now then s.onNv fun n => { n with raised := kput w.key none n.raised }
    else if !w.clears then s
    else
      match since with
      | none => s.onNv fun n => { n with raised := kput w.key (some (s.rotation + 1)) n.raised }
      | some r => if r < s.rotation then s.onNv fun n => { n with raised := kdel w.key n.raised } else s

/-- EARLY_WARNING_EVENT (R239). -/
def execEarlyWarningEvent (s : State) : Out := .next (s.warnings.foldl State.warn s)

/-! ### The re-fix (R217) -/

/-- Fix N0, D and the capacity from the blocks as they stand, with the OP_PERMILLE in force. -/
def State.fixCapacity (s : State) : State :=
  let n0 := (List.range s.lanes).map s.capacityN
  let least := n0.foldl min (n0.headD 0)
  let d0 := least * (1000 - s.param 0) / 1000
  let grans := s.lanes * d0 * 14 * s.unitsPerMb / 65536
  (s.onNv fun n => { n with n0 := n0, grans := grans, d := cdiv (grans * 65536) (max 1 (s.lanes * 14 * s.unitsPerMb)), opPermille := s.param 0 }).recomputeSpare

/-- The re-fix at an edition's switch edge. -/
def State.refix (s : State) : State :=
  if s.param 0 != s.nv.opPermille && s.nv.namespaces.isEmpty && !s.flag Reg.SLU_STATUS_SEALED && s.nv.formatted then
    s.fixCapacity.logUncoded .refix 0x3FF (s.param 0)
  else s

/-! ### Channel requests -/

/-- CHANNEL_UP_RESUME (R146): in the first turn after the channel comes up, suspended holds resume unless a plan has a step
for the turn, and read data left in a page register is gone. -/
def execChannelUpResume (ch : Fin 64) (s : State) : Out :=
  .next (if s.fld (Reg.FCE_STATUS_STATE ch) != 2 || (s.chan ch).cameUp != some s.turn then s
    else
      (List.range 16).foldl (fun s p =>
        let n := 16 * ch.val + p
        let d := s.die n
        let s := if d.page.isSome then s.onDie n fun x => { x with page := none } else s
        match d.hold with
        | some h => if h.suspended.isSome && d.busy.isNone && planFree s.turn s.sluice.bookings (.die n) s.turn then s.issueResume n else s
        | none => s) s)

/-- Plan a requested retrain (R145): a background plan that holds the channel's whole plan layer for 512 turns; the retrain starts at its first
turn. Where no such interval is free it is planned again in the next turn. -/
def State.planRetrain (s : State) (ch : Nat) : State :=
  match firstTurn (fun t => intervalFits s.turn s.sluice.bookings false [] (.chan ch) t 512) ringLen (s.turn + 1) with
  | none => s
  | some t =>
    let id := s.sluice.nextPlan
    let b : Booking := { res := .chan ch, start := t, len := 512, plan := id }
    (s.onSluice fun x => { x with bookings := b :: x.bookings, nextPlan := id + 1 }).onChan ch fun x => { x with raiseAt := some t }

/-- RETRAIN_REQ (R145, R165): the request stands until its retrain has run; it is planned while the channel is up. -/
def execRetrainReq (client : Nat) (ch : Fin 64) (target : Nat) (s : State) : Out :=
  .next (s.setupWrite client (Reg.FCE_CTRL ch) (BitVec.ofNat 32 (1 + target * 16)) (.retrainReq client ch target) fun s =>
    if s.flag (Reg.FCE_CTRL_RETRAIN_REQ ch) then s
    else
      let s := (s.setFlds [(Reg.FCE_CTRL_TARGET_IDX ch, target), (Reg.FCE_CTRL_RETRAIN_REQ ch, 1)]).onChan ch id
      if s.fld (Reg.FCE_STATUS_STATE ch) == 2 then s.planRetrain ch else s)

/-- Requested retrains: each is planned once its channel is up, and starts in its plan's first turn; one whose channel was down then is
planned again (R151). -/
def State.raiseTurn (s : State) : State :=
  s.flash.chans.foldl (fun s c =>
    if !s.flag (Reg.FCE_CTRL_RETRAIN_REQ c.1) || s.fld (Reg.FCE_STATUS_STATE c.1) != 2 then s
    else
      match (s.chan c.1).raiseAt with
      | some t =>
        if s.turn < t then s
        else if t = s.turn then s.retrain c.1 (s.fld (Reg.FCE_CTRL_TARGET_IDX c.1)) true
        else s.planRetrain c.1
      | none => s.planRetrain c.1) s

end Sys2Proof.Machine
end

