-- ==== Sys2Proof/Machine/Store.lean ====
section
/-! DEFINITION. The firmware store's command interface, cells and registers (chapter 12, R397–R410, R424–R429). -/

namespace Sys2Proof.Machine

/-! ### Cells -/

/-- Block number 0–511 across both banks, page number, bank of a store address (R397). -/
def storeBlock (a : Nat) : Nat := a / 0x40000
def storePage (a : Nat) : Nat := a / 512
def storeBankOf (a : Nat) : Fin 2 := Fin.ofNat 2 (a / 0x4000000)

/-- The store's processor range and read window (R399). -/
def inStore (a : Nat) : Bool := decide (0x08000000 ≤ a) && decide (a < 0x10000000)

/-- The pages programmed when the part is shipped: the first pointer record, the boot extension copies, slot A, the
configuration areas (Table 12.1, assumption log 6). -/
def shippedPage (p : Nat) : Bool :=
  let b := p / 512
  p == 0 || (decide (1 ≤ b) && decide (b ≤ 184)) || (decide (209 ≤ b) && decide (b ≤ 212)) || (decide (257 ≤ b) && decide (b ≤ 264)) ||
    (decide (465 ≤ b) && decide (b ≤ 468))

/-- A block that was shipped with pages programmed. -/
def Store.shippedBlock (_t : Store) (b : Nat) : Bool := (List.range 512).any fun i => shippedPage (b * 512 + i)

/-- A page of the store; an erased page reads 0xFF in every byte (R397), a shipped one what it was shipped with, and one of a block whose
erase has begun and has not passed a free run of bytes. -/
def Store.page (t : Store) (p : Nat) : Bytes :=
  match klook (p / 512) t.torn with
  | some f => padTo 512 (Config.tornPage f p)
  | none =>
  match klook p t.pages with
  | some b => b
  | none => if shippedPage p && !t.erased.contains (p / 512) then padTo 512 (Config.shippedStore p) else fill 512 0xFF

/-- The bytes of a page after a program pulse verifies: a cell can only go from 1 to 0. -/
def programmedPage (old new : Bytes) : Bytes := List.zipWith (fun o n => o &&& n) old new

/-- A block erased: its pages and their markers are gone. -/
def Store.eraseBlock (t : Store) (b : Nat) : Store :=
  { t with
    erased := b :: t.erased.erase b, torn := t.torn.filter fun x => decide (x.1 ≠ b)
    pages := t.pages.filter fun p => decide (p.1 / 512 ≠ b)
    markers := t.markers.filter fun p => decide (p / 512 ≠ b) }

/-- A block erased and its flag cell cleared (R405). -/
def Store.clearBlock (t : Store) (b : Nat) : Store :=
  let t := t.eraseBlock b
  { t with flags := t.flags.erase b }

/-- The page's own marker is clear and no higher page of its block has its marker set (R404). A page programmed when the part was shipped
has its marker set; no block has such a page above one that has not. -/
def Store.orderOk (t : Store) (p : Nat) : Bool :=
  !(shippedPage p && !t.erased.contains (p / 512)) && !t.markers.any fun m => decide (m / 512 = p / 512) && decide (p ≤ m)

/-! ### Records (R409) -/

/-- The pages of a record in the frame of Table 12.4. -/
def recordPages (kind seq : Nat) (payload : Bytes) : List Bytes :=
  let n := cdiv (payload.length + 20) 512
  let head := leBytes 2 0x4B52 ++ leBytes 1 kind ++ leBytes 1 n ++ leBytes 4 seq ++ leBytes 4 payload.length
  let body := padTo (512 * n - 4) (head ++ leBytes 4 (crc32c head) ++ payload)
  let all := body ++ leBytes 4 (crc32c body)
  (List.range n).map fun i => slice all (512 * i) 512

/-- Where records go in an area of blocks from a page on: one after the other, none across a block (R409). Answers the page after
the last one too. -/
def placeRecords (blocks : Nat) : Nat → List (List Bytes) → Nat × List (Nat × List Bytes)
  | at_, [] => (at_, [])
  | at_, r :: t =>
    let p := (if at_ % 512 + r.length ≤ 512 then at_ else (at_ / 512 + 1) * 512) % (512 * max 1 blocks)
    let x := placeRecords blocks (p + r.length) t
    (x.1, (p, r) :: x.2)

/-- The blocks of an area that are erased ahead of records: a record in a block's first page has the next block erased (R466, R472). -/
def erasedAhead (blocks : Nat) (l : List (Nat × List Bytes)) : List Nat :=
  l.filterMap fun x => if x.1 % 512 = 0 then some ((x.1 / 512 + 1) % max 1 blocks) else none

/-- Records programmed into the blocks of an area, after what is erased ahead of them. -/
def Store.putRecords (t : Store) (blocks : List Nat) (l : List (Nat × List Bytes)) : Store :=
  let t := (erasedAhead blocks.length l).foldl (fun t i => t.clearBlock (blocks.getD i 0)) t
  l.foldl (fun t x => x.2.zipIdx.foldl (fun t p =>
    let q := blocks.getD (x.1 / 512) 0 * 512 + x.1 % 512 + p.2
    { t with pages := kput q p.1 t.pages, markers := q :: t.markers }) t) t

/-- The bank from which the rider executes in place: in Recovery nothing is written there (R466, R487). -/
def State.riderBank (s : State) : Option Nat := if s.power.mode == .recovery then klook 0x60 s.store.fetchBank else none

/-! ### Clients -/

/-- The permitted writers of the command interface: the compositors, the rider and the DMA channels (R402). -/
def storeWriter (client : Nat) : Bool := isProcessor client || (decide (0x40 ≤ client) && decide (client < 0x60))

/-- A DMA channel writes as its owner (R402). -/
def State.storeActor (s : State) (client : Nat) : Nat :=
  if 0x40 ≤ client && client < 0x60 then s.fld (Reg.DMA_ASSIGN_OWNER (client - 0x40)) else client

/-- The bank recorded for a client's most recent instruction fetch (R406). -/
def State.selfBank (s : State) (client : Nat) : Option Nat := klook (s.storeActor client) s.store.fetchBank

/-- Set an error flag of FWS.STATUS with its event (R426, R429). -/
def State.fwsError (s : State) (f : Fld) : State := (s.setFld f 1).setFld Reg.FWS_EVENT_ERR 1

/-- Lock the interface again. -/
def State.fwsLock (s : State) : State := s.setFld Reg.FWS_STATUS_SEQ_STATE 0

/-- A write out of order, or of a wrong value: ERR_SEQ, and the interface is locked (R402). -/
def State.fwsBadSequence (s : State) : State := s.fwsLock.fwsError Reg.FWS_STATUS_ERR_SEQ

/-- A write to KEY, CMD, ADDR or DATA by a client that may not write now is ignored and logged: a client that is no
permitted writer, or another client than the one that holds the open sequence (R402). -/
def State.fwsBarred (s : State) (client : Nat) : Bool :=
  !storeWriter client ||
    (s.fld Reg.FWS_STATUS_SEQ_STATE != 0 && s.fld Reg.FWS_STATUS_HOLDER != client)

/-- Table 12.3 has this opcode. -/
def fwsOpcode (x : Nat) : Bool := decide (1 ≤ x) && decide (x ≤ 5)

/-- The address of a register of the sequence. -/
def fwsRegAddr : FwsReg → Nat
  | .key => Reg.FWS_KEY
  | .cmd => Reg.FWS_CMD
  | .addr => Reg.FWS_ADDR

/-- The field of KEY, CMD or ADDR in a word written to it (R425). -/
def fwsField (r : FwsReg) (v : Word) : Nat := v.toNat % (match r with | .key => 2 ^ 16 | .cmd => 2 ^ 8 | .addr => 2 ^ 27)

/-- A write of KEY, CMD or ADDR by the permitted client, by the value of its field: the sequence of R402 advances, or fails. -/
def State.fwsAdvance (s : State) (client : Nat) (r : FwsReg) (n : Nat) : State :=
  match r, s.fld Reg.FWS_STATUS_SEQ_STATE with
  | .key, 0 =>
    if n = 0xC3 then s.setFlds [(Reg.FWS_STATUS_SEQ_STATE, 1), (Reg.FWS_STATUS_HOLDER, client)] else s.fwsBadSequence
  | .key, 1 => if n = 0x5A then s.setFld Reg.FWS_STATUS_SEQ_STATE 2 else s.fwsBadSequence
  | .cmd, 2 =>
    if fwsOpcode n then s.setFlds [(Reg.FWS_CMD_OPCODE, n), (Reg.FWS_STATUS_SEQ_STATE, 3)] else s.fwsBadSequence
  | .addr, 3 => s.setFlds [(Reg.FWS_ADDR_ADDR, n), (Reg.FWS_STATUS_SEQ_STATE, 4)]
  | _, _ => s.fwsBadSequence

/-- A write of KEY, CMD or ADDR (R402). One that sets reserved bits acts on its field, and is logged (R492). -/
def State.fwsWrite (s : State) (client : Nat) (r : FwsReg) (v : Word) : State :=
  if s.fwsBarred client then s.logWrite client (fwsRegAddr r) v
  else
    let t := s.fwsAdvance client r (fwsField r v)
    if fwsField r v = v.toNat then t else t.logWrite client (fwsRegAddr r) v

/-- FWS_SEQUENCE_WRITE (R402). -/
def execFwsSequenceWrite (client : Nat) (reg : FwsReg) (value : Word) (s : State) : Host.Outcome State Fault Refusal :=
  .next (s.setupWrite client (fwsRegAddr reg) value (.fwsSequenceWrite client reg value) fun s =>
    s.fwsWrite client reg value)

/-- FWS_SEQUENCE_TIMEOUT (R402): 1,024 fabric cycles pass from the first key with the sequence open. -/
def execFwsSequenceTimeout (s : State) : Host.Outcome State Fault Refusal :=
  .next (if s.fld Reg.FWS_STATUS_SEQ_STATE = 0 then s else s.fwsBadSequence)

/-! ### Operations (R403–R407) -/

/-- The bytes of PBUF. -/
def State.pbuf (s : State) : Bytes := ((List.range 128).map fun i => leBytes 4 (s.word (Reg.FWS_PBUF i)).toNat).flatten

def State.bank (s : State) (b : Fin 2) : StoreBank := s.store.banks[b]

/-- The bank has no operation in progress or suspended. -/
def StoreBank.free (k : StoreBank) : Bool := k.prog.isNone && k.erase.isNone && k.blank.isNone

/-- The block of a store address is the one its bank erases. -/
def StoreBank.erasing (k : StoreBank) (blk : Nat) : Bool := k.erase == some blk

/-- An open sequence ends with the DATA write of the opcode it holds, from its holder, at its address; any other DATA
write is out of order (R402). Spill starts no operation (R332). -/
def State.fwsData (s : State) (client op addr : Nat) (v : Word) (i : Instr) (k : State → State) : State :=
  s.setupWrite client Reg.FWS_DATA v i fun s =>
    if s.fwsBarred client then s.logWrite client Reg.FWS_DATA v
    else if s.fld Reg.FWS_STATUS_SEQ_STATE = 4 && s.fld Reg.FWS_CMD_OPCODE = op && s.fld Reg.FWS_ADDR_ADDR = addr then
      (if s.power.mode == .spill then s.fwsLock else k s.fwsLock)
    else s.fwsBadSequence

/-- Confirm value of every command but PROGRAM_PAGE (R403). -/
def confirmWord : Word := 0xD0

/-- The conditions of PROGRAM_PAGE in Table 12.3 and R406, in the order ADDR, ORDER, DATA, SELFBANK; `none` accepts. -/
def State.programRefusal (s : State) (client addr : Nat) (v : Word) : Option Fld :=
  let b := storeBankOf addr
  if addr % 512 ≠ 0 || (s.bank b).prog.isSome || s.store.flags.contains (storeBlock addr) ||
      (s.bank b).erasing (storeBlock addr) then some Reg.FWS_STATUS_ERR_ADDR
  else if !s.store.orderOk (storePage addr) then some Reg.FWS_STATUS_ERR_ORDER
  else if v.toNat ≠ crc32c s.pbuf then some Reg.FWS_STATUS_ERR_DATA
  else if s.selfBank client = some b.val then some Reg.FWS_STATUS_ERR_SELFBANK
  else none

/-- A program starts: PBUF is copied and the first pulse sets the page's marker. A program in an erasing bank suspends the
erase (R407). -/
def State.startProgram (s : State) (addr : Nat) : State :=
  let b := storeBankOf addr
  let s := if s.fld (Reg.FWS_BANK_STATE b) = 2 then s.addFld (Reg.FWS_BANK_SUSP_COUNT b) 1 else s
  (((s.onBank b fun k => { k with prog := some ⟨storePage addr, s.pbuf⟩ }).onStore fun t =>
    { t with markers := storePage addr :: t.markers }).setFlds [(Reg.FWS_BANK_STATE b, 1),
      (Reg.FWS_BANK_BLOCK b, storeBlock addr % 256), (Reg.FWS_BANK_PULSES b, 0)]).touch 23 0x3FF

/-- PROGRAM_PAGE (R404). -/
def execProgramPage (client addr : Nat) (data : Word) (s : State) : Host.Outcome State Fault Refusal :=
  .next (s.fwsData client 1 addr data (.programPage client addr data) fun s =>
    match s.programRefusal client addr data with
    | some f => s.fwsError f
    | none => s.startProgram addr)

/-- Slots and boot extension copies lie in these blocks (Table 12.1). -/
def slotOfBlock (b : Nat) : Option Nat :=
  if 9 ≤ b ∧ b ≤ 200 then some 1 else if 265 ≤ b ∧ b ≤ 456 then some 2 else none
def extOfBlock (b : Nat) : Option Nat :=
  if 1 ≤ b ∧ b ≤ 8 then some 0 else if 257 ≤ b ∧ b ≤ 264 then some 1 else none

/-- What a block's contents carried is gone with them: an image, a boot extension copy, or the pointer record in use. A block that the
bad-block record names carries nothing. -/
def State.blockGone (s : State) (b : Nat) : State :=
  let s : State := match slotOfBlock b with
    | some n => if s.store.badBlocks.contains b then s else s.onStore fun t => { t with slots := t.slots.setIfInBounds (n - 1) none }
    | none => s
  let s : State := match extOfBlock b with | some i => s.onStore fun t => { t with ext := t.ext.setIfInBounds i false } | none => s
  let inUse : Nat := (s.store.pointerPage + 1023) % 1024 / 512
  if (b = 0 ∧ inUse = 0) ∨ (b = 256 ∧ inUse = 1) then s.onStore fun t => { t with pointer := none } else s

/-- An erase starts: the flag cell is set before the first pulse, and from that pulse on until the erase passes the block's cells hold no
stated value (R405). -/
def State.startBlockErase (s : State) (addr : Nat) : State :=
  let b := storeBankOf addr
  let blk := storeBlock addr
  (((((s.onBank b fun k => { k with erase := some blk, held := false }).onStore fun t =>
    { t with flags := blk :: t.flags.erase blk, torn := kput blk s.free t.torn }).tookFree).setFlds [(Reg.FWS_BANK_STATE b, 2),
      (Reg.FWS_BANK_BLOCK b, blk % 256), (Reg.FWS_BANK_PULSES b, 0), (Reg.FWS_BANK_SUSP_COUNT b, 0)])).blockGone blk

/-- ERASE_BLOCK (R405). -/
def execEraseBlock (client addr : Nat) (s : State) : Host.Outcome State Fault Refusal :=
  .next (s.fwsData client 2 addr confirmWord (.eraseBlock client addr) fun s =>
    let b := storeBankOf addr
    if !(s.bank b).free || addr % 0x40000 ≠ 0 then s.fwsError Reg.FWS_STATUS_ERR_ADDR
    else if s.selfBank client = some b.val then s.fwsError Reg.FWS_STATUS_ERR_SELFBANK
    else s.startBlockErase addr)

/-- ERASE_SUSPEND (R403): accepted while the bank is erasing, or its erase is suspended for reads or for a program (R407), which then
runs on. -/
def execEraseSuspend (client addr : Nat) (s : State) : Host.Outcome State Fault Refusal :=
  .next (s.fwsData client 3 addr confirmWord (.eraseSuspend client addr) fun s =>
    let b := storeBankOf addr
    let hold (s : State) : State := (s.setFld (Reg.FWS_BANK_STATE b) 4).onBank b fun k => { k with held := true }
    if s.fld (Reg.FWS_BANK_STATE b) = 2 then (hold s).addFld (Reg.FWS_BANK_SUSP_COUNT b) 1
    else if s.fld (Reg.FWS_BANK_STATE b) = 3 then hold s
    else if s.fld (Reg.FWS_BANK_STATE b) = 1 && (s.bank b).erase.isSome && !(s.bank b).held then s.onBank b fun k => { k with held := true }
    else s.fwsError Reg.FWS_STATUS_ERR_ADDR)

/-- A bank's erase goes on: it is the bank's current operation again (R427). -/
def State.eraseGoesOn (s : State) (b : Fin 2) : State :=
  s.setFlds [(Reg.FWS_BANK_STATE b, 2), (Reg.FWS_BANK_BLOCK b, (s.bank b).erase.getD 0 % 256)]

/-- ERASE_RESUME (R403): accepted while the erase is held by ERASE_SUSPEND and no program runs in the bank. -/
def execEraseResume (client addr : Nat) (s : State) : Host.Outcome State Fault Refusal :=
  .next (s.fwsData client 4 addr confirmWord (.eraseResume client addr) fun s =>
    let b := storeBankOf addr
    if (s.bank b).erase.isSome && (s.bank b).held && (s.bank b).prog.isNone then
      (s.eraseGoesOn b).onBank b fun k => { k with held := false }
    else s.fwsError Reg.FWS_STATUS_ERR_ADDR)

/-- CLEAR_FLAG (R405): a blank check, and the flag cell cleared when it passes. -/
def execClearFlag (client addr : Nat) (s : State) : Host.Outcome State Fault Refusal :=
  .next (s.fwsData client 5 addr confirmWord (.clearFlag client addr) fun s =>
    let b := storeBankOf addr
    if (s.bank b).free && s.store.flags.contains (storeBlock addr) && addr % 0x40000 = 0 then
      (s.onBank b fun k => { k with blank := some (storeBlock addr) }).setFlds [(Reg.FWS_BANK_STATE b, 5),
        (Reg.FWS_BANK_BLOCK b, storeBlock addr % 256), (Reg.FWS_BANK_PULSES b, 0)]
    else s.fwsError Reg.FWS_STATUS_ERR_ADDR)

/-- The state a bank's erase returns to once a program in it has ended: held if ERASE_SUSPEND holds it, suspended for
reads until the auto-resume otherwise. A blank check that stood goes on. -/
def afterProgram (k : StoreBank) : Nat := if k.blank.isSome then 5 else if k.erase.isSome then (if k.held then 4 else 3) else 0

/-- The common end of an operation: its pulses, its event, and FAIL where it failed. -/
def State.bankDone (s : State) (b : Fin 2) (st pulses : Nat) (pass : Bool) : State :=
  let s := s.setFlds [(Reg.FWS_BANK_STATE b, st), (Reg.FWS_BANK_PULSES b, pulses),
    ((if b = 0 then Reg.FWS_EVENT_DONE0 else Reg.FWS_EVENT_DONE1), 1)]
  if pass then s else s.setFlds [(Reg.FWS_BANK_FAIL b, 1), (Reg.FWS_EVENT_FAIL, 1)]

/-- A blank check of a block passes only where its cells read erased; cells with no stated value may. -/
def Store.reads1 (t : Store) (blk : Nat) : Bool :=
  (klook blk t.torn).isSome ||
    ((t.erased.contains blk || !t.shippedBlock blk) && t.pages.all fun p => decide (p.1 / 512 ≠ blk) || p.2.all (· == 0xFF))

/-- A block that has passed its blank check: its flag cell is clear, and every cell reads 1. Markers stay: only an erase clears them. -/
def Store.blankPassed (t : Store) (blk : Nat) : Store :=
  let t : Store := { t with flags := t.flags.erase blk }
  if (klook blk t.torn).isSome then
    { t with
      torn := t.torn.filter fun x => decide (x.1 ≠ blk), erased := blk :: t.erased.erase blk
      pages := t.pages.filter fun p => decide (p.1 / 512 ≠ blk) }
  else t

/-- A block that fails its erase or blank check enters the bad-block record (R405). -/
def State.markBad (s : State) (blk : Nat) : State := s.onStore fun t => { t with badBlocks := blk :: t.badBlocks.erase blk }

/-- Firmware, or the boot ROM, erases a block and clears its flag; whether the erase and its blank check pass is not determined by the
state (R405, R413). -/
def State.tryErase (s : State) (b : Nat) : State :=
  let ok := Config.freeNat s.free % 2 == 1
  let s := s.tookFree.blockGone b
  if ok then s.onStore fun t => t.clearBlock b else s.markBad b

/-- FWS_OPERATION_END (R404, R405): the operation that proceeds in the bank ends after its pulses. A page that 16 pulses
do not verify holds undefined contents. A blank check passes only on an erased block. -/
def execFwsOperationEnd (bank : Fin 2) (pass : Bool) (pulses : Nat) (s : State) : Host.Outcome State Fault Refusal :=
  .next (let k := s.bank bank
    match k.prog, k.blank, k.erase with
    | some p, _, _ =>
      let new := if pass then programmedPage (s.store.page p.page) p.data else Config.freeBytes s.free 512
      ((((s.onBank bank fun k => { k with prog := none, quiet := s.turn }).onStore fun t =>
        { t with pages := kput p.page new t.pages }).tookFree).bankDone bank (afterProgram k) (sat 16 pulses) pass)
    | none, some blk, _ =>
      let blank := pass && s.store.reads1 blk
      let s := s.onBank bank fun k => { k with blank := none }
      let s := if blank then s.onStore fun t => t.blankPassed blk else s.markBad blk
      s.bankDone bank 0 (sat 32 pulses) blank
    | none, none, some blk =>
      if s.fld (Reg.FWS_BANK_STATE bank) = 2 then
        let s := s.onBank bank fun k => { k with erase := none }
        let s := if pass then s.onStore fun t => t.eraseBlock blk else s.markBad blk
        s.bankDone bank 0 (sat 32 pulses) pass
      else s
    | none, none, none => s)

/-- A read of a bank that it serves now (R407): a running erase is suspended, and each such suspension counted; a read of a bank already
suspended for reads restarts its 64 turns. -/
def State.readBank (s : State) (bank : Fin 2) : State :=
  let s := if s.fld (Reg.FWS_BANK_STATE bank) = 2 then
      (s.setFld (Reg.FWS_BANK_STATE bank) 3).addFld (Reg.FWS_BANK_SUSP_COUNT bank) 1
    else s
  s.onBank bank fun k => { k with quiet := s.turn }

/-- Reads of the bank stall: it programs, or checks a block for blank (R407). -/
def StoreBank.stalls (k : StoreBank) : Bool := k.prog.isSome || k.blank.isSome

/-- A read of a bank: served now, or held until the bank's program or blank check has ended (R407). -/
def State.storeGate (s : State) (bank : Fin 2) (i : Instr) (k : State → State) : State :=
  if (s.bank bank).stalls then s.onBank bank fun x => { x with waiting := x.waiting ++ [i] } else k (s.readBank bank)

/-- FWS_ERASE_AUTO_SUSPEND (R406, R407): a read of the bank. An instruction fetch is recorded for its client, until the client's cores
start again from another memory. -/
def execFwsEraseAutoSuspend (bank : Fin 2) (client : Nat) (fetch : Bool) (s : State) : Host.Outcome State Fault Refusal :=
  .next (let s := s.touch 23 client
    let s := if fetch then s.onStore fun t => { t with fetchBank := kput client bank.val t.fetchBank } else s
    if (s.bank bank).stalls then s else s.readBank bank)

/-- FWS_ERASE_AUTO_RESUME (R407): 64 turns after the last read of the bank the suspended erase resumes. -/
def execFwsEraseAutoResume (bank : Fin 2) (s : State) : Host.Outcome State Fault Refusal :=
  .next (if s.fld (Reg.FWS_BANK_STATE bank) = 3 && (s.bank bank).prog.isNone && decide ((s.bank bank).quiet + 64 ≤ s.turn) then
      s.eraseGoesOn bank
    else s)

/-! ### Execute-only ranges and the read window (R399, R400) -/

/-- A store address lies in its bank's execute-only range in force. -/
def State.inXo (s : State) (a : Nat) : Bool :=
  let b := storeBankOf a
  let k := storeBlock a % 256
  s.flag (Reg.FWS_XO_EN b) && decide (s.fld (Reg.FWS_XO_FIRST b) ≤ k) && decide (k ≤ s.fld (Reg.FWS_XO_LAST b))

/-- XO_DATA_READ (R400): a processor's data load from an execute-only range faults, sets XO_READ and is logged. A load of
the read window from outside the range answers the word. `addr` is the processor's address. -/
def execXoDataRead (client addr : Nat) (s : State) : Host.Outcome State Fault Refusal :=
  .next (s.gate 23 client addr false (.xoDataRead client addr) fun s =>
    let a := addr - 0x8000000
    if s.inXo a then
      { ((s.setFld Reg.FWS_EVENT_XO_READ 1).logUncoded .xoRead client addr) with answer := some (.loadFault client addr) }
    else s.storeGate (storeBankOf a) (.xoDataRead client addr) fun s => { s with answer := some (.value client (leNat (slice (s.store.page (storePage a)) (a % 512 / 8 * 8) 8))) })

/-- XO_WRITE (R428): a write of FWS.XO; a set LOCK freezes the range until the next reset. -/
def execXoWrite (client : Nat) (bank : Fin 2) (value : Word) (s : State) : Host.Outcome State Fault Refusal :=
  .next (s.setupWrite client (Reg.FWS_XO bank) value (.xoWrite client bank value) fun s =>
    if s.flag (Reg.FWS_XO_LOCK bank) then s else s.regWrite client (Reg.FWS_XO bank) value)

/-- READ_WINDOW_WRITE (R399): no write through the read window reaches the store. -/
def execReadWindowWrite (client addr : Nat) (value : Word) (s : State) : Host.Outcome State Fault Refusal :=
  .next (s.logUncoded .storeWrite client (addr + value.toNat * 2 ^ 32))

end Sys2Proof.Machine
end

