-- ==== Sys2Proof/Machine/Editions.lean ====
section
/-! DEFINITION. Editions (chapter 14, R471–R477): the blob format, the checks of Table 14.9, Stage, Commit, Revert, the
switch edge and the bookkeeping. -/

namespace Sys2Proof.Machine

/-! ### The blob (R471) -/

/-- A refusal of Table 14.9: reason, section ID, RES_A and RES_B. -/
structure Refused where
  reason : Nat
  section_ : Nat := 0
  resA : Nat := 0
  resB : Nat := 0
  deriving DecidableEq, Repr

/-- A check passes, or refuses. -/
def need (ok : Bool) (r : Refused) : Except Refused Unit := if ok then .ok () else .error r

/-- A section as it is framed: its offset, ID and payload. -/
structure Section where
  ofs : Nat
  id : Nat
  body : Bytes
  deriving DecidableEq, Repr

/-- Little-endian field of a blob. -/
def field (b : Bytes) (ofs n : Nat) : Nat := leNat (slice b ofs n)

/-- The payload length a section ID admits (Table 14.8); an unknown ID admits any. -/
def lengthOk (id n : Nat) : Bool :=
  match id with
  | 1 => n % 12 == 0 | 2 => n == 48 | 3 => n == 32 | 4 => n % 4 == 0 | 5 => n == 5120 | 6 => n == 4 | 7 => n == 8
  | _ => true

/-- The sections of a blob from an offset on: a 2-byte ID, a 2-byte payload length, the payload padded to 4 bytes. `fuel`
bounds their number. -/
def sections (b : Bytes) : Nat → Nat → Except Refused (List Section)
  | 0, _ => .ok []
  | fuel + 1, o =>
    if b.length ≤ o then .ok []
    else
      let id := field b o 2
      let n := field b (o + 2) 2
      let next := o + 4 + (n + 3) / 4 * 4
      if b.length < next || !lengthOk id n then .error ⟨1, id, o, 0⟩
      else
        match sections b fuel next with
        | .ok l => .ok (⟨o, id, slice b (o + 4) n⟩ :: l)
        | .error r => .error r

/-- The formats a section ID is allowed in (Table 14.8). -/
def sectionAllowed (fmt id : Nat) : Bool :=
  if id = 5 ∨ id = 6 then fmt == 2 else decide (1 ≤ id) && decide (id ≤ 7)

/-- The first section that is unknown, repeated or not allowed. -/
def badSection (fmt : Nat) : List Section → List Nat → Option Nat
  | [], _ => none
  | x :: t, seen => if !sectionAllowed fmt x.id || seen.contains x.id then some x.id else badSection fmt t (x.id :: seen)

/-- The 4-byte words of a payload. -/
def words (b : Bytes) : List Nat := (List.range (b.length / 4)).map fun i => field b (4 * i) 4

/-- The payload of a section, if the blob has it. -/
def payload (l : List Section) (id : Nat) : Option Bytes := (l.find? fun x => x.id == id).map (·.body)

/-- The REG entries of a payload. -/
def regEntries (b : Bytes) : List (Nat × Nat × Nat) :=
  (List.range (b.length / 12)).map fun i => (field b (12 * i) 4, field b (12 * i + 4) 4, field b (12 * i + 8) 4)

/-- The parsed edition. -/
def parsed (b : Bytes) (l : List Section) : Edition :=
  { number := field b 8 4, format := field b 4 2, base := field b 16 4, blob := b
    reg := match payload l 1 with | some p => regEntries p | none => []
    reclaim := (payload l 2).map words
    floor := match payload l 3 with | some p => words p | none => []
    resource := match payload l 4 with | some p => (words p).map (fun w => (w % 65536, w / 65536)) | none => []
    dellux := payload l 5
    mi := (payload l 6).map fun p => (field p 0 1, field p 1 1)
    thermal := (payload l 7).map fun p => p.map (·.toNat) }

/-! ### Register values of an edition -/

/-- The bits of a register word that are RWE. -/
def rweMask (a : Nat) : Nat :=
  match regAt a with
  | some r => r.fields.foldl (fun m f => if f.type = .rwe then m + (2 ^ f.width - 1) * 2 ^ f.lsb else m) 0
  | none => 0

/-- A word with the bits of a mask taken from a value. -/
def maskWord (old : Word) (mask v : Nat) : Word :=
  (old &&& ~~~(BitVec.ofNat 32 mask)) ||| (BitVec.ofNat 32 v &&& BitVec.ofNat 32 mask)

/-- The RWE bits that an edition gives a register: a parameter it does not name takes its reset value (R471). -/
def Edition.word (e : Edition) (a : Nat) : Word :=
  (e.reg.filter fun x => x.1 == a).foldl (fun w x => maskWord w x.2.1 x.2.2) (resetWord a)

def Edition.fld (e : Edition) (f : Fld) : Nat := bitsOf (e.word f.addr) f.lsb f.width

/-- The edition names a field in a REG entry. -/
def Edition.names (e : Edition) (f : Fld) : Bool :=
  e.reg.any fun x => x.1 == f.addr && x.2.1 / 2 ^ f.lsb % 2 ^ f.width != 0

/-- The RECLAIM parameters that an edition gives: its own, or the defaults. -/
def State.reclaimOf (s : State) (e : Edition) (k : Nat) : Nat :=
  match e.reclaim with
  | some l => l.getD k 0
  | none => if k = 7 then s.flash.endurance else reclaimDefaults.getD k 0

/-! ### Check 0x07: ranges and rules between values -/

/-- Ranges of Table 06.6, in table order. -/
def reclaimRanges : List (Nat × Nat) :=
  [(30, 500), (10, 480), (1, 500), (1, 500), (1, 500), (1, 500), (0, 10), (100, 100000), (0, 24), (16, 24), (1, 99), (10, 500)]

/-- The first RECLAIM parameter out of its range, or that breaks a rule of Table 06.6. -/
def State.badReclaim (s : State) (e : Edition) : Option Nat :=
  let p := s.reclaimOf e
  let n0 := s.nv.n0.foldl min (s.nv.n0.headD 0)
  let reserve := cdiv (10 * 2 ^ 30) (max 1 (s.lanes * 14 * s.unitsPerMb * 16384))
  match reclaimRanges.zipIdx.find? fun x => !(decide (x.1.1 ≤ p x.2) && decide (p x.2 ≤ x.1.2)) with
  | some x => some x.2
  | none =>
    if p 0 < p 1 + 20 then some 0
    else if p 2 ≤ p 3 then some 3
    else if p 3 ≤ p 4 then some 4
    else if p 4 ≤ p 5 then some 5
    else if p 5 < 4 || (s.nv.formatted && decide (p 5 * n0 / 1000 < reserve)) then some 5
    else if p 2 - p 3 < p 6 then some 6
    else if s.flash.endurance < p 7 then some 7
    else none

/-- A class scope field holds 0, 12 to 30, or 31 (R95). -/
def scopeOk (v : Nat) : Bool := v == 0 || (decide (12 ≤ v) && decide (v ≤ 31))

/-- The register whose values break a range or a rule (R87, R95, R166, R369, T_HOT, BST.CFG and the ranges that the register
tables state), if any. -/
def State.badReg (s : State) (e : Edition) : Option Nat :=
  let f := e.fld
  let dl (n : Nat) := f (Reg.SLU_CLASS_DL_DEADLINE n)
  let rd (n : Nat) := f (Reg.SLU_CLASS_SCOPE_READ_LOG2 n)
  let wr (n : Nat) := f (Reg.SLU_CLASS_SCOPE_WRITE_LOG2 n)
  let classBad := (List.range 8).find? fun n =>
    (n != 7 && (decide (dl n < 128) || decide (1048576 < dl n) || (n != 0 && decide (dl n < dl (n - 1)))))
  let scopeBad := (List.range 8).find? fun n =>
    !scopeOk (rd n) || !scopeOk (wr n) || (n == 6 && (rd n != 31 || wr n != 31))
  let rateBad := (List.range 64).find? fun n =>
    let lo := f (Reg.FCE_RATE_FLOOR_IDX n)
    let hi := f (Reg.FCE_RATE_MAX_IDX n)
    decide (lo < hi) || decide (8 < lo) || decide (8 < hi)
  let dramBad := (List.range 12).find? fun n =>
    decide (s.dramKib n ≤ f (Reg.DMC_BUDGET_SC0_KIB n) + f (Reg.DMC_BUDGET_FLOOR_KIB n))
  let hot := f Reg.PMC_THERM_CFG_T_HOT
  let st := f Reg.BST_CFG_SLICE_TURNS
  let gpio := f Reg.PMC_CIS_TEST_GPIO
  let steal := f Reg.OCM_STEAL_LIMIT
  if 1048576 < f (Reg.HGT_CTX_FLOOR_FLOOR 0) + f (Reg.HGT_CTX_FLOOR_FLOOR 1) then some (Reg.HGT_CTX_FLOOR 0)
  else if let some n := classBad then some (Reg.SLU_CLASS_DL n)
  else if let some n := scopeBad then some (Reg.SLU_CLASS_SCOPE n)
  else if let some n := rateBad then some (Reg.FCE_RATE n)
  else if let some n := dramBad then some (Reg.DMC_BUDGET n)
  else if hot < 90 || 105 < hot then some Reg.PMC_THERM_CFG
  else if st < 10 || 200 < st || f Reg.BST_CFG_SLICES_PER_ROT = 0 then some Reg.BST_CFG
  else if 31 < gpio then some Reg.PMC_CIS_TEST
  else if steal = 0 then some Reg.OCM_STEAL
  else none

/-- Resource and feature codes of R471. -/
def resourceOk (r f : Nat) : Bool :=
  (decide (r ≤ 0x1F) || (decide (0x100 ≤ r) && decide (r ≤ 0x107)) || (decide (0x200 ≤ r) && decide (r ≤ 0x21F)) ||
    (decide (0x300 ≤ r) && decide (r ≤ 0x33F))) &&
  ((decide (1 ≤ f) && decide (f ≤ 4)) || (decide (0x10 ≤ f) && decide (f ≤ 0x14)))

/-- Check 0x07. -/
def State.checkValues (s : State) (e : Edition) : Except Refused Unit :=
  match s.badReg e with
  | some a => .error ⟨7, 1, a % 65536, 0⟩
  | none =>
    match (if e.reclaim.isSome then s.badReclaim e else none) with
    | some k => .error ⟨7, 2, k, 0⟩
    | none =>
      match (e.floor.zipIdx.find? fun x => x.1 % 2 == 1 || decide (2 ^ 24 ≤ x.1)),
            (e.resource.find? fun x => !resourceOk x.1 x.2), (e.thermal.bind fun l => l.zipIdx.find? fun x => decide (29 < x.1)) with
      | some x, _, _ => .error ⟨7, 3, x.2, 0⟩
      | none, some x, _ => .error ⟨7, 4, x.1, 0⟩
      | none, none, some x => .error ⟨7, 7, x.2, 0⟩
      | none, none, none => .ok ()

/-! ### Check 0x08: one resource claimed twice (R471, R376) -/

/-- A claim: the resource, who claims it (feature or DMA channel), the section, and whether a DMA channel claims a line. -/
structure Claim where
  res : Nat
  by_ : Nat
  section_ : Nat
  line : Bool := false
  deriving DecidableEq, Repr

/-- The edition leaves the cistern configured (R315). -/
def Edition.cistern (e : Edition) : Bool :=
  e.fld Reg.PMC_CIS_TEST_LOAD != 0 && e.fld Reg.PMC_CIS_DIV_V_FULL != 0 && e.fld Reg.PMC_CIS_DIV_DIV_X256 != 0

/-- The claims of register fields, then those of the RESOURCE section. -/
def Edition.claims (e : Edition) : List Claim :=
  let g := e.fld Reg.PMC_CIS_TEST_GPIO
  let gpio := if e.names Reg.PMC_CIS_TEST_GPIO || e.cistern then [{ res := g, by_ := 0, section_ := 1 : Claim }] else []
  let dma := (List.range 32).flatMap fun n =>
    let own := if e.names (Reg.DMA_ASSIGN_OWNER n) then [{ res := 0x200 + n, by_ := n, section_ := 1 : Claim }] else []
    let l := e.fld (Reg.DMA_ASSIGN_REQ_LINE n)
    own ++ (if l = 63 then [] else [{ res := 0x300 + l, by_ := n, section_ := 1, line := true }])
  gpio ++ dma ++ e.resource.map fun x => { res := x.1, by_ := x.2, section_ := 4 }

/-- The first resource claimed twice. -/
def claimedTwice : List Claim → List Claim → Option Refused
  | [], _ => none
  | c :: t, seen =>
    match seen.find? fun x => x.res == c.res with
    | some x => some (if x.line && c.line then ⟨8, 1, x.by_, c.by_⟩ else ⟨8, c.section_, c.res, c.by_⟩)
    | none => claimedTwice t (seen ++ [c])

/-! ### Checks 0x09 and 0x0A: the present state -/

/-- A resource busy at the switch. -/
def State.busyResource (s : State) (e : Edition) : Option Nat :=
  let dma := (List.range 32).find? fun n =>
    e.fld (Reg.DMA_ASSIGN_OWNER n) != s.fld (Reg.DMA_ASSIGN_OWNER n) && s.flag (Reg.DMA_CTRL_ENABLE n)
  let g := s.fld Reg.PMC_CIS_TEST_GPIO
  match dma with
  | some n => some (0x200 + n)
  | none =>
    if s.flag Reg.PMC_CIS_STATUS_TEST_BUSY &&
        (e.fld Reg.PMC_CIS_TEST_GPIO != g || e.resource.any fun x => x.1 == g) then some g else none

/-- The first domain of a mask that is retired, fused off or absent (R438). -/
def State.deadDomain (s : State) (mask : Nat) : Option Nat :=
  (List.range 24).find? fun n => decide (mask / 2 ^ n % 2 = 1) && s.isDead (Fin.ofNat 24 n)

def State.deadFloor (s : State) (e : Edition) : Option Nat := e.floor.findSome? s.deadDomain

/-- The blob formats that the running image accepts, as bits (R411). -/
def State.editionFmts (s : State) : Nat :=
  match s.store.running with
  | some i => ((s.store.slots.toList.getD (i - 1) none).map (·.editionFmts)).getD 6
  | none => 6

/-- Check 0x02. -/
def State.checkFormat (s : State) (fmt : Nat) : Except Refused Unit :=
  need ((fmt == 1 || fmt == 2) && decide (s.editionFmts / 2 ^ fmt % 2 = 1)) ⟨2, 0, fmt, 0⟩

def State.checkBusy (s : State) (e : Edition) : Except Refused Unit :=
  match s.busyResource e with | some r => .error ⟨9, if r < 0x20 then 1 else 4, r, 0⟩ | none => .ok ()

def State.checkFloors (s : State) (e : Edition) : Except Refused Unit :=
  match s.deadFloor e with | some n => .error ⟨0xA, 3, n, 0⟩ | none => .ok ()

/-- The checks of Table 14.9 that Stage makes, in order (R472). -/
def State.validate (s : State) (number length : Nat) (b : Bytes) : Except Refused Edition := do
  need (decide (32 ≤ b.length) && field b 0 4 == 0x4445474B) ⟨1, 0, 0, 0⟩
  need (field b 6 2 == 0) ⟨1, 0, 6, 0⟩
  need (field b 8 4 != 0 && field b 8 4 != 0xFFFFFFFF) ⟨1, 0, 8, 0⟩
  need (field b 12 4 == length && length % 4 == 0 && decide (length ≤ 65536) && length == b.length) ⟨1, 0, 12, 0⟩
  need (field b 24 8 == 0) ⟨1, 0, 24, 0⟩
  let l ← sections b (b.length / 4) 32
  s.checkFormat (field b 4 2)
  need (crc32c (splice b 20 (fill 4 0)) == field b 20 4) ⟨3, 0, 0, 0⟩
  let above (e : Option Edition) : Bool := match e with | some e => decide (e.number < field b 8 4) | none => true
  need (field b 8 4 == number && above (some s.mgmt.current) && above s.mgmt.previous) ⟨4, 0, s.mgmt.current.number % 65536, 0⟩
  match badSection (field b 4 2) l [] with
  | some id => .error ⟨5, id, id, 0⟩
  | none => pure ()
  let e := parsed b l
  match e.reg.find? fun x => x.1 % 4 != 0 || (x.2.1 &&& rweMask x.1) != x.2.1 with
  | some x => .error ⟨6, 1, x.1 % 65536, 0⟩
  | none => pure ()
  s.checkValues e
  match claimedTwice e.claims [] with
  | some r => .error r
  | none => pure ()
  s.checkFloors e
  pure e

/-- The checks that Commit and Revert repeat against the present state: 0x02, 0x07, 0x09, 0x0A (R474, R475). -/
def State.recheck (s : State) (e : Edition) : Except Refused Unit := do
  s.checkFormat e.format
  s.checkValues e
  s.checkBusy e
  s.checkFloors e

/-! ### The commands (R472–R476) -/

/-- A refusal: EDC.RESULT, the log and the completion (R472). -/
def State.refuseEdition (s : State) (a : Adm) (number : Nat) (r : Refused) : State :=
  let s := s.setFlds [(Reg.EDC_RESULT_REASON, r.reason), (Reg.EDC_RESULT_SECTION, r.section_), (Reg.EDC_RESULT_RES_A, r.resA),
    (Reg.EDC_RESULT_B_RES_B, r.resB)]
  let dw0 := r.reason + r.section_ % 256 * 256 + r.resA % 65536 * 65536
  (s.log 0x0204 a.path 0x3FF (number + (s.word Reg.EDC_RESULT).toNat * 2 ^ 32)).reply a { St.invalidField with dw0 := dw0 } []

/-- The number in progress, where a change is under way (R476). -/
def State.inProgress (s : State) : Option Nat := s.mgmt.change.map (·.number)

def none32 : Nat := 0xFFFFFFFF

/-- Publish the numbers and the state of EDC (R477). -/
def State.publishEditions (s : State) : State :=
  let num (e : Option Edition) : Nat := match e with | some e => e.number | none => none32
  let st := match s.mgmt.change.map (·.phase) with
    | none => 0 | some .validating => 1 | some .pending => 2 | some .booking => 3
  s.setFlds [(Reg.EDC_CURRENT_NUMBER, s.mgmt.current.number), (Reg.EDC_PREVIOUS_NUMBER, num s.mgmt.previous),
    (Reg.EDC_STAGED_NUMBER, num s.mgmt.staged), (Reg.EDC_STATUS_STATE, st), (Reg.EDC_STATUS_FORMAT, s.mgmt.current.format)]

/-- Edition Conflict (R476), logged as every edition command is. -/
def State.conflictEdition (s : State) (a : Adm) (number other : Nat) : State :=
  (s.log 0x0204 a.path 0x3FF (number + (s.word Reg.EDC_RESULT).toNat * 2 ^ 32)).reply a (St.conflict other) []

/-- The payload of a blob record, and of a role record (R473): ROLE, the numbers, the turn. The widths of the head's fields are the model's
(DESIGN CHOICE, assumption log 181). -/
def blobRecord (e : Edition) (turn : Nat) : Bytes := leBytes 4 1 ++ leBytes 4 e.number ++ leBytes 8 turn ++ e.blob
def RoleRecord.bytes (r : RoleRecord) : Bytes := leBytes 4 4 ++ leBytes 4 r.current ++ leBytes 4 r.previous ++ leBytes 4 r.staged ++ leBytes 8 r.turn

/-- A record of the edition area that governs still: the blob of an edition that has a role, or the latest role record. -/
def State.liveRecord (s : State) (x : Nat × Bytes) : Bool :=
  if leNat (slice x.2 0 4) = 1 then
    [some s.mgmt.current, s.mgmt.previous, s.mgmt.staged].any fun e => match e with
      | some e => e.number == leNat (slice x.2 4 4)
      | none => false
  else (s.store.edRecs.filter fun y => leNat (slice y.2 0 4) == 4).getLast? == some x

/-- A record is stored in both copies of the edition area (R472, R473), in Recovery only in the one that lies in the other bank: where it
enters a block, the next one of each copy is erased, and what is live there is written again before. -/
def State.putEdition (s : State) (payload : Bytes) : State :=
  let t := s.store
  let start := match (placeRecords 8 t.edAt [recordPages 2 0 payload]).2 with | x :: _ => x.1 | [] => t.edAt
  let live := if start % 512 = 0 then (t.edRecs.filter fun x => x.1 == (start / 512 + 1) % 8 && s.liveRecord x).map (·.2) else []
  let all := live ++ [payload]
  let r := placeRecords 8 start (all.zipIdx.map fun x => recordPages 2 (t.edSeq + 1 + x.2) x.1)
  let gone := erasedAhead 8 r.2
  let copy (t : Store) (b : Nat) : Store := if s.riderBank = some b then t else t.putRecords ((List.range 8).map (· + (201 + 256 * b))) r.2
  (s.touch 23 0x60).onStore fun t =>
    { copy (copy t 0) 1 with
      edAt := r.1, edSeq := t.edSeq + all.length
      edRecs := (t.edRecs.filter fun x => !gone.contains x.1) ++ List.zipWith (fun x b => (x.1 / 512, b)) r.2 all }

/-- Edition Stage (R472): the blob becomes the staged edition, and is stored. -/
def State.stageEdition (s : State) (a : Adm) (number length : Nat) (blob : Bytes) : State :=
  match s.inProgress with
  | some n => s.conflictEdition a number n
  | none =>
    match s.validate number length blob with
    | .error r => s.refuseEdition a number r
    | .ok e =>
      (((((s.onMgmt fun m => { m with staged := some e }).putEdition (blobRecord e s.turn)).publishEditions).log 0x0203 a.path 0x3FF number).reply
        a St.ok [])

/-- Every check has passed: the switch takes effect at the next turn edge (R474). -/
def State.pendSwitch (s : State) (a : Adm) (revert : Bool) (number : Nat) : State :=
  ((s.onMgmt fun m =>
    { m with change := some { phase := .pending, revert := revert, number := number, path := a.path, adm := some a, since := s.turn } }).setFld
    Reg.EDC_STATUS_SOURCE a.path).publishEditions

/-- Edition Commit (R474, R476). -/
def State.commitEdition (s : State) (a : Adm) (number : Nat) : State :=
  match s.inProgress with
  | some n => s.conflictEdition a number n
  | none =>
    match s.mgmt.staged with
    | none => s.conflictEdition a number none32
    | some e =>
      if e.number ≠ number then s.conflictEdition a number e.number
      else if e.base ≠ none32 ∧ e.base ≠ s.mgmt.current.number then s.conflictEdition a number s.mgmt.current.number
      else
        match s.recheck e with
        | .error r => s.refuseEdition a number r
        | .ok _ => s.pendSwitch a false number

/-- Edition Revert (R475, R476). -/
def State.revertEdition (s : State) (a : Adm) (number : Nat) : State :=
  match s.inProgress with
  | some n => s.conflictEdition a number n
  | none =>
    if number ≠ s.mgmt.current.number then s.conflictEdition a number s.mgmt.current.number
    else
      match s.mgmt.previous with
      | none => (s.log 0x0204 a.path 0x3FF (number + (s.word Reg.EDC_RESULT).toNat * 2 ^ 32)).reply a St.sequence []
      | some e =>
        match s.recheck e with
        | .error r => s.refuseEdition a e.number r
        | .ok _ => s.pendSwitch a true e.number

/-- EDITION_STAGE (R472). -/
def execEditionStage (a : Adm) (number length : Nat) (blob : Bytes) (s : State) : Out :=
  .next (s.riderAdmin a (.editionStage a number length blob) fun s => s.stageEdition a number length blob)

/-- EDITION_COMMIT (R474). -/
def execEditionCommit (a : Adm) (number : Nat) (s : State) : Out := .next (s.riderAdmin a (.editionCommit a number) fun s => s.commitEdition a number)

/-- EDITION_REVERT (R475). -/
def execEditionRevert (a : Adm) (number : Nat) (s : State) : Out := .next (s.riderAdmin a (.editionRevert a number) fun s => s.revertEdition a number)

/-! ### The switch edge (R474, Table 14.10) -/

/-- Load every RWE field from an edition. DC7's deadline always reads 0. -/
def State.loadRwe (s : State) (e : Edition) : State :=
  let addrs := (s.regs.map (·.1)) ++ (e.reg.map (·.1))
  let s := addrs.foldl (fun s a =>
    let m := rweMask a
    if m = 0 then s else s.setWord a (maskWord (s.word a) m (e.word a).toNat)) s
  let s := s.setFld (Reg.SLU_CLASS_DL_DEADLINE 7) 0
  match e.mi with
  | some p => (s.setFld (Reg.MBX_MCTP_CFG_SMB_ADDR 0) p.1).setFld (Reg.MBX_MCTP_CFG_SMB_ADDR 1) p.2
  | none => s

/-- The functions that an edition gives GPIOs, the cistern's GPIO included (R471, R514). -/
def Edition.gpios (e : Edition) : List (Nat × Nat) := e.resource.filter fun x => decide (x.1 < 32)

/-- The Dellux threshold table, at its place in the scratchpad (R261). -/
def State.loadDellux (s : State) (e : Edition) : State :=
  let a := 0x10000000 + s.fld Reg.LDP_DLX_TABLE_BANK * 0x100000 + s.fld Reg.LDP_DLX_TABLE_OFFSET_KIB * 1024
  s.onMemory fun m => { m with bytes := memWrite a (e.dellux.getD (fill 5120 0)) m.bytes }

/-- Everything that an edition's switch puts in force. -/
def State.applyEdition (s : State) (e : Edition) : State :=
  let s := (s.loadRwe e).loadDellux e
  let s := s.onPower fun p => { p with floorEdition := Vector.ofFn fun i => e.floor.getD i.val 0 }
  (s.onPins fun p => { p with gpio := e.gpios }).refix

/-- The roles after a switch: a Commit moves the staged edition in, a Revert changes the current and previous places. -/
def State.switchRoles (s : State) (c : EditionChange) : State :=
  s.onMgmt fun m =>
    if c.revert then
      match m.previous with
      | some e => { m with current := e, previous := some m.current }
      | none => m
    else
      match m.staged with
      | some e => { m with current := e, previous := some m.current, staged := none }
      | none => m

/-- EDITION_SWITCH (R474): at the turn edge after the checks complete. -/
def execEditionSwitch (s : State) : Out :=
  .next (match s.mgmt.change with
    | some c =>
      if c.phase != .pending || s.turn ≤ c.since then s
      else
        let before := s.mgmt.previous
        let s := (s.switchRoles c).onMgmt fun m => 
          { m with change := some { c with phase := .booking, since := s.turn, before := before } }
        let s := (s.applyEdition s.mgmt.current).setFlds
          [(Reg.EDC_SWITCH_LO_TURN, s.turn % 2 ^ 32), (Reg.EDC_SWITCH_HI_TURN, s.turn / 2 ^ 32)]
        s.publishEditions
    | none => s)

/-- In the turn after the switch edge the completion is posted and event 0xDA raised (R474, R469). -/
def State.editionTurn (s : State) : State :=
  match s.mgmt.change with
  | some c =>
    match c.adm with
    | some a =>
      if c.phase == .booking && decide (c.since < s.turn) then
        (((s.onMgmt fun m => { m with change := some { c with adm := none } }).reply a St.ok []).raiseBoth 7 0xDA 0x07)
      else s
    | none => s
  | none => s

/-- The role record of the present roles. -/
def State.roleRecord (s : State) (seq turn : Nat) : RoleRecord :=
  let num (e : Option Edition) : Nat := match e with | some e => e.number | none => none32
  ⟨seq, s.mgmt.current.number, num s.mgmt.previous, num s.mgmt.staged, turn⟩

/-- The bookkeeping at a rotation edge: copy 1, the log entry, copy 2 (R474). -/
def State.bookEdition (s : State) : State :=
  match s.mgmt.change with
  | some c =>
    if c.phase != .booking || s.turn ≤ c.since then s
    else
      let seq := (s.mgmt.roles.toList.foldl (fun n r => match r with | some r => max n r.seq | none => n) 0) + 1
      let r := s.roleRecord seq c.since
      let other := match s.mgmt.previous with | some e => e.number | none => none32
      (((s.onMgmt fun m => { m with roles := #v[some r, some r], change := none }).putEdition r.bytes).log
        (if c.revert then 0x0202 else 0x0201) c.path 0x3FF (s.mgmt.current.number + other * 2 ^ 32)).publishEditions
  | none => s

end Sys2Proof.Machine
end

