-- ==== Sys2Proof/Machine/SelfTest.lean ====
section
/-! DEFINITION. The self-test engine (chapter 14, R478–R485): runs, slices, failures and their outcomes, and Device
Self-test. -/

namespace Sys2Proof.Machine

/-! ### Items (Table 14.11) -/

/-- The power domain of an item's instance: cores, decoders (soft ones from 32 on), channels, XFORM, banks, the store, HCORE,
SLUICE and the galley controllers, the PHYs. -/
def itemDomain (item inst : Nat) : Fin 24 :=
  match item with
  | 1 => Fin.ofNat 24 (6 + inst / 8)
  | 2 => if inst < 32 then Fin.ofNat 24 (9 + inst / 16) else Fin.ofNat 24 (9 + (inst - 32) / 4)
  | 3 => Fin.ofNat 24 (13 + inst / 8)
  | 4 => 22
  | 5 => bankDomain inst
  | 6 => 23
  | 7 => Fin.ofNat 24 ([4, 5, 11, 12].getD inst 4)
  | _ => Fin.ofNat 24 (2 + inst % 2)

/-- Coverage of an item, in 0.1 %. -/
def itemCoverage (item : Nat) (full : Bool) : Nat × Nat :=
  match item with
  | 1 => (960, 880) | 2 => (975, 900) | 3 => (950, 860) | 4 => if full then (940, 850) else (1000, 1000)
  | 7 => (945, 850) | _ => (1000, 1000)

/-- The item that a domain's full test is (Table 14.11). -/
def domItem (n : Nat) : Nat :=
  if 6 ≤ n ∧ n ≤ 8 then 1 else if n = 9 ∨ n = 10 then 2 else if 13 ≤ n ∧ n ≤ 20 then 3 else if n = 22 then 4 else if n = 21 then 5
  else if n = 23 then 6 else if n = 2 ∨ n = 3 then 8 else 7

/-- Turns of a domain's full test (R481); the firmware store's is item 6 of both slots and both boot extension copies (R480). -/
def fullTestTurns (n : Nat) : Nat :=
  if n = 4 ∨ n = 5 then 150000 else if 6 ≤ n ∧ n ≤ 8 then 5040 else if n = 9 ∨ n = 10 then 300 else if n = 11 ∨ n = 12 then 30000
  else if 13 ≤ n ∧ n ≤ 20 then 220 else if n = 22 then 20000 else if n = 21 then 40 else if n = 2 ∨ n = 3 then 20000
  else if n = 23 then 64000 else 0

/-- Slices of a full in-service pass (R479). -/
def passSlices : Nat := 4429

/-- Member blocks that hold mapped data and are closed: the media part of the extended run. -/
def State.mediaBlocks (s : State) : Nat :=
  ((s.flash.formeBlocks.filter fun f => !f.isOpen && f.victim != 9).map fun f => f.members.length).foldl (· + ·) 0

/-- The steps a run takes: the pass; the pass and one step for each block of the media part; each domain of R481; each
domain but PD0–PD3, and item 6. -/
def State.runTotal (s : State) (kind : Nat) : Nat :=
  match kind with
  | 1 | 2 => passSlices
  | 3 => passSlices + s.mediaBlocks
  | 4 => 21
  | _ => 20

/-! ### Runs -/

def State.runStatus (s : State) : State :=
  match s.mgmt.run with
  | some r => s.setFlds [(Reg.BST_STATUS_BUSY, 1), (Reg.BST_STATUS_KIND, r.kind), (Reg.BST_STATUS_PCT, min 100 (100 * r.done / max 1 r.total)),
      (Reg.BST_STATUS_SOURCE, r.source)]
  | none => s.setFld Reg.BST_STATUS_BUSY 0

/-- Start a run; the log names its path. -/
def State.startRun (s : State) (kind source nsid : Nat) : State :=
  ((s.onMgmt fun m => { m with run := some { kind := kind, source := source, began := s.turn, nsid := nsid, total := s.runTotal kind } }).log
    0x0301 source 0x3FF kind).runStatus

/-- The Self-test Code of a kind. -/
def kindStc (kind : Nat) : Nat := if kind = 4 then 0xE else kind - 1

/-- End the run in progress with an NVMe result code: 0 passed, 1 aborted, 2 by a reset, 4 by Format or Sanitize, 5 by a
spill, 7 with a failed item. -/
def State.endRun (s : State) (code : Nat) : State :=
  match s.mgmt.run with
  | none => s
  | some r =>
    let f := r.failed.getD (0, 0)
    let res : SelfTestResult := ⟨code, kindStc r.kind, f.1, r.nsid, s.turn, r.source⟩
    let aborted := code = 1 ∨ code = 2 ∨ code = 4 ∨ code = 5
    let s := s.onMgmt fun m =>
      { m with run := none, passes := if r.kind = 1 ∧ ¬ aborted then m.passes + 1 else m.passes
               results := if 2 ≤ r.kind ∧ r.kind ≤ 4 then (res :: m.results).take 20 else m.results }
    ((s.setFlds [(Reg.BST_RESULT_CODE, code), (Reg.BST_RESULT_ITEM, f.1), (Reg.BST_RESULT_INST, f.2),
      (if aborted then Reg.BST_EVENT_ABORT else Reg.BST_EVENT_END, 1)]).log (if aborted then 0x0303 else 0x0302) r.source 0x3FF
      (r.kind + code * 256)).runStatus

/-- The run of an admin path's controller ends with result 2h when that controller is reset (R482). -/
def State.endRunOf (s : State) (path : Nat) : State :=
  match s.mgmt.run with
  | some r => if r.source == path then s.endRun 2 else s
  | none => s

/-! ### Failures (R483) -/

/-- The outcome of a second failure. A column repair burns the failing column, which the item's instance does not name here: a
free value (assumption log 7). -/
def State.itemFailed (s : State) (item inst : Nat) : State :=
  match item with
  | 1 =>
    let c := inst / 8 % 3
    if s.flag (Reg.PMC_DOM_RETIRE (6 + c)) then s
    else (((s.retireDomain (Fin.ofNat 24 (6 + c))).setCluster c false).retireRecord 6 0x09 c 0).captureTele
  | 2 => if inst < 32 then s.removeDecoder false inst else s.removeDecoder true (inst - 32)
  | 3 => if s.fld (Reg.FCE_STATUS_STATE inst) = 2 && !(s.chan inst).stopped then s.retrain inst (s.rung inst) false else s
  | 4 | 7 => s.permanentFault
  | 5 =>
    if s.fld (Reg.OCM_BANK_SPARES inst) = 0 then s.disableBank inst
    else if s.flag Reg.OCM_REPAIR_STATUS_BUSY then s
    else
      let col := Config.freeNat s.free % 2 ^ Reg.OCM_REPAIR_COLUMN.width
      ((s.tookFree.setFlds [(Reg.OCM_REPAIR_BANK, inst), (Reg.OCM_REPAIR_COLUMN, col), (Reg.OCM_REPAIR_GO, 1),
        (Reg.OCM_REPAIR_STATUS_BUSY, 1), (Reg.OCM_REPAIR_STATUS_RESULT, 0)]).onMemory fun m => { m with burn := some ⟨inst, col⟩ })
  | 6 =>
    if inst < 2 then (s.onStore fun t => { t with slots := t.slots.setIfInBounds inst none }).log 0x0704 0 0x3FF inst
    else s.onStore fun t => { t with ext := t.ext.setIfInBounds (inst - 2) true }
  | _ => s

/-- The kind of test that LID 0xC5 records: a shutdown's, one in service, a full one. -/
def SelfTestRun.testKind (r : SelfTestRun) : Nat := if r.kind = 5 then 1 else if r.kind = 4 then 3 else 2

/-- The LID 0xC5 record of a domain after a test of a run (R484): a slice's turns in service, those of R481 in a full form. -/
def State.domTested (s : State) (r : SelfTestRun) (item inst : Nat) (result len : Nat) : State :=
  let full := decide (4 ≤ r.kind)
  s.onMgmt fun m =>
    { m with domTest := vupd m.domTest (itemDomain item inst) fun d =>
        { d with ended := s.turn, duration := if full then fullTestTurns (itemDomain item inst) else len, cov1 := (itemCoverage item full).1, cov2 := (itemCoverage item full).2, result := result
                 kind := r.testKind, source := r.source
                 failures := if result = 2 then sat (2 ^ 32 - 1) (d.failures + 1) else d.failures
                 lastFail := if result = 2 then item + inst * 256 else d.lastFail } }

/-- A failure of an item: log, event 0xDB, LID 0xC5 and BST.EVENT; the first is run again, the second has its outcome. -/
def State.failItem (s : State) (r : SelfTestRun) (item inst dur : Nat) : State :=
  let s := ((((s.setFlds [(Reg.BST_EVENT_FAIL, 1), (Reg.BST_RESULT_ITEM, item), (Reg.BST_RESULT_INST, inst)]).log 0x0304 r.source 0x3FF
    (r.kind + 2 * 256 + item * 65536 + inst * 2 ^ 24)).raiseBoth 7 0xDB 0xC5)).domTested r item inst 2 dur
  if r.retry.contains (item, inst) then
    let s := s.onMgmt fun m =>
      { m with run := some { r with retry := r.retry.erase (item, inst), done := r.done + 1, failed := some (r.failed.getD (item, inst)) } }
    s.itemFailed item inst
  else s.onMgmt fun m => { m with run := some { r with retry := (item, inst) :: r.retry } }

/-! ### Slices (R479) -/

/-- What a slice books of its target, from the next turn on: the decoder's lease slots, the channel's plan layer, the forme
engine and XTS turns. -/
def sliceBookings (item inst : Nat) : List (Res × Nat) :=
  match item with
  | 2 => [if inst < 32 then (.hard, 2) else (.soft, 1)]
  | 3 => [(.chan inst, 1)]
  | 4 => [(.forme, 1), (.xts, 1)]
  | _ => []

/-- The slice's hold fits in free capacity: it never displaces an accepted plan. -/
def State.sliceFits (s : State) (item inst len : Nat) : Bool :=
  (sliceBookings item inst).all fun b =>
    match b.1 with
    | .chan _ => intervalFits s.turn s.sluice.bookings false [] b.1 (s.turn + 1) len
    | r => (List.range len).all fun i => decide (b.2 ≤ s.room s.sluice.bookings false [] r (s.turn + 1 + i))

/-- Slices are permitted now: items 1–6 in Service, Surge and Sealed (they pause in Conserve); items of full and shutdown runs
in Boot, Recovery and at shutdown. -/
def State.sliceAllowed (s : State) (r : SelfTestRun) (item : Nat) : Bool :=
  if 4 ≤ r.kind then s.bootMode || r.kind == 5
  else
    decide (item ≤ 6) && s.power.mode.carriesData && s.power.mode != .conserve &&
    decide (s.mgmt.rotSlices < (if r.kind = 1 then s.fld Reg.BST_CFG_SLICES_PER_ROT else 1024))

/-- One slice of a run. -/
def State.slice (s : State) (r : SelfTestRun) (item inst : Nat) (pass : Bool) : State :=
  let len := s.fld Reg.BST_CFG_SLICE_TURNS
  if !s.sliceAllowed r item || (decide (r.kind ≤ 3) && !s.sliceFits item inst len) then s
  else
    let id := s.sluice.nextPlan
    let bs : List Booking := if r.kind ≤ 3 then (sliceBookings item inst).map fun b => { res := b.1, start := s.turn + 1, len := len, amt := b.2, plan := id }
      else []
    let s := s.onSluice fun x => { x with bookings := bs ++ x.bookings, nextPlan := if bs.isEmpty then x.nextPlan else id + 1 }
    let s := s.onMgmt fun m => { m with slices := sat (2 ^ 32 - 1) (m.slices + 1), rotSlices := m.rotSlices + 1 }
    let s :=
      if pass then
        (s.onMgmt fun m => { m with run := some { r with done := r.done + 1, retry := r.retry.erase (item, inst) } }).domTested r item inst 1 len
      else s.failItem r item inst len
    match s.mgmt.run with
    | some x => if x.total ≤ x.done then s.endRun (if x.failed.isSome then 7 else 0) else s.runStatus
    | none => s

/-- SELF_TEST_SLICE (R479): item 0 is one member block of the extended run's media part. -/
def execSelfTestSlice (item inst : Nat) (pass : Bool) (s : State) : Out :=
  .next (match s.mgmt.run with | some r => s.slice r item inst pass | none => s)

/-! ### BST.CTRL (R485) -/

/-- The word that a START writes. -/
def bstWord (kind source : Nat) : Word := BitVec.ofNat 32 (1 + kind * 2 + source * 16)

/-- A write of BST.CTRL with START: ignored while BUSY. -/
def State.bstStart (s : State) (client kind source : Nat) (i : Instr) : State :=
  s.setupWrite client Reg.BST_CTRL (bstWord kind source) i fun s =>
    let s := s.setFlds [(Reg.BST_CTRL_KIND, kind), (Reg.BST_CTRL_SOURCE, source)]
    if s.mgmt.run.isSome then s else s.startRun kind (source % 16) 0

/-- SELF_TEST_IN_SERVICE_PASS (R479): passes run while SERVICE_EN is 1. -/
def execSelfTestInServicePass (client source : Nat) (s : State) : Out :=
  .next (if s.flag Reg.BST_CFG_SERVICE_EN then s.bstStart client 1 source (.selfTestInServicePass client source)
    else s.setupWrite client Reg.BST_CTRL (bstWord 1 source) (.selfTestInServicePass client source) fun s =>
      s.setFlds [(Reg.BST_CTRL_KIND, 1), (Reg.BST_CTRL_SOURCE, source)])

/-- SELF_TEST_SHORT_RUN (R482). -/
def execSelfTestShortRun (client source : Nat) (s : State) : Out := .next (s.bstStart client 2 source (.selfTestShortRun client source))

/-- SELF_TEST_EXTENDED_RUN (R482). -/
def execSelfTestExtendedRun (client source : Nat) (s : State) : Out := .next (s.bstStart client 3 source (.selfTestExtendedRun client source))

/-- SELF_TEST_FULL_RUN (R481). -/
def execSelfTestFullRun (client source : Nat) (s : State) : Out := .next (s.bstStart client 4 source (.selfTestFullRun client source))

/-- SELF_TEST_SHUTDOWN_RUN (R480). -/
def execSelfTestShutdownRun (client source : Nat) (s : State) : Out := .next (s.bstStart client 5 source (.selfTestShutdownRun client source))

/-- SELF_TEST_ABORT (R485): the run ends with result 1h; ABORT reads 1 until it is taken, which is at once here. -/
def execSelfTestAbort (client : Nat) (s : State) : Out :=
  .next (s.setupWrite client Reg.BST_CTRL 0x100 (.selfTestAbort client) fun s => s.endRun 1)

/-! ### Device Self-test (R482) -/

/-- Start a run by Device Self-test. -/
def State.deviceTest (s : State) (a : Adm) (kind nsid : Nat) : State :=
  if s.mgmt.run.isSome then s.reply a St.selfTestInProgress []
  else (s.startRun kind a.path nsid).reply a St.ok []

/-- STC 1h. -/
def State.testShort (s : State) (a : Adm) (nsid : Nat) : State := s.deviceTest a 2 nsid

/-- STC 2h. -/
def State.testExtended (s : State) (a : Adm) (nsid : Nat) : State := s.deviceTest a 3 nsid

/-- STC Eh: only in Recovery. -/
def State.testFull (s : State) (a : Adm) (nsid : Nat) : State :=
  if s.power.mode == .recovery then s.deviceTest a 4 nsid else s.reply a St.invalidField []

/-- STC Fh. -/
def State.testAbort (s : State) (a : Adm) : State := (s.endRun 1).reply a St.ok []

def execDeviceSelfTestShort (a : Adm) (nsid : Nat) (s : State) : Out := .next (s.clusterAdmin a (.deviceSelfTestShort a nsid) fun s => s.testShort a nsid)
def execDeviceSelfTestExtended (a : Adm) (nsid : Nat) (s : State) : Out := .next (s.clusterAdmin a (.deviceSelfTestExtended a nsid) fun s => s.testExtended a nsid)
def execDeviceSelfTestFull (a : Adm) (nsid : Nat) (s : State) : Out := .next (s.clusterAdmin a (.deviceSelfTestFull a nsid) fun s => s.testFull a nsid)
def execDeviceSelfTestAbort (a : Adm) (s : State) : Out := .next (s.clusterAdmin a (.deviceSelfTestAbort a) fun s => s.testAbort a)

/-- A self-test code that is none of these. -/
def State.selfTest (s : State) (a : Adm) (stc nsid : Nat) : State :=
  match stc with
  | 1 => s.testShort a nsid
  | 2 => s.testExtended a nsid
  | 0xE => s.testFull a nsid
  | 0xF => s.testAbort a
  | _ => s.reply a St.invalidField []

end Sys2Proof.Machine
end

