-- ==== Sys2Proof/Machine/Rider.lean ====
section
/-! DEFINITION. The rider's peripherals and its restarts (R35, R463–R465, R486, R499): gauges and their FIFO, UART, MCTP
FIFOs, doorbells, watchdogs. -/

namespace Sys2Proof.Machine

/-- A setup read by a client: the block's domain gates it (R497). -/
def State.setupRead (s : State) (client a : Nat) (i : Instr) (k : State → State) : State :=
  s.gate (blockDomain a) client (0x20000000 + a) false i k

def State.answerWith (s : State) (client v : Nat) : State := { s with answer := some (.value client v) }

/-! ### Gauges (R463–R465) -/

/-- The SAMPLE register of a gauge. -/
def sampleAddr (k : Nat) : Nat := Reg.GAU_SAMPLE_T k

def gaugeFault (k : Nat) : Fld := ⟨sampleAddr k, 30, 1⟩
def gaugeValid (k : Nat) : Fld := ⟨sampleAddr k, 31, 1⟩

/-- The gauge that the edition assigns to a channel group, or RDg where it is connected (R464). -/
def State.groupGauge (s : State) (g : Nat) : Option Nat :=
  match s.mgmt.current.thermal with
  | some l => some (l.getD g 0)
  | none => if s.fld Reg.GAU_CFG_RD_PRESENT / 2 ^ g % 2 = 1 then some (16 + g) else none

/-- A gauge is assigned to a channel group. -/
def State.isAssigned (s : State) (k : Nat) : Bool := (List.range 8).any fun g => s.groupGauge g == some k

/-- Push a sample's entry into the FIFO of 512 entries (R465). -/
def State.pushSample (s : State) (k : Nat) : State :=
  if !s.flag Reg.GAU_CFG_FIFO_EN then s
  else if 1024 < s.mgmt.gaugeFifo.length + 2 then s.setFlds [(Reg.GAU_FIFO_STATUS_OVERFLOW, 1), (Reg.GAU_EVENT_FIFO_OVF, 1)]
  else
    let head := BitVec.ofNat 32 (k + s.turn % 2 ^ 27 * 32)
    let w := s.word (sampleAddr k)
    s.onMgmt fun m => { m with gaugeFifo := m.gaugeFifo ++ [head, w] }

/-- A gauge enters FAULT: its event; an assigned gauge's is logged and reported (R464). -/
def State.gaugeFaulted (s : State) (k : Nat) : State :=
  if s.flag (gaugeFault k) then s.setFld (gaugeValid k) 1
  else
    let s := s.setFlds [(gaugeFault k, 1), (gaugeValid k, 1), (Reg.GAU_EVENT_FAULT, 1)]
    if s.isAssigned k then (s.log 0x0B01 0 0x3FF k).raiseBoth 7 0xDC 0x07 else s

/-- A junction sample that reaches T_HOT sets its event. -/
def State.tjHot (s : State) (k : Nat) : State :=
  if k < 16 && decide ((s.fld Reg.PMC_THERM_CFG_T_HOT + 64) * 4 ≤ s.fld (Reg.GAU_SAMPLE_T_TEMP k)) then s.setFld Reg.GAU_EVENT_TJ_HOT 1 else s

/-- GAUGE_SAMPLE (R463). Samples are lost while the rider restarts (R35). -/
def execGaugeSample (k : Fin 30) (v : GaugeReading) (s : State) : Out :=
  .next (if s.restarting || s.power.mode == .off then s
    else
      match v with
      | .temp c =>
        if 24 ≤ k.val then s
        else (((s.setFlds [(Reg.GAU_SAMPLE_T_TEMP k, c.toNat), (gaugeFault k, 0), (gaugeValid k, 1)]).tjHot k).pushSample k)
      | .rail mv cur =>
        if k.val < 24 then s
        else
          let r := k.val - 24
          (s.setFlds [(Reg.GAU_SAMPLE_R_MV r, mv.toNat), (Reg.GAU_SAMPLE_R_CURRENT r, cur.toNat), (gaugeFault k, 0),
            (gaugeValid k, 1)]).pushSample k
      | .fault => (s.gaugeFaulted k).pushSample k)

/-- The energy of the six rails in a turn, added up (R463). -/
def State.energyTurn (s : State) : State :=
  let e := (List.range 6).foldl (fun n r =>
    if s.flag (gaugeFault (24 + r)) then n else n + s.fld (Reg.GAU_SAMPLE_R_MV r) * s.fld (Reg.GAU_SAMPLE_R_CURRENT r)) 0
  s.onMgmt fun m => { m with energy := m.energy + e }

/-- GAU.ENERGY in µJ: 1 mV × 10 mA over a turn of 1.024 µs is 1.024 × 10^−5 µJ. -/
def State.energyUj (s : State) : Nat := s.mgmt.energy * 1024 / 100000000

/-- GAUGE_FIFO_POP (R465): an empty FIFO's word is not stated, so it is a free value (assumption log 7). -/
def execGaugeFifoPop (client : Nat) (s : State) : Out :=
  .next (s.setupRead client Reg.GAU_FIFO (.gaugeFifoPop client) fun s =>
    match s.mgmt.gaugeFifo with
    | w :: t => (s.onMgmt fun m => { m with gaugeFifo := t }).answerWith client w.toNat
    | [] => s.tookFree.answerWith client ((Config.freeWord s.free).toNat % 2 ^ 32))

/-! ### Doorbells (R486) -/

/-- RIDER_DOORBELL_SET. -/
def execRiderDoorbellSet (client : Nat) (bits : Word) (s : State) : Out :=
  .next (s.setupWrite client Reg.MBX_RDB_SET bits (.riderDoorbellSet client bits) fun s => s.setWord Reg.MBX_RDB (s.word Reg.MBX_RDB ||| bits))

/-- CLUSTER_DOORBELL_SET. -/
def execClusterDoorbellSet (client : Nat) (cluster : Fin 3) (bits : Word) (s : State) : Out :=
  .next (s.setupWrite client (Reg.MBX_CDB_SET cluster) bits (.clusterDoorbellSet client cluster bits) fun s =>
    s.setWord (Reg.MBX_CDB cluster) (s.word (Reg.MBX_CDB cluster) ||| bits))

/-! ### UART (R486) -/

/-- UART_DATA_READ: an empty FIFO's byte is not stated: a free value. -/
def execUartDataRead (client : Nat) (s : State) : Out :=
  .next (s.setupRead client Reg.MBX_UART_DATA (.uartDataRead client) fun s =>
    match s.mgmt.uartRx with
    | b :: t => (s.onMgmt fun m => { m with uartRx := t }).answerWith client b.toNat
    | [] => s.tookFree.answerWith client ((Config.freeWord s.free).toNat % 256))

/-- UART_DATA_WRITE: a byte that finds the FIFO of 32 bytes full is lost (the spec states no effect). -/
def execUartDataWrite (client : Nat) (byte : Byte) (s : State) : Out :=
  .next (s.setupWrite client Reg.MBX_UART_DATA (byte.setWidth 32) (.uartDataWrite client byte) fun s =>
    s.onMgmt fun m =>
      if 32 ≤ m.uartTx.length then m
      else { m with uartTx := m.uartTx ++ [byte], uartFrom := if m.uartTx.isEmpty then s.turn else m.uartFrom })

/-- UART_BYTE_RECEIVED. -/
def execUartByteReceived (byte : Byte) (frameErr : Bool) (s : State) : Out :=
  .next (if !s.flag Reg.MBX_UART_CFG_EN || !s.isOn 1 then s
    else if frameErr then s.setFld Reg.MBX_UART_STATUS_FRAME_ERR 1
    else if 32 ≤ s.mgmt.uartRx.length then s.setFld Reg.MBX_UART_STATUS_OVERRUN 1
    else s.onMgmt fun m => { m with uartRx := m.uartRx ++ [byte] })

/-- Bytes leave the transmit FIFO at the port's rate: 10 bits of 16 × (DIV + 1) cycles at 500 MHz, 512 cycles to a turn. -/
def State.uartTurn (s : State) : State :=
  if s.mgmt.uartTx.isEmpty || !s.flag Reg.MBX_UART_CFG_EN then s
  else
    let n := (s.turn + 1 - s.mgmt.uartFrom) * 512 / (160 * (s.fld Reg.MBX_UART_CFG_DIV + 1))
    if n = 0 then s else s.onMgmt fun m => { m with uartTx := m.uartTx.drop n, uartFrom := s.turn + 1 }

/-! ### MCTP (R486) -/

/-- A packet as it lies in a FIFO: its length in a 32-bit word, and its bytes padded to 4. -/
def mctpEntry (b : Bytes) : Bytes := leBytes 4 b.length ++ padTo ((b.length + 3) / 4 * 4) b

def State.onMctp (s : State) (p : Fin 3) (f : MctpPort → MctpPort) : State := s.onMgmt fun m => { m with mctp := vupd m.mctp p f }

/-- MCTP_PACKET_RECEIVED. -/
def execMctpPacketReceived (p : Fin 3) (packet : Bytes) (s : State) : Out :=
  .next (if !s.flag (Reg.MBX_MCTP_CFG_EN p) || !s.isOn 1 then s
    else if 1024 < s.mgmt.mctp[p].rx.length + (mctpEntry packet).length then s.setFld (Reg.MBX_MCTP_STATUS_RX_OVERFLOW p) 1
    else s.onMctp p fun m => { m with rx := m.rx ++ mctpEntry packet })

/-- MCTP_RX_POP: 4 bytes; an empty FIFO's word is a free value. -/
def execMctpRxPop (client : Nat) (p : Fin 3) (s : State) : Out :=
  .next (s.setupRead client (Reg.MBX_MCTP_RX p) (.mctpRxPop client p) fun s =>
    let rx := s.mgmt.mctp[p].rx
    if rx.isEmpty then s.tookFree.answerWith client ((Config.freeWord s.free).toNat % 2 ^ 32)
    else (s.onMctp p fun m => { m with rx := m.rx.drop 4 }).answerWith client (leNat (rx.take 4)))

/-- MCTP_TX_PUSH: a word that finds no room is lost. -/
def execMctpTxPush (client : Nat) (p : Fin 3) (word : Word) (s : State) : Out :=
  .next (s.setupWrite client (Reg.MBX_MCTP_TX p) word (.mctpTxPush client p word) fun s =>
    s.onMctp p fun m => if 1024 < m.tx.length + 4 then m else { m with tx := m.tx ++ leBytes 4 word.toNat })

/-- A whole packet at the head of a transmit FIFO is sent in the turn (assumption log: bus time is not modelled). -/
def MctpPort.sent (m : MctpPort) : MctpPort :=
  let n := 4 + (leNat (m.tx.take 4) + 3) / 4 * 4
  if 4 ≤ m.tx.length && decide (n ≤ m.tx.length) then { m with tx := m.tx.drop n } else m

def State.mctpTurn (s : State) : State := s.onMgmt fun m => { m with mctp := m.mctp.map MctpPort.sent }

/-! ### Restarts and watchdogs (R35, R408, R499) -/

/-- A watchdog or rider reset reaches the store: a program completes, an erase stops with its flag set, a sequence is
discarded (R408). -/
def State.storeReset (s : State) : State :=
  let one (s : State) (b : Fin 2) : State :=
    let k := s.bank b
    let s := match k.prog with
      | some p => s.onStore fun t => { t with pages := kput p.page (programmedPage (t.page p.page) p.data) t.pages }
      | none => s
    (s.onBank b fun k => { k with prog := none, erase := none, held := false, blank := none }).setFld (Reg.FWS_BANK_STATE b) 0
  (one (one s 0) 1).fwsLock

/-- Clients that start again from another memory than the store have no fetch recorded (R406). -/
def State.forgetFetch (s : State) (p : Nat → Bool) : State :=
  s.onStore fun t => { t with fetchBank := t.fetchBank.filter fun x => !p x.1 }

/-- The rider restarts within one rotation, with the log entry and event (R35, Table 14.6): it stays in restart for 2^20 turns from the
mismatch (DESIGN CHOICE, assumption log 182). In Recovery it runs from the store again. -/
def State.restartRider (s : State) : State :=
  let s := if s.power.mode == .recovery then s else s.forgetFetch (· == 0x60)
  ((s.onMgmt fun m => { m with restartUntil := some (s.turn + 2 ^ 20) }).log 0x0B02 0 0x3FF 0).raiseBoth 7 0xDC 0x07

/-- RIDER_LOCKSTEP_MISMATCH (R35). -/
def execRiderLockstepMismatch (s : State) : Out := .next (if s.power.mode == .off then s else s.storeReset.restartRider)

/-- Discard the download buffer and a stream (R416, R417). -/
def State.dropDownload (s : State) : State := s.onStore fun t => { t with buffer := none, stream := none }

/-- RIDER_WATCHDOG_RESET (R499, R408, R416). -/
def execRiderWatchdogReset (s : State) : Out := .next (if s.power.mode == .off then s else s.storeReset.dropDownload.restartRider)

/-- CLUSTER_WATCHDOG_RESET (R499): the cores restart; registers and bank states are kept, reservations of the cores go. -/
def execClusterWatchdogReset (cluster : Fin 3) (s : State) : Out :=
  .next (if s.isDead (Fin.ofNat 24 (6 + cluster.val)) || !s.isOn (Fin.ofNat 24 (6 + cluster.val)) then s
    else
      (s.storeReset.dropDownload.forgetFetch fun c => c < 24 && c / 8 == cluster.val).onMemory fun m => { m with reserved := m.reserved.filter fun r => r.1 / 8 != cluster.val })

end Sys2Proof.Machine
end

