-- ==== Sys2Proof/Machine/Features.lean ====
section
/-! DEFINITION. Set and Get Features (chapter 2, R69, R78–R80; R82–R84, R200, R255). -/

namespace Sys2Proof.Machine

/-- The controller that an admin command acts on: its own, or controller 0 from a management path, which names none here. -/
def admOwner (path : Nat) : Fin 2 := (admCtrl path).getD 0

/-- The key of a saved feature of a controller. -/
def savedKey (c : Fin 2) (fid : Nat) : Nat := c.val * 2 ^ 32 + fid

/-- The key under which the 256 bytes of the Autonomous Power State Transition table of FID 0Ch are kept. -/
def apstKey : Nat := 0x0C0000

/-- The headgate executes FID 0xC0–0xC2, a cluster the others (Table 02.6). -/
def State.featureAdmin (s : State) (a : Adm) (fid : Nat) (i : Instr) (k : State → State) : State :=
  if fid = 0xC0 ∨ fid = 0xC1 ∨ fid = 0xC2 then s.admin a k else s.clusterAdmin a i k

/-- A feature takes a value, and is saved where SV says so. -/
def State.putFeature (s : State) (c : Fin 2) (fid v : Nat) (sv : Bool) : State :=
  let s := s.onCtl c fun x => { x with features := kput fid v x.features }
  if sv then s.onNv fun n => { n with features := kput (savedKey c fid) v n.features } else s

/-! ### The Twiot features (Table 02.14) -/

/-- FID 0xC0: the level, while the controller has no I/O SQ (R79). Below level 3 its floor masks are cleared (R439). -/
def State.setLevel (s : State) (a : Adm) (sv : Bool) (w : Word) : State :=
  let c := admOwner a.path
  let l := bitsOf w 0 2
  if sv then s.reply a St.notSaveable []
  else if !(s.ctl c).sqs.isEmpty then s.reply a St.sequence []
  else
    let s := s.setFld (if c = 0 then Reg.HGT_LEVEL_C0_LEVEL else Reg.HGT_LEVEL_C1_LEVEL) l
    let s := if l < 3 then s.onPower fun p => { p with floorMask := vupd p.floorMask c fun _ => Vector.replicate 8 0 } else s
    s.reply a St.ok []

/-- FID 0xC1: an SQ's class (R80). -/
def State.setClass (s : State) (a : Adm) (sv : Bool) (w : Word) : State :=
  let c := admOwner a.path
  let q := bitsOf w 0 16
  if s.level c < 1 then s.reply a St.invalidField []
  else if sv then s.reply a St.notSaveable []
  else if q = 0 || (s.sq c q).isNone then s.reply a St.invalidQueue []
  else (s.onSq c q fun x => { x with cls := if bitsOf w 31 1 = 1 then bitsOf w 16 3 else 7 }).reply a St.ok []

/-- An SQ has an outstanding command: visible and not fetched, or in a context. -/
def State.sqBusy (s : State) (c : Fin 2) (q : Sq) : Bool :=
  !q.visible.isEmpty || s.host.cmds.any fun k => k.ref.ctrl == c && k.ref.sqid == q.qid

/-- FID 0xC2: an SQ's ordering mode (R73). -/
def State.setOrdered (s : State) (a : Adm) (sv : Bool) (w : Word) : State :=
  let c := admOwner a.path
  let qid := bitsOf w 0 16
  if s.level c < 2 then s.reply a St.invalidField []
  else if sv then s.reply a St.notSaveable []
  else
    match (if qid = 0 then none else s.sq c qid) with
    | none => s.reply a St.invalidQueue []
    | some q =>
      if s.sqBusy c q then s.reply a St.sequence []
      else (s.onSq c qid fun x => { x with ordered := bitsOf w 16 1 == 1 }).reply a St.ok []

/-- The retired domains of a mask. -/
def State.deadMask (s : State) (mask : Nat) : Nat :=
  (List.range 24).foldl (fun m n => if mask / 2 ^ n % 2 = 1 ∧ s.isDead (Fin.ofNat 24 n) then m + 2 ^ n else m) 0

/-- FID 0xC3: a class's keep-awake floor (R439). -/
def State.setFloor (s : State) (a : Adm) (sv : Bool) (w11 w12 : Word) : State :=
  let c := admOwner a.path
  let mask := w12.toNat
  if s.level c < 3 then s.reply a St.invalidField []
  else if sv then s.reply a St.notSaveable []
  else if mask % 2 = 1 || 2 ^ 24 ≤ mask then s.reply a St.invalidField []
  else if s.deadMask mask ≠ 0 then s.reply a (St.domainRetired (s.deadMask mask)) []
  else
    let k : Fin 8 := Fin.ofNat 8 (bitsOf w11 0 3)
    (s.onPower fun p => { p with floorMask := vupd p.floorMask c fun v => v.set k mask }).reply a St.ok []

/-- SET_TWIOT_LEVEL (R79). -/
def execSetTwiotLevel (a : Adm) (sv : Bool) (cdw11 : Word) (s : State) : Out := .next (s.admin a fun s => s.setLevel a sv cdw11)
/-- CLASS_BINDING (R80). -/
def execClassBinding (a : Adm) (sv : Bool) (cdw11 : Word) (s : State) : Out := .next (s.admin a fun s => s.setClass a sv cdw11)
/-- ORDERING_MODE (R73). -/
def execOrderingMode (a : Adm) (sv : Bool) (cdw11 : Word) (s : State) : Out := .next (s.admin a fun s => s.setOrdered a sv cdw11)
/-- KEEP_AWAKE_FLOOR (R80). -/
def execKeepAwakeFloor (a : Adm) (sv : Bool) (cdw11 cdw12 : Word) (s : State) : Out :=
  .next (s.clusterAdmin a (.keepAwakeFloor a sv cdw11 cdw12) fun s => s.setFloor a sv cdw11 cdw12)

/-! ### Power state and timestamp -/

/-- FID 02h (R83, R432, R533). -/
def State.setPower (s : State) (a : Adm) (sv : Bool) (ps : Nat) : State :=
  let c := admOwner a.path
  let s := if sv && ps ≤ 4 then s.onNv fun n => { n with features := kput (savedKey c 0x02) ps n.features } else s
  s.selectPower c ps a

/-- POWER_MANAGEMENT. -/
def execPowerManagement (a : Adm) (sv : Bool) (ps : Nat) (s : State) : Out := .next (s.clusterAdmin a (.powerManagement a sv ps) fun s => s.setPower a sv ps)

/-- The Dellux advance of the first Timestamp after Boot (R255): the wall time since the last saved timestamp less the time
powered, in rotations of 1,073.741824 ms. -/
def State.dlxAdvance (s : State) (ms : Nat) : Nat :=
  if s.nv.timeSaved = 0 then 0 else (ms * 1000000 - s.nv.timeSaved * 1000000 - s.turn * 1024) / 1073741824

/-- FID 0Eh. It is not saveable (Table 02.9). -/
def State.setTimestamp (s : State) (a : Adm) (sv : Bool) (ms : Nat) : State :=
  if sv then s.reply a St.notSaveable []
  else
    let first := s.mgmt.timestamp.isNone && !s.flash.dlxTaken
    let s := s.onMgmt fun m => { m with timestamp := some (ms % 2 ^ 48, s.turn) }
    let adv := s.dlxAdvance (ms % 2 ^ 48)
    let s := if first && 0 < adv then s.onFlash fun x => { x with dlxTaken := true, dlxAdd := x.dlxAdd + adv } else s
    s.reply a St.ok []

/-- TIMESTAMP. -/
def execTimestamp (a : Adm) (sv : Bool) (ms : Nat) (s : State) : Out := .next (s.clusterAdmin a (.timestamp a sv ms) fun s => s.setTimestamp a sv ms)

/-- An autonomous transition is enabled for some controller (FID 0Ch). -/
def State.refreshApst (s : State) : State :=
  s.onPower fun p => { p with apstOn := s.feature 0 0x0C % 2 == 1 || s.feature 1 0x0C % 2 == 1 }

/-! ### Set Features (R69) -/

def State.setFeature (s : State) (a : Adm) (fid : Nat) (sv : Bool) (w11 w12 : Word) (data : Bytes) : State :=
  let c := admOwner a.path
  let v := w11.toNat
  let plain (key : Nat) : State := (s.putFeature c key v sv).reply a St.ok []
  match fid with
  | 0xC0 => s.setLevel a sv w11
  | 0xC1 => s.setClass a sv w11
  | 0xC2 => s.setOrdered a sv w11
  | 0xC3 => s.setFloor a sv w11 w12
  | 0x02 => s.setPower a sv (bitsOf w11 0 5)
  | 0x0E => s.setTimestamp a sv (v + w12.toNat * 2 ^ 32)
  | 0x01 | 0x05 => if sv then s.reply a St.notSaveable [] else plain fid
  | 0x07 =>
    if sv then s.reply a St.notSaveable []
    else if bitsOf w11 0 16 = 0xFFFF || bitsOf w11 16 16 = 0xFFFF then s.reply a St.invalidField []
    else s.reply a (St.done 0x1FFF1FFF) []
  | 0x09 =>
    if sv then s.reply a St.notSaveable []
    else if 8192 ≤ bitsOf w11 0 16 then s.reply a St.invalidField []
    else plain (0x0900 + bitsOf w11 0 16)
  | 0x04 => plain (0x040000 + bitsOf w11 16 6)
  | 0x08 | 0x0B => plain fid
  | 0x0C => ((s.putFeature c fid v sv).putFeature c apstKey (leNat (data.take 256)) sv).refreshApst.reply a St.ok []
  | 0x1D =>
    if !s.nv.namespaces.isEmpty then s.reply a St.sequence []
    else ((s.putFeature c fid v sv).onNv fun n => { n with fdp := bitsOf w12 0 1 == 1 }).reply a St.ok []
  | _ => s.reply a St.invalidField []

/-- SET_FEATURES (R69). -/
def execSetFeatures (a : Adm) (fid : Nat) (sv : Bool) (cdw11 : Word) (cdw12 : FeatureRest) (s : State) : Out :=
  .next (s.featureAdmin a fid (.setFeatures a fid sv cdw11 cdw12) fun s => s.setFeature a fid sv cdw11 cdw12.cdw12 cdw12.data)

/-! ### Get Features (R69) -/

/-- The bytes that Get Features of FID 0Eh returns: the host timestamp in 6 bytes, and its origin. -/
def State.timestampData (s : State) : Bytes :=
  leBytes 6 s.timeMs ++ [if s.mgmt.timestamp.isSome then (2 : Byte) else 0, 0]

/-- The over-temperature threshold's default is WCTEMP (R452). -/
def State.tempThreshold (s : State) (c : Fin 2) (sel : Nat) : Nat :=
  match klook (0x040000 + sel) (s.ctl c).features with
  | some v => v % 65536
  | none => if sel = 0 then s.fld Reg.PMC_THERM_CFG_T_HOT + 273 else 0

def State.getFeature (s : State) (a : Adm) (fid : Nat) (w : Word) : State :=
  let c := admOwner a.path
  let ok (v : Nat) : State := s.reply a (St.done v) []
  match fid with
  | 0xC0 => ok (s.level c + 3 * 256)
  | 0xC1 =>
    if s.level c < 1 then s.reply a St.invalidField []
    else
      match (if bitsOf w 0 16 = 0 then none else s.sq c (bitsOf w 0 16)) with
      | some q => ok q.cls
      | none => s.reply a St.invalidQueue []
  | 0xC2 =>
    if s.level c < 2 then s.reply a St.invalidField []
    else
      match (if bitsOf w 0 16 = 0 then none else s.sq c (bitsOf w 0 16)) with
      | some q => ok q.ordered.toNat
      | none => s.reply a St.invalidQueue []
  | 0xC3 => if s.level c < 3 then s.reply a St.invalidField [] else ok ((s.power.floorMask[c]).toList.getD (bitsOf w 0 3) 0)
  | 0x02 => ok (s.fld Reg.PMC_PS_PS)
  | 0x04 => ok (s.tempThreshold c (bitsOf w 16 6))
  | 0x07 => ok 0x1FFF1FFF
  | 0x09 => if 8192 ≤ bitsOf w 0 16 then s.reply a St.invalidField []
    else ok (bitsOf w 0 16 + natBits (s.feature c (0x0900 + bitsOf w 0 16)) 16 1 * 65536)
  | 0x0C => s.reply a (St.done (s.feature c 0x0C)) [leBytes 256 (s.feature c apstKey)]
  | 0x0E => s.reply a St.ok [s.timestampData]
  | 0x1D => ok s.nv.fdp.toNat
  | 0x01 | 0x05 | 0x08 | 0x0B => ok (s.feature c fid)
  | _ => s.reply a St.invalidField []

/-- GET_FEATURES (R69). -/
def execGetFeatures (a : Adm) (fid : Nat) (cdw11 : Word) (s : State) : Out := .next (s.featureAdmin a fid (.getFeatures a fid cdw11) fun s => s.getFeature a fid cdw11)

end Sys2Proof.Machine
end

