-- ==== Sys2Proof/Machine/Namespaces.lean ====
section
/-! DEFINITION. Namespaces and the erase operations (R54, R62, R177, R292, R297, R298), directives, Culvert Rebuild Status and
unsupported admin commands. -/

namespace Sys2Proof.Machine

/-! ### Namespace sizes (R177, R292) -/

/-- Units of 16 KiB of n blocks. -/
def unitsOf (nsze lbaf : Nat) : Nat := cdiv (nsze * blockBytes lbaf) 16384

/-- Data granules of a size. -/
def dataGransOf (nsze lbaf : Nat) : Nat := cdiv (unitsOf nsze lbaf) 65536

/-- Metadata of one data unit, in bytes (R292). -/
def unitMd (lbaf : Nat) : Nat := match lbaf with | 1 | 4 => 256 | 3 => 32 | _ => 0

/-- All granules of a namespace: its data granules, then its metadata granules. -/
def gransOf (data lbaf : Nat) : Nat := data + cdiv (data * unitMd lbaf) 16384

/-- An LBA format and its protection information are supported together (Table 02.8, R291). -/
def formatOk (lbaf pi : Nat) : Bool := decide (lbaf ≤ 4) && (pi == 0 || (decide (pi ≤ 3) && mdBytes lbaf != 0))

/-! ### The granule and namespace tables (R177) -/

/-- Granule-table indices that namespaces hold. -/
def State.tableUsed (s : State) (i : Nat) : Bool := s.nv.namespaces.any fun n => decide (n.gbase ≤ i) && decide (i < n.gbase + n.grans)

/-- A granule-table entry as the requests booked at the port leave it. -/
def State.tableEntry (s : State) (i : Nat) : Nat :=
  let booked (b : Nat × Nat × Nat × MapOp) : Option Nat := match b.2.2.2 with | .req 8 q => if q.target = i then some q.new else none | _ => none
  (s.galley.booked.reverse.findSome? booked).getD (s.peek (s.granAddr i) 4)

/-- Granule numbers that namespaces hold. -/
def State.granulesHeld (s : State) : List Nat :=
  s.nv.namespaces.flatMap fun n => (List.range n.grans).map fun i => s.tableEntry (n.gbase + i) % 2 ^ 18

/-- The first run of free indices. -/
def State.freeRun (s : State) (len : Nat) : Nat → Nat → Option Nat
  | 0, _ => none
  | fuel + 1, i =>
    if 262144 < i + len then none
    else if (List.range len).any fun k => s.tableUsed (i + k) then s.freeRun len fuel (i + 1)
    else some i

/-- Granules not allocated to a namespace (the Unallocated capacity). -/
def State.gransFree (s : State) : Nat := s.nv.grans - s.nv.namespaces.foldl (fun n x => n + x.grans) 0

/-- One TABLE_SET request of firmware, booked at the port (R203). -/
def State.setTable (s : State) (nst : Bool) (word i v : Nat) : State :=
  s.bookOp (.req 8 { target := i + (if nst then 2 ^ 32 + word * 2 ^ 33 else 0), new := v })

/-- Requests of firmware's own wait at the port. -/
def State.portBusy (s : State) : Bool := s.galley.booked.any fun b => b.2.1 == 0

/-- Write the granule entries of a run. -/
def State.setGranules (s : State) (base : Nat) : List Nat → State
  | [] => s
  | g :: t => (s.setTable false 0 base (g + 2 ^ 31)).setGranules (base + 1) t

/-- Clear the granule entries of a run. -/
def State.clearGranules (s : State) : Nat → Nat → State
  | _, 0 => s
  | base, n + 1 => (s.setTable false 0 base 0).clearGranules (base + 1) n

/-- Allocate the granules of a namespace and write its table entries; none where no run, or too little capacity, is free. -/
def State.allocate (s : State) (nsid grans : Nat) : Option (Nat × State) :=
  if s.gransFree < grans then none
  else
    match s.freeRun grans 262144 0 with
    | none => none
    | some base =>
      let held := s.granulesHeld
      let gs := ((List.range (s.nv.grans + held.length)).filter fun g => !held.contains g).take grans
      let s := s.setGranules base gs
      some (base, (s.setTable true 0 (nsid - 1) (base + 2 ^ 31)).setTable true 1 (nsid - 1) grans)

/-- Give back the granules of a namespace. -/
def State.release (s : State) (n : Namespace) : State :=
  ((s.clearGranules n.gbase n.grans).setTable true 0 (n.nsid - 1) 0).setTable true 1 (n.nsid - 1) 0

/-! ### Namespace Management and Attachment (R54, R177, R297) -/

/-- A change of a namespace is noted for the controllers that a mask names (LID 04h). -/
def State.noteChange (s : State) (nsid mask : Nat) : State :=
  (List.finRange 2).foldl (fun s (c : Fin 2) =>
    if mask / 2 ^ c.val % 2 = 1 then
      (s.onCtl c fun x => { x with changedNs := if x.changedNs.contains nsid then x.changedNs else x.changedNs ++ [nsid] }).raise c 2 0 0x04
    else s) s

/-- Create a namespace: whole granules, the lowest free NSID, and a fresh key pair. The command ends when the port has applied its table
entries. -/
def State.createNs (s : State) (a : Adm) (nsze lbaf : Nat) (extended : Bool) (pi : Nat) (piFirst zoned : Bool) (handles : List Nat) : State :=
  let data := dataGransOf nsze lbaf
  if nsze = 0 || 64 < handles.length || handles.any (fun h => decide (64 ≤ h)) then s.reply a St.invalidField []
  else if !formatOk lbaf pi then s.reply a St.invalidFormat []
  else
    match (List.range 256).find? fun i => (s.ns (i + 1)).isNone with
    | none => s.reply a St.nsidUnavailable []
    | some i =>
      match s.allocate (i + 1) (gransOf data lbaf) with
      | none => s.reply a St.insufficientCapacity []
      | some (base, s) =>
        let n : Namespace :=
          { nsid := i + 1, nsze := nsze, lbaf := lbaf, extended := extended, pi := pi, piFirst := piFirst, zoned := zoned
            handles := handles, dataGrans := data, gbase := base, grans := gransOf data lbaf, key := s.nv.nextKey }
        (s.onNv fun v => { v with namespaces := v.namespaces ++ [n], nextKey := v.nextKey + 1 }).onGalley fun g =>
          { g with creating := g.creating ++ [(a, i + 1)] }

/-- Creates whose table entries have taken effect complete. -/
def State.replyCreated (s : State) : State :=
  if s.galley.creating.isEmpty || s.portBusy then s
  else s.galley.creating.foldl (fun s x => s.reply x.1 (St.done x.2) []) (s.onGalley fun g => { g with creating := [] })

/-- Change one namespace. -/
def State.onNs (s : State) (nsid : Nat) (f : Namespace → Namespace) : State :=
  s.onNv fun v => { v with namespaces := updIf (fun n => n.nsid == nsid) f v.namespaces }

/-- Delete namespaces: they are detached at once and their keys leave the table; the command ends when their units are
deallocated and their granules freed. -/
def State.deleteNs (s : State) (a : Adm) (nsid : Nat) : State :=
  let ids := if nsid = 0xFFFFFFFF then s.nv.namespaces.map (·.nsid) else [nsid]
  if nsid != 0xFFFFFFFF && (s.ns nsid).isNone then s.reply a St.invalidNamespace []
  else
    match s.galley.wipe with
    | some w => s.reply a (if w.kind = 0 ∨ w.kind = 3 then St.formatInProgress else St.sanitizeInProgress) []
    | none =>
      let s := ids.foldl (fun s i => match s.ns i with | some n => s.noteChange i n.attached | none => s) s
      let s := ids.foldl (fun s i => s.onNs i fun n => { n with attached := 0, key := 0 }) s
      s.onGalley fun g => { g with wipe := some { adm := some a, kind := 3, nsids := ids, rekey := false } }

/-- NAMESPACE_MANAGEMENT (R177). -/
def State.manageNs (s : State) (a : Adm) : NsMgmt → State
  | .create nsze lbaf extended pi piFirst zoned handles => s.createNs a nsze lbaf extended pi piFirst zoned handles
  | .delete nsid => s.deleteNs a nsid

def execNamespaceManagement (a : Adm) (sel : NsMgmt) (s : State) : Out :=
  .next (s.clusterAdmin a (.namespaceManagement a sel) fun s => s.manageNs a sel)

/-- NAMESPACE_ATTACHMENT (R54): `ctrls` is the controller list as a mask. -/
def State.attachNs (s : State) (a : Adm) (nsid ctrls : Nat) (attach : Bool) : State :=
  match s.ns nsid with
  | none => s.reply a St.invalidNamespace []
  | some n =>
    if ctrls = 0 || 3 < ctrls then s.reply a St.invalidControllers []
    else if attach then
      if n.attached &&& ctrls ≠ 0 then s.reply a St.alreadyAttached []
      else ((s.onNs nsid fun n => { n with attached := n.attached ||| ctrls }).noteChange nsid ctrls).reply a St.ok []
    else if n.attached &&& ctrls ≠ ctrls then s.reply a St.notAttached []
    else ((s.onNs nsid fun n => { n with attached := n.attached - ctrls }).noteChange nsid ctrls).reply a St.ok []

def execNamespaceAttachment (a : Adm) (nsid ctrls : Nat) (attach : Bool) (s : State) : Out :=
  .next (s.clusterAdmin a (.namespaceAttachment a nsid ctrls attach) fun s => s.attachNs a nsid ctrls attach)

/-! ### Format NVM and Sanitize (R298) -/

/-- Fetched commands on an affected namespace that are not accepted end with the operation's status. -/
def State.barCmds (s : State) (ids : List Nat) (st : Status) : State :=
  (s.host.cmds.filter fun c => ids.contains c.sqe.nsid && c.outcome.isNone && (c.phase == .fetched || c.phase == .held)).foldl
    (fun s c => s.settle c.ref st (s.turn + 1)) s

/-- Begin an erase operation: from here on its namespaces take no command; a self-test run ends with result 4h (R482). -/
def State.beginWipe (s : State) (a : Option Adm) (kind : Nat) (ids : List Nat) (rekey : Bool) (format : Option (Nat × Nat × Bool × Bool)) : State :=
  let s := ids.foldl (fun s i => s.onNs i fun n => { n with busy := if kind = 0 then 1 else 2 }) s
  let s := (s.barCmds ids (if kind = 0 then St.formatInProgress else St.sanitizeInProgress)).endRun 4
  s.onGalley fun g => { g with wipe := some { adm := a, kind := kind, nsids := ids, rekey := rekey, format := format } }

/-- The format that a Format gives fits the namespaces it names: metadata granules that a format adds are free. -/
def State.formatFits (s : State) (ids : List Nat) (lbaf : Nat) : Bool :=
  let need := ids.foldl (fun t i => match s.ns i with | some n => t + (gransOf n.dataGrans lbaf - n.grans) | none => t) 0
  decide (need ≤ s.gransFree)

def State.format (s : State) (a : Adm) (nsid ses lbaf pi : Nat) (extended piFirst : Bool) : State :=
  let ids := if nsid = 0xFFFFFFFF then s.nv.namespaces.map (·.nsid) else [nsid]
  if nsid != 0xFFFFFFFF && (s.ns nsid).isNone then s.reply a St.invalidNamespace []
  else if 2 < ses then s.reply a St.invalidField []
  else if !formatOk lbaf pi || !s.formatFits ids lbaf then s.reply a St.invalidFormat []
  else
    match s.galley.wipe with
    | some w => s.reply a (if w.kind = 0 ∨ w.kind = 3 then St.formatInProgress else St.sanitizeInProgress) []
    | none => s.beginWipe (some a) 0 ids (ses != 0) (some (lbaf, pi, extended, piFirst))

/-- FORMAT_NVM (R298). -/
def execFormatNvm (a : Adm) (nsid ses lbaf pi : Nat) (extended piFirst : Bool) (s : State) : Out :=
  .next (s.clusterAdmin a (.formatNvm a nsid ses lbaf pi extended piFirst) fun s => s.format a nsid ses lbaf pi extended piFirst)

/-- Sanitize: 1 crypto-erase, 2 block erase; NDAS ends with Invalid Field in Command. -/
def State.sanitize (s : State) (a : Adm) (kind : Nat) (ndas : Bool) : State :=
  if ndas then s.reply a St.invalidField []
  else
    match s.galley.wipe with
    | some w => s.reply a (if w.kind = 0 ∨ w.kind = 3 then St.formatInProgress else St.sanitizeInProgress) []
    | none =>
      (s.onNv fun n => { n with sanitize := 2, sanitizeAction := kind }).beginWipe (some a) kind (s.nv.namespaces.map (·.nsid)) true none

/-- SANITIZE_CRYPTO_ERASE (R298). -/
def execSanitizeCryptoErase (a : Adm) (ndas : Bool) (s : State) : Out :=
  .next (s.clusterAdmin a (.sanitizeCryptoErase a ndas) fun s => s.sanitize a 1 ndas)

/-- SANITIZE_BLOCK_ERASE (R298). -/
def execSanitizeBlockErase (a : Adm) (ndas : Bool) (s : State) : Out :=
  .next (s.clusterAdmin a (.sanitizeBlockErase a ndas) fun s => s.sanitize a 2 ndas)

/-! ### An erase operation, turn by turn (R298) -/

/-- Units of the operation's namespaces that are mapped or in the galley. -/
def State.wipeUnits (s : State) (ids : List Nat) : List Nat :=
  let mine (g : Nat) : Bool := match s.ownerOf g with | some x => ids.contains x.1.nsid | none => false
  (((s.tables.map.filter fun x => x.2 != 0).map (·.1)) ++ (s.galley.slots.filter fun x => x.2.state.landed).map (·.2.unit)).eraseDups.filter mine

/-- Deallocate one unit through the port. -/
def State.wipeUnit (s : State) (g : Nat) : State :=
  let s := match s.mapEntry g with | .overlay i => s.bookOp (.req 5 { target := i }) | _ => s
  s.bookOp (.req 3 { target := g, new := 0 })

/-- Install fresh keys at a turn edge; the old ones' records are erased. -/
def State.rekey (s : State) (ids : List Nat) : State :=
  ids.foldl (fun s i => (s.onNs i fun n => { n with key := s.nv.nextKey }).onNv fun v => { v with nextKey := v.nextKey + 1 }) s

/-- Turns of a map scan at 100 GB/s: 256 KiB for each granule. -/
def State.scanTurns (s : State) (ids : List Nat) : Nat :=
  cdiv ((s.nv.namespaces.filter fun n => ids.contains n.nsid).foldl (fun t n => t + n.grans * 262144) 0) 102400

/-- The member blocks that block erase covers. -/
def State.eraseAll (s : State) : List MBlock :=
  ((List.range 1024).filter s.dieCounts).flatMap fun d =>
    ((List.range (s.blocksOn (d / 16))).map fun b => (⟨d, b⟩ : MBlock)).filter fun m => !(s.blockInfo m.die m.block).gone

/-- Every member block is erased: forme-blocks and unplaced copies go, and each block waits for its erase. -/
def State.startErase (s : State) : State :=
  let l := s.eraseAll
  let s := s.dropPlans fun _ => true
  let s := l.foldl (fun s m => s.onBlock m.die m.block fun b => { b with free := false }) s
  let s := s.onFlash fun x => { x with formeBlocks := [], copies := [], eraseQueue := s.eraseOrder l }
  s.onGalley fun g => { g with wipe := g.wipe.map fun w => { w with erasing := some l } }

/-- The zones of a namespace are Empty. -/
def State.resetZones (s : State) (n : Namespace) : State :=
  (List.range n.dataGrans).foldl (fun s i =>
    let z := s.peek (s.granAddr (n.gbase + i)) 4 % 2 ^ 18
    if (klook z s.galley.zones).isNone then s
    else (s.bookOp (.zone z false 1)).bookOp (.zone z true 0)) s

/-- A namespace takes the format of a Format: its data granules stay, and metadata granules follow the format. -/
def State.reformat (s : State) (n : Namespace) (f : Nat × Nat × Bool × Bool) : State :=
  let grans := gransOf n.dataGrans f.1
  let new : Namespace := { n with nsze := n.nsze * blockBytes n.lbaf / blockBytes f.1, lbaf := f.1, pi := f.2.1, extended := f.2.2.1
                                  piFirst := f.2.2.2, grans := grans }
  let s :=
    if grans = n.grans then s.onNs n.nsid fun _ => new
    else
      let s := (s.release n).onNs n.nsid fun x => { x with grans := 0 }
      match s.allocate n.nsid grans with
      | some (base, s) => s.onNs n.nsid fun _ => { new with gbase := base }
      | none => s
  s.noteChange n.nsid n.attached

/-- The operation's last updates go to the port: zones, and the tables of a deletion or a new format. -/
def State.closeWipe (s : State) (w : Wipe) : State :=
  let hit := s.nv.namespaces.filter fun n => w.nsids.contains n.nsid
  let s := hit.foldl State.resetZones s
  let s :=
    if w.kind = 3 then hit.foldl State.release s
    else match w.format with | some f => hit.foldl (fun s n => s.reformat n f) s | none => s
  s.onGalley fun g => { g with wipe := some { w with closing := true } }

/-- The operation ends: its namespaces take commands again or are gone, and its command completes. -/
def State.endWipe (s : State) (w : Wipe) : State :=
  let s :=
    if w.kind = 3 then s.onNv fun v => { v with namespaces := v.namespaces.filter fun n => !w.nsids.contains n.nsid }
    else
      let s := if w.format.isSome then s
        else (s.onGalley fun g => { g with slots := g.slots.filter fun x => !x.2.pins.isEmpty || x.2.inFlight }).onNv fun v =>
          { v with sanitize := 1, image := none }
      w.nsids.foldl (fun s i => s.onNs i fun n => { n with busy := 0 }) s
  let s := s.onGalley fun g => { g with wipe := none }
  match w.adm with
  | some a => s.reply a St.ok []
  | none => s

/-- Plans accepted before the operation that still run on its namespaces. -/
def State.wipeWaits (s : State) (w : Wipe) : Bool :=
  s.host.cmds.any fun c => w.nsids.contains c.sqe.nsid && (c.phase == .accepted || c.phase == .started)

/-- One turn of the operation: it waits for the accepted plans, installs keys, scans the map, deallocates up to 256 units, and for
block erase waits for the erases. -/
def State.wipeTurn (s : State) : State :=
  match s.galley.wipe with
  | none => s
  | some w =>
    if w.closing then (if s.portBusy then s else s.endWipe w)
    else
    match w.scanned with
    | none =>
      if s.wipeWaits w then s
      else
        let s := if w.rekey then s.rekey w.nsids else s
        s.onGalley fun g => { g with wipe := some { w with scanned := some (s.turn + max 1 (s.scanTurns w.nsids)) } }
    | some t =>
      match w.erasing with
      | some l =>
        let left := l.filter fun m => s.flash.eraseQueue.contains m || s.flash.freed.contains m ||
          (match (s.die m.die).hold with | some h => h.erase && h.block == m.block | none => false)
        if left.isEmpty then s.closeWipe w else s.onGalley fun g => { g with wipe := some { w with erasing := some left } }
      | none =>
        let us := s.wipeUnits w.nsids
        if s.portBusy then s
        else if !us.isEmpty then (us.take 256).foldl State.wipeUnit s
        else if s.turn < t then s
        else if w.kind = 2 then s.startErase
        else s.closeWipe w

/-! ### Directives (R62) -/

/-- The Identify directive's parameters: the directives supported, enabled and persistent, as bits; bit 0 Identify, bit 2 Data
Placement (their codes are NVM Express's, assumption log 18). -/
def State.directiveParams (s : State) : Bytes :=
  let on : Byte := if s.nv.fdp then 5 else 1
  padTo 4096 ([5] ++ fill 31 0 ++ [on] ++ fill 31 0 ++ [if s.nv.fdp then 4 else 0])

/-- A directive command names a namespace of the controller, or all of them where the directive is the Identify directive. -/
def State.nsOk (s : State) (nsid : Nat) : Bool := nsid == 0xFFFFFFFF || (s.ns nsid).isSome

/-- Directive Receive: Return Parameters of the Identify directive. -/
def State.recvDirective (s : State) (a : Adm) (nsid dtype doper : Nat) : State :=
  if !s.nsOk nsid then s.reply a St.invalidNamespace []
  else if dtype = 0 ∧ doper = 1 then s.reply a St.ok [s.directiveParams]
  else s.reply a St.invalidField []

/-- DIRECTIVE_RECEIVE (R62). -/
def execDirectiveReceive (a : Adm) (nsid dtype doper : Nat) (s : State) : Out :=
  .next (s.clusterAdmin a (.directiveReceive a nsid dtype doper) fun s => s.recvDirective a nsid dtype doper)

/-- Directive Send: Enable Directive of the Identify directive. Data Placement is enabled exactly while FDP is; `value` is CDW12: bit 0
enables, bits 15:8 name the directive. -/
def State.sendDirective (s : State) (a : Adm) (nsid dtype doper value : Nat) : State :=
  if !s.nsOk nsid then s.reply a St.invalidNamespace []
  else if dtype = 0 ∧ doper = 1 ∧ natBits value 8 8 = 2 ∧ natBits value 0 1 = 1 ∧ s.nv.fdp then s.reply a St.ok []
  else s.reply a St.invalidField []

/-- DIRECTIVE_SEND (R62). -/
def execDirectiveSend (a : Adm) (nsid dtype doper value : Nat) (s : State) : Out :=
  .next (s.clusterAdmin a (.directiveSend a nsid dtype doper value) fun s => s.sendDirective a nsid dtype doper value)

/-! ### Culvert Rebuild Status (R274) -/

/-- A rebuild record as Table 07.9 lays it out. -/
def Rebuild.bytes (r : Rebuild) : Bytes :=
  leBytes 1 (if r.chan then 2 else 1) ++ leBytes 1 r.state ++ leBytes 2 r.unit ++ leBytes 4 r.total ++ leBytes 4 r.done ++ leBytes 8 r.start ++
    leBytes 8 r.ended ++ leBytes 2 r.rate ++ fill 2 0

/-- The 1,024 bytes of Culvert Rebuild Status. -/
def State.rebuildPage (s : State) : Bytes :=
  padTo 1024 (leBytes 4 s.flash.rebuilds.length ++ leBytes 4 s.flash.rebuildGen ++ leBytes 8 s.turn ++ fill 16 0 ++
    (s.flash.rebuilds.map Rebuild.bytes).flatten)

/-- A vendor command below its level ends with Invalid Command Opcode (R78). -/
def State.rebuildStatus (s : State) (a : Adm) : State :=
  if s.level (admOwner a.path) < 3 then s.reply a St.invalidOpcode [] else s.reply a St.ok [s.rebuildPage]

/-- CULVERT_REBUILD_STATUS (R274). -/
def execCulvertRebuildStatus (a : Adm) (s : State) : Out :=
  .next (s.clusterAdmin a (.culvertRebuildStatus a) fun s => s.rebuildStatus a)

/-! ### Unsupported commands (R62) -/

/-- The opcodes of Table 02.6. -/
def adminOpcodes : List Nat :=
  [0x00, 0x01, 0x02, 0x04, 0x05, 0x06, 0x08, 0x09, 0x0A, 0x0C, 0x0D, 0x10, 0x11, 0x14, 0x15, 0x19, 0x1A, 0x1D, 0x1E, 0x80, 0x84, 0xC0, 0xC1,
   0xC2, 0xC4, 0xC5]

/-- INVALID_ADMIN_OPCODE (R62): an opcode of Table 02.6 is none, and comes with a row of its own. -/
def execInvalidAdminOpcode (a : Adm) (opcode : Nat) (s : State) : Out :=
  .next (if adminOpcodes.contains opcode then s else s.admin a fun s => s.reply a St.invalidOpcode [])

end Sys2Proof.Machine
end

