-- ==== Sys2Proof/Machine/Logs.lean ====
section
/-! DEFINITION. Get Log Page and Identify (R54, R57, R65, R70, R76, R114, R276, R277, R415, R440, R466–R470, R484). Fields that the
spec names and NVM Express places stand where NVM Express places them (PRESUMED, assumption log 18); every byte that neither
the spec states is `Config.standardData`. -/

namespace Sys2Proof.Machine

/-! ### Pages -/

/-- A page: fields placed over its base. -/
def pageOver (base : Bytes) (l : List (Nat × Bytes)) : Bytes := l.foldl (fun p x => splice p x.1 x.2) base

/-- `n` bytes that NVM Express defines and the spec does not: of structure `code`, instance `i`. -/
def openBytes (code i n : Nat) : Bytes := padTo n (Config.standardData code i)

/-! ### Event-log entries (R466) -/

/-- An entry in record format 2 (Table 14.3), or projected to format 1. -/
def LogEntry.bytes (e : LogEntry) (format1 : Bool) : Bytes :=
  if format1 then leBytes 8 e.turn ++ leBytes 2 e.code ++ leBytes 1 e.sev ++ leBytes 1 e.source ++ leBytes 4 e.param
  else leBytes 8 e.turn ++ leBytes 8 e.time ++ leBytes 2 e.code ++ leBytes 1 e.sev ++ leBytes 1 e.source ++ leBytes 2 e.client ++ fill 2 0 ++
    leBytes 8 e.param

/-! ### Page contents -/

/-- LID 01h: the last error entries, newest first. -/
def ErrorEntry.bytes (e : ErrorEntry) : Bytes :=
  pageOver (openBytes 0x01 e.count 64) [(0, leBytes 8 e.count ++ leBytes 2 e.sqid ++ leBytes 2 e.cid ++ leBytes 2 ((e.sct * 256 + e.sc) * 2)),
    (16, leBytes 8 e.lba ++ leBytes 4 e.nsid)]

def State.errorPage (s : State) : Bytes := padTo 16384 (s.host.errors.map ErrorEntry.bytes).flatten

/-- The composite temperature in kelvin (R452). -/
def State.compositeK (s : State) : Nat := match s.power.tjNow with | some t => (t + 273).floor.toNat | none => 0

/-- Temperature Sensor n is RD(n − 1) in kelvin; 0 when absent (R464). -/
def State.sensorK (s : State) (i : Nat) : Nat :=
  if s.fld Reg.GAU_CFG_RD_PRESENT / 2 ^ i % 2 = 0 || !s.flag (gaugeValid (16 + i)) || s.flag (gaugeFault (16 + i)) then 0
  else s.fld (Reg.GAU_SAMPLE_T_TEMP (16 + i)) / 4 + 209

/-- The SMART counters as they stand, in the order of Table 14.5 (R468). A data unit is 1,000 × 512 B. -/
def State.smartCounts (s : State) : List Nat :=
  let v := s.nv
  [cdiv v.unitsRead 1000, cdiv v.unitsWritten 1000, v.hostReads, v.hostWrites, v.busyMinutes, v.powerCycles,
   (v.poweredTurns + s.turn) * 1024 / 3600000000000, v.unsafeShutdowns, v.mediaErrors, s.host.errorCount]

/-- LID 02h (Table 14.5). -/
def State.smartPage (s : State) : Bytes :=
  let c (i : Nat) : Bytes := leBytes 16 (s.mgmt.smart.getD i 0)
  pageOver (openBytes 0x02 0 512)
    [(0, leBytes 1 s.nv.warning ++ leBytes 2 s.compositeK ++ leBytes 1 s.flash.avail ++ leBytes 1 (s.param 10) ++ leBytes 1 s.percentUsed),
     (32, ((List.range 10).map c).flatten), (200, ((List.range 8).map fun i => leBytes 2 (s.sensorK i)).flatten)]

/-- LID 03h (R415): AFI, and the release of each slot; an invalid slot reads as empty. -/
def State.slotPage (s : State) : Bytes :=
  let afi := match s.store.pointer with | some p => p.active + (if p.next = p.active then 0 else p.next * 16) | none => 0
  let rel (i : Fin 2) : Bytes := match s.store.slots[i] with | some m => leBytes 8 (if m.sound then m.release else 0) | none => fill 8 0
  pageOver (openBytes 0x03 0 512) [(0, leBytes 1 afi), (8, rel 0 ++ rel 1 ++ fill 40 0)]

/-- LID 04h: the namespaces changed since the last read. -/
def State.changedNsPage (s : State) (c : Fin 2) : Bytes := padTo 4096 ((s.ctl c).changedNs.map (leBytes 4)).flatten

/-- LID BFh: the zones changed since the last read. -/
def State.changedZonePage (s : State) (c : Fin 2) : Bytes :=
  let l := (s.ctl c).changedZones
  padTo 4096 (leBytes 2 l.length ++ fill 6 0 ++ (l.map (leBytes 8)).flatten)

/-- The I/O opcodes of Table 02.7. -/
def ioOpcodes : List Nat := [0x00, 0x01, 0x02, 0x05, 0x08, 0x09, 0x0C, 0x19, 0x79, 0x7A, 0x7D]

/-- LID 05h: command by command, CSUPP in bit 0. -/
def State.effectsPage (_s : State) : Bytes :=
  let one (l : List Nat) (base op : Nat) : Bytes :=
    if l.contains op then leBytes 4 (leNat (openBytes 0x05 (base + op) 4) / 2 * 2 + 1) else fill 4 0
  padTo 4096 (((List.range 256).map (one adminOpcodes 0)).flatten ++ ((List.range 256).map (one ioOpcodes 256)).flatten)

/-- A result of LID 06h: its code and STC, segment, NSID and power-on hours. -/
def SelfTestResult.bytes (r : SelfTestResult) (i : Nat) (powered : Nat) : Bytes :=
  pageOver (openBytes 0x06 i 28) [(0, leBytes 1 (r.code + r.stc * 16) ++ leBytes 1 r.segment),
    (4, leBytes 8 ((powered + r.turn) * 1024 / 3600000000000) ++ leBytes 4 r.nsid)]

/-- The completion of the run in progress, in %. -/
def SelfTestRun.percent (r : SelfTestRun) : Nat := min 100 (100 * r.done / max 1 r.total)

/-- LID 06h: the operation in progress and the last 20 results. -/
def State.selfTestPage (s : State) : Bytes :=
  let now := match s.mgmt.run with
    | some r => if 2 ≤ r.kind ∧ r.kind ≤ 4 then leBytes 1 (kindStc r.kind) ++ leBytes 1 r.percent else fill 2 0
    | none => fill 2 0
  let empty (i : Nat) : Bytes := pageOver (openBytes 0x06 i 28) [(0, [0x0F])]
  let got := (s.mgmt.results.take 20).zipIdx.map fun x => x.1.bytes x.2 s.nv.poweredTurns
  padTo 564 (now ++ fill 2 0 ++ got.flatten ++ ((List.range 20).drop got.length |>.map empty).flatten)

/-- Capacity in bytes: a count of granules of 1 GiB. -/
def granBytes (n : Nat) : Nat := n * 2 ^ 30

/-- LID 09h (R239). The endurance estimate is in units of 10^9 bytes. -/
def State.endurancePage (s : State) : Bytes :=
  let warn := s.nv.warning &&& 0xD
  let est := (((s.eTotal - s.nv.wear.used : Nat) : Rat) * s.unitsPerErase * 4096 / 1000000000).floor.toNat
  let least := ((List.range s.lanes).map s.capacityN).foldl min (s.capacityN 0)
  pageOver (openBytes 0x09 0 512)
    [(0, leBytes 1 warn), (3, leBytes 1 s.flash.avail ++ leBytes 1 (s.param 10) ++ leBytes 1 s.percentUsed), (32, leBytes 16 est),
     (160, leBytes 16 (s.lanes * least * 14 * s.unitsPerMb * 16384) ++ leBytes 16 (granBytes s.gransFree))]

/-- LID 20h (Table 05.5): one configuration, one reclaim group, 64 persistently isolated handles, and RUNS. -/
def State.fdpConfigPage (s : State) : Bytes :=
  let runs := s.lanes * 14 * s.unitsPerMb * 16384
  pageOver (openBytes 0x20 0 512)
    [(0, leBytes 2 0), (20, leBytes 4 1 ++ leBytes 2 64), (32, leBytes 8 runs), (80, ((List.range 64).map fun _ => leBytes 4 2).flatten)]

/-- LID 21h: a handle is host-specified where a namespace lists it. -/
def State.fdpUsagePage (s : State) : Bytes :=
  let used (h : Nat) : Bool := s.nv.namespaces.any fun n => n.handles.contains h
  leBytes 2 64 ++ fill 6 0 ++ ((List.range 64).map fun h => leBytes 8 (if used h then 1 else 0)).flatten

/-- LID 23h (R200): the events, newest first. -/
def State.fdpEventPage (s : State) : Bytes :=
  let one (x : (Nat × Nat × Nat) × Nat) : Bytes :=
    pageOver (openBytes 0x23 x.2 64) [(0, leBytes 1 x.1.1), (2, leBytes 2 x.1.2.2), (12, leBytes 4 x.1.2.1)]
  leBytes 4 s.nv.fdpEvents.length ++ fill 60 0 ++ (s.nv.fdpEvents.zipIdx.map one).flatten

/-- LID 81h: the sanitize status and progress (R298). -/
def State.sanitizePage (s : State) : Bytes :=
  pageOver (openBytes 0x81 0 512) [(0, leBytes 2 (if s.nv.sanitize = 2 then 0 else 0xFFFF) ++ leBytes 2 s.nv.sanitize),
    (4, leBytes 4 s.nv.sanitizeAction)]

/-- A frozen-queue record (Table 02.12): TRIG_STATUS has the status at bits 15:1 and bit 0 zero (DESIGN CHOICE, assumption log 183). -/
def FreezeRec.bytes (f : FreezeRec) (stored : Nat) : Bytes :=
  padTo 64 (leBytes 4 f.seq ++ leBytes 2 f.sqid ++ leBytes 2 f.trigCid ++ leBytes 2 (f.trigStatus * 2) ++ leBytes 2 f.sqHead ++ leBytes 8 f.turn ++
    leBytes 4 f.trigDw0 ++ leBytes 4 f.count ++ leBytes 2 f.first ++ leBytes 2 f.last ++ leBytes 2 stored)

/-- LID 0xC0 (R76). -/
def State.freezePage (s : State) (c : Fin 2) : Bytes :=
  let x := s.ctl c
  let stored (f : FreezeRec) : Nat := match s.sq c f.sqid with | some q => q.storedTail.getD q.tail | none => 0
  leBytes 4 x.freezes.length ++ leBytes 4 x.freezeGen ++ fill 8 0 ++ (x.freezes.map fun f => f.bytes (stored f)).flatten

/-- LID 0xC1 (Table 07.11). -/
def State.dlxPage (s : State) : Bytes :=
  let f := s.flash
  let c64 (n : Nat) : Bytes := leBytes 8 (min (2 ^ 64 - 1) n)
  let cell (i : Nat) : Bytes :=
    match f.cells.find? fun x => x.1 == i with
    | some x => leBytes 4 (min (2 ^ 32 - 1) x.2.1) ++ leBytes 4 (min (2 ^ 32 - 1) x.2.2)
    | none => fill 8 0
  padTo 4096 (leBytes 8 s.turn ++ leBytes 4 (s.fld Reg.LDP_DLX_NOW_ROT) ++ leBytes 4 s.mgmt.current.number ++
    ((List.range 7).map fun i => c64 (f.ladder.getD i 0)).flatten ++ c64 f.misses ++ fill 48 0 ++
    ((List.range 320).map cell).flatten ++ ((List.range 8).map fun a => c64 (f.ages.getD a 0)).flatten)

/-- One class of LID 0xC2 (Table 03.6). -/
def ClassAcct.bytes (x : ClassAcct) : Bytes :=
  let c (n : Nat) : Bytes := leBytes 8 (min (2 ^ 64 - 1) n)
  c x.accepted ++ c x.refused ++ c x.reclassed ++ c x.second ++ c x.noData ++ c x.held ++ leBytes 4 x.maxLat ++ leBytes 4 x.minSlack ++ fill 8 0

/-- LID 0xC2 (R114). -/
def State.acctPage (s : State) : Bytes :=
  let c (n : Nat) : Bytes := leBytes 8 (min (2 ^ 64 - 1) n)
  let x := s.sluice
  padTo 4096 (leBytes 8 s.turn ++ fill 56 0 ++ (x.acct.toList.map ClassAcct.bytes).flatten ++
    ((List.range 10).map fun k => c (x.reasons.getD k 0)).flatten ++ c x.collisions ++ c x.noSecond ++ c x.lowerBound)

/-- A record of LID 0xC3 (Table 07.13). -/
def LedgerRec.bytes (r : LedgerRec) : Bytes :=
  leBytes 8 r.turn ++ leBytes 4 r.rot ++ leBytes 1 r.kind ++ leBytes 1 r.trigger ++ fill 2 0 ++ leBytes 4 r.id ++ leBytes 4 r.aux ++ leBytes 1 r.spare ++
    fill 7 0

/-- LID 0xC3 (R277). -/
def State.ledgerPage (s : State) : Bytes :=
  padTo 4096 (leBytes 8 s.turn ++ leBytes 8 s.nv.records ++ ((List.range 8).map fun u => leBytes 4 (s.nv.kinds.getD u 0)).flatten ++
    leBytes 4 s.nv.lostUnits ++ leBytes 4 s.nv.mismatches ++ fill 8 0 ++ ((s.nv.ledger.take 126).map LedgerRec.bytes).flatten)

/-- A domain of LID 0xC4 (Table 13.4). -/
def Domain.bytes (d : Domain) : Bytes :=
  leBytes 8 d.refused ++ leBytes 8 d.aborted ++ leBytes 2 d.lastClient ++ fill 6 0 ++ leBytes 8 d.lastTurn

/-- A Conserve entry record of LID 0xC4. -/
def EntryRecord.bytes (r : EntryRecord) : Bytes :=
  leBytes 8 r.began ++ leBytes 1 r.ps ++ leBytes 1 r.outcome ++ leBytes 2 r.client ++ leBytes 1 r.dom ++ fill 3 0 ++ leBytes 8 r.turns ++ fill 8 0

/-- LID 0xC4 (R440). -/
def State.powerPage (s : State) : Bytes :=
  padTo 4096 (leBytes 8 s.turn ++ leBytes 4 s.power.entryLog.length ++ fill 52 0 ++ (s.power.doms.toList.map Domain.bytes).flatten ++
    (s.power.entryLog.map EntryRecord.bytes).flatten)

/-- A domain of LID 0xC5. -/
def DomTest.bytes (d : DomTest) : Bytes :=
  leBytes 8 d.ended ++ leBytes 4 d.duration ++ leBytes 2 d.cov1 ++ leBytes 2 d.cov2 ++ leBytes 1 d.result ++ leBytes 1 d.kind ++ leBytes 1 d.source ++
    fill 1 0 ++ leBytes 4 d.failures ++ leBytes 8 d.lastFail ++ fill 32 0

/-- LID 0xC5 (R484). -/
def State.domTestPage (s : State) : Bytes :=
  let run := match s.mgmt.run with
    | some r => leBytes 1 r.kind ++ leBytes 1 r.percent ++ leBytes 1 r.source
    | none => fill 3 0
  padTo 4096 (leBytes 8 s.turn ++ leBytes 4 (min (2 ^ 32 - 1) s.mgmt.passes) ++ leBytes 4 (min (2 ^ 32 - 1) s.mgmt.slices) ++ run ++ fill 45 0 ++
    (s.mgmt.domTest.toList.map DomTest.bytes).flatten)

/-! ### Telemetry (R470) -/

/-- The gauge samples as their words. -/
def State.gaugeBytes (s : State) : Bytes := ((List.range 30).map fun k => leBytes 4 (s.word (sampleAddr k)).toNat).flatten

/-- The entries of the log ring, oldest first. -/
def State.ringLog (s : State) : List LogEntry := s.store.ring.flatMap (·.2)

/-- The set that a capture takes. -/
def State.teleSet (s : State) : TeleSet :=
  let all := s.ringLog ++ s.mgmt.log
  { turn := s.turn, image := s.smartPage ++ s.gaugeBytes ++ s.acctPage ++ s.ledgerPage, recent := all.drop (all.length - 1024), ring := s.ringLog }

/-- The capture that a cause of this turn asked for; an unread set stays. -/
def State.takeTele (s : State) : State :=
  if !s.mgmt.teleWanted then s
  else
    let set := s.teleSet
    s.onMgmt fun m =>
      if m.teleCtrl.isSome then { m with teleWanted := false }
      else { m with teleWanted := false, teleCtrl := some set, teleGen := (m.teleGen + 1) % 256 }

/-- A telemetry log: the header block, and three areas that end with blocks 256, 44,288 and 77,056. -/
def State.telePage (s : State) (lid : Nat) (set : Option TeleSet) (format1 : Bool) : List Bytes :=
  let head := pageOver (openBytes lid 0 512)
    [(0, leBytes 1 lid), (8, leBytes 2 256 ++ leBytes 2 44288 ++ leBytes 2 77056),
     (382, leBytes 1 (if s.mgmt.teleCtrl.isSome then 1 else 0) ++ leBytes 1 s.mgmt.teleGen)]
  let ev (l : List LogEntry) : Bytes := (l.map fun e => e.bytes format1).flatten
  match set with
  | none => [head]
  | some t => [head, padTo (256 * 512) (t.image ++ ev t.recent), padTo (44032 * 512) (ev t.ring), openBytes (lid + 256) t.turn (32768 * 512)]

/-- The format that bits [2:1] of the Log Specific Parameter select; other values are invalid (R467). -/
def logFormat (lsp : Nat) : Option Bool := match natBits lsp 1 2 with | 0 => some false | 1 => some true | _ => none

/-- LID 07h: Create captures a new set at once. -/
def State.teleHostLog (s : State) (a : Adm) (lsp : Nat) : State :=
  match logFormat lsp with
  | none => s.reply a St.invalidField []
  | some f =>
    let set := s.teleSet
    let s := if natBits lsp 0 1 = 1 then s.onMgmt fun m => { m with teleHost := some set } else s
    s.reply a St.ok (s.telePage 0x07 s.mgmt.teleHost f)

/-- LID 08h: a read of the whole set frees it. -/
def State.teleCtrlLog (s : State) (a : Adm) (lsp : Nat) : State :=
  match logFormat lsp with
  | none => s.reply a St.invalidField []
  | some f =>
    let p := s.telePage 0x08 s.mgmt.teleCtrl f
    (s.onMgmt fun m => { m with teleCtrl := none }).reply a St.ok p

/-! ### Get Log Page (R70) -/

/-- A log page, with the events that its read re-arms (R469). -/
def State.logPage (s : State) (a : Adm) (lid lsp : Nat) : State :=
  let c := admOwner a.path
  let s := s.rearm c lid
  let page (b : Bytes) : State := s.reply a St.ok [b]
  match lid with
  | 0x01 => page s.errorPage
  | 0x02 => page s.smartPage
  | 0x03 => page s.slotPage
  | 0x04 => (page (s.changedNsPage c)).onCtl c fun x => { x with changedNs := [] }
  | 0x05 => page s.effectsPage
  | 0x06 => page s.selfTestPage
  | 0x07 => s.teleHostLog a lsp
  | 0x08 => s.teleCtrlLog a lsp
  | 0x09 => page s.endurancePage
  | 0x20 => page s.fdpConfigPage
  | 0x21 => page s.fdpUsagePage
  | 0x22 => page (openBytes 0x22 0 64)
  | 0x23 => page s.fdpEventPage
  | 0x81 => page s.sanitizePage
  | 0xBF => (page (s.changedZonePage c)).onCtl c fun x => { x with changedZones := [] }
  | 0xC0 => if s.level c < 2 then s.reply a St.invalidField [] else page (s.freezePage c)
  | 0xC1 => page s.dlxPage
  | 0xC2 => page s.acctPage
  | 0xC3 => page s.ledgerPage
  | 0xC4 => page s.powerPage
  | 0xC5 => page s.domTestPage
  | _ => s.reply a St.invalidLog []

/-- GET_LOG_PAGE (R70). -/
def execGetLogPage (a : Adm) (lid lsp : Nat) (s : State) : Out :=
  .next (s.clusterAdmin a (.getLogPage a lid lsp) fun s => s.logPage a lid lsp)

/-! ### Identify (R62) -/

/-- ASCII text padded with spaces. -/
def asciiPad (n : Nat) (t : String) : Bytes :=
  let b := t.toList.map fun c => BitVec.ofNat 8 c.toNat
  b.take n ++ fill (n - b.length) 0x20

/-- A power state descriptor (Table 02.16): maximum power in 0.01 W, non-operational, ENLAT, EXLAT. -/
def powerState (mp : Nat) (nonOp : Bool) (enlat exlat : Nat) : Bytes :=
  leBytes 2 mp ++ fill 1 0 ++ leBytes 1 (if nonOp then 2 else 0) ++ leBytes 4 enlat ++ leBytes 4 exlat

/-- Self-test time of the extended run, in minutes (R482). -/
def State.edstt (s : State) : Nat := cdiv (s.rawUnits * 16384 / 4 + 6 * 20000000000) (60 * 20000000000)

/-- Identify Controller (CNS 01h): the fields the spec states. -/
def State.identifyCtrl (s : State) (c : Fin 2) : Bytes :=
  let release := match s.store.running with
    | some i => match s.store.slots[i - 1]? with | some (some m) => leBytes 8 m.release | _ => fill 8 0
    | none => fill 8 0
  let hot := s.fld Reg.PMC_THERM_CFG_T_HOT
  let model := if s.board.suffix = 2 then "KG6432-AT" else "KG6432-AC"
  pageOver (openBytes 0x101 c.val 4096)
    [(24, asciiPad 40 model ++ release), (76, [3, 11] ++ leBytes 2 (c.val + 1)), (88, leBytes 4 10000000),
     (258, [63, 15, 0x14]), (262, [255, 4]), (266, leBytes 2 (hot + 273) ++ leBytes 2 (hot + 283) ++ leBytes 2 11),
     (316, leBytes 2 s.edstt), (319, [1]), (328, leBytes 4 (3 + 2 ^ 29)), (512, [0x66, 0x44]), (516, leBytes 4 256),
     (520, leBytes 2 (leNat (openBytes 0x102 c.val 2) &&& 0xFFDF)), (525, [0] ++ leBytes 2 3 ++ leBytes 2 3), (768, openBytes 0x104 0 256),
     (2048, powerState 6000 false 0 0), (2080, powerState 4500 false 0 0), (2112, powerState 3000 false 0 0), (2144, powerState 500 true 1000 500),
     (2176, powerState 250 true 10000 5000)]

/-- The LBA formats of Table 02.8. -/
def lbaFormats : Bytes :=
  ((List.range 5).map fun f => leBytes 2 (mdBytes f) ++ leBytes 1 (if blockBytes f = 512 then 9 else 12) ++ fill 1 0).flatten

/-- Units of a namespace that hold data: its mapped units (NUSE). -/
def State.usedBlocks (s : State) (n : Namespace) : Nat :=
  min n.nsze ((s.wipeUnits [n.nsid]).length * 16384 / blockBytes n.lbaf)

/-- The I/O command set specific data of a namespace (CNS 05h): of a zoned one no limit of open and active zones, no ZRWA, and the zone size
of each format (R201; their places are the Zoned Namespace Command Set's, assumption log 18). -/
def identifyNsSet (n : Namespace) (csi : Nat) : Bytes :=
  if csi = 2 then
    pageOver (openBytes 0x105 n.nsid 4096)
      ((2, leBytes 2 (leNat (openBytes 0x106 n.nsid 2) &&& 0xFFFD) ++ leBytes 8 (2 ^ 64 - 1)) ::
        (List.range 5).map fun f => (2816 + 16 * f, leBytes 8 (zoneBlocks { n with lbaf := f })))
  else openBytes 0x107 n.nsid 4096

/-- The I/O command set specific data of a controller (CNS 06h): WZSL = 0, ZASL equal to MDTS (R64). -/
def identifyCtrlSet (c : Fin 2) (csi : Nat) : Bytes :=
  if csi = 2 then pageOver (openBytes 0x206 c 4096) [(0, [11])] else pageOver (openBytes 0x207 c 4096) [(1, [0])]

/-- Identify Namespace (CNS 00h, 11h). The Copy limits of R64 stand in MSSRL, MCL and MSRC: MSSRL's 16 bits cannot hold 65,536 blocks and give
their largest value (PRESUMED, assumption log 177). -/
def State.identifyNs (s : State) (n : Namespace) : Bytes :=
  let unit := 16384 / blockBytes n.lbaf - 1
  pageOver (openBytes 0x100 n.nsid 4096)
    [(0, leBytes 8 n.nsze ++ leBytes 8 n.nsze ++ leBytes 8 (s.usedBlocks n)),
     (24, leBytes 1 (leNat (openBytes 0x103 n.nsid 1) ||| 2) ++ leBytes 1 4 ++ leBytes 1 (n.lbaf + (if n.extended then 16 else 0))),
     (29, leBytes 1 (n.pi + (if n.piFirst then 8 else 0)) ++ leBytes 1 (if n.attached = 3 then 1 else 0)), (33, leBytes 1 9),
     (74, leBytes 2 65535 ++ leBytes 4 262144 ++ leBytes 1 127), (34, leBytes 2 unit ++ leBytes 2 unit),
     (40, leBytes 2 unit ++ leBytes 2 0 ++ leBytes 2 unit), (128, lbaFormats)]

/-- A list of identifiers above one, in rising order. -/
def idList (n : Nat) (l : List Nat) : Bytes := padTo 4096 (((l.filter fun i => decide (n < i)).take 1024).map (leBytes 4)).flatten

/-- Namespace identifiers in rising order. -/
def State.nsids (s : State) (p : Namespace → Bool) : List Nat :=
  (List.range 257).filter fun i => s.nv.namespaces.any fun n => n.nsid == i && p n

/-- A list of controller identifiers. -/
def ctrlList (l : List Nat) : Bytes := padTo 4096 (leBytes 2 l.length ++ (l.map (leBytes 2)).flatten)

/-- IDENTIFY: the data of a CNS of Table 02.6, for an I/O command set (CSI 0 NVM, 2 zoned) where the CNS takes one. -/
def State.identify (s : State) (a : Adm) (cns csi nsid : Nat) : State :=
  let c := admOwner a.path
  let page (b : Bytes) : State := s.reply a St.ok [b]
  let ofNs (p : Namespace → Bool) (k : Namespace → Bytes) : State :=
    if nsid = 0 ∨ 256 < nsid then s.reply a St.invalidNamespace []
    else match s.ns nsid with | some n => if p n then page (k n) else page (fill 4096 0) | none => page (fill 4096 0)
  let mine (n : Namespace) : Bool := n.on c
  let ofSet (k : State) : State := if csi = 0 ∨ csi = 2 then k else s.reply a St.invalidField []
  match cns with
  | 0x00 => ofNs mine s.identifyNs
  | 0x01 => page (s.identifyCtrl c)
  | 0x02 => page (idList nsid (s.nsids mine))
  | 0x03 | 0x08 => ofNs mine fun n => openBytes (0x100 + cns) n.nsid 4096
  | 0x05 => ofSet (ofNs mine fun n => identifyNsSet n csi)
  | 0x06 => ofSet (page (identifyCtrlSet c csi))
  | 0x07 => ofSet (page (idList nsid (s.nsids fun n => mine n && n.zoned == (csi == 2))))
  | 0x1C | 0x1F => page (openBytes (0x200 + cns) c.val 4096)
  | 0x10 => page (idList nsid (s.nsids fun _ => true))
  | 0x11 => ofNs (fun _ => true) s.identifyNs
  | 0x12 => ofNs (fun _ => true) fun n => ctrlList (((List.range 2).filter fun i => n.attached / 2 ^ i % 2 == 1).map (· + 1))
  | 0x13 => page (ctrlList [1, 2])
  | _ => s.reply a St.invalidField []

def execIdentify (a : Adm) (cns : IdentifySel) (nsid : Nat) (s : State) : Out :=
  .next (s.clusterAdmin a (.identify a cns nsid) fun s => s.identify a cns.cns cns.csi nsid)

end Sys2Proof.Machine
end

