-- ==== Sys2Proof/Machine/Update.lean ====
section
/-! DEFINITION. Firmware download, commit and activation (R409–R412, R415–R423): the download buffer, the slots, the pointer
records, the streamed download of Recovery, and the hitless activation cluster by cluster. -/

namespace Sys2Proof.Machine

/-! ### Records (R409) -/

/-- A page that holds a valid record of a kind (R410). -/
def validRecord (kind : Nat) (p : Bytes) : Bool :=
  leNat (slice p 0 2) == 0x4B52 && leNat (slice p 2 1) == kind && leNat (slice p 3 1) == 1 && leNat (slice p 12 4) == crc32c (p.take 12) &&
    leNat (slice p 508 4) == crc32c (p.take 508)

/-! ### Images (R411, R412) -/

/-- An image as its trailer page describes it, where the trailer is a valid record for `len` bytes of image. -/
def trailerOf (len : Nat) (page : Bytes) : Option Image :=
  if !validRecord 5 page || leNat (slice page 16 4) != len || len % 4096 != 0 || 44 * 2 ^ 20 - 4096 < len then none
  else some ⟨len, leNat (slice page 20 8), leNat (slice page 28 2), leNat (slice page 30 2), leNat (slice page 32 1), leNat (slice page 33 1), false⟩

/-- The checks of R412 on an image and its trailer page. -/
def imageValid (img page : Bytes) (m : Image) : Bool :=
  decide (m.keyId < 4) && Config.signatureOk m.keyId (slice page 16 68) (slice page 84 96) && leNat (slice page 36 48) == Config.sha384 img &&
    decide (Config.fusedEpoch ≤ m.epoch)

/-- The image that a run of bytes holds: an image, then its trailer in the last 4 KiB, valid under R412. -/
def imageOf (b : Bytes) : Option Image :=
  let len := b.length - 4096
  let page := slice b len 512
  match trailerOf len page with
  | some m => if 4096 ≤ b.length && imageValid (b.take len) page m then some { m with sound := true } else none
  | none => none

/-! ### Slots (R418–R420) -/

/-- A slot's image: slot 1 is A, slot 2 is B. -/
def State.slotImage (s : State) (n : Nat) : Option Image := s.store.slots.toList.getD (n - 1) none

/-- A slot holds an image that is valid under R412. -/
def State.slotValid (s : State) (n : Nat) : Bool := match s.slotImage n with | some m => m.sound | none => false

def State.putImage (s : State) (n : Nat) (m : Option Image) : State :=
  s.onStore fun t => { t with slots := t.slots.setIfInBounds (n - 1) m }

/-- The target of a download in Recovery: the slot with no valid image, or the one that the pointer record does not name (R417). -/
def State.idleSlot (s : State) : Nat :=
  match s.store.running with
  | some 1 => 2
  | some _ => 1
  | none =>
    if !s.slotValid 1 then 1
    else if !s.slotValid 2 then 2
    else match s.store.pointer with | some p => if p.active = 1 then 2 else 1 | none => 1

/-- The blocks of a slot that are not skipped (Tables 12.1, 12.5). -/
def State.slotBlocks (s : State) (n : Nat) : List Nat :=
  ((List.range 192).map (· + (9 + 256 * (n - 1)))).filter fun b => !s.store.badBlocks.contains b

/-- Bytes cut into pages. -/
def pagesOf : Nat → Bytes → List Bytes
  | 0, _ => []
  | n + 1, b => if b.isEmpty then [] else padTo 512 b :: pagesOf n (b.drop 512)

/-- A trailer page with SKIP filled in: bit i is block 9 + i of the slot (Table 12.5). -/
def State.withSkip (s : State) (n : Nat) (page : Bytes) : Bytes :=
  let mask := (List.range 192).foldl (fun m i => if s.store.badBlocks.contains (9 + 256 * (n - 1) + i) then m + 2 ^ i else m) 0
  let body := (splice page 180 (leBytes 24 mask)).take 508
  body ++ leBytes 4 (crc32c body)

/-- Program pages into a slot's blocks from page `from_` on. -/
def State.programSlot (s : State) (n from_ : Nat) (pages : List Bytes) : State :=
  let blocks := s.slotBlocks n
  s.onStore fun t => (pages.zipIdx).foldl (fun t x =>
    let p := from_ + x.2
    match blocks[p / 512]? with
    | some b => { t with pages := kput (b * 512 + p % 512) x.1 t.pages, markers := (b * 512 + p % 512) :: t.markers }
    | none => t) t

/-- Erase every block of a slot that is in use; the slot holds no image from then on, and blocks that fail are skipped. -/
def State.eraseSlot (s : State) (n : Nat) : State := (s.slotBlocks n).foldl State.tryErase (s.putImage n none)

/-- Erase blocks in their order until enough have passed (R419, step 2); `done` has been erased already. -/
def State.eraseSome (done : Option Nat) : List Nat → Nat → State → State
  | [], _, s => s
  | _, 0, s => s
  | b :: t, need + 1, s =>
    let x := if done = some b then s else s.tryErase b
    State.eraseSome done t (if x.store.badBlocks.contains b then need + 1 else need) x

/-- The image and trailer pages fit into the slot's blocks. -/
def State.slotFits (s : State) (n len : Nat) : Bool := decide (len / 512 + 1 ≤ 512 * (s.slotBlocks n).length)

/-- The store page of a place in the two pointer blocks: 0–511 in P0, 512–1,023 in P1. -/
def pointerPageAt (p : Nat) : Nat := if p < 512 then p else 256 * 512 + (p - 512)

/-- A page goes into the next page of the pointer block in use, or the first page of the other; once one has landed in a block's first page
the other block is erased (R420). -/
def Store.nextPointerPage (t : Store) (page : Bytes) : Store :=
  let at_ := t.pointerPage % 1024
  let t := { t with pages := kput (pointerPageAt at_) page t.pages, pointerPage := (at_ + 1) % 1024 }
  if at_ = 0 then t.clearBlock 256 else if at_ = 512 then t.clearBlock 0 else t

/-- Write a pointer record under the first SEQ from `seq` on whose page reads back; a page that does not never governs, and holds undefined
bytes (R420). -/
def State.writeRecord (s : State) (active next : Nat) : Nat → Nat → State
  | 0, _ => s
  | fuel + 1, seq =>
    let rel (n : Nat) : Bytes := leBytes 8 (match s.slotImage n with | some m => m.release | none => 0)
    if 0 < fuel && Config.pointerFails seq then
      (s.onStore fun t => t.nextPointerPage (Config.freeBytes seq 512)).writeRecord active next fuel (seq + 1)
    else
      let page := (recordPages 1 seq (leBytes 1 active ++ leBytes 1 next ++ fill 2 0 ++ rel active ++ rel next ++ fill 472 0)).headD []
      s.onStore fun t => { t.nextPointerPage page with pointer := some ⟨seq, active, next⟩ }

/-- Write a pointer record (R420). More than 511 failures in a row, a whole block, are left out. -/
def State.writePointer (s : State) (active next : Nat) : State :=
  s.writeRecord active next 512 ((match s.store.pointer with | some p => p.seq | none => 0) + 1)

/-! ### Download (R416, R417) -/

/-- Recovery was entered with a DRAM half untrained: the download buffer does not exist (R417). -/
def State.streams (s : State) : Bool := s.power.mode == .recovery && (!s.recoveryKeeps 11 || !s.recoveryKeeps 12)

/-- Chunks in rising order of their offsets. -/
def insertChunk (c : Nat × Bytes) : List (Nat × Bytes) → List (Nat × Bytes)
  | [] => [c]
  | d :: t => if c.1 ≤ d.1 then c :: d :: t else d :: insertChunk c t

/-- The bytes of chunks that follow one another from `at_` on without a gap. -/
def joinChunks : Nat → List (Nat × Bytes) → Option Bytes
  | _, [] => some []
  | at_, c :: t => if c.1 = at_ then (joinChunks (at_ + c.2.length) t).map (c.2 ++ ·) else none

/-- What the download buffer holds, from byte 0 without a gap. -/
def State.buffered (s : State) : Option Bytes :=
  match s.store.buffer with
  | some (_, l) => joinChunks 0 l
  | none => none

/-- The size checks of a chunk: whole 4 KiB, within 44 MiB. -/
def badChunk (ofst numd : Nat) : Bool := ofst % 1024 != 0 || (numd + 1) % 1024 != 0 || decide (44 * 2 ^ 20 < (ofst + numd + 1) * 4)

/-- Firmware Image Download into the buffer (R416). -/
def State.bufferChunk (s : State) (a : Adm) (ofst numd : Nat) (data : Bytes) : State :=
  let c := (admOwner a.path).val
  let b := padTo ((numd + 1) * 4) data
  let lo := ofst * 4
  let held := match s.store.buffer with | some x => x.2 | none => []
  if badChunk ofst numd then s.reply a St.invalidField []
  else if held.any fun x => decide (x.1 < lo + b.length) && decide (lo < x.1 + x.2.length) then s.reply a St.overlapping []
  else if (match s.store.buffer with | some x => x.1 != c | none => false) then s.reply a St.sequence []
  else
    let s := s.onStore fun t => { t with buffer := some (c, insertChunk (lo, b) held) }
    let s := match s.buffered.bind imageOf with
      | some m => s.log 0x0701 a.path 0x3FF m.release
      | none => s
    s.reply a St.ok []

/-- The place of the trailer in a stream: the first 4 KiB boundary whose page is a trailer for the bytes before it. -/
def trailerAt (b : Bytes) : Nat → Nat → Option Nat
  | 0, _ => none
  | n + 1, at_ => if (trailerOf at_ (slice b at_ 512)).isSome then some at_ else trailerAt b n (at_ + 4096)

/-- A chunk of a streamed download (Table 12.10). -/
def State.streamChunk (s : State) (a : Adm) (ofst numd : Nat) (data : Bytes) : State :=
  let b := padTo ((numd + 1) * 4) data
  let put (s : State) (old : Stream) (old_ : Bytes) : State :=
    let all := old_ ++ b
    match trailerAt all (all.length / 4096) 0 with
    | some t =>
      let at_ := t - old_.length
      let b := splice b at_ (s.withSkip old.slot (Sys2Proof.Machine.slice b at_ 512))
      if t + 4096 < all.length then s.reply a St.invalidField []
      else ((s.programSlot old.slot (old_.length / 512) (pagesOf (b.length / 512) b)).onStore fun x =>
        { x with stream := some { old with bytes := all, closed := true } }).reply a St.ok []
    | none =>
      ((s.programSlot old.slot (old_.length / 512) (pagesOf (b.length / 512) b)).onStore fun x =>
        { x with stream := some { old with bytes := all } }).reply a St.ok []
  match s.store.stream with
  | some st =>
    if st.path != a.path then s.reply a St.sequence []
    else if badChunk ofst numd then s.reply a St.invalidField []
    else if ofst = 0 then
      let s := s.onStore fun t => { t with stream := none }
      let n := s.idleSlot
      put (s.eraseSlot n) ⟨a.path, n, [], false⟩ []
    else if ofst * 4 != st.bytes.length || st.closed then s.reply a St.invalidField []
    else put s st st.bytes
  | none =>
    if ofst != 0 then s.reply a St.sequence []
    else if badChunk ofst numd then s.reply a St.invalidField []
    else
      let n := s.idleSlot
      put (s.eraseSlot n) ⟨a.path, n, [], false⟩ []

/-- FIRMWARE_IMAGE_DOWNLOAD (R416); where the buffer does not exist the chunk is streamed (R417). -/
def State.download (s : State) (a : Adm) (ofst numd : Nat) (data : Bytes) : State :=
  if s.streams then s.streamChunk a ofst numd data else s.bufferChunk a ofst numd data

def execFirmwareImageDownload (a : Adm) (ofst numd : Nat) (data : Bytes) (s : State) : Out :=
  .next (s.clusterAdmin a (.firmwareImageDownload a ofst numd data) fun s => s.download a ofst numd data)

/-- STREAMED_DOWNLOAD_CHUNK (R417): only where the buffer does not exist; with it, the chunk comes as a plain download. -/
def execStreamedDownloadChunk (a : Adm) (ofst numd : Nat) (data : Bytes) (s : State) : Out :=
  .next (if s.streams then s.clusterAdmin a (.streamedDownloadChunk a ofst numd data) fun s => s.streamChunk a ofst numd data else s)

/-! ### Commit (R418–R420) -/

/-- The end of a commit: the buffer is discarded, whatever the status (R416). -/
def State.endCommit (s : State) (a : Adm) (st : Status) : State :=
  (s.onStore fun t => { t with buffer := none }).reply a st []

/-- Blocks that an image and its trailer fill. -/
def imageBlocks (m : Image) : Nat := cdiv (m.len / 512 + 1) 512

/-- The block of a slot that holds its current trailer. -/
def State.trailerBlock (s : State) (n : Nat) : Option Nat := (s.slotImage n).bind fun m => (s.slotBlocks n)[m.len / 512 / 512]?

/-- Write the buffer's image into a slot (R419): the old trailer's block and the blocks that the image needs are erased, the image and its
trailer programmed, and the slot read back. An erase that fails adds its block to SKIP; a page that fails does too, and the commit takes the
slot up again from step 2. Whether one fails is not determined by the state. With too little room left the slot holds no image. -/
def State.writeSlot (n : Nat) (b : Bytes) (m : Image) : Nat → State → State
  | 0, s => s
  | fuel + 1, s =>
    let first := s.trailerBlock n
    let s := match first with | some b => (s.putImage n none).tryErase b | none => s.putImage n none
    let s := State.eraseSome first (s.slotBlocks n) (imageBlocks m) s
    if !s.slotFits n m.len then s
    else
      let bad := Config.freeNat s.free % (imageBlocks m + 1)
      let s := s.tookFree
      if bad < imageBlocks m then State.writeSlot n b m fuel (s.markBad ((s.slotBlocks n).getD bad 0))
      else
        (s.programSlot n 0 (pagesOf (m.len / 512) (b.take m.len) ++ [s.withSkip n (Sys2Proof.Machine.slice b m.len 512)])).putImage n (some m)

/-- Write the buffer into a slot, and go on with the image where that succeeds. -/
def State.commitBuffer (s : State) (a : Adm) (n : Nat) (k : State → Image → State) : State :=
  match s.buffered with
  | none => s.endCommit a St.invalidImage
  | some b =>
    match imageOf b with
    | none => s.endCommit a St.invalidImage
    | some m =>
      let t := State.writeSlot n b m 193 s
      if (t.slotImage n).isNone then t.endCommit a St.invalidSlot else k (t.log 0x0702 a.path 0x3FF m.release) m

/-- The slot that boots now, as the pointer record names it. -/
def State.activeSlot (s : State) : Nat := match s.store.pointer with | some p => p.active | none => s.store.running.getD 1

/-- The pointer record names a slot as NEXT (R420). -/
def State.setNext (s : State) (n : Nat) : State := s.writePointer s.activeSlot n

/-- The slot a commit's FS names. -/
def State.commitSlot (s : State) (fs : Nat) : Nat := if fs = 0 then s.idleSlot else fs

/-- Commit in a streamed download (Table 12.10). -/
def State.commitStream (s : State) (a : Adm) (n ca : Nat) : State :=
  if n != s.idleSlot && ca != 2 then s.endCommit a St.invalidSlot
  else if ca = 3 then s.endCommit a St.needsReset
  else
    match s.store.stream with
    | none => s.endCommit a St.invalidImage
    | some st =>
      match imageOf st.bytes with
      | none => s.endCommit a St.invalidImage
      | some m =>
        let s := ((s.onStore fun t => { t with stream := none }).putImage n (some m)).log 0x0702 a.path 0x3FF m.release
        (if ca = 1 then s.setNext n else s).endCommit a St.ok

/-- All three clusters are in the compute pool. -/
def State.poolWhole (s : State) : Bool := s.fld Reg.SLU_STATUS_CLUSTERS == 7 && s.power.mode.carriesData

/-- The image that runs. -/
def State.runningImage (s : State) : Option Image := s.store.running.bind s.slotImage

/-- Activation begins (R421): the notice is posted where Asynchronous Event Configuration enables it, and the first cluster leaves the
pool. -/
def State.startActivation (s : State) (a : Adm) (n : Nat) : State :=
  match s.runningImage with
  | none => s.endCommit a St.needsReset
  | some old =>
    let notice (s : State) (c : Fin 2) : State := if natBits (s.feature c 0x0B) 9 1 = 1 then s.raise c 2 1 0x03 else s
    ((notice (notice s 0) 1).onStore fun t => { t with activation := some { adm := some a, slot := n, old := old } }).setCluster 0 false

/-- The release of the running image in the identity block. -/
def State.publishRelease (s : State) : State :=
  let r := match s.runningImage with | some m => m.release | none => 0
  s.setFlds [(Reg.IDV_RELEASE_LO_CHARS, r % 2 ^ 32), (Reg.IDV_RELEASE_HI_CHARS, r / 2 ^ 32)]

/-- Hitless activation of a slot that holds its image, or the outcomes of R422. -/
def State.hitless (s : State) (a : Adm) (n : Nat) (m : Image) (write : (State → State) → State) : State :=
  let same := match s.runningImage with | some r => r.stateFmt == m.stateFmt | none => false
  if !same || !s.poolWhole then write fun s => (s.setNext n).endCommit a St.needsReset
  else if m.editionFmts / 2 ^ s.mgmt.current.format % 2 = 0 then s.endCommit a St.activationProhibited
  else write fun s => s.startActivation a n

/-- CA 011b (R418, R421, R422): with an empty buffer, the image already in the slot. -/
def State.commitNow (s : State) (a : Adm) (n : Nat) : State :=
  match s.store.buffer with
  | none =>
    match s.slotImage n with
    | some m => if m.sound then s.hitless a n m fun k => k s else s.endCommit a St.invalidImage
    | none => s.endCommit a St.invalidImage
  | some _ =>
    match s.buffered.bind imageOf with
    | some m => s.hitless a n m fun k => s.commitBuffer a n fun s _ => k s
    | none => s.endCommit a St.invalidImage

/-- Firmware Commit by its CA field (Table 12.7). -/
def State.firmwareCommit (s : State) (a : Adm) (ca fs : Nat) : State :=
  let n := s.commitSlot fs
  if s.store.activation.isSome then s.endCommit a St.sequence
  else if 3 < ca then s.endCommit a St.invalidField
  else if n ≠ 1 ∧ n ≠ 2 then s.endCommit a St.invalidSlot
  else if s.store.running = some n ∧ ca ≠ 2 then s.endCommit a St.invalidSlot
  else if ca = 2 then (if s.slotValid n then (s.setNext n).endCommit a St.ok else s.endCommit a St.invalidImage)
  else if s.streams then s.commitStream a n ca
  else if ca = 3 then s.commitNow a n
  else s.commitBuffer a n fun s _ => (if ca = 1 then s.setNext n else s).endCommit a St.ok

/-- FIRMWARE_COMMIT_REPLACE (R419). -/
def execFirmwareCommitReplace (a : Adm) (fs : Nat) (s : State) : Out :=
  .next (s.clusterAdmin a (.firmwareCommitReplace a fs) fun s => s.firmwareCommit a 0 fs)

/-- FIRMWARE_COMMIT_REPLACE_ACTIVATE (R418). -/
def execFirmwareCommitReplaceActivate (a : Adm) (fs : Nat) (s : State) : Out :=
  .next (s.clusterAdmin a (.firmwareCommitReplaceActivate a fs) fun s => s.firmwareCommit a 1 fs)

/-- FIRMWARE_COMMIT_ACTIVATE (R418). -/
def execFirmwareCommitActivate (a : Adm) (fs : Nat) (s : State) : Out :=
  .next (s.clusterAdmin a (.firmwareCommitActivate a fs) fun s => s.firmwareCommit a 2 fs)

/-- FIRMWARE_COMMIT_IMMEDIATE (R421). -/
def execFirmwareCommitImmediate (a : Adm) (fs : Nat) (s : State) : Out :=
  .next (s.clusterAdmin a (.firmwareCommitImmediate a fs) fun s => s.firmwareCommit a 3 fs)

/-! ### Activation (R421, R422) -/

/-- The end of an activation: its command completes, and the buffer goes. -/
def State.endActivation (s : State) (r : Reload) (st : Status) : State :=
  let s := s.onStore fun t => { t with activation := none, buffer := none }
  match r.adm with
  | some a => s.reply a st []
  | none => s

/-- A cluster rejoins, and the next one leaves at the same edge; after the last the rider restarts under the new image. -/
def State.clusterMoved (s : State) (r : Reload) : State :=
  let s := s.setCluster r.moved true
  let s := s.onStore fun t => { t with activation := some { r with moved := r.moved + 1 } }
  if r.moved < 2 then s.setCluster (r.moved + 1) false else s.restartRider

/-- A cluster is back under the running image, or is retired; the one moved before it follows. -/
def State.clusterBack (s : State) (r : Reload) (ok : Bool) : State :=
  let s := if ok then s.setCluster r.moved true
    else ((s.retireDomain (Fin.ofNat 24 (6 + r.moved))).retireRecord 6 0x09 r.moved 0).captureTele
  if r.moved = 0 then s.endActivation r St.activationProhibited
  else (s.onStore fun t => { t with activation := some { r with moved := r.moved - 1 } }).setCluster (r.moved - 1) false

/-- CLUSTER_RELOAD (R421, R422): the cluster that is out has been reloaded and has run its self-check. -/
def execClusterReload (selfCheckOk : Bool) (s : State) : Out :=
  .next (match s.store.activation with
    | none => s
    | some r =>
      let s := s.forgetFetch fun c => c < 24 && c / 8 == r.moved
      if 2 < r.moved then s
      else if r.back then s.clusterBack r selfCheckOk
      else if selfCheckOk then s.clusterMoved r
      else (s.onStore fun t => { t with activation := some { r with back := true } }).captureTele)

/-- The rider is back under the new image: the pointer record is written and the commit completes (R421, steps 4 and 5). -/
def State.activationTurn (s : State) : State :=
  match s.store.activation with
  | none => s
  | some r =>
    if r.moved < 3 || s.restarting then s
    else
      let s := (s.writePointer r.slot r.slot).onStore fun t => { t with running := some r.slot }
      let rel := match s.slotImage r.slot with | some m => m.release | none => 0
      (s.publishRelease.log 0x0703 0 0x3FF rel).endActivation r St.ok

end Sys2Proof.Machine
end

