-- ==== Sys2Proof/Machine/Boot.lean ====
section
/-! DEFINITION. Power-on reset and Boot (R136–R141, R161, R179, R184, R217, R323–R333, R340–R345, R413, R414, R434, R481, R499,
R500, R517–R520): what the part keeps without power, the checks of Boot in the order of Table 13.9, the restores, and the restart
from a spill image. -/

namespace Sys2Proof.Machine

/-! ### What the part keeps without power -/

/-- The store keeps its cells and what firmware keeps in its areas. -/
def Store.kept (t : Store) : Store :=
  { pages := t.pages, erased := t.erased, torn := t.torn, markers := t.markers, flags := t.flags, badBlocks := t.badBlocks, slots := t.slots
    ext := t.ext, pointer := t.pointer, pointerPage := t.pointerPage, vpd := t.vpd, ring := t.ring, logAt := t.logAt
    logSeq := t.logSeq, edRecs := t.edRecs, edAt := t.edAt, edSeq := t.edSeq }

/-- A supply collapse leaves the page of a program in progress partly programmed (R332, R408). -/
def State.cutPrograms (s : State) : State :=
  let one (s : State) (b : Fin 2) : State :=
    match (s.bank b).prog with
    | some p => (s.onStore fun t => { t with pages := kput p.page (Config.freeBytes s.free 512) t.pages }).tookFree
    | none => s
  one (one s 0) 1

/-- A member block being erased, by its die's hold. -/
def Flash.erasingNow (f : Flash) : List MBlock :=
  f.dies.filterMap fun d => match d.2.hold with | some h => if h.erase then some ⟨d.1, h.block⟩ else none | none => none

/-- Units whose program was cut: members still being programmed. -/
def Flash.cutUnits (f : Flash) (upm : Nat) : List Nat :=
  f.plans.flatMap fun p => (p.members.filter fun m => m.stage == .programming).map fun m => unitKey m.die m.block (p.off % max 1 upm)

/-- The media keep their units, and the system area the block records and the forme-blocks (R326, R328). Copies that a map update had
not resolved are made again. -/
def Flash.kept (f : Flash) (upm : Nat) : Flash :=
  let cut := f.cutUnits upm
  let fb (x : FormeBlock) : FormeBlock := { x with copies := x.copies.filter fun c => c.2.2.isEmpty }
  { blocks := f.blocks, units := f.units.filter fun u => !cut.contains u.1, formeBlocks := f.formeBlocks.map fb, freed := f.freed
    eraseQueue := f.erasingNow ++ f.eraseQueue, endurance := f.endurance, avail := f.avail }

/-- What the management plane keeps: the stored editions, the self-test results and failure counts, and the captured telemetry. -/
def Mgmt.kept (m : Mgmt) : Mgmt :=
  { current := m.current, previous := m.previous, staged := m.staged, change := m.change, roles := m.roles, results := m.results
    teleCtrl := m.teleCtrl, teleGen := m.teleGen, smart := m.smart
    domTest := m.domTest.map fun d => { failures := d.failures, lastFail := d.lastFail } }

/-- The registers whose state Boot restores are recorded as they stand, once Boot has restored them (R500). -/
def State.recordOut (s : State) : State :=
  let banks := ((List.range 0xC0).filter fun c => s.flag (Reg.OCM_BANK_DISABLE c) || s.fld (Reg.OCM_BANK_REDIRECT c) != 0xFF).map fun c =>
    (c, s.fld (Reg.OCM_BANK_REDIRECT c), s.flag (Reg.OCM_BANK_DISABLE c))
  let slices := ((List.range 12).filter fun c => s.fld (Reg.DMC_STATUS_RETIRED c) != 0).map fun c => (c, s.fld (Reg.DMC_STATUS_RETIRED c))
  if s.power.mode == .boot || s.power.mode == .off || (s.power.mode == .recovery && s.power.prev == .boot) then s
  else s.onNv fun n => { n with
    bankOut := banks, slicesOut := slices, remaps := (s.memory.remaps.filter fun r => !r.copying) }

/-- The part as power-on reset leaves it while it is held: everything without a supply of its own is lost. `cut` tells that the supply
collapsed, so that a store program in progress did not complete (R408). -/
def State.bare (s : State) (cut : Bool) : State :=
  let t := (if cut then s.cutPrograms else s.storeReset).recordOut
  let nv := { t.nv with poweredTurns := t.nv.poweredTurns + t.turn }
  { pending := s.pending, free := t.free, nv := nv, board := s.board, store := t.store.kept, flash := t.flash.kept s.unitsPerMb
    mgmt := t.mgmt.kept, host := { errorCount := t.host.errorCount }, power := { mode := .off, prev := t.power.mode }
    pins := { pwrFailLow := t.pins.pwrFailLow, vholdLow := t.pins.vholdLow, perst := t.pins.perst, porLow := t.pins.porLow, railsDown := t.pins.railsDown } }

/-! ### Power-on reset (R518, R520, R517) -/

/-- Domains that fuses take out (Table 13.3); bit n of the fuse word is domain n. -/
def State.fuseDoms (s : State) (mask : Nat) : State :=
  (List.finRange 24).foldl (fun s n => if mask / 2 ^ n.val % 2 = 1 ∧ n ≠ 0 then s.onDom n fun d => { d with state := .fused } else s) s

/-- Power-on reset is released: the straps are sampled, the turn counter starts at 0, and Boot step 1 begins. -/
def State.powerOn (s : State) (b : Board) : State :=
  let s : State := { s with
    board := b, turn := 0
    power := { mode := .boot }
    pins := { s.pins with hostcfg := b.hostcfg.val, testen := b.testen, porLow := false, railsDown := [], thermtrip := false } }
  let s := (List.range 0xC0).foldl (fun s c => if bankExists c then s.setFld (Reg.OCM_BANK_SPARES c) b.spares else s) s
  (s.setFlds [(Reg.IDV_GRADE_SUFFIX, b.suffix), (Reg.IDV_FUSED_DOM_MASK, b.fusedDom / 2), (Reg.IDV_UID_LO_UID, b.uid.toNat % 2 ^ 32),
    (Reg.IDV_UID_HI_UID, b.uid.toNat / 2 ^ 32), (Reg.HGT_LINK_STATUS_HOSTCFG 0, b.hostcfg.val),
    (Reg.HGT_LINK_STATUS_HOSTCFG 1, b.hostcfg.val)]).fuseDoms b.fusedDom

/-- POWER_ON_RESET (R518): its release, once the part is held in reset. -/
def execPowerOnReset (b : Board) (s : State) : Out := .next (if s.power.mode == .off then s.powerOn b else s)

/-- POR_N_FALL (R520). -/
def execPorNFall (s : State) : Out :=
  .next (match s.power.mode with
    | .off | .boot | .recovery => (s.bare false).onPins fun p => { p with porLow := true }
    | .spill => s
    | _ => s.logUncoded .porIgnored 0x3FF s.power.mode.code)

/-- RAIL_MONITOR_TRIP (R517): power-on reset at once, in every mode. -/
def execRailMonitorTrip (rail : Fin 6) (s : State) : Out :=
  .next ((s.bare true).onPins fun p => { p with railsDown := if p.railsDown.contains rail.val then p.railsDown else rail.val :: p.railsDown })

/-! ### Step 2: flag cells, images (R413, R414) -/

def State.eraseFlags (s : State) : State := s.store.flags.foldl State.tryErase s

/-- The highest valid pointer record across P0 and P1, with its place (R414). -/
def State.findPointer (s : State) : Option (Pointer × Nat) :=
  (s.store.pages.filter fun x => decide (x.1 < 512) || (decide (131072 ≤ x.1) && decide (x.1 < 131584))).foldl (fun best x =>
    if validRecord 1 x.2 then
      let p : Pointer := ⟨leNat (Sys2Proof.Machine.slice x.2 4 4), leNat (Sys2Proof.Machine.slice x.2 16 1), leNat (Sys2Proof.Machine.slice x.2 17 1)⟩
      let at_ := if x.1 < 512 then x.1 else x.1 - 131072 + 512
      match best with
      | some b => if b.1.seq < p.seq then some (p, at_) else best
      | none => some (p, at_)
    else best) none

/-- The pointer record in force: the valid record with the highest SEQ, be it firmware's last or one programmed otherwise. -/
def State.loadPointer (s : State) : State :=
  match s.findPointer with
  | some (p, at_) =>
    if (match s.store.pointer with | some q => decide (q.seq < p.seq) | none => true) then
      s.onStore fun t => { t with pointer := some p, pointerPage := (at_ + 1) % 1024 }
    else s
  | none => s

/-- The image that a run of blocks holds: one of their programmed pages is its trailer, and the pages before it are valid under R412. -/
def State.scanBlocks (s : State) (blocks : List Nat) : Option Image :=
  (s.store.pages.filterMap fun x =>
    match blocks.idxOf? (x.1 / 512) with
    | none => none
    | some i =>
      let n := 512 * i + x.1 % 512
      match trailerOf (512 * n) x.2 with
      | none => none
      | some m =>
        let img := ((List.range n).map fun q => s.store.page (blocks.getD (q / 512) 0 * 512 + q % 512)).flatten
        if imageValid img x.2 m then some { m with sound := true } else none).head?

/-- Slots and boot extension copies that hold nothing that firmware wrote as a whole are read again (R412, R414). -/
def State.scanImages (s : State) : State :=
  let slot (s : State) (n : Nat) : State := if s.slotValid n then s else match s.scanBlocks (s.slotBlocks n) with
    | some m => s.putImage n (some m)
    | none => s
  let ext (s : State) (i : Fin 2) : State := if s.store.ext[i] then s
    else if (s.scanBlocks ((List.range 8).map (· + (1 + 256 * i.val)))).isSome then
      s.onStore fun t => { t with ext := t.ext.setIfInBounds i true }
    else s
  ext (ext (slot (slot s 1) 2) 0) 1

/-- The order in which R414 tries the slots. -/
def State.bootOrder (s : State) : List Nat :=
  match s.store.pointer with
  | some p => [p.next, p.active, 3 - p.active]
  | none => [1, 2]

/-- Select the image (R414): every choice past the first is logged, and a slot other than ACTIVE makes a pointer record. `none`: no
image is valid. -/
def State.selectImage (s : State) : Option State :=
  match s.bootOrder.find? s.slotValid with
  | none => none
  | some n =>
    let s := s.onStore fun t => { t with running := some n }
    let s := if s.store.pointer.isNone || s.bootOrder.head? != some n then s.log 0x0102 0 0x3FF n else s
    let s := match s.store.pointer with
      | some p => if p.active = n then s else s.writePointer n n
      | none => s.writePointer n n
    some s.publishRelease

/-- The execute-only range of the boot extension copy that is used, locked (R400, R428). -/
def State.lockExt (s : State) : State :=
  match (List.finRange 2).find? fun i => s.store.ext[i] with
  | some i => s.setFlds [(Reg.FWS_XO_FIRST i.val, 1), (Reg.FWS_XO_LAST i.val, 8), (Reg.FWS_XO_EN i.val, 1), (Reg.FWS_XO_LOCK i.val, 1)]
  | none => s

/-! ### Step 3: the edition in force (R333) and the scratchpad places -/

/-- The spill image that this start restarts from (R325). -/
def State.startImage (s : State) : Option SpillImage := match s.nv.image with | some i => if i.record then some i else none | none => none

/-- The edition change that power cut is resolved (Table of R333). -/
def State.resolveEdition (s : State) : State :=
  match s.mgmt.change with
  | none => s
  | some c =>
    let done (s : State) : State := (s.onMgmt fun m => { m with change := none }).publishEditions
    if c.phase != .booking then done s
    else
      let whole := match s.startImage with | some i => i.complete && i.edition.isSome | none => false
      if whole then
        let seq := (s.mgmt.roles.toList.foldl (fun n r => match r with | some r => max n r.seq | none => n) 0) + 1
        let r := s.roleRecord seq c.since
        done (((s.onMgmt fun m => { m with roles := #v[some r, some r] }).putEdition r.bytes).log (if c.revert then 0x0202 else 0x0201) c.path 0x3FF s.mgmt.current.number)
      else
        let new := s.mgmt.current
        let old := s.mgmt.previous.getD {}
        let s := s.onMgmt fun m =>
          { m with current := old, previous := if c.revert then some new else c.before, staged := if c.revert then m.staged else some new }
        done (s.log 0x0205 0 0x3FF (old.number + new.number * 2 ^ 32))

/-- The places of tables in the scratchpad (R177, R203, R252, R261, R268): banks 0 to 6, as the boot firmware lays them out. -/
def State.placeScratch (s : State) : State :=
  s.setFlds [(Reg.DMC_MAP_GRAN_GRAN_BANK, 0), (Reg.DMC_MAP_GRAN_NS_BANK, 1), (Reg.LDP_DLX_TABLE_BANK, 2), (Reg.LDP_DLX_TABLE_OFFSET_KIB, 0),
    (Reg.DMC_MUP_RING_BANK, 3), (Reg.DMC_MUP_RING_LOG2_ENTRIES, 11), (Reg.LDP_MR_RING_BANK, 4), (Reg.LDP_MR_RING_LOG2_ENTRIES, 10),
    (Reg.FRM_ACC_BANK_FIRST, 5)]

/-- The edition in force, at its first switch edge (R499). -/
def State.loadEdition (s : State) : State :=
  let e := s.mgmt.current
  let s := (s.loadRwe e).loadDellux e
  let s := s.onPower fun p => { p with floorEdition := Vector.ofFn fun i => e.floor.getD i.val 0 }
  (s.onPins fun p => { p with gpio := e.gpios }).publishEditions

/-! ### Step 4: DRAM (R340, R341, R344, R345) -/

/-- A channel in use after training and fill. -/
def State.dramUp (s : State) (c : Nat) (p : DramPop) : State :=
  s.setFlds [(Reg.DMC_CFG_RATE c, p.rate), (Reg.DMC_CFG_X4 c, p.x4.toNat), (Reg.DMC_CFG_RANKS c, p.ranks2.toNat), (Reg.DMC_CFG_DENSITY c, p.density),
    (Reg.DMC_CFG_HALF c, p.half.toNat), (Reg.DMC_CFG_ENABLE c, 1), (Reg.DMC_STATUS_STATE c, 3), (Reg.DMC_FILL_DONE c, 1),
    (Reg.DMC_HAMMER_RFM_SUP c, p.rfm.toNat), (Reg.DMC_HAMMER_DRFM_SUP c, p.drfm.toNat), (Reg.DMC_EVENT_TRAIN_DONE c, 1), (Reg.DMC_EVENT_FILL_DONE c, 1)]

def State.dramLayout (s : State) : State :=
  let b := s.board
  let used := b.dramUsed
  let p := (b.pop 0).getD {}
  let s := used.foldl (fun s c => s.dramUp c p) s
  (s.setFlds [(Reg.DMC_LAYOUT_K, used.length / 2), (Reg.DMC_LAYOUT_HALF, p.half.toNat),
    (Reg.DMC_LAYOUT_PRESENT, used.foldl setBitNat 0), (Reg.DMC_LAYOUT_CHAN_GIB, p.gib)]).onMemory fun m => { m with trained := used }

/-- A channel whose full search fails is logged and recorded (R344). -/
def State.trainFailures (s : State) : State :=
  (s.board.dramFail.filter fun c => (s.board.pop c).isSome).foldl (fun s c => (s.logUncoded .training 0x3FF c).retireRecord 7 0x0D c 0) s

/-! ### Step 5: dies (R136–R141, R161) -/

/-- A learned field: the worst measurement plus the guard of R160, at most the field's top. -/
def guarded (f : Fld) (m : Nat) : Nat := min (2 ^ f.width - 1) (m + max 2 (cdiv m 16))

/-- The build rate (R141). -/
def State.buildRate (s : State) : Nat := (List.range 64).foldl (fun m c => max m (s.fld (Reg.FCE_RATE_MAX_IDX c))) s.board.geom.fastest

/-- The template's bytes as the words of FCE.THR_DESC[1..3]. -/
def templateWord (b : Bytes) (j : Nat) : Nat := leNat (padTo 4 (slice b (4 * j) 4))

/-- A channel as Boot leaves it: geometry, template, interface CRC and the rung it trains at (R141, R143, R163, R168). -/
def State.chanUp (s : State) (c build : Nat) : State :=
  let b := s.board
  let g := b.geom
  let s := s.setFlds [(Reg.FCE_GEOM_A_PAGE c, if g.pageKiB = 4 then 0 else if g.pageKiB = 8 then 1 else 2), (Reg.FCE_GEOM_A_PLANES c, g.planes),
    (Reg.FCE_GEOM_A_BPC c, g.bpc - 1), (Reg.FCE_GEOM_A_SPARE c, g.spare), (Reg.FCE_GEOM_A_LUNS c, if g.luns = 1 then 0 else if g.luns = 2 then 1 else 2),
    (Reg.FCE_GEOM_B_PAGES_PER_BLOCK c, g.pagesPerBlock), (Reg.FCE_GEOM_B_BLOCKS_PER_PLANE c, g.blocksPerPlane)]
  if (b.positions c).isEmpty then s
  else
    let rung := max build ((klook c b.trainRung).getD build)
    let up := decide (rung ≤ s.fld (Reg.FCE_RATE_FLOOR_IDX c))
    let s := s.setFlds [(Reg.FCE_STATUS_DIES c, (b.positions c).length), (Reg.FCE_STATUS_TOGGLE c, g.toggle.toNat), (Reg.FCE_RATE_BUILD_IDX c, build),
      (Reg.FCE_CTRL_IFCRC_EN c, g.ifcrc.toNat), (Reg.FCE_THR_DESC0_LEN c, min 12 g.template.length), (Reg.FCE_THR_DESC0_OFS_POS c, g.ofsPos),
      (Reg.FCE_THR_DESC0_OFS_COUNT c, g.ofsCount), (Reg.FCE_THR_DESC_BYTES c 0, templateWord g.template 0),
      (Reg.FCE_THR_DESC_BYTES c 1, templateWord g.template 1), (Reg.FCE_THR_DESC_BYTES c 2, templateWord g.template 2)]
    if up then s.setFlds [(Reg.FCE_STATUS_STATE c, 2), (Reg.FCE_STATUS_CUR_IDX c, rung), (Reg.FCE_STATUS_DEGRADED c, if build < rung then 1 else 0)]
    else (s.setFld (Reg.FCE_STATUS_STATE c) 4).onSluice fun x => { x with chansOut := (c, 0, none) :: x.chansOut }

/-- A die as Boot leaves it: its place, its learned times, its state (R136, R137, R161). What the 64 reads, 2 programs, 2 erases and 4
suspends of each kind measure on a spare block of the die is the board's to say. -/
def State.dieUp (s : State) (n : Nat) : State :=
  let b := s.board
  let g := b.geom
  let p := n % 16 % 8
  let worst := (klook n b.dieTimes).getD [g.tR, g.tSuspP, g.tSuspE, g.tProg, g.tErs]
  let saturates := b.saturating.contains n || (List.range 5).any fun k => decide (2 ^ (learnedFld n k).width - 1 ≤ worst.getD k 0)
  let s := s.setFlds [(Reg.FUR_CFG_CE n, n % 16 / 8), (Reg.FUR_CFG_VOLUME n, if g.toggle then 0 else p / g.luns),
    (Reg.FUR_CFG_LUN n, if g.toggle then p else p % g.luns), (Reg.FUR_CFG_PRESENT n, 1), (Reg.FUR_STATUS_STATE n, 1), (Reg.SLU_DIE_STATE_STATE n, 0),
    (learnedFld n 0, guarded (learnedFld n 0) (worst.getD 0 0)), (learnedFld n 1, guarded (learnedFld n 1) (worst.getD 1 0)),
    (learnedFld n 2, guarded (learnedFld n 2) (worst.getD 2 0)), (learnedFld n 3, guarded (learnedFld n 3) (worst.getD 3 0)),
    (learnedFld n 4, guarded (learnedFld n 4) (worst.getD 4 0)), (Reg.SLU_DIE_TIME_A_T_RS n, min 63 g.tRs)]
  if saturates then s.failDie n else s

/-- Page types and levels from the dies' vendor data (R261). -/
def State.pageTypes (s : State) : State :=
  let g := s.board.geom
  if g.ptypes.isEmpty then s
  else
    let s := s.setFlds [(Reg.LDP_DLX_CFG_PT_PERIOD_M1, min 64 g.ptypes.length - 1), (Reg.LDP_DLX_CFG_ENABLE, 1)]
    let s := ((g.ptypes.take 64).zipIdx).foldl (fun s x => s.setFld ⟨Reg.LDP_DLX_PTYPE (x.2 / 16), 2 * (x.2 % 16), 2⟩ x.1) s
    ((g.pageMaps.take 4).zipIdx).foldl (fun s x =>
      ((x.1.take 7).zipIdx).foldl (fun s y => s.setFld ⟨Reg.LDP_DLX_PAGEMAP x.2, 4 * y.2 + 4, 4⟩ y.1) (s.setFld (Reg.LDP_DLX_PAGEMAP_COUNT x.2) (min 7 x.1.length))) s

/-- The places of the map, the overlay, the stamps, the read counters and the remap reserve in the interleaved space, one behind the
other, as the boot firmware lays them out (R178, R182, R257, R264, R352). -/
def State.placeDram (s : State) : State :=
  let raw := s.board.rawUnits
  let u := s.board.geom.units
  let stamps := cdiv (raw * 4) (2 ^ 20) + cdiv (raw / 2) (2 ^ 20)
  let reads := stamps + cdiv (raw / max 1 u * 8 * cdiv u 32) (2 ^ 20)
  let remaps := cdiv (reads + cdiv (4096 * s.board.geom.blocksPerPlane) (2 ^ 20)) 1024
  s.setFlds [(Reg.DMC_MAP_CFG_LANES, if s.board.lanes = 1 then 0 else if s.board.lanes = 2 then 1 else 2), (Reg.DMC_MAP_CFG_UNITS_PER_MB, u),
    (Reg.DMC_MAP_BASE_BASE_GIB, 0), (Reg.LDP_DLX_STAMP_BASE_MIB, stamps), (Reg.LDP_RD_BASE_BASE_MIB, reads), (Reg.DMC_REMAP_BASE_BASE_GIB, remaps)]

/-- DRAM above the requirement at Boot, with an event where no slice is spare (R354). -/
def State.spareDram (s : State) : State :=
  let s := s.countSpare
  if s.flag Reg.DMC_SPARE_SPARE_OK then s else s.logUncoded .dramSpare 0x3FF (s.fld Reg.DMC_SPARE_GIB)

/-! ### Retirement state (R500) -/

def State.restoreOut (s : State) : State :=
  let s := s.nv.outWords.foldl (fun s w => s.setWord w.1 (BitVec.ofNat 32 w.2)) s
  let s := s.nv.retiredDies.foldl (fun s d => s.setFlds [(Reg.SLU_DIE_STATE_STATE d, 2), (Reg.FUR_STATUS_STATE d, 0xB)]) s
  let s := (List.range 64).foldl (fun s c => if s.chanRetired c then
    (s.setFld (Reg.FCE_STATUS_STATE c) 5).onSluice fun x => { x with chansOut := (c, 0, none) :: x.chansOut } else s) s
  let s := s.nv.retiredDoms.foldl (fun s n => s.setFld (Reg.PMC_DOM_RETIRE n) 1) s
  let s := s.nv.bankOut.foldl (fun s b => s.setFld (Reg.OCM_BANK_REDIRECT b.1) b.2.1) s
  let s := s.nv.bankOut.foldl (fun s b => if b.2.2 then (s.setFld (Reg.OCM_BANK_DISABLE b.1) 1).addFld Reg.OCM_STATUS_DISABLED_COUNT 1 else s) s
  let s := s.nv.slicesOut.foldl (fun s x => s.setFld (Reg.DMC_STATUS_RETIRED x.1) x.2) s
  let used (s : State) (c : Nat) : Nat := (s.nv.remaps.filter fun r => (s.sliceOf r.block).1 == c).length
  let s := (List.range 12).foldl (fun s c => if used s c = 0 then s else s.setFld (Reg.DMC_REMAP_USED c) (used s c)) s
  let s := s.onMemory fun m => { m with remaps := s.nv.remaps }
  if s.nv.sealed then s.setFlds [(Reg.PMC_MODE_REQ_SEAL, 1), (Reg.SLU_STATUS_SEALED, 1)] else s

/-- Decoders and clusters in service, and channels in plan (R131). -/
def State.poolStatus (s : State) : State :=
  let live (n : Nat) : Bool := !s.isDead (Fin.ofNat 24 n)
  let clusters := ([0, 1, 2].filter fun c => live (6 + c)).foldl setBitNat 0
  s.setFlds [(Reg.SLU_STATUS_CLUSTERS, clusters), (Reg.SLU_STATUS_HARD_DEC, 32 - popCount 32 (s.fld Reg.LDP_HARD_OUT_OUT)),
    (Reg.SLU_STATUS_SOFT_DEC, 8 - popCount 8 (s.fld Reg.LDP_SOFT_OUT_OUT)),
    (Reg.SLU_STATUS_CHANNELS, ((List.range 64).filter fun c => s.fld (Reg.FCE_STATUS_STATE c) == 2).length)]

/-! ### Domains and banks -/

/-- The owner that the shipped firmware gives a bank (Table 10.4). -/
def bankOwner (c : Nat) : Nat :=
  if c < 30 then 0 else if 0x40 ≤ c ∧ c < 0x58 then [8, 16, 0].getD ((c - 0x40) / 8) 0 else if 0x80 ≤ c then c else 0x60

/-- A bank of a domain that is ON, swept at the domain's first power (R361), or disabled (R365). -/
def State.bankUp (s : State) (c : Nat) : State :=
  s.setFlds [(Reg.OCM_BANK_STATE c, if s.flag (Reg.OCM_BANK_DISABLE c) then 3 else 1), (Reg.OCM_BANK_OWNER c, bankOwner c)]

/-- Every domain as Boot leaves it: what is fused stays out, retired domains and flash groups with no die never answer, the PHY of a port
without a link is off, and the rest is ON, with the boot firmware's vote where Table 13.3 has votes. -/
def State.domUp (s : State) (n : Fin 24) : State :=
  if (s.dom n).state == .fused || n = 0 then s
  else if s.nv.retiredDoms.contains n.val then s.onDom n fun d => { d with state := .retired }
  else if 13 ≤ n.val ∧ n.val ≤ 20 ∧ (s.board.diesOn.all fun d => d / 128 != n.val - 13) then s.onDom n fun d => { d with state := .absent }
  else if s.portDown n then s.onDom n fun d => { d with state := .off }
  else
    (domainBanks n).foldl State.bankUp
      (s.onDom n fun d => { d with
        state := .on, idleFrom := s.turn, votes := if domPolicy n = 3 then 0 :: d.votes.erase 0 else d.votes })

def State.domainsUp (s : State) : State := (List.finRange 24).foldl State.domUp s

/-! ### Step 6: the map, the galley and the restart from a spill (R325–R329) -/

/-- Journal records in SEQ order. -/
def insertRec (r : JournalRec) : List JournalRec → List JournalRec
  | [] => [r]
  | x :: t => if r.seq ≤ x.seq then r :: x :: t else x :: insertRec r t

def sortRecs (l : List JournalRec) : List JournalRec := l.foldr insertRec []

/-- The request that wrote a record, by its journal KIND (Table 05.10). -/
def JournalRec.req (r : JournalRec) : Option (Nat × MapReq) :=
  let q : MapReq := { target := r.unit, new := r.new, slot := r.slot, aux := r.aux }
  match r.kind with
  | 1 => some (3, q) | 2 => some (3, q) | 3 => some (4, q) | 4 => some (5, q) | 5 => some (6, q) | 7 => some (7, q) | 8 => some (8, q) | _ => none

def State.replayRec (s : State) (r : JournalRec) : State := match r.req with | some x => s.reqWrite x.1 x.2 | none => s

/-- Replay: every record in flash above SNAP_SEQ, and the spilled ones up to the first gap in SEQ (R326). Answers the state and the
records replayed. -/
def State.replay (s : State) (spilled : List JournalRec) : State × List JournalRec :=
  let flash := s.nv.journal.filter fun r => decide (s.nv.snapSeq < r.seq)
  let all := sortRecs (flash ++ spilled.filter fun r => decide (s.nv.snapSeq < r.seq) && !flash.any fun x => x.seq == r.seq)
  let step (a : State × List JournalRec × Option Nat × Bool) (r : JournalRec) : State × List JournalRec × Option Nat × Bool :=
    let whole := a.2.2.2 && (match a.2.2.1 with | some n => n + 1 == r.seq | none => true)
    if whole || flash.any fun x => x.seq == r.seq then (a.1.replayRec r, a.2.1 ++ [r], some r.seq, whole) else (a.1, a.2.1, a.2.2.1, false)
  let r := all.foldl step (s, [], none, true)
  (r.1, r.2.1)

/-- Load the last complete snapshot (R326). -/
def State.loadTables (s : State) (t : Tables) : State :=
  let s := t.map.foldl (fun s x => s.poke (s.mapAddr x.1) 4 x.2) s
  let s := t.gran.foldl (fun s x => s.poke (s.granAddr x.1) 4 x.2) s
  let s := t.nst.foldl (fun s x => s.poke (s.nstAddr 0 0 + 4 * x.1) 4 x.2) s
  s.onGalley fun g => { g with ovl := t.ovl, fbt := t.fbt, zones := t.zones }

/-- A unit recorded LOST at restart (R327). -/
def State.loseAtRestart (s : State) (g : Nat) : State := ((s.applyReq 3 { target := g, new := 2 } 0).2).recordLost g 0x03

/-- The sectors of a spilled slot have valid proofs. -/
def sectorsSound (l : List (Option Sector)) : Bool :=
  l.all fun x => match x with | some c => c.proof == crc32c c.fields.flatten | none => true

/-- The spilled slots return as the newest residencies; those that are missing or fail their proof make their units LOST. Answers the
state and the count of units recorded LOST. -/
def State.restoreSlots (s : State) (i : SpillImage) : State × Nat :=
  ((i.slots.take i.dirs).zipIdx).foldl (fun a x =>
    if x.2 < i.gals && sectorsSound x.1.2 then
      (a.1.onGalley fun g => { g with
        slots := kput x.2 { unit := x.1.1, state := .resident, sectors := x.1.2, order := g.order } g.slots, order := g.order + 1
        restored := (g.order, x.1.1) :: g.restored }, a.2)
    else (a.1.loseAtRestart x.1.1, a.2 + 1)) (s, 0)

/-- The spilled journal slots return to the galley journal. -/
def State.restoreJournal (s : State) (i : SpillImage) : State :=
  let l := i.journal.take i.jnls
  s.onGalley fun g => { g with journal := l, restoredJnl := l.map (·.1), nextSlot := (l.foldl (fun n x => max n (x.1 + 1)) 0) % 65536 }

/-- The lane and forme-unit index that a replayed record names as a new location. -/
def State.recPlace (s : State) (r : JournalRec) : Option (Nat × Nat) :=
  let at_ (lane : Nat) : Option (Nat × Nat) := match entryOf r.new with | .flash f _ => some (lane, f) | _ => none
  if r.kind = 1 ∨ r.kind = 2 then at_ (s.laneOf r.unit)
  else if r.kind = 3 ∧ natBits r.unit 32 4 ≤ 4 then at_ (s.laneOf (s.overlay (natBits r.unit 0 28)).unit)
  else none

/-- The tag scan of one forme-block (R328): units beyond the highest offset that a replayed record names. -/
def State.scanForme (s : State) (recs : List JournalRec) (f : FormeBlock) : State :=
  let u := max 1 s.unitsPerMb
  let named := recs.filterMap fun r => match s.recPlace r with | some p => if p.1 = f.lane ∧ p.2 / u = f.b then some (p.2 % u) else none | none => none
  let from_ := match named with | [] => 0 | l => l.foldl max 0 + 1
  let whole (x : MediaUnit) : Option Nat :=
    match x.sectors with
    | [some a, some b, some c, some d] => if a.1 = b.1 ∧ a.1 = c.1 ∧ a.1 = d.1 ∧ [a.2.1, b.2.1, c.2.1, d.2.1] = [0, 1, 2, 3] then some a.1 else none
    | _ => none
  (List.range (f.next - from_)).foldl (fun s i =>
    (f.members.take 14).zipIdx.foldl (fun s m =>
      match klook (unitKey m.1.die m.1.block (from_ + i)) s.flash.units with
      | some x =>
        match whole x with
        | some g => (s.applyReq 3 { target := g, new := entryWord (.flash (f.b * u + from_ + i) m.2) } 0).2
        | none => s
      | none => s) s) s

/-- Restart after an incomplete spill (R328, R329): the tag scan, in the order of the OPEN records. -/
def State.tagScan (s : State) (recs : List JournalRec) : State :=
  let last := recs.foldl (fun n r => max n r.seq) s.nv.snapSeq
  (s.flash.formeBlocks.filter fun f => match f.closeSeq with | some c => decide (last < c) | none => true).foldl (fun s f => s.scanForme recs f) s

/-- Forme-blocks that were open are closed and become space victims (R326). -/
def State.closeOpen (s : State) : State :=
  s.onFlash fun x => { x with formeBlocks := x.formeBlocks.map fun f => { f with
    isOpen := false, closeSeq := some (f.closeSeq.getD (s.galley.jnlSeq - 1))
    closedRot := if f.isOpen then s.dlxNow else f.closedRot } }

/-- The copy of the stamp region holds the stamp of a unit as it was programmed: no later program touched it (R263). -/
def State.stampSaved (s : State) (a : Nat) (x : MediaUnit) : Option Nat :=
  (klook a s.nv.stamps).bind fun old => if natBits old 63 1 = 1 ∧ natBits old 0 32 = x.wrot then some old else none

/-- Stamps of programmed units: from the copy where it has them; the others are left to the background (R263). -/
def State.restoreStamps (s : State) : State :=
  s.flash.formeBlocks.foldl (fun s f =>
    f.members.zipIdx.foldl (fun s m =>
      (s.flash.units.filter fun x => x.1 / 2 ^ 32 == m.1.die * 65536 + m.1.block).foldl (fun s x =>
        let a := s.stampAddr f.lane f.b m.2 (x.1 % 2 ^ 32)
        match s.stampSaved a x.2 with
        | some old => s.poke a 8 old
        | none => s.onFlash fun y => { y with stampsDue := y.stampsDue ++ [(f.lane, f.b, m.2, x.1)] }) s) s) s

/-- The journal goes on from the highest SEQ known; the mark record of the snapshot has one too. -/
def State.nextSeq (s : State) (recs : List JournalRec) : Nat :=
  (recs ++ s.nv.journal).foldl (fun n r => max n r.seq) (if s.nv.snapSeq = 0 then 0 else s.nv.snapSeq + 1) + 1

/-- What an incomplete spill leaves (R329). -/
def State.spillIncomplete (s : State) (i : Option SpillImage) (lost last : Nat) : State :=
  let unnamed := match i with | some x => x.slots.length - x.dirs | none => 0
  let s := ((s.onNv fun n => { n with incomplete := true, warning := setBitNat n.warning 4 }).raiseBoth 7 0xD8 0xC3).log 0x0601 0 0x3FF
    (0xD8 + min lost (2 ^ 24 - 1) * 2 ^ 8 + min unnamed (2 ^ 32 - 1) * 2 ^ 32)
  s.log 0x0508 0 0x3FF (s.nv.spillSeq + last % 2 ^ 32 * 2 ^ 32)

/-- Boot step 6. -/
def State.restart (s : State) : State :=
  let s := s.loadTables s.nv.snapshot
  let i := s.startImage
  let spilled := match i with | some x => (x.journal.take x.jnls).flatMap (·.2) | none => []
  let r := s.replay spilled
  let s := r.1.onGalley fun g => { g with jnlSeq := s.nextSeq (r.2 ++ spilled) }
  let s := match i with | some x => s.restoreJournal x | none => s
  let cut := match i with | some x => !x.complete || (s.nv.spillMark && x.seq != s.nv.spillSeq) | none => s.nv.spillMark
  let s := if cut then s.tagScan r.2 else s
  let t := match i with | some x => s.restoreSlots x | none => (s, 0)
  let s := t.1
  let s := if cut then s.spillIncomplete i t.2 (r.2.foldl (fun n x => max n x.seq) s.nv.snapSeq)
    else if i.isSome then s.log 0x0508 0 0x3FF s.nv.spillSeq else s
  let s := match i with | some x => s.onMgmt fun m => { m with log := x.log ++ m.log } | none => s
  (s.closeOpen).restoreStamps

/-! ### Step 7 -/

/-- The saved features of a controller take force (Table 02.9). -/
def State.loadSaved (s : State) (c : Fin 2) : State :=
  let own := (s.nv.features.filter fun x => x.1 / 2 ^ 32 == c.val).map fun x => (x.1 % 2 ^ 32, x.2)
  let s := s.onCtl c fun x => { x with features := own.filter fun x => x.1 != 2 }
  match klook 0x0C own with
  | some v => s.onPower fun p => { p with apstOn := v % 2 == 1 }
  | none => s

/-- The power states saved by the controllers (R83). -/
def State.loadPower (s : State) : State :=
  let ps (c : Nat) : Nat := (klook (c * 2 ^ 32 + 2) s.nv.features).getD 0
  let s := s.setFlds [(Reg.PMC_PS_C0_SEL, ps 0), (Reg.PMC_PS_C1_SEL, ps 1)]
  let g := s.governing
  if g ≤ 2 then ((s.setFld Reg.PMC_PS_PS g).onPower fun p => { p with operPs := g }).applyCeil
  else if s.nv.sealed then s.applyCeil
  else ((s.onPower fun p => { p with entry := some { began := s.turn, target := g, req := none } }).setFld Reg.PMC_PS_ENTERING 1).applyCeil

/-- The start-up tests of the domains whose test did not pass in the shutdown before (R481): each passes, or the domain would not be ON. -/
def State.startTests (s : State) : State :=
  (List.finRange 24).foldl (fun s n =>
    if n.val < 2 || n = 23 || s.nv.shutTested.contains n.val || !s.isOn n then s
    else s.onMgmt fun m => { m with domTest := vupd m.domTest n fun d =>
      { d with ended := s.turn, duration := fullTestTurns n, result := 1, kind := 3, source := 8
               cov1 := (itemCoverage (domItem n) true).1, cov2 := (itemCoverage (domItem n) true).2 } }) s

/-- The counts of a start (R329, R468). -/
def State.countStart (s : State) : State :=
  s.onNv fun n => { n with
    powerCycles := n.powerCycles + 1
    unsafeShutdowns := if n.clean && !n.spillMark then n.unsafeShutdowns else n.unsafeShutdowns + 1
    clean := false, spillMark := false, shutTested := [] }

/-- An erase operation that power cut: a Sanitize begins again, a Format's or a deletion's namespaces take commands again (R298). -/
def State.resumeWipe (s : State) : State :=
  let s := s.onNv fun n => { n with namespaces := n.namespaces.map fun x => { x with busy := 0 } }
  if s.nv.sanitize = 2 then s.beginWipe none s.nv.sanitizeAction (s.nv.namespaces.map (·.nsid)) true none else s

/-- System blocks of a die at first format: the member blocks of two spillway sets, each of at least 1.125 × (5 GiB + 4 MiB) × 16 ÷ 14 of SLC
capacity spread evenly over the dies (R324). -/
def spillBlocks (b : Board) : Nat :=
  let set : Rat := 9 / 8 * (5 * 2 ^ 30 + 4 * 2 ^ 20) * 16 / 14
  let slc : Rat := (b.geom.units * 16384 : Nat) / ((max 1 b.geom.bpc : Nat) : Rat)
  2 * (set / (((max 1 b.diesOn.length : Nat) : Rat) * slc)).ceil.toNat

/-- The block records of a die at first format (R215): what its maker marked bad, and its lowest good blocks as system blocks. Which blocks
these are, and blocks for the system area beyond the spillway, the spec does not state (DESIGN CHOICE, assumption log 171). -/
def firstBlocks (b : Board) (die : Nat) : List (Nat × BlockInfo) :=
  let bad := (b.badBlocks.filter fun x => x.1 == die).map (·.2)
  let good := ((List.range (spillBlocks b + bad.length)).filter fun i => !bad.contains i).take (spillBlocks b)
  let l := good.foldl (fun l i => kput (blockKey die i) { free := false, system := true } l) []
  bad.foldl (fun l i => kput (blockKey die i) { free := false, bad := true } l) l

/-- The first format (R215, R217, assumption log 8). -/
def State.firstFormat (s : State) : State :=
  if s.nv.formatted then s.recomputeSpare
  else
    let s := s.onFlash fun x => { x with blocks := s.board.diesOn.flatMap (firstBlocks s.board) }
    let s := s.onNv fun n => { n with formatted := true, wear := { n.wear with rot0 := s.fld Reg.LDP_DLX_NOW_ROT, saved := s.savedCap, burst := true } }
    s.fixCapacity

/-- Steps 6 and 7. -/
def State.enterService (s : State) : State :=
  let now := match s.startImage with | some i => max s.nv.dlxSaved i.dlxNow | none => s.nv.dlxSaved
  let s := s.setFld Reg.LDP_DLX_NOW_ROT (now + 1)
  let s := s.restoreOut.domainsUp.poolStatus.firstFormat
  let s := s.setFlds [(Reg.PMC_SPILL_SEQ_SEQ, s.nv.spillSeq)] |>.setWord Reg.PMC_SPILL_STATUS s.nv.spillWord
  let s := (s.restart).startTests
  let s := s.onSluice fun x => { x with hold := false }
  let s := ((s.countStart).loadSaved 0).loadSaved 1
  let s := s.setMode (if s.nv.sealed then .sealed else .service)
  let s := s.loadPower.resumeWipe
  let rdy (x : Controller) : Controller := if x.en then { x with rdy := true } else x
  let s := (s.onCtl 0 rdy).onCtl 1 rdy
  s.onMgmt fun m => { m with smart := s.smartCounts }

/-- Steps 4 and 5, with their checks in the order of Table 13.9. -/
def State.bootMemories (s : State) : State :=
  match s.board.dramBad with
  | some c => (s.logUncoded .population 0x3FF c).enterRecovery 4
  | none =>
    let s := s.trainFailures
    let k := s.board.dramUsed.length / 2
    if k < 2 then s.enterRecovery 7
    else
      let s := s.dramLayout
      match s.board.geomBad with
      | some d => (s.logUncoded .geometry 0x3FF d).enterRecovery 2
      | none =>
        match s.board.laneBad with
        | some c => (s.logUncoded .laneRule 0x3FF c).enterRecovery 3
        | none =>
          if decide ((s.board.dramGib : Rat) < s.board.dramNeed k) then s.enterRecovery (if k < s.board.pairs then 7 else 1)
          else
            let build := s.buildRate
            let s := (List.range 64).foldl (fun s c => s.chanUp c build) s
            let s := (s.board.diesOn.foldl State.dieUp s).pageTypes
            (s.placeDram.spareDram).writeSpillRate.enterService

/-- BOOT_END (R434): Boot from step 2 on. In factory test the boot ROM does not run (R513); while a power failure is waited out, nothing
does (R314); and with no valid image and no valid boot extension the device stays in the boot ROM (R414). -/
def execBootEnd (s : State) : Out :=
  .next (if s.power.mode != .boot || s.pins.testen || s.cistern.waiting then s
    else
      let s := s.eraseFlags.loadPointer.scanImages
      match s.selectImage with
      | some s => (s.lockExt.placeScratch.resolveEdition.loadEdition).bootMemories
      | none => if s.store.ext.any (fun x => x) then (s.lockExt.log 0x0102 0 0x3FF 0).enterRecovery 5 else s.log 0x0102 0 0x3FF 0)

end Sys2Proof.Machine
end

