-- ==== Sys2Proof/Machine/DmaRing.lean ====
section
/-! DEFINITION. The descriptor rings of the firmware DMA channels (R375, R378, R386–R388, R392): descriptors, how one ends, and the writes
of the owner's registers. -/

namespace Sys2Proof.Machine

/-! ### Descriptors (Tables 11.2 to 11.4) -/

def Desc.swap (d : Desc) : Nat := natBits d.ctrl 0 3
def Desc.srcSpace (d : Desc) : Nat := natBits d.ctrl 3 2
def Desc.dstSpace (d : Desc) : Nat := natBits d.ctrl 5 2
def Desc.srcFix (d : Desc) : Bool := natBits d.ctrl 7 1 == 1
def Desc.dstFix (d : Desc) : Bool := natBits d.ctrl 8 1 == 1
def Desc.req (d : Desc) : Bool := natBits d.ctrl 9 1 == 1
def Desc.burst (d : Desc) : Nat := 2 ^ natBits d.ctrl 10 4
def Desc.irq (d : Desc) : Bool := natBits d.ctrl 14 1 == 1

/-- A local side lies in the setup window. -/
def inSetup (space a : Nat) : Bool := space == 0 && decide (0x20000000 ≤ a) && decide (a < 0x24000000)

/-- A side lies in the setup window. -/
def Desc.onSetup (d : Desc) : Bool := inSetup d.srcSpace d.src || inSetup d.dstSpace d.dst

/-- Bytes of the burst that starts at an offset: at most a burst, and not across an address aligned to it on a side that moves. -/
def Desc.burstFrom (d : Desc) (p : Nat) : Nat :=
  let room (fix : Bool) (a : Nat) : Nat := if fix then d.burst else d.burst - (a + p) % d.burst
  let n := min (room d.srcFix d.src) (room d.dstFix d.dst)
  min (d.count - p) (if d.onSetup then max 4 (n / 4 * 4) else n)

/-! ### Ends of a descriptor -/

/-- Ring slot address of a channel (R378). -/
def State.dmaSlot (s : State) (ch : Nat) (i : Nat) : Nat :=
  s.fld (Reg.DMA_RING_BASE_LO_BASE_LO ch) * 4096 + s.fld (Reg.DMA_RING_BASE_HI_BASE_HI ch) * 2 ^ 32 + 32 * i

/-- Entries of a channel's ring. LOG2_ENTRIES is 12 at most (R393); a larger value acts as 12. -/
def State.dmaRing (s : State) (ch : Nat) : Nat := 2 ^ (min 12 (s.fld (Reg.DMA_RING_CFG_LOG2_ENTRIES ch)) + 4)

/-- The channel holds or withdraws its vote on XFORM (R375, R436). -/
def State.dmaVote (s : State) (ch : Nat) (hold : Bool) : State := if hold then s.holdVote 22 (0x40 + ch) else s.dropVote 22 (0x40 + ch)

/-- The written-back STATUS word (Table 11.4). -/
def statusWord (done aborted late dropped : Bool) (code : Nat) (desc : Bool) : Nat :=
  done.toNat + aborted.toNat * 2 + late.toNat * 4 + dropped.toNat * 8 + code * 16 + desc.toNat * 256

/-- Overlap that makes the engine copy from the highest burst down (R383). -/
def State.descending (s : State) (d : Desc) : Bool :=
  d.srcSpace = 0 && d.dstSpace = 0 && !d.srcFix && !d.dstFix &&
  decide (s.storage d.src < s.storage d.dst) && decide (s.storage d.dst < s.storage d.src + d.count)

/-- End a descriptor: the STATUS and RESIDUE words are written back, HEAD advances, the interrupt bits are set, and the
channel halts on ABORTED, LATE_ABORT or a CODE (R378, R386–R388, R395). -/
def State.dmaEnd (s : State) (ch : Fin 32) (j : DmaJob) (aborted : Bool) (code residue : Nat) : State :=
  let done := !aborted && code == 0
  let head := s.fld (Reg.DMA_RING_PTR_HEAD ch)
  let slot := s.dmaSlot ch head
  let st := statusWord done aborted j.late j.dropped code (s.descending j.desc)
  let s := (s.storeWord (0x40 + ch) (s.storage (slot + 24)) (st + residue * 2 ^ 32) 0xFF).2
  let s := s.setFlds [(Reg.DMA_RING_PTR_HEAD ch, (head + 1) % s.dmaRing ch), (Reg.DMA_RESIDUE_BYTES ch, residue),
    (Reg.DMA_STATUS_CODE ch, code), (Reg.DMA_STATUS_STATE ch, if aborted || j.late || code != 0 then 3 else 0),
    (Reg.DMA_CTRL_ABORT ch, 0)]
  let s := if done && (j.desc.irq || j.late) then s.setFld (Reg.DMA_INT_STATUS_DONE ch) 1 else s
  let s := if code != 0 then s.setFld (Reg.DMA_INT_STATUS_ERROR ch) 1 else s
  let s := if aborted then s.setFld (Reg.DMA_INT_STATUS_ABORTED ch) 1 else s
  let s := if j.late then s.setFld (Reg.DMA_INT_STATUS_LATE_ABORT ch) 1 else s
  (s.onDma ch fun c => { c with job := none }).dmaVote ch false

/-! ### The owner's writes -/

/-- A write to a channel's owner-only register by another client is ignored and logged (R375). -/
def State.dmaOwned (s : State) (client : Nat) (ch : Fin 32) (a : Nat) (v : Word) (i : Instr) (k : State → State) : State :=
  s.setupWrite client a v i fun s =>
    if client = s.fld (Reg.DMA_ASSIGN_OWNER ch) then k s else s.logWrite client a v

/-- DMA_RING_TAIL_WRITE (R378): a TAIL that would pass HEAD is ignored and logged. -/
def execDmaRingTailWrite (client : Nat) (ch : Fin 32) (tail : Nat) (s : State) : Host.Outcome State Fault Refusal :=
  .next (s.dmaOwned client ch (Reg.DMA_RING_PTR ch) (BitVec.ofNat 32 tail) (.dmaRingTailWrite client ch tail) fun s =>
    let n := s.dmaRing ch
    let head := s.fld (Reg.DMA_RING_PTR_HEAD ch)
    let old := s.fld (Reg.DMA_RING_PTR_TAIL ch)
    if tail < n && (tail + n - head) % n ≥ (old + n - head) % n then s.setFld (Reg.DMA_RING_PTR_TAIL ch) tail
    else s.logWrite client (Reg.DMA_RING_PTR ch) (BitVec.ofNat 32 tail))

/-- What an abort does to the descriptor in progress (R386, R387). -/
def State.dmaAbort (s : State) (ch : Fin 32) : State :=
  match s.dma[ch].job with
  | none => s
  | some j =>
    if !j.inFlight then s.dmaEnd ch j true 0 (j.desc.count - j.moved)
    else if j.moved + j.desc.burstFrom j.moved = j.desc.count then
      (s.onDma ch fun c => { c with job := some { j with late := true } }).setFld (Reg.DMA_CTRL_ABORT ch) 0
    else (s.onDma ch fun c => { c with job := some { j with abort := true } }).setFld (Reg.DMA_CTRL_ABORT ch) 0

/-- DMA_ABORT (R386). -/
def execDmaAbort (client : Nat) (ch : Fin 32) (s : State) : Host.Outcome State Fault Refusal :=
  .next (s.dmaOwned client ch (Reg.DMA_CTRL ch) 2 (.dmaAbort client ch) fun s => s.dmaAbort ch)

/-- DMA_RESUME (R388): the channel leaves the halted state. -/
def execDmaResume (client : Nat) (ch : Fin 32) (s : State) : Host.Outcome State Fault Refusal :=
  .next (s.dmaOwned client ch (Reg.DMA_CTRL ch) 4 (.dmaResume client ch) fun s =>
    if s.fld (Reg.DMA_STATUS_STATE ch) = 3 then s.setFld (Reg.DMA_STATUS_STATE ch) 0 else s)

/-- DMA_ENABLE_WRITE (R392): clearing ENABLE does not abort the descriptor in progress (R388). -/
def execDmaEnableWrite (client : Nat) (ch : Fin 32) (enable : Bool) (s : State) : Host.Outcome State Fault Refusal :=
  .next (s.dmaOwned client ch (Reg.DMA_CTRL ch) (BitVec.ofNat 32 enable.toNat) (.dmaEnableWrite client ch enable) fun s =>
    s.setFld (Reg.DMA_CTRL_ENABLE ch) enable.toNat)

end Sys2Proof.Machine
end

