-- ==== Sys2Proof/Machine/Spill.lean ====
section
/-! DEFINITION. Power loss (chapter 9, R311–R324, R332, R334–R338): the power-fail inputs, the spill edge and its latched set, the end
of the spill, the restart of the supply, the release of a spill image, and the cistern's health test and slot cap. -/

namespace Sys2Proof.Machine

/-! ### The power-fail inputs (R311, R312) -/

/-- An input below its limit starts the 1 µs filter. -/
def State.startFilter (s : State) (f : Pins → Pins) : State := s.onPins fun p => { f p with filter := some (p.filter.getD s.turn) }

/-- PWR_FAIL_ASSERT (R311). -/
def execPwrFailAssert (s : State) : Out := .next (s.startFilter fun p => { p with pwrFailLow := true })

/-- V_HOLD_LOW (R312). -/
def execVHoldLow (s : State) : Out := .next (s.startFilter fun p => { p with vholdLow := true })

/-- PWR_FAIL_RELEASE (R311): the pulse was too short, unless V_HOLD is low too. -/
def execPwrFailRelease (s : State) : Out :=
  .next (s.onPins fun p => { p with pwrFailLow := false, filter := if p.vholdLow then p.filter else none })

/-! ### The firmware store at a power failure (R332) -/

/-- An erase in progress is suspended and never resumed; a page program runs to its end. -/
def State.storePowerFail (s : State) : State :=
  let one (s : State) (b : Fin 2) : State :=
    if (s.bank b).erase.isSome && (s.bank b).prog.isNone then
      (s.onBank b fun k => { k with held := true }).setFld (Reg.FWS_BANK_STATE b) 4
    else s.onBank b fun k => { k with held := k.held || k.erase.isSome }
  one (one s 0) 1

/-- Abandon the cistern test; RESULT does not change (R315, R318). -/
def State.dropTest (s : State) : State :=
  (s.onCistern fun c => { c with test := none }).setFlds [(Reg.PMC_CIS_STATUS_TEST_BUSY, 0), (Reg.PMC_CIS_TEST_START, 0)]

/-- POWER_FAILURE (R311, R314): the filter completes. A spill is requested, and never withdrawn; Boot and Recovery wait with the data
plane held. -/
def execPowerFailure (s : State) : Out :=
  .next (if s.pins.filter.isNone then s
    else
      let cause := if s.pins.vholdLow && !s.pins.pwrFailLow then 1 else 0
      let s := s.onPins fun p => { p with filter := none }
      if s.power.mode.carriesData then
        if s.cistern.request.isSome then s
        else ((s.onCistern fun c => { c with request := some (cause, s.turn) }).onNv fun n => { n with spillMark := true }).dropTest
      else if s.bootMode then (s.onCistern fun c => { c with waiting := true }).storePowerFail.dropTest
      else s)

/-! ### The spill edge (R320, R321) -/

/-- The residency of a unit that the spill set takes: the newest one where it is RESIDENT or PLACING, and the newest that has landed
where the newest is FILLING. -/
def State.spillSlot (s : State) (g : Nat) : Option (Nat × Slot) :=
  let mine (x : Nat × Slot) : Bool := x.2.unit == g && x.2.state != .cache
  match newestOf mine s.galley.slots with
  | none => none
  | some x =>
    match x.2.state with
    | .resident | .placing => some x
    | .filling => newestOf (fun y => mine y && y.2.state != .filling && y.2.sectors.any Option.isSome) s.galley.slots
    | _ => none

/-- The slots of the spill set, as units with their valid sectors, in directory order. -/
def State.spillSlots (s : State) : List (Nat × List (Option Sector)) :=
  ((s.galley.slots.map fun x => x.2.unit).eraseDups.filterMap s.spillSlot).map fun x => (x.2.unit, x.2.sectors)

/-- The set that takes the next spill: the one that holds no unreleased image (R324). -/
def State.spillSet (s : State) : Nat := match s.nv.image with | some i => 1 - i.set | none => 0

/-- The spill set and the state record as the spill edge latches them (Table 09.2). -/
def State.latchSpill (s : State) (cause : Nat) : SpillImage :=
  { seq := (s.nv.spillSeq + 1) % 2 ^ 32, cause := cause, turn := s.turn, dlxNow := s.fld Reg.LDP_DLX_NOW_ROT, slots := s.spillSlots
    journal := s.galley.journal, edition := s.mgmt.change.filter fun c => c.phase == .booking
    log := s.mgmt.log, weir := s.flash.weir, set := s.spillSet }

/-- Every die that is busy or has a hold receives a LUN reset; programs it was running are lost, and erases wait again (Table 09.1). -/
def State.resetDies (s : State) : State :=
  let cut := s.flash.cutUnits s.unitsPerMb
  let again := s.flash.erasingNow
  let s := (s.flash.dies.filter fun d => d.2.busy.isSome || d.2.hold.isSome).foldl (fun s d =>
    ((s.endHold d.1).onDie d.1 fun x => { x with busy := some (.reset, s.turn) }).setFur d.1 9) s
  s.onFlash fun x => { x with units := x.units.filter fun u => !cut.contains u.1, eraseQueue := again ++ x.eraseQueue }

/-- Every activity that Table 09.1 ends. -/
def State.endActivities (s : State) : State :=
  let s := (s.resetDies).emptyDataPlane
  let s := (s.onHost fun h => { h with cmds := [], barReads := [] }).endRun 5
  let s := s.onGalley fun g => { g with writing := none, unwritten := [], shadow := [], booked := [], moveLeft := 0, movePending := false }
  let s := s.setFlds [(Reg.DMC_GLY_MOVE_ACTIVE, 0), (Reg.DMC_GLY_MOVE_START, 0), (Reg.DMC_SNAP_CTRL_MARK, 0)]
  let s := s.onPower fun p => { p with entry := none, exiting := none, psChange := none, psWait := none, recovering := none }
  s.setFlds [(Reg.PMC_PS_ENTERING, 0), (Reg.PMC_PS_EXITING, 0)]

/-- The domains of a spill (R320, R322): the host PHYs and the decoder farm are off, and the DRAM halves and flash groups are awake. -/
def State.spillDomains (s : State) : State :=
  let wake (s : State) (n : Nat) : State :=
    let n := Fin.ofNat 24 n
    if s.isDead n then s else (s.onDom n fun d => { d with state := .on }).powerBanks n
  let off (s : State) (n : Nat) : State := if s.isDead (Fin.ofNat 24 n) then s else s.domainOff (Fin.ofNat 24 n)
  ([2, 3, 9, 10] : List Nat).foldl off ((([11, 12] : List Nat) ++ (List.range 8).map (· + 13)).foldl wake s)

/-- Every armed flip mask is disarmed, so that no write of the spill takes one (R303). -/
def State.disarmMasks (s : State) : State :=
  (List.range 12).foldl (fun s c => s.setFld (Reg.DMC_FLIPMASK2_ARMED c) 0) (s.setFld Reg.OCM_FLIPMASK2_ARMED 0)

/-- SPILL_EDGE (R320, R321): the turn edge after the filter completes. -/
def execSpillEdge (s : State) : Out :=
  .next (match s.cistern.request with
    | some (cause, t) =>
      if s.turn ≤ t || !s.power.mode.carriesData then s
      else
        let img := s.latchSpill cause
        let s := ((s.leaveTo .spill).log 0x0507 0 0x3FF img.seq).endActivities
        let s := s.spillDomains.storePowerFail.disarmMasks
        let s := (s.onCistern fun c => { c with request := none, latched := some img, began := s.turn, ended := false }).onNv fun n =>
          { n with spillSeq := img.seq }
        s.setFlds [(Reg.PMC_SPILL_SEQ_SEQ, img.seq), (Reg.PMC_SPILL_STATUS_HELD, 1), (Reg.PMC_SPILL_STATUS_SET, img.set), (Reg.PMC_SPILL_STATUS_CAUSE, cause)]
    | none => s)

/-! ### The end of the spill (R322, R323) -/

/-- Bytes that S_SPILL lets a spill write in its turns, past the 1,024 turns of LUN resets (R319, R322). -/
def State.spillBytes (s : State) : Nat := s.fld Reg.PMC_CIS_BOARD_S_SPILL * 1024 * (s.turn - s.cistern.began - 1024)

/-- Slots whose sectors fit into a run of bytes, in directory order. -/
def slotsIn : Nat → List (Nat × List (Option Sector)) → Nat
  | _, [] => 0
  | n, x :: t =>
    let b := 4096 * (x.2.filter Option.isSome).length
    if b ≤ n then slotsIn (n - b) t + 1 else 0

/-- The image that a spill of so many bytes has written, part by part (Tables 09.2, 09.5). -/
def SpillImage.written (i : SpillImage) (n : Nat) : SpillImage :=
  let afterRec := n - 0x40000
  let afterDir := afterRec - 8 * i.slots.length
  let afterJnl := afterDir - 16384 * i.journal.length
  let whole := decide (0x40000 ≤ n)
  let dirs := if whole then min i.slots.length (afterRec / 8) else 0
  let jnls := if decide (0x40000 + 8 * i.slots.length ≤ n) then min i.journal.length (afterDir / 16384) else 0
  let gals := if decide (0x40000 + 8 * i.slots.length + 16384 * i.journal.length ≤ n) then slotsIn afterJnl i.slots else 0
  { i with record := whole, complete := false, dirs := dirs, jnls := jnls, gals := gals }

/-- SPILL_COMPLETE (R323): after the seal, or when the spill cannot go on, every domain but PD0 is off and the mode stays Spill. -/
def execSpillComplete (sealed : Bool) (s : State) : Out :=
  .next (match s.cistern.latched with
    | some i =>
      if s.power.mode != .spill || s.cistern.ended then s
      else
        let img := if sealed then { i with record := true, complete := true, dirs := i.slots.length, jnls := i.journal.length, gals := i.slots.length }
          else i.written s.spillBytes
        let s := s.setFlds [(Reg.PMC_SPILL_STATUS_LAST, if img.complete then 1 else 2), (Reg.PMC_SPILL_STATUS_DURATION, min 0xFFFF ((s.turn - s.cistern.began) / 16))]
        let s := s.onNv fun n => { n with image := if img.record then some img else n.image, spillWord := s.word Reg.PMC_SPILL_STATUS }
        let s := s.onCistern fun c => { c with ended := true }
        (List.finRange 24).foldl (fun s n => if n = 0 || s.isDead n then s else s.domainOff n) s
    | none => s)

/-- SUPPLY_RETURN (R323): after the spill, with PWR_FAIL_n high and V_HOLD at or above V_SPILL for 1 ms, an internal power-on reset. -/
def execSupplyReturn (b : Board) (s : State) : Out :=
  .next (if s.power.mode == .spill && s.cistern.ended && !s.pins.pwrFailLow && !s.pins.vholdLow then (s.bare false).powerOn b else s)

/-- SUPPLY_RETURN_WITHOUT_SPILL (R314): Boot or Recovery goes on where it waited. -/
def execSupplyReturnWithoutSpill (s : State) : Out :=
  .next (if s.cistern.waiting && !s.pins.pwrFailLow && !s.pins.vholdLow then s.onCistern fun c => { c with waiting := false } else s)

/-! ### Release (R324) -/

/-- Every restored residency has been placed, mapped and journaled to flash, and every restored journal slot programmed. -/
def State.released (s : State) : Bool :=
  s.galley.restored.all (fun r => s.galley.slots.all fun x => x.2.order != r.1 || !(x.2.state == .resident || x.2.state == .placing)) &&
  s.galley.journal.all (fun j => !s.galley.restoredJnl.contains j.1 &&
    j.2.all fun r => !(r.kind == 1 && r.slot != 0xFFFFFFFF && s.galley.restored.any fun x => x.2 == r.unit))

/-- SPILLWAY_RELEASE (R324): the image is released and its set erased; HELD clears. -/
def execSpillwayRelease (s : State) : Out :=
  .next (if s.nv.image.isSome && s.power.mode.carriesData && s.released then
      let s := (s.setFld Reg.PMC_SPILL_STATUS_HELD 0).onGalley fun g => { g with restored := [], restoredJnl := [] }
      s.onNv fun n => { n with image := none, spillWord := s.word Reg.PMC_SPILL_STATUS }
    else s)

/-! ### The health test and the slot cap (R315, R316, R318) -/

/-- LOAD, V_FULL or DIV_X256 is 0: no test runs. -/
def State.cisternOff (s : State) : Bool :=
  s.fld Reg.PMC_CIS_TEST_LOAD == 0 || s.fld Reg.PMC_CIS_DIV_V_FULL == 0 || s.fld Reg.PMC_CIS_DIV_DIV_X256 == 0

/-- RESULT, and Critical Warning bit 4 behind it. -/
def State.cisternResult (s : State) (r : Nat) : State :=
  let s := s.setFld Reg.PMC_CIS_STATUS_RESULT r
  if r = 1 then s.onNv fun n => { n with warning := clrBitNat n.warning 4 }
  else if r = 0 then s
  else s.onNv fun n => { n with warning := setBitNat n.warning 4 }

/-- RESULT by the rows of R318, where they apply: a charged bank, a test completed, and none abandoned on time since. -/
def State.evalCistern (s : State) : State :=
  let cap := s.fld Reg.PMC_CIS_SLOTS_CAP_SLOTS
  if s.cisternOff then s.cisternResult 0
  else if !s.cistern.tested || s.cistern.timedOut || s.fld Reg.PMC_CIS_STATUS_VHOLD < s.fld Reg.PMC_CIS_DIV_V_FULL then s
  else s.cisternResult (if cap = 262144 then 1 else if 0 < cap then 2 else 3)

/-- The test starts by itself: at the first full charge after Boot, and once its period has passed. -/
def State.testDue (s : State) : Bool :=
  s.power.mode.carriesData && !s.cisternOff &&
  (if s.cistern.first then decide (s.cistern.lastTestRot + 2 ^ (s.fld Reg.PMC_CIS_TEST_PERIOD_LOG2 + 6) ≤ s.rotation)
   else decide (s.fld Reg.PMC_CIS_DIV_V_FULL ≤ s.fld Reg.PMC_CIS_STATUS_VHOLD))

/-- Start a test: the GPIO goes high and V1 is taken. -/
def State.startTest (s : State) : State :=
  (s.onCistern fun c => { c with
    test := some ⟨s.turn, s.fld Reg.PMC_CIS_STATUS_VHOLD⟩, first := true, lastTestRot := s.rotation }).setFld Reg.PMC_CIS_STATUS_TEST_BUSY 1

/-- CISTERN_TEST_START (R315): by a START write of a client, or by itself. -/
def execCisternTestStart (client : Option Nat) (s : State) : Out :=
  .next (match client with
    | some c =>
      s.setupWrite c Reg.PMC_CIS_TEST (BitVec.ofNat 32 (2 ^ 31)) (.cisternTestStart client) fun s =>
        if s.cisternOff then s.logWrite c Reg.PMC_CIS_TEST (BitVec.ofNat 32 (2 ^ 31))
        else if s.cistern.test.isSome || s.power.mode == .spill then s
        else s.startTest.setFld Reg.PMC_CIS_TEST_START 1
    | none => if s.testDue && s.cistern.test.isNone then s.startTest else s)

/-- ln(1 ÷ 0.95), to 24 decimal places: V2 is 0.95 × V1. -/
def lnV1V2 : Rat := 51293294387550533426196144 / 10 ^ 27

/-- C_UF of a test of t turns: t ÷ (LOAD × ln(V1 ÷ V2)) in whole µF; LOAD is in 10 mΩ. -/
def State.measuredUf (s : State) (t : Nat) : Nat :=
  ((t : Rat) * 1024 / 1000 / ((s.fld Reg.PMC_CIS_TEST_LOAD : Rat) / 100 * lnV1V2)).floor.toNat

/-- CISTERN_TEST_END (R315): the bank has reached V2. -/
def execCisternTestEnd (s : State) : Out :=
  .next (match s.cistern.test with
    | some x =>
      let t := s.turn - x.began
      let c := min (2 ^ 24 - 1) (s.measuredUf t)
      let s := ((s.dropTest).onCistern fun c => { c with tested := true, timedOut := false }).setFld Reg.PMC_CIS_CAP_C_UF c
      (s.log 0x0506 0 0x3FF (t % 2 ^ 24 + x.v1 * 2 ^ 24 + c * 2 ^ 40)).evalCistern
    | none => s)

/-- CISTERN_TEST_TIMEOUT (R315, R318): 1,000,000 turns without reaching V2. -/
def execCisternTestTimeout (s : State) : Out :=
  .next (match s.cistern.test with
    | some x =>
      if s.turn < x.began + 1000000 then s
      else
        let s := (s.dropTest).onCistern fun c => { c with timedOut := true }
        (s.log 0x0506 0 0x3FF ((s.turn - x.began) % 2 ^ 24 + x.v1 * 2 ^ 24 + s.fld Reg.PMC_CIS_CAP_C_UF * 2 ^ 40)).cisternResult 3
    | none => s)

/-- The slot cap of R316 from the present bank voltage and the measured capacitance. -/
def State.slotCap (s : State) : Nat :=
  let uf := s.fld Reg.PMC_CIS_CAP_C_UF
  let pb := s.fld Reg.PMC_CIS_BOARD_P_BOARD
  let eta := s.fld Reg.PMC_CIS_BOARD_ETA
  let sp := s.fld Reg.PMC_CIS_BOARD_S_SPILL
  if uf = 0 || pb = 0 || eta = 0 || sp = 0 then 0
  else
    let v : Rat := (s.fld Reg.PMC_CIS_STATUS_VHOLD : Rat) / 100
    let m : Rat := (s.fld Reg.PMC_CIS_CFG_V_MIN : Rat) / 100
    let e : Rat := (eta : Rat) / 100 * ((uf : Rat) / 1000000) * (v * v - m * m) / 2
    let t10 : Int := (e / (38 + (pb : Rat) / 16) * 100000).floor
    let b : Int := (sp : Int) * 10000 * (t10 - 1642)
    let cap : Int := (b - 1077936128) / 16384
    if cap < 4096 then 0 else min 262144 cap.toNat

/-- SLOT_CAP_COMPUTE (R316): every 1,024 turns. -/
def execSlotCapCompute (s : State) : Out :=
  .next (if s.turn % 1024 != 0 || s.power.mode == .off then s else (s.setFld Reg.PMC_CIS_SLOTS_CAP_SLOTS s.slotCap).evalCistern)

end Sys2Proof.Machine
end

