-- ==== Sys2Proof/Machine/Host.lean ====
section
/-! DEFINITION. The host ports (chapter 2, R45–R53; R42, R480, R489, R498, R519, R532): controller resets, enable and shutdown,
PERST_n, links, their power states, and BAR2. -/

namespace Sys2Proof.Machine

/-! ### Links (R45–R50, R86) -/

/-- The port of a controller's link (Table 02.1). -/
def State.linkPort (s : State) (c : Fin 2) : Fin 2 := if s.linkDom c = 2 then 0 else 1

/-- Lanes of a controller's link. -/
def State.strapWidth (s : State) : Nat := if s.pins.hostcfg = 0 then 16 else 8

def State.linkUp (s : State) (c : Fin 2) : Bool := s.fld (Reg.HGT_LINK_STATUS_RATE c) != 0

/-- A link goes down: LINK_STATUS reports it until it has trained again. -/
def State.linkDown (s : State) (c : Fin 2) : State :=
  (s.setFlds [(Reg.HGT_LINK_STATUS_RATE c, 0), (Reg.HGT_LINK_STATUS_WIDTH c, 0), (Reg.HGT_LINK_STATUS_FLIT c, 0),
    (Reg.HGT_LINK_STATUS_L0P_EN c, 0)]).onCtl c fun x => { x with link := .l0, l0pWidth := none }

/-! ### Controller resets (R52, R53, R499) -/

/-- The admin command that a waiting row carries. -/
def admOf : Instr → Option Adm
  | .createIoSq a _ _ _ _ | .createIoCq a _ _ _ _ _ | .deleteIoSq a _ | .deleteIoCq a _ | .getLogPage a _ _ | .identify a _ _
  | .abort a _ _ | .setFeatures a _ _ _ _ | .getFeatures a _ _ | .setTwiotLevel a _ _ | .classBinding a _ _ | .orderingMode a _ _
  | .keepAwakeFloor a _ _ _ | .powerManagement a _ _ | .timestamp a _ _ | .asynchronousEventRequest a | .namespaceManagement a _
  | .namespaceAttachment a _ _ _ | .firmwareImageDownload a _ _ _ | .streamedDownloadChunk a _ _ _ | .firmwareCommitReplace a _
  | .firmwareCommitReplaceActivate a _ | .firmwareCommitActivate a _ | .firmwareCommitImmediate a _ | .deviceSelfTestShort a _
  | .deviceSelfTestExtended a _ | .deviceSelfTestFull a _ | .deviceSelfTestAbort a | .directiveSend a _ _ _ _
  | .directiveReceive a _ _ _ | .nvmeMiSend a _ | .nvmeMiReceive a _ | .formatNvm a _ _ _ _ _ _ | .sanitizeCryptoErase a _
  | .sanitizeBlockErase a _ | .editionStage a _ _ _ | .editionCommit a _ | .editionRevert a _ | .queueRestart a _ _
  | .culvertRebuildStatus a | .invalidAdminOpcode a _ => some a
  | _ => none
/-- An admin command came on a controller's admin queue. -/
def ownAdm (c : Fin 2) (a : Adm) : Bool := admCtrl a.path == some c

/-- A waiting row is an admin command of a controller. -/
def waitsFor (c : Fin 2) (i : Instr) : Bool := match admOf i with | some a => ownAdm c a | none => false

/-- An optional request, without one of a controller's admin queue. -/
def unlessOf (c : Fin 2) (x : Option Adm) : Option Adm := x.filter fun a => !ownAdm c a

/-- What is under way forgets the admin commands of a reset controller: it goes on, and its completion is not posted. -/
def State.forgetAdmin (s : State) (c : Fin 2) : State :=
  let f := unlessOf c
  let s := s.onPower fun p =>
    { p with
      entry := p.entry.map fun e => { e with req := f e.req }
      exiting := p.exiting.map fun e => { e with req := f e.req }
      psWait := p.psWait.map fun e => { e with req := f e.req }
      psChange := p.psChange.map fun e => (e.1, f e.2)
      psDone := p.psDone.filter fun e => !ownAdm c e.2
      doms := p.doms.map fun d => { d with stalled := d.stalled.filter fun i => !waitsFor c i } }
  let s := s.onMgmt fun m => { m with
    change := m.change.map (fun x => { x with adm := f x.adm }), waiting := m.waiting.filter fun i => !waitsFor c i }
  let s := s.onStore fun t => { t with
    activation := t.activation.map (fun x => { x with adm := f x.adm })
    buffer := t.buffer.filter fun b => b.1 != c.val }
  s.onGalley fun g => { g with creating := g.creating.filter fun x => !ownAdm c x.1, wipe := g.wipe.map fun w => { w with adm := f w.adm } }

/-- Configuration space after a hot reset, link down or NVM Subsystem Reset: sticky bits are kept, AER's status and the ECRC enables (Table
02.4). -/
def PciConfig.hot (p : PciConfig) : PciConfig := { aerCor := p.aerCor, aerUnc := p.aerUnc, ecrcCheck := p.ecrcCheck, ecrcGen := p.ecrcGen }

/-- Configuration space after a fundamental reset or an FLR: nothing of it is kept but the link's own fields, which HGT.LINK_STATUS holds. -/
def PciConfig.cleared (_ : PciConfig) : PciConfig := {}

/-- Reset a controller (R52, R53, Table 15.2): `cfg` tells what becomes of its configuration space, `down` that the link goes down. -/
def State.resetCtrl (s : State) (c : Fin 2) (cfg : PciConfig → PciConfig) (down : Bool) : State :=
  let s := ((s.abandon fun k => k.ref.ctrl == c).forgetAdmin c).endRunOf (c.val + 1)
  let s := s.onCtl c fun x =>
    { phyFailed := x.phyFailed, link := x.link, l0pWidth := x.l0pWidth, exhausted := x.exhausted
      pci := cfg x.pci }
  let s := (s.setFld (if c = 0 then Reg.HGT_LEVEL_C0_LEVEL else Reg.HGT_LEVEL_C1_LEVEL) 0).setWord (Reg.HGT_FETCH_LAT c) 0
  let s := (if down then s.linkDown c else s).onPower fun p => { p with floorMask := p.floorMask.set c (Vector.replicate 8 0) }
  (s.loadSaved c).refreshApst

/-- A mode in which the host's resets of a controller act. -/
def State.resettable (s : State) : Bool := s.power.mode != .off && s.power.mode != .spill

/-- CONTROLLER_ENABLE (R532): CC.EN from 0 to 1. In Boot it is held until step 7; in Recovery CSTS.RDY is never set. -/
def execControllerEnable (c : Fin 2) (aqa asq acq : Nat) (s : State) : Out :=
  .next (if (s.ctl c).en || !s.resettable then s
    else
      let s := s.onCtl c fun x =>
        { x with
          en := true, aqa := aqa, asq := asq, acq := acq
          rdyAt := if s.power.mode.carriesData then some (s.turn + 2, true) else none
          adminSq := { qid := 0, size := natBits aqa 0 12 + 1, cqid := 0 }
          adminCq := { qid := 0, size := natBits aqa 16 12 + 1 } }
      if s.power.mode.carriesData then s.onNv fun n => { n with clean := false } else s)

/-- CONTROLLER_RESET (R53, R532): CC.EN from 1 to 0; CSTS.RDY clears in the turn after the observation. -/
def execControllerReset (c : Fin 2) (s : State) : Out :=
  .next (if !(s.ctl c).en || !s.resettable then s
    else
      let was := (s.ctl c).rdy
      (s.resetCtrl c id false).onCtl c fun x => { x with rdy := was, rdyAt := some (s.turn + 2, false) })

/-- The value that NSSR takes. -/
def nssrValue : Word := 0x4E564D65

/-- An NVM Subsystem Reset (R52): both controllers are reset and both links retrain; a pending slot becomes the running image without
Boot (R420). In Recovery the part starts as after a power-on reset. -/
def State.subsystemReset (s : State) : State :=
  if !s.resettable then s
  else if s.power.mode == .recovery then (s.bare false).powerOn s.board
  else
    let s := ((s.resetCtrl 0 PciConfig.hot true).resetCtrl 1 PciConfig.hot true).endRun 2
    let s := s.onMgmt fun m => { m with healthChange := setBitNat m.healthChange 4 }
    if !s.power.mode.carriesData then s
    else
      match s.store.pointer with
      | some p =>
        if p.next != p.active && s.slotValid p.next then
          ((s.writePointer p.next p.next).onStore fun t => { t with running := some p.next }).publishRelease
        else s
      | none => s

/-- NVM_SUBSYSTEM_RESET (R52): a write of NSSR. -/
def execNvmSubsystemReset (c : Fin 2) (value : Word) (s : State) : Out :=
  .next (if value = nssrValue ∧ s.linkUp c then s.subsystemReset else s)

/-- FUNDAMENTAL_RESET (R52, R519): PERST_n of a port falls; in Spill it has no effect. -/
def execFundamentalReset (port : Fin 2) (s : State) : Out :=
  let s := s.onPins fun p => { p with perst := p.perst.set port false }
  .next (if !s.resettable then s
    else (List.finRange 2).foldl (fun s c => if s.linkPort c = port then s.resetCtrl c PciConfig.cleared true else s) s)

/-- PERST_DEASSERT (R519): the port's PHY domain and HCORE are woken; the link starts training. -/
def execPerstDeassert (port : Fin 2) (s : State) : Out :=
  let s := s.onPins fun p => { p with perst := p.perst.set port true }
  .next (if !s.resettable then s
    else if s.portDown (2 + port.val) then s
    else (s.touch (if port = 0 then 2 else 3) 0x3FF).touch 4 0x3FF)

/-- HOT_RESET (R52): hot reset or link down. -/
def execHotReset (c : Fin 2) (s : State) : Out := .next (if s.resettable then s.resetCtrl c PciConfig.hot true else s)

/-- FUNCTION_LEVEL_RESET (R52): the link stays up. -/
def execFunctionLevelReset (c : Fin 2) (s : State) : Out := .next (if s.resettable then s.resetCtrl c PciConfig.cleared false else s)

/-- A link may train: its PERST_n is high, its PHY works and is ON. -/
def State.mayTrain (s : State) (c : Fin 2) (rate width : Nat) : Bool :=
  s.resettable && s.pins.perst[s.linkPort c] && !(s.ctl c).phyFailed && s.isOn (s.linkDom c) &&
    decide (1 ≤ rate) && decide (rate ≤ 6) && decide (1 ≤ width) && decide (width ≤ s.strapWidth)

/-- LINK_TRAINED (R47, R48, R86): 64 GT/s runs in FLIT mode only. -/
def execLinkTrained (c : Fin 2) (rate width : Nat) (flit : Bool) (s : State) : Out :=
  .next (if s.mayTrain c rate width then
      (s.setFlds [(Reg.HGT_LINK_STATUS_RATE c, rate), (Reg.HGT_LINK_STATUS_WIDTH c, width),
        (Reg.HGT_LINK_STATUS_FLIT c, if flit || rate = 6 then 1 else 0)]).onCtl c fun x => { x with link := .l0, l0pWidth := none }
    else s)

/-- L0P_ENABLE (R49): the sluice plans the link at half its trained width while L0P_EN is 1. -/
def execL0pEnable (c : Fin 2) (on : Bool) (s : State) : Out :=
  .next (if s.resettable && s.linkUp c then
      (s.setFld (Reg.HGT_LINK_STATUS_L0P_EN c) on.toNat).onCtl c fun x => { x with l0pWidth := if on then x.l0pWidth else none }
    else s)

/-- L0P_WIDTH_REQUEST (R49): answered only down to half the trained width. -/
def execL0pWidthRequest (c : Fin 2) (width : Nat) (s : State) : Out :=
  .next (let w := s.fld (Reg.HGT_LINK_STATUS_WIDTH c)
    if s.resettable && s.linkUp c && s.flag (Reg.HGT_LINK_STATUS_L0P_EN c) && decide (w ≤ 2 * width) && decide (width ≤ w) then
      s.onCtl c fun x => { x with l0pWidth := if width = w then none else some width }
    else s)

/-- A controller's admin commands that have not completed; held Asynchronous Event Requests are not counted (DEDUCED: assumption log 24). -/
def State.adminOutstanding (s : State) (c : Fin 2) : Bool :=
  let o (x : Option Adm) : Bool := match x with | some a => ownAdm c a | none => false
  o (s.power.entry.bind (·.req)) || o (s.power.exiting.bind (·.req)) || o (s.power.psWait.bind (·.req)) ||
    o (s.power.psChange.bind (·.2)) || o (s.mgmt.change.bind (·.adm)) || o (s.store.activation.bind (·.adm)) ||
    o (s.galley.wipe.bind (·.adm)) || s.power.psDone.any (fun e => ownAdm c e.2) || s.galley.creating.any (fun x => ownAdm c x.1) || !(s.ctl c).aborts.isEmpty || s.mgmt.waiting.any (waitsFor c) || s.power.doms.any fun d => d.stalled.any (waitsFor c)

/-- A controller holds an outstanding command: in a context, visible and not fetched, with its completion held on a full queue, or an admin
command. -/
def State.ctrlBusy (s : State) (c : Fin 2) : Bool :=
  s.adminOutstanding c || s.host.cmds.any (fun k => k.ref.ctrl == c) || (s.ctl c).sqs.any (fun q => !q.visible.isEmpty) ||
    (s.allCqs c).any fun q => !q.held.isEmpty

/-- L1_ENTRY (R50). -/
def execL1Entry (c : Fin 2) (l12 : Bool) (s : State) : Out :=
  .next (if !s.resettable || !s.linkUp c || s.ctrlBusy c then s
    else s.onCtl c fun x => { x with link := if l12 then .l12 else .l11 })

/-- L1_EXIT (R50, R435): the PHY domain is woken where it has dropped. -/
def execL1Exit (c : Fin 2) (s : State) : Out :=
  .next (if !s.resettable || !s.linkUp c then s else s.leaveL1 c)

/-- ECRC_FAILURE (R51): AER's uncorrectable status bit 19, and HGT.EVENT. -/
def execEcrcFailure (c : Fin 2) (s : State) : Out :=
  .next (if !s.resettable || !s.linkUp c then s
    else (s.setFld Reg.HGT_EVENT_ECRC_ERR 1).onCtl c fun x => { x with pci := { x.pci with aerUnc := setBitNat x.pci.aerUnc 19 } })

/-- HOST_PORT_FAILURE (R42, R46): every link of the port goes down with a reset of its controller, and does not train again. -/
def execHostPortFailure (port : Fin 2) (s : State) : Out :=
  .next (if s.power.mode == .off then s
    else
      (List.finRange 2).foldl (fun s c =>
        if s.linkPort c = port then
          (if s.resettable then s.resetCtrl c PciConfig.hot true else s).onCtl c fun x => { x with phyFailed := true }
        else s) s)

/-! ### Shutdown (R480) -/

/-- The item and instance that a failed domain of the shutdown test stands for: the instance within the domain is not named by the
operand: a free value. -/
def shutItem (n free : Nat) : Nat × Nat :=
  (domItem n,
    if 6 ≤ n ∧ n ≤ 8 then 8 * (n - 6) + free % 8
    else if n = 9 ∨ n = 10 then (if free % 20 < 16 then 16 * (n - 9) + free % 20 else 32 + 4 * (n - 9) + (free % 20 - 16))
    else if 13 ≤ n ∧ n ≤ 20 then 8 * (n - 13) + free % 8
    else if n = 21 then free % 32
    else if n = 23 then free % 4
    else if n = 4 then 0 else if n = 5 then 1 else if n = 11 ∨ n = 12 then n - 9 else 0)

/-- The domains of the shutdown test: all but PD0–PD3, the firmware store's (item 6) last. -/
def shutDoms : List (Fin 24) := (List.finRange 24).filter fun n => decide (4 ≤ n.val)

/-- A domain's record after the shutdown test: passed, failed, or skipped (Table 14.12). -/
def State.shutRecord (s : State) (n : Fin 24) (r : Option Bool) : State :=
  if s.isDead n then s
  else
    let i := shutItem n (Config.freeNat s.free)
    let set (s : State) (result : Nat) : State := s.onMgmt fun m =>
      { m with domTest := vupd m.domTest n fun d =>
          { d with
            ended := s.turn, duration := fullTestTurns n, result := result, kind := 1, source := 9
            cov1 := (itemCoverage i.1 true).1, cov2 := (itemCoverage i.1 true).2
            failures := if result = 2 then sat (2 ^ 32 - 1) (d.failures + 1) else d.failures
            lastFail := if result = 2 then i.1 + i.2 * 256 else d.lastFail } }
    match r with
    | some true => (set s 1).onNv fun v => { v with shutTested := n.val :: v.shutTested }
    | some false =>
      ((((set s.tookFree 2).setFld Reg.BST_EVENT_FAIL 1).log 0x0304 9 0x3FF (5 + 2 * 256 + i.1 * 65536 + i.2 * 2 ^ 24)).raiseBoth 7 0xDB 0xC5).itemFailed
        i.1 i.2
    | none => set s 4

/-- The shutdown ends: CSTS.SHST = 10b for the controllers that notified. -/
def State.endShutdown (s : State) (x : Shutdown) : State :=
  let done (s : State) (c : Fin 2) : State := if x.ctrls.contains c then s.onCtl c fun k => { k with shst := 2 } else s
  ((done (done s 0) 1).onMgmt fun m => { m with shutdown := none }).onNv fun n => { n with clean := true }

/-- A controller that is enabled has not notified: its namespaces stay in use, so the test is skipped. -/
def State.otherInUse (s : State) (x : Shutdown) : Bool := (List.finRange 2).any fun c => (s.ctl c).en && !x.ctrls.contains c

/-- One turn of a shutdown (R480): outstanding commands, the galley, the snapshot, the test. -/
def State.shutTurn (s : State) : State :=
  match s.mgmt.shutdown with
  | none => s
  | some x =>
    let go (s : State) (p : ShutPhase) : State := s.onMgmt fun m => { m with shutdown := some { x with phase := p, began := s.turn } }
    if !s.power.mode.carriesData || s.power.mode == .conserve then s
    else
      match x.phase with
      | .commands =>
        if s.host.cmds.any (fun k => x.ctrls.contains k.ref.ctrl) || x.ctrls.any s.adminOutstanding then s else go s .galley
      | .galley => if s.galleyDrained then go s .mark else s
      | .mark => if s.galley.writing.isSome then s else go (s.setFld Reg.DMC_SNAP_CTRL_MARK 1) .snapshot
      | .snapshot =>
        if s.galley.writing.isSome || s.flag Reg.DMC_SNAP_CTRL_MARK then s
        else if s.otherInUse x then (shutDoms.foldl (fun s n => s.shutRecord n none) s).endShutdown x
        else go ((s.endRun 1).startRun 5 9 0) .test
      | .test =>
        if s.turn < x.began + 461520 then s
        else
          let s := shutDoms.foldl (fun s n => s.shutRecord n (klook n.val x.results)) s
          (s.endRun (if x.results.all (·.2) then 0 else 7)).endShutdown x

/-- SHUTDOWN_NOTIFICATION (R480): CC.SHN = 01b. `testResults` is what the tests of the domains will find; a domain without an entry is one
whose test does not fit in the time remaining. -/
def execShutdownNotification (c : Fin 2) (testResults : List (Nat × Bool)) (s : State) : Out :=
  .next (if !(s.ctl c).en || (s.ctl c).shst != 0 || !s.resettable then s
    else
      let s := s.onCtl c fun x => { x with shst := 1 }
      if !s.power.mode.carriesData then s.onCtl c fun x => { x with shst := 2 }
      else
        let s := s.onMgmt fun m => { m with shutdown := some (match m.shutdown with
          | some x => { x with ctrls := c :: x.ctrls, results := testResults ++ x.results }
          | none => { ctrls := [c], results := testResults, began := s.turn }) }
        if s.power.mode == .conserve then s.startExit none else s)

/-- ABRUPT_SHUTDOWN (R480): CC.SHN = 10b runs no test, and is no normal notification (R468). -/
def execAbruptShutdown (c : Fin 2) (s : State) : Out :=
  .next (if !(s.ctl c).en || !s.resettable then s else s.onCtl c fun x => { x with shst := 2 })

/-! ### BAR2 (R489, R498) -/

/-- BAR2_WRITE (R489): ignored and logged. -/
def execBar2Write (c : Fin 2) (addr : Nat) (value : Word) (s : State) : Out :=
  .next (if s.resettable && s.linkUp c then s.logWrite (0x20 + c.val) (addr % 2 ^ 26) value else s)

/-- A read that BAR2 has answered with all ones is marked by an address above the window; its access goes on. -/
def barMark (addr : Nat) : Nat := addr % 2 ^ 32 + 2 ^ 32

/-- BAR2_READ_TIMEOUT (R498): a read that arrived 8,192 turns ago or earlier completes with all ones. -/
def execBar2ReadTimeout (c : Fin 2) (addr : Nat) (s : State) : Out :=
  .next (match s.host.barReads.find? fun r => r.1 == c.val && r.2.1 == addr && decide (r.2.2 + 8192 ≤ s.turn) with
    | some r =>
      let s := s.onHost fun h => { h with barReads := h.barReads.replace r (c.val, barMark addr, r.2.2) }
      { s.busError (0x20 + c.val) (0x20000000 + addr) false with answer := some (.value (0x20 + c.val) 0xFFFFFFFF) }
    | none => s)

end Sys2Proof.Machine
end

