-- ==== Sys2Proof/Machine/Views.lean ====
section
/-! DEFINITION. What a read of a setup register returns (chapter 15): the register words that the model keeps, with the fields that
report other state computed from it; the interrupt block (R503, R504); and the _HI latches (R496). -/

namespace Sys2Proof.Machine

/-- The instance of an array of registers that an address names. -/
def instOf (base stride count a : Nat) : Option Nat :=
  if base ≤ a ∧ (a - base) % stride = 0 ∧ (a - base) / stride < count then some ((a - base) / stride) else none

/-- Put fields into a word. -/
def putFlds (w : Word) (l : List (Fld × Nat)) : Word := l.foldl (fun w p => putBits w p.1.lsb p.1.width p.2) w

/-! ### Interrupt sources (R503) -/

/-- An enabled event is set. -/
def State.asserted (s : State) (event en : Nat) : Bool := s.word event &&& s.word en != 0

/-- FUR_PEND: the furrows of a channel with an enabled event set. -/
def State.furPend (s : State) (c : Nat) : Nat :=
  (List.range 16).foldl (fun m p =>
    if s.asserted (Reg.FUR_EVENT (16 * c + p)) (Reg.FUR_EVENT_EN (16 * c + p)) then m + 2 ^ p else m) 0

/-- A source of Table 15.3 is asserted. -/
def State.irqSource (s : State) (i : Nat) : Bool :=
  match i with
  | 0 => s.asserted Reg.HGT_EVENT Reg.HGT_EVENT_EN
  | 1 => s.asserted Reg.LDP_EVENT Reg.LDP_EVENT_EN
  | 2 => s.asserted Reg.FRM_EVENT Reg.FRM_EVENT_EN
  | 3 => s.asserted Reg.ERC_EVENT Reg.ERC_EVENT_EN
  | 4 => s.asserted Reg.PMC_EVENT Reg.PMC_EVENT_EN
  | 5 => s.asserted Reg.OCM_EVENT Reg.OCM_EVENT_EN
  | 6 => s.asserted Reg.FWS_EVENT Reg.FWS_EVENT_EN
  | 7 => s.asserted Reg.GAU_EVENT Reg.GAU_EVENT_EN
  | 8 => s.asserted Reg.BST_EVENT Reg.BST_EVENT_EN
  | 9 => s.word Reg.MBX_RDB != 0
  | i =>
    if 10 ≤ i ∧ i ≤ 12 then s.word (Reg.MBX_CDB (i - 10)) != 0
    else if 16 ≤ i ∧ i ≤ 27 then s.asserted (Reg.DMC_EVENT (i - 16)) (Reg.DMC_EVENT_EN (i - 16))
    else if 32 ≤ i ∧ i ≤ 63 then s.asserted (Reg.DMA_INT_STATUS (i - 32)) (Reg.DMA_INT_EN (i - 32))
    else if 64 ≤ i ∧ i ≤ 127 then s.asserted (Reg.FCE_EVENT (i - 64)) (Reg.FCE_EVENT_EN (i - 64))
    else if 128 ≤ i ∧ i ≤ 191 then s.furPend (i - 128) != 0
    else false

/-- PEND[w]. -/
def State.pend (s : State) (w : Nat) : Nat := (List.range 32).foldl (fun m i => if s.irqSource (32 * w + i) then m + 2 ^ i else m) 0

/-- The client of an interrupt target. -/
def targetClient (t : Nat) : Nat := if t = 24 then 0x60 else t

/-- A bank whose pending LOST or DISABLED event a client owns. -/
def State.ownsEvent (s : State) (client : Nat) : Bool :=
  (List.range 0xC0).any fun c => bankExists c && s.fld (Reg.OCM_BANK_OWNER c) == client &&
    (s.flag (Reg.OCM_BANK_LOST c) || s.flag (Reg.OCM_BANK_DISABLE c))

/-- A source is routed to a target (Table 15.3). -/
def State.routed (s : State) (i t : Nat) : Bool :=
  if i = 5 then s.ownsEvent (targetClient t)
  else if i = 9 then t == 24
  else if 10 ≤ i ∧ i ≤ 12 then t == 8 * (i - 10)
  else if 32 ≤ i ∧ i ≤ 63 then s.fld (Reg.DMA_ASSIGN_OWNER (i - 32)) == targetClient t
  else true

/-- A target's external interrupt (R503), level-sensitive. -/
def State.irq (s : State) (t : Nat) : Bool :=
  (List.range 192).any fun i => bitsOf (s.word (Reg.IRQ_EN t (i / 32))) (i % 32) 1 == 1 && s.irqSource i && s.routed i t

/-! ### Computed fields -/

/-- The chains of a unit's read. -/
def UnitRead.chains (u : UnitRead) : List Chain := u.primary.toList ++ u.retry.toList ++ u.second.toList

def Plan.chains (p : Plan) : List Chain := (p.reads ++ p.fills).flatMap UnitRead.chains

/-- Read slots in use on a channel: codewords transferred and not yet decoded. -/
def State.readSlots (s : State) (ch : Nat) : Nat :=
  let held (u : UnitRead) : Nat := (u.chains.flatMap (·.reads)).foldl (fun n r =>
    if r.die / 16 = ch ∧ r.phase = .moved then n + (r.cws.length - r.passed.length - r.failed.length) else n) 0
  (s.sluice.plans.flatMap fun p => p.reads ++ p.fills).foldl (fun n u => n + held u) 0

/-- KiB of a channel's program region in use: the codewords of the data-in windows of the next 16 turns (R148), 18 KiB a unit. -/
def State.progKib (s : State) (ch : Nat) : Nat :=
  min 256 ((s.flash.plans.flatMap (·.members)).foldl (fun n m =>
    if m.die / 16 = ch ∧ m.stage = .loading ∧ m.dataIn.1 ≤ s.turn + 16 ∧ s.turn ≤ m.dataIn.2 then n + 18 else n) 0)

/-- A die's data-in window has begun and its program has not been issued (R150). -/
def State.loadingDie (s : State) (n : Nat) : Bool :=
  (s.flash.plans.flatMap (·.members)).any fun m => m.die == n && m.stage == .loading && decide (m.dataIn.1 ≤ s.turn)

/-- A rebuild is in the forme engine: a culvert's in this turn, or a background rebuild. -/
def State.rebuilding (s : State) : Bool :=
  s.flash.rebuilds.any (fun r => r.state == 1) || s.sluice.plans.any fun p => p.chains.any fun c => c.rebuild == some s.turn

/-- The GPIO that the cistern's health test drives high (R315): none while no test runs. -/
def State.testGpio (s : State) : Option Nat := s.cistern.test.map fun _ => s.fld Reg.PMC_CIS_TEST_GPIO

/-- STATUS_LED_n (R512): none while it is released, else whether it is asserted. The level that each toggling starts from is the model's
(DESIGN CHOICE, assumption log 143). -/
def State.statusLed (s : State) : Option Bool :=
  match s.power.mode with
  | .off | .spill => none
  | .boot | .recovery => some (s.turn / 2 ^ 17 % 2 == 0)
  | .service | .surge | .conserve => some true
  | .sealed => some (s.rotation % 2 == 0)

/-- Fc_WP_n is driven high: the channel's group is ON, in every mode but Recovery and Off (R511). -/
def State.wpHigh (s : State) (c : Fin 64) : Bool :=
  s.isOn (Fin.ofNat 24 (13 + c / 8)) && s.power.mode != .recovery && s.power.mode != .off

/-- Dn_RESET_n is high: from the end of the channel's training in Boot until Off (R511). -/
def State.dramResetHigh (s : State) (n : Nat) : Bool := s.power.mode != .off && decide (2 ≤ s.fld (Reg.DMC_STATUS_STATE n))

/-- A domain's word (R457). -/
def State.domWord (s : State) (n : Fin 24) : List (Fld × Nat) :=
  [(Reg.PMC_DOM_STATE n, (s.dom n).state.code), (Reg.PMC_DOM_POLICY n, domPolicy n), (Reg.PMC_DOM_VOTES n, (s.dom n).votes.length),
    (Reg.PMC_DOM_FLOOR n, s.heldFloors / 2 ^ n.val % 2)]

/-- FLAG[i]: the flag cells of blocks 32 i to 32 i + 31. -/
def State.flagWord (s : State) (i : Nat) : Nat :=
  (List.range 32).foldl (fun m k => if s.store.flags.contains (32 * i + k) then m + 2 ^ k else m) 0

/-- Fields of single registers that report other state. -/
def State.single (s : State) (a : Nat) : List (Fld × Nat) :=
  let g := s.galley
  if a = Reg.PMC_MODE then [(Reg.PMC_MODE_MODE, s.power.mode.code), (Reg.PMC_MODE_PREV, s.power.prev.code)]
  else if a = Reg.TRN_COUNT_LO then [(Reg.TRN_COUNT_LO_TURN_LO, s.turn)]
  else if a = Reg.TRN_COUNT_HI then [(Reg.TRN_COUNT_HI_TURN_HI, s.turn / 2 ^ 32)]
  else if a = Reg.FRM_STATUS then [(Reg.FRM_STATUS_REBUILDING, s.rebuilding.toNat)]
  else if a = Reg.DMC_GLY_FREE then [(Reg.DMC_GLY_FREE_FREE, 262144 - g.slots.length)]
  else if a = Reg.DMC_GLY_CACHE then [(Reg.DMC_GLY_CACHE_CACHE, (g.slots.filter fun x => x.2.state == .cache).length)]
  else if a = Reg.DMC_JNL_STATUS then [(Reg.DMC_JNL_STATUS_USED, g.journal.length), (Reg.DMC_JNL_STATUS_FULL, s.jnlFull.toNat)]
  else if a = Reg.DMC_JNL_SEQ_LO then [(Reg.DMC_JNL_SEQ_LO_SEQ_LO, g.jnlSeq)]
  else if a = Reg.DMC_JNL_SEQ_HI then [(Reg.DMC_JNL_SEQ_HI_SEQ_HI, g.jnlSeq / 2 ^ 32)]
  else if a = Reg.DMC_SNAP_STATUS then
    [(Reg.DMC_SNAP_STATUS_WRITING, g.writing.isSome.toNat), (Reg.DMC_SNAP_STATUS_SHADOW_FULL, s.shadowFull.toNat),
      (Reg.DMC_SNAP_STATUS_DIRTY_KPAGES, cdiv g.unwritten.length 1024)]
  else if a = Reg.DMC_SNAP_SEQ_LO then [(Reg.DMC_SNAP_SEQ_LO_SEQ_LO, g.markSeq)]
  else if a = Reg.DMC_SNAP_SEQ_HI then [(Reg.DMC_SNAP_SEQ_HI_SEQ_HI, g.markSeq / 2 ^ 32)]
  else if a = Reg.DMC_OVL_STATUS then [(Reg.DMC_OVL_STATUS_IN_USE, g.ovl.length)]
  else if a = Reg.MBX_UART_STATUS then
    [(Reg.MBX_UART_STATUS_RX_LEVEL, s.mgmt.uartRx.length), (Reg.MBX_UART_STATUS_TX_SPACE, 32 - s.mgmt.uartTx.length)]
  else if a = Reg.GAU_FIFO_STATUS then [(Reg.GAU_FIFO_STATUS_LEVEL, s.mgmt.gaugeFifo.length / 2)]
  else if a = Reg.GAU_ENERGY_LO then [(Reg.GAU_ENERGY_LO_UJ, s.energyUj)]
  else if a = Reg.GAU_ENERGY_HI then [(Reg.GAU_ENERGY_HI_UJ, s.energyUj / 2 ^ 32)]
  else if a = Reg.ERC_OVR_COUNT then [(Reg.ERC_OVR_COUNT_COUNT, (klook (s.fld Reg.ERC_OVR_SEL_UNIT) s.collector.overruns).getD 0)]
  else if a = Reg.ERC_FAB_COUNT then
    [(Reg.ERC_FAB_COUNT_COUNT, (klook (s.fld Reg.ERC_FAB_SEL_UNIT * 8 + s.fld Reg.ERC_FAB_SEL_LINK) s.collector.parity).getD 0)]
  else []

/-- STATE of a DRAM channel where the stored one does not tell it (R367, R443): 4, self-refresh, while its half's domain is off, and 1,
training, while a training operation runs before the channel is filled (DEDUCED, assumption log 192). -/
def State.dramState (s : State) (c : Nat) : List (Fld × Nat) :=
  if s.fld (Reg.DMC_STATUS_STATE c) = 3 ∧ (s.dom (if c < 6 then 11 else 12)).state = .off then [(Reg.DMC_STATUS_STATE c, 4)]
  else if s.fld (Reg.DMC_STATUS_STATE c) = 0 ∧ s.flag (Reg.DMC_TRAIN_RESULT_BUSY c) then [(Reg.DMC_STATUS_STATE c, 1)] else []

/-- Fields of the registers of an array that report other state. -/
def State.arrayed (s : State) (a : Nat) : List (Fld × Nat) :=
  match instOf (Reg.PMC_FLOOR 0) 4 8 a with
  | some c => [(Reg.PMC_FLOOR_MASK c, s.effFloor c / 2)]
  | none =>
  match instOf (Reg.PMC_DOM 0) 4 24 a with
  | some n => s.domWord (Fin.ofNat 24 n)
  | none =>
  match instOf (Reg.HGT_CTX_USE 0) 4 2 a with
  | some c => [(Reg.HGT_CTX_USE_IN_USE c, s.ctxUse (Fin.ofNat 2 c))]
  | none =>
  match instOf (Reg.FCE_BUF 0) 0x4000 64 a with
  | some c => [(Reg.FCE_BUF_READ_SLOTS c, s.readSlots c), (Reg.FCE_BUF_PROG_KIB c, s.progKib c)]
  | none =>
  match instOf (Reg.FUR_STATUS 0) 0x400 1024 a with
  | some n =>
    (if s.fld (Reg.FUR_STATUS_STATE n) = 1 ∧ s.loadingDie n then [(Reg.FUR_STATUS_STATE n, 4)] else []) ++
      -- The polls of a busy die read its status byte, whose value the state does not determine (R172).
      if (s.die n).busy.isSome then [(Reg.FUR_STATUS_SR n, leNat (Config.freeBytes (s.turn * 1024 + n) 1) % 256)] else []
  | none =>
  match instOf (Reg.FUR_HOLD_AGE 0) 0x400 1024 a with
  | some n => [(Reg.FUR_HOLD_AGE_TURNS n, match (s.die n).hold with | some h => sat (2 ^ 32 - 1) (s.turn - h.since) | none => 0)]
  | none =>
  match instOf (Reg.DMC_STATUS 0) 0x4000 12 a with
  | some c => s.dramState c
  | none =>
  match instOf (Reg.DMC_BUDGET 0) 0x4000 12 a with
  | some c => [(Reg.DMC_BUDGET_SC1_KIB c, s.sc1Kib c)]
  | none =>
  match instOf (Reg.DMC_LANE_DLY 0) 0x4000 12 a with
  | some c => [(Reg.DMC_LANE_DLY_VALUE c, (klook (c * 4096 + (s.word (Reg.DMC_LANE_SEL c)).toNat % 1024) s.memory.lanes).getD 0)]
  | none =>
  match instOf (Reg.FWS_FLAG 0) 4 16 a with
  | some i => [(Reg.FWS_FLAG_SET i, s.flagWord i)]
  | none =>
  match instOf (Reg.MBX_MCTP_STATUS 0) 0x20 3 a with
  | some p =>
    let m := s.mgmt.mctp[Fin.ofNat 3 p]
    [(Reg.MBX_MCTP_STATUS_RX_LEVEL p, m.rx.length), (Reg.MBX_MCTP_STATUS_TX_SPACE p, 1024 - m.tx.length)]
  | none =>
  match instOf (Reg.IRQ_PEND 0) 4 6 a with
  | some w => [(Reg.IRQ_PEND_SRC w, s.pend w)]
  | none =>
  match instOf (Reg.IRQ_FUR_PEND 0) 4 64 a with
  | some c => [(Reg.IRQ_FUR_PEND_DIE c, s.furPend c)]
  | none => []

/-- What a read of a register returns; a reserved offset reads 0 (R492), and so do write-only fields. -/
def State.view (s : State) (a : Nat) : Word := putFlds (s.word a) (s.single a ++ s.arrayed a)

/-! ### Register pairs (R496) -/

/-- The _LO words whose read latches the _HI word. -/
def pairLo : List Nat := [Reg.TRN_COUNT_LO, Reg.EDC_SWITCH_LO, Reg.GAU_ENERGY_LO, Reg.DMC_JNL_SEQ_LO, Reg.DMC_SNAP_SEQ_LO]

/-- The word that a client reads: a _HI word that the client latched reads as latched. -/
def State.readFor (s : State) (client a : Nat) : Word :=
  match s.collector.latches.find? fun l => l.1 + 4 == a && l.2.1 == client with
  | some l => BitVec.ofNat 32 l.2.2
  | none => s.view a

/-- A read of a _LO word latches the _HI word for the client. -/
def State.latchHi (s : State) (client a : Nat) : State :=
  if pairLo.contains a then
    s.onCollector fun c =>
      { c with latches := (a, client, (s.view (a + 4)).toNat) :: c.latches.filter fun l => !(l.1 == a && l.2.1 == client) }
  else s

end Sys2Proof.Machine
end

