-- ==== Sys2Proof/Machine/Registers.lean ====
section
/-! DEFINITION. Reads and writes of the setup registers (chapter 15, R488–R498): reads with their side effects, writes by each
register's own rules, and the rows that name a register access. -/

namespace Sys2Proof.Machine

/-- The state that a meaning answers. -/
def nextOf (o : Out) (s : State) : State := match o with | .next t => t | _ => s

/-- A field of a word being written. -/
def fldOf (v : Word) (f : Fld) : Nat := bitsOf v f.lsb f.width

/-! ### Reads -/

/-- The RC fields of a register read 0 after a read by firmware; a host's read does not clear them (R489, R493). -/
def State.clearRc (s : State) (client a : Nat) : State :=
  if viaBar2 client then s
  else
    match regAt a with
    | some r =>
      if r.fields.any (fun f => f.type == .rc) then
        s.setWord a (r.fields.foldl (fun w f => if f.type == .rc then putBits w f.lsb f.width 0 else w) (s.word a))
      else s
    | none => s

/-- What a read changes: RC fields and the latch of its _HI word. -/
def State.readEffects (s : State) (client a : Nat) : State := (s.latchHi client a).clearRc client a

/-- A read in flight for the host, by its controller and offset; marked once BAR2 has answered it (R498). -/
def State.barRead (s : State) (client a : Nat) : Option (Nat × Nat × Nat) :=
  if viaBar2 client then s.host.barReads.find? fun r => r.1 + 0x20 == client && (r.2.1 == a || r.2.1 == barMark a) else none

def State.endBarRead (s : State) (client a : Nat) : State :=
  match s.barRead client a with
  | some r => s.onHost fun h => { h with barReads := h.barReads.erase r }
  | none => s

/-- The answer of a read reaches its client, unless BAR2 has already completed the read. -/
def State.answerRead (s : State) (client a v : Nat) : State :=
  match s.barRead client a with
  | some r => if r.2.1 == a then (s.endBarRead client a).answerWith client v else s.endBarRead client a
  | none => s.answerWith client v

/-- One setup read by a client (R491, R497): misaligned, of a domain that never answers, of a sleeping one, or of one that is ON. -/
def State.setupGet (s : State) (client a : Nat) (i : Instr) : State :=
  let n := blockDomain a
  if a % 4 ≠ 0 then (if isProcessor client then { s with answer := some (.loadFault client (0x20000000 + a)) } else s)
  else if s.isDead n then (s.busError client (0x20000000 + a) false).answerRead client a 0xFFFFFFFF
  else
    let s := s.touch n client
    if s.isOn n then (s.readEffects client a).answerRead client a (s.readFor client a).toNat
    else if viaBar2 client && (s.barRead client a).isNone then
      (s.onHost fun h => { h with barReads := h.barReads ++ [(client - 0x20, a, s.turn)] }).stall n i
    else s.stall n i

/-- The data registers whose read pops (R465, R486). -/
def State.popRead (s : State) (client a : Nat) : Option State :=
  if a = Reg.GAU_FIFO then some (nextOf (execGaugeFifoPop client s) s)
  else if a = Reg.MBX_UART_DATA then some (nextOf (execUartDataRead client s) s)
  else (instOf (Reg.MBX_MCTP_RX 0) 0x20 3 a).map fun p => nextOf (execMctpRxPop client (Fin.ofNat 3 p) s) s

/-- PAIR_LO_READ (R496). -/
def execPairLoRead (client addr : Nat) (s : State) : Out := .next (s.setupGet client (addr % 2 ^ 26) (.pairLoRead client addr))

/-- RC_FIELD_READ (R493). -/
def execRcFieldRead (client addr : Nat) (s : State) : Out :=
  .next (match s.popRead client (addr % 2 ^ 26) with
    | some t => t
    | none => s.setupGet client (addr % 2 ^ 26) (.rcFieldRead client addr))

/-! ### Writes with rules of their own -/

/-- A write of DLX_NOW (R255, R278): it loads the clock in Boot and Recovery; otherwise the rider's first one of a Boot is added at the
next turn edge. -/
def State.writeDlxNow (s : State) (client : Nat) (v : Word) : State :=
  if s.bootMode then s.setFld Reg.LDP_DLX_NOW_ROT v.toNat
  else if client = 0x60 ∧ !s.flash.dlxTaken then s.onFlash fun f => { f with dlxTaken := true, dlxAdd := f.dlxAdd + v.toNat }
  else s.logWrite client Reg.LDP_DLX_NOW v

/-- DLX_NOW_WRITE. -/
def execDlxNowWrite (client : Nat) (value : Word) (s : State) : Out :=
  .next (s.setupWrite client Reg.LDP_DLX_NOW value (.dlxNowWrite client value) fun s => s.writeDlxNow client value)

/-- IRQ_ENABLE_WRITE (R504): by the target or the rider. -/
def execIrqEnableWrite (client : Nat) (t : Fin 25) (w : Fin 6) (value : Word) (s : State) : Out :=
  .next (s.setupWrite client (Reg.IRQ_EN t w) value (.irqEnableWrite client t w value) fun s =>
    if client = targetClient t ∨ client = 0x60 then s.regWrite client (Reg.IRQ_EN t w) value else s.logWrite client (Reg.IRQ_EN t w) value)

/-- Registers written only in Boot and Recovery, in whole words (R170, R207, R208, R278, R281, R283). -/
def bootOnly (a : Nat) : Bool :=
  [Reg.DMC_MAP_CFG, Reg.DMC_MAP_GRAN, Reg.LDP_DLX_STAMP, Reg.LDP_DLX_TABLE, Reg.LDP_MR_RING, Reg.LDP_RD_BASE, Reg.FRM_ACC].contains a ||
    (instOf (Reg.LDP_DLX_PTYPE 0) 4 4 a).isSome || (instOf (Reg.LDP_DLX_PAGEMAP 0) 4 4 a).isSome ||
    (instOf (Reg.FCE_THR_DESC0 0) 0x4000 64 a).isSome || (List.range 3).any fun j => (instOf (Reg.FCE_THR_DESC 0 j) 0x4000 64 a).isSome

/-- A write of an OCM.BANK word: each field by its own rule, in the order LOST, OWNER, REQ, REDIRECT, DISABLE (R356, R493, R500;
DEDUCED, assumption log 189). -/
def State.bankWrite (s : State) (client code : Nat) (v : Word) : State :=
  let run (b : Bool) (o : Out) (s : State) : State := if b then nextOf o s else s
  let s := run (fldOf v (Reg.OCM_BANK_LOST code) == 1) (execBankLostClear client code s) s
  let s := run (fldOf v (Reg.OCM_BANK_OWNER code) != s.fld (Reg.OCM_BANK_OWNER code))
    (execBankOwnerWrite client code (fldOf v (Reg.OCM_BANK_OWNER code)) s) s
  let s := run (client != s.fld (Reg.OCM_BANK_OWNER code) || fldOf v (Reg.OCM_BANK_REQ code) != s.fld (Reg.OCM_BANK_REQ code))
    (execBankPowerRequest client code (fldOf v (Reg.OCM_BANK_REQ code)) s) s
  let s := run (fldOf v (Reg.OCM_BANK_REDIRECT code) != s.fld (Reg.OCM_BANK_REDIRECT code))
    (execBankRedirectWrite client code (fldOf v (Reg.OCM_BANK_REDIRECT code)) s) s
  run (fldOf v (Reg.OCM_BANK_DISABLE code) == 1) (execBankDisable client code s) s

/-- A write of DMA.CTRL: ABORT, RESUME, ENABLE. -/
def State.dmaCtrlWrite (s : State) (client : Nat) (ch : Fin 32) (v : Word) : State :=
  let s := if fldOf v (Reg.DMA_CTRL_ABORT ch) = 1 then nextOf (execDmaAbort client ch s) s else s
  let s := if fldOf v (Reg.DMA_CTRL_RESUME ch) = 1 then nextOf (execDmaResume client ch s) s else s
  nextOf (execDmaEnableWrite client ch (fldOf v (Reg.DMA_CTRL_ENABLE ch) == 1) s) s

/-- A write of another register of a channel's page (R375, R392, R393): the ring's place only while the channel is not enabled. -/
def State.dmaPageWrite (s : State) (client : Nat) (ch : Fin 32) (a : Nat) (v : Word) : State :=
  let ofs := a % 0x100
  if ofs = 0x24 then s.regWrite client a v
  else if client != s.fld (Reg.DMA_ASSIGN_OWNER ch) then s.logWrite client a v
  else if (ofs == 0x08 || ofs == 0x0C || ofs == 0x10) && s.flag (Reg.DMA_CTRL_ENABLE ch) then s.logWrite client a v
  else s.regWrite client a v

/-- A write of BST.CTRL (R485). -/
def State.bstWrite (s : State) (client : Nat) (v : Word) : State :=
  let s := s.setFlds [(Reg.BST_CTRL_KIND, fldOf v Reg.BST_CTRL_KIND), (Reg.BST_CTRL_SOURCE, fldOf v Reg.BST_CTRL_SOURCE)]
  let src := fldOf v Reg.BST_CTRL_SOURCE
  let s := if fldOf v Reg.BST_CTRL_ABORT = 1 then nextOf (execSelfTestAbort client s) s else s
  if fldOf v Reg.BST_CTRL_START = 0 then s
  else
    match fldOf v Reg.BST_CTRL_KIND with
    | 1 => nextOf (execSelfTestInServicePass client src s) s
    | 2 => nextOf (execSelfTestShortRun client src s) s
    | 3 => nextOf (execSelfTestExtendedRun client src s) s
    | 4 => nextOf (execSelfTestFullRun client src s) s
    | 5 => nextOf (execSelfTestShutdownRun client src s) s
    | _ => s

/-- A write of FWS.DATA (R402, R403): the operation of the open sequence; a command but PROGRAM_PAGE takes the confirm value only. -/
def State.fwsDataWrite (s : State) (client : Nat) (v : Word) : State :=
  let addr := s.fld Reg.FWS_ADDR_ADDR
  let op := s.fld Reg.FWS_CMD_OPCODE
  if s.fwsBarred client then s.logWrite client Reg.FWS_DATA v
  else if s.fld Reg.FWS_STATUS_SEQ_STATE ≠ 4 then s.fwsBadSequence
  else if op = 1 then nextOf (execProgramPage client addr v s) s
  else if v ≠ confirmWord then s.fwsLock.fwsError Reg.FWS_STATUS_ERR_DATA
  else
    match op with
    | 2 => nextOf (execEraseBlock client addr s) s
    | 3 => nextOf (execEraseSuspend client addr s) s
    | 4 => nextOf (execEraseResume client addr s) s
    | _ => nextOf (execClearFlag client addr s) s

/-- A write of TRAIN_CTRL, MRW or FILL (R344, R345, R368): GO starts the helper. -/
def State.trainWrite (s : State) (client : Nat) (ch : Fin 12) (v : Word) : State :=
  let s := s.regWrite client (Reg.DMC_TRAIN_CTRL ch) (putBits v 0 1 0)
  if fldOf v (Reg.DMC_TRAIN_CTRL_GO ch) = 1 ∧ fldOf v (Reg.DMC_TRAIN_CTRL_OP ch) < 4 then
    s.startTraining ch (fldOf v (Reg.DMC_TRAIN_CTRL_OP ch))
  else s

def State.mrwWrite (s : State) (client : Nat) (ch : Fin 12) (v : Word) : State :=
  if fldOf v (Reg.DMC_MRW_GO ch) = 0 then s.regWrite client (Reg.DMC_MRW ch) v
  else
    let mr := BitVec.ofNat 8 (fldOf v (Reg.DMC_MRW_MR ch))
    let sub := fldOf v (Reg.DMC_MRW_SUBCH ch) == 1
    let rank := fldOf v (Reg.DMC_MRW_RANK ch) == 1
    if fldOf v (Reg.DMC_MRW_READ ch) = 1 then nextOf (execModeRegisterRead ch mr sub rank s) s
    else nextOf (execModeRegisterWrite ch mr (BitVec.ofNat 8 (fldOf v (Reg.DMC_MRW_DATA ch))) sub rank s) s

/-- A write of LANE_DLY: the selected lane's value (R368). -/
def State.laneWrite (s : State) (client : Nat) (ch : Nat) (v : Word) : State :=
  if s.bootMode then
    s.onMemory fun m => { m with lanes := kput (ch * 4096 + (s.word (Reg.DMC_LANE_SEL ch)).toNat % 1024) (v.toNat % 1024) m.lanes }
  else s.logWrite client (Reg.DMC_LANE_DLY ch) v

/-- A write of MR_PTR (R281): a HEAD that would pass TAIL is ignored and logged. -/
def State.mrPtrWrite (s : State) (client : Nat) (v : Word) : State :=
  let n := 2 ^ (min 10 (s.fld Reg.LDP_MR_RING_LOG2_ENTRIES) + 6)
  let head := s.fld Reg.LDP_MR_PTR_HEAD
  let new := fldOf v Reg.LDP_MR_PTR_HEAD
  if new < n ∧ (new + n - head) % n ≤ (s.fld Reg.LDP_MR_PTR_TAIL + n - head) % n then s.setFld Reg.LDP_MR_PTR_HEAD new
  else s.logWrite client Reg.LDP_MR_PTR v

/-- A write of a decoder pool mask: each bit newly set removes its decoder (R251). -/
def State.decOutWrite (s : State) (soft : Bool) (v : Word) : State :=
  (List.range (if soft then 8 else 32)).foldl (fun s i => if bitsOf v i 1 = 1 then s.removeDecoder soft i else s) s

/-- A write of FCE.CTRL (R145, R165): IFCRC_EN is taken only in Boot and Recovery, and RETRAIN_REQ requests a retrain. -/
def State.fceCtrlWrite (s : State) (client : Nat) (ch : Fin 64) (v : Word) : State :=
  let crc := if s.bootMode then fldOf v (Reg.FCE_CTRL_IFCRC_EN ch) else s.fld (Reg.FCE_CTRL_IFCRC_EN ch)
  let s := s.regWrite client (Reg.FCE_CTRL ch) (putBits (putBits v 8 1 crc) 0 1 0)
  if fldOf v (Reg.FCE_CTRL_RETRAIN_REQ ch) = 1 then nextOf (execRetrainReq client ch (fldOf v (Reg.FCE_CTRL_TARGET_IDX ch)) s) s else s

/-- A write of FUR.CFG (R172): only AUTO_RAISE outside Boot and Recovery. -/
def State.furCfgWrite (s : State) (client n : Nat) (v : Word) : State :=
  if s.bootMode then s.regWrite client (Reg.FUR_CFG n) v
  else
    let old := s.word (Reg.FUR_CFG n)
    let s := if bitsOf v 0 7 = bitsOf old 0 7 then s else s.logWrite client (Reg.FUR_CFG n) v
    s.regWrite client (Reg.FUR_CFG n) (putBits v 0 7 (bitsOf old 0 7))

/-- A write of MODE_REQ: each bit set is a request. -/
def State.modeReqWrite (s : State) (client : Nat) (v : Word) : State :=
  let s := if fldOf v Reg.PMC_MODE_REQ_SEAL = 1 then nextOf (execSealRequest client s) s else s
  if fldOf v Reg.PMC_MODE_REQ_RECOVER = 1 then nextOf (execRecoverRequest client s) s else s

/-- A write of a one-instance register with a rule of its own. -/
def State.singleWrite (s : State) (client a : Nat) (v : Word) : Option State :=
  if a = Reg.PMC_VOTE then some (nextOf (execVoteWrite client (bitsOf v 0 5) (bitsOf v 5 1 == 1) s) s)
  else if a = Reg.PMC_MODE_REQ then some (s.modeReqWrite client v)
  else if a = Reg.PMC_CIS_TEST then
    some (if fldOf v Reg.PMC_CIS_TEST_START = 1 then nextOf (execCisternTestStart (some client) s) s else s)
  else if a = Reg.TRN_GLOBAL_CMD then some (if bitsOf v 0 2 = 0 then s else s.issueGlobal client (bitsOf v 0 2))
  else if a = Reg.SLU_ALLOT_ADD then some (nextOf (execAllotAddWrite client v s) s)
  else if a = Reg.LDP_HARD_OUT then some (s.decOutWrite false v)
  else if a = Reg.LDP_SOFT_OUT then some (s.decOutWrite true v)
  else if a = Reg.LDP_DLX_NOW then some (s.writeDlxNow client v)
  else if a = Reg.LDP_MR_PTR then some (s.mrPtrWrite client v)
  else if a = Reg.DMC_MAP_REPAIR then
    some (if fldOf v Reg.DMC_MAP_REPAIR_GO = 1 then nextOf (execMapRepair client (fldOf v Reg.DMC_MAP_REPAIR_LINE) s) s
      else s.setFld Reg.DMC_MAP_REPAIR_LINE (fldOf v Reg.DMC_MAP_REPAIR_LINE))
  else if a = Reg.DMC_MUP_PTR then some (nextOf (execMupTailWrite client (v.toNat % 2 ^ 16) s) s)
  else if a = Reg.DMC_GLY_MOVE then
    some (if fldOf v Reg.DMC_GLY_MOVE_START = 1 then nextOf (execMirrorMoveStart client (fldOf v Reg.DMC_GLY_MOVE_CHAN) s) s
      else s.setFld Reg.DMC_GLY_MOVE_CHAN (fldOf v Reg.DMC_GLY_MOVE_CHAN))
  else if a = Reg.DMC_SNAP_CTRL then some (if bitsOf v 0 1 = 1 then nextOf (execSnapshotMark client s) s else s)
  else if a = Reg.OCM_REPAIR then
    some (if fldOf v Reg.OCM_REPAIR_GO = 1 then
        nextOf (execColumnRepair client (fldOf v Reg.OCM_REPAIR_BANK) (fldOf v Reg.OCM_REPAIR_COLUMN) s) s
      else s.regWrite client a v)
  else if a = Reg.OCM_FLIPMASK2 then some (nextOf (execOcmFlipmaskArm client (s.word Reg.OCM_FLIPMASK0) (s.word Reg.OCM_FLIPMASK1) v s) s)
  else if a = Reg.FWS_KEY then some (s.fwsWrite client .key v)
  else if a = Reg.FWS_CMD then some (s.fwsWrite client .cmd v)
  else if a = Reg.FWS_ADDR then some (s.fwsWrite client .addr v)
  else if a = Reg.FWS_DATA then some (s.fwsDataWrite client v)
  else if a = Reg.MBX_RDB_SET then some (nextOf (execRiderDoorbellSet client v s) s)
  else if a = Reg.MBX_UART_DATA then some (nextOf (execUartDataWrite client (BitVec.ofNat 8 v.toNat) s) s)
  else if a = Reg.BST_CTRL then some (s.bstWrite client v)
  else if bootOnly a && !s.bootMode then some (s.logWrite client a v)
  else none

/-- A write of a register of an array with a rule of its own. -/
def State.arrayWrite (s : State) (client a : Nat) (v : Word) : Option State :=
  match instOf (Reg.PMC_DOM 0) 4 24 a with
  | some n => some (if fldOf v (Reg.PMC_DOM_RETIRE n) = 1 then nextOf (execDomainRetire client (Fin.ofNat 24 n) s) s else s)
  | none =>
  match instOf (Reg.SLU_CHAN_OUT 0) 4 2 a with
  | some m => some (nextOf (execChanOutWrite client (Fin.ofNat 2 m) v s) s)
  | none =>
  match instOf (Reg.SLU_DIE_STATE 0) 0x10 1024 a with
  | some n => some (nextOf (execDieStateWrite client (Fin.ofNat 1024 n) (v.toNat % 4) s) s)
  | none =>
  match instOf (Reg.FCE_CTRL 0) 0x4000 64 a with
  | some n => some (s.fceCtrlWrite client (Fin.ofNat 64 n) v)
  | none =>
  match instOf (Reg.FUR_CFG 0) 0x400 1024 a with
  | some n => some (s.furCfgWrite client n v)
  | none =>
  match instOf (Reg.DMC_TRAIN_CTRL 0) 0x4000 12 a with
  | some n => some (s.trainWrite client (Fin.ofNat 12 n) v)
  | none =>
  match instOf (Reg.DMC_MRW 0) 0x4000 12 a with
  | some n => some (s.mrwWrite client (Fin.ofNat 12 n) v)
  | none =>
  match instOf (Reg.DMC_FILL 0) 0x4000 12 a with
  | some n => some (if bitsOf v 0 1 = 1 then nextOf (execZeroFill (Fin.ofNat 12 n) s) s else s)
  | none =>
  match instOf (Reg.DMC_LANE_DLY 0) 0x4000 12 a with
  | some n => some (s.laneWrite client n v)
  | none =>
  match instOf (Reg.DMC_FLIPMASK2 0) 0x4000 12 a with
  | some n => some (nextOf (execDmcFlipmaskArm client (Fin.ofNat 12 n) (s.word (Reg.DMC_FLIPMASK0 n)) (s.word (Reg.DMC_FLIPMASK1 n)) v s) s)
  | none =>
  match instOf (Reg.OCM_BANK 0) 4 192 a with
  | some n => some (s.bankWrite client n v)
  | none =>
  match instOf (Reg.FWS_XO 0) 4 2 a with
  | some n => some (nextOf (execXoWrite client (Fin.ofNat 2 n) v s) s)
  | none =>
  match instOf (Reg.FWS_PBUF 0) 4 128 a with
  | some _ => some (if storeWriter client then s.regWrite client a v else s.logWrite client a v)
  | none =>
  match instOf (Reg.MBX_CDB_SET 0) 8 3 a with
  | some n => some (nextOf (execClusterDoorbellSet client (Fin.ofNat 3 n) v s) s)
  | none =>
  match instOf (Reg.MBX_MCTP_TX 0) 0x20 3 a with
  | some n => some (nextOf (execMctpTxPush client (Fin.ofNat 3 n) v s) s)
  | none =>
  if Reg.DMA_CTRL 0 ≤ a ∧ a < Reg.DMA_CTRL 0 + 0x2000 then
    let ch := Fin.ofNat 32 ((a - Reg.DMA_CTRL 0) / 0x100)
    if a % 0x100 = 0 then some (s.dmaCtrlWrite client ch v)
    else if a % 0x100 = 0x14 then some (nextOf (execDmaRingTailWrite client ch (v.toNat % 2 ^ 16) s) s)
    else if a % 0x100 ≤ 0x28 then some (s.dmaPageWrite client ch a v)
    else none
  else if Reg.IRQ_EN 0 0 ≤ a ∧ a < Reg.IRQ_EN 0 0 + 25 * 0x20 ∧ a % 0x20 < 0x18 then
    let o := a - Reg.IRQ_EN 0 0
    some (nextOf (execIrqEnableWrite client (Fin.ofNat 25 (o / 0x20)) (Fin.ofNat 6 (o % 0x20 / 4)) v s) s)
  else none

/-- A write of one register word by its own rules; one that sets a reserved bit, or an RWE or Boot field that it may not change, is
logged (R492, R493). -/
def State.routedWrite (s : State) (client a : Nat) (v : Word) : State :=
  let bad (f : FieldDesc) : Bool := (f.type == .rsvd && bitsOf v f.lsb f.width != 0) || f.type == .rwe
  let logged (s : State) : State :=
    match regAt a with
    | some r => if r.fields.any bad && a != Reg.FWS_KEY && a != Reg.FWS_CMD && a != Reg.FWS_ADDR then s.logWrite client a v else s
    | none => s
  match s.singleWrite client a v with
  | some t => logged t
  | none =>
    match s.arrayWrite client a v with
    | some t => logged t
    | none => s.regWrite client a v

/-- REGISTER_WRITE (R491, R495): `width` in bytes. A narrower write is ignored and logged; a misaligned one is a store access fault for
a processor; an aligned 64-bit store is two of these. -/
def execRegisterWrite (client addr : Nat) (value : Word) (width : Nat) (s : State) : Out :=
  .next (let a := addr % 2 ^ 26
    if viaBar2 client then s.logWrite client a value
    else if a % 4 ≠ 0 then (if isProcessor client then { s with answer := some (.storeFault client (0x20000000 + a)) } else s)
    else if width ≠ 4 then s.logWrite client a value
    else s.setupWrite client a value (.registerWrite client addr value width) fun s => s.routedWrite client a value)

end Sys2Proof.Machine
end

