-- ==== Sys2Proof/Machine/Dma.lean ====
section
/-! DEFINITION. The firmware DMA engine (chapter 11, R376–R385, R389–R391): what a descriptor moves, and the bursts. -/

namespace Sys2Proof.Machine

/-- Bytes of a SWAP unit (R381, check 5). -/
def swapUnit (k : Nat) : Nat := match k with | 1 => 2 | 2 => 4 | 3 => 4 | 4 => 8 | _ => 1

/-- The reordering of one unit (R384). -/
def swapOne (k : Nat) (b : Bytes) : Bytes := if k = 3 then b.drop 2 ++ b.take 2 else b.reverse

/-- SWAP over a stream: each unit on its own, counted from the first byte (R384). -/
def swapStream (k : Nat) : Nat → Bytes → Bytes
  | 0, _ => []
  | n + 1, bs => if swapUnit k = 1 then bs else swapOne k (bs.take (swapUnit k)) ++ swapStream k n (bs.drop (swapUnit k))

/-! ### Windows (R379) -/

/-- The window of local space that holds an address, by number, with its first and last-plus-one address. -/
def State.window (s : State) (a : Nat) : Option (Nat × Nat) :=
  if 0x01000000 ≤ a && a < 0x01000000 + 24 * 0x100000 then
    let c := (a - 0x01000000) / 0x100000
    some (0x01000000 + c * 0x100000, 0x01000000 + (c + 1) * 0x100000)
  else if 0x10000000 ≤ a && a < 0x13000000 then
    let k := (a - 0x10000000) / 0x1000000
    some (0x10000000 + k * 0x1000000, 0x10000000 + (k + 1) * 0x1000000)
  else if 0x13000000 ≤ a && a < 0x16000000 then
    let k := (a - 0x13000000) / 0x1000000
    some (0x13000000 + k * 0x1000000, 0x13000000 + (k + 1) * 0x1000000)
  else if 0x18000000 ≤ a && a < 0x1B000000 && (a - 0x18000000) % 0x1000000 < 0x40000 then
    let k := (a - 0x18000000) / 0x1000000
    some (0x18000000 + k * 0x1000000, 0x18000000 + k * 0x1000000 + 0x40000)
  else if 0x1C000000 ≤ a && a < 0x1C400000 then some (0x1C000000, 0x1C400000)
  else if 0x20000000 ≤ a && a < 0x24000000 then some (0x20000000, 0x24000000)
  else if inStore a then some (0x08000000, 0x10000000)
  else if isDram a && a - dramBase < s.dramBytes then some (dramBase, dramBase + s.dramBytes)
  else none

/-- The byte range of a side (R380): a fixed side is one burst-wide port. -/
def sideLen (fix : Bool) (d : Desc) : Nat := if fix then d.burst else d.count

/-- A side lies inside one window (check 8). -/
def State.sideFits (s : State) (space : Nat) (a len : Nat) : Bool :=
  if space = 0 then
    match s.window a with
    | some (_, hi) => decide (a + len ≤ hi)
    | none => false
  else decide (a + len ≤ 2 ^ 64)

/-- Any byte of a store range lies in an execute-only range: the range's blocks are looked at one by one. -/
def State.rangeInXo (s : State) (a len : Nat) : Bool :=
  (List.range ((a % 0x40000 + len + 0x3FFFF) / 0x40000)).any fun k => s.inXo (a / 0x40000 * 0x40000 + k * 0x40000)

/-- Validation (R381): the first check that fails, with its CODE. -/
def State.dmaValidate (s : State) (ch : Nat) (d : Desc) : Nat :=
  let host := d.srcSpace != 0 || d.dstSpace != 0
  if d.count = 0 then 1
  else if d.ctrl / 2 ^ 15 ≠ 0 || d.swap ≥ 5 || d.srcSpace = 3 || d.dstSpace = 3 || natBits d.ctrl 10 4 < 2 || natBits d.ctrl 10 4 > 9 then 1
  else if (d.srcSpace ≠ 0 && d.dstSpace ≠ 0) || (host && (d.srcFix || d.dstFix || d.req)) then 1
  else if d.req && (s.fld (Reg.DMA_ASSIGN_REQ_LINE ch) = 63 || (!d.srcFix && !d.dstFix)) then 1
  else if d.count % swapUnit d.swap ≠ 0 then 1
  else if (d.srcFix && (d.src % d.burst ≠ 0 || d.count % d.burst ≠ 0)) || (d.dstFix && (d.dst % d.burst ≠ 0 || d.count % d.burst ≠ 0)) then 1
  else if (inSetup d.srcSpace d.src && (d.src % 4 ≠ 0 || d.count % 4 ≠ 0)) ||
      (inSetup d.dstSpace d.dst && (d.dst % 4 ≠ 0 || d.count % 4 ≠ 0)) then 1
  else if !s.sideFits d.srcSpace d.src (sideLen d.srcFix d) || !s.sideFits d.dstSpace d.dst (sideLen d.dstFix d) then 2
  else if (d.dstSpace = 0 && inStore d.dst) ||
      (d.srcSpace = 0 && inStore d.src && s.rangeInXo (d.src - 0x8000000) (sideLen d.srcFix d)) then 2
  else 0

/-! ### Bursts (R382) -/

/-- Where the burst that holds a byte of the stream starts. -/
def Desc.burstAt (d : Desc) (x : Nat) : Nat :=
  let back (fix : Bool) (a : Nat) : Nat := if fix then (if d.srcFix && d.dstFix then x % d.burst else x) else (a + x) % d.burst
  x - min (back d.srcFix d.src) (back d.dstFix d.dst)

/-- The byte of the stream that SWAP puts at a place of it, which is its own inverse (R384). -/
def swapAt (k j : Nat) : Nat :=
  let u := swapUnit k
  let i := j % u
  j - i + (if k = 3 then (i + 2) % 4 else u - 1 - i)

/-! ### Reading and writing a side (R382) -/

/-- A peripheral data register: a read pops, a write pushes. The UART, the MCTP ports and the gauge FIFO (Table 11.1). -/
def popBytes (n : Nat) (b : Bytes) : Bytes × Bytes := (padTo n b, b.drop n)

/-- Read memory of the compositor map: each byte where it is stored, each 64-bit word checked and, where a bit has flipped,
corrected (R300). -/
def State.dmaLoad (s : State) (client a n : Nat) : Bytes × State :=
  ((List.range n).map fun i => (memRead s.memory.bytes (s.storage (a + i)) 1).getD 0 0,
    (List.range ((a + n + 7) / 8 - a / 8)).foldl (fun t i => (t.readWord client (t.storage (a / 8 * 8 + 8 * i))).2) s)

/-- Read `n` bytes of a source side. Reads of peripheral data registers pop; beats the peripheral cannot supply read as
zeros (R385). Host memory's contents are the host's: a free run of bytes. -/
def State.dmaRead (s : State) (client : Nat) (d : Desc) (ofs n : Nat) : Bytes × State :=
  let a := if d.srcFix then d.src else d.src + ofs
  if d.srcSpace ≠ 0 then (Config.freeBytes s.free n, s.tookFree)
  else if inSetup 0 a then
    let o := a - 0x20000000
    if o = Reg.MBX_UART_DATA then
      ((popBytes n s.mgmt.uartRx).1, s.onMgmt fun m => { m with uartRx := (popBytes n m.uartRx).2 })
    else if o = Reg.GAU_FIFO then
      ((popBytes n (s.mgmt.gaugeFifo.map fun w => leBytes 4 w.toNat).flatten).1,
        s.onMgmt fun m => { m with gaugeFifo := m.gaugeFifo.drop (n / 4) })
    else if o = Reg.MBX_MCTP_RX 0 || o = Reg.MBX_MCTP_RX 1 || o = Reg.MBX_MCTP_RX 2 then
      let p : Fin 3 := Fin.ofNat 3 ((o - Reg.MBX_MCTP_RX 0) / 32)
      ((popBytes n s.mgmt.mctp[p].rx).1,
        s.onMgmt fun m => { m with mctp := vupd m.mctp p fun q => { q with rx := (popBytes n q.rx).2 } })
    else
      (List.range (n / 4)).foldl (fun (r : Bytes × State) i =>
        let x := if d.srcFix then o else o + 4 * i
        (r.1 ++ leBytes 4 (r.2.readFor client x).toNat, r.2.readEffects client x)) ([], s)
  else if inStore a then
    (((List.range n).map fun i => (s.store.page (storePage (a - 0x8000000 + i))).getD ((a + i) % 512) 0xFF), s)
  else s.dmaLoad client a n

/-- Write a run of bytes to an alias or plain address, one 64-bit word at a time with byte enables. -/
def State.dmaStore (s : State) (client : Nat) : Nat → Nat → Bytes → State
  | 0, _, _ => s
  | fuel + 1, a, bs =>
    if bs = [] then s
    else
      let k := min (8 - a % 8) bs.length
      let v := leNat (bs.take k) * 2 ^ (8 * (a % 8))
      let be := (2 ^ k - 1) * 2 ^ (a % 8)
      let s := match aliasOf a with
        | 1 => (s.storeWord client (s.storage a) (s.peek (s.storage a / 8 * 8) 8 ||| v) 0xFF).2
        | 2 => (s.storeWord client (s.storage a) (s.peek (s.storage a / 8 * 8) 8 &&& (2 ^ 64 - 1 - v)) 0xFF).2
        | _ => (s.storeWord client (s.storage a) v be).2
      s.dmaStore client fuel (a + k) (bs.drop k)

/-- Write a run of bytes to a destination side. -/
def State.dmaWrite (s : State) (client : Nat) (d : Desc) (ofs : Nat) (bs : Bytes) : State :=
  let a := if d.dstFix then d.dst else d.dst + ofs
  if d.dstSpace ≠ 0 then s
  else if inSetup 0 a then
    let o := a - 0x20000000
    if o = Reg.MBX_UART_DATA then
      s.onMgmt fun m => { m with uartTx := (m.uartTx ++ bs).take 32, uartFrom := if m.uartTx.isEmpty then s.turn else m.uartFrom }
    else if o = Reg.MBX_MCTP_TX 0 || o = Reg.MBX_MCTP_TX 1 || o = Reg.MBX_MCTP_TX 2 then
      let p : Fin 3 := Fin.ofNat 3 ((o - Reg.MBX_MCTP_TX 0) / 32)
      s.onMgmt fun m => { m with mctp := vupd m.mctp p fun q => { q with tx := (q.tx ++ bs).take 1024 } }
    else (List.range (bs.length / 4)).foldl
      (fun s i => s.routedWrite client (o + 4 * i) (BitVec.ofNat 32 (leNat (Sys2Proof.Machine.slice bs (4 * i) 4)))) s
  else s.dmaStore client bs.length a bs

/-- Count bytes moved in DMA.BYTES, in whole KiB (R394). -/
def State.dmaCount (s : State) (ch : Fin 32) (n : Nat) : State :=
  let t := s.dma[ch].spare + n
  (s.addFld (Reg.DMA_BYTES_KIB ch) (t / 1024)).onDma ch fun c => { c with spare := t % 1024 }

/-- Write a run that was popped from a fixed source where SWAP puts its bytes: in groups of four where a unit of eight spans two bursts,
else byte by byte. Between two fixed sides the order cannot be changed across bursts (assumption log 29). -/
def State.dmaScatter (s : State) (client : Nat) (d : Desc) (ofs : Nat) (bs : Bytes) : State :=
  if d.dstFix then s.dmaWrite client d ofs (swapStream d.swap bs.length bs)
  else if ofs % 4 = 0 ∧ bs.length % 4 = 0 then
    (List.range (bs.length / 4)).foldl
      (fun s g => s.dmaWrite client d (swapAt d.swap (ofs + 4 * g) - 3) (Sys2Proof.Machine.slice bs (4 * g) 4).reverse) s
  else
    (List.range bs.length).foldl (fun s k => s.dmaWrite client d (swapAt d.swap (ofs + k)) (Sys2Proof.Machine.slice bs k 1)) s

/-- Move `n` bytes at an offset of a descriptor's stream, swapped. The destination receives the source as it stood: a
chunk is read whole before it is written, and an unpaced descriptor is one chunk (R383, R384). A chunk that splits a unit of SWAP reads
the whole unit. -/
def State.dmaMove (s : State) (ch : Fin 32) (d : Desc) (ofs n : Nat) : State :=
  let client := 0x40 + ch
  let u := swapUnit d.swap
  let t :=
    if ofs % u = 0 ∧ n % u = 0 then
      let r := s.dmaRead client d ofs n
      r.2.dmaWrite client d ofs (swapStream d.swap n r.1)
    else if d.srcFix then
      let r := s.dmaRead client d ofs n
      r.2.dmaScatter client d ofs r.1
    else
      let lo := ofs / u * u
      let hi := (ofs + n + u - 1) / u * u
      let r := s.dmaRead client d lo (hi - lo)
      r.2.dmaWrite client d ofs (Sys2Proof.Machine.slice (swapStream d.swap (hi - lo) r.1) (ofs - lo) n)
  t.dmaCount ch n

/-! ### Errors during a transfer (R390) -/

/-- The domain or bank a local address reaches, where a retired, fused-off or disabled one is a bus error (R390, CODE 5). -/
def State.sideDead (s : State) (space a : Nat) : Bool :=
  space == 0 && (match bankOf a with
    | some c => s.isDead (bankDomain c) || (s.flag (Reg.OCM_BANK_DISABLE c) && s.fld (Reg.OCM_BANK_REDIRECT c) == 0xFF)
    | none =>
      if isDram a then s.isDead (if (s.sliceOf ((a - dramBase) / 4096)).1 < 6 then 11 else 12)
      else if inStore a then s.isDead 23
      else inSetup 0 a && s.isDead (blockDomain (a - 0x20000000)))

/-- Errors that the words of a side give, as (byte of the stream, CODE), in ascending order: no unit, an uncorrectable source word, or
one under a partial or alias write. -/
def State.sideFaults (s : State) (d : Desc) (dst : Bool) : List (Nat × Nat) :=
  let space := if dst then d.dstSpace else d.srcSpace
  let a := if dst then d.dst else d.src
  let len := sideLen (if dst then d.dstFix else d.srcFix) d
  if space ≠ 0 then []
  else (List.range ((a + len + 7) / 8 - a / 8)).filterMap fun i =>
    let w := a / 8 * 8 + 8 * i
    let full := decide (a ≤ w) && decide (w + 8 ≤ a + len) && aliasOf a == 0
    if s.sideDead 0 w then some (w - a, 5)
    else if inSetup 0 w || inStore w || (dst && full) then none
    else match s.checkWord (s.storage w) with
      | .uncorrectable _ => some (w - a, if dst then 4 else 3)
      | _ => none

/-- The link of a host side is down: CODE 6 (R390). -/
def State.hostSideDown (s : State) (space : Nat) : Bool :=
  space != 0 && (s.fld (Reg.HGT_LINK_STATUS_RATE (space - 1)) == 0)

/-- Every error of a descriptor, the source's before the destination's. `hostErr` is the byte whose host transfer fails (a completion in
error or poisoned, a controller reset, Bus Master Enable clear). -/
def State.dmaFaults (s : State) (d : Desc) (hostErr : Option Nat) : List (Nat × Nat) :=
  let onHost := d.srcSpace != 0 || d.dstSpace != 0
  s.sideFaults d false ++ s.sideFaults d true ++
    (if s.hostSideDown d.srcSpace || s.hostSideDown d.dstSpace then [(0, 6)]
     else match hostErr with
       | some x => if onHost then [(min x (d.count - 1), 6)] else []
       | none => [])

/-- The error of the first burst that has one, in the order of the copy. -/
def State.firstFault (s : State) (d : Desc) (l : List (Nat × Nat)) : Option (Nat × Nat) :=
  let down := s.descending d
  l.foldl (fun best x => match best with
    | none => some x
    | some y =>
      if (if down then d.burstAt y.1 < d.burstAt x.1 else d.burstAt x.1 < d.burstAt y.1) then some x else some y) none

/-- The words of a failing burst before its failing word at the destination may hold new data (R390, CODE 4 and 5): how many is free. -/
def State.dmaPartial (s : State) (ch : Fin 32) (d : Desc) (p x code : Nat) : State :=
  if code = 4 ∨ (code = 5 ∧ s.sideDead d.dstSpace (d.dst + x)) then
    let k := Config.freeNat s.free % ((x - p + 7) / 8 + 1)
    let b := if k = 0 then 0 else min (x - p) (8 * k - (d.dst + p) % 8)
    let s := s.tookFree
    if b = 0 then s
    else
      let u := swapUnit d.swap
      let lo := p / u * u
      let hi := (p + b + u - 1) / u * u
      let r := s.dmaRead (0x40 + ch) d lo (hi - lo)
      r.2.dmaWrite (0x40 + ch) d p (Sys2Proof.Machine.slice (swapStream d.swap (hi - lo) r.1) (p - lo) b)
  else s

/-- Record an error with the channel's client ID (R300, R307, R390). -/
def State.dmaRecord (s : State) (ch : Fin 32) (d : Desc) (x code : Nat) : State :=
  let srcAt := if d.srcFix then d.src else d.src + x
  let dstAt := if d.dstFix then d.dst else d.dst + x
  let kind (a : Nat) : Nat := match s.checkWord a with | .uncorrectable k => k | _ => if isDram a then 2 else 1
  match code with
  | 3 => s.uncorrectable (0x40 + ch) (s.storage srcAt) (kind (s.storage srcAt)) false
  | 4 => s.uncorrectable (0x40 + ch) (s.storage dstAt) (kind (s.storage dstAt)) true
  | 5 => if s.sideDead d.srcSpace srcAt then s.busError (0x40 + ch) srcAt false else s.busError (0x40 + ch) dstAt true
  | _ => s

/-- Run an unpaced descriptor to its end (R382, R383, R390): every burst, or those before an error in the order of the copy. -/
def State.dmaRun (s : State) (ch : Fin 32) (d : Desc) (hostErr : Option Nat) : State :=
  let j : DmaJob := { desc := d }
  match s.firstFault d (s.dmaFaults d hostErr) with
  | none => (s.dmaMove ch d 0 d.count).dmaEnd ch j false 0 0
  | some (x, code) =>
    let p := d.burstAt x
    let q := p + d.burstFrom p
    let r := s.dmaRecord ch d x code
    if s.descending d then
      (((if q < d.count then r.dmaMove ch d q (d.count - q) else r).dmaPartial ch d p x code).dmaEnd ch j false code q)
    else
      (((if p = 0 then r else r.dmaMove ch d 0 p).dmaPartial ch d p x code).dmaEnd ch j false code (d.count - p))

/-! ### Sleeping sides (R377) -/

/-- Addresses that stand for the domains and banks that a run of local addresses reaches. -/
def probes (a len : Nat) : List Nat :=
  let step := if isDram a then 4096 else if inSetup 0 a then 0x400 else if inStore a then 0x4000000 else 0x100000
  let n := (a + len - 1) / step - a / step + 1
  (List.range (if isDram a then min 24 n else n)).map fun i => max a ((a / step + i) * step)

/-- A side's access waits until every domain and bank that it reaches is awake. -/
def State.sideGate (s : State) (client space a len : Nat) (write : Bool) (i : Instr) (k : State → State) : State :=
  if space ≠ 0 then k s
  else (probes a len).foldr
    (fun p k s =>
      if inSetup 0 p then s.gate (blockDomain (p - 0x20000000)) client p write i k
      else if inStore p then s.gate 23 client p write i fun s => s.storeGate (storeBankOf (p - 0x8000000)) i k
      else s.memGate client p write i k) k s

/-- Both sides of a descriptor. -/
def State.sidesGate (s : State) (ch : Fin 32) (d : Desc) (i : Instr) (k : State → State) : State :=
  s.sideGate (0x40 + ch) d.srcSpace d.src (sideLen d.srcFix d) false i fun s =>
    s.sideGate (0x40 + ch) d.dstSpace d.dst (sideLen d.dstFix d) true i k

/-- Some address that a side reaches has no unit any more: its error ends the descriptor, and nothing waits. -/
def State.sidesDead (s : State) (d : Desc) : Bool :=
  (d.srcSpace == 0 && (probes d.src (sideLen d.srcFix d)).any fun p => s.sideDead 0 p) ||
  (d.dstSpace == 0 && (probes d.dst (sideLen d.dstFix d)).any fun p => s.sideDead 0 p)

/-! ### Commands -/

/-- The channel may fetch: enabled, not halted, no descriptor in progress, HEAD differs from TAIL, and not in Spill
(R378, R388, R389). -/
def State.dmaMayFetch (s : State) (ch : Fin 32) : Bool :=
  s.flag (Reg.DMA_CTRL_ENABLE ch) && s.fld (Reg.DMA_STATUS_STATE ch) != 3 && s.dma[ch].job.isNone &&
  s.fld (Reg.DMA_RING_PTR_HEAD ch) != s.fld (Reg.DMA_RING_PTR_TAIL ch) && s.power.mode != .spill

/-- The descriptor at an address: none where one of its words is uncorrectable. -/
def State.readDesc (s : State) (a : Nat) : Option Desc :=
  if (List.range 4).any fun i => match s.checkWord (s.storage (a + 8 * i)) with | .uncorrectable _ => true | _ => false then none
  else some ⟨s.peek (s.storage a) 8, s.peek (s.storage (a + 8)) 8, s.peek (s.storage (a + 16)) 4, s.peek (s.storage (a + 20)) 4⟩

/-- A fetched descriptor: it ends at a failed check, waits for its line, or runs (R378, R381). -/
def State.dmaStart (s : State) (ch : Fin 32) (hostErr : Option Nat) (d : Desc) : State :=
  let s := s.dmaVote ch true
  let code := s.dmaValidate ch d
  if code ≠ 0 then s.dmaEnd ch { desc := d } false code d.count
  else if d.req then
    (s.onDma ch fun c => { c with job := some { desc := d } }).setFlds
      [(Reg.DMA_STATUS_STATE ch, 2), (Reg.DMA_RESIDUE_BYTES ch, d.count)]
  else if s.sidesDead d then s.dmaRun ch d hostErr
  else s.sidesGate ch d (.dmaDescriptor ch hostErr) fun s => s.dmaRun ch d hostErr

/-- DMA_DESCRIPTOR (R378): fetch, validate, execute and write back. An unreadable descriptor halts the channel with code 9
and HEAD stays. A paced one waits for its request line; its bursts are DMA_BURST's. A sleeping unit, of the ring or of a side, is
woken, and the descriptor waits for it (R377). -/
def execDmaDescriptor (ch : Fin 32) (hostErr : Option Nat) (s : State) : Host.Outcome State Fault Refusal :=
  .next (if !s.dmaMayFetch ch then s
    else
      let slot := s.dmaSlot ch (s.fld (Reg.DMA_RING_PTR_HEAD ch))
      s.gate 22 (0x40 + ch) slot false (.dmaDescriptor ch hostErr) fun s =>
        s.memGate (0x40 + ch) slot false (.dmaDescriptor ch hostErr) fun s =>
          match s.readDesc slot with
          | none =>
            let s := s.uncorrectable (0x40 + ch) (s.storage slot) (if isDram slot then 2 else 1) false
            s.setFlds [(Reg.DMA_STATUS_STATE ch, 3), (Reg.DMA_STATUS_CODE ch, 9), (Reg.DMA_INT_STATUS_ERROR ch, 1)]
          | some d => s.dmaStart ch hostErr d)

/-- The part of a descriptor that a burst moves. -/
def Desc.part (d : Desc) (p n : Nat) : Desc :=
  { d with src := if d.srcFix then d.src else d.src + p, dst := if d.dstFix then d.dst else d.dst + p, count := n }

/-- The error of a burst: one that the state gives, or the one that its command reported. -/
def State.burstFault (s : State) (j : DmaJob) (n : Nat) : Option (Nat × Nat) :=
  match s.sideFaults (j.desc.part j.moved n) false ++ s.sideFaults (j.desc.part j.moved n) true with
  | (x, code) :: _ => some (min x (n - 1) + j.moved, code)
  | [] => if j.err = 0 then none else some (j.moved, j.err)

/-- A burst in flight ends at the turn edge after it started, in full (R382, R385–R387): the bytes move; an error ends the
descriptor with its CODE; the last burst, or an abort, ends it; otherwise it waits for the line again. -/
def State.dmaBurstEnd (s : State) (ch : Fin 32) : State :=
  match s.dma[ch].job with
  | none => s
  | some j =>
    if !j.inFlight then s
    else
      let n := j.desc.burstFrom j.moved
      match s.burstFault j n with
      | some (x, code) =>
        ((s.dmaRecord ch j.desc x code).dmaPartial ch j.desc j.moved x code).dmaEnd ch { j with inFlight := false } false code
          (j.desc.count - j.moved)
      | none =>
        let s := s.dmaMove ch j.desc j.moved n
        let j := { j with inFlight := false, moved := j.moved + n }
        if j.moved = j.desc.count then s.dmaEnd ch j false 0 0
        else if j.abort then s.dmaEnd ch j true 0 (j.desc.count - j.moved)
        else (s.onDma ch fun c => { c with job := some j }).setFlds
          [(Reg.DMA_STATUS_STATE ch, 2), (Reg.DMA_RESIDUE_BYTES ch, j.desc.count - j.moved), (Reg.DMA_STATUS_LINE ch, 0)]

/-- The channel's request line is asserted (Table 11.1): its peripheral's receive FIFO holds a burst, or its transmit FIFO has room for
one; the gauge FIFO holds the bytes that GAU.CFG names (R465). Reserved lines never are. -/
def State.lineAsserted (s : State) (ch : Nat) (n : Nat) : Bool :=
  let port (p : Fin 3) (rx : Bool) : Bool :=
    if rx then decide (n ≤ s.mgmt.mctp[p].rx.length) else decide (s.mgmt.mctp[p].tx.length + n ≤ 1024)
  match s.fld (Reg.DMA_ASSIGN_REQ_LINE ch) with
  | 0 => decide (n ≤ s.mgmt.uartRx.length)
  | 1 => decide (s.mgmt.uartTx.length + n ≤ 32)
  | 2 => port 0 true | 3 => port 0 false | 4 => port 1 true | 5 => port 1 false | 6 => port 2 true | 7 => port 2 false
  | 8 => decide (2 ^ s.fld Reg.GAU_CFG_BURST_LOG2 ≤ 4 * s.mgmt.gaugeFifo.length)
  | _ => false

/-- DMA_BURST (R382): a paced burst starts while its request line is asserted, once what it reaches is awake. `err` is the code of an
error that arises in it and that the state does not show (3 to 6; 0 none) (R390). -/
def execDmaBurst (ch : Fin 32) (err : Nat) (s : State) : Host.Outcome State Fault Refusal :=
  .next (match s.dma[ch].job with
    | none => s
    | some j =>
      if j.inFlight || s.power.mode == .spill || !s.lineAsserted ch j.desc.burst then s
      else
        let go (s : State) : State :=
          (s.onDma ch fun c => { c with job := some { j with inFlight := true, err := if 3 ≤ err && err ≤ 6 then err else 0 } }).setFlds
            [(Reg.DMA_STATUS_STATE ch, 1), (Reg.DMA_STATUS_LINE ch, 1)]
        if s.sidesDead j.desc then go s else s.sidesGate ch j.desc (.dmaBurst ch err) go)

/-- DMA_REQUEST_WITHDRAWN (R385): the line falls after a burst has started; the burst completes and REQ_DROPPED is set. -/
def execDmaRequestWithdrawn (ch : Fin 32) (s : State) : Host.Outcome State Fault Refusal :=
  .next (match s.dma[ch].job with
    | none => s.setFld (Reg.DMA_STATUS_LINE ch) 0
    | some j =>
      (if j.inFlight then s.onDma ch fun c => { c with job := some { j with dropped := true } } else s).setFld (Reg.DMA_STATUS_LINE ch) 0)

end Sys2Proof.Machine
end

