-- ==== Sys2Proof/Machine/Messages.lean ====
section
/-! DEFINITION. The management messages (R460–R462): NVMe-MI commands and tunnelled admin commands, the console, NVMe-MI Send and
Receive, and the TAP (R529). -/

namespace Sys2Proof.Machine

/-- The state that a meaning answers. -/
def answered (o : Out) (s : State) : State := match o with | .next t => t | _ => s

/-! ### NVMe-MI commands (R461) -/

/-- NVMe-MI response statuses, kept apart from NVMe statuses: success, Invalid Command Opcode, Invalid Parameter (PRESUMED: assumption
log 18). -/
def miOk : Nat := 0
def miOpcode : Nat := 2 ^ 16 + 3
def miParameter : Nat := 2 ^ 16 + 4

/-- What an NVMe-MI command answers, and the state after it. -/
structure MiAnswer where
  status : Nat := 0
  dw0 : Nat := 0
  data : Bytes := []
  after : State

/-- Read NVMe-MI Data Structure: the subsystem (NVMe-MI 1.2, 4 ports), the controllers, and structures whose bytes NVMe-MI defines. -/
def State.miStructure (s : State) (dtyp : Nat) : MiAnswer :=
  match dtyp with
  | 0 => { data := pageOver (openBytes 0x200 0 32) [(0, [3, 1, 2])], after := s }
  | 2 => { data := leBytes 2 2 ++ leBytes 2 1 ++ leBytes 2 2, after := s }
  | 1 | 3 | 4 => { data := openBytes 0x200 dtyp 32, after := s }
  | _ => { status := miParameter, after := s }

/-- NVM Subsystem Health Status Poll: the SMART bytes and the composite controller status, which Clear resets. -/
def State.miSubsystemHealth (s : State) (clear : Bool) : MiAnswer :=
  let page := pageOver (openBytes 0x201 0 8)
    [(1, leBytes 1 (255 - s.nv.warning % 256) ++ leBytes 1 (s.compositeK - 273) ++ leBytes 1 s.percentUsed ++ leBytes 2 s.mgmt.healthChange)]
  { data := page, after := if clear then s.onMgmt fun m => { m with healthChange := 0 } else s }

/-- Controller Health Status Poll: identifier, CSTS, temperature, percentage used, spare and warning. -/
def State.miControllerHealth (s : State) (c : Fin 2) : MiAnswer :=
  let csts := (s.ctl c).rdy.toNat + (s.ctl c).shst * 4
  { data := pageOver (openBytes 0x202 c 16)
      [(0, leBytes 2 (c + 1) ++ leBytes 2 csts ++ leBytes 2 s.compositeK ++ leBytes 1 s.percentUsed ++ leBytes 1 s.flash.avail ++
        leBytes 1 s.nv.warning)]
    after := s }

/-- Configuration Get. -/
def State.miConfigGet (s : State) : MiConfig → MiAnswer
  | .smbusFrequency p => { dw0 := s.fld (Reg.MBX_MCTP_CFG_FREQ p) + 1, after := s }
  | .healthStatusChange => { dw0 := s.mgmt.healthChange, after := s }
  | .mctpUnitSize p => { dw0 := s.mgmt.mctpUnit[p], after := s }

/-- Configuration Set: the frequencies and the transmission units of Table 14.1; a Health Status Change value clears its bits. -/
def State.miConfigSet (s : State) (id : MiConfig) (v : Nat) : MiAnswer :=
  match id with
  | .smbusFrequency p =>
    if 1 ≤ v ∧ v ≤ 3 then { after := s.setFld (Reg.MBX_MCTP_CFG_FREQ p) (v - 1) } else { status := miParameter, after := s }
  | .healthStatusChange => { after := s.onMgmt fun m => { m with healthChange := m.healthChange - (m.healthChange &&& v) } }
  | .mctpUnitSize p =>
    if v = 64 ∨ (p = 2 ∧ 64 ≤ v ∧ v ≤ 512) then { after := s.onMgmt fun m => { m with mctpUnit := m.mctpUnit.set p v } }
    else { status := miParameter, after := s }

/-- The vital product data: 1 KiB, as shipped until it is written. -/
def State.vpdBytes (s : State) : Bytes := if s.store.vpd = [] then openBytes 0x203 0 1024 else s.store.vpd

/-- VPD Read and VPD Write (1 KiB, held in the configuration area of the firmware store). -/
def State.miVpdRead (s : State) (ofs len : Nat) : MiAnswer :=
  if 1024 < ofs + len then { status := miParameter, after := s } else { data := Sys2Proof.Machine.slice s.vpdBytes ofs len, after := s }

def State.miVpdWrite (s : State) (ofs : Nat) (data : Bytes) : MiAnswer :=
  if 1024 < ofs + data.length then { status := miParameter, after := s }
  else { after := s.onStore fun t => { t with vpd := splice s.vpdBytes ofs data } }

/-- NVMe-MI Reset: an NVM Subsystem Reset, or as Table 13.1 states in Recovery. -/
def State.miReset (s : State) : MiAnswer := { after := s.subsystemReset }

/-- The paths that carry NVMe-MI messages (Table 14.1). -/
def miPath (path : Nat) : Bool := decide (3 ≤ path) && decide (path ≤ 6)

/-- A request on an NVMe-MI path and its response; a request on a path that takes none does not arrive, and a restarting rider answers
busy (R35, R462). -/
def State.miRequest (s : State) (path : Nat) (k : State → MiAnswer) : State :=
  if !miPath path then s
  else s.admin ⟨path, 0⟩ fun s =>
    let r := k s
    r.after.onMgmt fun m => { m with replies := m.replies ++ [⟨path, r.status, r.dw0, r.data⟩] }

/-- READ_NVME_MI_DATA_STRUCTURE. -/
def execReadNvmeMiDataStructure (path dtyp : Nat) (s : State) : Out := .next (s.miRequest path fun s => s.miStructure dtyp)

/-- NVM_SUBSYSTEM_HEALTH_STATUS_POLL. -/
def execNvmSubsystemHealthStatusPoll (path : Nat) (clear : Bool) (s : State) : Out := .next (s.miRequest path fun s => s.miSubsystemHealth clear)

/-- CONTROLLER_HEALTH_STATUS_POLL. -/
def execControllerHealthStatusPoll (path : Nat) (c : Fin 2) (s : State) : Out := .next (s.miRequest path fun s => s.miControllerHealth c)

/-- CONFIGURATION_GET. -/
def execConfigurationGet (path : Nat) (id : MiConfig) (s : State) : Out := .next (s.miRequest path fun s => s.miConfigGet id)

/-- CONFIGURATION_SET. -/
def execConfigurationSet (path : Nat) (id : MiConfig) (value : Nat) (s : State) : Out := .next (s.miRequest path fun s => s.miConfigSet id value)

/-- VPD_READ. -/
def execVpdRead (path ofs len : Nat) (s : State) : Out := .next (s.miRequest path fun s => s.miVpdRead ofs len)

/-- VPD_WRITE. -/
def execVpdWrite (path ofs : Nat) (data : Bytes) (s : State) : Out := .next (s.miRequest path fun s => s.miVpdWrite ofs data)

/-- NVME_MI_RESET. -/
def execNvmeMiReset (path : Nat) (s : State) : Out := .next (s.miRequest path fun s => s.miReset)

/-! ### NVMe-MI Send and Receive (R62) -/

/-- The commands that NVMe-MI Send carries; Receive carries the others. -/
def miSends : MiCmd → Bool
  | .configSet _ _ | .vpdWrite _ _ | .reset => true
  | _ => false

/-- An NVMe-MI command as any path runs it. -/
def State.miRun (s : State) : MiCmd → MiAnswer
  | .readDataStructure d => s.miStructure d
  | .subsystemHealth c => s.miSubsystemHealth c
  | .controllerHealth c => s.miControllerHealth c
  | .configGet i => s.miConfigGet i
  | .configSet i v => s.miConfigSet i v
  | .vpdRead o n => s.miVpdRead o n
  | .vpdWrite o d => s.miVpdWrite o d
  | .reset => s.miReset

/-- The completion of an NVMe-MI command on an admin queue: its response status in DW0, with the response's own value in the data where
it has no data. -/
def State.miComplete (s : State) (a : Adm) (ok : Bool) (m : MiCmd) : State :=
  if !ok then s.reply a (St.done (miOpcode % 256)) []
  else
    let r := s.miRun m
    r.after.reply a (St.done (r.status % 256)) [if r.data = [] then leBytes 4 r.dw0 else r.data]

/-- NVME_MI_SEND. -/
def execNvmeMiSend (a : Adm) (m : MiCmd) (s : State) : Out := .next (s.riderAdmin a (.nvmeMiSend a m) fun s => s.miComplete a (miSends m) m)

/-- NVME_MI_RECEIVE. -/
def execNvmeMiReceive (a : Adm) (m : MiCmd) (s : State) : Out := .next (s.riderAdmin a (.nvmeMiReceive a m) fun s => s.miComplete a (!miSends m) m)

/-! ### Tunnelled admin commands (R461) -/

/-- Bytes of data that a tunnelled command carries. -/
def adminSent : AdminCmd → Nat
  | .imageDownload _ _ d => d.length
  | .editionStage _ _ b => b.length
  | _ => 0

/-- A tunnelled command runs by the handler that an admin queue's would. -/
def State.tunnelled (s : State) (a : Adm) : AdminCmd → State
  | .excluded => s.reply a St.invalidOpcode []
  | .getLogPage lid lsp => answered (execGetLogPage a lid lsp s) s
  | .identify cns csi nsid => answered (execIdentify a ⟨cns, csi⟩ nsid s) s
  | .setFeatures fid sv w11 w12 d => answered (execSetFeatures a fid sv w11 ⟨w12, d⟩ s) s
  | .getFeatures fid w11 => answered (execGetFeatures a fid w11 s) s
  | .namespaceManagement sel => answered (execNamespaceManagement a sel s) s
  | .namespaceAttachment n c t => answered (execNamespaceAttachment a n c t s) s
  | .imageDownload o n d => answered (execFirmwareImageDownload a o n d s) s
  | .firmwareCommit ca fs =>
    match ca with
    | 0 => answered (execFirmwareCommitReplace a fs s) s
    | 1 => answered (execFirmwareCommitReplaceActivate a fs s) s
    | 2 => answered (execFirmwareCommitActivate a fs s) s
    | 3 => answered (execFirmwareCommitImmediate a fs s) s
    | _ => s.reply a St.invalidField []
  | .deviceSelfTest stc n =>
    match stc with
    | 1 => answered (execDeviceSelfTestShort a n s) s
    | 2 => answered (execDeviceSelfTestExtended a n s) s
    | 0xE => answered (execDeviceSelfTestFull a n s) s
    | 0xF => answered (execDeviceSelfTestAbort a s) s
    | _ => s.reply a St.invalidField []
  | .directiveSend n t o v => answered (execDirectiveSend a n t o v s) s
  | .directiveReceive n t o => answered (execDirectiveReceive a n t o s) s
  | .formatNvm n e l p x f => answered (execFormatNvm a n e l p x f s) s
  | .sanitize act ndas =>
    match act with
    | 2 => answered (execSanitizeBlockErase a ndas s) s
    | 4 => answered (execSanitizeCryptoErase a ndas s) s
    | _ => s.reply a St.invalidField []
  | .editionStage n l b => answered (execEditionStage a n l b s) s
  | .editionCommit n => answered (execEditionCommit a n s) s
  | .editionRevert n => answered (execEditionRevert a n s) s
  | .culvertRebuildStatus => answered (execCulvertRebuildStatus a s) s

/-- NVME_MI_TUNNELLED_ADMIN. -/
def execNvmeMiTunnelledAdmin (path cid : Nat) (c : AdminCmd) (s : State) : Out :=
  .next (if !miPath path then s
    else s.admin ⟨path, cid⟩ fun s => if 65536 < adminSent c then s.reply ⟨path, cid⟩ St.invalidField [] else s.tunnelled ⟨path, cid⟩ c)

/-! ### The console (R462) -/

/-- The console's path. -/
def console : Adm := ⟨7, 0⟩

/-- CONSOLE_STATUS: the mode, the edition and the running release, and text that the spec does not give. -/
def execConsoleStatus (s : State) : Out :=
  .next (s.admin console fun s =>
    let rel := match s.runningImage with | some m => m.release | none => 0
    s.reply console St.ok [leBytes 1 s.power.mode.code ++ leBytes 4 s.mgmt.current.number ++ leBytes 8 rel ++ Config.standardData 0x204 s.power.mode.code])

/-- CONSOLE_LOG: the log ring and the buffer, in record format 1 or 2. -/
def execConsoleLog (format : Nat) (s : State) : Out :=
  .next (s.admin console fun s =>
    if format = 1 ∨ format = 2 then
      s.reply console St.ok [((s.ringLog ++ s.mgmt.log).map fun e => e.bytes (format == 1)).flatten]
    else s.reply console St.invalidField [])

/-- CONSOLE_EDITION: as Edition Stage, Commit and Revert. -/
def execConsoleEdition (op : ConsoleEdition) (s : State) : Out :=
  .next (s.admin console fun s =>
    match op with
    | .stage n l b => s.stageEdition console n l b
    | .commit n => s.commitEdition console n
    | .revert n => s.revertEdition console n)

/-- CONSOLE_SELFTEST: as Device Self-test. -/
def execConsoleSelftest (stc : Nat) (s : State) : Out :=
  .next (s.clusterAdmin console (.consoleSelftest stc) fun s => s.selfTest console stc 0)

/-! ### The TAP (R529) -/

/-- The instructions that a part outside factory test replaces by BYPASS. -/
def extestClass : TapInstr → Bool
  | .bypass | .idcode | .samplePreload => false
  | _ => true

/-- With TESTEN high every non-fused domain is powered while an EXTEST-class instruction is loaded. -/
def State.tapPower (s : State) (on : Bool) : State :=
  (List.finRange 24).foldl (fun s n =>
    if n = 0 || s.isDead n then s
    else if on then (s.onDom n fun d => { d with state := .on }).powerBanks n
    else if (s.dom n).votes.isEmpty then s.domainOff n else s) s

/-- The IDCODE (R529): version 1h, part number 6432h; the manufacturer's 11 bits are KG6432_B0.bsd's, which the spec does not quote. -/
def idCode : Nat := 1 + leNat (Config.standardData 0x1D 0) % 2 ^ 11 * 2 + 0x6432 * 2 ^ 12 + 2 ^ 28

/-- What the test data register that an instruction selects captures: the IDCODE, 0 in the bypass bit, and for the boundary-scan register the
cells' signals, which the state does not determine (R12, R529). -/
def State.tapCapture (s : State) (i : TapInstr) : Nat :=
  match i with
  | .idcode => idCode
  | .samplePreload | .extest | .extestPulse | .extestTrain => Config.freeNat s.free
  | _ => 0

/-- TAP_INSTRUCTION_UPDATE. -/
def execTapInstructionUpdate (i : TapInstr) (s : State) : Out :=
  .next (if s.power.mode == .off then s
    else
      let i := if (extestClass i) && !s.pins.testen then .bypass else i
      let s := if s.pins.testen && (extestClass i) != (extestClass s.pins.tap) then s.tapPower (extestClass i) else s
      let s := s.onPins fun p => { p with tap := i, tapData := s.tapCapture i }
      if i == .samplePreload || i == .extest || i == .extestPulse || i == .extestTrain then s.tookFree else s)

end Sys2Proof.Machine
end

