-- ==== Sys2Proof/Machine/Resume.lean ====
section
/-! DEFINITION. Running again the commands that waited: for a power domain, a memory bank, or the rider (R25, R360, R421). -/

namespace Sys2Proof.Machine

/-- The meaning of a command that can wait; no other command is ever held back. -/
def rerun (i : Instr) (s : State) : Out :=
  match i with
  | .getLogPage a lid lsp => execGetLogPage a lid lsp s
  | .identify a cns nsid => execIdentify a cns nsid s
  | .setFeatures a fid sv cdw11 cdw12 => execSetFeatures a fid sv cdw11 cdw12 s
  | .getFeatures a fid cdw11 => execGetFeatures a fid cdw11 s
  | .keepAwakeFloor a sv cdw11 cdw12 => execKeepAwakeFloor a sv cdw11 cdw12 s
  | .powerManagement a sv ps => execPowerManagement a sv ps s
  | .timestamp a sv ms => execTimestamp a sv ms s
  | .namespaceManagement a sel => execNamespaceManagement a sel s
  | .namespaceAttachment a nsid ctrls attach => execNamespaceAttachment a nsid ctrls attach s
  | .firmwareImageDownload a ofst numd data => execFirmwareImageDownload a ofst numd data s
  | .streamedDownloadChunk a ofst numd data => execStreamedDownloadChunk a ofst numd data s
  | .firmwareCommitReplace a fs => execFirmwareCommitReplace a fs s
  | .firmwareCommitReplaceActivate a fs => execFirmwareCommitReplaceActivate a fs s
  | .firmwareCommitActivate a fs => execFirmwareCommitActivate a fs s
  | .firmwareCommitImmediate a fs => execFirmwareCommitImmediate a fs s
  | .deviceSelfTestShort a nsid => execDeviceSelfTestShort a nsid s
  | .deviceSelfTestExtended a nsid => execDeviceSelfTestExtended a nsid s
  | .deviceSelfTestFull a nsid => execDeviceSelfTestFull a nsid s
  | .deviceSelfTestAbort a => execDeviceSelfTestAbort a s
  | .directiveSend a nsid dtype doper value => execDirectiveSend a nsid dtype doper value s
  | .directiveReceive a nsid dtype doper => execDirectiveReceive a nsid dtype doper s
  | .nvmeMiSend a m => execNvmeMiSend a m s
  | .nvmeMiReceive a m => execNvmeMiReceive a m s
  | .formatNvm a nsid ses lbaf pi extended piFirst => execFormatNvm a nsid ses lbaf pi extended piFirst s
  | .sanitizeCryptoErase a ndas => execSanitizeCryptoErase a ndas s
  | .sanitizeBlockErase a ndas => execSanitizeBlockErase a ndas s
  | .editionStage a number length blob => execEditionStage a number length blob s
  | .editionCommit a number => execEditionCommit a number s
  | .editionRevert a number => execEditionRevert a number s
  | .culvertRebuildStatus a => execCulvertRebuildStatus a s
  | .retrainReq client ch target => execRetrainReq client ch target s
  | .mupTailWrite client tail => execMupTailWrite client tail s
  | .snapshotMark client => execSnapshotMark client s
  | .mirrorMoveStart client chan => execMirrorMoveStart client chan s
  | .mapRepair client line => execMapRepair client line s
  | .allotAddWrite client value => execAllotAddWrite client value s
  | .chanOutWrite client m value => execChanOutWrite client m value s
  | .dieStateWrite client die value => execDieStateWrite client die value s
  | .sealRequest client => execSealRequest client s
  | .recoverRequest client => execRecoverRequest client s
  | .cisternTestStart client => execCisternTestStart client s
  | .voteWrite client dom hold => execVoteWrite client dom hold s
  | .domainRetire client dom => execDomainRetire client dom s
  | .globalStateBroadcast client => execGlobalStateBroadcast client s
  | .globalBarrier client => execGlobalBarrier client s
  | .dataPlaneReset client => execDataPlaneReset client s
  | .trainingWritePattern ch => execTrainingWritePattern ch s
  | .trainingReadCompare ch => execTrainingReadCompare ch s
  | .trainingWriteReadCompare ch => execTrainingWriteReadCompare ch s
  | .zqCalibration ch => execZqCalibration ch s
  | .modeRegisterWrite ch mr data subch rank => execModeRegisterWrite ch mr data subch rank s
  | .modeRegisterRead ch mr subch rank => execModeRegisterRead ch mr subch rank s
  | .zeroFill ch => execZeroFill ch s
  | .bankPowerRequest client code req => execBankPowerRequest client code req s
  | .bankLostClear client code => execBankLostClear client code s
  | .bankOwnerWrite client code owner => execBankOwnerWrite client code owner s
  | .bankRedirectWrite client code spare => execBankRedirectWrite client code spare s
  | .bankDisable client code => execBankDisable client code s
  | .columnRepair client code column => execColumnRepair client code column s
  | .ocmFlipmaskArm client w0 w1 w2 => execOcmFlipmaskArm client w0 w1 w2 s
  | .dmcFlipmaskArm client ch w0 w1 w2 => execDmcFlipmaskArm client ch w0 w1 w2 s
  | .atomicMemoryOperation core op double addr value => execAtomicMemoryOperation core op double addr value s
  | .loadReserved core double addr => execLoadReserved core double addr s
  | .storeConditional core double addr value => execStoreConditional core double addr value s
  | .bitSetAliasWrite client addr value be => execBitSetAliasWrite client addr value be s
  | .bitClearAliasWrite client addr value be => execBitClearAliasWrite client addr value be s
  | .mailboxCollision addr portR portC => execMailboxCollision addr portR portC s
  | .dmaRingTailWrite client ch tail => execDmaRingTailWrite client ch tail s
  | .dmaDescriptor ch hostErr => execDmaDescriptor ch hostErr s
  | .dmaBurst ch err => execDmaBurst ch err s
  | .dmaAbort client ch => execDmaAbort client ch s
  | .dmaResume client ch => execDmaResume client ch s
  | .dmaEnableWrite client ch enable => execDmaEnableWrite client ch enable s
  | .fwsSequenceWrite client reg value => execFwsSequenceWrite client reg value s
  | .programPage client addr data => execProgramPage client addr data s
  | .eraseBlock client addr => execEraseBlock client addr s
  | .eraseSuspend client addr => execEraseSuspend client addr s
  | .eraseResume client addr => execEraseResume client addr s
  | .clearFlag client addr => execClearFlag client addr s
  | .xoDataRead client addr => execXoDataRead client addr s
  | .xoWrite client bank value => execXoWrite client bank value s
  | .dlxNowWrite client value => execDlxNowWrite client value s
  | .pairLoRead client addr => execPairLoRead client addr s
  | .rcFieldRead client addr => execRcFieldRead client addr s
  | .irqEnableWrite client t w value => execIrqEnableWrite client t w value s
  | .registerWrite client addr value width => execRegisterWrite client addr value width s
  | .gaugeFifoPop client => execGaugeFifoPop client s
  | .riderDoorbellSet client bits => execRiderDoorbellSet client bits s
  | .clusterDoorbellSet client cluster bits => execClusterDoorbellSet client cluster bits s
  | .uartDataRead client => execUartDataRead client s
  | .uartDataWrite client byte => execUartDataWrite client byte s
  | .mctpRxPop client p => execMctpRxPop client p s
  | .mctpTxPush client p word => execMctpTxPush client p word s
  | .consoleSelftest stc => execConsoleSelftest stc s
  | .selfTestInServicePass client source => execSelfTestInServicePass client source s
  | .selfTestShortRun client source => execSelfTestShortRun client source s
  | .selfTestExtendedRun client source => execSelfTestExtendedRun client source s
  | .selfTestFullRun client source => execSelfTestFullRun client source s
  | .selfTestShutdownRun client source => execSelfTestShutdownRun client source s
  | .selfTestAbort client => execSelfTestAbort client s
  | _ => .next s

/-- Run waiting commands in the order in which they came. -/
def State.resumeAll (s : State) (l : List Instr) : State := l.foldl (fun s i => nextOf (rerun i s) s) s

/-- A domain that is ON, or that never will be, lets its stalled accesses go on (R25, R497). -/
def State.resumeDom (s : State) (n : Fin 24) : State :=
  let l := (s.dom n).stalled
  if l.isEmpty || !(s.isOn n || s.isDead n) then s else (s.onDom n fun d => { d with stalled := [] }).resumeAll l

/-- A bank answers accesses: it is ON and not sweeping, or DISABLED. A DRAM channel does when no fill runs (R345). -/
def State.bankReady (s : State) (code : Nat) : Bool :=
  if 0x100 ≤ code then !s.flag (Reg.DMC_FILL_GO (code - 0x100)) else
  (s.bankState code == 1 && !s.flag (Reg.OCM_BANK_SWEEP code)) || s.flag (Reg.OCM_BANK_DISABLE code)

/-- The accesses that wait on a bank complete when it answers (R361). -/
def State.resumeBanks (s : State) : State :=
  let go := s.memory.bankStall.filter fun b => s.bankReady b.1
  if go.isEmpty then s
  else (s.onMemory fun m => { m with bankStall := m.bankStall.filter fun b => !s.bankReady b.1 }).resumeAll (go.map (·.2))

/-- The reads that stalled for a program or a blank check go on once it has ended (R407). -/
def State.resumeStore (s : State) : State :=
  let one (s : State) (b : Fin 2) : State :=
    let l := (s.bank b).waiting
    if l.isEmpty || (s.bank b).stalls then s else (s.onBank b fun k => { k with waiting := [] }).resumeAll l
  one (one s 0) 1

/-- The commands that waited for the rider run when it is back (R421). -/
def State.resumeRider (s : State) : State :=
  let l := s.mgmt.waiting
  if l.isEmpty || s.restarting then s else (s.onMgmt fun m => { m with waiting := [] }).resumeAll l

/-! ### The ends of wakes -/

/-- The domain's wake time is over. -/
def State.wakeDue (s : State) (n : Fin 24) : Bool :=
  (s.dom n).state == .waking && decide ((s.dom n).wakeFrom + (s.dom n).wakeLen ≤ s.turn)

/-- A domain reaches ON, or DROPPING where its last vote was withdrawn meanwhile (R436): its banks are swept within the wake time (R361), and its stalled accesses proceed. -/
def State.wakeEnd (s : State) (n : Fin 24) : State :=
  let s := if 13 ≤ n.val && decide (n.val ≤ 20) then s.groupOn (n.val - 13) else s
  (((s.onDom n fun d =>
    { d with state := if domPolicy n == 3 && d.votes.isEmpty && d.stalled.isEmpty && d.wakeFrom < d.dropFrom then .dropping else .on }
    ).powerBanks n).restartIdle n).resumeDom n

/-- DOMAIN_WAKE_COMPLETE (R435); a DRAM half from PS4 has its own row. -/
def execDomainWakeComplete (dom : Fin 24) (s : State) : Out :=
  .next (if s.wakeDue dom && (s.dom dom).wakeLen != 4608 then s.wakeEnd dom else s)

/-- CHANNEL_GROUP_WAKE (R155): the engines have restored and checked their PHYs; one whose check fails retrains. -/
def execChannelGroupWake (g : Fin 8) (failed : List Nat) (s : State) : Out :=
  .next (if s.wakeDue (Fin.ofNat 24 (13 + g)) then
      (failed.filter fun c => c / 8 == g.val && s.fld (Reg.FCE_STATUS_STATE c) == 2 && !(s.chan c).stopped).foldl
        (fun s c => (s.setFld (Reg.FCE_EVENT_WAKE_REINIT_FAIL c) 1).retrain c (s.rung c) false) (s.wakeEnd (Fin.ofNat 24 (13 + g)))
    else s)

/-- DRAM_HALF_PS4_WAKE (R443): verified, the half is ON; otherwise it runs a full search, which the same row ends. -/
def execDramHalfPs4Wake (upper verified : Bool) (s : State) : Out :=
  let n : Fin 24 := if upper then 12 else 11
  .next (if !(s.wakeDue n && (s.dom n).wakeLen == 4608) then s
    else if verified then (s.onMemory fun m => { m with searching := m.searching.erase upper.toNat }).wakeEnd n
    else
      (s.logUncoded .training 0x3FF upper.toNat).onMemory fun m =>
        { m with searching := upper.toNat :: m.searching.erase upper.toNat })

/-- BANK_WAKE_COMPLETE (R361). -/
def execBankWakeComplete (code : Nat) (uncorrectable canaryBad : Bool) (s : State) : Out :=
  .next ((s.bankAwake code uncorrectable canaryBad).resumeBanks)

end Sys2Proof.Machine
end

