-- ==== Sys2Proof/Machine/Turn.lean ====
section
/-! DEFINITION. The turn edge and the span edge (R29–R31, R120): what every turn-stepped unit does in the turn that the edge
closes, and what takes effect at the edge. -/

namespace Sys2Proof.Machine

/-! ### What the edge reports (R31, R43, R312, R502) -/

/-- The units of R308 that exist once and are built as duplicated pairs (R43): sluice, headgate controllers, galley controller, forme
engine, crypto engine. -/
def isPair (u : Nat) : Bool := decide (0x440 ≤ u) && decide (u ≤ 0x445)

/-- The pair of the fabric spine (R43, Table 01.6). The spine works continuously: it has no step to withhold and no index in R308, and is
named by the number after the last one (assumption log 120). -/
def spinePair : Nat := 0x453

/-- Overruns are counted by instance, mismatches among them; consecutive mismatches of a pair are kept, the spine's too (R31, R43). -/
def State.countOverruns (s : State) (e : EdgeEnv) : State :=
  let pairs := e.mismatches.eraseDups.filter isPair
  s.onCollector fun c => { c with
    overruns := (e.overruns ++ pairs).eraseDups.foldl (fun l u => kput u (sat (2 ^ 32 - 1) ((klook u l).getD 0 + 1)) l) c.overruns
    pairRun := (e.mismatches.eraseDups.filter fun u => isPair u || u == spinePair).foldl
      (fun l u => kput u ((klook u c.pairRun).getD 0 + 1) l) [] }

/-- V_HOLD's conversion (R312): 1.2 V over 1,024 codes, scaled by DIV_X256, in 10 mV. A bank at V_SPILL or above again ends the low
input, and the filter with it unless PWR_FAIL_n is low. -/
def State.convertVhold (s : State) (code : Nat) : State :=
  let v := min 1023 code * 120 * s.fld Reg.PMC_CIS_DIV_DIV_X256 / (1024 * 256)
  let s := s.setFld Reg.PMC_CIS_STATUS_VHOLD (min (2 ^ Reg.PMC_CIS_STATUS_VHOLD.width - 1) v)
  if s.pins.vholdLow && decide (0 < v) && decide (s.fld Reg.PMC_CIS_CFG_V_SPILL ≤ v) then
    s.onPins fun p => { p with vholdLow := false, filter := if p.pwrFailLow then p.filter else none }
  else s

/-- An outvoted turn counter is counted, and shifts no edge (R502). -/
def State.countVote (s : State) (e : EdgeEnv) : State := if e.misvote then s.addFld Reg.TRN_VOTE_MISMATCH 1 else s

/-- Words of the duplicated stores that units read in the turn (R301): one that an upset has made uncorrectable in one copy is counted, read
from the other copy and rewritten; one uncorrectable in both is a permanent fault (R43). -/
def State.readPairs (s : State) (e : EdgeEnv) : State :=
  let hit (w : Nat × Nat) (x : Nat × Nat × Nat) : Bool := x.1 == w.1 && x.2.1 == w.2
  e.pairReads.foldl (fun s w =>
    match s.collector.pairWords.find? (hit w) with
    | none => s
    | some x =>
      let s := ((s.addFld Reg.ERC_UE_COUNT 1).setFld Reg.ERC_EVENT_SRAM_UE 1).ercLast 0x3FF 1 false w.1 w.2
      if x.2.2 = 3 then (if s.power.mode == .conserve then s.permanentFault.startExit none else s.permanentFault)
      else s.onCollector fun c => { c with pairWords := c.pairWords.filter fun y => !hit w y }) s

/-- Upsets of the turn make words of the duplicated stores uncorrectable in a copy. -/
def State.upsetPairs (s : State) (e : EdgeEnv) : State :=
  e.pairUpsets.foldl (fun s u =>
    let old := match s.collector.pairWords.find? fun x => x.1 == u.1 && x.2.1 == u.2.1 with | some x => x.2.2 | none => 0
    s.onCollector fun c => { c with
      pairWords := (u.1, u.2.1, setBitNat old (u.2.2 % 2)) :: c.pairWords.filter fun x => !(x.1 == u.1 && x.2.1 == u.2.1) }) s

/-! ### The data plane (R30) -/

/-- Held best-effort commands are tried again (R96). -/
def State.tryHeld (s : State) : State :=
  s.host.cmds.foldl (fun s c =>
    match s.cmd c.ref with
    | some k => if k.phase == .held && k.outcome.isNone then s.commitBest k else s
    | none => s) s

/-- The sluice's step: decisions of the turn, and its additions to the allotment at the edge (R110, R120). -/
def State.sluiceTurn (s : State) (e : EdgeEnv) : State := if withheld e 0x440 then s else s.decideDue.tryHeld

/-- Page bytes that the channel calendars have free in the turn: the windows of channels in plan that hold no booking. -/
def State.freeBus (s : State) : Nat :=
  (List.range 64).foldl (fun n c =>
    if s.chanInPlan c s.turn && !s.sluice.bookings.any fun b => b.res == .chan c && decide (b.start ≤ s.turn) && decide (s.turn < b.start + b.len)
    then n + bTurn (s.rung c) else n) 0

/-- Pages of the write-out written in the turn: 40 GB/s is 2.5 pages of 16 KiB a turn, and no more than the channel calendars have free (R206,
assumption log 17). -/
def State.writeOut (s : State) : State :=
  if s.galley.unwritten.isEmpty then s
  else
    let n := min (2 + s.turn % 2) (s.freeBus / 18004)
    s.onGalley fun g => { g with
      shadow := g.shadow.filter fun p => (g.unwritten.drop n).contains p
      unwritten := g.unwritten.drop n }

/-- The galley controller's step: map updates, the mark, the write-out, the mirror move, a repaired map line (R203–R206, R189, R355). -/
def State.galleyTurn (s : State) (e : EdgeEnv) : State :=
  if withheld e 0x443 then s
  else
    let s := s.portTurn.takeMark.writeOut
    let s := match s.memory.moveFor with
      | some ch =>
        if s.flag Reg.DMC_GLY_MOVE_ACTIVE then s
        else (((s.setFld Reg.DMC_GLY_MOVE_CHAN ch).onMemory fun m => { m with moveFor := none }).onGalley fun g => { g with movePending := true })
      | none => s
    let s := if s.galley.movePending then s.startMove else s.moveStep
    s.takeRepair.wipeTurn.replyCreated

/-- Turns for which an SC1 throttle of a row stands on a channel, 0 where none does (R350). -/
def State.throttleLeft (s : State) (ch : Nat) : Nat :=
  if s.memory.rows.any (fun r => r.ch == ch && r.throttled && r.sc1) then
    (klook ch s.memory.windows).getD 0 + 31250 - s.turn
  else 0

/-- The hold of a pair: the busier channel's backlog in turns, and the shorter throttle where both copies are throttled. -/
def State.pairHold (s : State) (i : Nat) : Nat :=
  let b := s.pairBacklog i
  max (cdiv b.1 (max 1 (s.sc1Kib i))) (cdiv b.2 (max 1 (s.sc1Kib (6 + i)))) + min (s.throttleLeft i) (s.throttleLeft (6 + i))

/-- The pairs that have a free slot. -/
def State.freePairs (s : State) : List Nat :=
  let k := max 1 (s.fld Reg.DMC_LAYOUT_K)
  (List.range k).filter fun i =>
    decide ((s.galley.slots.filter fun x => x.1 % k == i).length < (262144 - i + k - 1) / k)

/-- The published hold, and the pair that gives it (R348). With no free slot nothing new is published. -/
def State.publishHold (s : State) : State :=
  match s.freePairs with
  | [] => s
  | i :: t =>
    let best := t.foldl (fun (a : Nat × Nat) j => let h := s.pairHold j; if h < a.2 then (j, h) else a) (i, s.pairHold i)
    (s.setFld Reg.DMC_GLY_HOLD_HOLD (min 255 best.2)).onGalley fun g => { g with pair := best.1 }

/-- Forme-blocks that closed in the turn have their CLOSE record written (R328). -/
def State.writeCloses (s : State) : State :=
  if s.flash.formeBlocks.any (fun f => !f.isOpen && f.closeSeq.isNone) then
    s.onFlash fun x => { x with formeBlocks := x.formeBlocks.map fun f =>
      if !f.isOpen && f.closeSeq.isNone then { f with closeSeq := some (s.galley.jnlSeq - 1) } else f }
  else s

/-- Decoders whose second failure of a rotation was found in the turn before are removed (R251). -/
def State.removeLeaving (s : State) : State :=
  s.flash.decLeaves.foldl (fun s d => s.removeDecoder d.1 d.2) (s.onFlash fun x => { x with decLeaves := [] })

/-- Background restoration of stamps from the tags of codewords, after Service is entered: one stamp unit a turn (R263, R330; the rate is a
DESIGN CHOICE, assumption log 93). A stamp that a program has written since, and one whose unit is gone, are left. -/
def State.stampStep (s : State) : State :=
  match s.flash.stampsDue with
  | [] => s
  | (lane, b, m, k) :: t =>
    if !s.power.mode.carriesData then s
    else
      let s := s.onFlash fun x => { x with stampsDue := t }
      let a := s.stampAddr lane b m (k % 2 ^ 32)
      match klook k s.flash.units with
      | some x => if natBits (s.peek a 8) 63 1 = 1 then s else s.poke a 8 (s.tagStamp k x)
      | none => s

/-- One step of every turn-stepped unit; after a data-plane reset, and before Boot ends, they are held (R40). -/
def State.dataPlaneTurn (s : State) (e : EdgeEnv) : State :=
  if s.sluice.hold then s
  else
    let s := s.sluice.released.foldl (fun s p => s.endPlan p) s
    let s := (((s.onSluice fun x => { x with released := [] }).sluiceTurn e).stepPlans e).stepWorks
    let s := if withheld e 0x444 then s else s.stepFormes e
    let s := ((s.stepErases e).resumeLate.takeFreed.stampStep).galleyTurn e
    let s := [(0 : Fin 2), 1].foldl (fun s c => if withheld e (0x441 + c.val) then s else s.replyAborts c) (s.postTurn e)
    s.publishHold.writeCloses

/-- The allotment that was added in the turn, and the rider's Dellux advance (R120, R255). -/
def State.takeAdds (s : State) : State :=
  let s := (s.addFld Reg.SLU_ALLOT_BAL_BALANCE s.sluice.allotAdd).onSluice fun x => { x with allotAdd := 0 }
  (s.setFld Reg.LDP_DLX_NOW_ROT (s.fld Reg.LDP_DLX_NOW_ROT + s.flash.dlxAdd)).onFlash fun x => { x with dlxAdd := 0 }

/-- Bookings that have passed, units that are back in plan, and lookups of earlier turns are dropped (R22, R117). -/
def State.dropPast (s : State) : State :=
  let out (o : Nat × Nat × Option Nat) : Bool := match o.2.2 with | some b => decide (s.turn < b) | none => true
  s.onSluice fun x => { x with
    bookings := x.bookings.filter fun b => decide (s.turn < b.start + b.len)
    chansOut := x.chansOut.filter out, diesOut := x.diesOut.filter out
    lookups := x.lookups.filter fun l => decide (s.turn * 16 ≤ l.1) }

/-! ### Domains, modes and the rest of the edge -/

/-- Domains whose retirement was written are powered off for good (R438). -/
def State.retireTurn (s : State) : State :=
  (List.finRange 24).foldl (fun s n =>
    if s.flag (Reg.PMC_DOM_RETIRE n.val) && !s.isDead n then (s.domainOff n).onDom n fun d => { d with state := .retired } else s) s

/-- Idle timers whose condition is false in the turn restart (R437). -/
def State.idleTurn (s : State) : State :=
  (List.finRange 24).foldl (fun s (n : Fin 24) =>
    if domPolicy n = 2 && s.isOn n && !s.idleCond n then s.restartIdle n else s) s

/-- Waiting commands of domains, memory banks, store banks and the rider that can run now. -/
def State.resumeTurn (s : State) : State :=
  let s := (List.finRange 24).foldl (fun s n => s.resumeDom n) s
  let s := s.resumeBanks.resumeStore
  (match s.mgmt.restartUntil with
    | some t => if t ≤ s.turn then s.onMgmt fun m => { m with restartUntil := none } else s
    | none => s).resumeRider

/-- CSTS.RDY follows CC.EN at its turn (R532); NVMe-MI records the change (R461). -/
def State.readyTurn (s : State) : State :=
  let one (s : State) (c : Fin 2) : State :=
    match (s.ctl c).rdyAt with
    | some (t, v) =>
      if s.turn + 1 < t then s
      else
        (s.onCtl c fun x => { x with rdy := v, rdyAt := none }).onMgmt fun m =>
          { m with healthChange := if (s.ctl c).rdy == v then m.healthChange else setBitNat m.healthChange 0 }
    | none => s
  one (one s 0) 1

/-- A channel reads ready from the turn after its fill has ended (R345). -/
def State.fillTurn (s : State) : State :=
  (List.range 12).foldl (fun s c =>
    if s.flag (Reg.DMC_FILL_DONE c) && s.fld (Reg.DMC_STATUS_STATE c) == 2 then s.setFld (Reg.DMC_STATUS_STATE c) 3 else s) s

/-- Cores at their reset vector leave it in the turn after LOST of their TCM is cleared (R362); a core whose TCM is disabled is removed
(R365). -/
def State.coreTurn (s : State) : State :=
  if s.memory.coresHeld.isEmpty then s
  else s.onMemory fun m => { m with
    coresHeld := m.coresHeld.filter fun c => s.flag (Reg.OCM_BANK_LOST (0x40 + c)) || s.flag (Reg.OCM_BANK_DISABLE (0x40 + c)) }

/-- Minutes with an I/O command outstanding (R468). -/
def State.busyTurn (s : State) : State :=
  let m := s.turn * 1024 / 60000000000
  if s.host.cmds.isEmpty || s.mgmt.busyMinute == some m then s
  else (s.onMgmt fun x => { x with busyMinute := some m }).onNv fun n => { n with busyMinutes := n.busyMinutes + 1 }

/-- Critical Warning: a bit newly set asks for a telemetry capture (R470), and any change is reported to NVMe-MI (R461). -/
def State.warnTurn (s : State) : State :=
  let w := s.nv.warning
  if w = s.mgmt.teleSeen then s
  else
    let t := s.onMgmt fun m => { m with teleSeen := w, healthChange := setBitNat m.healthChange 12 }
    if w &&& s.mgmt.teleSeen = w then t else t.captureTele

/-- In the turn after a retirement that took a lane to SPARE_FLOOR, firmware requests Sealed (R240, R218). -/
def State.sealTurn (s : State) : State :=
  if s.nv.formatted && s.power.mode.carriesData && s.flash.sigma.any (fun x => decide (x ≤ (s.param 1 : Nat))) && !s.flag Reg.PMC_MODE_REQ_SEAL then
    let s := s.setFld Reg.PMC_MODE_REQ_SEAL 1
    if s.power.mode == .conserve then s.startExit none else s
  else s

/-- In the turn after a third timeout or a third failed retrain firmware retires the die or the channel that has stopped (R144, R154, R237). -/
def State.retireStopped (s : State) : State :=
  if !s.power.mode.carriesData then s
  else
    let s := s.flash.dies.foldl (fun s d =>
      if (s.die d.1).stopped then (s.onDie d.1 fun x => { x with stopped := false }).retireDie d.1 0x05 else s) s
    s.flash.chans.foldl (fun s c => if (s.chan c.1).stopped then s.retireChannel c.1 0x08 else s) s

/-- The management plane's part of the edge. -/
def State.mgmtTurn (s : State) : State :=
  (s.energyTurn.uartTurn.mctpTurn.editionTurn.activationTurn.shutTurn.busyTurn.warnTurn).takeTele

/-- Firmware DMA: bursts in flight end (R382). -/
def State.dmaTurn (s : State) : State := (List.finRange 32).foldl (fun s c => s.dmaBurstEnd c) s

/-- The power controller's part of the edge. -/
def State.powerTurn (s : State) : State :=
  ((s.retireTurn.modeTurn.postPsDone.psTurn.entryTurn.globalTurn).adminVoteTurn.silentVotes.idleTurn).resumeTurn.sealTurn

/-- The edge that closes the turn (R29). -/
def State.turnEdge (s : State) (e : EdgeEnv) : State :=
  let s := ((((s.removeLeaving.retireStopped.countOverruns e).convertVhold e.vhold).countVote e).upsetPairs e).readPairs e
  let s := ((s.dataPlaneTurn e).bellTurn 0).bellTurn 1
  let s := s.flash.chans.foldl (fun s c => s.bringUp c.1) s.takeAdds.raiseTurn
  let s := e.activations.foldl (fun s a => s.activate a) s
  let s := s.dmaTurn.powerTurn.fillTurn.readyTurn.coreTurn.mgmtTurn.dropPast
  { s with edgeRegs := [], turn := s.turn + 1 }

/-- TURN_EDGE (R29). With the supply off, or while power-on reset is held, no clock runs. -/
def execTurnEdge (e : EdgeEnv) (s : State) : Out := .next (if s.power.mode == .off then s else s.turnEdge e)

/-- The span edge's work has been done for the turn. -/
def State.spanDone (s : State) : Bool := s.turn % 16 != 0 || s.turn == 0 || s.sluice.spanDone == some s.turn

/-- SPAN_EDGE (R120): the edge that opens a turn divisible by 16 adds SLU.ALLOT_CREDIT. -/
def execSpanEdge (s : State) : Out :=
  .next (if s.spanDone || s.power.mode == .off then s
    else (s.addFld Reg.SLU_ALLOT_BAL_BALANCE (s.efld Reg.SLU_ALLOT_CREDIT_CREDIT)).onSluice fun x => { x with spanDone := some s.turn })

end Sys2Proof.Machine
end

