-- ==== Sys2Proof/Machine/Rotation.lean ====
section
/-! DEFINITION. The rotation edge (R33): what the management plane does once in 2^20 turns, and the counts that silicon copies or clears
there. -/

namespace Sys2Proof.Machine

/-! ### The thermal model and Surge (R448–R450) -/

/-- exp(−x) for 0 ≤ x ≤ 1, by 24 terms of its series. -/
def expNeg (x : Rat) : Rat :=
  ((List.range 24).foldl (fun (a : Rat × Rat) k => (a.1 + a.2, -(a.2 * x / ((k + 1 : Nat) : Rat)))) (0, 1)).1

/-- exp(−1 ÷ TAU_ROT); the spec states no value for TAU_ROT 0. -/
def State.rotDecay (s : State) : Rat :=
  let tau := s.fld Reg.PMC_THERM_CFG_TAU_ROT
  if tau = 0 then Config.expZeroTau 1 else expNeg (1 / (tau : Rat))

/-- tj_now: the highest valid junction sample, in °C (R464). -/
def State.tjHighest (s : State) : Option Rat :=
  let l := ((List.range 16).filter fun k => s.flag (gaugeValid k) && !s.flag (gaugeFault k)).map fun k => s.fld (Reg.GAU_SAMPLE_T_TEMP k)
  match l with
  | [] => none
  | v :: t => some (((t.foldl max v : Nat) : Rat) / 4 - 64)

/-- The mean controller power of the rotation, in W: the difference in GAU.ENERGY, in µJ, over 1.073741824 s (R464). -/
def State.meanPower (s : State) : Rat := ((s.energyUj - s.power.energyAtRot : Nat) : Rat) / 1000000 / (1073741824 / 1000000000)

/-- tj_pred(q, 1) from tj_now and the mean power (R450). -/
def State.tjPred (s : State) (tj p q : Rat) : Rat :=
  let theta : Rat := (s.fld Reg.PMC_THERM_CFG_THETA : Rat) / 100
  let amb := tj - theta * p
  amb + theta * q + (tj - amb - theta * q) * s.rotDecay

/-- A temperature as a code of °C + 64. -/
def tempCode (t : Rat) : Nat := min 255 (t + 64).floor.toNat

/-- The ceiling of the power state, or of Surge, in 1/16 W: ps_ceiling of R450. -/
def State.modeCeiling (s : State) : Nat := if s.power.mode == .surge then 0x4E0 else psCeiling s.power.operPs

/-- The thermal ceiling in 1/16 W for a predicted temperature; none below the onset. -/
def State.thermalLimit (s : State) (pred : Rat) : Option Nat :=
  let hot : Rat := s.fld Reg.PMC_THERM_CFG_T_HOT
  if pred < hot then none else some (max 240 (960 - 72 * (pred - hot)).floor.toNat)

/-- One step of the model: its results in PMC.THERM, the ceiling, and THROTTLE for a lowering that it causes. -/
def State.thermTurn (s : State) (tj p : Rat) : State :=
  let pred := s.tjPred tj p ((s.fld Reg.SLU_POWER_CEIL : Rat) / 16)
  let lim := s.thermalLimit pred
  let old := s.fld Reg.SLU_POWER_CEIL
  let s := (s.onPower fun x => { x with tjNow := some tj, thermCeil := lim }).setFlds
    [(Reg.PMC_THERM_TJ_MAX, tempCode tj), (Reg.PMC_THERM_TJ_PRED, tempCode pred), (Reg.PMC_THERM_CEIL_THERM, lim.getD s.modeCeiling)]
  let s := s.applyCeil
  if lim.isSome && decide (s.fld Reg.SLU_POWER_CEIL < old) then
    (s.setFld Reg.PMC_EVENT_THROTTLE 1).log 0x0503 0 0x3FF (lim.getD 0 + tempCode pred * 2 ^ 16)
  else s

/-- Rotations in Service count toward AVAIL while it is 0 (R449). -/
def State.coolTurn (s : State) : State :=
  let whole := s.power.wholeService
  let s := s.onPower fun p => { p with wholeService := p.mode == .service }
  if s.flag Reg.PMC_SURGE_AVAIL then s
  else
    let n := if whole then s.fld Reg.PMC_SURGE_COOL_ROT + 1 else 0
    s.setFlds [(Reg.PMC_SURGE_COOL_ROT, min 559 n), (Reg.PMC_SURGE_AVAIL, if 559 ≤ n then 1 else 0)]

/-- The rotation ended with cause for Surge: refusals for reason 06, or the weir at NARROW or below (R448). -/
def State.surgeCause (s : State) (refused : Nat) : Bool :=
  decide (s.fld Reg.PMC_THERM_CFG_SURGE_MIN * 1024 ≤ refused) || decide (2 ≤ s.flash.weir)

/-- Surge at a rotation edge: its end by time or temperature, or its start (R448, R449). `hot` tells that tj_pred(78 W, 1) or the measured
Tj is 100 °C or more; none where no junction gauge has a valid sample. -/
def State.surgeTurn (s : State) (refused : Nat) (hot : Option (Bool × Bool)) : State :=
  if s.power.mode == .surge then
    let left := s.fld Reg.PMC_SURGE_ROT_LEFT - 1
    if left = 0 || (match hot with | some (a, b) => a || b | none => false) then
      (s.endSurge .service).onPower fun p => { p with wholeService := true }
    else s.setFld Reg.PMC_SURGE_ROT_LEFT left
  else
    let s := s.coolTurn
    if s.power.mode == .service && s.fld Reg.PMC_PS_PS == 0 && s.flag Reg.PMC_SURGE_ENABLE && s.flag Reg.PMC_SURGE_AVAIL && s.surgeCause refused &&
        (match hot with | some (a, _) => !a | none => false) then s.startSurge
    else s

/-- The thermal step, then Surge (R448–R450). -/
def State.heatTurn (s : State) (refused : Nat) : State :=
  let p := s.meanPower
  match s.tjHighest with
  | none => (s.surgeTurn refused none).onPower fun x => { x with energyAtRot := s.energyUj }
  | some tj =>
    let hot := (decide (100 ≤ s.tjPred tj p 78), decide (100 ≤ tj))
    ((s.thermTurn tj p).surgeTurn refused (some hot)).onPower fun x => { x with energyAtRot := s.energyUj }

/-! ### Temperatures (R256, R452, R464) -/

/-- A gauge's code of °C + 64, while it reads. -/
def State.gaugeCode (s : State) (k : Nat) : Option Nat :=
  if s.flag (gaugeValid k) && !s.flag (gaugeFault k) then some (s.fld (Reg.GAU_SAMPLE_T_TEMP k) / 4) else none

/-- The media temperature code of a group: its gauge, or tj_now where none is assigned or it reads FAULT. -/
def State.groupTemp (s : State) (g : Nat) : Option Nat :=
  match (s.groupGauge g).bind s.gaugeCode with
  | some c => some c
  | none => s.power.tjNow.map tempCode

/-- LDP.DLX_TEMP as the rider writes it every rotation (R256). -/
def State.tempTurn (s : State) : State :=
  (List.range 8).foldl (fun s g =>
    match s.groupTemp g with
    | some c =>
      let r := g / 4
      s.setFld (match g % 4 with | 0 => Reg.LDP_DLX_TEMP_G0 r | 1 => Reg.LDP_DLX_TEMP_G1 r | 2 => Reg.LDP_DLX_TEMP_G2 r | _ => Reg.LDP_DLX_TEMP_G3 r) c
    | none => s) s

/-- A temperature is past a threshold of FID 04h: the composite's (sensor 0) or a sensor's, over or under. -/
def State.pastThreshold (s : State) (c : Fin 2) : Bool :=
  let above (i k : Nat) : Bool :=
    decide (0 < k) && (i == 0 || (klook (0x040000 + i) (s.ctl c).features).isSome) && decide (s.tempThreshold c i ≤ k)
  let under (i k : Nat) : Bool := decide (0 < k) && decide (k ≤ s.tempThreshold c (16 + i))
  (List.range 9).any fun i => let k := if i = 0 then s.compositeK else s.sensorK (i - 1); above i k || under i k

/-- Critical Warning bit 1, with its event when it is set (R452). -/
def State.tempWarning (s : State) : State :=
  let now := s.pastThreshold 0 || s.pastThreshold 1
  let had := natBits s.nv.warning 1 1 == 1
  if now == had then s
  else if now then (s.onNv fun n => { n with warning := setBitNat n.warning 1 }).raiseBoth 1 1 2
  else s.onNv fun n => { n with warning := clrBitNat n.warning 1 }

/-! ### Counts that a rotation closes -/

/-- The furrows' maxima are copied, kept for 16 rotations (R161) and start again, and the rotation's counts of timeouts and failed retrains clear (R159, R167, R173). -/
def State.flashTurn (s : State) : State :=
  let s := (List.range 1024).foldl (fun s d =>
    let m := (s.die d).maxima
    let s := if s.word (Reg.FUR_TMEAS_A d) == 0 && s.word (Reg.FUR_TMEAS_B d) == 0 && m.all (· == 0) then s
      else s.setFlds [(Reg.FUR_TMEAS_A_T_R_MAX d, m.getD 0 0), (Reg.FUR_TMEAS_A_T_SUSP_P_MAX d, m.getD 1 0),
        (Reg.FUR_TMEAS_A_T_SUSP_E_MAX d, m.getD 2 0), (Reg.FUR_TMEAS_B_T_PROG_MAX d, m.getD 3 0), (Reg.FUR_TMEAS_B_T_ERS_MAX d, m.getD 4 0)]
    if s.fld (Reg.FUR_TIMEOUT_ROT d) = 0 then s else s.setFld (Reg.FUR_TIMEOUT_ROT d) 0) s
  let s := (List.range 64).foldl (fun s c =>
    if s.fld (Reg.FCE_RETRAIN_FAILED_ROT c) = 0 then s else s.setFld (Reg.FCE_RETRAIN_FAILED_ROT c) 0) s
  s.onFlash fun x => { x with dies := x.dies.map (fun d => (d.1, { d.2 with history := (d.2.maxima :: d.2.history).take 16, maxima := [0, 0, 0, 0, 0], suspLast := d.2.suspRot, suspRot := 0 })), syndromes := [] }

/-- DRAM: the slices' error counts clear (R353), and a scrub pass ends every 2^ROT_LOG2 rotations, by which its
scrubber has corrected the single-bit errors (R351). -/
def State.dramTurn (s : State) : State :=
  (List.range 12).foldl (fun s c =>
    let s := if s.word (Reg.DMC_SLICE_UE c) == 0 then s else s.setWord (Reg.DMC_SLICE_UE c) 0
    if s.flag (Reg.DMC_SCRUB_ENABLE c) && s.isOn (dmcDomain c) && s.rotation % 2 ^ s.fld (Reg.DMC_SCRUB_ROT_LOG2 c) == 0 then
      (s.memory.flips.foldl (fun s f => if s.onChannel c f.1 && s.checkWord f.1 == .corrected then s.correct f.1 else s) s).addFld
        (Reg.DMC_SCRUB_PASSES c) 1
    else s) s

/-- HGT.FETCH_LAT of the rotation that ended (R89); first exhaustions are reported anew (R56). -/
def State.hostTurn (s : State) : State :=
  let one (s : State) (c : Fin 2) : State :=
    let r := s.host.rtt[c]
    (s.setFlds [(Reg.HGT_FETCH_LAT_MAX_NS c, min 0xFFFF r.1), (Reg.HGT_FETCH_LAT_OVER_COUNT c, min 0xFFFF r.2)]).onCtl c fun x =>
      { x with exhausted := false }
  (one (one s 0) 1).onHost fun h => { h with rtt := Vector.replicate 2 (0, 0) }

/-- At a rotation edge firmware reads every REFUSE and CULV, which clears them, and adds the counts to the accounting of LID 0xC2 (R131). -/
def State.refuseTurn (s : State) : State :=
  let n := (List.range 10).map fun k => s.fld (Reg.SLU_REFUSE_COUNT k)
  let s := s.onSluice fun x =>
    { x with
      reasons := List.zipWith (· + ·) x.reasons n
      collisions := x.collisions + s.fld Reg.SLU_CULV_COLLIDE, noSecond := x.noSecond + s.fld Reg.SLU_CULV_NO_SECOND }
  ((List.range 10).foldl (fun s k => s.setFld (Reg.SLU_REFUSE_COUNT k) 0) s).setFlds [(Reg.SLU_CULV_COLLIDE, 0), (Reg.SLU_CULV_NO_SECOND, 0)]

/-- Rebuilt data over the rotation, in 10 MB/s (Table 07.9). -/
def State.rebuildTurn (s : State) : State :=
  let bytes (n : Nat) : Nat := n * s.unitsPerMb * 16384
  s.onFlash fun x => { x with rebuilds := x.rebuilds.map fun r =>
    { r with rate := min 65535 (((bytes (r.done - r.doneAtRot) : Nat) : Rat) / (1073741824 / 1000000000) / 10000000).floor.toNat, doneAtRot := r.done } }

/-- Valid stamps by age bucket (Table 07.11). -/
def State.agesTurn (s : State) : State :=
  let one (a : List Nat) (st : Nat) : List Nat :=
    if natBits st 63 1 = 1 then
      let b := clampInt 0 7 ((ageBucket (s.fld Reg.LDP_DLX_NOW_ROT - natBits st 0 32) : Int) + signed 4 (natBits st 44 4))
      updAt (· + 1) b.toNat a
    else a
  let ages := s.flash.formeBlocks.foldl (fun a f =>
    (List.range 16).foldl (fun a m => (List.range (cdiv f.next 32)).foldl (fun a j => one a (s.peek (s.stampAddr f.lane f.b m (32 * j)) 8)) a) a)
    [0, 0, 0, 0, 0, 0, 0, 0]
  s.onFlash fun x => { x with ages := ages }

/-! ### The log flush (R466, R255) -/

/-- The entries of a flush by record: at most 2,063 in one. -/
def flushRecords (l : List LogEntry) : List (List LogEntry) := (List.range (cdiv l.length 2063)).map fun i => (l.drop (2063 * i)).take 2063

/-- Write entries to the log ring (R466): records of KIND 0x03 over blocks 213–255 of bank 0 and then of bank 1, the block ahead kept erased,
which discards its entries. In Recovery only the half that lies in the other bank is written (R406). -/
def State.writeRing (s : State) (l : List LogEntry) : State :=
  let half (b : Nat) : List Nat := (List.range 43).map (· + (213 + 256 * b))
  let lo := match s.riderBank with | some 0 => 43 | _ => 0
  let blocks := match s.riderBank with | some b => half (1 - b) | none => half 0 ++ half 1
  let from_ := if 512 * lo ≤ s.store.logAt ∧ s.store.logAt ≤ 512 * (lo + blocks.length) then s.store.logAt - 512 * lo else 0
  let recs := flushRecords l
  let r := placeRecords blocks.length from_ (recs.zipIdx.map fun x => recordPages 3 (s.store.logSeq + 1 + x.2) (x.1.map fun e => e.bytes false).flatten)
  let gone := (erasedAhead blocks.length r.2).map (· + lo)
  s.onStore fun t =>
    { t.putRecords blocks r.2 with
      logAt := r.1 + 512 * lo, logSeq := t.logSeq + recs.length
      ring := (t.ring.filter fun x => !gone.contains x.1) ++ List.zipWith (fun x e => (x.1 / 512 + lo, e)) r.2 recs }

/-- The buffer goes to the log ring, a count of dropped entries first; the Dellux clock and the timestamp are saved with it. -/
def State.flushLog (s : State) : State :=
  let s := if s.mgmt.log.isEmpty && s.mgmt.logDropped == 0 then s else s.touch 23 0x60
  let lost : List LogEntry :=
    if s.mgmt.logDropped = 0 then []
    else [⟨s.turn, s.timeMs, 0x0C01, Config.severity 0x0C01, 0, 0x3FF, min (2 ^ 32 - 1) s.mgmt.logDropped⟩]
  let new := lost ++ s.mgmt.log
  let s := s.writeRing new
  (s.onMgmt fun m => { m with log := [], logDropped := 0 }).onNv fun n =>
    { n with dlxSaved := s.fld Reg.LDP_DLX_NOW_ROT, timeSaved := s.timeMs }

/-! ### The rotation edge -/

/-- Silicon's counts at the edge. -/
def State.siliconTurn (s : State) : State :=
  let s := if s.nv.formatted then s.setFld Reg.LDP_DLX_NOW_ROT (s.fld Reg.LDP_DLX_NOW_ROT + 1) else s
  (s.flashTurn.dramTurn.hostTurn).onCollector fun c => { c with parity := [] }

/-- Once 16 rotations have been measured, firmware lowers a die's learned field to their worst measurement and the guard of R160 (R161); a
quantity without a measurement in them keeps its value. -/
def State.learnTurn (s : State) : State :=
  s.flash.dies.foldl (fun s d =>
    if d.2.history.length < 16 then s
    else (List.range 5).foldl (fun s k =>
      let w := d.2.history.foldl (fun m l => max m (l.getD k 0)) 0
      let f := learnedFld d.1 k
      if w = 0 || s.fld f ≤ guarded f w then s else (s.holdWord f.addr).setFld f (guarded f w)) s) s

/-- Failing dies from which every forme-block has been evacuated are retired (R237). -/
def State.evacuatedTurn (s : State) : State :=
  (List.range 1024).foldl (fun s d =>
    if s.fld (Reg.SLU_DIE_STATE_STATE d) == 1 && !(s.flash.formeBlocks.any fun f => f.has fun m => m.die == d) then s.retireDie d (s.dieTrigger d) else s) s

/-- Where a stamp stands: the forme-block, the member and the stamp unit (R257). -/
def State.stampPlaces (s : State) : List (FormeBlock × Nat × Nat) :=
  s.flash.formeBlocks.flatMap fun f => (List.range 16).flatMap fun m => (List.range (cdiv f.next 32)).map fun j => (f, m, j)

/-- Every 1,024 rotations the stamps are copied to system blocks (R263). -/
def State.stampTurn (s : State) : State :=
  if s.rotation % 1024 != 0 then s
  else
    let l := s.stampPlaces.map fun p => let a := s.stampAddr p.1.lane p.1.b p.2.1 (32 * p.2.2); (a, s.peek a 8)
    s.onNv fun n => { n with stamps := l.filter fun x => natBits x.2 63 1 == 1 }

/-- Compositor firmware's part, where it runs: the allotment, the spare, the culvert's rates, the learned times, the cache's hits. -/
def State.firmwareTurn (s : State) : State :=
  if !s.power.mode.carriesData then s
  else (s.learnTurn.evacuatedTurn.stampTurn.ledgerTurn.wearTurn.recomputeSpare.rebuildTurn.agesTurn).onGalley fun g => { g with hits := [] }

/-- The rider's part. -/
def State.riderTurn (s : State) : State :=
  let refused := s.fld (Reg.SLU_REFUSE_COUNT 5)
  let s := ((s.heatTurn refused).refuseTurn.tempTurn.tempWarning).bookEdition
  let s := s.warnings.foldl State.warn s
  (s.onMgmt fun m => { m with rotSlices := 0, smart := s.smartCounts }).flushLog

/-- ROTATION_EDGE (R33): the edge that opens a turn whose low 20 bits are 0. -/
def execRotationEdge (s : State) : Out :=
  .next (if s.turn % 2 ^ 20 != 0 || s.turn == 0 || s.sluice.rotDone == some s.turn || s.power.mode == .off then s
    else (s.siliconTurn.firmwareTurn.riderTurn).onSluice fun x => { x with rotDone := some s.turn })

end Sys2Proof.Machine
end

