-- ==== Sys2Proof/Machine/Dispatch.lean ====
section
/-! DEFINITION. One arm for each command of the opcode table: its meaning. -/

namespace Sys2Proof.Machine

def exec (i : Instr) (s : State) : Host.Outcome State Fault Refusal :=
  match i with
  | .powerOnReset b => Sys2Proof.Machine.execPowerOnReset b s
  | .porNFall => Sys2Proof.Machine.execPorNFall s
  | .railMonitorTrip rail => Sys2Proof.Machine.execRailMonitorTrip rail s
  | .bootEnd => Sys2Proof.Machine.execBootEnd s
  | .turnEdge e => Sys2Proof.Machine.execTurnEdge e s
  | .permanentFault unit => Sys2Proof.Machine.execPermanentFault unit s
  | .spanEdge => Sys2Proof.Machine.execSpanEdge s
  | .rotationEdge => Sys2Proof.Machine.execRotationEdge s
  | .sqTailDoorbell c qid value => Sys2Proof.Machine.execSqTailDoorbell c qid value s
  | .cqHeadDoorbell c qid value => Sys2Proof.Machine.execCqHeadDoorbell c qid value s
  | .entryFetch c sqid entries rttNs => Sys2Proof.Machine.execEntryFetch c sqid entries rttNs s
  | .fetchResumeOnContext c => Sys2Proof.Machine.execFetchResumeOnContext c s
  | .admissionDecision => Sys2Proof.Machine.execAdmissionDecision s
  | .bestEffortCommit r => Sys2Proof.Machine.execBestEffortCommit r s
  | .flush r => Sys2Proof.Machine.execFlush r s
  | .write r => Sys2Proof.Machine.execWrite r s
  | .read r => Sys2Proof.Machine.execRead r s
  | .compare r => Sys2Proof.Machine.execCompare r s
  | .writeZeroes r => Sys2Proof.Machine.execWriteZeroes r s
  | .datasetManagement r => Sys2Proof.Machine.execDatasetManagement r s
  | .verify r => Sys2Proof.Machine.execVerify r s
  | .copy r => Sys2Proof.Machine.execCopy r s
  | .zoneManagementSend r => Sys2Proof.Machine.execZoneManagementSend r s
  | .zoneManagementReceive r => Sys2Proof.Machine.execZoneManagementReceive r s
  | .zoneAppend r => Sys2Proof.Machine.execZoneAppend r s
  | .createIoSq a qid qsize cqid pc => Sys2Proof.Machine.execCreateIoSq a qid qsize cqid pc s
  | .createIoCq a qid qsize vector pc ien => Sys2Proof.Machine.execCreateIoCq a qid qsize vector pc ien s
  | .deleteIoSq a qid => Sys2Proof.Machine.execDeleteIoSq a qid s
  | .deleteIoCq a qid => Sys2Proof.Machine.execDeleteIoCq a qid s
  | .getLogPage a lid lsp => Sys2Proof.Machine.execGetLogPage a lid lsp s
  | .identify a cns nsid => Sys2Proof.Machine.execIdentify a cns nsid s
  | .abort a sqid cid => Sys2Proof.Machine.execAbort a sqid cid s
  | .setFeatures a fid sv cdw11 cdw12 => Sys2Proof.Machine.execSetFeatures a fid sv cdw11 cdw12 s
  | .getFeatures a fid cdw11 => Sys2Proof.Machine.execGetFeatures a fid cdw11 s
  | .setTwiotLevel a sv cdw11 => Sys2Proof.Machine.execSetTwiotLevel a sv cdw11 s
  | .classBinding a sv cdw11 => Sys2Proof.Machine.execClassBinding a sv cdw11 s
  | .orderingMode a sv cdw11 => Sys2Proof.Machine.execOrderingMode a sv cdw11 s
  | .keepAwakeFloor a sv cdw11 cdw12 => Sys2Proof.Machine.execKeepAwakeFloor a sv cdw11 cdw12 s
  | .powerManagement a sv ps => Sys2Proof.Machine.execPowerManagement a sv ps s
  | .timestamp a sv ms => Sys2Proof.Machine.execTimestamp a sv ms s
  | .asynchronousEventRequest a => Sys2Proof.Machine.execAsynchronousEventRequest a s
  | .namespaceManagement a sel => Sys2Proof.Machine.execNamespaceManagement a sel s
  | .namespaceAttachment a nsid ctrls attach => Sys2Proof.Machine.execNamespaceAttachment a nsid ctrls attach s
  | .firmwareImageDownload a ofst numd data => Sys2Proof.Machine.execFirmwareImageDownload a ofst numd data s
  | .streamedDownloadChunk a ofst numd data => Sys2Proof.Machine.execStreamedDownloadChunk a ofst numd data s
  | .firmwareCommitReplace a fs => Sys2Proof.Machine.execFirmwareCommitReplace a fs s
  | .firmwareCommitReplaceActivate a fs => Sys2Proof.Machine.execFirmwareCommitReplaceActivate a fs s
  | .firmwareCommitActivate a fs => Sys2Proof.Machine.execFirmwareCommitActivate a fs s
  | .firmwareCommitImmediate a fs => Sys2Proof.Machine.execFirmwareCommitImmediate a fs s
  | .clusterReload selfCheckOk => Sys2Proof.Machine.execClusterReload selfCheckOk s
  | .deviceSelfTestShort a nsid => Sys2Proof.Machine.execDeviceSelfTestShort a nsid s
  | .deviceSelfTestExtended a nsid => Sys2Proof.Machine.execDeviceSelfTestExtended a nsid s
  | .deviceSelfTestFull a nsid => Sys2Proof.Machine.execDeviceSelfTestFull a nsid s
  | .deviceSelfTestAbort a => Sys2Proof.Machine.execDeviceSelfTestAbort a s
  | .directiveSend a nsid dtype doper value => Sys2Proof.Machine.execDirectiveSend a nsid dtype doper value s
  | .directiveReceive a nsid dtype doper => Sys2Proof.Machine.execDirectiveReceive a nsid dtype doper s
  | .nvmeMiSend a m => Sys2Proof.Machine.execNvmeMiSend a m s
  | .nvmeMiReceive a m => Sys2Proof.Machine.execNvmeMiReceive a m s
  | .formatNvm a nsid ses lbaf pi extended piFirst => Sys2Proof.Machine.execFormatNvm a nsid ses lbaf pi extended piFirst s
  | .sanitizeCryptoErase a ndas => Sys2Proof.Machine.execSanitizeCryptoErase a ndas s
  | .sanitizeBlockErase a ndas => Sys2Proof.Machine.execSanitizeBlockErase a ndas s
  | .editionStage a number length blob => Sys2Proof.Machine.execEditionStage a number length blob s
  | .editionCommit a number => Sys2Proof.Machine.execEditionCommit a number s
  | .editionRevert a number => Sys2Proof.Machine.execEditionRevert a number s
  | .editionSwitch => Sys2Proof.Machine.execEditionSwitch s
  | .queueRestart a sqid freezeSeq => Sys2Proof.Machine.execQueueRestart a sqid freezeSeq s
  | .culvertRebuildStatus a => Sys2Proof.Machine.execCulvertRebuildStatus a s
  | .invalidAdminOpcode a opcode => Sys2Proof.Machine.execInvalidAdminOpcode a opcode s
  | .controllerEnable c aqa asq acq => Sys2Proof.Machine.execControllerEnable c aqa asq acq s
  | .controllerReset c => Sys2Proof.Machine.execControllerReset c s
  | .nvmSubsystemReset c value => Sys2Proof.Machine.execNvmSubsystemReset c value s
  | .shutdownNotification c testResults => Sys2Proof.Machine.execShutdownNotification c testResults s
  | .abruptShutdown c => Sys2Proof.Machine.execAbruptShutdown c s
  | .fundamentalReset port => Sys2Proof.Machine.execFundamentalReset port s
  | .perstDeassert port => Sys2Proof.Machine.execPerstDeassert port s
  | .hotReset c => Sys2Proof.Machine.execHotReset c s
  | .functionLevelReset c => Sys2Proof.Machine.execFunctionLevelReset c s
  | .linkTrained c rate width flit => Sys2Proof.Machine.execLinkTrained c rate width flit s
  | .l0pEnable c on => Sys2Proof.Machine.execL0pEnable c on s
  | .l1Entry c l12 => Sys2Proof.Machine.execL1Entry c l12 s
  | .l1Exit c => Sys2Proof.Machine.execL1Exit c s
  | .ecrcFailure c => Sys2Proof.Machine.execEcrcFailure c s
  | .poisonedTlp r => Sys2Proof.Machine.execPoisonedTlp r s
  | .hostPortFailure port => Sys2Proof.Machine.execHostPortFailure port s
  | .bar2Write c addr value => Sys2Proof.Machine.execBar2Write c addr value s
  | .bar2ReadTimeout c addr => Sys2Proof.Machine.execBar2ReadTimeout c addr s
  | .dieReady die fail sr => Sys2Proof.Machine.execDieReady die fail sr s
  | .statusTimeout die => Sys2Proof.Machine.execStatusTimeout die s
  | .lunResetComplete die => Sys2Proof.Machine.execLunResetComplete die s
  | .retrainStart ch => Sys2Proof.Machine.execRetrainStart ch s
  | .retrainTrainingEnd ch pass => Sys2Proof.Machine.execRetrainTrainingEnd ch pass s
  | .retrainRetry ch => Sys2Proof.Machine.execRetrainRetry ch s
  | .channelUpResume ch => Sys2Proof.Machine.execChannelUpResume ch s
  | .retrainReq client ch target => Sys2Proof.Machine.execRetrainReq client ch target s
  | .channelGroupWake g failed => Sys2Proof.Machine.execChannelGroupWake g failed s
  | .decodeComplete job res => Sys2Proof.Machine.execDecodeComplete job res s
  | .readDisturbProbe die block cw => Sys2Proof.Machine.execReadDisturbProbe die block cw s
  | .patrolCycle die block page res => Sys2Proof.Machine.execPatrolCycle die block page res s
  | .hostPlace q => Sys2Proof.Machine.execHostPlace q s
  | .condSet q => Sys2Proof.Machine.execCondSet q s
  | .mapSet q => Sys2Proof.Machine.execMapSet q s
  | .ovlSet q => Sys2Proof.Machine.execOvlSet q s
  | .ovlFree q => Sys2Proof.Machine.execOvlFree q s
  | .zoneUpdate q => Sys2Proof.Machine.execZoneUpdate q s
  | .fbtSet q => Sys2Proof.Machine.execFbtSet q s
  | .tableSet q => Sys2Proof.Machine.execTableSet q s
  | .journalSlotProgrammed slot => Sys2Proof.Machine.execJournalSlotProgrammed slot s
  | .mupTailWrite client tail => Sys2Proof.Machine.execMupTailWrite client tail s
  | .snapshotMark client => Sys2Proof.Machine.execSnapshotMark client s
  | .snapshotComplete => Sys2Proof.Machine.execSnapshotComplete s
  | .mirrorMoveStart client chan => Sys2Proof.Machine.execMirrorMoveStart client chan s
  | .mirrorMoveComplete => Sys2Proof.Machine.execMirrorMoveComplete s
  | .mapRepair client line => Sys2Proof.Machine.execMapRepair client line s
  | .dredgeCopy lane fb unit => Sys2Proof.Machine.execDredgeCopy lane fb unit s
  | .victimErase lane fb => Sys2Proof.Machine.execVictimErase lane fb s
  | .formeBlockOpen lane forDredge => Sys2Proof.Machine.execFormeBlockOpen lane forDredge s
  | .formeProgramPlan lane fb => Sys2Proof.Machine.execFormeProgramPlan lane fb s
  | .weirEvaluation => Sys2Proof.Machine.execWeirEvaluation s
  | .sustainableRateCompute => Sys2Proof.Machine.execSustainableRateCompute s
  | .allotmentTopup => Sys2Proof.Machine.execAllotmentTopup s
  | .allotAddWrite client value => Sys2Proof.Machine.execAllotAddWrite client value s
  | .chanOutWrite client m value => Sys2Proof.Machine.execChanOutWrite client m value s
  | .dieStateWrite client die value => Sys2Proof.Machine.execDieStateWrite client die value s
  | .rebuildStart => Sys2Proof.Machine.execRebuildStart s
  | .rebuildMemberComplete lane fb member => Sys2Proof.Machine.execRebuildMemberComplete lane fb member s
  | .spareRecompute => Sys2Proof.Machine.execSpareRecompute s
  | .sealRequest client => Sys2Proof.Machine.execSealRequest client s
  | .recoverRequest client => Sys2Proof.Machine.execRecoverRequest client s
  | .earlyWarningEvent => Sys2Proof.Machine.execEarlyWarningEvent s
  | .pwrFailAssert => Sys2Proof.Machine.execPwrFailAssert s
  | .vHoldLow => Sys2Proof.Machine.execVHoldLow s
  | .powerFailure => Sys2Proof.Machine.execPowerFailure s
  | .spillEdge => Sys2Proof.Machine.execSpillEdge s
  | .spillComplete sealed => Sys2Proof.Machine.execSpillComplete sealed s
  | .supplyReturn b => Sys2Proof.Machine.execSupplyReturn b s
  | .spillwayRelease => Sys2Proof.Machine.execSpillwayRelease s
  | .cisternTestStart client => Sys2Proof.Machine.execCisternTestStart client s
  | .cisternTestEnd => Sys2Proof.Machine.execCisternTestEnd s
  | .cisternTestTimeout => Sys2Proof.Machine.execCisternTestTimeout s
  | .slotCapCompute => Sys2Proof.Machine.execSlotCapCompute s
  | .thermtrip => Sys2Proof.Machine.execThermtrip s
  | .voteWrite client dom hold => Sys2Proof.Machine.execVoteWrite client dom hold s
  | .domainDrop dom => Sys2Proof.Machine.execDomainDrop dom s
  | .idleTimerExpiry dom => Sys2Proof.Machine.execIdleTimerExpiry dom s
  | .domainWakeOnAccess dom client => Sys2Proof.Machine.execDomainWakeOnAccess dom client s
  | .domainWakeComplete dom => Sys2Proof.Machine.execDomainWakeComplete dom s
  | .domainRetire client dom => Sys2Proof.Machine.execDomainRetire client dom s
  | .conserveEntryEnd => Sys2Proof.Machine.execConserveEntryEnd s
  | .apstTransition ps => Sys2Proof.Machine.execApstTransition ps s
  | .conserveExitComplete => Sys2Proof.Machine.execConserveExitComplete s
  | .ps3Ps4ChangeApplied => Sys2Proof.Machine.execPs3Ps4ChangeApplied s
  | .dramHalfPs4Wake upper verified => Sys2Proof.Machine.execDramHalfPs4Wake upper verified s
  | .globalStateBroadcast client => Sys2Proof.Machine.execGlobalStateBroadcast client s
  | .globalBarrier client => Sys2Proof.Machine.execGlobalBarrier client s
  | .barrierComplete => Sys2Proof.Machine.execBarrierComplete s
  | .dataPlaneReset client => Sys2Proof.Machine.execDataPlaneReset client s
  | .fabricParityError unit link => Sys2Proof.Machine.execFabricParityError unit link s
  | .retiredDomainAccess dom client addr write => Sys2Proof.Machine.execRetiredDomainAccess dom client addr write s
  | .trainingWritePattern ch => Sys2Proof.Machine.execTrainingWritePattern ch s
  | .trainingReadCompare ch => Sys2Proof.Machine.execTrainingReadCompare ch s
  | .trainingWriteReadCompare ch => Sys2Proof.Machine.execTrainingWriteReadCompare ch s
  | .zqCalibration ch => Sys2Proof.Machine.execZqCalibration ch s
  | .trainingDone ch errors lanes => Sys2Proof.Machine.execTrainingDone ch errors lanes s
  | .modeRegisterWrite ch mr data subch rank => Sys2Proof.Machine.execModeRegisterWrite ch mr data subch rank s
  | .modeRegisterRead ch mr subch rank => Sys2Proof.Machine.execModeRegisterRead ch mr subch rank s
  | .zeroFill ch => Sys2Proof.Machine.execZeroFill ch s
  | .fillDone ch => Sys2Proof.Machine.execFillDone ch s
  | .dramUncorrectable block client => Sys2Proof.Machine.execDramUncorrectable block client s
  | .remapCopyComplete block => Sys2Proof.Machine.execRemapCopyComplete block s
  | .hammerWindowExpiry ch => Sys2Proof.Machine.execHammerWindowExpiry ch s
  | .dramRefresh ch hot => Sys2Proof.Machine.execDramRefresh ch hot s
  | .scrubUncorrectable ch block => Sys2Proof.Machine.execScrubUncorrectable ch block s
  | .sramUncorrectable code addr client acc => Sys2Proof.Machine.execSramUncorrectable code addr client acc s
  | .bankPowerRequest client code req => Sys2Proof.Machine.execBankPowerRequest client code req s
  | .bankIdleEntry code => Sys2Proof.Machine.execBankIdleEntry code s
  | .bankWake code => Sys2Proof.Machine.execBankWake code s
  | .bankWakeComplete code uncorrectable canaryBad => Sys2Proof.Machine.execBankWakeComplete code uncorrectable canaryBad s
  | .bankLostClear client code => Sys2Proof.Machine.execBankLostClear client code s
  | .bankOwnerWrite client code owner => Sys2Proof.Machine.execBankOwnerWrite client code owner s
  | .bankRedirectWrite client code spare => Sys2Proof.Machine.execBankRedirectWrite client code spare s
  | .bankDisable client code => Sys2Proof.Machine.execBankDisable client code s
  | .columnRepair client code column => Sys2Proof.Machine.execColumnRepair client code column s
  | .columnRepairDone fuseOk => Sys2Proof.Machine.execColumnRepairDone fuseOk s
  | .ocmFlipmaskArm client w0 w1 w2 => Sys2Proof.Machine.execOcmFlipmaskArm client w0 w1 w2 s
  | .dmcFlipmaskArm client ch w0 w1 w2 => Sys2Proof.Machine.execDmcFlipmaskArm client ch w0 w1 w2 s
  | .flipMaskTaken dmc client addr => Sys2Proof.Machine.execFlipMaskTaken dmc client addr s
  | .atomicMemoryOperation core op double addr value => Sys2Proof.Machine.execAtomicMemoryOperation core op double addr value s
  | .loadReserved core double addr => Sys2Proof.Machine.execLoadReserved core double addr s
  | .storeConditional core double addr value => Sys2Proof.Machine.execStoreConditional core double addr value s
  | .bitSetAliasWrite client addr value be => Sys2Proof.Machine.execBitSetAliasWrite client addr value be s
  | .bitClearAliasWrite client addr value be => Sys2Proof.Machine.execBitClearAliasWrite client addr value be s
  | .mailboxCollision addr portR portC => Sys2Proof.Machine.execMailboxCollision addr portR portC s
  | .dmaRingTailWrite client ch tail => Sys2Proof.Machine.execDmaRingTailWrite client ch tail s
  | .dmaDescriptor ch hostErr => Sys2Proof.Machine.execDmaDescriptor ch hostErr s
  | .dmaBurst ch err => Sys2Proof.Machine.execDmaBurst ch err s
  | .dmaRequestWithdrawn ch => Sys2Proof.Machine.execDmaRequestWithdrawn ch s
  | .dmaAbort client ch => Sys2Proof.Machine.execDmaAbort client ch s
  | .dmaResume client ch => Sys2Proof.Machine.execDmaResume client ch s
  | .dmaEnableWrite client ch enable => Sys2Proof.Machine.execDmaEnableWrite client ch enable s
  | .fwsSequenceWrite client reg value => Sys2Proof.Machine.execFwsSequenceWrite client reg value s
  | .fwsSequenceTimeout => Sys2Proof.Machine.execFwsSequenceTimeout s
  | .programPage client addr data => Sys2Proof.Machine.execProgramPage client addr data s
  | .eraseBlock client addr => Sys2Proof.Machine.execEraseBlock client addr s
  | .eraseSuspend client addr => Sys2Proof.Machine.execEraseSuspend client addr s
  | .eraseResume client addr => Sys2Proof.Machine.execEraseResume client addr s
  | .clearFlag client addr => Sys2Proof.Machine.execClearFlag client addr s
  | .fwsOperationEnd bank pass pulses => Sys2Proof.Machine.execFwsOperationEnd bank pass pulses s
  | .fwsEraseAutoSuspend bank client fetch => Sys2Proof.Machine.execFwsEraseAutoSuspend bank client fetch s
  | .fwsEraseAutoResume bank => Sys2Proof.Machine.execFwsEraseAutoResume bank s
  | .xoDataRead client addr => Sys2Proof.Machine.execXoDataRead client addr s
  | .xoWrite client bank value => Sys2Proof.Machine.execXoWrite client bank value s
  | .readWindowWrite client addr value => Sys2Proof.Machine.execReadWindowWrite client addr value s
  | .dlxNowWrite client value => Sys2Proof.Machine.execDlxNowWrite client value s
  | .pairLoRead client addr => Sys2Proof.Machine.execPairLoRead client addr s
  | .rcFieldRead client addr => Sys2Proof.Machine.execRcFieldRead client addr s
  | .irqEnableWrite client t w value => Sys2Proof.Machine.execIrqEnableWrite client t w value s
  | .registerWrite client addr value width => Sys2Proof.Machine.execRegisterWrite client addr value width s
  | .riderLockstepMismatch => Sys2Proof.Machine.execRiderLockstepMismatch s
  | .clusterWatchdogReset cluster => Sys2Proof.Machine.execClusterWatchdogReset cluster s
  | .gaugeSample k v => Sys2Proof.Machine.execGaugeSample k v s
  | .gaugeFifoPop client => Sys2Proof.Machine.execGaugeFifoPop client s
  | .riderDoorbellSet client bits => Sys2Proof.Machine.execRiderDoorbellSet client bits s
  | .clusterDoorbellSet client cluster bits => Sys2Proof.Machine.execClusterDoorbellSet client cluster bits s
  | .uartDataRead client => Sys2Proof.Machine.execUartDataRead client s
  | .uartDataWrite client byte => Sys2Proof.Machine.execUartDataWrite client byte s
  | .mctpRxPop client p => Sys2Proof.Machine.execMctpRxPop client p s
  | .mctpTxPush client p word => Sys2Proof.Machine.execMctpTxPush client p word s
  | .readNvmeMiDataStructure path dtyp => Sys2Proof.Machine.execReadNvmeMiDataStructure path dtyp s
  | .nvmSubsystemHealthStatusPoll path clear => Sys2Proof.Machine.execNvmSubsystemHealthStatusPoll path clear s
  | .controllerHealthStatusPoll path c => Sys2Proof.Machine.execControllerHealthStatusPoll path c s
  | .configurationGet path id => Sys2Proof.Machine.execConfigurationGet path id s
  | .configurationSet path id value => Sys2Proof.Machine.execConfigurationSet path id value s
  | .vpdRead path ofs len => Sys2Proof.Machine.execVpdRead path ofs len s
  | .vpdWrite path ofs data => Sys2Proof.Machine.execVpdWrite path ofs data s
  | .nvmeMiReset path => Sys2Proof.Machine.execNvmeMiReset path s
  | .nvmeMiTunnelledAdmin path cid c => Sys2Proof.Machine.execNvmeMiTunnelledAdmin path cid c s
  | .consoleStatus => Sys2Proof.Machine.execConsoleStatus s
  | .consoleLog format => Sys2Proof.Machine.execConsoleLog format s
  | .consoleEdition op => Sys2Proof.Machine.execConsoleEdition op s
  | .consoleSelftest stc => Sys2Proof.Machine.execConsoleSelftest stc s
  | .selfTestInServicePass client source => Sys2Proof.Machine.execSelfTestInServicePass client source s
  | .selfTestShortRun client source => Sys2Proof.Machine.execSelfTestShortRun client source s
  | .selfTestExtendedRun client source => Sys2Proof.Machine.execSelfTestExtendedRun client source s
  | .selfTestFullRun client source => Sys2Proof.Machine.execSelfTestFullRun client source s
  | .selfTestShutdownRun client source => Sys2Proof.Machine.execSelfTestShutdownRun client source s
  | .selfTestAbort client => Sys2Proof.Machine.execSelfTestAbort client s
  | .selfTestSlice item inst pass => Sys2Proof.Machine.execSelfTestSlice item inst pass s
  | .interruptCoalescingExpiry c vector => Sys2Proof.Machine.execInterruptCoalescingExpiry c vector s
  | .l0pWidthRequest c width => Sys2Proof.Machine.execL0pWidthRequest c width s
  | .pwrFailRelease => Sys2Proof.Machine.execPwrFailRelease s
  | .supplyReturnWithoutSpill => Sys2Proof.Machine.execSupplyReturnWithoutSpill s
  | .riderWatchdogReset => Sys2Proof.Machine.execRiderWatchdogReset s
  | .uartByteReceived byte frameErr => Sys2Proof.Machine.execUartByteReceived byte frameErr s
  | .mctpPacketReceived p packet => Sys2Proof.Machine.execMctpPacketReceived p packet s
  | .tapInstructionUpdate instr => Sys2Proof.Machine.execTapInstructionUpdate instr s

end Sys2Proof.Machine
end

