-- ==== Sys2Proof/Safety.lean ====
section
/-! DEFINITION. The terms that the statements use: canonical forms of the state's lists, when a setup access reaches its
register, and what a command does and leaves alone. -/

namespace Sys2Proof.Safety

open Sys2Proof.Machine

/-! ### Canonical forms -/

/-- A register list in its one form: offsets strictly rising, and no word equal to its reset value. -/
def regsWf : List (Nat × Word) → Bool
  | [] => true
  | [(a, w)] => w != resetWord a
  | (a, w) :: (a', w') :: t => decide (a < a') && w != resetWord a && regsWf ((a', w') :: t)

/-- The state's memory and register lists are in their canonical forms, so that equal memories and equal register
files are equal data. -/
def canonical (s : State) : Bool := s.memory.wf && regsWf s.regs

/-! ### Accesses -/

/-- A setup write by this client reaches the register at this window offset: it does not come through BAR2 (R489), and
the domain that holds the register is ON (R497). -/
def reaches (s : State) (client a : Nat) : Prop := viaBar2 client = false ∧ (s.dom (blockDomain a)).state = .on

/-- The power domain of a channel group. -/
def groupDom (g : Fin 8) : Fin 24 := Fin.ofNat 24 (13 + g)

/-- A memory access to this address of the compositor map runs now: its bank is ON, not sweeping and not disabled, or its DRAM
half is ON and no zero-fill of its channel runs (R345, R361, R497). -/
def ready (s : State) (a : Nat) : Prop :=
  match bankOf a with
  | some code => (s.dom (bankDomain code)).state = .on ∧ s.fld (Reg.OCM_BANK_DISABLE code) = 0 ∧ s.bankState code = 1 ∧
      s.fld (Reg.OCM_BANK_SWEEP code) = 0
  | none => isDram a = true ∧ (s.dom (if (s.sliceOf ((a - dramBase) / 4096)).1 < 6 then 11 else 12)).state = .on ∧
      s.fld (Reg.DMC_FILL_GO (s.sliceOf ((a - dramBase) / 4096)).1) = 0

/-- No flip mask is armed (R303). -/
def noMask (s : State) : Prop := s.fld Reg.OCM_FLIPMASK2_ARMED = 0 ∧ ∀ n, n < 12 → s.fld (Reg.DMC_FLIPMASK2_ARMED n) = 0

/-- An address of the compositor map answers now: its domain is ON, and its bank, if it lies in one, is ON, not sweeping and not
disabled, or its DRAM channel is not being filled (R25, R345, R361, R365). -/
def memOpen (s : State) (a : Nat) : Prop :=
  (∀ c ∈ bankOf a,
    (s.dom (bankDomain c)).state = .on ∧ s.fld (Reg.OCM_BANK_DISABLE c) = 0 ∧ s.bankState c = 1 ∧ s.fld (Reg.OCM_BANK_SWEEP c) = 0) ∧
  (bankOf a = none → isDram a = true ∧ (s.dom (if (s.sliceOf ((a - dramBase) / 4096)).1 < 6 then 11 else 12)).state = .on ∧
    s.fld (Reg.DMC_FILL_GO (s.sliceOf ((a - dramBase) / 4096)).1) = 0)

/-- Everything that a side of a DMA descriptor reaches in local space answers now. -/
def sideOpen (s : State) (space a len : Nat) : Prop :=
  space = 0 → ∀ p ∈ probes a len,
    if inSetup 0 p = true then (s.dom (blockDomain (p - 0x20000000))).state = .on
    else if inStore p = true then (s.dom 23).state = .on
    else memOpen s p

def sidesOpen (s : State) (d : Desc) : Prop :=
  sideOpen s d.srcSpace d.src (sideLen d.srcFix d) ∧ sideOpen s d.dstSpace d.dst (sideLen d.dstFix d)

/-- The 64-bit word that holds a storage address. -/
def wordAt (s : State) (a : Nat) : Nat := s.peek (a / 8 * 8) 8

/-- Every byte outside the 64-bit word at a storage address reads as it did. -/
def otherBytesSame (a : Nat) (s t : State) : Prop :=
  ∀ x, x < a / 8 * 8 ∨ a / 8 * 8 + 8 ≤ x → memGet x t.memory.bytes = memGet x s.memory.bytes

/-- The atomic operations of the RV64 A extension on n-bit operands (R359). -/
def amoSpec {n : Nat} (op : AmoOp) (old v : BitVec n) : BitVec n :=
  match op with
  | .swap => v
  | .add => old + v
  | .and => old &&& v
  | .or => old ||| v
  | .xor => old ^^^ v
  | .min => if old.sle v then old else v
  | .max => if old.sle v then v else old
  | .minu => if old ≤ v then old else v
  | .maxu => if old ≤ v then v else old

/-! ### What a command does -/

/-- The parts of the state that a frame tells apart: the fields of `State` but the setup registers, with the event log
apart from the rest of the management plane, the domains and their idle timers apart from the rest of the power
controller, and the bytes of memory apart from the rest of the memories. -/
inductive Part
  | pending | edgeRegs | turn | free | answer | bytes | memory | idle | doms | power | pins | log | mgmt | collector
  | host | dma | store | cistern | flash | galley | sluice | nv | board
  deriving DecidableEq, Repr

/-- A domain with its idle timer left out. -/
def noIdle (d : Domain) : Domain := { d with idleFrom := 0 }

/-- A part of one state is that part of the other. -/
def Part.same (p : Part) (s t : State) : Prop :=
  match p with
  | .pending => t.pending = s.pending
  | .edgeRegs => t.edgeRegs = s.edgeRegs
  | .turn => t.turn = s.turn
  | .free => t.free = s.free
  | .answer => t.answer = s.answer
  | .bytes => t.memory.bytes = s.memory.bytes
  | .memory => { t.memory with bytes := [] } = { s.memory with bytes := [] }
  | .idle => ∀ n, (t.dom n).idleFrom = (s.dom n).idleFrom
  | .doms => ∀ n, noIdle (t.dom n) = noIdle (s.dom n)
  | .power => { t.power with doms := s.power.doms } = s.power
  | .pins => t.pins = s.pins
  | .log => t.mgmt.log = s.mgmt.log ∧ t.mgmt.logDropped = s.mgmt.logDropped
  | .mgmt => { t.mgmt with log := s.mgmt.log, logDropped := s.mgmt.logDropped } = s.mgmt
  | .collector => t.collector = s.collector
  | .host => t.host = s.host
  | .dma => t.dma = s.dma
  | .store => t.store = s.store
  | .cistern => t.cistern = s.cistern
  | .flash => t.flash = s.flash
  | .galley => t.galley = s.galley
  | .sluice => t.sluice = s.sluice
  | .nv => t.nv = s.nv
  | .board => t.board = s.board

/-- A register word after a list of field writes, in order. -/
def wordAfter (a : Nat) : List (Fld × Nat) → Word → Word
  | [], w => w
  | (f, v) :: l, w => wordAfter a l (if f.addr = a then putBits w f.lsb f.width v else w)

/-- The frame of a step from `s` to `t`: every part that is not listed is unchanged, and every setup register holds its
old word with the listed field writes made, in order. -/
def Frame (parts : List Part) (writes : List (Fld × Nat)) (s t : State) : Prop :=
  (∀ p, p ∉ parts → p.same s t) ∧ ∀ a, t.word a = wordAfter a writes (s.word a)

/-- The command completes: it answers a next state that differs from `s` in the listed parts and field writes only, and of
which `P` holds. -/
def Does (i : Instr) (s : State) (parts : List Part) (writes : List (Fld × Nat)) (P : State → Prop) : Prop :=
  ∃ t, exec i s = .next t ∧ Frame parts writes s t ∧ P t

/-- The command completes in a state of which `P` holds. -/
def Completes (i : Instr) (s : State) (P : State → Prop) : Prop := ∃ t, exec i s = .next t ∧ P t

/-- The command completes in a state of which `P` holds, and which differs from `s` in the listed parts and in the registers
at the listed window offsets only. -/
def Changes (i : Instr) (s : State) (parts : List Part) (regs : List Nat) (P : State → Prop) : Prop :=
  ∃ t, exec i s = .next t ∧ (∀ p, p ∉ parts → p.same s t) ∧ (∀ a, a ∉ regs → t.word a = s.word a) ∧ P t

/-- A counter field after `n` more: it saturates at its width. -/
def plus (s : State) (f : Fld) (n : Nat) : Fld × Nat := (f, min (2 ^ f.width - 1) (s.fld f + n))

/-- The writes of ERC.LAST for an error (R307): the first error fills it, a later one sets MORE. -/
def lastWrites (s : State) (client kind : Nat) (write : Bool) (mem addr : Nat) : List (Fld × Nat) :=
  if s.fld Reg.ERC_LAST_VALID = 1 then [(Reg.ERC_LAST_MORE, 1)]
  else [(Reg.ERC_LAST_CLIENT, client), (Reg.ERC_LAST_KIND, kind), (Reg.ERC_LAST_WRITE, write.toNat), (Reg.ERC_LAST_MEM, mem),
    (Reg.ERC_LAST_VALID, 1), (Reg.ERC_LAST_ADDR_LO_ADDR_LO, addr), (Reg.ERC_LAST_ADDR_HI_ADDR_HI, addr / 2 ^ 32)]

/-- The log entry that a command of turn `s.turn` enters. -/
def entryOf (s : State) (code source client param : Nat) : LogEntry :=
  ⟨s.turn, s.timeMs, code, Config.severity code, source, client, param⟩

/-- One event has been logged: appended, or dropped and counted where the buffer of 8,192 entries is full. -/
def logged (s t : State) (code source client param : Nat) : Prop :=
  if s.mgmt.log.length < 8192 then t.mgmt.log = s.mgmt.log ++ [entryOf s code source client param] ∧ t.mgmt.logDropped = s.mgmt.logDropped
  else t.mgmt.log = s.mgmt.log ∧ t.mgmt.logDropped = s.mgmt.logDropped + 1

/-- An admin queue's command arrived whole, and its queue has its completion queue. -/
def whole (s : State) (a : Adm) : Prop :=
  ∀ c, admCtrl a.path = some c → (s.ctl c).adminCq.size ≠ 0 ∧ (s.ctl c).poisoned.contains a.cid = false

/-- A command of an admin path reaches its handler now: the path takes requests, neither the rider nor a cluster is on its
way up, and an admin queue's command arrived whole and has its completion queue. -/
def takes (s : State) (a : Adm) : Prop :=
  s.pathOpen a.path = true ∧ s.restarting = false ∧ s.power.mode ≠ .conserve ∧ whole s a

/-- As `takes`, in Conserve too once its exit has started: what the headgate executes needs no cluster, and starts the exit first. -/
def hears (s : State) (a : Adm) : Prop :=
  s.pathOpen a.path = true ∧ s.restarting = false ∧ whole s a ∧
    (s.power.mode = .conserve → s.power.exiting.isSome = true ∨ admCtrl a.path = none)

/-- The headgate takes an admin command of a controller's queue now: the controller runs, its admin queue has its completion queue, the
command arrived whole, and an exit from Conserve has started. -/
def hgTakes (s : State) (a : Adm) (c : Fin 2) : Prop :=
  admCtrl a.path = some c ∧ s.running c = true ∧ whole s a ∧ (s.power.mode = .conserve → s.power.exiting.isSome = true)

/-- The completion entry of an admin command. -/
def adminCqe (s : State) (c : Fin 2) (a : Adm) (st : Status) (data : List Bytes) : Cqe :=
  { sqid := 0, cid := a.cid, sct := st.sct, sc := st.sc, dnr := st.dnr, dw0 := st.dw0, sqhd := (s.ctl c).adminSq.head,
    turn := s.turn, data := data }

/-- The command has been answered on its path, once: a completion entry, or one held while the queue is full (R61), on an
admin queue; a response on a management path. -/
def replied (s t : State) (a : Adm) (st : Status) (data : List Bytes) : Prop :=
  match admCtrl a.path with
  | none => t.mgmt.replies = s.mgmt.replies ++ [⟨a.path, st.sct * 256 + st.sc, st.dw0, data.flatten⟩]
  | some c =>
    let q := (s.ctl c).adminCq
    (t.ctl c).adminCq = if q.full || !q.held.isEmpty then { q with held := q.held ++ [{ e := adminCqe s c a st data, cls := 8 }] }
      else { q with entries := q.entries ++ [adminCqe s c a st data] }

/-- Only queue `qid` of controller `c` among the submission queues has changed: it is now `q`. -/
def sqNow (s t : State) (c : Fin 2) (qid : Nat) (q : Option Sq) : Prop :=
  t.sq c qid = q ∧ (∀ n, n ≠ qid → t.sq c n = s.sq c n) ∧ ∀ d, d ≠ c → t.ctl d = s.ctl d

/-- Only queue `qid` of controller `c` among the completion queues has changed: it is now `q`. -/
def cqNow (s t : State) (c : Fin 2) (qid : Nat) (q : Option Cq) : Prop :=
  t.cq c qid = q ∧ (∀ n, n ≠ qid → t.cq c n = s.cq c n) ∧ ∀ d, d ≠ c → t.ctl d = s.ctl d

/-- A command of an I/O queue that has been settled with a status. -/
def settled (k : Cmd) (st : Status) (post : Nat) : Cmd :=
  { k with outcome := some (st.sct, st.sc, st.dnr, st.dw0), postAt := some post }

/-- Every domain but this one is as it was, idle timers apart. -/
def othersSame (d : Fin 24) (s t : State) : Prop := ∀ m, m ≠ d → noIdle (t.dom m) = noIdle (s.dom m)

/-- The register write that a command stands for, where it is one and nothing more is asked of it first: its client, the window
offset and the word. -/
def setupOf : Instr → Option (Nat × Nat × Word)
  | .bankPowerRequest c b req => some (c, Reg.OCM_BANK b, BitVec.ofNat 32 (req * 4))
  | .bankLostClear c b => some (c, Reg.OCM_BANK b, 16)
  | .bankOwnerWrite c b o => some (c, Reg.OCM_BANK b, BitVec.ofNat 32 (o * 1024))
  | .bankRedirectWrite c b n => some (c, Reg.OCM_BANK b, BitVec.ofNat 32 (n * 2 ^ 21))
  | .bankDisable c b => some (c, Reg.OCM_BANK b, BitVec.ofNat 32 (2 ^ 20))
  | .columnRepair c b col => some (c, Reg.OCM_REPAIR, BitVec.ofNat 32 (b + col * 256 + 2 ^ 19))
  | .ocmFlipmaskArm c _ _ w => some (c, Reg.OCM_FLIPMASK2, w)
  | .dmcFlipmaskArm c ch _ _ w => some (c, Reg.DMC_FLIPMASK2 ch, w)
  | .mupTailWrite c n => some (c, Reg.DMC_MUP_PTR, BitVec.ofNat 32 n)
  | .snapshotMark c => some (c, Reg.DMC_SNAP_CTRL, 1)
  | .mirrorMoveStart c ch => some (c, Reg.DMC_GLY_MOVE, BitVec.ofNat 32 (ch + 16))
  | .mapRepair c n => some (c, Reg.DMC_MAP_REPAIR, BitVec.ofNat 32 (n + 2 ^ 30))
  | .voteWrite c d hold => some (c, Reg.PMC_VOTE, BitVec.ofNat 32 (d + hold.toNat * 32))
  | .domainRetire c d => some (c, Reg.PMC_DOM d, BitVec.ofNat 32 65536)
  | .sealRequest c => some (c, Reg.PMC_MODE_REQ, 1)
  | .recoverRequest c => some (c, Reg.PMC_MODE_REQ, 2)
  | .globalStateBroadcast c => some (c, Reg.TRN_GLOBAL_CMD, 1)
  | .globalBarrier c => some (c, Reg.TRN_GLOBAL_CMD, 2)
  | .dataPlaneReset c => some (c, Reg.TRN_GLOBAL_CMD, 3)
  | .allotAddWrite c v => some (c, Reg.SLU_ALLOT_ADD, v)
  | .chanOutWrite c n v => some (c, Reg.SLU_CHAN_OUT n, v)
  | .dieStateWrite c d v => some (c, Reg.SLU_DIE_STATE d, BitVec.ofNat 32 v)
  | .retrainReq c ch n => some (c, Reg.FCE_CTRL ch, BitVec.ofNat 32 (1 + n * 16))
  | .dlxNowWrite c v => some (c, Reg.LDP_DLX_NOW, v)
  | .irqEnableWrite c n w v => some (c, Reg.IRQ_EN n w, v)
  | .riderDoorbellSet c v => some (c, Reg.MBX_RDB_SET, v)
  | .clusterDoorbellSet c n v => some (c, Reg.MBX_CDB_SET n, v)
  | .uartDataWrite c b => some (c, Reg.MBX_UART_DATA, b.setWidth 32)
  | .mctpTxPush c p w => some (c, Reg.MBX_MCTP_TX p, w)
  | .selfTestAbort c => some (c, Reg.BST_CTRL, 0x100)
  | .fwsSequenceWrite c r v => some (c, fwsRegAddr r, v)
  | .xoWrite c b v => some (c, Reg.FWS_XO b, v)
  | _ => none

end Sys2Proof.Safety
end

