-- ==== Sys2Proof/Certificates/Slice0/Obligations.lean ====
section
/-! DEFINITION. The statements about the model, for the provers: each a named proposition, with the rules of the spec that it
formalises in its docstring. -/

open Sys2Proof Sys2Proof.Machine Sys2Proof.Safety

/-! ### The queue, reset, and what every command keeps -/

/-- A step with a command at the front of the queue is that command's effect on the state with the rest of the queue. What the rules
leave open in these points is the model's own (assumption log 1). -/
def Obligations.StepRunsFrontCommand : Prop :=
  ∀ (s : State) (i : Instr) (rest : List Instr),
    step { s with pending := i :: rest } = exec i { s with pending := rest }

/-- No command ends in a fault or a refusal, from any state and with any operands; a command leaves the queue as it found it, so that only a
step takes a command and no command adds or drops one; with no command waiting the block idles (the model's choice, assumption log 1). What the rules
leave open in these points is the model's own (assumption log 19). -/
def Obligations.CommandsCompleteAndKeepTheQueue : Prop :=
  (∀ (i : Instr) (s : State), ∃ t, exec i s = .next t) ∧
  ((∀ s : State, s.pending = [] → step s = .next s) ∧
  (∀ (i : Instr) (s t : State), exec i s = .next t → t.pending = s.pending))

/-- From every state whose memory and register lists are in canonical form, a step answers such a state (R345, R361, R499). What the rules
leave open in these points is the model's own (assumption log 137). -/
def Obligations.StepKeepsCanonicalForm : Prop := ∀ s t : State, canonical s = true → step s = .next t → canonical t = true

/-- The turn counter moves at TURN_EDGE only, by one while the part has a supply; every other command leaves it, or starts it at 0 as a
power-on reset does (R29, R518). What the rules
leave open in these points is the model's own (assumption log 19). -/
def Obligations.OnlyTurnEdgeMovesTime : Prop :=
  ∀ (i : Instr) (s t : State), exec i s = .next t →
    (∀ e, i = .turnEdge e → t.turn = if s.power.mode = .off then s.turn else s.turn + 1) ∧
    ((∀ e, i ≠ .turnEdge e) → t.turn = s.turn ∨ t.turn = 0)

/-! ### Power domains, modes and power states (chapter 13) -/

/-- VOTE_WRITE and DOMAIN_RETIRE (R436, R438): a client's vote holds a voted domain, wakes an OFF one and returns a DROPPING one to ON as an
aborted entry; a second HOLD is ignored; the last withdrawal leaves an ON domain DROPPING from this turn, unless an exit from Conserve
is bringing it up (R442); an earlier one is a refused drop (R440). A vote on any other domain is ignored and logged. A write of RETIRE to a domain that Table 13.3 can retire sets the bit,
drops its votes and keeps it retired over power cycles, and a cluster leaves the compute pool too; one to a domain whose row reads
"never" is ignored and logged. What the rules
leave open in these points is the model's own (assumption logs 9, 12 and 148). -/
def Obligations.VotesHoldAndRetireDomains : Prop :=
  (∀ (s : State) (client : Nat) (d : Fin 24), reaches s client Reg.PMC_VOTE →
    (domPolicy d = 3 → client ∉ (s.dom d).votes →
      ((s.dom d).state = .on →
        Does (.voteWrite client d true) s [.idle, .doms] [] fun t =>
          (t.dom d).votes = client :: (s.dom d).votes ∧ (t.dom d).state = .on ∧ othersSame d s t) ∧
      ((s.dom d).state = .off → s.power.mode ≠ .recovery →
        Does (.voteWrite client d true) s [.idle, .doms] [] fun t =>
          (t.dom d).votes = client :: (s.dom d).votes ∧ (t.dom d).state = .waking ∧ (t.dom d).wakeFrom = s.turn ∧
            othersSame d s t) ∧
      ((s.dom d).state = .dropping →
        Does (.voteWrite client d true) s [.idle, .doms, .log] [(Reg.PMC_EVENT_DOM_REFUSED, 1)] fun t =>
          (t.dom d).votes = client :: (s.dom d).votes ∧ (t.dom d).state = .on ∧
            (t.dom d).aborted = min (2 ^ 64 - 1) ((s.dom d).aborted + 1) ∧ (t.dom d).lastClient = client ∧ othersSame d s t ∧
            logged s t 0x0505 0 client d)) ∧
    (domPolicy d = 3 → client ∈ (s.dom d).votes → Does (.voteWrite client d true) s [.idle] [] fun _ => True) ∧
    (domPolicy d = 3 → (s.dom d).votes = [client] → (s.dom d).state = .on →
      Does (.voteWrite client d false) s [.idle, .doms] [] fun t =>
        (t.dom d).votes = [] ∧ (t.dom d).dropFrom = s.turn ∧ othersSame d s t ∧
          (t.dom d).state = if s.power.exiting.isSome ∧ d.val ∈ conserveDoms then .on else .dropping) ∧
    (domPolicy d = 3 → client ∈ (s.dom d).votes → (s.dom d).votes.erase client ≠ [] →
      Does (.voteWrite client d false) s [.idle, .doms, .log] [(Reg.PMC_EVENT_DOM_REFUSED, 1)] fun t =>
        (t.dom d).votes = (s.dom d).votes.erase client ∧ (t.dom d).state = (s.dom d).state ∧ othersSame d s t ∧
          (t.dom d).refused = min (2 ^ 64 - 1) ((s.dom d).refused + 1) ∧ (t.dom d).lastClient ∈ (t.dom d).votes ∧
          logged s t 0x0505 0 (t.dom d).lastClient d) ∧
    (∀ (n : Nat) (hold : Bool), 24 ≤ n ∨ domPolicy n ≠ 3 →
      Does (.voteWrite client n hold) s [.idle, .log] [] fun t => logged s t (Config.uncodedEvent 3) 0 client n)) ∧
  (∀ (s : State) (client : Nat) (d : Fin 24), reaches s client (Reg.PMC_DOM d) →
    (retirable d = false → Does (.domainRetire client d) s [.idle, .log] [] fun t =>
      logged s t 0x0901 0 client (Reg.PMC_DOM d + 65536 * 2 ^ 32)) ∧
    (retirable d = true → ¬ (6 ≤ d.val ∧ d.val ≤ 8) → s.fld (Reg.PMC_DOM_RETIRE d) = 0 →
      Does (.domainRetire client d) s [.idle, .doms, .log, .nv] [(Reg.PMC_DOM_RETIRE d, 1)] fun t =>
        (t.dom d).votes = [] ∧ d.val ∈ t.nv.retiredDoms ∧ othersSame d s t ∧ logged s t 0x0401 0 client d) ∧
    (retirable d = true → (6 ≤ d.val ∧ d.val ≤ 8) → s.fld (Reg.PMC_DOM_RETIRE d) = 0 →
      Completes (.domainRetire client d) s fun t => (t.dom d).votes = [] ∧ d.val ∈ t.nv.retiredDoms ∧
        t.fld (Reg.PMC_DOM_RETIRE d) = 1 ∧ t.fld Reg.SLU_STATUS_CLUSTERS / 2 ^ (d.val - 6) % 2 = 0))

/-- DOMAIN_DROP and IDLE_TIMER_EXPIRY (R436, R437, R440): 64 turns after its last vote was withdrawn a DROPPING domain is OFF, and its
banks that are not in RETENTION with it; an idle-timer domain whose timer has run out is OFF where its condition holds, and where
it does not the drop is refused, counted and logged and the timer restarts; an exit from Conserve keeps the domains it brings up;
before its time nothing happens. What the rules
leave open in these points is the model's own (assumption logs 12 and 19). -/
def Obligations.DomainsDrop : Prop :=
  (∀ (s : State) (d : Fin 24), (s.dom d).state = .dropping →
    (s.turn < (s.dom d).dropFrom + 64 → exec (.domainDrop d) s = .next s) ∧
    ((s.dom d).dropFrom + 64 ≤ s.turn → domainBanks d = [] →
      Does (.domainDrop d) s [.doms] [] fun t => (t.dom d).state = .off ∧ (t.dom d).votes = (s.dom d).votes ∧ othersSame d s t) ∧
    ((s.dom d).dropFrom + 64 ≤ s.turn →
      Completes (.domainDrop d) s fun t => (t.dom d).state = .off ∧
        ∀ b ∈ domainBanks d, t.bankState b ≠ 1 ∧ (s.bankState b = 2 → t.bankState b = 2))) ∧
  (∀ (s : State) (d : Fin 24), domPolicy d = 2 → (s.dom d).state = .on →
    (s.turn < (s.dom d).idleFrom + s.idleTimer d → exec (.idleTimerExpiry d) s = .next s) ∧
    ((s.dom d).idleFrom + s.idleTimer d ≤ s.turn → s.power.exiting.isSome = true → d.val ∈ conserveDoms →
      Does (.idleTimerExpiry d) s [.idle] [] fun t => (t.dom d).idleFrom = s.turn) ∧
    ((s.dom d).idleFrom + s.idleTimer d ≤ s.turn → s.power.exiting = none ∨ d.val ∉ conserveDoms → s.idleCond d = true →
      Completes (.idleTimerExpiry d) s fun t => (t.dom d).state = .off) ∧
    ((s.dom d).idleFrom + s.idleTimer d ≤ s.turn → s.power.exiting = none ∨ d.val ∉ conserveDoms → s.idleCond d = false →
      Does (.idleTimerExpiry d) s [.idle, .doms, .log] [(Reg.PMC_EVENT_DOM_REFUSED, 1)] fun t =>
        (t.dom d).state = .on ∧ (t.dom d).idleFrom = s.turn ∧ (t.dom d).refused = min (2 ^ 64 - 1) ((s.dom d).refused + 1) ∧
          (t.dom d).lastTurn = s.turn ∧ othersSame d s t ∧ logged s t 0x0505 0 (idleRefuser d) d))

/-- DOMAIN_WAKE_ON_ACCESS, DOMAIN_WAKE_COMPLETE, CHANNEL_GROUP_WAKE and DRAM_HALF_PS4_WAKE (R155, R435, R436, R443): an access starts the
wake of an OFF domain with the wake time of Table 13.3, and returns a DROPPING one to ON at once; when the wake time is over, a
domain on which nothing waits is ON, and so is a channel group none of whose engines fails and a DRAM half from PS4 whose
training verifies; a half whose training does not stays WAKING and runs a full search. What the rules
leave open in these points is the model's own (assumption logs 19, 119 and 132). -/
def Obligations.DomainsWake : Prop :=
  (∀ (s : State) (d : Fin 24) (client : Nat),
    ((s.dom d).state = .off → s.power.mode ≠ .recovery → s.power.mode ≠ .conserve →
      Does (.domainWakeOnAccess d client) s [.idle, .doms] [] fun t =>
        (t.dom d).state = .waking ∧ (t.dom d).wakeFrom = s.turn ∧
          (t.dom d).wakeLen = (if d = 2 ∨ d = 3 then 48 else if d = 11 ∨ d = 12 then 250
            else if 13 ≤ d.val ∧ d.val ≤ 20 then 400 else 32) ∧ othersSame d s t) ∧
    ((s.dom d).state = .on →
      Does (.domainWakeOnAccess d client) s [.idle] [] fun t => (t.dom d).idleFrom = s.turn) ∧
    ((s.dom d).state = .dropping →
      Does (.domainWakeOnAccess d client) s [.idle, .doms, .log] [(Reg.PMC_EVENT_DOM_REFUSED, 1)] fun t => (t.dom d).state = .on ∧
        (t.dom d).aborted = min (2 ^ 64 - 1) ((s.dom d).aborted + 1) ∧ logged s t 0x0505 0 client d) ∧
    ((s.dom d).state = .waking → (s.dom d).wakeFrom + (s.dom d).wakeLen ≤ s.turn → (s.dom d).wakeLen ≠ 4608 →
      domainBanks d = [] → (s.dom d).stalled = [] → (s.dom d).dropFrom ≤ (s.dom d).wakeFrom →
      Does (.domainWakeComplete d) s [.idle, .doms] [] fun t =>
        (t.dom d).state = .on ∧ (t.dom d).idleFrom = s.turn ∧ othersSame d s t) ∧
    ((s.dom d).state = .waking → s.turn < (s.dom d).wakeFrom + (s.dom d).wakeLen →
      exec (.domainWakeComplete d) s = .next s)) ∧
  (∀ s : State,
    (∀ g : Fin 8, (s.dom (groupDom g)).state = .waking →
      (s.dom (groupDom g)).wakeFrom + (s.dom (groupDom g)).wakeLen ≤ s.turn →
      (s.dom (groupDom g)).stalled = [] →
      Completes (.channelGroupWake g []) s fun t => (t.dom (groupDom g)).state = .on) ∧
    (∀ upper : Bool, (s.dom (if upper then 12 else 11)).state = .waking → (s.dom (if upper then 12 else 11)).wakeLen = 4608 →
      (s.dom (if upper then 12 else 11)).wakeFrom + 4608 ≤ s.turn → (s.dom (if upper then 12 else 11)).stalled = [] →
      (s.dom (if upper then 12 else 11)).dropFrom ≤ (s.dom (if upper then 12 else 11)).wakeFrom →
      (Does (.dramHalfPs4Wake upper true) s [.idle, .doms, .memory] [] fun t =>
        (t.dom (if upper then 12 else 11)).state = .on ∧ t.memory.searching = s.memory.searching.erase upper.toNat) ∧
      Does (.dramHalfPs4Wake upper false) s [.log, .memory] [] fun t => upper.toNat ∈ t.memory.searching))


/-- CONSERVE_ENTRY_END, CONSERVE_EXIT_COMPLETE, APST_TRANSITION and PS3_PS4_CHANGE_APPLIED (R83, R84, R441, R442, R533): an entry
whose old plans are over and whose domains are off makes the mode Conserve and PMC.PS the target; an exit whose domains are
on again makes it Service with the most recent operational state; an autonomous transition starts an entry, and one into PS4 asks
the banks that hold copies only to enter RETENTION; a change between PS3 and PS4 ends with PMC.PS at its target, to PS4 only once no such
request is left. No command waits for these. What the rules
leave open in these points is the model's own (assumption logs 19 and 48). -/
def Obligations.ConserveEntersChangesAndExits : Prop :=
  ∀ s : State,
    (∀ e, s.power.entry = some e → e.req = none → s.power.mode = .service → s.oldPlans e.began = false → s.conserveOff = true →
      Does .conserveEntryEnd s [.power, .log]
        [(Reg.PMC_PS_ENTERING, 0), (Reg.PMC_EVENT_MODE_CHANGE, 1), (Reg.SLU_STATUS_SURGE, 0), (Reg.SLU_STATUS_CONSERVE, 1),
          (Reg.PMC_PS_PS, e.target)] fun t =>
        t.power.mode = .conserve ∧ t.power.prev = .service ∧ t.power.entry = none ∧
          t.power.entryLog.head? = some ⟨e.began, e.target, 1, e.holder.1, e.holder.2, s.turn - e.began⟩ ∧
          logged s t 0x0101 0 0x3FF (4 + 2 * 256)) ∧
    (∀ x, s.power.exiting = some x → x.req = none → s.power.mode = .conserve → s.conserveOn = true →
      s.fld Reg.PMC_MODE_REQ_SEAL = 0 → s.power.operPs < 3 →
      Completes .conserveExitComplete s fun t =>
        t.power.mode = .service ∧ t.power.prev = .conserve ∧ t.power.exiting = none ∧ t.fld Reg.PMC_PS_PS = s.power.operPs ∧
          t.fld Reg.PMC_PS_EXITING = 0 ∧ t.power.doms = s.power.doms ∧ t.memory.bytes = s.memory.bytes ∧ t.host = s.host ∧ t.galley = s.galley) ∧
    (∀ ps, s.power.apstOn = true → s.fld Reg.SLU_STATUS_SEALED = 0 → s.power.mode = .service ∨ s.power.mode = .surge →
      s.power.entry = none →
      (ps = 3 ∨ ps = 4 ∧ (∀ b ∈ s.copyBanks, s.bankState b ≠ 1) →
        Does (.apstTransition ps) s [.power] [(Reg.PMC_PS_ENTERING, 1)] fun t =>
          t.power.mode = s.power.mode ∧ ∃ e, t.power.entry = some e ∧ e.began = s.turn ∧ e.target = ps ∧ e.req = none) ∧
      (ps = 4 → Completes (.apstTransition ps) s fun t =>
        t.power.mode = s.power.mode ∧ (∃ e, t.power.entry = some e ∧ e.began = s.turn ∧ e.target = ps ∧ e.req = none) ∧
          t.fld Reg.PMC_PS_ENTERING = 1 ∧
          ∀ b ∈ s.copyBanks, s.bankState b = 1 → t.fld (Reg.OCM_BANK_REQ b) = 2 ∧ klook b t.memory.bankWait = some 2)) ∧
    (s.power.psChange = some (4, none) → s.power.mode = .conserve → (s.dom 11).state ≠ .waking → (s.dom 12).state ≠ .waking →
      (∀ b ∈ s.copyBanks, s.fld (Reg.OCM_BANK_REQ b) = 2 → s.bankState b = 2) →
      Does .ps3Ps4ChangeApplied s [.power] [(Reg.PMC_PS_PS, 4)] fun t => t.power.psChange = none ∧ t.power.mode = .conserve) ∧
    (s.power.psChange = some (3, none) → s.power.mode = .conserve → (s.dom 11).state = .on → (s.dom 12).state = .on →
      (s.dom 11).votes = [] → (s.dom 12).votes = [] →
      Does .ps3Ps4ChangeApplied s [.power, .doms] [(Reg.PMC_PS_PS, 3)] fun t =>
        t.power.psChange = none ∧ (t.dom 11).state = .off ∧ (t.dom 12).state = .off)

/-- SEAL_REQUEST, RECOVER_REQUEST and PERMANENT_FAULT outside Conserve (R43, R240, R454): a request sets its bit of
PMC.MODE_REQ; a Recovery request, and a mismatch that has stood for 16 consecutive turns, stop admission and begin the
steps of R43 (a shorter run of mismatches does nothing). What the rules
leave open in these points is the model's own (assumption logs 41 and 120). -/
def Obligations.ModeRequestsAreTaken : Prop :=
  ∀ (s : State) (client unit : Nat),
    (reaches s client Reg.PMC_MODE_REQ → s.power.mode ≠ .conserve →
      Does (.sealRequest client) s [.idle] [(Reg.PMC_MODE_REQ_SEAL, 1)] fun _ => True) ∧
    (reaches s client Reg.PMC_MODE_REQ → s.power.mode = .service ∨ s.power.mode = .surge ∨ s.power.mode = .sealed →
      Does (.recoverRequest client) s [.idle, .host, .power] [(Reg.PMC_MODE_REQ_RECOVER, 1)] fun t =>
        t.host.admitStop = true ∧ t.power.recovering.isSome = true ∧ t.power.mode = s.power.mode) ∧
    (16 ≤ (klook unit s.collector.pairRun).getD 0 → s.power.mode ≠ .conserve →
      Does (.permanentFault unit) s [.host, .power, .nv, .mgmt] [(Reg.PMC_MODE_REQ_RECOVER, 1)] fun t =>
        t.host.admitStop = true ∧ t.power.recovering.isSome = true ∧ t.host.cmds = s.host.cmds) ∧
    ((klook unit s.collector.pairRun).getD 0 < 16 → exec (.permanentFault unit) s = .next s)

/-- THERMTRIP (R451): the trip asserts THERMTRIP_n, sets PMC.THERM.TRIP and PMC.EVENT.THERMTRIP, is logged and changes nothing else; the
output stays asserted over every command until a power-on reset, which starts the turn counter at 0 again. -/
def Obligations.ThermtripStaysUntilPowerOnReset : Prop :=
  ∀ s : State,
    (s.power.mode ≠ .off → s.pins.thermtrip = false →
      Does .thermtrip s [.pins, .log] [(Reg.PMC_THERM_TRIP, 1), (Reg.PMC_EVENT_THERMTRIP, 1)] fun t =>
        t.pins = { s.pins with thermtrip := true } ∧ logged s t 0x0504 0 0x3FF 0) ∧
    (s.pins.thermtrip = true → ∀ (i : Instr) (t : State), exec i s = .next t → t.pins.thermtrip = true ∨ t.turn = 0)

/-- GLOBAL_STATE_BROADCAST, GLOBAL_BARRIER, DATA_PLANE_RESET and BARRIER_COMPLETE (R26–R28, R40, R502): an operation that is the only one is
issued in the next turn and shown in TRN.GLOBAL_STATUS, and at the edge of that turn (`State.wakeGroups`) the sleeping channel groups start
to wake and no other domain changes; a reset in Boot or Recovery
ends an open barrier as ABORTED (RESULT 2); outside them it is refused (RESULT 3) with no other effect; a barrier completes
4 turns after its issue where no group is waking, and not before. What the rules
leave open in these points is the model's own (assumption logs 19 and 50). -/
def Obligations.GlobalOperationsIssueAndComplete : Prop :=
  ∀ (s : State) (client : Nat),
    (reaches s client Reg.TRN_GLOBAL_CMD → client < 2 ^ 10 → s.sluice.globals = [] →
      let issues (op : Nat) (i : Instr) : Prop := Does i s [.idle, .sluice]
        [(Reg.TRN_GLOBAL_STATUS_BUSY, 1), (Reg.TRN_GLOBAL_STATUS_RESULT, 0), (Reg.TRN_GLOBAL_STATUS_OP, op),
          (Reg.TRN_GLOBAL_STATUS_CLIENT, client)] fun t =>
        t.sluice = { s.sluice with globals := [(op, client, s.turn + 1)] }
      issues 1 (.globalStateBroadcast client) ∧ issues 2 (.globalBarrier client)) ∧
    (∀ op c, s.sluice.globals = [(op, c, s.turn)] → op = 1 ∨ op = 2 → s.power.mode ≠ .recovery →
      (∀ g : Fin 8, (s.dom (groupDom g)).state = .off →
        (s.wakeGroups.dom (groupDom g)).state = .waking ∧ (s.wakeGroups.dom (groupDom g)).wakeFrom = s.turn + 1) ∧
      ∀ d : Fin 24, (s.dom d).state ≠ .off → s.wakeGroups.dom d = s.dom d) ∧
    (reaches s client Reg.TRN_GLOBAL_CMD → client < 2 ^ 10 → s.bootMode = true → s.sluice.globals = [] →
      Completes (.dataPlaneReset client) s fun t => t.sluice.globals = [(3, client, s.turn + 1)] ∧
        t.fld Reg.TRN_GLOBAL_STATUS_BUSY = 1 ∧ t.fld Reg.TRN_GLOBAL_STATUS_RESULT = 0 ∧ t.fld Reg.TRN_GLOBAL_STATUS_OP = 3 ∧
        t.memory = s.memory ∧ t.galley = s.galley ∧ t.mgmt = s.mgmt ∧ t.host = s.host) ∧
    (∀ c t0, reaches s client Reg.TRN_GLOBAL_CMD → client < 2 ^ 10 → c < 2 ^ 10 → s.bootMode = true → s.sluice.globals = [(2, c, t0)] →
      t0 ≤ s.turn →
      Completes (.dataPlaneReset client) s fun t => t.sluice.globals = [(3, client, s.turn + 1)] ∧
        t.fld Reg.TRN_GLOBAL_STATUS_RESULT = 2) ∧
    (reaches s client Reg.TRN_GLOBAL_CMD → s.bootMode = false →
      Does (.dataPlaneReset client) s [.idle]
        [(Reg.TRN_GLOBAL_STATUS_BUSY, (!s.sluice.globals.isEmpty).toNat), (Reg.TRN_GLOBAL_STATUS_RESULT, 3), (Reg.TRN_GLOBAL_STATUS_OP, 3),
          (Reg.TRN_GLOBAL_STATUS_CLIENT, client)] fun _ => True) ∧
    (∀ c t0, s.sluice.globals = [(2, c, t0)] →
      (s.turn < t0 + 4 → exec .barrierComplete s = .next s) ∧
      (t0 + 4 ≤ s.turn → (∀ g : Fin 8, (s.dom (groupDom g)).state ≠ .waking) →
        Does .barrierComplete s [.sluice]
          [(Reg.TRN_GLOBAL_STATUS_BUSY, 0), (Reg.TRN_GLOBAL_STATUS_RESULT, 1), (Reg.TRN_GLOBAL_STATUS_OP, 2),
            (Reg.TRN_GLOBAL_STATUS_CLIENT, c)] fun t => t.sluice = { s.sluice with globals := [] }))


/-! ### On-chip memory (chapter 10) -/

/-- BANK_POWER_REQUEST, BANK_IDLE_ENTRY and BANK_WAKE (R356, R360, R361): the owner's request for ON of a bank that is off or in
RETENTION starts its wake, one for RETENTION or OFF of a bank that is ON waits for 64 idle cycles; another client's is
ignored and logged; a bank that enters RETENTION writes its canaries and keeps its bytes, and one that goes OFF loses
them. A wake takes 2 turns and the bank's size by 128 B cycles, 2,048 to a turn. What the rules
leave open in these points is the model's own (assumption logs 12 and 19). -/
def Obligations.BanksChangePowerState : Prop :=
  ∀ (s : State) (client code req : Nat), bankExists code = true →
    (reaches s client (Reg.OCM_BANK code) → client = s.fld (Reg.OCM_BANK_OWNER code) →
      (s.bankState code = 0 ∨ s.bankState code = 2 →
        Does (.bankPowerRequest client code 1) s [.idle, .memory] [(Reg.OCM_BANK_REQ code, 1), (Reg.OCM_BANK_SWEEP code, 1)] fun t =>
          klook code t.memory.bankWait = none) ∧
      (s.bankState code = 1 → req = 0 ∨ req = 2 →
        Does (.bankPowerRequest client code req) s [.idle, .memory] [(Reg.OCM_BANK_REQ code, req)] fun t =>
          klook code t.memory.bankWait = some req ∧ t.bankState code = 1)) ∧
    (reaches s client (Reg.OCM_BANK code) → client ≠ s.fld (Reg.OCM_BANK_OWNER code) → req < 4 →
      Does (.bankPowerRequest client code req) s [.idle, .log] [] fun t =>
        logged s t 0x0901 0 client (Reg.OCM_BANK code + req * 4 * 2 ^ 32)) ∧
    (klook code s.memory.bankWait = some 2 → s.bankState code = 1 → s.fld (Reg.OCM_BANK_SWEEP code) = 0 →
      Does (.bankIdleEntry code) s [.memory] [(Reg.OCM_BANK_STATE code, 2)] fun t =>
        klook code t.memory.canaries = some (canaryWords (s.fld Reg.OCM_CANARY_SEED) code) ∧ klook code t.memory.bankWait = none) ∧
    (∀ b, bankBase code = some b → klook code s.memory.bankWait = some 0 → s.bankState code = 1 → s.fld (Reg.OCM_BANK_SWEEP code) = 0 →
      Does (.bankIdleEntry code) s [.memory, .bytes] [(Reg.OCM_BANK_STATE code, 0)] fun t =>
        ∀ x, memGet x t.memory.bytes = if b ≤ x ∧ x < b + bankSize code then 0 else memGet x s.memory.bytes) ∧
    (s.bankState code = 0 ∨ s.bankState code = 2 → Does (.bankWake code) s [.memory] [(Reg.OCM_BANK_SWEEP code, 1)] fun t =>
      t.memory = { s.memory with bankDue := t.memory.bankDue } ∧
        (s.fld (Reg.OCM_BANK_SWEEP code) = 0 → klook code t.memory.bankDue = some (s.turn + 2 + bankSize code / (128 * 2048))) ∧
        (s.fld (Reg.OCM_BANK_SWEEP code) = 1 → t.memory = s.memory))

/-- BANK_WAKE_COMPLETE (R360, R361, R362) with REQ ON and no access waiting on any bank: a bank that was OFF is ON with zeros; one that was
in RETENTION and is sound is ON with its bytes; one whose canaries changed holds zeros and is LOST, which is counted, and sweeps for the
sweep's turns more, at whose end it is ready. No wake ends before its turn. Canary word
j holds SEED xor (code × 0x01010101), rotated left by 4j bits, in each 32-bit half, so that two banks with different codes never
share their first canary. What the rules
leave open in these points is the model's own (assumption logs 11, 137 and 188). -/
def Obligations.BanksWakeSweptOrChecked : Prop :=
  ((∀ (seed : BitVec 32) (code j : Nat), code < 256 → j < 8 →
    (canaryWords seed.toNat code)[j]? =
      some (let x := (seed ^^^ BitVec.ofNat 32 (code * 0x01010101)).rotateLeft (4 * j); x.toNat + x.toNat * 2 ^ 32)) ∧
  ∀ (seed : BitVec 32) (c d : Nat), c < 256 → d < 256 → c ≠ d → (canaryWords seed.toNat c)[0]? ≠ (canaryWords seed.toNat d)[0]?) ∧
  (∀ (s : State) (code b : Nat), bankExists code = true → bankBase code = some b → s.fld (Reg.OCM_BANK_SWEEP code) = 1 →
    s.fld (Reg.OCM_BANK_REQ code) = 1 → s.memory.bankStall = [] →
    (∀ uncorrectable canaryBad, s.turn < (klook code s.memory.bankDue).getD 0 →
      exec (.bankWakeComplete code uncorrectable canaryBad) s = .next s) ∧
    ((klook code s.memory.bankDue).getD 0 ≤ s.turn →
    (s.bankState code = 0 ∨ s.bankState code = 1 →
      Does (.bankWakeComplete code false false) s [.memory, .bytes] [(Reg.OCM_BANK_SWEEP code, 0), (Reg.OCM_BANK_STATE code, 1)] fun t =>
        ∀ x, memGet x t.memory.bytes = if b ≤ x ∧ x < b + bankSize code then 0 else memGet x s.memory.bytes) ∧
    (s.bankState code = 2 → s.memory.flips = [] →
      klook code s.memory.canaries = some (canaryWords (s.fld Reg.OCM_CANARY_SEED) code) →
      Does (.bankWakeComplete code false false) s [] [(Reg.OCM_BANK_SWEEP code, 0), (Reg.OCM_BANK_STATE code, 1)] fun t =>
        t.memory = s.memory) ∧
    (s.bankState code = 2 → s.memory.flips = [] → s.fld (Reg.OCM_BANK_LOST code) = 0 → ¬ (0x40 ≤ code ∧ code ≤ 0x57) →
      Does (.bankWakeComplete code false true) s [.memory, .bytes]
        [(Reg.OCM_BANK_SWEEP code, 1), (Reg.OCM_BANK_STATE code, 1), (Reg.OCM_BANK_LOST code, 1), (Reg.OCM_EVENT_LOST, 1),
          plus s Reg.OCM_STATUS_LOST_COUNT 1] fun t =>
        klook code t.memory.bankDue = some (s.turn + bankSize code / (128 * 2048)) ∧
          ∀ x, memGet x t.memory.bytes = if b ≤ x ∧ x < b + bankSize code then 0 else memGet x s.memory.bytes)))

/-- BANK_LOST_CLEAR, BANK_OWNER_WRITE, BANK_REDIRECT_WRITE, BANK_DISABLE, COLUMN_REPAIR and COLUMN_REPAIR_DONE (R356, R362, R364,
R365, R373): each setup write that reaches its bank and meets its conditions changes that one field; OWNER takes only the
owner's or the rider's write of a bank that is ON with REQ ON; retiring a bank is recorded in the ledger, and a TCM's core is removed. A repair burns one
fuse: it starts while none runs, and ends with RESULT 1 and one spare fewer, 2 where no spare is left, or 3 where the fuse
fails. What the rules
leave open in these points is the model's own (assumption log 11). -/
def Obligations.BankRegistersAndRepairs : Prop :=
  (∀ (s : State) (client code v : Nat), bankExists code = true → reaches s client (Reg.OCM_BANK code) →
    (s.fld (Reg.OCM_BANK_LOST code) = 1 →
      Does (.bankLostClear client code) s [.idle]
        [(Reg.OCM_BANK_LOST code, 0), (Reg.OCM_STATUS_LOST_COUNT, s.fld Reg.OCM_STATUS_LOST_COUNT - 1)] fun _ => True) ∧
    (client = s.fld (Reg.OCM_BANK_OWNER code) ∨ client = 0x60 → s.bankState code = 1 → s.fld (Reg.OCM_BANK_REQ code) = 1 →
      Does (.bankOwnerWrite client code v) s [.idle] [(Reg.OCM_BANK_OWNER code, v)] fun _ => True) ∧
    (client ≠ s.fld (Reg.OCM_BANK_OWNER code) → client ≠ 0x60 → v < 2 ^ 10 →
      Does (.bankOwnerWrite client code v) s [.idle, .log] [] fun t =>
        logged s t 0x0901 0 client (Reg.OCM_BANK code + v * 1024 * 2 ^ 32)) ∧
    (v = 0xFF ∨ (v < 0x20 ∧ s.bankState v = 1 ∧ ∀ c, bankExists c = true → s.fld (Reg.OCM_BANK_REDIRECT c) ≠ v) →
      Does (.bankRedirectWrite client code v) s [.idle] [(Reg.OCM_BANK_REDIRECT code, v)] fun _ => True) ∧
    (s.fld (Reg.OCM_BANK_DISABLE code) = 0 → code < 0x80 →
      Does (.bankDisable client code) s [.idle, .memory, .nv, .log]
        [(Reg.OCM_BANK_DISABLE code, 1), (Reg.OCM_BANK_STATE code, 3), (Reg.OCM_BANK_SWEEP code, 0), (Reg.OCM_EVENT_DISABLED, 1),
          plus s Reg.OCM_STATUS_DISABLED_COUNT 1] fun t =>
        (∃ r, t.nv.ledger = r :: s.nv.ledger ∧ r.turn = s.turn ∧ r.kind = 8 ∧ r.trigger = 0x0B ∧ r.id = code) ∧
          (0x40 ≤ code → code - 0x40 ∈ t.memory.coresHeld))) ∧
  (∀ (s : State) (client code column : Nat),
    (reaches s client Reg.OCM_REPAIR → s.fld Reg.OCM_REPAIR_STATUS_BUSY = 0 →
      Does (.columnRepair client code column) s [.idle, .memory]
        [(Reg.OCM_REPAIR_BANK, code), (Reg.OCM_REPAIR_COLUMN, column), (Reg.OCM_REPAIR_GO, 1), (Reg.OCM_REPAIR_STATUS_BUSY, 1),
          (Reg.OCM_REPAIR_STATUS_RESULT, 0)] fun t => t.memory.burn = some ⟨code, column⟩) ∧
    (reaches s client Reg.OCM_REPAIR → s.fld Reg.OCM_REPAIR_STATUS_BUSY = 1 →
      Does (.columnRepair client code column) s [.idle] [] fun _ => True) ∧
    (∀ (b : ColumnBurn) (ok : Bool), s.memory.burn = some b →
      Does (.columnRepairDone ok) s [.memory]
        [(Reg.OCM_REPAIR_GO, 0), (Reg.OCM_REPAIR_STATUS_BUSY, 0),
          (Reg.OCM_REPAIR_STATUS_RESULT, if s.fld (Reg.OCM_BANK_SPARES b.bank) = 0 then 2 else if ok then 1 else 3),
          (Reg.OCM_EVENT_REPAIR_DONE, 1), (Reg.OCM_BANK_SPARES b.bank, s.fld (Reg.OCM_BANK_SPARES b.bank) - 1)] fun t =>
        t.memory.burn = none ∧
          ((b.bank, b.column) ∈ t.memory.repaired ↔
            (b.bank, b.column) ∈ s.memory.repaired ∨ (s.fld (Reg.OCM_BANK_SPARES b.bank) ≠ 0 ∧ ok = true))))

/-- OCM_FLIPMASK_ARM, DMC_FLIPMASK_ARM and FLIP_MASK_TAKEN (R303–R305): outside Spill the three words load the mask and ARMED, and an
arming is logged; in Spill they load the mask and nothing is armed; a write that hits an armed mask stores the word with that mask and disarms
it. What the rules
leave open in these points is the model's own (assumption log 12). -/
def Obligations.FlipMasksArmAndApply : Prop :=
  ∀ (s : State) (client addr : Nat) (w0 w1 w2 : Word) (ch : Fin 12),
    (reaches s client Reg.OCM_FLIPMASK2 → s.power.mode ≠ .spill → bitsOf w2 31 1 = 1 → bitsOf w2 26 5 = 0 →
      Does (.ocmFlipmaskArm client w0 w1 w2) s [.idle, .log, .edgeRegs]
        [(Reg.OCM_FLIPMASK0_DATA_LO, w0.toNat), (Reg.OCM_FLIPMASK1_DATA_HI, w1.toNat), (Reg.OCM_FLIPMASK2_CHECK, bitsOf w2 0 8),
          (Reg.OCM_FLIPMASK2_MEM_SEL, bitsOf w2 8 8), (Reg.OCM_FLIPMASK2_CLIENT, bitsOf w2 16 10), (Reg.OCM_FLIPMASK2_ARMED, 1)] fun t =>
        logged s t 0x0A01 0 client w2.toNat) ∧
    (reaches s client Reg.OCM_FLIPMASK2 → s.power.mode = .spill → bitsOf w2 26 5 = 0 →
      Does (.ocmFlipmaskArm client w0 w1 w2) s [.idle, .edgeRegs]
        [(Reg.OCM_FLIPMASK0_DATA_LO, w0.toNat), (Reg.OCM_FLIPMASK1_DATA_HI, w1.toNat), (Reg.OCM_FLIPMASK2_CHECK, bitsOf w2 0 8),
          (Reg.OCM_FLIPMASK2_MEM_SEL, bitsOf w2 8 8), (Reg.OCM_FLIPMASK2_CLIENT, bitsOf w2 16 10), (Reg.OCM_FLIPMASK2_ARMED, 0)]
        fun _ => True) ∧
    (reaches s client (Reg.DMC_FLIPMASK2 ch) → s.power.mode ≠ .spill → bitsOf w2 31 1 = 1 → bitsOf w2 30 1 = 0 →
      Does (.dmcFlipmaskArm client ch w0 w1 w2) s [.idle, .log, .edgeRegs]
        [(Reg.DMC_FLIPMASK0_DATA_LO ch, w0.toNat), (Reg.DMC_FLIPMASK1_DATA_HI ch, w1.toNat), (Reg.DMC_FLIPMASK2_CHECK ch, bitsOf w2 0 8),
          (Reg.DMC_FLIPMASK2_ASC ch, bitsOf w2 8 8), (Reg.DMC_FLIPMASK2_WORD ch, bitsOf w2 16 3), (Reg.DMC_FLIPMASK2_SUBCH ch, bitsOf w2 19 1),
          (Reg.DMC_FLIPMASK2_CLIENT ch, bitsOf w2 20 10), (Reg.DMC_FLIPMASK2_ARMED ch, 1)] fun t =>
        logged s t 0x0A01 0 client w2.toNat) ∧
    (s.ocmMaskHits client (s.storage addr) = true →
      Does (.flipMaskTaken none client addr) s [.memory] [(Reg.OCM_FLIPMASK2_ARMED, 0), (Reg.ERC_EVENT_FLIP_USED, 1)] fun t =>
        klook (s.storage addr / 8 * 8) t.memory.flips = some s.ocmMask ∧
          ∀ w, w ≠ s.storage addr / 8 * 8 → klook w t.memory.flips = klook w s.memory.flips) ∧
    (s.dmcMaskHits client (s.storage addr) = true → (s.sliceOf ((s.storage addr - dramBase) / 4096)).1 = ch.val →
      Does (.flipMaskTaken (some ch) client addr) s [.memory] [(Reg.DMC_FLIPMASK2_ARMED ch, 0), (Reg.ERC_EVENT_FLIP_USED, 1)] fun t =>
        klook (s.storage addr / 8 * 8) t.memory.flips = some (s.dmcMask ch))

/-- ATOMIC_MEMORY_OPERATION, LOAD_RESERVED and STORE_CONDITIONAL (R359) on a ready, clean word with no armed mask: an atomic answers the old
value and the word holds the operation's result, in D form on the whole word and in W form on the addressed half, with the old half
sign-extended; LR answers the word, or the half sign-extended, and reserves its aligned 64 B granule for the core; SC stores and
answers 0 while that reservation stands, and answers 1 and stores nothing otherwise; either way the core holds none after it. No
other byte changes. -/
def Obligations.AtomicsAndReservations : Prop :=
  (∀ (s : State) (core : Fin 24) (op : AmoOp) (addr : Nat) (v : BitVec 64),
    takesAtomics (s.resolve core addr) = true → ready s (s.resolve core addr) → noMask s →
    s.checkWord (s.storage (s.resolve core addr)) = .clean →
    (addr % 8 = 0 →
      Does (.atomicMemoryOperation core op true addr v) s [.idle, .answer, .bytes, .memory] [] fun t =>
        t.answer = some (.value core (wordAt s (s.storage (s.resolve core addr)))) ∧
          wordAt t (s.storage (s.resolve core addr)) =
            (amoSpec op (BitVec.ofNat 64 (wordAt s (s.storage (s.resolve core addr)))) v).toNat ∧
          otherBytesSame (s.storage (s.resolve core addr)) s t) ∧
    (addr % 4 = 0 →
      Does (.atomicMemoryOperation core op false addr v) s [.idle, .answer, .bytes, .memory] [] fun t =>
        let h := addr % 8 / 4 * 32
        let old := BitVec.ofNat 32 (wordAt s (s.storage (s.resolve core addr)) / 2 ^ h)
        t.answer = some (.value core (old.signExtend 64).toNat) ∧
          wordAt t (s.storage (s.resolve core addr)) / 2 ^ h % 2 ^ 32 = (amoSpec op old (v.truncate 32)).toNat ∧
          wordAt t (s.storage (s.resolve core addr)) / 2 ^ (32 - h) % 2 ^ 32 = wordAt s (s.storage (s.resolve core addr)) / 2 ^ (32 - h) % 2 ^ 32 ∧
          otherBytesSame (s.storage (s.resolve core addr)) s t) ∧
    (addr % 8 ≠ 0 → Does (.atomicMemoryOperation core op true addr v) s [.answer] [] fun t => t.answer = some (.storeFault core addr))) ∧
  (∀ (s : State) (core : Fin 24) (double : Bool) (addr : Nat) (v : BitVec 64),
    takesAtomics (s.resolve core addr) = true → ready s (s.resolve core addr) → noMask s →
    s.checkWord (s.storage (s.resolve core addr)) = .clean → addr % (if double then 8 else 4) = 0 →
    let a := s.storage (s.resolve core addr)
    let h := addr % 8 / 4 * 32
    (Does (.loadReserved core double addr) s [.idle, .answer, .memory] [] fun t =>
      t.answer = some (.value core (if double then wordAt s a else ((BitVec.ofNat 32 (wordAt s a / 2 ^ h)).signExtend 64).toNat)) ∧
        (core.val, a / 64) ∈ t.memory.reserved ∧ ∀ g, (core.val, g) ∈ t.memory.reserved → g = a / 64) ∧
    ((core.val, a / 64) ∈ s.memory.reserved →
      Does (.storeConditional core double addr v) s [.idle, .answer, .bytes, .memory] [] fun t =>
        t.answer = some (.value core 0) ∧ (double = true → wordAt t a = v.toNat) ∧
          (double = false → wordAt t a / 2 ^ h % 2 ^ 32 = v.toNat % 2 ^ 32 ∧
            wordAt t a / 2 ^ (32 - h) % 2 ^ 32 = wordAt s a / 2 ^ (32 - h) % 2 ^ 32) ∧
          otherBytesSame a s t ∧ (∀ g, (core.val, g) ∉ t.memory.reserved) ∧ ∀ c, (c, a / 64) ∉ t.memory.reserved) ∧
    ((core.val, a / 64) ∉ s.memory.reserved →
      Does (.storeConditional core double addr v) s [.idle, .answer, .memory] [] fun t =>
        t.answer = some (.value core 1) ∧ ∀ g, (core.val, g) ∉ t.memory.reserved))

/-- BIT_SET_ALIAS_WRITE, BIT_CLEAR_ALIAS_WRITE and MAILBOX_COLLISION (R302, R343, R358, R359) on a ready, clean word with no armed mask: the
word becomes w OR v, or w AND NOT v, in the enabled bytes; every other byte stands, and other clients lose their reservations of
the granule; a store merges by its byte enables. Two mailbox ports at one word: it takes the value of the outcome table, a write
against a write is counted in OCM.MBX_COLLIDE, a port that reads is answered, and no other byte changes. What the rules
leave open in these points is the model's own (assumption log 31). -/
def Obligations.AliasAndMailboxWrites : Prop :=
  ((∀ (s : State) (client addr : Nat) (v : BitVec 64) (be : BitVec 8),
    hasAliases addr = true → ready s addr → noMask s → s.checkWord (s.storage addr) = .clean →
    (aliasOf addr = 1 →
      Does (.bitSetAliasWrite client addr v be) s [.idle, .bytes, .memory] [] fun t =>
        wordAt t (s.storage addr) = wordAt s (s.storage addr) ||| (v.toNat &&& beMask be.toNat) ∧
          otherBytesSame (s.storage addr) s t ∧ ∀ c, c ≠ client → (c, s.storage addr / 64) ∉ t.memory.reserved) ∧
    (aliasOf addr = 2 →
      Does (.bitClearAliasWrite client addr v be) s [.idle, .bytes, .memory] [] fun t =>
        (BitVec.ofNat 64 (wordAt t (s.storage addr)) =
          BitVec.ofNat 64 (wordAt s (s.storage addr)) &&& ~~~ (BitVec.ofNat 64 (v.toNat &&& beMask be.toNat))) ∧
          otherBytesSame (s.storage addr) s t)) ∧
  (∀ (old new be j : Nat), j < 8 →
    mergeWord 8 old new be / 256 ^ j % 256 = (if be / 2 ^ j % 2 = 1 then new / 256 ^ j % 256 else old / 256 ^ j % 256))) ∧
  ((∀ (w : Nat) (d1 d2 : BitVec 64) (b1 b2 : BitVec 8), w < 2 ^ 64 →
    mbxResolve w .read .read = (w, w, w) ∧
    mbxResolve w .read (.write d2 b2) = (mergeWord 8 w d2.toNat b2.toNat, w, w) ∧
    mbxResolve w (.write d1 b1) .read = (mergeWord 8 w d1.toNat b1.toNat, w, w) ∧
    (∀ j, j < 8 → (mbxResolve w (.write d1 b1) (.write d2 b2)).1 / 256 ^ j % 256 =
      (if b2.toNat / 2 ^ j % 2 = 1 then d2.toNat / 256 ^ j % 256 else if b1.toNat / 2 ^ j % 2 = 1 then d1.toNat / 256 ^ j % 256
        else w / 256 ^ j % 256)) ∧
    mbxResolve w .read (.setBits d2) = (w ||| d2.toNat, w ||| d2.toNat, w) ∧
    mbxResolve w (.write d1 b1) (.setBits d2) = (mergeWord 8 (w ||| d2.toNat) d1.toNat b1.toNat, w ||| d2.toNat, w) ∧
    mbxResolve w (.setBits d1) .read = (w ||| d1.toNat, w, w ||| d1.toNat) ∧
    mbxResolve w (.setBits d1) (.clearBits d2) = ((w &&& (2 ^ 64 - 1 - d2.toNat)) ||| d1.toNat, w, w) ∧
    mbxResolve w (.clearBits d1) (.setBits d2) = ((w ||| d2.toNat) &&& (2 ^ 64 - 1 - d1.toNat), w, w)) ∧
  (∀ (s : State) (addr : Nat) (r c : MbxAccess), bankOf addr = some 0x20 → ready s addr → noMask s →
    s.checkWord (s.storage addr) = .clean →
    Does (.mailboxCollision addr r c) s [.idle, .answer, .bytes, .memory]
      (if isPlainWrite r = true ∧ isPlainWrite c = true then [plus s Reg.OCM_MBX_COLLIDE_COUNT 1, (Reg.OCM_EVENT_MBX_COLLIDE, 1)] else []) fun t =>
      wordAt t (s.storage addr) = (mbxResolve (wordAt s (s.storage addr)) r c).1 ∧ otherBytesSame (s.storage addr) s t ∧
        (c = .read → t.answer = some (.value 0x3FE (mbxResolve (wordAt s (s.storage addr)) r c).2.2)) ∧
        (r = .read → c ≠ .read → t.answer = some (.value 0x60 (mbxResolve (wordAt s (s.storage addr)) r c).2.1))))

/-- SRAM_UNCORRECTABLE, FABRIC_PARITY_ERROR and RETIRED_DOMAIN_ACCESS (R23, R25, R300, R302, R307, R497): an uncorrectable word of an on-chip
bank answers a load, a fetch, a narrow store and a DMA access as Table 08.7 states, is counted and recorded in ERC.LAST with the
bank's code, and stays as it is; a channel buffer's word is recorded under the bank's code, and what it may change is the read
that held a read slot or the program whose data-in waits. A link's parity errors are counted and
pass FAB_LIMIT above 1,024; an access to a retired, fused or absent domain is a bus error of kind 4, counted and recorded, and a
read of it answers all ones. What the rules
leave open in these points is the model's own (assumption log 12). -/
def Obligations.ErrorsAreCountedAndReported : Prop :=
  (∀ (s : State) (code addr client : Nat),
    (∀ c, ¬ (0x80 ≤ code ∧ code ≤ 0xBF) → bankOf (s.storage addr) = some c →
      ∀ (acc : MemAccess) (x : Answer),
        (acc = .load ∧ x = .loadFault client addr) ∨ (acc = .fetch ∧ x = .fetchFault client addr) ∨
          (acc = .storeNarrow ∧ x = .storeFault client addr) ∨ (acc = .dmaRead ∧ x = .dmaError client 3) ∨
          (acc = .dmaWrite ∧ x = .dmaError client 4) →
        Does (.sramUncorrectable code addr client acc) s [.answer, .memory]
          ([plus s Reg.ERC_UE_COUNT 1, (Reg.ERC_EVENT_SRAM_UE, 1)] ++
            lastWrites s client 1 (acc == .storeNarrow || acc == .dmaWrite) c (s.storage addr)) fun t =>
          t.answer = some x ∧ t.checkWord (s.storage addr) = .uncorrectable 1) ∧
    (0x80 ≤ code → code ≤ 0xBF →
      ∀ acc, Does (.sramUncorrectable code addr client acc) s
        (if acc = .readSlot then [.sluice] else if acc = .programRegion then [.flash] else [])
        ([plus s Reg.ERC_UE_COUNT 1, (Reg.ERC_EVENT_SRAM_UE, 1)] ++ lastWrites s client 1 false code addr) fun t =>
          t.flash.dies = s.flash.dies ∧ t.sluice.bookings = s.sluice.bookings)) ∧
  (∀ (s : State) (unit link : Nat) (d : Fin 24) (client addr : Nat) (write : Bool),
    (link < 8 → (klook (unit * 8 + link) s.collector.parity).getD 0 < 1024 →
      Does (.fabricParityError unit link) s [.collector] [] fun t =>
        klook (unit * 8 + link) t.collector.parity = some ((klook (unit * 8 + link) s.collector.parity).getD 0 + 1) ∧
          ∀ k, k ≠ unit * 8 + link → klook k t.collector.parity = klook k s.collector.parity) ∧
    (link < 8 → 1024 ≤ (klook (unit * 8 + link) s.collector.parity).getD 0 →
      Does (.fabricParityError unit link) s [.collector] [(Reg.ERC_EVENT_FAB_LIMIT, 1)] fun t =>
        klook (unit * 8 + link) t.collector.parity = some ((klook (unit * 8 + link) s.collector.parity).getD 0 + 1)) ∧
    ((s.dom d).state = .retired ∨ (s.dom d).state = .fused ∨ (s.dom d).state = .absent →
      Does (.retiredDomainAccess d client addr write) s [.answer]
        ([plus s Reg.ERC_BUSERR_COUNT 1, (Reg.ERC_EVENT_BUS_ERR, 1)] ++ lastWrites s client 4 write 0 addr) fun t =>
        t.answer = if write then s.answer else some (.value client 0xFFFFFFFF)))

/-! ### DRAM channels (chapter 10) -/

/-- TRAINING_WRITE_PATTERN, TRAINING_READ_COMPARE, TRAINING_WRITE_READ_COMPARE, ZQ_CALIBRATION, TRAINING_DONE, MODE_REGISTER_WRITE and
MODE_REGISTER_READ (R344, R368): GO starts a helper while none runs, and is ignored while one does; the end of a compare gives
the error count, the failing lanes and PASS where there is none; the end of any other operation passes. A mode register takes the
data written, and a read of it gives that data in RDATA. What the rules
leave open in these points is the model's own (assumption logs 11 and 32). -/
def Obligations.TrainingAndModeRegisters : Prop :=
  (∀ (s : State) (ch : Fin 12),
    (reaches s 0x60 (Reg.DMC_TRAIN_CTRL ch) →
      let starts (op : Nat) (i : Instr) : Prop :=
        (s.fld (Reg.DMC_TRAIN_RESULT_BUSY ch) = 0 →
          Does i s [.idle]
            [(Reg.DMC_TRAIN_CTRL_OP ch, op), (Reg.DMC_TRAIN_CTRL_GO ch, 1), (Reg.DMC_TRAIN_RESULT_BUSY ch, 1),
              (Reg.DMC_TRAIN_RESULT_PASS ch, 0), (Reg.DMC_TRAIN_RESULT_ERRORS ch, 0)] fun _ => True) ∧
        (s.fld (Reg.DMC_TRAIN_RESULT_BUSY ch) = 1 → Does i s [.idle] [] fun _ => True)
      starts 0 (.trainingWritePattern ch) ∧ starts 1 (.trainingReadCompare ch) ∧ starts 2 (.trainingWriteReadCompare ch) ∧
        starts 3 (.zqCalibration ch)) ∧
    (∀ errors lanes, lanes < 2 ^ 40 → s.fld (Reg.DMC_TRAIN_RESULT_BUSY ch) = 1 →
      (s.fld (Reg.DMC_TRAIN_CTRL_OP ch) = 1 ∨ s.fld (Reg.DMC_TRAIN_CTRL_OP ch) = 2 →
        Does (.trainingDone ch errors lanes) s []
          [(Reg.DMC_TRAIN_RESULT_BUSY ch, 0), (Reg.DMC_TRAIN_CTRL_GO ch, 0), (Reg.DMC_TRAIN_RESULT_PASS ch, if lanes = 0 then 1 else 0),
            (Reg.DMC_TRAIN_RESULT_ERRORS ch, min 0xFFFF errors), (Reg.DMC_TRAIN_LANES_LO_LANES ch, lanes),
            (Reg.DMC_TRAIN_LANES_HI_LANES ch, lanes / 2 ^ 32), (Reg.DMC_EVENT_TRAIN_DONE ch, 1)] fun _ => True) ∧
      (s.fld (Reg.DMC_TRAIN_CTRL_OP ch) = 0 ∨ s.fld (Reg.DMC_TRAIN_CTRL_OP ch) = 3 →
        Does (.trainingDone ch errors lanes) s []
          [(Reg.DMC_TRAIN_RESULT_BUSY ch, 0), (Reg.DMC_TRAIN_CTRL_GO ch, 0), (Reg.DMC_TRAIN_RESULT_PASS ch, 1),
            (Reg.DMC_TRAIN_RESULT_ERRORS ch, 0), (Reg.DMC_TRAIN_LANES_LO_LANES ch, 0),
            (Reg.DMC_TRAIN_LANES_HI_LANES ch, 0), (Reg.DMC_EVENT_TRAIN_DONE ch, 1)] fun _ => True))) ∧
  (∀ (s : State) (ch : Fin 12) (mr data : Byte) (subch rank : Bool), reaches s 0x60 (Reg.DMC_MRW ch) →
    (Does (.modeRegisterWrite ch mr data subch rank) s [.idle, .memory]
        [(Reg.DMC_MRW_MR ch, mr.toNat), (Reg.DMC_MRW_DATA ch, data.toNat), (Reg.DMC_MRW_SUBCH ch, subch.toNat),
          (Reg.DMC_MRW_RANK ch, rank.toNat), (Reg.DMC_MRW_READ ch, 0), (Reg.DMC_MRW_GO ch, 0)] fun t =>
      klook (modeKey ch mr.toNat subch rank) t.memory.modeRegs = some data.toNat ∧
        ∀ k, k ≠ modeKey ch mr.toNat subch rank → klook k t.memory.modeRegs = klook k s.memory.modeRegs) ∧
    (∀ d, klook (modeKey ch mr.toNat subch rank) s.memory.modeRegs = some d →
      Does (.modeRegisterRead ch mr subch rank) s [.idle, .free]
        [(Reg.DMC_MRW_MR ch, mr.toNat), (Reg.DMC_MRW_SUBCH ch, subch.toNat), (Reg.DMC_MRW_RANK ch, rank.toNat), (Reg.DMC_MRW_READ ch, 1),
          (Reg.DMC_MRW_GO ch, 0), (Reg.DMC_MRW_RDATA ch, d)] fun _ => True) ∧
    ∃ t u, exec (.modeRegisterWrite ch mr data subch rank) s = .next t ∧ exec (.modeRegisterRead ch mr subch rank) t = .next u ∧
      u.fld (Reg.DMC_MRW_RDATA ch) = data.toNat)

/-- ZERO_FILL, FILL_DONE, HAMMER_WINDOW_EXPIRY and DRAM_REFRESH (R345, R349, R350): a fill starts, and at its end every byte on the channel
reads 0, with no flipped word; a window's end clears the channel's row counts and throttles; a refresh keeps
the contents and takes the devices' temperature report. What the rules
leave open in these points is the model's own (assumption logs 122 and 137). -/
def Obligations.FillsWindowsAndRefreshes : Prop :=
  ∀ (s : State) (ch : Fin 12) (hot : Bool),
    (reaches s 0x60 (Reg.DMC_FILL ch) →
      Does (.zeroFill ch) s [.idle] [(Reg.DMC_FILL_GO ch, 1), (Reg.DMC_FILL_DONE ch, 0), (Reg.DMC_STATUS_STATE ch, 2)] fun _ => True) ∧
    (s.fld (Reg.DMC_FILL_GO ch) = 1 →
      Does (.fillDone ch) s [.bytes, .memory]
        [(Reg.DMC_FILL_GO ch, 0), (Reg.DMC_FILL_DONE ch, 1), (Reg.DMC_EVENT_FILL_DONE ch, 1)] fun t =>
        (∀ x, memGet x t.memory.bytes = if s.onChannel ch x then 0 else memGet x s.memory.bytes) ∧
          ∀ w, klook w t.memory.flips = if s.onChannel ch w then none else klook w s.memory.flips) ∧
    (s.fld (Reg.DMC_FILL_GO ch) = 0 → exec (.fillDone ch) s = .next s) ∧
    (s.turn < (klook ch.val s.memory.windows).getD 0 + 31250 → exec (.hammerWindowExpiry ch) s = .next s) ∧
    ((klook ch.val s.memory.windows).getD 0 + 31250 ≤ s.turn → Does (.hammerWindowExpiry ch) s [.memory] [] fun t =>
      (∀ r ∈ t.memory.rows, r.ch ≠ ch.val) ∧ (∀ r ∈ s.memory.rows, r.ch ≠ ch.val → r ∈ t.memory.rows) ∧
        klook ch t.memory.windows = some s.turn) ∧
    (s.memory.hot.count ch.val ≤ 1 → Does (.dramRefresh ch hot) s [.memory] [] fun t =>
      (ch.val ∈ t.memory.hot ↔ hot = true) ∧ ∀ c, c ≠ ch.val → (c ∈ t.memory.hot ↔ c ∈ s.memory.hot))

/-- DRAM_UNCORRECTABLE, SCRUB_UNCORRECTABLE and REMAP_COPY_COMPLETE (R300, R351, R352): the first uncorrectable error in a block is
counted and recorded, and remaps the block to a free block of the reserve on another slice; the scrubber's find does the
same; the copy ends with no other remap changed and the flips of other blocks' words as they were. What the rules
leave open in these points is the model's own (assumption log 11). -/
def Obligations.UncorrectableBlocksAreRemapped : Prop :=
  (∀ (s : State) (block client target : Nat), block < 2 ^ 28 → (∀ r ∈ s.memory.remaps, r.block ≠ block) →
    s.remapTarget block = some target → s.fld (Reg.DMC_REMAP_USED (s.sliceOf block).1) < 4096 → (s.sliceOf block).1 < 12 →
    (Completes (.dramUncorrectable block client) s fun t =>
      t.memory.remaps = s.memory.remaps ++ [⟨block, target, true, []⟩] ∧ s.sliceOf target ≠ s.sliceOf block ∧
        t.fld (Reg.DMC_EVENT_UE_REMAP (s.sliceOf block).1) = 1 ∧ t.fld Reg.ERC_EVENT_DRAM_UE = 1 ∧
        t.fld (Reg.DMC_REMAP_USED (s.sliceOf block).1) = s.fld (Reg.DMC_REMAP_USED (s.sliceOf block).1) + 1 ∧
        t.memory.bytes = s.memory.bytes ∧ t.host = s.host ∧ t.galley = s.galley) ∧
    (∀ ch : Fin 12, s.fld (Reg.DMC_SCRUB_ENABLE ch) = 1 → (s.sliceOf block).1 = ch.val →
      Completes (.scrubUncorrectable ch block) s fun t =>
        t.memory.remaps = s.memory.remaps ++ [⟨block, target, true, []⟩] ∧ t.fld (Reg.DMC_EVENT_UE_REMAP ch) = 1)) ∧
  (∀ (s : State) (r : Remap), r ∈ s.memory.remaps → r.copying = true →
    Does (.remapCopyComplete r.block) s [.memory] [] fun t =>
      (∀ q ∈ t.memory.remaps, q.block = r.block → q.copying = false) ∧
        (∀ q ∈ s.memory.remaps, q.block ≠ r.block → q ∈ t.memory.remaps) ∧
        ∀ f ∈ s.memory.flips, f.1 < dramBase + r.block * 4096 ∨ dramBase + r.block * 4096 + 4096 ≤ f.1 → f ∈ t.memory.flips)


/-! ### Firmware DMA (chapter 11) -/

/-- DMA_RING_TAIL_WRITE, DMA_ENABLE_WRITE, DMA_RESUME, DMA_ABORT, DMA_BURST and DMA_REQUEST_WITHDRAWN (R375, R378, R382, R385–R388, R392):
the owner's write of TAIL takes effect where it does not pass HEAD, ENABLE takes the written bit, RESUME takes a halted channel
out of the halted state, and another client's write changes nothing and is logged. A burst of a paced descriptor starts while its
request line is asserted, once what it reaches is awake; a line that falls after it is recorded as dropped; an abort between bursts ends the descriptor as ABORTED with what
is left as RESIDUE and halts the channel; one in a burst waits for the burst's end, and in the last burst is late. What the rules
leave open in these points is the model's own (assumption log 29). -/
def Obligations.DmaRingsBurstsAndAborts : Prop :=
  (∀ (s : State) (client tail : Nat) (ch : Fin 32) (enable : Bool),
    (client = s.fld (Reg.DMA_ASSIGN_OWNER ch) →
      (reaches s client (Reg.DMA_RING_PTR ch) →
        (let n := s.dmaRing ch
         let h := s.fld (Reg.DMA_RING_PTR_HEAD ch)
         ((tail < n ∧ (s.fld (Reg.DMA_RING_PTR_TAIL ch) + n - h) % n ≤ (tail + n - h) % n →
          Does (.dmaRingTailWrite client ch tail) s [.idle] [(Reg.DMA_RING_PTR_TAIL ch, tail)] fun _ => True) ∧
         (tail < 2 ^ 32 → n ≤ tail ∨ (tail + n - h) % n < (s.fld (Reg.DMA_RING_PTR_TAIL ch) + n - h) % n →
          Does (.dmaRingTailWrite client ch tail) s [.idle, .log] [] fun t =>
            logged s t 0x0901 0 client (Reg.DMA_RING_PTR ch + tail * 2 ^ 32))))) ∧
      (reaches s client (Reg.DMA_CTRL ch) →
        Does (.dmaEnableWrite client ch enable) s [.idle] [(Reg.DMA_CTRL_ENABLE ch, enable.toNat)] (fun _ => True) ∧
        (s.fld (Reg.DMA_STATUS_STATE ch) = 3 →
          Does (.dmaResume client ch) s [.idle] [(Reg.DMA_STATUS_STATE ch, 0)] fun _ => True) ∧
        (s.fld (Reg.DMA_STATUS_STATE ch) ≠ 3 → Does (.dmaResume client ch) s [.idle] [] fun _ => True))) ∧
    (client ≠ s.fld (Reg.DMA_ASSIGN_OWNER ch) → reaches s client (Reg.DMA_CTRL ch) →
      (∀ i v, (i = Instr.dmaEnableWrite client ch enable ∧ v = enable.toNat) ∨ (i = .dmaAbort client ch ∧ v = 2) ∨
          (i = .dmaResume client ch ∧ v = 4) →
        Does i s [.idle, .log] [] fun t => logged s t 0x0901 0 client (Reg.DMA_CTRL ch + v * 2 ^ 32)) ∧
      (tail < 2 ^ 32 → Does (.dmaRingTailWrite client ch tail) s [.idle, .log] [] fun t =>
        logged s t 0x0901 0 client (Reg.DMA_RING_PTR ch + tail * 2 ^ 32)))) ∧
  (∀ (s : State) (client : Nat) (ch : Fin 32) (j : DmaJob), s.dma[ch].job = some j →
    (client = s.fld (Reg.DMA_ASSIGN_OWNER ch) → reaches s client (Reg.DMA_CTRL ch) →
      (j.inFlight = false → j.late = false → noMask s →
        Changes (.dmaAbort client ch) s [.idle, .doms, .bytes, .memory, .dma]
          [Reg.DMA_RING_PTR ch, Reg.DMA_RESIDUE ch, Reg.DMA_STATUS ch, Reg.DMA_CTRL ch, Reg.DMA_INT_STATUS ch] fun t =>
          t.dma[ch].job = none ∧ t.fld (Reg.DMA_STATUS_STATE ch) = 3 ∧ t.fld (Reg.DMA_STATUS_CODE ch) = 0 ∧
            t.fld (Reg.DMA_RESIDUE_BYTES ch) = (j.desc.count - j.moved) % 2 ^ 32 ∧ t.fld (Reg.DMA_INT_STATUS_ABORTED ch) = 1 ∧
            (t.dom 22).votes = (s.dom 22).votes.erase (0x40 + ch.val) ∧
            t.fld (Reg.DMA_RING_PTR_HEAD ch) = (s.fld (Reg.DMA_RING_PTR_HEAD ch) + 1) % s.dmaRing ch) ∧
      (j.inFlight = true → j.moved + j.desc.burstFrom j.moved = j.desc.count →
        Does (.dmaAbort client ch) s [.idle, .dma] [(Reg.DMA_CTRL_ABORT ch, 0)] fun t =>
          t.dma[ch].job = some { j with late := true } ∧ ∀ c : Fin 32, c ≠ ch → t.dma[c] = s.dma[c]) ∧
      (j.inFlight = true → j.moved + j.desc.burstFrom j.moved ≠ j.desc.count →
        Does (.dmaAbort client ch) s [.idle, .dma] [(Reg.DMA_CTRL_ABORT ch, 0)] fun t =>
          t.dma[ch].job = some { j with abort := true } ∧ ∀ c : Fin 32, c ≠ ch → t.dma[c] = s.dma[c])) ∧
    (s.lineAsserted ch j.desc.burst = false → exec (.dmaBurst ch 0) s = .next s) ∧
    (j.inFlight = false → s.power.mode ≠ .spill → s.lineAsserted ch j.desc.burst = true → sidesOpen s j.desc →
      Does (.dmaBurst ch 0) s [.idle, .dma] [(Reg.DMA_STATUS_STATE ch, 1), (Reg.DMA_STATUS_LINE ch, 1)] fun t =>
        t.dma[ch].job = some { j with inFlight := true, err := 0 } ∧ ∀ c : Fin 32, c ≠ ch → t.dma[c] = s.dma[c]) ∧
    (j.inFlight = true → Does (.dmaRequestWithdrawn ch) s [.dma] [(Reg.DMA_STATUS_LINE ch, 0)] fun t =>
      t.dma[ch].job = some { j with dropped := true } ∧ ∀ c : Fin 32, c ≠ ch → t.dma[c] = s.dma[c]))

/-- DMA_DESCRIPTOR (R378, R380–R383, R390): a channel that may fetch takes the descriptor at HEAD. One that fails a check ends with that
check's CODE, halts the channel and moves nothing; a paced one waits for its request line; an unpaced copy of clean local
memory with no reordering leaves at the destination the bytes the source held before it, also where the two overlap, and
ends as DONE. A channel that may not fetch does nothing. What the rules
leave open in these points is the model's own (assumption log 29). -/
def Obligations.DmaDescriptorsRun : Prop :=
  ∀ (s : State) (ch : Fin 32) (d : Desc) (hostErr : Option Nat),
    (s.dmaMayFetch ch = false → exec (.dmaDescriptor ch hostErr) s = .next s) ∧
    (s.dmaMayFetch ch = true → (s.dom 22).state = .on → noMask s → memOpen s (s.dmaSlot ch (s.fld (Reg.DMA_RING_PTR_HEAD ch))) →
      s.readDesc (s.dmaSlot ch (s.fld (Reg.DMA_RING_PTR_HEAD ch))) = some d →
      let slot := s.dmaSlot ch (s.fld (Reg.DMA_RING_PTR_HEAD ch))
      let ended (t : State) : Prop := t.dma[ch].job = none ∧
        t.fld (Reg.DMA_RING_PTR_HEAD ch) = (s.fld (Reg.DMA_RING_PTR_HEAD ch) + 1) % s.dmaRing ch
      (s.dmaValidate ch d ≠ 0 →
        Changes (.dmaDescriptor ch hostErr) s [.idle, .doms, .bytes, .memory, .dma]
          [Reg.DMA_RING_PTR ch, Reg.DMA_RESIDUE ch, Reg.DMA_STATUS ch, Reg.DMA_CTRL ch, Reg.DMA_INT_STATUS ch] fun t =>
          ended t ∧ t.fld (Reg.DMA_STATUS_CODE ch) = s.dmaValidate ch d ∧ t.fld (Reg.DMA_STATUS_STATE ch) = 3 ∧
            t.fld (Reg.DMA_RESIDUE_BYTES ch) = d.count % 2 ^ 32 ∧ t.fld (Reg.DMA_INT_STATUS_ERROR ch) = 1 ∧
            ∀ x, (x < s.storage (slot + 24) ∨ s.storage (slot + 24) + 8 ≤ x) →
              memGet x t.memory.bytes = memGet x s.memory.bytes) ∧
      (s.dmaValidate ch d = 0 → d.req = true →
        Does (.dmaDescriptor ch hostErr) s [.idle, .doms, .dma] [(Reg.DMA_STATUS_STATE ch, 2), (Reg.DMA_RESIDUE_BYTES ch, d.count)] fun t =>
          t.dma[ch].job = some { desc := d }) ∧
      (s.dmaValidate ch d = 0 → d.req = false → d.swap = 0 → d.srcSpace = 0 → d.dstSpace = 0 → d.srcFix = false → d.dstFix = false →
        sidesOpen s d → inSetup 0 d.src = false → inSetup 0 d.dst = false →
        inStore d.src = false →
        (∀ x, (d.src / 8 * 8 ≤ x ∧ x < d.src + d.count) ∨ (d.dst / 8 * 8 ≤ x ∧ x < d.dst + d.count) →
          s.storage x = x ∧ aliasOf x = 0 ∧ s.checkWord x = .clean ∧ s.sideDead 0 x = false) →
        (∀ x, d.dst ≤ x → x < d.dst + d.count → x < s.storage (slot + 24) ∨ s.storage (slot + 24) + 8 ≤ x) →
        Changes (.dmaDescriptor ch hostErr) s [.idle, .doms, .bytes, .memory, .dma]
          [Reg.DMA_RING_PTR ch, Reg.DMA_RESIDUE ch, Reg.DMA_STATUS ch, Reg.DMA_CTRL ch, Reg.DMA_INT_STATUS ch, Reg.DMA_BYTES ch] fun t =>
          ended t ∧ t.fld (Reg.DMA_STATUS_CODE ch) = 0 ∧ t.fld (Reg.DMA_STATUS_STATE ch) = 0 ∧ t.fld (Reg.DMA_RESIDUE_BYTES ch) = 0 ∧
            ∀ k, k < d.count → memGet (d.dst + k) t.memory.bytes = memGet (d.src + k) s.memory.bytes))

/-! ### Firmware store (chapter 12) -/

/-- FWS_SEQUENCE_WRITE and FWS_SEQUENCE_TIMEOUT (R402, R426): the two keys, a known opcode and an address open the sequence for
the client that writes them; any other value or order, or the time-out, sets ERR_SEQ and locks the interface; a write by
a second client, or by one that may not write, is ignored and logged; one that sets reserved bits acts by its field and is logged
(R425, R492). What the rules leave open in these points is the model's own (assumption logs 12 and 146). -/
def Obligations.StoreSequenceOpensAndLocks : Prop :=
  ∀ (s : State) (client : Nat) (r : FwsReg) (v : Word),
    (reaches s client (fwsRegAddr r) →
      (storeWriter client = true → client < 2 ^ 10 → fwsField r v = v.toNat →
        (s.fld Reg.FWS_STATUS_SEQ_STATE = 0 →
          (r = .key → v = 0xC3 → Does (.fwsSequenceWrite client r v) s [.idle]
            [(Reg.FWS_STATUS_SEQ_STATE, 1), (Reg.FWS_STATUS_HOLDER, client)] fun _ => True) ∧
          (r ≠ .key ∨ v ≠ 0xC3 → Does (.fwsSequenceWrite client r v) s [.idle]
            [(Reg.FWS_STATUS_SEQ_STATE, 0), (Reg.FWS_STATUS_ERR_SEQ, 1), (Reg.FWS_EVENT_ERR, 1)] fun _ => True)) ∧
        (s.fld Reg.FWS_STATUS_HOLDER = client →
          (s.fld Reg.FWS_STATUS_SEQ_STATE = 1 → r = .key → v = 0x5A →
            Does (.fwsSequenceWrite client r v) s [.idle] [(Reg.FWS_STATUS_SEQ_STATE, 2)] fun _ => True) ∧
          (s.fld Reg.FWS_STATUS_SEQ_STATE = 2 → r = .cmd → fwsOpcode v.toNat = true →
            Does (.fwsSequenceWrite client r v) s [.idle] [(Reg.FWS_CMD_OPCODE, v.toNat), (Reg.FWS_STATUS_SEQ_STATE, 3)] fun _ => True) ∧
          (s.fld Reg.FWS_STATUS_SEQ_STATE = 3 → r = .addr →
            Does (.fwsSequenceWrite client r v) s [.idle] [(Reg.FWS_ADDR_ADDR, v.toNat), (Reg.FWS_STATUS_SEQ_STATE, 4)] fun _ => True) ∧
          (s.fld Reg.FWS_STATUS_SEQ_STATE = 1 ∧ (r ≠ .key ∨ v ≠ 0x5A) ∨
              s.fld Reg.FWS_STATUS_SEQ_STATE = 2 ∧ (r ≠ .cmd ∨ fwsOpcode v.toNat = false) ∨
              s.fld Reg.FWS_STATUS_SEQ_STATE = 3 ∧ r ≠ .addr ∨ s.fld Reg.FWS_STATUS_SEQ_STATE = 4 →
            Does (.fwsSequenceWrite client r v) s [.idle]
              [(Reg.FWS_STATUS_SEQ_STATE, 0), (Reg.FWS_STATUS_ERR_SEQ, 1), (Reg.FWS_EVENT_ERR, 1)] fun _ => True))) ∧
      (storeWriter client = true → s.fld Reg.FWS_STATUS_SEQ_STATE = 0 ∨ s.fld Reg.FWS_STATUS_HOLDER = client → fwsField r v ≠ v.toNat →
        ∀ t, exec (.fwsSequenceWrite client r (BitVec.ofNat 32 (fwsField r v))) s = .next t →
          exec (.fwsSequenceWrite client r v) s = .next (t.logWrite client (fwsRegAddr r) v)) ∧
      (storeWriter client = false ∨ (s.fld Reg.FWS_STATUS_SEQ_STATE ≠ 0 ∧ s.fld Reg.FWS_STATUS_HOLDER ≠ client) →
        Does (.fwsSequenceWrite client r v) s [.idle, .log] [] fun t =>
          logged s t 0x0901 0 client (fwsRegAddr r + v.toNat * 2 ^ 32))) ∧
    (s.fld Reg.FWS_STATUS_SEQ_STATE ≠ 0 → Does .fwsSequenceTimeout s []
      [(Reg.FWS_STATUS_SEQ_STATE, 0), (Reg.FWS_STATUS_ERR_SEQ, 1), (Reg.FWS_EVENT_ERR, 1)] fun _ => True) ∧
    (s.fld Reg.FWS_STATUS_SEQ_STATE = 0 → exec .fwsSequenceTimeout s = .next s)

/-- PROGRAM_PAGE, ERASE_BLOCK, ERASE_SUSPEND, ERASE_RESUME and CLEAR_FLAG (R403–R407): with the sequence open for the command, each starts
where its row of Table 12.3 accepts it, and sets its error flag and starts nothing where it does not. A program copies PBUF
and sets the page's marker; an erase sets the block's flag cell. What the rules
leave open in these points is the model's own (assumption logs 144, 145 and 147). -/
def Obligations.StoreOperationsStart : Prop :=
  ∀ (s : State) (client addr : Nat) (data : Word), addr < 2 ^ 27 → storeWriter client = true → reaches s client Reg.FWS_DATA →
    s.fld Reg.FWS_STATUS_SEQ_STATE = 4 → s.fld Reg.FWS_STATUS_HOLDER = client → s.fld Reg.FWS_ADDR_ADDR = addr →
    s.power.mode ≠ .spill →
    let b := storeBankOf addr
    let k := s.store.banks[b]
    let others (t : State) : Prop := ∀ c : Fin 2, c ≠ b → t.store.banks[c] = s.store.banks[c]
    (s.fld Reg.FWS_CMD_OPCODE = 1 →
      (∀ f, s.programRefusal client addr data = some f →
        Does (.programPage client addr data) s [.idle] [(Reg.FWS_STATUS_SEQ_STATE, 0), (f, 1), (Reg.FWS_EVENT_ERR, 1)] fun _ => True) ∧
      (s.programRefusal client addr data = none →
        Does (.programPage client addr data) s [.idle, .store]
          ([(Reg.FWS_STATUS_SEQ_STATE, 0)] ++ (if s.fld (Reg.FWS_BANK_STATE b) = 2 then [plus s (Reg.FWS_BANK_SUSP_COUNT b) 1] else []) ++
            [(Reg.FWS_BANK_STATE b, 1), (Reg.FWS_BANK_BLOCK b, storeBlock addr % 256), (Reg.FWS_BANK_PULSES b, 0)]) fun t =>
          t.store.banks[b] = { k with prog := some ⟨storePage addr, s.pbuf⟩ } ∧ others t ∧
            t.store.markers = storePage addr :: s.store.markers ∧ t.store.pages = s.store.pages ∧ t.store.flags = s.store.flags)) ∧
    (s.fld Reg.FWS_CMD_OPCODE = 2 →
      (k.free = true → addr % 0x40000 = 0 → s.selfBank client ≠ some b.val →
        Does (.eraseBlock client addr) s [.idle, .store, .free]
          [(Reg.FWS_STATUS_SEQ_STATE, 0), (Reg.FWS_BANK_STATE b, 2), (Reg.FWS_BANK_BLOCK b, storeBlock addr % 256),
            (Reg.FWS_BANK_PULSES b, 0), (Reg.FWS_BANK_SUSP_COUNT b, 0)] fun t =>
          t.store.banks[b] = { k with erase := some (storeBlock addr), held := false } ∧ others t ∧
            storeBlock addr ∈ t.store.flags ∧ t.store.markers = s.store.markers ∧
            ∀ q, q / 512 ≠ storeBlock addr → t.store.page q = s.store.page q) ∧
      (k.free = false ∨ addr % 0x40000 ≠ 0 → Does (.eraseBlock client addr) s [.idle]
        [(Reg.FWS_STATUS_SEQ_STATE, 0), (Reg.FWS_STATUS_ERR_ADDR, 1), (Reg.FWS_EVENT_ERR, 1)] fun _ => True) ∧
      (k.free = true → addr % 0x40000 = 0 → s.selfBank client = some b.val → Does (.eraseBlock client addr) s [.idle]
        [(Reg.FWS_STATUS_SEQ_STATE, 0), (Reg.FWS_STATUS_ERR_SELFBANK, 1), (Reg.FWS_EVENT_ERR, 1)] fun _ => True)) ∧
    (s.fld Reg.FWS_CMD_OPCODE = 3 →
      (s.fld (Reg.FWS_BANK_STATE b) = 2 → Does (.eraseSuspend client addr) s [.idle, .store]
        [(Reg.FWS_STATUS_SEQ_STATE, 0), (Reg.FWS_BANK_STATE b, 4), plus s (Reg.FWS_BANK_SUSP_COUNT b) 1] fun t =>
          t.store.banks[b] = { k with held := true } ∧ others t) ∧
      (s.fld (Reg.FWS_BANK_STATE b) = 3 → Does (.eraseSuspend client addr) s [.idle, .store]
        [(Reg.FWS_STATUS_SEQ_STATE, 0), (Reg.FWS_BANK_STATE b, 4)] fun t => t.store.banks[b] = { k with held := true } ∧ others t) ∧
      (s.fld (Reg.FWS_BANK_STATE b) = 1 → k.erase.isSome = true → k.held = false → Does (.eraseSuspend client addr) s [.idle, .store]
        [(Reg.FWS_STATUS_SEQ_STATE, 0)] fun t => t.store.banks[b] = { k with held := true } ∧ others t) ∧
      (s.fld (Reg.FWS_BANK_STATE b) ≠ 2 → s.fld (Reg.FWS_BANK_STATE b) ≠ 3 →
          s.fld (Reg.FWS_BANK_STATE b) ≠ 1 ∨ k.erase = none ∨ k.held = true → Does (.eraseSuspend client addr) s [.idle]
        [(Reg.FWS_STATUS_SEQ_STATE, 0), (Reg.FWS_STATUS_ERR_ADDR, 1), (Reg.FWS_EVENT_ERR, 1)] fun _ => True)) ∧
    (s.fld Reg.FWS_CMD_OPCODE = 4 →
      (k.erase.isSome = true → k.held = true → k.prog = none → Does (.eraseResume client addr) s [.idle, .store]
        [(Reg.FWS_STATUS_SEQ_STATE, 0), (Reg.FWS_BANK_STATE b, 2), (Reg.FWS_BANK_BLOCK b, k.erase.getD 0 % 256)] fun t =>
          t.store.banks[b] = { k with held := false } ∧ others t) ∧
      (k.erase = none ∨ k.held = false ∨ k.prog.isSome = true → Does (.eraseResume client addr) s [.idle]
        [(Reg.FWS_STATUS_SEQ_STATE, 0), (Reg.FWS_STATUS_ERR_ADDR, 1), (Reg.FWS_EVENT_ERR, 1)] fun _ => True)) ∧
    (s.fld Reg.FWS_CMD_OPCODE = 5 →
      (k.free = true → storeBlock addr ∈ s.store.flags → addr % 0x40000 = 0 → Does (.clearFlag client addr) s [.idle, .store]
        [(Reg.FWS_STATUS_SEQ_STATE, 0), (Reg.FWS_BANK_STATE b, 5), (Reg.FWS_BANK_BLOCK b, storeBlock addr % 256),
          (Reg.FWS_BANK_PULSES b, 0)] fun t => t.store.banks[b] = { k with blank := some (storeBlock addr) } ∧ others t ∧
            t.store.flags = s.store.flags) ∧
      (k.free = false ∨ storeBlock addr ∉ s.store.flags ∨ addr % 0x40000 ≠ 0 → Does (.clearFlag client addr) s [.idle]
        [(Reg.FWS_STATUS_SEQ_STATE, 0), (Reg.FWS_STATUS_ERR_ADDR, 1), (Reg.FWS_EVENT_ERR, 1)] fun _ => True))

/-- FWS_OPERATION_END, FWS_ERASE_AUTO_SUSPEND, FWS_ERASE_AUTO_RESUME, XO_DATA_READ, XO_WRITE and READ_WINDOW_WRITE (R397, R399, R400, R404,
R405, R407, R428): a program that verifies turns bits of its page from 1 to 0 only, exactly those its data has as 0; an erase that
verifies leaves every page of the block reading 0xFF, and one that does not enters the block in the bad-block record; a read
suspends a running erase and counts it, and 64 turns after the last read it resumes; a fetch is recorded for its client (R406). A processor's data load from an
execute-only range faults, sets XO_READ and is logged, and one from outside the range reads the store; a write of FWS.XO
changes FIRST, LAST and EN and can set LOCK, and none once LOCK is set; no write through the read window reaches the store. What the rules
leave open in these points is the model's own (assumption logs 9, 11 and 134). -/
def Obligations.StoreOperationsEndAndRangesHold : Prop :=
  (∀ (s : State) (b : Fin 2) (pulses : Nat),
    let k := s.store.banks[b]
    let done := if b = 0 then Reg.FWS_EVENT_DONE0 else Reg.FWS_EVENT_DONE1
    (∀ p, k.prog = some p →
      Does (.fwsOperationEnd b true pulses) s [.store, .free]
        [(Reg.FWS_BANK_STATE b, afterProgram k), (Reg.FWS_BANK_PULSES b, min 16 pulses), (done, 1)] fun t =>
        (∀ j : Nat, j < (s.store.page p.page).length → j < p.data.length →
          ((t.store.page p.page).getD j 0) = (s.store.page p.page).getD j 0 &&& p.data.getD j 0) ∧
        (∀ q, q ≠ p.page → t.store.page q = s.store.page q) ∧ t.store.banks[b].prog = none ∧ t.store.flags = s.store.flags) ∧
    (∀ blk, k.prog = none → k.blank = none → k.erase = some blk → s.fld (Reg.FWS_BANK_STATE b) = 2 →
      (Does (.fwsOperationEnd b true pulses) s [.store]
        [(Reg.FWS_BANK_STATE b, 0), (Reg.FWS_BANK_PULSES b, min 32 pulses), (done, 1)] fun t =>
        (∀ q, q / 512 = blk → t.store.page q = List.replicate 512 0xFF ∧ q ∉ t.store.markers) ∧
          (∀ q, q / 512 ≠ blk → t.store.page q = s.store.page q) ∧ t.store.banks[b].erase = none ∧ t.store.flags = s.store.flags) ∧
      Does (.fwsOperationEnd b false pulses) s [.store]
        [(Reg.FWS_BANK_STATE b, 0), (Reg.FWS_BANK_PULSES b, min 32 pulses), (done, 1), (Reg.FWS_BANK_FAIL b, 1), (Reg.FWS_EVENT_FAIL, 1)]
        fun t => blk ∈ t.store.badBlocks ∧ t.store.pages = s.store.pages ∧ t.store.banks[b].erase = none ∧ t.store.flags = s.store.flags) ∧
    (∀ (client : Nat) (fetch : Bool), (s.dom 23).state = .on →
      (k.stalls = false → s.fld (Reg.FWS_BANK_STATE b) = 2 → Does (.fwsEraseAutoSuspend b client fetch) s [.idle, .store]
        [(Reg.FWS_BANK_STATE b, 3), plus s (Reg.FWS_BANK_SUSP_COUNT b) 1] fun t => t.store.banks[b] = { k with quiet := s.turn } ∧
          (fetch = true → klook client t.store.fetchBank = some b.val)) ∧
      (k.stalls = false → s.fld (Reg.FWS_BANK_STATE b) ≠ 2 → Does (.fwsEraseAutoSuspend b client fetch) s [.idle, .store] [] fun t =>
        t.store.banks[b] = { k with quiet := s.turn } ∧ (fetch = true → klook client t.store.fetchBank = some b.val)) ∧
      (k.stalls = true → Does (.fwsEraseAutoSuspend b client fetch) s [.idle, .store] [] fun t =>
        t.store.banks[b] = k ∧ (fetch = true → klook client t.store.fetchBank = some b.val))) ∧
    (s.fld (Reg.FWS_BANK_STATE b) = 3 → k.prog = none →
      (k.quiet + 64 ≤ s.turn → Does (.fwsEraseAutoResume b) s []
        [(Reg.FWS_BANK_STATE b, 2), (Reg.FWS_BANK_BLOCK b, k.erase.getD 0 % 256)] fun _ => True) ∧
      (s.turn < k.quiet + 64 → exec (.fwsEraseAutoResume b) s = .next s))) ∧
  (∀ (s : State) (client addr : Nat) (v : Word) (b : Fin 2),
    ((s.dom 23).state = .on →
      (s.inXo (addr - 0x8000000) = true → Does (.xoDataRead client addr) s [.idle, .log, .answer] [(Reg.FWS_EVENT_XO_READ, 1)] fun t =>
        t.answer = some (.loadFault client addr) ∧ logged s t (Config.uncodedEvent 7) 0 client addr) ∧
      (s.inXo (addr - 0x8000000) = false → addr % 8 = 0 → b = storeBankOf (addr - 0x8000000) →
        (s.store.banks[b].stalls = false →
          Does (.xoDataRead client addr) s [.idle, .store, .answer]
            (if s.fld (Reg.FWS_BANK_STATE b) = 2 then [(Reg.FWS_BANK_STATE b, 3), plus s (Reg.FWS_BANK_SUSP_COUNT b) 1] else []) fun t =>
            t.answer = some (.value client
              (leNat (((s.store.page ((addr - 0x8000000) / 512)).drop (addr % 512)).take 8))) ∧ t.store.pages = s.store.pages) ∧
        (s.store.banks[b].stalls = true → Does (.xoDataRead client addr) s [.idle, .store] [] fun t =>
          t.store.banks[b].waiting = s.store.banks[b].waiting ++ [.xoDataRead client addr]))) ∧
    (reaches s client (Reg.FWS_XO b) →
      (s.fld (Reg.FWS_XO_LOCK b) = 0 → v.toNat / 2 ^ 17 % 2 ^ 14 = 0 → Does (.xoWrite client b v) s [.idle, .edgeRegs]
        [(Reg.FWS_XO_FIRST b, v.toNat), (Reg.FWS_XO_LAST b, v.toNat / 2 ^ 8), (Reg.FWS_XO_EN b, v.toNat / 2 ^ 16),
          (Reg.FWS_XO_LOCK b, v.toNat / 2 ^ 31)] fun _ => True) ∧
      (s.fld (Reg.FWS_XO_LOCK b) = 1 → Does (.xoWrite client b v) s [.idle] [] fun _ => True)) ∧
    Does (.readWindowWrite client addr v) s [.log] [] fun t =>
      logged s t (Config.uncodedEvent 1) 0 client (addr + v.toNat * 2 ^ 32))


/-! ### Setup registers and interrupts (chapter 15) -/

/-- REGISTER_WRITE, DLX_NOW_WRITE, IRQ_ENABLE_WRITE, PAIR_LO_READ and RC_FIELD_READ (R255, R278, R489, R491–R493, R496, R504): an aligned
32-bit write of a register with no rule of its own changes each field as its type says, and is logged where it sets a reserved bit or
meets an RWE field, or a Boot field outside Boot and Recovery, whatever its value (R17); a reserved offset, a narrower write and a
write through BAR2 change nothing and are logged; a misaligned one is a store access fault for a processor. DLX_NOW loads the clock
in Boot and Recovery, and outside them the rider's first write after a Boot is held for the next turn edge; the enables of an
interrupt target take the target's own write and the rider's. A read of a _LO word latches its _HI word for that client; a
read by firmware clears RC fields, one by the host nothing. What the rules
leave open in these points is the model's own (assumption logs 12 and 65). -/
def Obligations.RegisterAccessesFollowTheirRules : Prop :=
  ((∀ (s : State) (client a : Nat) (v : Word) (width : Nat), a < 2 ^ 26 →
    (∀ r, a % 4 = 0 → reaches s client a → s.singleWrite client a v = none → s.arrayWrite client a v = none → regAt a = some r →
      Changes (.registerWrite client a v 4) s [.idle, .edgeRegs, .log] [a] fun t =>
        (∀ f ∈ r.fields,
          let o := bitsOf (s.word a) f.lsb f.width
          let n := bitsOf v f.lsb f.width
          bitsOf (t.word a) f.lsb f.width = match f.type with
            | .rw => n
            | .boot => if s.power.mode = .boot ∨ s.power.mode = .recovery then n else o
            | .w1c => o &&& (2 ^ f.width - 1 - n)
            | .w1s => o ||| n
            | _ => o) ∧
          (if (∃ f ∈ r.fields, f.type = .rsvd ∧ bitsOf v f.lsb f.width ≠ 0 ∨ f.type = .rwe ∨
              f.type = .boot ∧ s.power.mode ≠ .boot ∧ s.power.mode ≠ .recovery) then logged s t 0x0901 0 client (a + v.toNat * 2 ^ 32)
            else Part.log.same s t)) ∧
    (a % 4 = 0 → reaches s client a → s.singleWrite client a v = none → s.arrayWrite client a v = none → regAt a = none →
      Does (.registerWrite client a v 4) s [.idle, .log] [] fun t => logged s t 0x0901 0 client (a + v.toNat * 2 ^ 32)) ∧
    (a % 4 = 0 → viaBar2 client = false → width ≠ 4 →
      Does (.registerWrite client a v width) s [.log] [] fun t => logged s t 0x0901 0 client (a + v.toNat * 2 ^ 32)) ∧
    (viaBar2 client = true →
      Does (.registerWrite client a v width) s [.log] [] fun t => logged s t 0x0901 0 client (a + v.toNat * 2 ^ 32)) ∧
    (a % 4 ≠ 0 → isProcessor client = true → Does (.registerWrite client a v width) s [.answer] [] fun t =>
      t.answer = some (.storeFault client (0x20000000 + a)))) ∧
  (∀ (s : State) (client : Nat) (v : Word) (n : Fin 25) (w : Fin 6),
    (reaches s client Reg.LDP_DLX_NOW →
      (s.bootMode = true → Does (.dlxNowWrite client v) s [.idle] [(Reg.LDP_DLX_NOW_ROT, v.toNat)] fun _ => True) ∧
      (s.bootMode = false → client = 0x60 → s.flash.dlxTaken = false →
        Does (.dlxNowWrite client v) s [.idle, .flash] [] fun t =>
          t.flash = { s.flash with dlxTaken := true, dlxAdd := s.flash.dlxAdd + v.toNat }) ∧
      (s.bootMode = false → client ≠ 0x60 ∨ s.flash.dlxTaken = true →
        Does (.dlxNowWrite client v) s [.idle, .log] [] fun t => logged s t 0x0901 0 client (Reg.LDP_DLX_NOW + v.toNat * 2 ^ 32))) ∧
    (reaches s client (Reg.IRQ_EN n w) →
      (client = targetClient n ∨ client = 0x60 →
        Does (.irqEnableWrite client n w v) s [.idle, .edgeRegs] [(Reg.IRQ_EN_SRC n w, v.toNat)] fun _ => True) ∧
      (client ≠ targetClient n → client ≠ 0x60 →
        Does (.irqEnableWrite client n w v) s [.idle, .log] [] fun t =>
          logged s t 0x0901 0 client (Reg.IRQ_EN n w + v.toNat * 2 ^ 32))))) ∧
  (∀ (s : State) (client a : Nat), a < 2 ^ 26 → a % 4 = 0 → (s.dom (blockDomain a)).state = .on → s.barRead client a = none →
    (a ∈ pairLo →
      Changes (.pairLoRead client a) s [.idle, .collector, .answer] [] fun t =>
        t.answer = some (.value client (s.readFor client a).toNat) ∧
          ∀ u : State, u.collector = t.collector → u.readFor client (a + 4) = s.view (a + 4)) ∧
    (∀ r, a ∉ pairLo → s.popRead client a = none → regAt a = some r →
      Changes (.rcFieldRead client a) s [.idle, .answer] [a] fun t =>
        t.answer = some (.value client (s.readFor client a).toNat) ∧
          ∀ f ∈ r.fields, bitsOf (t.word a) f.lsb f.width =
            if f.type = .rc ∧ viaBar2 client = false then 0 else bitsOf (s.word a) f.lsb f.width))


/-! ### Gauges, doorbells and message ports (chapter 14) -/

/-- GAUGE_SAMPLE, GAUGE_FIFO_POP, RIDER_DOORBELL_SET, CLUSTER_DOORBELL_SET, UART_DATA_READ, UART_DATA_WRITE, UART_BYTE_RECEIVED,
MCTP_PACKET_RECEIVED, MCTP_RX_POP and MCTP_TX_PUSH (R463–R465, R486): a sample fills its register and clears FAULT, an open gauge
sets it, and with FIFO_EN the sample's two words are pushed in order; doorbells set bits; each FIFO keeps its order and
loses what does not fit, with its overflow bit. What the rules
leave open in these points is the model's own (assumption logs 65, 66, 67 and 68). -/
def Obligations.PeripheralsKeepTheirOrder : Prop :=
  ∀ s : State,
    (∀ k : Fin 30, s.restarting = false → s.power.mode ≠ .off →
      (∀ c : BitVec 10, k.val < 24 →
        (s.fld Reg.GAU_CFG_FIFO_EN = 0 →
          Does (.gaugeSample k (.temp c)) s []
            ([(Reg.GAU_SAMPLE_T_TEMP k, c.toNat), (gaugeFault k, 0), (gaugeValid k, 1)] ++
              (if k.val < 16 ∧ (s.fld Reg.PMC_THERM_CFG_T_HOT + 64) * 4 ≤ c.toNat then [(Reg.GAU_EVENT_TJ_HOT, 1)] else [])) fun _ => True) ∧
        (s.fld Reg.GAU_CFG_FIFO_EN = 1 → s.mgmt.gaugeFifo.length + 2 ≤ 1024 →
          Changes (.gaugeSample k (.temp c)) s [.mgmt] [Reg.GAU_SAMPLE_T k, Reg.GAU_EVENT] fun t =>
            t.mgmt.gaugeFifo = s.mgmt.gaugeFifo ++ [BitVec.ofNat 32 (k + s.turn % 2 ^ 27 * 32), t.word (Reg.GAU_SAMPLE_T k)] ∧
              t.fld (Reg.GAU_SAMPLE_T_TEMP k) = c.toNat)) ∧
      (∀ (mv : BitVec 12) (cur : BitVec 16), 24 ≤ k.val → s.fld Reg.GAU_CFG_FIFO_EN = 0 →
        Does (.gaugeSample k (.rail mv cur)) s []
          [(Reg.GAU_SAMPLE_R_MV (k - 24), mv.toNat), (Reg.GAU_SAMPLE_R_CURRENT (k - 24), cur.toNat), (gaugeFault k, 0),
            (gaugeValid k, 1)] fun _ => True) ∧
      (s.fld (gaugeFault k) = 0 → s.isAssigned k = false → s.fld Reg.GAU_CFG_FIFO_EN = 0 →
        Does (.gaugeSample k .fault) s [] [(gaugeFault k, 1), (gaugeValid k, 1), (Reg.GAU_EVENT_FAULT, 1)] fun _ => True)) ∧
    (∀ client w rest, (s.dom (blockDomain Reg.GAU_FIFO)).state = .on → s.mgmt.gaugeFifo = w :: rest →
      Does (.gaugeFifoPop client) s [.idle, .mgmt, .answer] [] fun t =>
        t.answer = some (.value client w.toNat) ∧ t.mgmt = { s.mgmt with gaugeFifo := rest }) ∧
    (∀ client (bits : Word) (n : Fin 3),
      (reaches s client Reg.MBX_RDB_SET → Does (.riderDoorbellSet client bits) s [.idle]
        [(⟨Reg.MBX_RDB, 0, 32⟩, (s.word Reg.MBX_RDB ||| bits).toNat)] fun _ => True) ∧
      (reaches s client (Reg.MBX_CDB_SET n) → Does (.clusterDoorbellSet client n bits) s [.idle]
        [(⟨Reg.MBX_CDB n, 0, 32⟩, (s.word (Reg.MBX_CDB n) ||| bits).toNat)] fun _ => True)) ∧
    (∀ client (b : Byte) rest, (s.dom (blockDomain Reg.MBX_UART_DATA)).state = .on → s.mgmt.uartRx = b :: rest →
      Does (.uartDataRead client) s [.idle, .mgmt, .answer] [] fun t =>
        t.answer = some (.value client b.toNat) ∧ t.mgmt = { s.mgmt with uartRx := rest }) ∧
    (∀ client (b : Byte), reaches s client Reg.MBX_UART_DATA → s.mgmt.uartTx.length < 32 →
      Does (.uartDataWrite client b) s [.idle, .mgmt] [] fun t => t.mgmt.uartTx = s.mgmt.uartTx ++ [b] ∧ t.mgmt.uartRx = s.mgmt.uartRx) ∧
    (∀ b : Byte, s.fld Reg.MBX_UART_CFG_EN = 1 → (s.dom 1).state = .on →
      Does (.uartByteReceived b true) s [] [(Reg.MBX_UART_STATUS_FRAME_ERR, 1)] (fun _ => True) ∧
      (s.mgmt.uartRx.length < 32 → Does (.uartByteReceived b false) s [.mgmt] [] fun t =>
        t.mgmt = { s.mgmt with uartRx := s.mgmt.uartRx ++ [b] }) ∧
      (32 ≤ s.mgmt.uartRx.length → Does (.uartByteReceived b false) s [] [(Reg.MBX_UART_STATUS_OVERRUN, 1)] fun _ => True)) ∧
    (∀ p : Fin 3,
      (∀ packet : Bytes, s.fld (Reg.MBX_MCTP_CFG_EN p) = 1 → (s.dom 1).state = .on →
        (s.mgmt.mctp[p].rx.length + 4 + (packet.length + 3) / 4 * 4 ≤ 1024 →
          Does (.mctpPacketReceived p packet) s [.mgmt] [] fun t =>
            t.mgmt.mctp[p].rx = s.mgmt.mctp[p].rx ++ leBytes 4 packet.length ++ packet ++
              List.replicate ((packet.length + 3) / 4 * 4 - packet.length) 0 ∧
            ∀ q : Fin 3, q ≠ p → t.mgmt.mctp[q] = s.mgmt.mctp[q]) ∧
        (1024 < s.mgmt.mctp[p].rx.length + 4 + (packet.length + 3) / 4 * 4 →
          Does (.mctpPacketReceived p packet) s [] [(Reg.MBX_MCTP_STATUS_RX_OVERFLOW p, 1)] fun _ => True)) ∧
      (∀ client, (s.dom (blockDomain (Reg.MBX_MCTP_RX p))).state = .on → s.mgmt.mctp[p].rx ≠ [] →
        Does (.mctpRxPop client p) s [.idle, .mgmt, .answer] [] fun t =>
          t.answer = some (.value client (leNat (s.mgmt.mctp[p].rx.take 4))) ∧ t.mgmt.mctp[p].rx = s.mgmt.mctp[p].rx.drop 4) ∧
      (∀ client (w : Word), reaches s client (Reg.MBX_MCTP_TX p) → s.mgmt.mctp[p].tx.length + 4 ≤ 1024 →
        Does (.mctpTxPush client p w) s [.idle, .mgmt] [] fun t => t.mgmt.mctp[p].tx = s.mgmt.mctp[p].tx ++ leBytes 4 w.toNat))

/-! ### Management messages and editions (chapter 14) -/

/-- CONSOLE_STATUS, CONSOLE_LOG, CONSOLE_EDITION and CONSOLE_SELFTEST (R462) on a console that takes commands: the status begins with the
mode, the log is every entry in the format asked for, and the edition and self-test commands do what the admin commands do on path 7.
READ_NVME_MI_DATA_STRUCTURE, NVM_SUBSYSTEM_HEALTH_STATUS_POLL, CONTROLLER_HEALTH_STATUS_POLL, CONFIGURATION_GET, CONFIGURATION_SET,
VPD_READ, VPD_WRITE, NVME_MI_RESET and NVME_MI_TUNNELLED_ADMIN (R460, R461) on a path that takes NVMe-MI requests: each answers one
response; a poll with Clear clears the health-change bits; a configuration or the product data reads back as written; a tunnelled
command does what the admin command does. What the rules
leave open in these points is the model's own (assumption logs 18, 69, 70 and 115). -/
def Obligations.ManagementRequestsAnswer : Prop :=
  (∀ s : State, s.pathOpen 7 = true → s.restarting = false →
    let said (t : State) (status : Nat) (data : Bytes) : Prop := t.mgmt.replies = s.mgmt.replies ++ [⟨7, status, 0, data⟩]
    (Does .consoleStatus s [.mgmt] [] fun t => ∃ b, said t 0 b ∧ b.take 1 = [BitVec.ofNat 8 s.power.mode.code]) ∧
    (∀ f, f = 1 ∨ f = 2 → Does (.consoleLog f) s [.mgmt] [] fun t =>
      said t 0 (((s.ringLog ++ s.mgmt.log).map fun e => e.bytes (f == 1)).flatten)) ∧
    (∀ f, f ≠ 1 → f ≠ 2 → Does (.consoleLog f) s [.mgmt] [] fun t => said t 2 []) ∧
    (∀ n l b, exec (.consoleEdition (.stage n l b)) s = exec (.editionStage ⟨7, 0⟩ n l b) s) ∧
    (∀ n, exec (.consoleEdition (.commit n)) s = exec (.editionCommit ⟨7, 0⟩ n) s) ∧
    (∀ n, exec (.consoleEdition (.revert n)) s = exec (.editionRevert ⟨7, 0⟩ n) s) ∧
    (∀ n l b e, s.mgmt.change = none → s.validate n l b = .ok e →
      Completes (.consoleEdition (.stage n l b)) s fun t => said t 0 [] ∧ t.mgmt.staged = some e ∧ t.mgmt.current = s.mgmt.current) ∧
    (s.power.mode ≠ .conserve → s.mgmt.run = none →
      Changes (.consoleSelftest 1) s [.mgmt, .log] [Reg.BST_STATUS] fun t =>
        said t 0 [] ∧ (∃ r, t.mgmt.run = some r ∧ r.kind = 2 ∧ r.source = 7 ∧ r.began = s.turn) ∧ logged s t 0x0301 7 0x3FF 2) ∧
    (s.power.mode ≠ .conserve → (exec (.consoleSelftest 0xF) s = exec (.deviceSelfTestAbort ⟨7, 0⟩) s))) ∧
  (∀ (s : State) (path : Nat), 3 ≤ path → path ≤ 6 → s.pathOpen path = true → s.restarting = false →
    let said (t : State) (status dw0 : Nat) (data : Bytes) : Prop := t.mgmt.replies = s.mgmt.replies ++ [⟨path, status, dw0, data⟩]
    (Does (.readNvmeMiDataStructure path 2) s [.mgmt] [] fun t => said t 0 0 [2, 0, 1, 0, 2, 0]) ∧
    (∀ d, d ≤ 4 → Does (.readNvmeMiDataStructure path d) s [.mgmt] [] fun t => ∃ b, said t 0 0 b ∧ b ≠ []) ∧
    (∀ clear, Does (.nvmSubsystemHealthStatusPoll path clear) s [.mgmt] [] fun t =>
      (∃ b, said t 0 0 b) ∧ t.mgmt.healthChange = if clear then 0 else s.mgmt.healthChange) ∧
    (∀ c : Fin 2, Does (.controllerHealthStatusPoll path c) s [.mgmt] [] fun t =>
      ∃ b, said t 0 0 b ∧ b.take 2 = [BitVec.ofNat 8 (c.val + 1), 0]) ∧
    (Does (.configurationGet path .healthStatusChange) s [.mgmt] [] fun t => said t 0 s.mgmt.healthChange []) ∧
    (∀ p : Fin 3, Does (.configurationGet path (.mctpUnitSize p)) s [.mgmt] [] fun t => said t 0 s.mgmt.mctpUnit[p] []) ∧
    (∀ (p : Fin 3) (v : Nat), v = 64 ∨ (p = 2 ∧ 64 ≤ v ∧ v ≤ 512) →
      Does (.configurationSet path (.mctpUnitSize p) v) s [.mgmt] [] fun t => said t 0 0 [] ∧ t.mgmt.mctpUnit[p] = v ∧
        ∀ q : Fin 3, q ≠ p → t.mgmt.mctpUnit[q] = s.mgmt.mctpUnit[q]) ∧
    (∀ p v, 1 ≤ v → v ≤ 3 → Does (.configurationSet path (.smbusFrequency p) v) s [.mgmt] [(Reg.MBX_MCTP_CFG_FREQ p, v - 1)] fun t =>
      said t 0 0 []) ∧
    (∀ ofs len, ofs + len ≤ 1024 → Does (.vpdRead path ofs len) s [.mgmt] [] fun t => said t 0 0 ((s.vpdBytes.drop ofs).take len)) ∧
    (∀ ofs (d : Bytes), d ≠ [] → ofs + d.length ≤ 1024 → ofs ≤ s.vpdBytes.length →
      Does (.vpdWrite path ofs d) s [.mgmt, .store] [] fun t =>
        said t 0 0 [] ∧ (t.vpdBytes.drop ofs).take d.length = d ∧ t.vpdBytes.take ofs = s.vpdBytes.take ofs) ∧
    (s.power.mode = .service → s.store.pointer = none →
      Completes (.nvmeMiReset path) s fun t => said t 0 0 [] ∧ (∀ c, (t.ctl c).en = false ∧ (t.ctl c).rdy = false ∧
        t.fld (Reg.HGT_LINK_STATUS_RATE c) = 0) ∧ t.memory.bytes = s.memory.bytes ∧ t.power.mode = .service) ∧
    (∀ cid, Does (.nvmeMiTunnelledAdmin path cid .excluded) s [.mgmt] [] fun t => said t 1 0 []) ∧
    (∀ cid cns csi nsid lid lsp fid w11 number, let a : Adm := ⟨path, cid⟩
      exec (.nvmeMiTunnelledAdmin path cid (.identify cns csi nsid)) s = exec (.identify a ⟨cns, csi⟩ nsid) s ∧
      exec (.nvmeMiTunnelledAdmin path cid (.getLogPage lid lsp)) s = exec (.getLogPage a lid lsp) s ∧
      exec (.nvmeMiTunnelledAdmin path cid (.getFeatures fid w11)) s = exec (.getFeatures a fid w11) s ∧
      exec (.nvmeMiTunnelledAdmin path cid (.editionCommit number)) s = exec (.editionCommit a number) s))

/-- EDITION_STAGE, EDITION_COMMIT, EDITION_REVERT and EDITION_SWITCH (R471, R472, R474–R476): a blob that passes the checks is the staged
edition and the newest record of the edition area (the store's domain, which takes no vote, is never DROPPING), and one that fails leaves every role as it was and answers the reason; a Commit of the staged number, and a Revert of the
current one, whose checks pass wait for the turn edge and answer nothing yet; a stale number, or a change in progress, is an Edition
Conflict. At the edge a Commit makes the staged edition current and the current one previous, a Revert exchanges them, EDC.SWITCH
takes the turn, and, with namespaces so that no capacity is fixed anew, every RWE field holds what the edition gives it, or its
reset value. DC7's deadline reads 0 (R87) and the edition names no SMBus addresses in these clauses. What the rules
leave open in these points is the model's own (assumption logs 53, 54 and 58). -/
def Obligations.EditionsAreStagedAndSwitched : Prop :=
  (∀ (s : State) (a : Adm) (n l : Nat) (b : Bytes), takes s a →
    let roles (t : State) : Prop := t.mgmt.current = s.mgmt.current ∧ t.mgmt.previous = s.mgmt.previous ∧ t.mgmt.staged = s.mgmt.staged ∧
      t.mgmt.change = s.mgmt.change
    (s.mgmt.change = none →
      (∀ e, s.validate n l b = .ok e → (s.dom 23).state ≠ .dropping →
        Changes (.editionStage a n l b) s [.mgmt, .host, .log, .store, .idle, .doms]
          [Reg.EDC_CURRENT, Reg.EDC_PREVIOUS, Reg.EDC_STAGED, Reg.EDC_STATUS] fun t =>
          othersSame 23 s t ∧ t.store.edRecs.getLast?.map (·.2) = some (blobRecord e s.turn) ∧
            t.store.ring = s.store.ring ∧ t.store.slots = s.store.slots ∧
          t.mgmt.staged = some e ∧ t.mgmt.current = s.mgmt.current ∧ t.mgmt.previous = s.mgmt.previous ∧ t.mgmt.change = none ∧
            t.fld Reg.EDC_STAGED_NUMBER = e.number % 2 ^ 32 ∧ replied s t a St.ok [] ∧ logged s t 0x0203 a.path 0x3FF n) ∧
      (∀ r, s.validate n l b = .error r →
        Changes (.editionStage a n l b) s [.mgmt, .host, .log, .nv] [Reg.EDC_RESULT, Reg.EDC_RESULT_B] fun t =>
          roles t ∧ t.fld Reg.EDC_RESULT_REASON = r.reason % 2 ^ Reg.EDC_RESULT_REASON.width ∧
            replied s t a { St.invalidField with dw0 := r.reason + r.section_ % 256 * 256 + r.resA % 65536 * 65536 } []) ∧
      (∀ e, s.mgmt.staged = some e → e.number = n → e.base = 0xFFFFFFFF ∨ e.base = s.mgmt.current.number → s.recheck e = .ok () →
        Changes (.editionCommit a n) s [.mgmt] [Reg.EDC_CURRENT, Reg.EDC_PREVIOUS, Reg.EDC_STAGED, Reg.EDC_STATUS] fun t =>
          t.mgmt.change = some { phase := .pending, revert := false, number := n, path := a.path, adm := some a, since := s.turn } ∧
            t.mgmt.current = s.mgmt.current ∧ t.mgmt.staged = some e ∧ t.fld Reg.EDC_STATUS_STATE = 2 ∧ t.mgmt.replies = s.mgmt.replies) ∧
      (∀ e, s.mgmt.staged = some e → e.number ≠ n →
        Does (.editionCommit a n) s [.mgmt, .host, .log, .nv] [] fun t => roles t ∧ replied s t a (St.conflict e.number) []) ∧
      (∀ e, s.mgmt.previous = some e → n = s.mgmt.current.number → s.recheck e = .ok () →
        Changes (.editionRevert a n) s [.mgmt] [Reg.EDC_CURRENT, Reg.EDC_PREVIOUS, Reg.EDC_STAGED, Reg.EDC_STATUS] fun t =>
          t.mgmt.change = some { phase := .pending, revert := true, number := e.number, path := a.path, adm := some a, since := s.turn } ∧
            t.mgmt.current = s.mgmt.current ∧ t.mgmt.previous = some e ∧ t.fld Reg.EDC_STATUS_STATE = 2) ∧
      (n ≠ s.mgmt.current.number →
        Does (.editionRevert a n) s [.mgmt, .host, .log, .nv] [] fun t => roles t ∧ replied s t a (St.conflict s.mgmt.current.number) [])) ∧
    (∀ x, s.mgmt.change = some x → ∀ i, i = Instr.editionStage a n l b ∨ i = .editionCommit a n ∨ i = .editionRevert a n →
      Does i s [.mgmt, .host, .log, .nv] [] fun t => roles t ∧ replied s t a (St.conflict x.number) [])) ∧
  (∀ (s : State) (c : EditionChange) (e : Edition), s.mgmt.change = some c → c.phase = .pending →
    (s.turn ≤ c.since → exec .editionSwitch s = .next s) ∧
    (c.since < s.turn → (if c.revert then s.mgmt.previous else s.mgmt.staged) = some e → s.nv.namespaces ≠ [] → e.mi = none →
      Completes .editionSwitch s fun t =>
        t.mgmt.current = e ∧ t.mgmt.previous = some s.mgmt.current ∧ t.mgmt.staged = (if c.revert then s.mgmt.staged else none) ∧
          t.mgmt.change = some { c with phase := .booking, since := s.turn, before := s.mgmt.previous } ∧
          t.fld Reg.EDC_SWITCH_LO_TURN = s.turn % 2 ^ 32 ∧ t.fld Reg.EDC_CURRENT_NUMBER = e.number % 2 ^ 32 ∧
          (∀ a r f, regAt a = some r → f ∈ r.fields → f.type = .rwe → a ≠ Reg.SLU_CLASS_DL 7 →
            bitsOf (t.word a) f.lsb f.width = bitsOf (e.word a) f.lsb f.width) ∧
          t.host = s.host ∧ t.nv = s.nv ∧ t.galley = s.galley))


/-! ### Self-test (chapter 14) -/

/-- SELF_TEST_IN_SERVICE_PASS, SELF_TEST_SHORT_RUN, SELF_TEST_EXTENDED_RUN, SELF_TEST_FULL_RUN, SELF_TEST_SHUTDOWN_RUN, SELF_TEST_ABORT,
SELF_TEST_SLICE and Device Self-test's DEVICE_SELF_TEST_SHORT, _EXTENDED, _FULL and _ABORT (R478, R479, R481, R482, R485): a start with no
run in progress begins that run and logs its path; one with a run in progress is ignored, and refused by Device Self-test; an abort
ends the run with result 1; a slice that passes moves its run on, and one that does not fit changes nothing; the full test starts
in Recovery only. What the rules
leave open in these points is the model's own (assumption logs 61, 62 and 64). -/
def Obligations.SelfTestRunsStartAndEnd : Prop :=
  ∀ (s : State) (client source : Nat),
    (reaches s client Reg.BST_CTRL →
      (let starts (k : Nat) (i : Instr) : Prop :=
        (s.mgmt.run = none → Changes i s [.idle, .mgmt, .log] [Reg.BST_CTRL, Reg.BST_STATUS] fun t =>
          (∃ r, t.mgmt.run = some r ∧ r.kind = k ∧ r.source = source % 16 ∧ r.began = s.turn ∧ r.done = 0) ∧
            t.fld Reg.BST_STATUS_BUSY = 1 ∧ t.fld Reg.BST_STATUS_KIND = k ∧ logged s t 0x0301 (source % 16) 0x3FF k) ∧
        (s.mgmt.run.isSome = true → Does i s [.idle] [(Reg.BST_CTRL_KIND, k), (Reg.BST_CTRL_SOURCE, source)] fun _ => True)
       (s.fld Reg.BST_CFG_SERVICE_EN = 1 → starts 1 (.selfTestInServicePass client source)) ∧ starts 2 (.selfTestShortRun client source) ∧
        starts 3 (.selfTestExtendedRun client source) ∧ starts 4 (.selfTestFullRun client source) ∧
        starts 5 (.selfTestShutdownRun client source)) ∧
      (∀ r, s.mgmt.run = some r →
        Changes (.selfTestAbort client) s [.idle, .mgmt, .log] [Reg.BST_RESULT, Reg.BST_EVENT, Reg.BST_STATUS] fun t =>
          t.mgmt.run = none ∧ t.fld Reg.BST_RESULT_CODE = 1 ∧ t.fld Reg.BST_EVENT_ABORT = 1 ∧ t.fld Reg.BST_STATUS_BUSY = 0 ∧
            logged s t 0x0303 r.source 0x3FF (r.kind + 256) ∧ t.mgmt.passes = s.mgmt.passes) ∧
      (s.mgmt.run = none → Does (.selfTestAbort client) s [.idle] [] fun _ => True)) ∧
    (∀ r item inst, s.mgmt.run = some r →
      (s.sliceAllowed r item = false ∨ (r.kind ≤ 3 ∧ s.sliceFits item inst (s.fld Reg.BST_CFG_SLICE_TURNS) = false) →
        exec (.selfTestSlice item inst true) s = .next s) ∧
      (s.sliceAllowed r item = true → (4 ≤ r.kind ∨ s.sliceFits item inst (s.fld Reg.BST_CFG_SLICE_TURNS) = true) → r.done + 1 < r.total →
        Changes (.selfTestSlice item inst true) s [.mgmt, .sluice] [Reg.BST_STATUS] fun t =>
          t.mgmt.run = some { r with done := r.done + 1, retry := r.retry.erase (item, inst) } ∧
            t.mgmt.rotSlices = s.mgmt.rotSlices + 1 ∧ t.mgmt.log = s.mgmt.log ∧ (∀ b ∈ s.sluice.bookings, b ∈ t.sluice.bookings))) ∧
    (∀ a nsid, takes s a →
      (let starts (k : Nat) (i : Instr) : Prop :=
        (s.mgmt.run = none → Changes i s [.mgmt, .host, .log] [Reg.BST_STATUS] fun t =>
          (∃ r, t.mgmt.run = some r ∧ r.kind = k ∧ r.source = a.path ∧ r.nsid = nsid) ∧ logged s t 0x0301 a.path 0x3FF k ∧ replied s t a St.ok []) ∧
        (s.mgmt.run.isSome = true → Does i s [.mgmt, .host, .nv] [] fun t =>
          t.mgmt.run = s.mgmt.run ∧ replied s t a St.selfTestInProgress [])
       starts 2 (.deviceSelfTestShort a nsid) ∧ starts 3 (.deviceSelfTestExtended a nsid) ∧
        (s.power.mode = .recovery → starts 4 (.deviceSelfTestFull a nsid))) ∧
      (s.power.mode ≠ .recovery → Does (.deviceSelfTestFull a nsid) s [.mgmt, .host, .nv] [] fun t =>
        t.mgmt.run = s.mgmt.run ∧ replied s t a St.invalidField []) ∧
      (∀ r, s.mgmt.run = some r → Changes (.deviceSelfTestAbort a) s [.mgmt, .host, .log] [Reg.BST_RESULT, Reg.BST_EVENT, Reg.BST_STATUS] fun t =>
        t.mgmt.run = none ∧ t.fld Reg.BST_RESULT_CODE = 1 ∧ replied s t a St.ok []))

/-! ### Power loss (chapter 9) -/

/-- PWR_FAIL_ASSERT, PWR_FAIL_RELEASE, V_HOLD_LOW, POWER_FAILURE, SUPPLY_RETURN_WITHOUT_SPILL and SPILLWAY_RELEASE (R311, R312, R314, R324): an
input below its limit starts the filter, and a pulse that ends before it completes is no failure unless V_HOLD is low too; a
completed filter requests a spill in the data modes, once and for good, and makes Boot and Recovery wait with the data plane
held; nothing else changes. A released image leaves its set free. What the rules
leave open in these points is the model's own (assumption logs 99 and 105). -/
def Obligations.PowerFailInputsRequestSpills : Prop :=
  ∀ s : State,
    (Does .pwrFailAssert s [.pins] [] fun t =>
      t.pins = { s.pins with pwrFailLow := true, filter := some (s.pins.filter.getD s.turn) }) ∧
    (Does .vHoldLow s [.pins] [] fun t => t.pins = { s.pins with vholdLow := true, filter := some (s.pins.filter.getD s.turn) }) ∧
    (Does .pwrFailRelease s [.pins] [] fun t =>
      t.pins = { s.pins with pwrFailLow := false, filter := if s.pins.vholdLow then s.pins.filter else none }) ∧
    (s.pins.filter = none → exec .powerFailure s = .next s) ∧
    (s.pins.filter.isSome = true → s.power.mode = .service ∨ s.power.mode = .surge ∨ s.power.mode = .conserve ∨ s.power.mode = .sealed →
      (s.cistern.request = none →
        Does .powerFailure s [.pins, .cistern, .nv] [(Reg.PMC_CIS_STATUS_TEST_BUSY, 0), (Reg.PMC_CIS_TEST_START, 0)] fun t =>
          t.cistern.request = some (if s.pins.pwrFailLow = false ∧ s.pins.vholdLow = true then 1 else 0, s.turn) ∧
            t.cistern.test = none ∧ t.pins.filter = none ∧ t.nv = { s.nv with spillMark := true }) ∧
      (s.cistern.request.isSome = true → Does .powerFailure s [.pins] [] fun _ => True)) ∧
    (s.pins.filter.isSome = true → s.power.mode = .boot ∨ s.power.mode = .recovery →
      Changes .powerFailure s [.pins, .cistern, .store] [Reg.PMC_CIS_STATUS, Reg.PMC_CIS_TEST, Reg.FWS_BANK 0, Reg.FWS_BANK 1] fun t =>
        t.cistern.waiting = true ∧ t.cistern.request = s.cistern.request ∧ t.store.pages = s.store.pages ∧ t.store.flags = s.store.flags) ∧
    (s.pins.filter.isSome = true → s.power.mode = .spill → Does .powerFailure s [.pins] [] fun _ => True) ∧
    (∀ c t0, s.cistern.request = some (c, t0) → s.power.mode.carriesData = true →
      (s.turn ≤ t0 → exec .spillEdge s = .next s) ∧ (t0 < s.turn → Completes .spillEdge s fun t => t.power.mode = .spill)) ∧
    (s.cistern.waiting = true → s.pins.pwrFailLow = false → s.pins.vholdLow = false →
      Does .supplyReturnWithoutSpill s [.cistern] [] fun t => t.cistern = { s.cistern with waiting := false }) ∧
    (s.nv.image.isSome = true → s.power.mode = .service → s.released = true →
      Does .spillwayRelease s [.galley, .nv] [(Reg.PMC_SPILL_STATUS_HELD, 0)] fun t =>
        t.nv.image = none ∧ t.galley = { s.galley with restored := [], restoredJnl := [] })

/-- SPILL_EDGE, SPILL_COMPLETE and SUPPLY_RETURN (R320–R323): at the turn edge after the request the mode is Spill, the commands under way
are discarded with no completion, and the spill set, the journal and the state record are latched; at the end every domain that
lives but PD0 is off, the mode stays Spill, and a sealed image is kept whole; the supply's return starts Boot with the image
kept. What the rules
leave open in these points is the model's own (assumption logs 98 and 99). -/
def Obligations.SpillsLatchKeepAndRestart : Prop :=
  ∀ s : State,
    (∀ cause t0, s.cistern.request = some (cause, t0) →
      (s.turn ≤ t0 → exec .spillEdge s = .next s) ∧
      (t0 < s.turn → s.power.mode.carriesData = true →
        Completes .spillEdge s fun t =>
          t.power.mode = .spill ∧ t.host.cmds = [] ∧ t.cistern.request = none ∧ t.cistern.began = s.turn ∧ t.cistern.ended = false ∧
            (∃ i, t.cistern.latched = some i ∧ i.seq = (s.nv.spillSeq + 1) % 2 ^ 32 ∧ i.cause = cause ∧ i.turn = s.turn ∧
              i.journal = s.galley.journal ∧ i.slots = s.spillSlots ∧ i.log = s.mgmt.log ∧
              (∀ old, s.nv.image = some old → old.set < 2 → i.set ≠ old.set)) ∧
            t.nv.image = s.nv.image ∧ t.fld Reg.PMC_SPILL_STATUS_HELD = 1 ∧ t.mgmt.run = none ∧
            (∀ d : Fin 24, d.val ∈ [2, 3, 9, 10] → s.isDead d = false → (t.dom d).state = .off) ∧
            (∀ d : Fin 24, d.val ∈ [11, 12, 13, 14, 15, 16, 17, 18, 19, 20] → s.isDead d = false → (t.dom d).state = .on) ∧
            ∀ c : Fin 2, (t.ctl c).adminCq.entries = (s.ctl c).adminCq.entries)) ∧
    (∀ i sealed, s.cistern.latched = some i → s.power.mode = .spill → s.cistern.ended = false →
      Completes (.spillComplete sealed) s fun t =>
        t.power.mode = .spill ∧ t.cistern.ended = true ∧ (∀ d : Fin 24, d ≠ 0 → s.isDead d = false → (t.dom d).state = .off) ∧
          t.fld Reg.PMC_SPILL_STATUS_LAST = (if sealed then 1 else 2) ∧
          (sealed = true → ∃ k, t.nv.image = some k ∧ k.complete = true ∧ k.record = true ∧ k.seq = i.seq ∧ k.slots = i.slots ∧
            k.journal = i.journal ∧ k.gals = i.slots.length ∧ k.jnls = i.journal.length)) ∧
    (∀ b, s.power.mode = .spill → s.cistern.ended = true → s.pins.pwrFailLow = false → s.pins.vholdLow = false →
      Completes (.supplyReturn b) s fun t => t.power.mode = .boot ∧ t.turn = 0 ∧ t.nv.image = s.nv.image ∧ t.memory.bytes = [] ∧ t.board = b) ∧
    (∀ b, s.power.mode = .spill → s.cistern.ended = false ∨ s.pins.pwrFailLow = true ∨ s.pins.vholdLow = true →
      exec (.supplyReturn b) s = .next s)

/-- CISTERN_TEST_START, CISTERN_TEST_END, CISTERN_TEST_TIMEOUT and SLOT_CAP_COMPUTE (R315, R316, R318): a START of a configured cistern, or its
due time, begins one test from the bank's present voltage; an unconfigured one ignores and logs it. The end writes C_UF from the
turns that passed; 1,000,000 turns without it set RESULT 3 and Critical Warning bit 4 and keep C_UF. The slot cap is 0 while a term
is 0, and otherwise 0 or from 4,096 to 262,144 slots. What the rules
leave open in these points is the model's own (assumption logs 52, 100 and 101). -/
def Obligations.CisternTestsAndSlotCap : Prop :=
  ∀ (s : State) (client : Nat),
    (reaches s client Reg.PMC_CIS_TEST →
      (s.cisternOff = false → s.cistern.test = none → s.power.mode ≠ .spill →
        Does (.cisternTestStart (some client)) s [.idle, .cistern] [(Reg.PMC_CIS_STATUS_TEST_BUSY, 1), (Reg.PMC_CIS_TEST_START, 1)] fun t =>
          t.cistern.test = some ⟨s.turn, s.fld Reg.PMC_CIS_STATUS_VHOLD⟩) ∧
      (s.cisternOff = true → Does (.cisternTestStart (some client)) s [.idle, .log] [] fun t =>
        logged s t 0x0901 0 client (Reg.PMC_CIS_TEST + 2 ^ 31 * 2 ^ 32))) ∧
    (s.testDue = true → s.cistern.test = none → Does (.cisternTestStart none) s [.cistern] [(Reg.PMC_CIS_STATUS_TEST_BUSY, 1)] fun t =>
      t.cistern.test = some ⟨s.turn, s.fld Reg.PMC_CIS_STATUS_VHOLD⟩) ∧
    (s.testDue = false → exec (.cisternTestStart none) s = .next s) ∧
    (∀ x, s.cistern.test = some x →
      (Changes .cisternTestEnd s [.cistern, .log, .nv] [Reg.PMC_CIS_STATUS, Reg.PMC_CIS_TEST, Reg.PMC_CIS_CAP] fun t =>
        t.cistern.test = none ∧ t.cistern.tested = true ∧ t.fld Reg.PMC_CIS_STATUS_TEST_BUSY = 0 ∧
          t.fld Reg.PMC_CIS_CAP_C_UF = min (2 ^ 24 - 1) (s.measuredUf (s.turn - x.began))) ∧
      (s.turn < x.began + 1000000 → exec .cisternTestTimeout s = .next s) ∧
      (x.began + 1000000 ≤ s.turn →
        Changes .cisternTestTimeout s [.cistern, .log, .nv] [Reg.PMC_CIS_STATUS, Reg.PMC_CIS_TEST] fun t =>
          t.cistern.test = none ∧ t.fld Reg.PMC_CIS_STATUS_RESULT = 3 ∧ t.nv.warning / 16 % 2 = 1 ∧
            t.fld Reg.PMC_CIS_CAP_C_UF = s.fld Reg.PMC_CIS_CAP_C_UF)) ∧
    (s.turn % 1024 = 0 → s.power.mode ≠ .off →
      Changes .slotCapCompute s [.nv] [Reg.PMC_CIS_SLOTS, Reg.PMC_CIS_STATUS] fun t => t.fld Reg.PMC_CIS_SLOTS_CAP_SLOTS = s.slotCap) ∧
    (s.turn % 1024 ≠ 0 → exec .slotCapCompute s = .next s) ∧
    (s.fld Reg.PMC_CIS_CAP_C_UF = 0 ∨ s.fld Reg.PMC_CIS_BOARD_P_BOARD = 0 ∨ s.fld Reg.PMC_CIS_BOARD_ETA = 0 ∨
      s.fld Reg.PMC_CIS_BOARD_S_SPILL = 0 → s.slotCap = 0) ∧
    (s.slotCap = 0 ∨ (4096 ≤ s.slotCap ∧ s.slotCap ≤ 262144))

/-! ### The map, the journal and the snapshot (chapter 5) -/

/-- HOST_PLACE, COND_SET, MAP_SET, OVL_SET, OVL_FREE, ZONE_UPDATE, FBT_SET and TABLE_SET (R36, R37, R187, R194, R203, R204): a request that is
well formed and finds journal and shadow room is applied where its condition holds: it writes the one word it names, appends one
journal record with the old and the new value, and supersedes the residencies that its kind supersedes, those still filling once they land;
a condition that does not hold leaves the word and answers STALE or SUPERSEDED; an update that names a forme whose members have not all
passed their proof reads is not issued (R228); a malformed request is logged; a rejected one changes nothing. What the rules
leave open in these points is the model's own (assumption logs 9, 25, 26, 167 and 168). -/
def Obligations.MapRequestsApplyAtomically : Prop :=
  ∀ (s : State) (q : MapReq),
    let room (kind : Nat) : Prop := s.malformed kind q = false ∧ s.jnlFull = false ∧ (s.unshadowed (s.reqPage kind q) && s.shadowFull) = false
    let said (t : State) (code : Nat) : Prop := t.answer = some (.value 0x3FF code)
    let recorded (t : State) (kind : Nat) : Prop := t.galley.jnlSeq = s.galley.jnlSeq + 1 ∧ ∃ n l, t.galley.journal.getLast? = some (n, l) ∧
      l.getLast? = some ⟨journalKind kind, s.galley.jnlSeq, s.turn, q.target, q.new, s.reqOld kind q, q.aux, q.slot⟩
    let wrote (t : State) (a : Nat) : Prop := t.peek a 4 = q.new % 2 ^ 32 ∧
      ∀ x, x < a ∨ a + 4 ≤ x → memGet x t.memory.bytes = memGet x s.memory.bytes
    (room 3 → Changes (.mapSet q) s [.answer, .bytes, .galley] [] fun t => said t 1 ∧ wrote t (s.mapAddr q.target) ∧ recorded t 3 ∧
      ∀ x ∈ t.galley.slots, x.2.unit = q.target → x.2.order ≤ s.galley.order → x.2.sectors.length ≤ 4 →
        x.2.state = .superseded ∨ x.2.state = .filling ∧ ∀ k, k < 4 → k ∈ x.2.cut) ∧
    (s.unproven q.target q.new = true → exec (.hostPlace q) s = .next s ∧ exec (.condSet q) s = .next s) ∧
    (room 1 → s.unproven q.target q.new = false →
      (∀ x, s.newest q.target = some (q.slot, x) → x.state.landed = true → Changes (.hostPlace q) s [.answer, .bytes, .galley] [] fun t =>
        said t 1 ∧ wrote t (s.mapAddr q.target) ∧ recorded t 1 ∧
          ∀ y ∈ t.galley.slots, y.1 = q.slot → y.2.state = .superseded ∧ y.2.inFlight = false) ∧
      ((∀ x, s.newest q.target = some (q.slot, x) → x.state.landed = false) → Changes (.hostPlace q) s [.answer, .galley] [] fun t =>
        said t 3 ∧ t.galley.journal = s.galley.journal)) ∧
    (room 2 → s.unproven q.target q.new = false →
      (s.mapWord q.target = q.expect → Changes (.condSet q) s [.answer, .bytes, .galley, .flash] [] fun t =>
        said t 1 ∧ wrote t (s.mapAddr q.target) ∧ recorded t 2 ∧ t.galley.slots = s.galley.slots) ∧
      (s.mapWord q.target ≠ q.expect → Changes (.condSet q) s [.answer, .flash] [] fun t => said t 2)) ∧
    (room 4 →
      (q.cond = false ∨ s.reqOld 4 q = q.expect → Changes (.ovlSet q) s [.answer, .galley, .flash] [] fun t => said t 1 ∧ recorded t 4 ∧
        t.overlay (natBits q.target 0 28) = (s.overlay (natBits q.target 0 28)).setField (natBits q.target 32 4) q.new ∧
        ∀ i, i ≠ natBits q.target 0 28 → klook i t.galley.ovl = klook i s.galley.ovl) ∧
      (q.cond = true → s.reqOld 4 q ≠ q.expect → Changes (.ovlSet q) s [.answer, .flash] [] fun t => said t 2)) ∧
    (room 5 → Changes (.ovlFree q) s [.answer, .galley] [] fun t => said t 1 ∧ recorded t 5 ∧ klook q.target t.galley.ovl = none ∧
      ∀ i, i ≠ q.target → klook i t.galley.ovl = klook i s.galley.ovl) ∧
    (room 6 → Changes (.zoneUpdate q) s [.answer, .galley] [] fun t => said t 1 ∧ recorded t 6 ∧
      (let old := (klook (natBits q.target 0 32) s.galley.zones).getD (0, 0)
       klook (natBits q.target 0 32) t.galley.zones =
        some (if natBits q.target 32 1 = 0 then (q.new % 16, old.2) else (old.1, q.new)))) ∧
    (room 7 → q.cond = false ∨ s.reqOld 7 q = q.expect → Changes (.fbtSet q) s [.answer, .galley] [] fun t => said t 1 ∧ recorded t 7 ∧
      t.fbtWord (natBits q.target 0 2) (natBits q.target 2 28) (natBits q.target 30 4) = q.new) ∧
    (room 8 → Changes (.tableSet q) s [.answer, .bytes, .galley] [] fun t => said t 1 ∧ recorded t 8 ∧
      wrote t (if natBits q.target 32 1 = 0 then s.granAddr (natBits q.target 0 18)
        else s.nstAddr (natBits q.target 0 18) (natBits q.target 33 1))) ∧
    ∀ kind i, (kind = 1 ∧ i = Instr.hostPlace q) ∨ (kind = 2 ∧ i = .condSet q) ∨ (kind = 3 ∧ i = .mapSet q) ∨ (kind = 4 ∧ i = .ovlSet q) ∨
        (kind = 5 ∧ i = .ovlFree q) ∨ (kind = 6 ∧ i = .zoneUpdate q) ∨ (kind = 7 ∧ i = .fbtSet q) ∨ (kind = 8 ∧ i = .tableSet q) →
      (kind ≤ 2 → s.unproven q.target q.new = false) →
      (s.malformed kind q = true → Does i s [.answer, .log] [] fun t =>
        said t 5 ∧ logged s t (Config.uncodedEvent 16) 0 0x3FF q.target) ∧
      (s.malformed kind q = false → s.jnlFull = true ∨ (s.unshadowed (s.reqPage kind q) && s.shadowFull) = true →
        Does i s [.answer] [] fun t => said t 4)

/-- MUP_TAIL_WRITE, JOURNAL_SLOT_PROGRAMMED, SNAPSHOT_MARK, SNAPSHOT_COMPLETE, MIRROR_MOVE_START, MIRROR_MOVE_COMPLETE and MAP_REPAIR (R189,
R204–R206, R209, R210, R355): TAIL takes a value that does not pass HEAD; a full journal slot whose program passed is kept in flash and freed; a
mark during a write-out is lost; a snapshot whose pages
are all written replaces the last one and the records that it covers; a move starts
while none runs and ends when nothing is left; a repair waits for the turn edge. What the rules
leave open in these points is the model's own (assumption logs 17 and 33). -/
def Obligations.JournalSnapshotAndMoves : Prop :=
  ∀ (s : State) (client n : Nat),
    (reaches s client Reg.DMC_MUP_PTR → n < 2 ^ 16 →
      let passes := ringPasses s.mupEntries (s.fld Reg.DMC_MUP_PTR_HEAD) (s.fld Reg.DMC_MUP_PTR_TAIL) n
      (passes = false → Does (.mupTailWrite client n) s [.idle] [(Reg.DMC_MUP_PTR_TAIL, n)] fun _ => True) ∧
      (passes = true → Does (.mupTailWrite client n) s [.idle, .log] [] fun t =>
        logged s t 0x0901 0 client (Reg.DMC_MUP_PTR + n * 2 ^ 32))) ∧
    (∀ recs, s.galley.journal.find? (fun j => j.1 == n && decide (256 ≤ j.2.length)) = some (n, recs) →
      Does (.journalSlotProgrammed n) s [.galley, .nv] [] fun t => t.nv = { s.nv with journal := s.nv.journal ++ recs } ∧
        (∀ x ∈ t.galley.journal, x.1 ≠ n) ∧ (∀ x ∈ s.galley.journal, x.1 ≠ n → x ∈ t.galley.journal) ∧ t.galley.jnlSeq = s.galley.jnlSeq) ∧
    (reaches s client Reg.DMC_SNAP_CTRL →
      (s.galley.writing = none → Does (.snapshotMark client) s [.idle] [(Reg.DMC_SNAP_CTRL_MARK, 1)] fun _ => True) ∧
      (s.galley.writing.isSome = true → Does (.snapshotMark client) s [.idle] [(Reg.DMC_SNAP_STATUS_MARK_LOST, 1)] fun _ => True)) ∧
    (s.galley.unwritten ≠ [] → exec .snapshotComplete s = .next s) ∧
    (∀ seq tbl, s.galley.writing = some (seq, tbl) → s.galley.unwritten = [] →
      Does .snapshotComplete s [.galley, .nv] [] fun t => t.nv.snapshot = tbl ∧ t.nv.snapSeq = seq ∧ t.galley.writing = none ∧
        ∀ r, r ∈ t.nv.journal ↔ r ∈ s.nv.journal ∧ seq < r.seq) ∧
    (reaches s client Reg.DMC_GLY_MOVE →
      (s.fld Reg.DMC_GLY_MOVE_ACTIVE = 0 → Does (.mirrorMoveStart client n) s [.idle, .galley]
        [(Reg.DMC_GLY_MOVE_CHAN, n), (Reg.DMC_GLY_MOVE_START, 1)] fun t => t.galley = { s.galley with movePending := true }) ∧
      (s.fld Reg.DMC_GLY_MOVE_ACTIVE = 1 → Does (.mirrorMoveStart client n) s [.idle] [] fun _ => True)) ∧
    (s.fld Reg.DMC_GLY_MOVE_ACTIVE = 1 →
      (s.galley.moveLeft = 0 → Does .mirrorMoveComplete s [] [(Reg.DMC_GLY_MOVE_ACTIVE, 0), (Reg.DMC_GLY_MOVE_LEFT_KSLOTS, 0)] fun _ => True) ∧
      (s.galley.moveLeft ≠ 0 → exec .mirrorMoveComplete s = .next s)) ∧
    (reaches s client Reg.DMC_MAP_REPAIR → Does (.mapRepair client n) s [.idle, .memory]
      [(Reg.DMC_MAP_REPAIR_LINE, n), (Reg.DMC_MAP_REPAIR_GO, 1), (Reg.DMC_MAP_REPAIR_BUSY, 1)] fun t =>
      t.memory = { s.memory with mapRepair := true })

/-! ### Dies, channels and decodes (chapters 4 and 7) -/

/-- DIE_READY, STATUS_TIMEOUT and LUN_RESET_COMPLETE (R36, R152, R154, R156): the first poll that shows ready ends the die's operation: a read
leaves its page and, where its time saturates the measurement, sets the die failing (R161), a program that passed waits for its proof read, an erase that passed leaves the block with no units, one more
erase and free in the next turn. An operation that outlasts its limit is reset and counted, the die is out of plan from the next
turn, and the third in a rotation stops it; before the limit nothing happens. What the rules
leave open in these points is the model's own (assumption logs 11 and 38). -/
def Obligations.DiesReportAndTimeOut : Prop :=
  ∀ (s : State) (d : Fin 1024) (sr : Byte),
    let others (t : State) : Prop := ∀ n, n ≠ d.val → klook n t.flash.dies = klook n s.flash.dies
    let unsaturated (k m : Nat) : Prop := m + 1 < 2 ^ (learnedFld d k).width
    let failing : Prop := s.fld (Reg.FUR_STATUS_STATE d) = 0xA ∨ s.fld (Reg.FUR_STATUS_STATE d) = 0xB
    (∀ fail, (s.die d).busy = none → exec (.dieReady d fail sr) s = .next s) ∧
    (∀ fail since, (s.die d).busy = some (.read, since) → unsaturated 0 (s.turn - since) →
      Changes (.dieReady d fail sr) s [.edgeRegs, .flash] [Reg.FUR_STATUS d, Reg.FUR_EVENT d, (learnedFld d 0).addr] fun t =>
        (t.die d).busy = none ∧ (t.die d).page = (s.die d).page ∧ (t.die d).hold = (s.die d).hold ∧ others t ∧
          t.fld (Reg.FUR_STATUS_SR d) = sr.toNat ∧ (¬ failing → t.fld (Reg.FUR_STATUS_STATE d) = 3)) ∧
    (∀ fail since, (s.die d).busy = some (.read, since) → ¬ unsaturated 0 (s.turn - since) → s.fld (Reg.SLU_DIE_STATE_STATE d) = 0 →
      Completes (.dieReady d fail sr) s fun t => (t.die d).busy = none ∧ t.fld (Reg.SLU_DIE_STATE_STATE d) = 1 ∧
        t.fld (Reg.FUR_EVENT_SAT d) = 1 ∧ ∀ f ∈ t.flash.formeBlocks, (f.has fun m => m.die == d.val) = true → f.isOpen = false ∧ (f.victim = 1 ∨ f.victim = 9)) ∧
    (∀ since h, (s.die d).busy = some (.program, since) → (s.die d).hold = some h → unsaturated 3 (s.turn - h.since - h.excluded) →
      Changes (.dieReady d false sr) s [.edgeRegs, .flash] [Reg.FUR_STATUS d, Reg.FUR_EVENT d, Reg.FUR_SUSP_CNT d, (learnedFld d 3).addr] fun t =>
        (t.die d).busy = none ∧ (t.die d).hold = none ∧ others t ∧ t.flash.units = s.flash.units ∧
          ∀ p ∈ t.flash.plans, p.id = h.plan → ∀ m ∈ p.members, m.die = d → m.block = h.block → m.stage = .ready) ∧
    (∀ since h, (s.die d).busy = some (.erase, since) → (s.die d).hold = some h → (s.fbOf d h.block) = none →
      (h.suspends = 0 → unsaturated 4 (s.turn - h.since)) →
      Changes (.dieReady d false sr) s [.edgeRegs, .flash, .bytes, .nv]
        [Reg.FUR_STATUS d, Reg.FUR_EVENT d, Reg.FUR_SUSP_CNT d, (learnedFld d 4).addr] fun t =>
        (t.die d).busy = none ∧ (t.die d).hold = none ∧ t.flash.freed = ⟨d, h.block⟩ :: s.flash.freed ∧
          (t.blockInfo d h.block).erases = (s.blockInfo d h.block).erases + 1 ∧ t.peek (s.rdAddr d h.block) 4 = 0 ∧
          t.nv.wear.used = s.nv.wear.used + 1 ∧
          ∀ u ∈ t.flash.units, u.1 < unitKey d h.block 0 ∨ unitKey d h.block 0 + 2 ^ 32 ≤ u.1) ∧
    ((s.die d).busy.isSome = true → s.opAge d < s.opLimit d → exec (.statusTimeout d) s = .next s) ∧
    ((s.die d).busy.isSome = true → (s.die d).hold = none → s.opLimit d ≤ s.opAge d →
      Changes (.statusTimeout d) s [.flash, .sluice] [Reg.FUR_STATUS d, Reg.FUR_EVENT d, Reg.FUR_SUSP_CNT d, Reg.FUR_TIMEOUT d] fun t =>
        (t.die d).busy = some (.reset, s.turn) ∧ others t ∧ (d.val, s.turn + 1, none) ∈ t.sluice.diesOut ∧
          t.fld (Reg.FUR_EVENT_TIMEOUT d) = 1 ∧
          t.fld (Reg.FUR_TIMEOUT_ROT d) = min (2 ^ (Reg.FUR_TIMEOUT_ROT d).width - 1) (s.fld (Reg.FUR_TIMEOUT_ROT d) + 1) ∧
          (s.fld (Reg.FUR_TIMEOUT_ROT d) = 2 → (t.die d).stopped = true ∧ t.fld (Reg.FUR_EVENT_THIRD_TIMEOUT d) = 1) ∧
          (s.fld (Reg.FUR_TIMEOUT_ROT d) < 2 → (t.die d).stopped = (s.die d).stopped)) ∧
    (∀ since, (s.die d).busy = some (.reset, since) →
      Changes (.lunResetComplete d) s [.flash, .sluice, .free] [Reg.FUR_STATUS d] fun t => (t.die d).busy = none ∧ others t ∧
        ∀ x ∈ t.sluice.diesOut, x.1 = d → x.2.2 = some (s.turn + 1)) ∧
    ((∀ since, (s.die d).busy ≠ some (.reset, since)) → exec (.lunResetComplete d) s = .next s)

/-- RETRAIN_START, RETRAIN_TRAINING_END, RETRAIN_RETRY, RETRAIN_REQ and CHANNEL_UP_RESUME (R117, R144–R146): a retrain takes the channel
down and out of plan from the next turn and trains 256 turns at its rung; training that passes brings the channel up at the edge that
closes its last turn (`State.bringUp`), and the sluice plans on it from the turn after, a first
failure falls one rung where the floor allows it, and a last one leaves it down for 1,024 turns; a requested retrain books the
channel's whole plan layer for 512 turns and displaces nothing, waits while the channel is not up, and is not taken twice; in the
first turn after a channel came up no data is left in page registers and its dies that can resume do, and in no other turn. What the rules
leave open in these points is the model's own (assumption logs 11 and 131). -/
def Obligations.ChannelsRetrainAndResume : Prop :=
  ∀ (s : State) (c : Fin 64),
    let began (t : State) (rung : Nat) : Prop := t.fld (Reg.FCE_STATUS_STATE c) = 3 ∧ (t.chan c).training = some (rung, s.turn + 256)
    (s.fld (Reg.FCE_STATUS_STATE c) = 2 → (s.chan c).stopped = false →
      Changes (.retrainStart c) s [.edgeRegs, .flash, .sluice] [Reg.FCE_STATUS c, Reg.FCE_RETRAIN c] fun t => began t (s.rung c) ∧
        (c.val, s.turn + 1, none) ∈ t.sluice.chansOut ∧ (t.chan c).second = false ∧
        t.fld (Reg.FCE_RETRAIN_TOTAL c) = min (2 ^ (Reg.FCE_RETRAIN_TOTAL c).width - 1) (s.fld (Reg.FCE_RETRAIN_TOTAL c) + 1)) ∧
    (s.fld (Reg.FCE_STATUS_STATE c) ≠ 2 → exec (.retrainStart c) s = .next s) ∧
    (∀ rung ends, (s.chan c).training = some (rung, ends) →
      (∀ pass, s.turn < ends → exec (.retrainTrainingEnd c pass) s = .next s) ∧
      (ends ≤ s.turn → (s.chan c).raise = false → rung < 9 →
        (Does (.retrainTrainingEnd c true) s [.flash] [] fun t => (t.chan c).training = none ∧ (t.chan c).retryAt = none ∧
          ((t.chan c).coming = some (rung, if (s.chan c).second = true then 1 else 0)) ∧ ∀ n, n ≠ c.val → klook n t.flash.chans = klook n s.flash.chans) ∧
        ((s.chan c).second = false → rung + 1 ≤ s.fld (Reg.FCE_RATE_FLOOR_IDX c) →
          Changes (.retrainTrainingEnd c false) s [.edgeRegs, .flash] [Reg.FCE_STATUS c] fun t => began t (rung + 1) ∧ (t.chan c).second = true) ∧
        ((s.chan c).second = true ∨ s.fld (Reg.FCE_RATE_FLOOR_IDX c) < rung + 1 → s.fld (Reg.FCE_RETRAIN_FAILED_ROT c) < 2 →
          Changes (.retrainTrainingEnd c false) s [.edgeRegs, .flash] [Reg.FCE_STATUS c, Reg.FCE_RETRAIN c, Reg.FCE_EVENT c] fun t =>
            t.fld (Reg.FCE_STATUS_STATE c) = 4 ∧ (t.chan c).retryAt = some (s.turn + 1024) ∧ (t.chan c).training = none ∧
              t.fld (Reg.FCE_EVENT_RETRAIN_FAIL c) = 1 ∧ t.fld (Reg.FCE_RETRAIN_FAILED_ROT c) = s.fld (Reg.FCE_RETRAIN_FAILED_ROT c) + 1))) ∧
    (∀ rung ev, (s.chan c).coming = some (rung, ev) → rung < 9 →
      let t := s.bringUp c
      t.fld (Reg.FCE_STATUS_STATE c) = 2 ∧ t.fld (Reg.FCE_STATUS_CUR_IDX c) = rung ∧ t.fld (Reg.FCE_EVENT_RETRAIN_OK c) = 1 ∧
        (ev = 1 → t.fld (Reg.FCE_EVENT_RATE_DROP c) = 1) ∧ (ev = 2 → t.fld (Reg.FCE_EVENT_RATE_RAISE c) = 1) ∧
        (t.chan c).coming = none ∧ (t.chan c).cameUp = some (s.turn + 1) ∧ ∀ x ∈ t.sluice.chansOut, x.1 = c → x.2.2 = some (s.turn + 2)) ∧
    (∀ t0, (s.chan c).retryAt = some t0 → (s.chan c).stopped = false →
      (t0 ≤ s.turn → Changes (.retrainRetry c) s [.edgeRegs, .flash, .sluice] [Reg.FCE_STATUS c, Reg.FCE_RETRAIN c] fun t => began t (s.rung c)) ∧
      (s.turn < t0 → exec (.retrainRetry c) s = .next s)) ∧
    (∀ client target, reaches s client (Reg.FCE_CTRL c) → s.fld (Reg.FCE_CTRL_RETRAIN_REQ c) = 1 →
      Does (.retrainReq client c target) s [.idle] [] fun _ => True) ∧
    (∀ client target, reaches s client (Reg.FCE_CTRL c) → s.fld (Reg.FCE_CTRL_RETRAIN_REQ c) = 0 → s.fld (Reg.FCE_STATUS_STATE c) ≠ 2 →
      Does (.retrainReq client c target) s [.idle, .flash] [(Reg.FCE_CTRL_TARGET_IDX c, target), (Reg.FCE_CTRL_RETRAIN_REQ c, 1)] fun t =>
        ∀ n, t.chan n = s.chan n) ∧
    (∀ client target, reaches s client (Reg.FCE_CTRL c) → s.fld (Reg.FCE_CTRL_RETRAIN_REQ c) = 0 → s.fld (Reg.FCE_STATUS_STATE c) = 2 →
      (s.chan c).raiseAt = none →
      Changes (.retrainReq client c target) s [.idle, .flash, .sluice] [Reg.FCE_CTRL c] fun t =>
        t.fld (Reg.FCE_CTRL_RETRAIN_REQ c) = 1 ∧ t.fld (Reg.FCE_CTRL_TARGET_IDX c) = target % 2 ^ (Reg.FCE_CTRL_TARGET_IDX c).width ∧
          (∀ b ∈ s.sluice.bookings, b ∈ t.sluice.bookings) ∧
          ∀ t0, (t.chan c).raiseAt = some t0 → s.turn < t0 ∧
            ∃ b ∈ t.sluice.bookings, b.res = .chan c ∧ b.start = t0 ∧ b.len = 512) ∧
    (s.fld (Reg.FCE_STATUS_STATE c) = 2 → (s.chan c).cameUp = some s.turn →
      Completes (.channelUpResume c) s fun t => ∀ p, p < 16 → (t.die (16 * c + p)).page = none ∧
        (∀ h, (s.die (16 * c + p)).hold = some h → h.suspended.isSome = true → (s.die (16 * c + p)).busy = none →
          planFree s.turn s.sluice.bookings (.die (16 * c + p)) s.turn = true →
          (t.die (16 * c + p)).busy = some (if h.erase then .erase else .program, s.turn))) ∧
    (s.fld (Reg.FCE_STATUS_STATE c) ≠ 2 ∨ (s.chan c).cameUp ≠ some s.turn → exec (.channelUpResume c) s = .next s)

/-- DECODE_COMPLETE, READ_DISTURB_PROBE and PATROL_CYCLE (R250–R252, R264–R266, R275): a clean decode counts a pass and gives its codeword
to the plan that it serves; a failed one counts a failure and is reported; a removed decoder runs none. A probe of a
written block and a patrol read of a closed one with mapped data, at one of the cycle's page addresses, are background plans; a probe
whose codewords all pass at L0 sets the block's read counter back to half its limit (`State.probeEnd`), and any other probe, or the
block's fourth, makes its forme-block a refresh victim. What the rules
leave open in these points is the model's own (assumption logs 11 and 28). -/
def Obligations.DecodesProbesAndPatrols : Prop :=
  ∀ (s : State) (job : DecodeJob) (d : Fin 1024) (block page cw : Nat),
    let out := if job.soft then Reg.LDP_SOFT_OUT_OUT else Reg.LDP_HARD_OUT_OUT
    let passes := if job.soft then Reg.LDP_SOFT_PASS_COUNT else Reg.LDP_HARD_PASS_COUNT
    let fails := if job.soft then Reg.LDP_SOFT_FAIL_COUNT else Reg.LDP_HARD_FAIL_COUNT
    (∀ r, s.fld out / 2 ^ job.decoder % 2 = 1 → exec (.decodeComplete job r) s = .next s) ∧
    (s.fld out / 2 ^ job.decoder % 2 = 0 → job.step = 0 →
      Does (.decodeComplete job (.pass 0)) s [.flash, .sluice] [plus s passes 1] fun t =>
        (∀ p ∈ t.flash.plans, p.id = job.plan → ∀ m ∈ p.members, ∀ c, m.proof = some c → ∀ r ∈ c.reads, r.die = job.die →
          r.block = job.block → r.page = job.page → job.cw.val ∈ r.cws → r.phase ≠ .failed → job.cw.val ∈ r.passed) ∧
        ∀ p ∈ s.sluice.plans, p.id ≠ job.plan → p ∈ t.sluice.plans) ∧
    (s.fld out / 2 ^ job.decoder % 2 = 0 → s.flash.plans = [] →
      Changes (.decodeComplete job .fail) s [.flash, .bytes, .sluice] [fails.addr, Reg.LDP_MR_PTR, Reg.LDP_EVENT] fun t =>
        t.fld fails = min (2 ^ fails.width - 1) (s.fld fails + 1) ∧ ∀ p ∈ s.sluice.plans, p.id ≠ job.plan → p ∈ t.sluice.plans) ∧
    (∀ f, s.fbOf d block = some f → f.next ≠ 0 →
      Does (.readDisturbProbe d block cw) s [.flash, .sluice] [] fun t =>
        (t.blockInfo d block).probes = (s.blockInfo d block).probes + 1 ∧ t.flash.formeBlocks = s.flash.formeBlocks ∧
          ∃ p, t.sluice = { s.sluice with plans := s.sluice.plans ++ [p], nextPlan := s.sluice.nextPlan + 1 } ∧ p.id = s.sluice.nextPlan ∧
            p.work = some (.probe d block false) ∧ p.limit = none ∧ p.reads.length = 3) ∧
    ((s.fbOf d block = none ∨ ∃ f, s.fbOf d block = some f ∧ f.next = 0) → exec (.readDisturbProbe d block cw) s = .next s) ∧
    (∀ us high, let t := s.probeEnd us d block high
      (high = false → (∀ u ∈ us, u.failedL0 = false) → (s.blockInfo d block).probes < 4 →
        t.peek (s.rdAddr d block) 4 = s.fld Reg.LDP_RD_LIMIT_LIMIT / 2 ∧ t.flash = s.flash) ∧
      (high = true ∨ (∃ u ∈ us, u.failedL0 = true) ∨ 4 ≤ (s.blockInfo d block).probes → ∀ f ∈ t.flash.formeBlocks,
        (f.has fun m => m == ⟨d, block⟩) = true → f.isOpen = false ∧ (f.victim = 1 ∨ f.victim = 2 ∨ f.victim = 9))) ∧
    (∀ below trims, (s.fbOf d block = none → exec (.patrolCycle d block page ⟨cw, below, trims⟩) s = .next s) ∧
      ∀ f, s.fbOf d block = some f →
        (f.isOpen = true ∨ f.next ≤ page ∨ s.patrolPage page = false ∨ s.validUnits f = 0 →
          exec (.patrolCycle d block page ⟨cw, below, trims⟩) s = .next s) ∧
        (f.isOpen = false → page < f.next → s.patrolPage page = true → s.validUnits f ≠ 0 →
          Does (.patrolCycle d block page ⟨cw, below, trims⟩) s [.sluice] [] fun t =>
            ∃ p, t.sluice = { s.sluice with plans := s.sluice.plans ++ [p], nextPlan := s.sluice.nextPlan + 1 } ∧ p.id = s.sluice.nextPlan ∧
              p.work = some (.patrol d block below trims) ∧ p.limit = none ∧ p.reads.length = 1))

/-! ### Dredging, the weir, retirement and rebuilds (chapter 6) -/

/-- FORME_BLOCK_OPEN, DREDGE_COPY, VICTIM_ERASE and FORME_PROGRAM_PLAN (R219, R220, R226–R229, R268): a forme-block takes one free member block
on each of 16 channels, or none is opened while fewer have one; a copy is a background plan that reads a victim's live unit,
and leaves the map and the victim's flash as they were; when its read ends the unit waits for a destination as it is stored; a victim is
erased only when nothing of it is valid, copying or read; a forme's plan takes an accumulator, marks the slots that it carries and books a
proof read of each member, and one that waits behind a die with a hold has its slots in PLACING. What the rules leave open in these points
is the model's own (assumption logs 42, 44 and 45). -/
def Obligations.DredgingMovesLiveUnits : Prop :=
  ∀ (s : State) (lane b : Nat),
    (∀ dredge, lane < s.lanes →
      (((s.openOrder (dredge && s.wearNext lane) lane []).take 16).length < 16 →
        exec (.formeBlockOpen lane dredge) s = .next s) ∧
      (((s.openOrder (dredge && s.wearNext lane) lane []).take 16).length = 16 →
        Completes (.formeBlockOpen lane dredge) s fun t => ∃ fb, t.flash.formeBlocks = s.flash.formeBlocks ++ [fb] ∧ fb.lane = lane ∧
          fb.dredge = dredge ∧ fb.members.length = 16 ∧ (fb.members.map fun m => m.die / 16).Nodup ∧
          ∀ m ∈ fb.members, s.isFree m.die m.block = true ∧ s.opensOn m.die = true ∧ (t.blockInfo m.die m.block).free = false)) ∧
    (∀ f, s.formeBlock lane b = some f →
      (∀ k x, s.mayDredge f = true → k / 14 < f.next →
        let pl := b * max 1 s.unitsPerMb + k / 14
        s.copying f pl (k % 14) = false → s.unitAt lane pl (k % 14) = some x → x.kind = 0 → s.unitLive lane pl (k % 14) = true →
        Does (.dredgeCopy lane b k) s [.flash, .sluice] [] fun t =>
          t.flash.units = s.flash.units ∧ t.flash.copies = s.flash.copies ∧ t.sluice.nextPlan = s.sluice.nextPlan + 1 ∧
            (∃ p, t.sluice.plans = s.sluice.plans ++ [p] ∧ p.id = s.sluice.nextPlan ∧ p.cls = 7 ∧
              p.work = some (.dredge lane b pl (k % 14)) ∧ ∃ u, p.reads = [u] ∧ u.loc = some (lane, pl, k % 14) ∧ u.len = 4) ∧
            ∃ g, t.formeBlock lane b = some g ∧ g.victim ≠ 0) ∧
      (∀ pl m x u rest, s.unitAt lane pl m = some x → x.kind = 0 → s.unitLive lane pl m = true → u.path = .done →
        let t := s.dredgeEnd (u :: rest) lane b pl m
        t.flash.copies = s.flash.copies ++
            [{ unit := { x with sectors := s.liveSectors x pl m }, lane := lane, b := b, place := pl, member := m, handle := f.handle }] ∧
          t.flash.units = s.flash.units ∧ t.memory = s.memory ∧ t.galley = s.galley ∧
          ∃ g p, t.formeBlock lane b = some g ∧ (pl, m, p) ∈ g.copies ∧ p ≠ []) ∧
      (f.isOpen = true ∨ f.victim = 9 ∨ (∃ c ∈ f.copies, c.2.2 ≠ []) ∨ 0 < s.validUnits f ∨ (∃ m ∈ f.members, s.blockPinned m = true) →
        exec (.victimErase lane b) s = .next s) ∧
      (f.isOpen = false → f.victim ≠ 9 → (∀ c ∈ f.copies, c.2.2 = []) → s.validUnits f = 0 → (∀ m ∈ f.members, s.blockPinned m = false) →
        f.failed = [] → (∀ m ∈ f.members, s.dieCounts m.die = true) → f.members ≠ [] →
        Does (.victimErase lane b) s [.flash] [] fun t => t.flash.units = s.flash.units ∧
          (∀ m, m ∈ t.flash.eraseQueue ↔ m ∈ s.flash.eraseQueue ∨ m ∈ f.members) ∧
          ∃ g, t.formeBlock lane b = some g ∧ g.victim = 9 ∧ g.erasing = f.members) ∧
      (f.isOpen = true → (f.dredge = true ∨ ∀ x ∈ s.waitingSlots f.lane (some (s.formeHandle f)), s.slotReady x.2 = true) →
        s.formeUnits f ≠ [] → s.accRoom = true → f.next < s.unitsPerMb → s.tableWritten f = true →
        (∀ m ∈ f.members, s.chanInPlan (m.die / 16) s.turn = true) →
        ((∃ m ∈ f.members, (s.die m.die).canHold = false) → Does (.formeProgramPlan lane b) s [.galley] [] fun t =>
          ∀ x ∈ t.galley.slots, (∃ u ∈ s.formeUnits f, x.1 ∈ u.slots) → x.2.state ≠ .resident) ∧
        (∀ w ms tr, (∀ m ∈ f.members, (s.die m.die).canHold = true) → s.dataIns (f.members.take 14) 64 (s.turn + 17) = some w →
          s.layProofs s.sluice.nextPlan f.lane (f.b * max 1 s.unitsPerMb + f.next) (s.planMembers f w).zipIdx ⟨s.sluice.bookings, []⟩ = .ok (ms, tr) →
          Changes (.formeProgramPlan lane b) s [.flash, .galley, .sluice] [Reg.FRM_STATUS] fun t =>
            ∃ p, t.flash.plans = s.flash.plans ++ [p] ∧ p.id = s.sluice.nextPlan ∧ p.lane = f.lane ∧ p.b = f.b ∧ p.off = f.next ∧ p.members = ms ∧
              t.sluice.bookings = tr.bs ∧ t.flash.accs = p.id :: s.flash.accs ∧ t.sluice.nextPlan = s.sluice.nextPlan + 1 ∧
              t.flash.units = s.flash.units ∧ ∀ x ∈ t.galley.slots, x.1 ∈ p.slots → x.2.state = .placing ∧ x.2.inFlight = true)))

/-- WEIR_EVALUATION, SUSTAINABLE_RATE_COMPUTE, ALLOTMENT_TOPUP, ALLOT_ADD_WRITE, SPARE_RECOMPUTE and EARLY_WARNING_EVENT (R120, R218,
R222–R224, R234, R239, R242): the weir falls at once and rises only past its hysteresis, and a level sets its admission rate;
Sealed evaluates none; the rate starts a new span of counting and stays within the program bandwidth; added allotment waits for
the turn edge; a warning whose condition holds is raised, and with none holding and none raised nothing happens. What the rules
leave open in these points is the model's own (assumption logs 46, 131 and 170). -/
def Obligations.WeirAllotmentAndWarnings : Prop :=
  ∀ (s : State) (client : Nat) (v : Word),
    (s.fld Reg.SLU_STATUS_SEALED = 1 → exec .weirEvaluation s = .next s) ∧
    (s.fld Reg.SLU_STATUS_SEALED = 0 →
      Does .weirEvaluation s [.flash, .edgeRegs] [(Reg.SLU_WEIR_RATE, s.weirRate (s.weirNext s.phi))] fun t =>
        (s.flash.weir ≤ s.weirOf s.phi → t.flash.weir = s.weirOf s.phi) ∧
          (t.flash.weir < s.flash.weir → s.param (2 + t.flash.weir) + s.param 6 ≤ s.phi) ∧
          t.flash = { s.flash with weir := t.flash.weir, dredgeFloor := t.flash.dredgeFloor } ∧ t.flash.dredgeFloor ≤ s.flash.bw) ∧
    (Does .sustainableRateCompute s [.flash] [] fun t => t.flash.readBus = 0 ∧ t.flash.hostUnits = 0 ∧ t.flash.vfrac = s.headFrac ∧
      t.flash.hsus ≤ s.programSum * 14 / 16 * (1 - s.headFrac) ∧ t.flash.weir = s.flash.weir ∧
      t.flash.dredgeFloor ≤ t.flash.bw) ∧
    (s.nv.wear.burst = true → Does .allotmentTopup s [.sluice] [] fun t =>
      t.sluice = { s.sluice with allotAdd := s.sluice.allotAdd + (s.topupTarget - s.fld Reg.SLU_ALLOT_BAL_BALANCE) }) ∧
    (s.nv.wear.burst = false → exec .allotmentTopup s = .next s) ∧
    (reaches s client Reg.SLU_ALLOT_ADD → Does (.allotAddWrite client v) s [.idle, .sluice] [] fun t =>
      t.sluice = { s.sluice with allotAdd := s.sluice.allotAdd + v.toNat % 2 ^ Reg.SLU_ALLOT_ADD_ADD.width }) ∧
    (Does .spareRecompute s [.flash] [] fun t => t.flash.avail = s.availOf ∧ t.flash.units = s.flash.units) ∧
    (Changes .earlyWarningEvent s [.nv, .host, .mgmt, .log] [] fun t =>
      ∀ w ∈ s.warnings, w.now = true → klook w.key t.nv.raised = some none) ∧
    ((∀ w ∈ s.warnings, w.now = false) → s.nv.raised = [] → exec .earlyWarningEvent s = .next s)

/-- CHAN_OUT_WRITE, DIE_STATE_WRITE, REBUILD_START and REBUILD_MEMBER_COMPLETE (R132, R133, R237, R271–R273): each bit newly set retires
its channel for good, and every other bit stands; a die is set in service, failing or retired, and a retired one takes no
further write; a retirement is recorded in the ledger; the first rebuild starts at once and SLU.STATUS.REBUILD shows it; a
member that every unit can be rebuilt for lies in a new block when it is done. What the rules
leave open in these points is the model's own (assumption logs 12 and 102). -/
def Obligations.RetirementsAndRebuilds : Prop :=
  ∀ (s : State) (client : Nat),
    (∀ (m : Fin 2) (v : Word), reaches s client (Reg.SLU_CHAN_OUT m) →
      Completes (.chanOutWrite client m v) s fun t =>
        t.fld (Reg.SLU_CHAN_OUT_OUT m) = s.fld (Reg.SLU_CHAN_OUT_OUT m) ||| v.toNat ∧
          ∀ i : Fin 32, bitsOf v i 1 = 1 → s.chanRetired (32 * m + i) = false → t.fld (Reg.FCE_STATUS_STATE (32 * m.val + i.val)) = 5) ∧
    (∀ d : Fin 1024, reaches s client (Reg.SLU_DIE_STATE d) →
      (∀ v, s.fld (Reg.SLU_DIE_STATE_STATE d) = 2 → Does (.dieStateWrite client d v) s [.idle] [] fun _ => True) ∧
      (s.fld (Reg.SLU_DIE_STATE_STATE d) = 1 →
        Changes (.dieStateWrite client d 0) s [.idle, .edgeRegs, .flash] [Reg.SLU_DIE_STATE d, Reg.FUR_STATUS d] fun t =>
          t.fld (Reg.SLU_DIE_STATE_STATE d) = 0 ∧ (t.die d).stopped = false) ∧
      (s.fld (Reg.SLU_DIE_STATE_STATE d) = 0 ∨ s.fld (Reg.SLU_DIE_STATE_STATE d) = 3 → Completes (.dieStateWrite client d 1) s fun t =>
        t.fld (Reg.SLU_DIE_STATE_STATE d) = 1 ∧ t.fld (Reg.FUR_STATUS_STATE d) = 0xA ∧ (s.nv.fdp = false → t.nv = s.nv)) ∧
      (s.fld (Reg.SLU_DIE_STATE_STATE d) ≠ 2 → Completes (.dieStateWrite client d 2) s fun t =>
        t.fld (Reg.SLU_DIE_STATE_STATE d) = 2 ∧ t.fld (Reg.FUR_STATUS_STATE d) = 0xB ∧ d.val ∈ t.nv.retiredDies ∧
          ∃ r ∈ t.nv.ledger, r.kind = 2 ∧ r.id = d.val ∧ r.turn = s.turn)) ∧
    (Changes .rebuildStart s [.flash] [Reg.SLU_STATUS] fun t =>
      (t.fld Reg.SLU_STATUS_REBUILD = if t.flash.rebuilds.any (fun r => decide (r.state ≤ 1)) then 1 else 0) ∧
        ∀ u, s.flash.rebuilds = [] → s.unrecorded = [u] → (s.hitBlocks fun d => if u.1 then d / 16 == u.2 else d == u.2) ≠ [] →
          ∃ r, t.flash.rebuilds = [r] ∧ r.chan = u.1 ∧ r.unit = u.2 ∧ r.state = 1 ∧ r.start = s.turn ∧
            r.total = (s.hitBlocks fun d => if u.1 then d / 16 == u.2 else d == u.2).length) ∧
    (∀ lane b i f r n m rest, s.formeBlock lane b = some f → s.flash.rebuilds = [r] → r.state = 1 → r.left = [(lane, b, i)] → i < f.members.length →
      (∀ o, o < f.next → 14 ≤ s.readable f.lane (f.b * max 1 s.unitsPerMb + o) i) → s.openOrder false f.lane f.chans = (n, m) :: rest →
      Completes (.rebuildMemberComplete lane b i) s fun t =>
        (∃ g, t.formeBlock lane b = some g ∧ g.members[i]? = some m) ∧ (t.blockInfo m.die m.block).free = false ∧
          (∃ q, t.flash.rebuilds = [q] ∧ q.state = 2 ∧ q.done = r.done + 1 ∧ q.ended = s.turn) ∧ t.fld Reg.SLU_STATUS_REBUILD = 0)

/-! ### Queues, doorbells and fetch (chapter 2) -/

/-- SQ_TAIL_DOORBELL, CQ_HEAD_DOORBELL, ENTRY_FETCH, FETCH_RESUME_ON_CONTEXT and INTERRUPT_COALESCING_EXPIRY (R55, R56, R58–R61, R67,
R75): a tail makes its new entries visible with the turn as their stamp, in place of those that the
same turn had made visible; on a frozen queue it is stored; an invalid one is ignored, and reported at the turn's end; a link in L1 leaves it first; a head stands until
the turn's end, and then frees entries and posts what was held; a fetched entry takes a context and a quoin and carries the outcome of the
first check that fails, and one that passes them without a context is refused with reason 09, or pauses its queue. What the rules leave open
in these points is the model's own (assumption logs 10, 23, 35 and 149). -/
def Obligations.QueuesFollowTheirDoorbells : Prop :=
  ∀ (s : State) (c : Fin 2), s.running c = true →
    (∀ qid q v, qid ≠ 0 → s.sq c qid = some q →
      let used (x : Nat) : Nat := (x + q.size - q.head) % q.size
      let kept := q.visible.filter fun x => x.1 != s.turn
      ((s.ctl c).link = .l0 → v < q.size → q.frozen = false → kept.length ≤ used v → s.power.mode ≠ .conserve → s.power.entry = none →
        Does (.sqTailDoorbell c qid v) s [.host] [] fun t =>
          sqNow s t c qid (some { q with tail := v, visible := kept ++ List.replicate (used v - kept.length) (s.turn, q.cls, q.ordered, 0) }) ∧
            t.host.cmds = s.host.cmds) ∧
      ((s.ctl c).link ≠ .l0 → v < q.size → q.frozen = false → kept.length ≤ used v → s.power.mode ≠ .conserve → s.power.entry = none →
        Completes (.sqTailDoorbell c qid v) s fun t => (t.ctl c).link = .l0 ∧
          t.sq c qid = some { q with tail := v, visible := kept ++ List.replicate (used v - kept.length) (s.turn, q.cls, q.ordered, 0) }) ∧
      ((s.ctl c).link = .l0 → q.frozen = true →
        Does (.sqTailDoorbell c qid v) s [.host] [] fun t => sqNow s t c qid (some { q with storedTail := some v }) ∧ t.host.cmds = s.host.cmds) ∧
      ((s.ctl c).link = .l0 → q.size ≤ v ∨ used v < kept.length → q.frozen = false → kept = q.visible →
        Does (.sqTailDoorbell c qid v) s [.host] [] fun t =>
          t.sq c qid = some q ∧ klook (2 * qid) (t.ctl c).badBells = some (1, v) ∧ t.host.cmds = s.host.cmds)) ∧
    (∀ b, (s.ctl c).badBells = [b] → (∀ q ∈ s.allCqs c, q.newHead = none) →
      let t := s.bellTurn c
      bitsOf (t.word Reg.HGT_EVENT) (2 + c.val) 1 = 1 ∧ (t.ctl c).badBells = [] ∧ logged s t 0x0803 0 0x3FF (b.1 / 2 + b.2.2 * 2 ^ 32)) ∧
    (∀ qid v, s.cq c qid = none → Does (.cqHeadDoorbell c qid v) s [.host] [] fun t =>
      klook (2 * qid + 1) (t.ctl c).badBells = some (0, v) ∧ t.host.cmds = s.host.cmds) ∧
    (∀ qid q v, s.cq c qid = some q → q.qid = qid →
      Does (.cqHeadDoorbell c qid v) s [.host] [] (fun t => cqNow s t c qid (some { q with newHead := some v })) ∧
      (v < q.size →
        let n := (v + q.size - q.head) % q.size
        let t := s.takeHead c q v
        (n ≤ q.entries.length → q.held = [] → cqNow s t c qid (some { q with newHead := none, head := v, entries := q.entries.drop n })) ∧
        (∀ x, n ≤ q.entries.length → q.held = [x] → q.entries.length - n + 1 < q.size →
          cqNow s t c qid (some { q with newHead := none, head := v, held := [], entries := q.entries.drop n ++ [x.e] })) ∧
        (q.entries.length < n → klook (2 * qid + 1) (t.ctl c).badBells = some (1, v)))) ∧
    (∀ sqid q v rest e rtt, s.host.admitStop = false → sqid ≠ 0 → s.sq c sqid = some q → q.visible = v :: rest → q.frozen = false → q.paused = false →
      s.nextSq c = some sqid → s.fetchedNow c < 2048 →
      let base (k : Cmd) : Prop := k.ref = ⟨c, sqid, e.cid⟩ ∧ k.sqe = e ∧ k.stamp = v.1 ∧ k.cls = v.2.1 ∧ k.ordered = v.2.2.1 ∧
        k.fetched = s.turn ∧ k.order = s.host.order ∧ k.quoin = (s.ns e.nsid).map fun n => quoinOf n e
      (s.ctxFree c = true → e.poisoned = false →
        Does (.entryFetch c sqid [e] rtt) s [.host] [] fun t =>
          sqNow s t c sqid (some { q with head := (q.head + 1) % max 1 q.size, visible := rest }) ∧
          ∃ k, t.host.cmds = s.host.cmds ++ [k] ∧ base k ∧ k.phase = .fetched ∧ k.outcome =
            match s.check c e with
            | some st => some (st.sct, st.sc, st.dnr, st.dw0)
            | none => if e.opcode = 0 ∨ sqeKind e = .unplanned then some (0, 0, false, 0) else none) ∧
      (s.ctxFree c = true → e.poisoned = true →
        Does (.entryFetch c sqid [e] rtt) s [.host] [(Reg.HGT_EVENT_POISONED, 1)] fun t =>
          ∃ k, t.host.cmds = s.host.cmds ++ [k] ∧ base k ∧ k.outcome = some (0, 4, false, 0)) ∧
      (s.ctxFree c = false → s.level c ≠ 0 → v.2.1 ≠ 7 → (s.ctl c).exhausted = true → e.poisoned = false →
        (s.check c e = none → Does (.entryFetch c sqid [e] rtt) s [.host, .sluice] [plus s (Reg.SLU_REFUSE_COUNT 8) 1] fun t =>
          ∃ k, t.host.cmds = s.host.cmds ++ [k] ∧ base k ∧ k.phase = .short ∧ k.outcome = some (7, 0x80, false, s.ctxHint c + 9 * 2 ^ 16)) ∧
        (∀ st, s.check c e = some st → Does (.entryFetch c sqid [e] rtt) s [.host] [] fun t =>
          ∃ k, t.host.cmds = s.host.cmds ++ [k] ∧ base k ∧ k.phase = .short ∧ k.outcome = some (st.sct, st.sc, st.dnr, st.dw0))) ∧
      (s.ctxFree c = false → s.level c = 0 ∨ v.2.1 = 7 → (s.ctl c).exhausted = true →
        Does (.entryFetch c sqid [e] rtt) s [.host] [] fun t =>
          t.host.cmds = s.host.cmds ∧ sqNow s t c sqid (some { q with paused := true }))) ∧
    (s.ctxFree c = true → Does (.fetchResumeOnContext c) s [.host] [] fun t =>
      t.ctl c = { s.ctl c with sqs := (s.ctl c).sqs.map fun q => { q with paused := false } } ∧ t.host.cmds = s.host.cmds) ∧
    (s.ctxFree c = false → exec (.fetchResumeOnContext c) s = .next s) ∧
    (∀ v n, klook v (s.ctl c).coalesced = some n → Does (.interruptCoalescingExpiry c v) s [.host] [] fun t =>
      v ∈ (t.ctl c).msix ∧ klook v (t.ctl c).coalesced = none ∧ t.host.cmds = s.host.cmds) ∧
    (∀ v, klook v (s.ctl c).coalesced = none → exec (.interruptCoalescingExpiry c v) s = .next s)

/-- CREATE_IO_CQ, CREATE_IO_SQ, DELETE_IO_SQ, DELETE_IO_CQ, QUEUE_RESTART, ABORT and ASYNCHRONOUS_EVENT_REQUEST (R53, R57, R60, R62, R71,
R72, R75, R77) on a controller's admin queue: a queue that can be is made or deleted and the command completes; a queue in use is not
deleted; a restart ends the freeze, takes the stored tail and drops the record; an Abort settles a command that was fetched before
this turn, and has neither started nor is in posting, with Command Abort Requested, marks its reservations for release, and completes later; an event request is held, completed at once by an event that waits, or over the limit of 16. What the rules
leave open in these points is the model's own (assumption logs 18, 36, 74 and 149). -/
def Obligations.QueueCommandsAnswer : Prop :=
  ∀ (s : State) (a : Adm) (c : Fin 2), hgTakes s a c →
    (∀ qid size vector ien, 1 ≤ qid → qid ≤ 8192 → s.cq c qid = none → 1 ≤ size → size < 65536 → vector < 8192 →
      Does (.createIoCq a qid size vector true ien) s [.host] [] fun t =>
        (t.ctl c).cqs = (s.ctl c).cqs ++ [{ qid := qid, size := size + 1, vector := vector, ien := ien }] ∧ (t.ctl c).sqs = (s.ctl c).sqs ∧
          replied s t a St.ok []) ∧
    (∀ qid size vector ien, qid = 0 ∨ 8192 < qid ∨ (s.cq c qid).isSome →
      Does (.createIoCq a qid size vector true ien) s [.host] [] fun t => (t.ctl c).cqs = (s.ctl c).cqs ∧ replied s t a St.invalidQueue []) ∧
    (∀ qid size cqid, 1 ≤ qid → qid ≤ 8192 → s.sq c qid = none → 1 ≤ size → size < 65536 → cqid ≠ 0 → (s.cq c cqid).isSome →
      Does (.createIoSq a qid size cqid true) s [.host] [] fun t =>
        (t.ctl c).sqs = (s.ctl c).sqs ++ [{ qid := qid, size := size + 1, cqid := cqid }] ∧ (t.ctl c).cqs = (s.ctl c).cqs ∧
          replied s t a St.ok []) ∧
    (∀ qid size cqid, cqid = 0 ∨ s.cq c cqid = none →
      Does (.createIoSq a qid size cqid true) s [.host] [] fun t => (t.ctl c).sqs = (s.ctl c).sqs ∧ replied s t a St.invalidCq []) ∧
    (∀ qid, qid ≠ 0 → (s.sq c qid).isSome →
      Changes (.deleteIoSq a qid) s [.host, .sluice, .galley] [] fun t =>
        t.sq c qid = none ∧ (∀ n, n ≠ qid → t.sq c n = s.sq c n) ∧ (∀ f ∈ (t.ctl c).freezes, f.sqid ≠ qid) ∧
          (∀ k ∈ t.host.cmds, k.ref.ctrl = c → k.ref.sqid = qid → k.discard = true) ∧ replied s t a St.ok []) ∧
    (∀ qid, qid ≠ 0 → (s.cq c qid).isSome →
      ((∀ q ∈ (s.ctl c).sqs, q.cqid ≠ qid) → Does (.deleteIoCq a qid) s [.host] [] fun t => t.cq c qid = none ∧ replied s t a St.ok []) ∧
      ((∃ q ∈ (s.ctl c).sqs, q.cqid = qid) → Does (.deleteIoCq a qid) s [.host] [] fun t =>
        (t.ctl c).cqs = (s.ctl c).cqs ∧ replied s t a St.invalidDeletion [])) ∧
    (∀ sqid seq,
      (s.level c < 2 → Does (.queueRestart a sqid seq) s [.host] [] fun t => t.sq c sqid = s.sq c sqid ∧ replied s t a St.invalidOpcode []) ∧
      (∀ q, 2 ≤ s.level c → sqid ≠ 0 → s.sq c sqid = some q →
        (q.frozen = false → Does (.queueRestart a sqid seq) s [.host] [] fun t => t.sq c sqid = some q ∧ replied s t a St.sequence []) ∧
        (q.frozen = true → (∃ f ∈ (s.ctl c).freezes, f.sqid = sqid ∧ f.seq = seq) →
          let out (t : State) : Prop := (∀ f ∈ (t.ctl c).freezes, f.sqid ≠ sqid) ∧ (t.ctl c).freezeGen = (s.ctl c).freezeGen + 1 ∧
            replied s t a St.ok []
          (q.storedTail = none → Does (.queueRestart a sqid seq) s [.host] [] fun t =>
            t.sq c sqid = some { q with frozen := false } ∧ out t) ∧
          (∀ v, q.storedTail = some v → v < q.size →
            let kept := q.visible.filter fun x => x.1 != s.turn
            let new := (v + q.size - q.head) % q.size
            kept.length ≤ new → s.power.mode ≠ .conserve → s.power.entry = none →
            Does (.queueRestart a sqid seq) s [.host] [] fun t =>
              t.sq c sqid = some { q with frozen := false, storedTail := none, tail := v
                                          visible := kept ++ stampNew s q (new - kept.length) } ∧ out t)))) ∧
    (∀ sqid cid, sqid ≠ 0 →
      let later (t : State) (target : Option (CmdRef × Nat)) (bit : Nat) : Prop :=
        t.ctl c = { s.ctl c with aborts := (s.ctl c).aborts ++ [⟨a, target, bit, s.turn⟩] }
      ((s.ctl c).aborts.length < 64 →
        (∀ k, s.cmd ⟨c, sqid, cid⟩ = some k → k.fetched ≠ s.turn → k.posting s.turn = false → k.phase ≠ .started →
          Does (.abort a sqid cid) s [.host, .sluice] [] fun t =>
            (∀ x ∈ t.host.cmds, x.ref = ⟨c, sqid, cid⟩ → x.outcome = some (0, 7, false, 0) ∧ x.postAt = some (s.turn + 1)) ∧
              (k.phase = .accepted → t.sluice = { s.sluice with released := s.sluice.released ++ [k.plan] }) ∧
              (k.phase ≠ .accepted → t.sluice = s.sluice) ∧ later t (some (k.ref, k.order)) 0) ∧
        (∀ k, s.cmd ⟨c, sqid, cid⟩ = some k → k.fetched = s.turn ∨ k.posting s.turn = true ∨ k.phase = .started →
          Does (.abort a sqid cid) s [.host] [] fun t => t.host.cmds = s.host.cmds ∧ later t none 1) ∧
        (s.cmd ⟨c, sqid, cid⟩ = none → Does (.abort a sqid cid) s [.host] [] fun t => t.host.cmds = s.host.cmds ∧ later t none 1)) ∧
      (64 ≤ (s.ctl c).aborts.length → Does (.abort a sqid cid) s [.host] [] fun t =>
        t.host.cmds = s.host.cmds ∧ replied s t a St.abortLimit [])) ∧
    ((s.ctl c).aers.length < 16 →
      ((s.ctl c).events = [] → Does (.asynchronousEventRequest a) s [.host] [] fun t =>
        t.ctl c = { s.ctl c with aers := (s.ctl c).aers ++ [a] } ∧ t.host.cmds = s.host.cmds) ∧
      (∀ e rest, (s.ctl c).events = e :: rest → Does (.asynchronousEventRequest a) s [.host] [] fun t =>
        (t.ctl c).events = rest ∧ (t.ctl c).aers = (s.ctl c).aers ∧ eventKey e.type e.info e.lid ∈ (t.ctl c).masked ∧
          replied s t a (St.done (e.type + e.info * 256 + e.lid * 65536)) [])) ∧
    (16 ≤ (s.ctl c).aers.length → Does (.asynchronousEventRequest a) s [.host] [] fun t =>
      (t.ctl c).aers = (s.ctl c).aers ∧ replied s t a St.aerLimit [])

/-! ### Admission (chapter 3) -/

/-- ADMISSION_DECISION, and WRITE, READ, COMPARE, WRITE_ZEROES, DATASET_MANAGEMENT with AD, VERIFY, COPY, ZONE_MANAGEMENT_SEND,
ZONE_MANAGEMENT_RECEIVE and ZONE_APPEND of the one command in a context, when it is due (R94, R96, R110–R112, R121, R177, R443, R444):
a table fault ends it with Internal Error; best effort is held; a bar or a plan that fails refuses it with the reason and hint in
DW0, counted; a plan that is found is committed with its bookings, posts by the limit and debits the allotment. What the rules
leave open in these points is the model's own (assumption logs 14, 37, 39 and 119). -/
def Obligations.AdmissionDecidesCommands : Prop :=
  ∀ (s : State) (r : CmdRef) (k : Cmd) (n : Namespace), s.host.cmds = [k] → k.ref = r → s.due k = true → s.ns k.sqe.nsid = some n →
    let cls := s.decideClass k n
    let refused (t : State) (e h : Nat) : Prop := t.cmd r = some (settled k (St.refused e h) (s.turn + 1)) ∧
      t.sluice.plans = s.sluice.plans ∧ t.sluice.bookings = s.sluice.bookings
    let decides (i : Instr) : Prop :=
      (s.parts k n = none → Changes i s [.host, .log] [] fun t => t.cmd r = some (settled k St.internal s.turn)) ∧
      (∀ p, s.parts k n = some p →
        (cls = 7 → Does i s [.host, .sluice] [] fun t => t.cmd r = some { k with phase := .held, cls := 7 } ∧ t.sluice.plans = s.sluice.plans) ∧
        (cls ≠ 7 →
          (∀ e, s.writeBar k n p = some e → Does i s [.host, .sluice] [plus s (Reg.SLU_REFUSE_COUNT (e - 1)) 1] fun t => ∃ h, refused t e h) ∧
          (s.writeBar k n p = none →
            (s.memory.searching ≠ [] → Does i s [.host, .sluice] [plus s (Reg.SLU_REFUSE_COUNT 7) 1] fun t => refused t 8 0xFFFF) ∧
            (s.memory.searching = [] → s.linesFit k (s.mapLines p k) = false →
              Does i s [.host, .sluice] [plus s (Reg.SLU_REFUSE_COUNT 8) 1] fun t => refused t 9 1) ∧
            (cls = k.cls → s.memory.searching = [] → s.linesFit k (s.mapLines p k) = true → s.badLine (s.mapLines p k) = none →
              let u := s.countLines k (s.mapLines p k)
              (∀ e, u.tryPlan k n p cls k.stamp = .error e → Completes i s fun t =>
                refused t e (u.refusalHint k n p cls e) ∧ t.fld (Reg.SLU_REFUSE_COUNT (e - 1)) =
                  min (2 ^ (Reg.SLU_REFUSE_COUNT (e - 1)).width - 1) (s.fld (Reg.SLU_REFUSE_COUNT (e - 1)) + 1)) ∧
              (∀ d tr, u.tryPlan k n p cls k.stamp = .ok (d, tr) → Completes i s fun t =>
                (∃ l, t.cmd r = some { k with phase := .accepted, limit := s.limitOf k cls k.stamp, plan := s.sluice.nextPlan
                                              lba := s.writeLba k n, slots := l }) ∧
                (∃ q, t.sluice.plans = s.sluice.plans ++ [q] ∧ q.id = s.sluice.nextPlan ∧ q.ref = some r ∧ q.decided = s.turn ∧
                  q.limit = some (s.limitOf k cls k.stamp) ∧ q.post = d.post ∧ q.post ≤ s.limitOf k cls k.stamp) ∧
                t.sluice.bookings = tr.bs ∧ t.sluice.nextPlan = s.sluice.nextPlan + 1 ∧
                t.fld Reg.SLU_ALLOT_BAL_BALANCE = s.fld Reg.SLU_ALLOT_BAL_BALANCE - k.units4k n p)))))
    decides .admissionDecision ∧ (k.sqe.opcode = 0x01 → decides (.write r)) ∧ (k.sqe.opcode = 0x02 → decides (.read r)) ∧
      (k.sqe.opcode = 0x05 → decides (.compare r)) ∧ (k.sqe.opcode = 0x08 → decides (.writeZeroes r)) ∧
      (k.sqe.opcode = 0x09 → decides (.datasetManagement r)) ∧ (k.sqe.opcode = 0x0C → decides (.verify r)) ∧
      (k.sqe.opcode = 0x19 → decides (.copy r)) ∧ (k.sqe.opcode = 0x79 → decides (.zoneManagementSend r)) ∧
      (k.sqe.opcode = 0x7A → decides (.zoneManagementReceive r)) ∧ (k.sqe.opcode = 0x7D → decides (.zoneAppend r))

/-- The hint of a refusal is the least h whose retry, observed at 16 h turns after the posting and decided three turns later, is accepted
on the unchanged calendar (R112, R113). What the rules
leave open in these points is the model's own (assumption logs 14 and 15). -/
def Obligations.RefusalHintIsLeast : Prop :=
  ∀ (s : State) (k : Cmd) (n : Namespace) (p : Parts) (cls reason : Nat),
    let try_ (h : Nat) : Except Nat (Draft × Trial) := (s.future (s.turn + 1 + 16 * h + 3)).tryPlan k n p cls (s.turn + 1 + 16 * h)
    (reason = 0xA → s.hint k n p cls reason = 0xFFFF) ∧
    (s.hint k n p cls reason ≠ 0xFFFF → (∃ x, try_ (s.hint k n p cls reason) = .ok x) ∧
      ∀ h, h < s.hint k n p cls reason → ∃ e, try_ h = .error e) ∧
    (reason ≠ 0xA → s.hint k n p cls reason = 0xFFFF → ∀ h, h < 0xFFFF → ∃ e, try_ h = .error e)

/-- BEST_EFFORT_COMMIT, FLUSH, DATASET_MANAGEMENT without AD, and POISONED_TLP (R51, R68, R96, R194, R242): a held command is accepted
when its background plan fits and otherwise waits; in Sealed a held write ends with Namespace Is Write Protected; Flush and Dataset
Management without AD post one completion entry in the turn after the fetch; a poisoned write, Compare
or range list ends with Data Transfer Error; on an admin queue the command does when its row comes. What the rules
leave open in these points is the model's own (assumption log 35). -/
def Obligations.HeldAndImmediateCommands : Prop :=
  ∀ (s : State) (r : CmdRef),
    (r.sqid = 0 → Does (.poisonedTlp r) s [.host] [(Reg.HGT_EVENT_POISONED, 1)] fun t =>
      r.cid ∈ (t.ctl r.ctrl).poisoned ∧ t.host.cmds = s.host.cmds) ∧
    ∀ k, s.cmd r = some k →
    (∀ n, k.phase = .held → k.outcome = none → s.ns k.sqe.nsid = some n →
      (k.kind.writes = true → s.power.mode = .sealed → Does (.bestEffortCommit r) s [.host] [] fun t =>
        t.cmd r = some (settled k St.writeProtected (s.turn + 1))) ∧
      (∀ p, (k.kind.writes = true → s.power.mode ≠ .sealed) → s.parts k n = some p →
        (∀ e, s.tryPlan k n p 7 k.stamp = .error e → e ≠ 8 → exec (.bestEffortCommit r) s = .next s) ∧
        (∀ d tr, s.tryPlan k n p 7 k.stamp = .ok (d, tr) → Completes (.bestEffortCommit r) s fun t =>
          (∃ l, t.cmd r = some { k with phase := .accepted, limit := 0, plan := s.sluice.nextPlan, cls := 7, lba := s.writeLba k n, slots := l }) ∧
            t.sluice.bookings = tr.bs ∧ (∃ q, t.sluice.plans = s.sluice.plans ++ [q] ∧ q.ref = some r ∧ q.limit = none ∧ q.post = d.post)))) ∧
    (let posts (i : Instr) : Prop :=
      (s.turn < k.fetched + 1 → exec i s = .next s) ∧
      (∀ q qc, k.fetched + 1 ≤ s.turn → s.waitsTurn k = false → k.outcome = some (0, 0, false, 0) → k.phase = .fetched → k.discard = false →
        s.sq r.ctrl r.sqid = some q → s.cq r.ctrl q.cqid = some qc → qc.full = false → qc.held = [] →
        Does i s [.host] [] fun t => (∀ x ∈ t.host.cmds, x.ref ≠ r) ∧
          t.cq r.ctrl q.cqid = some { qc with entries := qc.entries ++
            [{ sqid := r.sqid, cid := r.cid, sct := 0, sc := 0, dnr := false, dw0 := 0, dw1 := 0, sqhd := q.head, turn := s.turn, data := [] }] })
     (k.sqe.opcode = 0 → posts (.flush r)) ∧ (k.sqe.opcode = 9 → k.sqe.ad = false → posts (.datasetManagement r))) ∧
    (r.sqid ≠ 0 → k.outcome = none → k.phase ≠ .accepted → k.phase ≠ .started →
      k.sqe.opcode = 0x01 ∨ k.sqe.opcode = 0x05 ∨ k.sqe.opcode = 0x7D ∨ ((k.sqe.opcode = 0x19 ∨ k.sqe.opcode = 0x09) ∧ k.phase ≠ .short) →
      (∀ p ∈ s.sluice.plans, p.id ≠ k.plan) →
      Does (.poisonedTlp r) s [.host] [(Reg.HGT_EVENT_POISONED, 1)] fun t =>
        t.cmd r = some (settled { k with phase := .fetched, poisoned := true } St.dataTransfer (s.turn + 1)))

/-! ### Features, log pages and Identify (chapters 2 and 14) -/

/-- SET_FEATURES, GET_FEATURES, SET_TWIOT_LEVEL, CLASS_BINDING, ORDERING_MODE, KEEP_AWAKE_FLOOR, POWER_MANAGEMENT and TIMESTAMP (R69, R73,
R78–R80, R83, R439): a feature takes its value and reads back; the Twiot level is set while the controller has no I/O SQ; class,
ordering mode and floor need levels 1, 2 and 3; a power state that leaves Conserve out is in force at once, and one that enters it
begins the entry. What the rules
leave open in these points is the model's own (assumption logs 18, 71 and 72). -/
def Obligations.FeaturesAreSetAndRead : Prop :=
  ∀ (s : State) (a : Adm) (sv : Bool) (w v : Word) (d : Bytes), hears s a →
    let c := admOwner a.path
    let fails (i : Instr) (st : Status) : Prop := Does i s [.host, .mgmt] [] fun t =>
      replied s t a st [] ∧ t.sq c = s.sq c ∧ t.host.cmds = s.host.cmds ∧ (t.ctl c).features = (s.ctl c).features
    (s.power.mode ≠ .conserve →
      (∀ fid, fid = 8 ∨ fid = 0xB ∨ (sv = false ∧ (fid = 1 ∨ fid = 5)) →
        Does (.setFeatures a fid sv w ⟨v, d⟩) s [.host, .mgmt, .nv] [] fun t => klook fid (t.ctl c).features = some w.toNat ∧ replied s t a St.ok [] ∧
          t.nv = { s.nv with features := if sv then kput (savedKey c fid) w.toNat s.nv.features else s.nv.features }) ∧
      (∀ fid, fid = 1 ∨ fid = 5 ∨ fid = 8 ∨ fid = 0xB → Does (.getFeatures a fid w) s [.host, .mgmt] [] fun t =>
        replied s t a (St.done (s.feature c fid)) []) ∧
      (Completes (.setFeatures a 0xC sv w ⟨v, d⟩) s fun t => klook 0xC (t.ctl c).features = some w.toNat ∧
        klook apstKey (t.ctl c).features = some (leNat (d.take 256)) ∧ replied s t a St.ok []) ∧
      (Does (.getFeatures a 0xC w) s [.host, .mgmt] [] fun t => replied s t a (St.done (s.feature c 0xC)) [leBytes 256 (s.feature c apstKey)]) ∧
      (∀ fid, fid = 1 ∨ fid = 5 → fails (.setFeatures a fid true w ⟨v, d⟩) St.notSaveable) ∧
      (∀ fid, fid ∉ [1, 2, 4, 5, 7, 8, 9, 0xB, 0xC, 0xE, 0x1D, 0xC0, 0xC1, 0xC2, 0xC3] →
        fails (.setFeatures a fid sv w ⟨v, d⟩) St.invalidField ∧ fails (.getFeatures a fid w) St.invalidField) ∧
      exec (.setFeatures a 2 sv w ⟨v, d⟩) s = exec (.powerManagement a sv (bitsOf w 0 5)) s ∧
      exec (.setFeatures a 0xE sv w ⟨v, d⟩) s = exec (.timestamp a sv (w.toNat + v.toNat * 2 ^ 32)) s ∧
      exec (.setFeatures a 0xC3 sv w ⟨v, d⟩) s = exec (.keepAwakeFloor a sv w v) s) ∧
    exec (.setFeatures a 0xC0 sv w ⟨v, d⟩) s = exec (.setTwiotLevel a sv w) s ∧
    exec (.setFeatures a 0xC1 sv w ⟨v, d⟩) s = exec (.classBinding a sv w) s ∧
    exec (.setFeatures a 0xC2 sv w ⟨v, d⟩) s = exec (.orderingMode a sv w) s ∧
    (Does (.getFeatures a 0xC0 w) s [.host, .mgmt] [] fun t => replied s t a (St.done (s.level c + 3 * 256)) []) ∧
    ((s.ctl c).sqs ≠ [] → fails (.setTwiotLevel a false w) St.sequence) ∧
    ((s.ctl c).sqs = [] → Changes (.setTwiotLevel a false w) s [.host, .mgmt, .power] [Reg.HGT_LEVEL] fun t =>
      t.level c = bitsOf w 0 2 ∧ (∀ d, d ≠ c → t.level d = s.level d) ∧ replied s t a St.ok [] ∧
        t.power.floorMask[c] = if bitsOf w 0 2 < 3 then Vector.replicate 8 0 else s.power.floorMask[c]) ∧
    (s.level c < 1 → fails (.classBinding a sv w) St.invalidField) ∧
    (∀ q, 1 ≤ s.level c → bitsOf w 0 16 ≠ 0 → s.sq c (bitsOf w 0 16) = some q →
      Does (.classBinding a false w) s [.host, .mgmt] [] fun t => replied s t a St.ok [] ∧ t.host.cmds = s.host.cmds ∧
        sqNow s t c (bitsOf w 0 16) (some { q with cls := if bitsOf w 31 1 = 1 then bitsOf w 16 3 else 7 })) ∧
    (s.level c < 2 → fails (.orderingMode a sv w) St.invalidField) ∧
    (∀ q, 2 ≤ s.level c → bitsOf w 0 16 ≠ 0 → s.sq c (bitsOf w 0 16) = some q →
      (s.sqBusy c q = true → fails (.orderingMode a false w) St.sequence) ∧
      (s.sqBusy c q = false → Does (.orderingMode a false w) s [.host, .mgmt] [] fun t => replied s t a St.ok [] ∧
        sqNow s t c (bitsOf w 0 16) (some { q with ordered := bitsOf w 16 1 == 1 }))) ∧
    (s.power.mode ≠ .conserve →
      (s.level c < 3 → fails (.keepAwakeFloor a sv w v) St.invalidField) ∧
      (3 ≤ s.level c → v.toNat % 2 = 0 → v.toNat < 2 ^ 24 →
        (s.deadMask v.toNat ≠ 0 → fails (.keepAwakeFloor a false w v) (St.domainRetired (s.deadMask v.toNat))) ∧
        (s.deadMask v.toNat = 0 → Does (.keepAwakeFloor a false w v) s [.host, .mgmt, .power] [] fun t =>
          t.power = { s.power with floorMask := vupd s.power.floorMask c fun x => x.set (Fin.ofNat 8 (bitsOf w 0 3)) v.toNat } ∧
            replied s t a St.ok [])) ∧
      (∀ ms, Changes (.timestamp a false ms) s [.host, .mgmt, .flash] [] fun t => t.mgmt.timestamp = some (ms % 2 ^ 48, s.turn) ∧
        replied s t a St.ok []) ∧
      (∀ ms, fails (.timestamp a true ms) St.notSaveable) ∧
      (∀ ps, 4 < ps ∨ (3 ≤ ps ∧ s.fld Reg.SLU_STATUS_SEALED = 1) → fails (.powerManagement a false ps) St.invalidField) ∧
      (∀ ps, ps ≤ 4 → ps < 3 ∨ s.fld Reg.SLU_STATUS_SEALED = 0 → s.power.entry = none → s.power.psWait = none → s.power.psChange = none →
        let g := min ps (s.fld (if c = 0 then Reg.PMC_PS_C1_SEL else Reg.PMC_PS_C0_SEL))
        (3 ≤ g → Changes (.powerManagement a false ps) s (if g = 4 then [.power, .memory] else [.power])
            (Reg.PMC_PS :: if g = 4 then s.copyBanks.map fun b => (Reg.OCM_BANK_REQ b).addr else []) fun t =>
          (∃ e, t.power.entry = some e ∧ e.began = s.turn ∧ e.target = g ∧ e.req = some a) ∧ t.fld Reg.PMC_PS_ENTERING = 1 ∧
            t.fld Reg.PMC_PS_PS = s.fld Reg.PMC_PS_PS) ∧
        (g < 3 → g = s.fld Reg.PMC_PS_PS → Changes (.powerManagement a false ps) s [.host, .mgmt] [Reg.PMC_PS] fun t =>
          replied s t a St.ok [] ∧ t.fld Reg.PMC_PS_PS = g ∧ t.fld (if c = 0 then Reg.PMC_PS_C0_SEL else Reg.PMC_PS_C1_SEL) = ps) ∧
        (g < 3 → g ≠ s.fld Reg.PMC_PS_PS → s.power.mode = .service → s.power.thermCeil = none →
          Changes (.powerManagement a false ps) s [.power, .edgeRegs, .sluice] [Reg.PMC_PS, Reg.SLU_POWER] fun t =>
            t.fld Reg.PMC_PS_PS = g ∧ t.power.operPs = g ∧ t.fld Reg.SLU_POWER_CEIL = psCeiling g ∧
              ∃ e, t.power.psWait = some e ∧ e.began = s.turn ∧ e.req = some a)))

/-- GET_LOG_PAGE, IDENTIFY, CULVERT_REBUILD_STATUS and INVALID_ADMIN_OPCODE (R62, R70, R76, R78, R274, R440, R467, R469, R470, R484): each
page and structure is answered as the state gives it, its read re-arms its events, LIDs C1h to C5h have 4,096 bytes that begin with
the turn, and what the part does not support is refused; in Conserve a command that a cluster executes wakes one and waits. What the rules
leave open in these points is the model's own (assumption logs 18 and 82). -/
def Obligations.PagesAndStructuresAnswer : Prop :=
  ∀ (s : State) (a : Adm) (lid lsp cns csi nsid op : Nat), hears s a →
    let c := admOwner a.path
    let gives (i : Instr) (st : Status) (data : List Bytes) : Prop := Does i s [.host, .mgmt] [] fun t =>
      replied s t a st data ∧ t.host.cmds = s.host.cmds ∧ t.sq c = s.sq c
    (s.power.mode ≠ .conserve →
      (∀ b, (lid, b) ∈ [(0x01, s.errorPage), (0x02, s.smartPage), (0x03, s.slotPage), (0x04, s.changedNsPage c), (0x05, s.effectsPage),
          (0x06, s.selfTestPage), (0x09, s.endurancePage), (0x20, s.fdpConfigPage), (0x21, s.fdpUsagePage), (0x23, s.fdpEventPage),
          (0x81, s.sanitizePage), (0xBF, s.changedZonePage c), (0xC1, s.dlxPage), (0xC2, s.acctPage), (0xC3, s.ledgerPage),
          (0xC4, s.powerPage), (0xC5, s.domTestPage)] →
        gives (.getLogPage a lid lsp) St.ok [b] ∧
        Completes (.getLogPage a lid lsp) s fun t => (∀ k, k ∈ (s.ctl c).masked → k % 256 ≠ lid → k ∈ (t.ctl c).masked) ∧
          ((t.ctl c).aers = (s.ctl c).aers) ∧ (∀ k ∈ (t.ctl c).masked, k % 256 ≠ lid) ∧ (lid = 4 → (t.ctl c).changedNs = [])) ∧
      (2 ≤ s.level c → gives (.getLogPage a 0xC0 lsp) St.ok [s.freezePage c]) ∧
      (s.level c < 2 → gives (.getLogPage a 0xC0 lsp) St.invalidField []) ∧
      (2 ≤ natBits lsp 1 2 → gives (.getLogPage a 7 lsp) St.invalidField [] ∧ gives (.getLogPage a 8 lsp) St.invalidField []) ∧
      (natBits lsp 1 2 < 2 → natBits lsp 0 1 = 1 → Changes (.getLogPage a 7 lsp) s [.host, .mgmt] [] fun t =>
        t.mgmt.teleHost = some s.teleSet ∧ t.mgmt.teleCtrl = s.mgmt.teleCtrl ∧
          replied s t a St.ok (s.telePage 7 (some s.teleSet) (natBits lsp 1 2 == 1))) ∧
      (natBits lsp 1 2 < 2 → Changes (.getLogPage a 8 lsp) s [.host, .mgmt] [] fun t =>
        t.mgmt.teleCtrl = none ∧ t.mgmt.teleHost = s.mgmt.teleHost ∧
          replied s t a St.ok (s.telePage 8 s.mgmt.teleCtrl (natBits lsp 1 2 == 1))) ∧
      (lid ∉ [1, 2, 3, 4, 5, 6, 7, 8, 9, 0x20, 0x21, 0x22, 0x23, 0x81, 0xBF, 0xC0, 0xC1, 0xC2, 0xC3, 0xC4, 0xC5] →
        gives (.getLogPage a lid lsp) St.invalidLog []) ∧
      gives (.identify a ⟨1, csi⟩ nsid) St.ok [s.identifyCtrl c] ∧ gives (.identify a ⟨0x13, csi⟩ nsid) St.ok [ctrlList [1, 2]] ∧
      gives (.identify a ⟨0x10, csi⟩ nsid) St.ok [idList nsid (s.nsids fun _ => true)] ∧
      (∀ n, 1 ≤ nsid → nsid ≤ 256 → s.ns nsid = some n → n.on c = true → gives (.identify a ⟨0, csi⟩ nsid) St.ok [s.identifyNs n]) ∧
      (nsid = 0 ∨ 256 < nsid → gives (.identify a ⟨0, csi⟩ nsid) St.invalidNamespace []) ∧
      (cns ∉ [0, 1, 2, 3, 5, 6, 7, 8, 0x10, 0x11, 0x12, 0x13, 0x1C, 0x1F] → gives (.identify a ⟨cns, csi⟩ nsid) St.invalidField []) ∧
      (csi ≠ 0 → csi ≠ 2 → cns = 5 ∨ cns = 6 ∨ cns = 7 → gives (.identify a ⟨cns, csi⟩ nsid) St.invalidField []) ∧
      (csi = 0 ∨ csi = 2 → gives (.identify a ⟨6, csi⟩ nsid) St.ok [identifyCtrlSet c csi]) ∧
      (3 ≤ s.level c → gives (.culvertRebuildStatus a) St.ok [s.rebuildPage]) ∧
      (s.level c < 3 → gives (.culvertRebuildStatus a) St.invalidOpcode [])) ∧
    (op ∉ adminOpcodes → gives (.invalidAdminOpcode a op) St.invalidOpcode []) ∧
    (∀ b, b = s.dlxPage ∨ b = s.acctPage ∨ b = s.ledgerPage ∨ b = s.powerPage ∨ b = s.domTestPage →
      b.length = 4096 ∧ b.take 8 = leBytes 8 s.turn) ∧
    s.rebuildPage.length = 1024 ∧
    (∀ n i, s.power.mode = .conserve → s.adminCluster = some n → (s.dom n).state = .off → (s.dom n).votes = [] →
      i = Instr.getLogPage a lid lsp ∨ i = .identify a ⟨cns, csi⟩ nsid ∨ i = .culvertRebuildStatus a →
      Does i s [.doms, .idle] [] fun t => (t.dom n).votes = [clusterClient n] ∧ (t.dom n).state = .waking ∧
        (t.dom n).stalled = (s.dom n).stalled ++ [i] ∧ othersSame n s t)

/-! ### Namespaces, erase operations and directives (chapters 2, 5 and 8) -/

/-- NAMESPACE_MANAGEMENT, NAMESPACE_ATTACHMENT, FORMAT_NVM, SANITIZE_CRYPTO_ERASE, SANITIZE_BLOCK_ERASE, DIRECTIVE_SEND, DIRECTIVE_RECEIVE,
NVME_MI_SEND and NVME_MI_RECEIVE (R54, R62, R177, R297, R298, R460) outside Conserve: a created namespace has the size and
format asked for, whole granules and fresh keys, and the command answers when the port has applied its table entries; attachment sets the controllers named and is noted; a Format, a Sanitize or a deletion
bars its namespaces and answers at its end, one at a time; NVMe-MI requests tunnelled over the admin queue answer on it. What the rules
leave open in these points is the model's own (assumption logs 76, 77, 79, 80 and 81). -/
def Obligations.NamespaceCommandsAct : Prop :=
  ∀ (s : State) (a : Adm), takes s a →
    let fails (i : Instr) (st : Status) : Prop := Does i s [.host, .mgmt] [] fun t => replied s t a st [] ∧ t.host.cmds = s.host.cmds
    (∀ nsze lbaf extended pi piFirst zoned handles,
      let create := Instr.namespaceManagement a (.create nsze lbaf extended pi piFirst zoned handles)
      (nsze = 0 → fails create St.invalidField) ∧
      (nsze ≠ 0 → handles.length ≤ 64 → (∀ h ∈ handles, h < 64) → formatOk lbaf pi = false → fails create St.invalidFormat) ∧
      (nsze ≠ 0 → handles.length ≤ 64 → (∀ h ∈ handles, h < 64) → formatOk lbaf pi = true →
        ((List.range 256).find? (fun i => (s.ns (i + 1)).isNone) = none → fails create St.nsidUnavailable) ∧
        ∀ n, (List.range 256).find? (fun i => (s.ns (i + 1)).isNone) = some n →
          let need := gransOf (dataGransOf nsze lbaf) lbaf
          (s.allocate (n + 1) need = none → fails create St.insufficientCapacity) ∧
          (∀ base u, s.allocate (n + 1) need = some (base, u) → Does create s [.galley, .nv] [] fun t =>
            (∃ x, t.nv.namespaces = s.nv.namespaces ++ [x] ∧ x.nsid = n + 1 ∧ x.nsze = nsze ∧ x.lbaf = lbaf ∧ x.extended = extended ∧ x.pi = pi ∧
              x.piFirst = piFirst ∧ x.zoned = zoned ∧ x.handles = handles ∧ x.gbase = base ∧ x.grans = need ∧ x.attached = 0 ∧
              x.key = s.nv.nextKey) ∧ t.galley.creating = s.galley.creating ++ [(a, n + 1)] ∧ s.galley.booked.length < t.galley.booked.length ∧
            t.nv.nextKey = s.nv.nextKey + 1 ∧ need ≤ s.gransFree ∧ t.galley.slots = s.galley.slots))) ∧
    (∀ i, s.galley.creating = [(a, i)] → s.portBusy = false → replied s s.replyCreated a (St.done i) [] ∧ s.replyCreated.galley.creating = []) ∧
    (∀ w, s.galley.wipe = some w → w.closing = true → w.adm = some a → s.portBusy = false →
      replied s s.wipeTurn a St.ok [] ∧ s.wipeTurn.galley.wipe = none ∧ (w.kind = 3 → ∀ n ∈ s.wipeTurn.nv.namespaces, n.nsid ∉ w.nsids)) ∧
    (∀ nsid m n attach, s.ns nsid = some n →
      let attachment := Instr.namespaceAttachment a nsid m attach
      (m = 0 ∨ 3 < m → fails attachment St.invalidControllers) ∧
      (1 ≤ m → m ≤ 3 → attach = true → n.attached &&& m ≠ 0 → fails attachment St.alreadyAttached) ∧
      (1 ≤ m → m ≤ 3 → attach = false → n.attached &&& m ≠ m → fails attachment St.notAttached) ∧
      (1 ≤ m → m ≤ 3 → (attach = true ∧ n.attached &&& m = 0) ∨ (attach = false ∧ n.attached &&& m = m) →
        Changes (.namespaceAttachment a nsid m attach) s [.host, .mgmt, .nv] [] fun t =>
          t.ns nsid = some { n with attached := if attach then n.attached ||| m else n.attached - m } ∧
            (∀ c : Fin 2, m / 2 ^ c.val % 2 = 1 → nsid ∈ (t.ctl c).changedNs) ∧ (∀ j, j ≠ nsid → t.ns j = s.ns j))) ∧
    (∀ nsid m attach, s.ns nsid = none → fails (.namespaceAttachment a nsid m attach) St.invalidNamespace) ∧
    (∀ nsid n, nsid ≠ 0xFFFFFFFF → s.ns nsid = some n →
      (s.galley.wipe = none → n.attached = 0 → Changes (.namespaceManagement a (.delete nsid)) s [.nv, .galley] [] fun t =>
        t.ns nsid = some { n with attached := 0, key := 0 } ∧
          t.galley.wipe = some { adm := some a, kind := 3, nsids := [nsid], rekey := false }) ∧
      (∀ ses lbaf pi extended piFirst, ses ≤ 2 → formatOk lbaf pi = true → s.formatFits [nsid] lbaf = true → s.galley.wipe = none → s.mgmt.run = none →
        Changes (.formatNvm a nsid ses lbaf pi extended piFirst) s [.nv, .galley, .host] [] fun t =>
          t.ns nsid = some { n with busy := 1 } ∧
            t.galley.wipe = some { adm := some a, kind := 0, nsids := [nsid], rekey := ses != 0, format := some (lbaf, pi, extended, piFirst) } ∧
            (∀ c ∈ t.host.cmds, c.sqe.nsid = nsid → c.phase = .fetched ∨ c.phase = .held → c.outcome.isSome) ∧
            t.memory.bytes = s.memory.bytes) ∧
      (∀ ses lbaf pi extended piFirst, 2 < ses → fails (.formatNvm a nsid ses lbaf pi extended piFirst) St.invalidField) ∧
      (∀ ses lbaf pi extended piFirst, ses ≤ 2 → formatOk lbaf pi = false →
        fails (.formatNvm a nsid ses lbaf pi extended piFirst) St.invalidFormat)) ∧
    (∀ nsid, nsid ≠ 0xFFFFFFFF → s.ns nsid = none → fails (.namespaceManagement a (.delete nsid)) St.invalidNamespace ∧
      ∀ ses lbaf pi extended piFirst, fails (.formatNvm a nsid ses lbaf pi extended piFirst) St.invalidNamespace) ∧
    (∀ ndas,
      let wipes (kind : Nat) (i : Instr) : Prop :=
        (ndas = true → fails i St.invalidField) ∧
        (∀ w, ndas = false → s.galley.wipe = some w →
          fails i (if w.kind = 0 ∨ w.kind = 3 then St.formatInProgress else St.sanitizeInProgress)) ∧
        (ndas = false → s.galley.wipe = none → s.mgmt.run = none → Changes i s [.nv, .galley, .host] [] fun t =>
          t.nv.sanitize = 2 ∧ t.nv.sanitizeAction = kind ∧ (∀ n ∈ t.nv.namespaces, n.busy = 2) ∧
            t.galley.wipe = some { adm := some a, kind := kind, nsids := s.nv.namespaces.map (·.nsid), rekey := true })
      wipes 1 (.sanitizeCryptoErase a ndas) ∧ wipes 2 (.sanitizeBlockErase a ndas)) ∧
    (∀ nsid, s.nsOk nsid = true →
      (Does (.directiveReceive a nsid 0 1) s [.host, .mgmt] [] fun t => replied s t a St.ok [s.directiveParams]) ∧
      (∀ dtype doper, ¬(dtype = 0 ∧ doper = 1) → fails (.directiveReceive a nsid dtype doper) St.invalidField) ∧
      (s.nv.fdp = true → Does (.directiveSend a nsid 0 1 0x201) s [.host, .mgmt] [] fun t => replied s t a St.ok [] ∧ t.host.cmds = s.host.cmds) ∧
      (s.nv.fdp = false → fails (.directiveSend a nsid 0 1 0x201) St.invalidField)) ∧
    (∀ nsid, s.nsOk nsid = false → fails (.directiveReceive a nsid 0 1) St.invalidNamespace ∧ fails (.directiveSend a nsid 0 1 0x201) St.invalidNamespace) ∧
    (∀ ofs len (d : Bytes),
      (ofs + len ≤ 1024 → 0 < len → ofs < s.vpdBytes.length → Does (.nvmeMiReceive a (.vpdRead ofs len)) s [.host, .mgmt] [] fun t =>
        replied s t a St.ok [(s.vpdBytes.drop ofs).take len]) ∧
      (ofs + d.length ≤ 1024 → d ≠ [] → ofs ≤ s.vpdBytes.length → Does (.nvmeMiSend a (.vpdWrite ofs d)) s [.host, .mgmt, .store] [] fun t =>
        replied s t a St.ok [[0, 0, 0, 0]] ∧ (t.vpdBytes.drop ofs).take d.length = d) ∧
      (Does (.nvmeMiReceive a (.vpdWrite ofs d)) s [.host, .mgmt] [] fun t => replied s t a (St.done (miOpcode % 256)) []) ∧
      (Does (.nvmeMiSend a (.vpdRead ofs len)) s [.host, .mgmt] [] fun t => replied s t a (St.done (miOpcode % 256)) []))

/-! ### Firmware download, commit and activation (chapter 12) -/

/-- FIRMWARE_IMAGE_DOWNLOAD, STREAMED_DOWNLOAD_CHUNK, FIRMWARE_COMMIT_REPLACE, FIRMWARE_COMMIT_REPLACE_ACTIVATE, FIRMWARE_COMMIT_ACTIVATE,
FIRMWARE_COMMIT_IMMEDIATE and CLUSTER_RELOAD (R416–R422): a chunk is buffered, or refused where it is misplaced, overlaps or comes from
the other controller; a valid buffered image is written into a slot that does not run, named NEXT where the action says so, or
ends with Invalid Firmware Slot where the slot's good blocks do not hold it, and the buffer is discarded; an immediate activation takes the clusters out one after the other, and goes back when one fails. What the rules
leave open in these points is the model's own (assumption logs 30, 83, 84 and 85). -/
def Obligations.FirmwareIsDownloadedAndActivated : Prop :=
  ∀ (s : State) (a : Adm), takes s a →
    let c := (admOwner a.path).val
    let fails (i : Instr) (st : Status) : Prop := Changes i s [.host, .mgmt, .store] [] fun t => replied s t a st [] ∧
      t.store.slots = s.store.slots ∧ t.store.pointer = s.store.pointer ∧ t.store.running = s.store.running ∧ t.store.pages = s.store.pages
    (∀ ofst numd data, s.streams = false →
      let load := Instr.firmwareImageDownload a ofst numd data
      let b := padTo ((numd + 1) * 4) data
      exec (.streamedDownloadChunk a ofst numd data) s = .next s ∧
      (badChunk ofst numd = true → fails load St.invalidField) ∧
      (badChunk ofst numd = false → s.store.buffer = none →
        Changes load s [.host, .mgmt, .store, .log] [] fun t => t.store = { s.store with buffer := some (c, [(ofst * 4, b)]) } ∧ replied s t a St.ok []) ∧
      (∀ d l, badChunk ofst numd = false → s.store.buffer = some (d, l) →
        ((∃ x ∈ l, x.1 < ofst * 4 + b.length ∧ ofst * 4 < x.1 + x.2.length) → fails load St.overlapping) ∧
        ((∀ x ∈ l, ofst * 4 + b.length ≤ x.1 ∨ x.1 + x.2.length ≤ ofst * 4) → d ≠ c → fails load St.sequence) ∧
        ((∀ x ∈ l, ofst * 4 + b.length ≤ x.1 ∨ x.1 + x.2.length ≤ ofst * 4) → d = c →
          Changes load s [.host, .mgmt, .store, .log] [] fun t =>
            t.store = { s.store with buffer := some (c, insertChunk (ofst * 4, b) l) } ∧ replied s t a St.ok []))) ∧
    (∀ numd data, s.streams = true → s.store.stream = none →
      let opens (i : Instr) : Prop := Changes i s [.host, .mgmt, .store, .free] [] fun t =>
        t.store.stream = some ⟨a.path, s.idleSlot, padTo ((numd + 1) * 4) data, false⟩ ∧ t.slotImage s.idleSlot = none ∧ replied s t a St.ok []
      (∀ ofst, ofst ≠ 0 → fails (.streamedDownloadChunk a ofst numd data) St.sequence) ∧
      (badChunk 0 numd = false → trailerAt (padTo ((numd + 1) * 4) data) ((padTo ((numd + 1) * 4) data).length / 4096) 0 = none →
        opens (.streamedDownloadChunk a 0 numd data) ∧ opens (.firmwareImageDownload a 0 numd data))) ∧
    (∀ fs, (fs = 1 ∨ fs = 2) →
      let commits (ca : Nat) (i : Instr) : Prop :=
        (s.store.activation.isSome = true → fails i St.sequence) ∧
        (s.store.activation = none →
          (s.store.running = some fs → ca ≠ 2 → fails i St.invalidSlot) ∧
          (ca = 2 → s.slotValid fs = false → fails i St.invalidImage) ∧
          (ca = 2 → s.slotValid fs = true → Changes i s [.host, .mgmt, .store] [] fun t =>
            (∃ p, t.store.pointer = some p ∧ p.active = s.activeSlot ∧ p.next = fs) ∧ t.store.running = s.store.running ∧
              t.store.slots = s.store.slots ∧ t.store.buffer = none ∧ replied s t a St.ok []) ∧
          (s.store.running ≠ some fs → s.streams = false →
            (ca ≤ 1 → s.buffered.bind imageOf = none → fails i St.invalidImage) ∧
            (∀ b m, ca ≤ 1 → s.buffered = some b → imageOf b = some m →
              Changes i s [.host, .mgmt, .store, .log, .free] [] fun t =>
                t.slotImage (3 - fs) = s.slotImage (3 - fs) ∧ t.store.buffer = none ∧ t.store.running = s.store.running ∧
                (t.slotImage fs = some m ∧ logged s t 0x0702 a.path 0x3FF m.release ∧ (ca = 0 → t.store.pointer = s.store.pointer) ∧
                  (ca = 1 → ∃ p, t.store.pointer = some p ∧ p.active = s.activeSlot ∧ p.next = fs) ∧ replied s t a St.ok [] ∨
                t.slotImage fs = none ∧ t.store.pointer = s.store.pointer ∧ replied s t a St.invalidSlot [])) ∧
            (∀ m r, ca = 3 → s.store.buffer = none → s.slotImage fs = some m → m.sound = true → s.runningImage = some r →
              (r.stateFmt ≠ m.stateFmt ∨ s.poolWhole = false → Changes i s [.host, .mgmt, .store] [] fun t =>
                (∃ p, t.store.pointer = some p ∧ p.active = s.activeSlot ∧ p.next = fs) ∧ t.store.activation = none ∧ replied s t a St.needsReset []) ∧
              (r.stateFmt = m.stateFmt → s.poolWhole = true → m.editionFmts / 2 ^ s.mgmt.current.format % 2 = 0 → fails i St.activationProhibited) ∧
              (r.stateFmt = m.stateFmt → s.poolWhole = true → m.editionFmts / 2 ^ s.mgmt.current.format % 2 = 1 →
                Changes i s [.host, .mgmt, .store] [Reg.SLU_STATUS] fun t =>
                  t.store.activation = some { adm := some a, slot := fs, old := r } ∧ t.fld Reg.SLU_STATUS_CLUSTERS = 6))))
      commits 0 (.firmwareCommitReplace a fs) ∧ commits 1 (.firmwareCommitReplaceActivate a fs) ∧ commits 2 (.firmwareCommitActivate a fs) ∧
        commits 3 (.firmwareCommitImmediate a fs)) ∧
    (∀ ok,
      (s.store.activation = none → exec (.clusterReload ok) s = .next s) ∧
      (∀ r, s.store.activation = some r → r.moved ≤ 2 →
        (r.back = false → ok = true → r.moved < 2 → Changes (.clusterReload ok) s [.store] [Reg.SLU_STATUS] fun t =>
          t.store.activation = some { r with moved := r.moved + 1 } ∧ t.fld Reg.SLU_STATUS_CLUSTERS / 2 ^ r.moved % 2 = 1 ∧
            t.fld Reg.SLU_STATUS_CLUSTERS / 2 ^ (r.moved + 1) % 2 = 0) ∧
        (r.back = false → ok = true → r.moved = 2 → Changes (.clusterReload ok) s [.store, .mgmt, .host, .log] [Reg.SLU_STATUS] fun t =>
          t.store.activation = some { r with moved := 3 } ∧ t.mgmt.restartUntil = some (s.turn + 2 ^ 20) ∧
            t.fld Reg.SLU_STATUS_CLUSTERS / 4 % 2 = 1) ∧
        (r.back = false → ok = false → Does (.clusterReload ok) s [.store, .mgmt] [] fun t => t.store.activation = some { r with back := true }) ∧
        (r.back = true → ok = true → 0 < r.moved → Changes (.clusterReload ok) s [.store] [Reg.SLU_STATUS] fun t =>
          t.store.activation = some { r with moved := r.moved - 1 } ∧ t.fld Reg.SLU_STATUS_CLUSTERS / 2 ^ r.moved % 2 = 1 ∧
            t.fld Reg.SLU_STATUS_CLUSTERS / 2 ^ (r.moved - 1) % 2 = 0) ∧
        (r.back = true → ok = true → r.moved = 0 → r.adm = some a → Changes (.clusterReload ok) s [.store, .host, .mgmt] [Reg.SLU_STATUS] fun t =>
          t.store.activation = none ∧ t.store.running = s.store.running ∧ replied s t a St.activationProhibited [])))

/-! ### Controllers, links and BAR2 (chapter 2, and R480, R489, R498, R519, R532) -/

/-- CONTROLLER_ENABLE, CONTROLLER_RESET, HOT_RESET, FUNCTION_LEVEL_RESET, FUNDAMENTAL_RESET, NVM_SUBSYSTEM_RESET, SHUTDOWN_NOTIFICATION and
ABRUPT_SHUTDOWN (R52, R53, R420, R480, R499, R519, R532): a reset deletes its controller's queues and outstanding commands, returns the
Twiot level to 0 and its floors to none, takes its link down where the table says so and its configuration space with it, whole or but for
its sticky bits, keeps the other controller, memory and what
the part keeps without power; CSTS follows CC. What the rules
leave open in these points is the model's own (assumption logs 88, 94 and 106). -/
def Obligations.ControllersEnableResetAndShutDown : Prop :=
  ∀ (s : State) (c : Fin 2), s.resettable = true →
    let data := s.power.mode.carriesData
    let gone (t : State) (d : Fin 2) : Prop := (t.ctl d).en = false ∧ (t.ctl d).sqs = [] ∧ (t.ctl d).cqs = [] ∧ (t.ctl d).aers = [] ∧
      (t.ctl d).shst = 0 ∧ (t.ctl d).adminSq.size = 0 ∧ t.level d = 0 ∧ t.power.floorMask[d] = Vector.replicate 8 0 ∧
      ∀ k ∈ t.host.cmds, k.ref.ctrl = d → k.discard = true
    let linkSame (t : State) (d : Fin 2) : Prop := t.word (Reg.HGT_LINK_STATUS d) = s.word (Reg.HGT_LINK_STATUS d)
    let kept (t : State) : Prop := t.nv = s.nv ∧ t.memory = s.memory ∧ t.power.mode = s.power.mode ∧ t.turn = s.turn ∧ t.flash = s.flash
    ((s.ctl c).en = false → ∀ aqa asq acq, Does (.controllerEnable c aqa asq acq) s [.host, .nv] [] fun t =>
      t.ctl c = { s.ctl c with
        en := true, aqa := aqa, asq := asq, acq := acq, rdyAt := if data then some (s.turn + 2, true) else none
        adminSq := { qid := 0, size := natBits aqa 0 12 + 1, cqid := 0 }, adminCq := { qid := 0, size := natBits aqa 16 12 + 1 } } ∧
        (∀ d, d ≠ c → t.ctl d = s.ctl d) ∧ t.host.cmds = s.host.cmds) ∧
    ((s.ctl c).en = true → (∀ aqa asq acq, exec (.controllerEnable c aqa asq acq) s = .next s) ∧
      Completes (.controllerReset c) s fun t => gone t c ∧ (∀ d, d ≠ c → t.ctl d = s.ctl d) ∧ kept t ∧ linkSame t c ∧
        (t.ctl c).rdy = (s.ctl c).rdy ∧ (t.ctl c).rdyAt = some (s.turn + 2, false)) ∧
    (Completes (.functionLevelReset c) s fun t => gone t c ∧ (∀ d, d ≠ c → t.ctl d = s.ctl d) ∧ kept t ∧ linkSame t c ∧ (t.ctl c).rdy = false ∧
      (t.ctl c).pci = {}) ∧
    (Completes (.hotReset c) s fun t => gone t c ∧ (∀ d, d ≠ c → t.ctl d = s.ctl d) ∧ kept t ∧ (t.ctl c).rdy = false ∧
      t.fld (Reg.HGT_LINK_STATUS_RATE c) = 0 ∧ t.fld (Reg.HGT_LINK_STATUS_WIDTH c) = 0 ∧ (t.ctl c).pci = (s.ctl c).pci.hot) ∧
    (∀ port, Completes (.fundamentalReset port) s fun t => t.pins.perst[port] = false ∧ kept t ∧
      ∀ d, (s.linkPort d = port → gone t d ∧ (t.ctl d).rdy = false ∧ (t.ctl d).pci = {} ∧ t.fld (Reg.HGT_LINK_STATUS_RATE d) = 0) ∧
        (s.linkPort d ≠ port → t.ctl d = s.ctl d)) ∧
    (∀ v, v ≠ nssrValue → exec (.nvmSubsystemReset c v) s = .next s) ∧
    (s.linkUp c = true → data = true → (∀ p, s.store.pointer = some p → p.next = p.active) →
      Completes (.nvmSubsystemReset c nssrValue) s fun t => (∀ d, gone t d ∧ t.fld (Reg.HGT_LINK_STATUS_RATE d) = 0) ∧ kept t ∧
        t.store.running = s.store.running) ∧
    (∀ p, s.linkUp c = true → data = true → s.store.pointer = some p → p.next ≠ p.active → s.slotValid p.next = true →
      Completes (.nvmSubsystemReset c nssrValue) s fun t => (∀ d, gone t d) ∧ kept t ∧ t.store.running = some p.next ∧
        ∃ q, t.store.pointer = some q ∧ q.active = p.next ∧ q.next = p.next) ∧
    (∀ res, (s.ctl c).en = true → (s.ctl c).shst = 0 →
      (data = false → Does (.shutdownNotification c res) s [.host] [] fun t => t.ctl c = { s.ctl c with shst := 2 }) ∧
      (data = true → s.power.mode ≠ .conserve → s.mgmt.shutdown = none → Does (.shutdownNotification c res) s [.host, .mgmt] [] fun t =>
        t.ctl c = { s.ctl c with shst := 1 } ∧ t.mgmt = { s.mgmt with shutdown := some { ctrls := [c], results := res, began := s.turn } } ∧
          t.host.cmds = s.host.cmds)) ∧
    ((s.ctl c).en = true → Does (.abruptShutdown c) s [.host] [] fun t => t.ctl c = { s.ctl c with shst := 2 } ∧ t.mgmt.run = s.mgmt.run)

/-- PERST_DEASSERT, LINK_TRAINED, L0P_ENABLE, L0P_WIDTH_REQUEST, L1_ENTRY, L1_EXIT, ECRC_FAILURE, HOST_PORT_FAILURE, BAR2_WRITE and
BAR2_READ_TIMEOUT (R42, R46–R51, R86, R489, R498, R519): a link that may train reports its rate, width and FLIT mode, 64 GT/s always in
FLIT mode; L0p narrows a link to half its width and no further; L1 is entered by a controller with no outstanding command only; a failed port does not train
again; a BAR2 write is ignored and logged, and a read that has waited 8,192 turns ends with all ones. What the rules
leave open in these points is the model's own (assumption logs 24, 107, 108 and 109). -/
def Obligations.LinksTrainNarrowAndFail : Prop :=
  ∀ (s : State) (c : Fin 2), s.resettable = true →
    (∀ port, s.portDown (2 + port.val) = false → (s.dom (if port = 0 then 2 else 3)).state = .off → (s.dom 4).state = .on → s.power.mode ≠ .recovery →
      Does (.perstDeassert port) s [.pins, .doms, .idle] [] fun t => t.pins = { s.pins with perst := s.pins.perst.set port true } ∧
        (t.dom (if port = 0 then 2 else 3)).state = .waking ∧ othersSame (if port = 0 then 2 else 3) s t) ∧
    (∀ rate width flit,
      (s.mayTrain c rate width = true → Does (.linkTrained c rate width flit) s [.host]
        [(Reg.HGT_LINK_STATUS_RATE c, rate), (Reg.HGT_LINK_STATUS_WIDTH c, width), (Reg.HGT_LINK_STATUS_FLIT c, if flit || rate = 6 then 1 else 0)]
        fun t => t.ctl c = { s.ctl c with link := .l0, l0pWidth := none }) ∧
      ((s.ctl c).phyFailed = true ∨ s.pins.perst[s.linkPort c] = false ∨ s.strapWidth < width →
        exec (.linkTrained c rate width flit) s = .next s)) ∧
    (∀ on width, s.linkUp c = true →
      (Does (.l0pEnable c on) s [.host] [(Reg.HGT_LINK_STATUS_L0P_EN c, on.toNat)] fun t =>
        t.ctl c = { s.ctl c with l0pWidth := if on then (s.ctl c).l0pWidth else none }) ∧
      (s.fld (Reg.HGT_LINK_STATUS_L0P_EN c) = 1 → s.fld (Reg.HGT_LINK_STATUS_WIDTH c) ≤ 2 * width → width ≤ s.fld (Reg.HGT_LINK_STATUS_WIDTH c) →
        Does (.l0pWidthRequest c width) s [.host] [] fun t => t.ctl c =
          { s.ctl c with l0pWidth := if width = s.fld (Reg.HGT_LINK_STATUS_WIDTH c) then none else some width }) ∧
      (2 * width < s.fld (Reg.HGT_LINK_STATUS_WIDTH c) → exec (.l0pWidthRequest c width) s = .next s) ∧
      (s.ctrlBusy c = false → Does (.l1Entry c on) s [.host] [] fun t =>
        t.ctl c = { s.ctl c with link := if on then .l12 else .l11 } ∧ t.host.cmds = s.host.cmds) ∧
      (((∃ k ∈ s.host.cmds, k.ref.ctrl = c) ∨ (∃ q ∈ (s.ctl c).sqs, q.visible ≠ []) ∨ (∃ q ∈ s.allCqs c, q.held ≠ [])) →
        exec (.l1Entry c on) s = .next s) ∧
      ((s.dom (s.linkDom c)).state = .on → Does (.l1Exit c) s [.host, .idle] [] fun t => t.ctl c = { s.ctl c with link := .l0 }) ∧
      (Does (.ecrcFailure c) s [.host] [(Reg.HGT_EVENT_ECRC_ERR, 1)] fun t =>
        t.ctl c = { s.ctl c with pci := { (s.ctl c).pci with aerUnc := setBitNat (s.ctl c).pci.aerUnc 19 } }) ∧
      (∀ addr v, addr < 2 ^ 26 → Does (.bar2Write c addr v) s [.log] [] fun t => logged s t 0x0901 0 (0x20 + c.val) (addr + v.toNat * 2 ^ 32))) ∧
    (∀ port, Completes (.hostPortFailure port) s fun t => t.nv = s.nv ∧ t.memory = s.memory ∧ t.power.mode = s.power.mode ∧
      ∀ d, (s.linkPort d = port → (t.ctl d).phyFailed = true ∧ (t.ctl d).en = false ∧ t.fld (Reg.HGT_LINK_STATUS_RATE d) = 0) ∧
        (s.linkPort d ≠ port → t.ctl d = s.ctl d)) ∧
    (∀ addr since, s.host.barReads = [(c.val, addr, since)] →
      (s.turn < since + 8192 → exec (.bar2ReadTimeout c addr) s = .next s) ∧
      (since + 8192 ≤ s.turn → Changes (.bar2ReadTimeout c addr) s [.host, .answer] [Reg.ERC_BUSERR, Reg.ERC_EVENT, Reg.ERC_LAST, Reg.ERC_LAST_ADDR_LO,
          Reg.ERC_LAST_ADDR_HI] fun t =>
        t.answer = some (.value (0x20 + c.val) 0xFFFFFFFF) ∧ t.fld Reg.ERC_EVENT_BUS_ERR = 1 ∧ t.host.cmds = s.host.cmds))

/-! ### Resets, Boot and the TAP (chapters 12, 13, 15 and 16) -/

/-- RIDER_LOCKSTEP_MISMATCH, RIDER_WATCHDOG_RESET, CLUSTER_WATCHDOG_RESET and TAP_INSTRUCTION_UPDATE (R35, R408, R416, R499, R529): the rider
restarts within a rotation, and the data plane, memory and registers stay as they are; a store program in progress completes, an
erase in progress stops with its flag set; a watchdog reset discards the download buffer; the cores of a restarted cluster lose
their reservations. A TAP instruction selects its register, which captures the IDCODE or the
bypass bit's 0; one of the second row of its table selects BYPASS unless TESTEN was high; with TESTEN high every
domain that is not out for good is powered when one is loaded. What the rules
leave open in these points is the model's own (assumption logs 73 and 116). -/
def Obligations.RestartsAndTapInstructions : Prop :=
  (∀ s : State,
    let closed : List (Fld × Nat) := [(Reg.FWS_BANK_STATE 0, 0), (Reg.FWS_BANK_STATE 1, 0), (Reg.FWS_STATUS_SEQ_STATE, 0)]
    let store (t : State) : Prop := (∀ b, (t.bank b).prog = none ∧ (t.bank b).erase = none) ∧ t.store.flags = s.store.flags ∧
      t.store.slots = s.store.slots ∧ t.store.pointer = s.store.pointer ∧
      ∀ b p, (s.bank b).prog = some p → (∀ d, d ≠ b → (s.bank d).prog = none) →
        t.store.page p.page = programmedPage (s.store.page p.page) p.data
    let down (t : State) : Prop := store t ∧ t.mgmt.restartUntil = some (s.turn + 2 ^ 20) ∧ t.host.cmds = s.host.cmds ∧
      logged s t 0x0B02 0 0x3FF 0
    (s.power.mode ≠ .off →
      (Does .riderLockstepMismatch s [.store, .host, .mgmt, .log] closed fun t => down t ∧ t.store.buffer = s.store.buffer) ∧
      Does .riderWatchdogReset s [.store, .host, .mgmt, .log] closed fun t => down t ∧ t.store.buffer = none ∧ t.store.stream = none) ∧
    (s.power.mode = .off → exec .riderLockstepMismatch s = .next s ∧ exec .riderWatchdogReset s = .next s) ∧
    ∀ c : Fin 3,
      ((s.dom (Fin.ofNat 24 (6 + c.val))).state = .on → Does (.clusterWatchdogReset c) s [.store, .memory] closed fun t =>
        store t ∧ t.store.buffer = none ∧
          t.memory = { s.memory with reserved := s.memory.reserved.filter fun r => r.1 / 8 != c.val }) ∧
      ((s.dom (Fin.ofNat 24 (6 + c.val))).state ≠ .on → exec (.clusterWatchdogReset c) s = .next s)) ∧
  (∀ (s : State) (ti : TapInstr), s.power.mode ≠ .off →
    (s.pins.testen = false ∨ extestClass ti = extestClass s.pins.tap →
      let i := if extestClass ti && !s.pins.testen then .bypass else ti
      Does (.tapInstructionUpdate ti) s [.pins, .free] [] fun t =>
        t.pins = { s.pins with tap := i, tapData := s.tapCapture i } ∧ (i = .bypass → t.pins.tapData = 0) ∧
          (i = .idcode → t.pins.tapData % 2 = 1 ∧ t.pins.tapData / 2 ^ 12 % 2 ^ 16 = 0x6432 ∧ t.pins.tapData / 2 ^ 28 = 1)) ∧
    (s.pins.testen = true → extestClass ti = true → Completes (.tapInstructionUpdate ti) s fun t =>
      t.pins = { s.pins with tap := ti, tapData := t.pins.tapData } ∧ (extestClass s.pins.tap = false → ∀ n, n ≠ 0 → s.isDead n = false → (t.dom n).state = .on) ∧
        ∀ n, s.isDead n = true → (t.dom n).state = (s.dom n).state))

/-- POWER_ON_RESET, POR_N_FALL and RAIL_MONITOR_TRIP (R499, R517, R518, R520): a rail trip in any mode, and POR_n in Off, Boot and Recovery,
reset the part at once: every setup register holds its reset value, volatile memory, the galley and the commands are gone, and
what the part keeps without power is kept; in the modes that carry data POR_n is ignored and logged, in Spill ignored; at its
release the straps are sampled, the turn counter starts at 0 and Boot begins with PD0 alone. What the rules
leave open in these points is the model's own (assumption logs 9 and 90). -/
def Obligations.PowerOnResetClearsThePart : Prop :=
  ∀ s : State,
    let bare (t : State) : Prop := t.power.mode = .off ∧ t.turn = 0 ∧ t.regs = [] ∧ (∀ a, t.word a = resetWord a) ∧ t.memory.bytes = [] ∧
      t.galley = {} ∧ t.sluice = {} ∧ t.host.cmds = [] ∧ t.nv.namespaces = s.nv.namespaces ∧ t.nv.journal = s.nv.journal ∧
      t.nv.sealed = s.nv.sealed ∧ t.mgmt.current = s.mgmt.current ∧ t.store.slots = s.store.slots ∧ t.store.flags = s.store.flags ∧
      t.flash.blocks = s.flash.blocks ∧ t.board = s.board
    (∀ rail, Completes (.railMonitorTrip rail) s fun t => bare t ∧ rail.val ∈ t.pins.railsDown) ∧
    (s.power.mode = .off ∨ s.power.mode = .boot ∨ s.power.mode = .recovery →
      Completes .porNFall s fun t => bare t ∧ t.pins.porLow = true) ∧
    (s.power.mode.carriesData = true →
      Does .porNFall s [.log] [] fun t => logged s t (Config.uncodedEvent 0) 0 0x3FF s.power.mode.code) ∧
    (s.power.mode = .spill → exec .porNFall s = .next s) ∧
    ∀ b : Board,
      (s.power.mode = .spill → s.cistern.ended = true → s.pins.pwrFailLow = false → s.pins.vholdLow = false →
        Completes (.supplyReturn b) s fun t => t.power.mode = .boot ∧ t.turn = 0) ∧
      (s.power.mode ≠ .off → exec (.powerOnReset b) s = .next s) ∧
      (s.power.mode = .off → Completes (.powerOnReset b) s fun t =>
        t.power.mode = .boot ∧ t.turn = 0 ∧ t.board = b ∧ t.pins.hostcfg = b.hostcfg.val ∧ t.pins.testen = b.testen ∧
          t.pins.porLow = false ∧ t.pins.railsDown = [] ∧ t.nv = s.nv ∧ t.store = s.store ∧ t.flash = s.flash ∧ t.memory = s.memory ∧
          t.galley = s.galley ∧ t.mgmt = s.mgmt ∧ (t.dom 0).state = .on ∧
          (∀ n, n ≠ 0 → (t.dom n).state = if b.fusedDom / 2 ^ n.val % 2 = 1 then .fused else .off) ∧
          ∀ c : Fin 2, t.fld (Reg.HGT_LINK_STATUS_HOSTCFG c) = b.hostcfg.val)

/-- BOOT_END (R341, R344, R138, R179, R184, R414, R434, R513): Boot makes its checks in the order of Table 13.9 and enters Recovery at the
first that fails, with its cause and a data-plane reset; when all pass the mode is Service, or Sealed, and the data plane is released; with no valid image
and no valid boot extension the part stays in Boot; outside Boot, and in factory test, nothing happens. What the rules
leave open in these points is the model's own (assumption logs 3, 89, 91 and 92). -/
def Obligations.BootChecksInOrder : Prop :=
  ∀ s : State,
    let recovers (cause : Nat) : Prop := Completes .bootEnd s fun t => t.power.mode = .recovery ∧ t.fld Reg.PMC_MODE_REC_CAUSE = cause ∧
      t.host.cmds = [] ∧ (3, 0x3FF, s.turn + 1) ∈ t.sluice.globals ∧ ∀ c, (t.ctl c).rdy = false
    let k := s.board.dramUsed.length / 2
    (s.power.mode ≠ .boot ∨ s.pins.testen = true ∨ s.cistern.waiting = true → exec .bootEnd s = .next s) ∧
    (s.power.mode = .boot → s.pins.testen = false → s.cistern.waiting = false → s.store.flags = [] →
      ((∀ n, s.slotValid n = false) →
        (s.store.ext.any (fun x => x) = false → Does .bootEnd s [.store, .log] [] fun t => logged s t 0x0102 0 0x3FF 0) ∧
        (s.store.ext.any (fun x => x) = true → recovers 5)) ∧
      ∀ p, s.store.pointer = some p → s.slotValid p.next = true →
        (s.board.dramBad.isSome = true → recovers 4) ∧
        (s.board.dramBad = none →
          (k < 2 → recovers 7) ∧
          (2 ≤ k →
            (s.board.geomBad.isSome = true → recovers 2) ∧
            (s.board.geomBad = none →
              (s.board.laneBad.isSome = true → recovers 3) ∧
              (s.board.laneBad = none →
                ((s.board.dramGib : Rat) < s.board.dramNeed k → recovers (if k < s.board.pairs then 7 else 1)) ∧
                (s.board.dramNeed k ≤ (s.board.dramGib : Rat) → Completes .bootEnd s fun t =>
                  (t.power.mode = .service ∨ t.power.mode = .sealed) ∧ t.sluice.hold = false ∧ t.store.running = some p.next ∧
                    ∃ q, t.store.pointer = some q ∧ q.active = p.next))))))

/-! ### The edges (chapters 1 and 2, and R120, R255, R312, R466, R502) -/

/-- TURN_EDGE (R22, R29, R31, R43, R117, R312, R470, R502): the turn counter advances by one, no booking that has ended and no lookup of an
earlier turn is left, overruns and mismatches are counted by instance and a pair without a mismatch starts again at none, V_HOLD's
conversion is scaled (assumption log 21), an outvoted counter is counted, a rider whose restart is over runs again, and Critical
Warning has been looked at. Without a supply no clock runs. What the rules
leave open in these points is the model's own (assumption logs 14, 120 and 139). -/
def Obligations.TurnEdgesAdvanceTheTurn : Prop :=
  ∀ (s : State) (e : EdgeEnv),
    (s.power.mode = .off → exec (.turnEdge e) s = .next s) ∧
    (s.power.mode ≠ .off → Completes (.turnEdge e) s fun t =>
      t.turn = s.turn + 1 ∧ t.edgeRegs = [] ∧ t.pending = s.pending ∧
        (∀ b ∈ t.sluice.bookings, s.turn < b.start + b.len) ∧ (∀ l ∈ t.sluice.lookups, s.turn * 16 ≤ l.1) ∧
        (∀ u, e.overruns = [u] → e.mismatches = [] → t.collector.pairRun = [] ∧
          klook u t.collector.overruns = some (min (2 ^ 32 - 1) ((klook u s.collector.overruns).getD 0 + 1))) ∧
        (∀ u, isPair u = true → e.overruns = [] → e.mismatches = [u] →
          t.collector.pairRun = [(u, (klook u s.collector.pairRun).getD 0 + 1)] ∧
          klook u t.collector.overruns = some (min (2 ^ 32 - 1) ((klook u s.collector.overruns).getD 0 + 1))) ∧
        t.fld Reg.PMC_CIS_STATUS_VHOLD =
          min 65535 (min 1023 e.vhold * 120 * s.fld Reg.PMC_CIS_DIV_DIV_X256 / (1024 * 256)) ∧
        (e.misvote = false → s.mgmt.waiting = [] → s.memory.bankStall = [] → (∀ b, (s.bank b).waiting = []) →
          (∀ n, (s.dom n).stalled = []) →
          t.fld Reg.TRN_VOTE_MISMATCH = s.fld Reg.TRN_VOTE_MISMATCH) ∧
        (e.misvote = true → s.mgmt.waiting = [] → s.memory.bankStall = [] → (∀ b, (s.bank b).waiting = []) →
          (∀ n, (s.dom n).stalled = []) →
          t.fld Reg.TRN_VOTE_MISMATCH = min 65535 (s.fld Reg.TRN_VOTE_MISMATCH + 1)) ∧
        (∀ r, s.mgmt.restartUntil = some r → r ≤ s.turn → t.mgmt.restartUntil = none) ∧
        (∀ r, s.mgmt.restartUntil = some r → s.turn < r → t.mgmt.restartUntil = some r) ∧
        t.mgmt.teleWanted = false ∧ t.mgmt.teleSeen = t.nv.warning)

/-- SPAN_EDGE and ROTATION_EDGE (R33, R89, R120, R131, R167, R255, R466): a span edge adds the allotment credit, once, and saturates at the
width of the balance; a rotation edge advances the Dellux clock, publishes and clears the fetch latencies, adds the refusals to
the accounting and clears the counts of the rotation, and sends every entry of the log buffer to the log ring with the Dellux clock; neither does anything in a turn that is no
such edge. What the rules
leave open in these points is the model's own (assumption logs 19, 129 and 130). -/
def Obligations.SpanAndRotationEdgesAct : Prop :=
  ∀ s : State,
    (s.turn % 16 ≠ 0 ∨ s.sluice.spanDone = some s.turn → exec .spanEdge s = .next s) ∧
    (s.power.mode ≠ .off → s.turn % 16 = 0 → 0 < s.turn → s.sluice.spanDone ≠ some s.turn →
      Does .spanEdge s [.sluice] [plus s Reg.SLU_ALLOT_BAL_BALANCE (s.efld Reg.SLU_ALLOT_CREDIT_CREDIT)] fun t =>
        t.sluice = { s.sluice with spanDone := some s.turn }) ∧
    (s.turn % 2 ^ 20 ≠ 0 ∨ s.sluice.rotDone = some s.turn → exec .rotationEdge s = .next s) ∧
    (s.power.mode ≠ .off → s.turn % 2 ^ 20 = 0 → 0 < s.turn → s.sluice.rotDone ≠ some s.turn →
      Completes .rotationEdge s fun t =>
        t.sluice.rotDone = some s.turn ∧ t.turn = s.turn ∧ t.pending = s.pending ∧
          (s.nv.formatted = true → t.fld Reg.LDP_DLX_NOW_ROT = (s.fld Reg.LDP_DLX_NOW_ROT + 1) % 2 ^ 32) ∧
          t.nv.dlxSaved = t.fld Reg.LDP_DLX_NOW_ROT ∧ t.mgmt.log = [] ∧ t.mgmt.logDropped = 0 ∧
          (s.mgmt.log.length ≤ 8192 → ∀ e ∈ s.mgmt.log, e ∈ t.ringLog) ∧
          (∀ k, k < 10 → s.sluice.reasons.length = 10 → t.sluice.reasons.getD k 0 = s.sluice.reasons.getD k 0 + s.fld (Reg.SLU_REFUSE_COUNT k)) ∧
          t.sluice.collisions = s.sluice.collisions + s.fld Reg.SLU_CULV_COLLIDE ∧ t.sluice.noSecond = s.sluice.noSecond + s.fld Reg.SLU_CULV_NO_SECOND ∧
          (∀ k, k < 10 → t.fld (Reg.SLU_REFUSE_COUNT k) = 0) ∧ t.fld Reg.SLU_CULV_COLLIDE = 0 ∧ t.fld Reg.SLU_CULV_NO_SECOND = 0 ∧
          (∀ d, d < 1024 → t.fld (Reg.FUR_TIMEOUT_ROT d) = 0) ∧
          ∀ c : Fin 2, t.fld (Reg.HGT_FETCH_LAT_MAX_NS c) = min 0xFFFF s.host.rtt[c].1 ∧
            t.fld (Reg.HGT_FETCH_LAT_OVER_COUNT c) = min 0xFFFF s.host.rtt[c].2 ∧ t.host.rtt[c] = (0, 0))

/-! ### Every setup write alike, and reset (R25, R434, R457, R489, R497, R499, R518) -/

/-- Every command that stands for the write of a setup register (R25, R489, R497): one that comes through BAR2 has no effect but its log
entry; one to a register of a domain that is RETIRED, ABSENT or FUSED is dropped as a bus error that ERC records with kind 4; one to
a register of an OFF or WAKING domain waits there, behind those that wait already, and wakes an OFF one. What the rules
leave open in these points is the model's own (assumption log 12). -/
def Obligations.SetupWritesMeetTheirDomain : Prop :=
  ∀ (s : State) (i : Instr) (client a : Nat) (v : Word), setupOf i = some (client, a, v) →
    (viaBar2 client = true → Does i s [.log] [] fun t => logged s t 0x0901 0 client (a + v.toNat * 2 ^ 32)) ∧
    (viaBar2 client = false →
      (s.isDead (blockDomain a) = true →
        Does i s [] ([plus s Reg.ERC_BUSERR_COUNT 1, (Reg.ERC_EVENT_BUS_ERR, 1)] ++ lastWrites s client 4 true 0 (0x20000000 + a)) fun _ => True) ∧
      ((s.dom (blockDomain a)).state = .waking → Does i s [.doms] [] fun t =>
        t.dom (blockDomain a) = { s.dom (blockDomain a) with stalled := (s.dom (blockDomain a)).stalled ++ [i] } ∧
          othersSame (blockDomain a) s t) ∧
      ((s.dom (blockDomain a)).state = .off → s.power.mode ≠ .recovery → Does i s [.doms, .idle] [] fun t =>
        (t.dom (blockDomain a)).state = .waking ∧ (t.dom (blockDomain a)).wakeFrom = s.turn ∧
          (t.dom (blockDomain a)).stalled = (s.dom (blockDomain a)).stalled ++ [i] ∧ othersSame (blockDomain a) s t))

/-- The state after reset: Boot in turn 0 with PD0 the only domain ON, every setup register at its reset value, no command waiting or
outstanding, and memory and register lists in canonical form (R434, R457, R499, R518). What memory, media and the store hold there
is the model's choice (assumption logs 3, 4, 6 and 8). -/
def Obligations.ResetState : Prop :=
  canonical State.reset = true ∧ State.reset.power.mode = .boot ∧ State.reset.turn = 0 ∧ State.reset.pending = [] ∧
    State.reset.host.cmds = [] ∧ (∀ a, State.reset.word a = resetWord a) ∧
    (∀ n : Fin 24, (State.reset.dom n).state = if n = 0 then .on else .off) ∧
    ∀ n : Fin 24, bitsOf (State.reset.view (Reg.PMC_DOM n)) 0 3 = if n = 0 then 2 else 0
end

