-- ==== Sys2Proof/Laws/Bits.lean ====
section
/-! SUPPORT. Laws of bit fields, byte order and keyed lists: read after write, and what a write leaves alone. -/

namespace Sys2Proof.Machine

theorem bitsOf_lt (w : Word) (lo n : Nat) : bitsOf w lo n < 2 ^ n := Nat.mod_lt _ (Nat.two_pow_pos n)

@[simp] theorem bitsOf_mod (w : Word) (lo n : Nat) : bitsOf w lo n % 2 ^ n = bitsOf w lo n :=
  Nat.mod_eq_of_lt (bitsOf_lt w lo n)

/-- A number cut at a field: the bits below it, the field, and the bits above it. -/
theorem nat_cut (x lo n : Nat) : x = x % 2 ^ lo + x / 2 ^ lo % 2 ^ n * 2 ^ lo + x / 2 ^ (lo + n) * 2 ^ (lo + n) := by
  have h1 := Nat.div_add_mod x (2 ^ lo)
  have h2 := Nat.div_add_mod (x / 2 ^ lo) (2 ^ n)
  have h3 : x / 2 ^ (lo + n) = x / 2 ^ lo / 2 ^ n := by rw [pow_add, Nat.div_div_eq_div_mul]
  rw [h3, pow_add]
  calc x = 2 ^ lo * (2 ^ n * (x / 2 ^ lo / 2 ^ n) + x / 2 ^ lo % 2 ^ n) + x % 2 ^ lo := by rw [h2, h1]
    _ = _ := by ring

/-- A field and the bits below it fit under the field's top. -/
theorem field_lt {v n l lo : Nat} (hv : v < 2 ^ n) (hl : l < 2 ^ lo) : l + v * 2 ^ lo < 2 ^ n * 2 ^ lo := by
  have : (v + 1) * 2 ^ lo ≤ 2 ^ n * 2 ^ lo := Nat.mul_le_mul_right _ hv
  rw [Nat.add_mul] at this; omega

/-- A setup word after a field write, as a number. -/
theorem putBits_toNat (w : Word) (lo n v : Nat) (h : lo + n ≤ 32) :
    (putBits w lo n v).toNat = w.toNat % 2 ^ lo + v % 2 ^ n * 2 ^ lo + w.toNat / 2 ^ (lo + n) * 2 ^ (lo + n) := by
  have hc := nat_cut w.toNat lo n
  have hv : v % 2 ^ n < 2 ^ n := Nat.mod_lt _ (Nat.two_pow_pos n)
  have hl : w.toNat % 2 ^ lo < 2 ^ lo := Nat.mod_lt _ (Nat.two_pow_pos lo)
  have hu : w.toNat / 2 ^ (lo + n) < 2 ^ (32 - (lo + n)) := by
    rw [Nat.div_lt_iff_lt_mul (Nat.two_pow_pos _), ← pow_add, Nat.sub_add_cancel h]; exact w.isLt
  have hp : (2 : Nat) ^ 32 = 2 ^ (32 - (lo + n)) * (2 ^ n * 2 ^ lo) := by
    rw [← pow_add, ← pow_add]; congr 1; omega
  have e : w.toNat - bitsOf w lo n * 2 ^ lo + v % 2 ^ n * 2 ^ lo
      = w.toNat % 2 ^ lo + v % 2 ^ n * 2 ^ lo + w.toNat / 2 ^ (lo + n) * 2 ^ (lo + n) := by
    unfold bitsOf; omega
  unfold putBits
  rw [BitVec.toNat_ofNat, e, Nat.mod_eq_of_lt]
  have a1 := field_lt hv hl
  have a2 : (w.toNat / 2 ^ (lo + n) + 1) * (2 ^ n * 2 ^ lo) ≤ 2 ^ (32 - (lo + n)) * (2 ^ n * 2 ^ lo) :=
    Nat.mul_le_mul_right _ hu
  rw [hp, pow_add 2 lo n, Nat.mul_comm (2 ^ lo) (2 ^ n)]
  rw [pow_add 2 lo n, Nat.mul_comm (2 ^ lo) (2 ^ n), Nat.add_mul] at a2
  omega

/-- A field reads what was written to it, cut to its width. -/
theorem bitsOf_putBits_self (w : Word) (lo n v : Nat) (h : lo + n ≤ 32) : bitsOf (putBits w lo n v) lo n = v % 2 ^ n := by
  have hl : w.toNat % 2 ^ lo < 2 ^ lo := Nat.mod_lt _ (Nat.two_pow_pos lo)
  unfold bitsOf
  rw [putBits_toNat w lo n v h, show w.toNat % 2 ^ lo + v % 2 ^ n * 2 ^ lo + w.toNat / 2 ^ (lo + n) * 2 ^ (lo + n)
    = w.toNat % 2 ^ lo + 2 ^ lo * (v % 2 ^ n + 2 ^ n * (w.toNat / 2 ^ (lo + n))) by rw [pow_add]; ring,
    Nat.add_mul_div_left _ _ (Nat.two_pow_pos lo), Nat.div_eq_of_lt hl, Nat.zero_add, Nat.add_mul_mod_self_left,
    Nat.mod_mod]

/-- A field above the one written reads as before. -/
theorem bitsOf_putBits_above (w : Word) (lo n v lo' n' : Nat) (h : lo + n ≤ 32) (hd : lo + n ≤ lo') :
    bitsOf (putBits w lo n v) lo' n' = bitsOf w lo' n' := by
  have hl : w.toNat % 2 ^ lo < 2 ^ lo := Nat.mod_lt _ (Nat.two_pow_pos lo)
  have hv : v % 2 ^ n < 2 ^ n := Nat.mod_lt _ (Nat.two_pow_pos n)
  obtain ⟨k, rfl⟩ := Nat.exists_eq_add_of_le hd
  unfold bitsOf
  have hx : (w.toNat % 2 ^ lo + v % 2 ^ n * 2 ^ lo + w.toNat / 2 ^ (lo + n) * 2 ^ (lo + n)) / 2 ^ (lo + n)
      = w.toNat / 2 ^ (lo + n) := by
    rw [Nat.add_mul_div_right _ _ (Nat.two_pow_pos _), Nat.div_eq_of_lt, Nat.zero_add]
    rw [pow_add, Nat.mul_comm (2 ^ lo)]; exact field_lt hv hl
  rw [putBits_toNat w lo n v h, pow_add _ (lo + n) k, ← Nat.div_div_eq_div_mul, ← Nat.div_div_eq_div_mul, hx]

/-- A field below the one written reads as before. -/
theorem bitsOf_putBits_below (w : Word) (lo n v lo' n' : Nat) (h : lo + n ≤ 32) (hd : lo' + n' ≤ lo) :
    bitsOf (putBits w lo n v) lo' n' = bitsOf w lo' n' := by
  obtain ⟨k, rfl⟩ := Nat.exists_eq_add_of_le hd
  unfold bitsOf
  rw [putBits_toNat w _ n v h]
  have e : ∀ x : Nat, x / 2 ^ lo' % 2 ^ n' = x % 2 ^ (lo' + n') / 2 ^ lo' := by
    intro x; rw [pow_add, Nat.mod_mul_right_div_self]
  rw [e, e]
  congr 1
  rw [show w.toNat % 2 ^ (lo' + n' + k) + v % 2 ^ n * 2 ^ (lo' + n' + k)
      + w.toNat / 2 ^ (lo' + n' + k + n) * 2 ^ (lo' + n' + k + n)
    = w.toNat % 2 ^ (lo' + n' + k) + 2 ^ (lo' + n') * (v % 2 ^ n * 2 ^ k + w.toNat / 2 ^ (lo' + n' + k + n) * 2 ^ (k + n)) by
      rw [pow_add _ (lo' + n') k, pow_add _ (lo' + n' + k) n, pow_add _ (lo' + n') k, pow_add _ k n]; ring,
    Nat.add_mul_mod_self_left, Nat.mod_mod_of_dvd _ (pow_dvd_pow 2 (by omega))]

/-! ### Keyed lists -/

variable {α : Type}

@[simp] theorem klook_kput_self (k : Nat) (v : α) (l : List (Nat × α)) : klook k (kput k v l) = some v := by
  induction l with
  | nil => simp [kput, klook]
  | cons p t ih =>
    obtain ⟨j, w⟩ := p
    by_cases h : k < j
    · simp [kput, h, klook]
    · by_cases h' : k = j
      · simp [kput, h', klook]
      · simp [kput, h, h', klook, Ne.symm h', ih]

theorem klook_kput_ne {k k' : Nat} (v : α) (l : List (Nat × α)) (h : k' ≠ k) : klook k' (kput k v l) = klook k' l := by
  induction l with
  | nil => simp [kput, klook, h.symm]
  | cons p t ih =>
    obtain ⟨j, w⟩ := p
    by_cases h1 : k < j
    · simp [kput, h1, klook, h.symm]
    · by_cases h2 : k = j
      · subst h2; simp [kput, klook, h.symm]
      · simp [kput, h1, h2, klook, ih]

@[simp] theorem klook_kdel_self (k : Nat) (l : List (Nat × α)) : klook k (kdel k l) = none := by
  induction l with
  | nil => rfl
  | cons p t ih => obtain ⟨j, w⟩ := p; by_cases h : j = k <;> simp [kdel, klook, h, ih]

theorem klook_kdel_ne {k k' : Nat} (l : List (Nat × α)) (h : k' ≠ k) : klook k' (kdel k l) = klook k' l := by
  induction l with
  | nil => rfl
  | cons p t ih =>
    obtain ⟨j, w⟩ := p
    by_cases h1 : j = k
    · subst h1; simp [kdel, klook, h.symm, ih]
    · simp [kdel, klook, h1, ih]

/-- Keys in strictly rising order. -/
def rising : List (Nat × α) → Prop := fun l => l.Pairwise fun a b => a.1 < b.1

theorem mem_kput {k : Nat} {v : α} {l : List (Nat × α)} {p : Nat × α} (h : p ∈ kput k v l) : p = (k, v) ∨ p ∈ l := by
  induction l with
  | nil => simpa [kput] using h
  | cons q t ih =>
    obtain ⟨j, w⟩ := q
    unfold kput at h
    split_ifs at h <;> simp only [List.mem_cons] at h ⊢ <;> tauto

theorem mem_kdel {k : Nat} {l : List (Nat × α)} {p : Nat × α} (h : p ∈ kdel k l) : p ∈ l := by
  induction l with
  | nil => exact h
  | cons q t ih =>
    obtain ⟨j, w⟩ := q
    unfold kdel at h
    split_ifs at h <;> simp only [List.mem_cons] at h ⊢ <;> tauto

theorem rising_kput (k : Nat) (v : α) {l : List (Nat × α)} (h : rising l) : rising (kput k v l) := by
  induction l with
  | nil => simp [kput, rising]
  | cons p t ih =>
    obtain ⟨j, w⟩ := p
    obtain ⟨hj, ht⟩ := List.pairwise_cons.1 h
    unfold kput
    split_ifs with h1 h2
    · refine List.pairwise_cons.2 ⟨fun q hq => ?_, h⟩
      rcases List.mem_cons.1 hq with rfl | hq
      · exact h1
      · exact lt_trans h1 (hj q hq)
    · subst h2; exact List.pairwise_cons.2 ⟨hj, ht⟩
    · refine List.pairwise_cons.2 ⟨fun q hq => ?_, ih ht⟩
      rcases mem_kput hq with rfl | hq
      · exact lt_of_le_of_ne (not_lt.1 h1) (Ne.symm h2)
      · exact hj q hq

theorem rising_kdel (k : Nat) {l : List (Nat × α)} (h : rising l) : rising (kdel k l) := by
  induction l with
  | nil => exact h
  | cons p t ih =>
    obtain ⟨j, w⟩ := p
    obtain ⟨hj, ht⟩ := List.pairwise_cons.1 h
    unfold kdel
    split_ifs
    · exact ih ht
    · exact List.pairwise_cons.2 ⟨fun q hq => hj q (mem_kdel hq), ih ht⟩

/-! ### Byte order -/

@[simp] theorem leBytes_length (n v : Nat) : (leBytes n v).length = n := by
  induction n generalizing v with
  | zero => rfl
  | succ n ih => simp [leBytes, ih]

/-- Bytes written least significant first read back as the number, cut to their width. -/
theorem leNat_leBytes (n v : Nat) : leNat (leBytes n v) = v % 256 ^ n := by
  induction n generalizing v with
  | zero => simp [leBytes, leNat, Nat.mod_one]
  | succ n ih =>
    rw [leBytes, leNat, ih, BitVec.toNat_ofNat, pow_succ 256 n, Nat.mul_comm (256 ^ n) 256, Nat.mod_mul]

theorem leNat_lt (bs : Bytes) : leNat bs < 256 ^ bs.length := by
  induction bs with
  | nil => simp [leNat]
  | cons b bs ih =>
    have : b.toNat < 256 := b.isLt
    simp only [leNat, List.length_cons, pow_succ]
    omega

end Sys2Proof.Machine
end

