-- ==== Sys2Proof/Laws/State.lean ====
section
/-! SUPPORT. What each update of the state leaves alone, one lemma per field per update, and what each lens changes. The proofs stand
in parentheses, so that `simp` rewrites with each lemma and the kernel never compares two states by unfolding a register write. -/

namespace Sys2Proof.Machine

variable (s : State)

/-! ### State.setWord -/

@[simp] theorem State.setWord_pending (a : Nat) (w : Word) : (s.setWord a w).pending = s.pending := (rfl)
@[simp] theorem State.setWord_edgeRegs (a : Nat) (w : Word) : (s.setWord a w).edgeRegs = s.edgeRegs := (rfl)
@[simp] theorem State.setWord_turn (a : Nat) (w : Word) : (s.setWord a w).turn = s.turn := (rfl)
@[simp] theorem State.setWord_free (a : Nat) (w : Word) : (s.setWord a w).free = s.free := (rfl)
@[simp] theorem State.setWord_answer (a : Nat) (w : Word) : (s.setWord a w).answer = s.answer := (rfl)
@[simp] theorem State.setWord_memory (a : Nat) (w : Word) : (s.setWord a w).memory = s.memory := (rfl)
@[simp] theorem State.setWord_power (a : Nat) (w : Word) : (s.setWord a w).power = s.power := (rfl)
@[simp] theorem State.setWord_pins (a : Nat) (w : Word) : (s.setWord a w).pins = s.pins := (rfl)
@[simp] theorem State.setWord_mgmt (a : Nat) (w : Word) : (s.setWord a w).mgmt = s.mgmt := (rfl)
@[simp] theorem State.setWord_collector (a : Nat) (w : Word) : (s.setWord a w).collector = s.collector := (rfl)
@[simp] theorem State.setWord_host (a : Nat) (w : Word) : (s.setWord a w).host = s.host := (rfl)
@[simp] theorem State.setWord_dma (a : Nat) (w : Word) : (s.setWord a w).dma = s.dma := (rfl)
@[simp] theorem State.setWord_store (a : Nat) (w : Word) : (s.setWord a w).store = s.store := (rfl)
@[simp] theorem State.setWord_cistern (a : Nat) (w : Word) : (s.setWord a w).cistern = s.cistern := (rfl)
@[simp] theorem State.setWord_flash (a : Nat) (w : Word) : (s.setWord a w).flash = s.flash := (rfl)
@[simp] theorem State.setWord_galley (a : Nat) (w : Word) : (s.setWord a w).galley = s.galley := (rfl)
@[simp] theorem State.setWord_sluice (a : Nat) (w : Word) : (s.setWord a w).sluice = s.sluice := (rfl)
@[simp] theorem State.setWord_nv (a : Nat) (w : Word) : (s.setWord a w).nv = s.nv := (rfl)
@[simp] theorem State.setWord_board (a : Nat) (w : Word) : (s.setWord a w).board = s.board := (rfl)
@[simp] theorem State.setWord_dom (a : Nat) (w : Word) (d : Fin 24) : (s.setWord a w).dom d = s.dom d := (rfl)
@[simp] theorem State.setWord_ctl (a : Nat) (w : Word) (x : Fin 2) : (s.setWord a w).ctl x = s.ctl x := (rfl)

/-! ### State.setFld -/

@[simp] theorem State.setFld_pending (f : Fld) (v : Nat) : (s.setFld f v).pending = s.pending := (rfl)
@[simp] theorem State.setFld_edgeRegs (f : Fld) (v : Nat) : (s.setFld f v).edgeRegs = s.edgeRegs := (rfl)
@[simp] theorem State.setFld_turn (f : Fld) (v : Nat) : (s.setFld f v).turn = s.turn := (rfl)
@[simp] theorem State.setFld_free (f : Fld) (v : Nat) : (s.setFld f v).free = s.free := (rfl)
@[simp] theorem State.setFld_answer (f : Fld) (v : Nat) : (s.setFld f v).answer = s.answer := (rfl)
@[simp] theorem State.setFld_memory (f : Fld) (v : Nat) : (s.setFld f v).memory = s.memory := (rfl)
@[simp] theorem State.setFld_power (f : Fld) (v : Nat) : (s.setFld f v).power = s.power := (rfl)
@[simp] theorem State.setFld_pins (f : Fld) (v : Nat) : (s.setFld f v).pins = s.pins := (rfl)
@[simp] theorem State.setFld_mgmt (f : Fld) (v : Nat) : (s.setFld f v).mgmt = s.mgmt := (rfl)
@[simp] theorem State.setFld_collector (f : Fld) (v : Nat) : (s.setFld f v).collector = s.collector := (rfl)
@[simp] theorem State.setFld_host (f : Fld) (v : Nat) : (s.setFld f v).host = s.host := (rfl)
@[simp] theorem State.setFld_dma (f : Fld) (v : Nat) : (s.setFld f v).dma = s.dma := (rfl)
@[simp] theorem State.setFld_store (f : Fld) (v : Nat) : (s.setFld f v).store = s.store := (rfl)
@[simp] theorem State.setFld_cistern (f : Fld) (v : Nat) : (s.setFld f v).cistern = s.cistern := (rfl)
@[simp] theorem State.setFld_flash (f : Fld) (v : Nat) : (s.setFld f v).flash = s.flash := (rfl)
@[simp] theorem State.setFld_galley (f : Fld) (v : Nat) : (s.setFld f v).galley = s.galley := (rfl)
@[simp] theorem State.setFld_sluice (f : Fld) (v : Nat) : (s.setFld f v).sluice = s.sluice := (rfl)
@[simp] theorem State.setFld_nv (f : Fld) (v : Nat) : (s.setFld f v).nv = s.nv := (rfl)
@[simp] theorem State.setFld_board (f : Fld) (v : Nat) : (s.setFld f v).board = s.board := (rfl)
@[simp] theorem State.setFld_dom (f : Fld) (v : Nat) (d : Fin 24) : (s.setFld f v).dom d = s.dom d := (rfl)
@[simp] theorem State.setFld_ctl (f : Fld) (v : Nat) (x : Fin 2) : (s.setFld f v).ctl x = s.ctl x := (rfl)

/-! ### State.addFld -/

@[simp] theorem State.addFld_pending (f : Fld) (n : Nat) : (s.addFld f n).pending = s.pending := (rfl)
@[simp] theorem State.addFld_edgeRegs (f : Fld) (n : Nat) : (s.addFld f n).edgeRegs = s.edgeRegs := (rfl)
@[simp] theorem State.addFld_turn (f : Fld) (n : Nat) : (s.addFld f n).turn = s.turn := (rfl)
@[simp] theorem State.addFld_free (f : Fld) (n : Nat) : (s.addFld f n).free = s.free := (rfl)
@[simp] theorem State.addFld_answer (f : Fld) (n : Nat) : (s.addFld f n).answer = s.answer := (rfl)
@[simp] theorem State.addFld_memory (f : Fld) (n : Nat) : (s.addFld f n).memory = s.memory := (rfl)
@[simp] theorem State.addFld_power (f : Fld) (n : Nat) : (s.addFld f n).power = s.power := (rfl)
@[simp] theorem State.addFld_pins (f : Fld) (n : Nat) : (s.addFld f n).pins = s.pins := (rfl)
@[simp] theorem State.addFld_mgmt (f : Fld) (n : Nat) : (s.addFld f n).mgmt = s.mgmt := (rfl)
@[simp] theorem State.addFld_collector (f : Fld) (n : Nat) : (s.addFld f n).collector = s.collector := (rfl)
@[simp] theorem State.addFld_host (f : Fld) (n : Nat) : (s.addFld f n).host = s.host := (rfl)
@[simp] theorem State.addFld_dma (f : Fld) (n : Nat) : (s.addFld f n).dma = s.dma := (rfl)
@[simp] theorem State.addFld_store (f : Fld) (n : Nat) : (s.addFld f n).store = s.store := (rfl)
@[simp] theorem State.addFld_cistern (f : Fld) (n : Nat) : (s.addFld f n).cistern = s.cistern := (rfl)
@[simp] theorem State.addFld_flash (f : Fld) (n : Nat) : (s.addFld f n).flash = s.flash := (rfl)
@[simp] theorem State.addFld_galley (f : Fld) (n : Nat) : (s.addFld f n).galley = s.galley := (rfl)
@[simp] theorem State.addFld_sluice (f : Fld) (n : Nat) : (s.addFld f n).sluice = s.sluice := (rfl)
@[simp] theorem State.addFld_nv (f : Fld) (n : Nat) : (s.addFld f n).nv = s.nv := (rfl)
@[simp] theorem State.addFld_board (f : Fld) (n : Nat) : (s.addFld f n).board = s.board := (rfl)
@[simp] theorem State.addFld_dom (f : Fld) (n : Nat) (d : Fin 24) : (s.addFld f n).dom d = s.dom d := (rfl)
@[simp] theorem State.addFld_ctl (f : Fld) (n : Nat) (x : Fin 2) : (s.addFld f n).ctl x = s.ctl x := (rfl)

/-! ### State.subFld -/

@[simp] theorem State.subFld_pending (f : Fld) (n : Nat) : (s.subFld f n).pending = s.pending := (rfl)
@[simp] theorem State.subFld_edgeRegs (f : Fld) (n : Nat) : (s.subFld f n).edgeRegs = s.edgeRegs := (rfl)
@[simp] theorem State.subFld_turn (f : Fld) (n : Nat) : (s.subFld f n).turn = s.turn := (rfl)
@[simp] theorem State.subFld_free (f : Fld) (n : Nat) : (s.subFld f n).free = s.free := (rfl)
@[simp] theorem State.subFld_answer (f : Fld) (n : Nat) : (s.subFld f n).answer = s.answer := (rfl)
@[simp] theorem State.subFld_memory (f : Fld) (n : Nat) : (s.subFld f n).memory = s.memory := (rfl)
@[simp] theorem State.subFld_power (f : Fld) (n : Nat) : (s.subFld f n).power = s.power := (rfl)
@[simp] theorem State.subFld_pins (f : Fld) (n : Nat) : (s.subFld f n).pins = s.pins := (rfl)
@[simp] theorem State.subFld_mgmt (f : Fld) (n : Nat) : (s.subFld f n).mgmt = s.mgmt := (rfl)
@[simp] theorem State.subFld_collector (f : Fld) (n : Nat) : (s.subFld f n).collector = s.collector := (rfl)
@[simp] theorem State.subFld_host (f : Fld) (n : Nat) : (s.subFld f n).host = s.host := (rfl)
@[simp] theorem State.subFld_dma (f : Fld) (n : Nat) : (s.subFld f n).dma = s.dma := (rfl)
@[simp] theorem State.subFld_store (f : Fld) (n : Nat) : (s.subFld f n).store = s.store := (rfl)
@[simp] theorem State.subFld_cistern (f : Fld) (n : Nat) : (s.subFld f n).cistern = s.cistern := (rfl)
@[simp] theorem State.subFld_flash (f : Fld) (n : Nat) : (s.subFld f n).flash = s.flash := (rfl)
@[simp] theorem State.subFld_galley (f : Fld) (n : Nat) : (s.subFld f n).galley = s.galley := (rfl)
@[simp] theorem State.subFld_sluice (f : Fld) (n : Nat) : (s.subFld f n).sluice = s.sluice := (rfl)
@[simp] theorem State.subFld_nv (f : Fld) (n : Nat) : (s.subFld f n).nv = s.nv := (rfl)
@[simp] theorem State.subFld_board (f : Fld) (n : Nat) : (s.subFld f n).board = s.board := (rfl)
@[simp] theorem State.subFld_dom (f : Fld) (n : Nat) (d : Fin 24) : (s.subFld f n).dom d = s.dom d := (rfl)
@[simp] theorem State.subFld_ctl (f : Fld) (n : Nat) (x : Fin 2) : (s.subFld f n).ctl x = s.ctl x := (rfl)

/-! ### State.onMemory -/

@[simp] theorem State.onMemory_pending (f : Memory → Memory) : (s.onMemory f).pending = s.pending := (rfl)
@[simp] theorem State.onMemory_regs (f : Memory → Memory) : (s.onMemory f).regs = s.regs := (rfl)
@[simp] theorem State.onMemory_edgeRegs (f : Memory → Memory) : (s.onMemory f).edgeRegs = s.edgeRegs := (rfl)
@[simp] theorem State.onMemory_turn (f : Memory → Memory) : (s.onMemory f).turn = s.turn := (rfl)
@[simp] theorem State.onMemory_free (f : Memory → Memory) : (s.onMemory f).free = s.free := (rfl)
@[simp] theorem State.onMemory_answer (f : Memory → Memory) : (s.onMemory f).answer = s.answer := (rfl)
@[simp] theorem State.onMemory_power (f : Memory → Memory) : (s.onMemory f).power = s.power := (rfl)
@[simp] theorem State.onMemory_pins (f : Memory → Memory) : (s.onMemory f).pins = s.pins := (rfl)
@[simp] theorem State.onMemory_mgmt (f : Memory → Memory) : (s.onMemory f).mgmt = s.mgmt := (rfl)
@[simp] theorem State.onMemory_collector (f : Memory → Memory) : (s.onMemory f).collector = s.collector := (rfl)
@[simp] theorem State.onMemory_host (f : Memory → Memory) : (s.onMemory f).host = s.host := (rfl)
@[simp] theorem State.onMemory_dma (f : Memory → Memory) : (s.onMemory f).dma = s.dma := (rfl)
@[simp] theorem State.onMemory_store (f : Memory → Memory) : (s.onMemory f).store = s.store := (rfl)
@[simp] theorem State.onMemory_cistern (f : Memory → Memory) : (s.onMemory f).cistern = s.cistern := (rfl)
@[simp] theorem State.onMemory_flash (f : Memory → Memory) : (s.onMemory f).flash = s.flash := (rfl)
@[simp] theorem State.onMemory_galley (f : Memory → Memory) : (s.onMemory f).galley = s.galley := (rfl)
@[simp] theorem State.onMemory_sluice (f : Memory → Memory) : (s.onMemory f).sluice = s.sluice := (rfl)
@[simp] theorem State.onMemory_nv (f : Memory → Memory) : (s.onMemory f).nv = s.nv := (rfl)
@[simp] theorem State.onMemory_board (f : Memory → Memory) : (s.onMemory f).board = s.board := (rfl)
@[simp] theorem State.onMemory_memory (f : Memory → Memory) : (s.onMemory f).memory = f s.memory := (rfl)
@[simp] theorem State.onMemory_word (f : Memory → Memory) (x : Nat) : (s.onMemory f).word x = s.word x := (rfl)
@[simp] theorem State.onMemory_fld (f : Memory → Memory) (x : Fld) : (s.onMemory f).fld x = s.fld x := (rfl)
@[simp] theorem State.onMemory_flag (f : Memory → Memory) (x : Fld) : (s.onMemory f).flag x = s.flag x := (rfl)
@[simp] theorem State.onMemory_dom (f : Memory → Memory) (d : Fin 24) : (s.onMemory f).dom d = s.dom d := (rfl)
@[simp] theorem State.onMemory_ctl (f : Memory → Memory) (x : Fin 2) : (s.onMemory f).ctl x = s.ctl x := (rfl)

/-! ### State.onPower -/

@[simp] theorem State.onPower_pending (f : Power → Power) : (s.onPower f).pending = s.pending := (rfl)
@[simp] theorem State.onPower_regs (f : Power → Power) : (s.onPower f).regs = s.regs := (rfl)
@[simp] theorem State.onPower_edgeRegs (f : Power → Power) : (s.onPower f).edgeRegs = s.edgeRegs := (rfl)
@[simp] theorem State.onPower_turn (f : Power → Power) : (s.onPower f).turn = s.turn := (rfl)
@[simp] theorem State.onPower_free (f : Power → Power) : (s.onPower f).free = s.free := (rfl)
@[simp] theorem State.onPower_answer (f : Power → Power) : (s.onPower f).answer = s.answer := (rfl)
@[simp] theorem State.onPower_memory (f : Power → Power) : (s.onPower f).memory = s.memory := (rfl)
@[simp] theorem State.onPower_pins (f : Power → Power) : (s.onPower f).pins = s.pins := (rfl)
@[simp] theorem State.onPower_mgmt (f : Power → Power) : (s.onPower f).mgmt = s.mgmt := (rfl)
@[simp] theorem State.onPower_collector (f : Power → Power) : (s.onPower f).collector = s.collector := (rfl)
@[simp] theorem State.onPower_host (f : Power → Power) : (s.onPower f).host = s.host := (rfl)
@[simp] theorem State.onPower_dma (f : Power → Power) : (s.onPower f).dma = s.dma := (rfl)
@[simp] theorem State.onPower_store (f : Power → Power) : (s.onPower f).store = s.store := (rfl)
@[simp] theorem State.onPower_cistern (f : Power → Power) : (s.onPower f).cistern = s.cistern := (rfl)
@[simp] theorem State.onPower_flash (f : Power → Power) : (s.onPower f).flash = s.flash := (rfl)
@[simp] theorem State.onPower_galley (f : Power → Power) : (s.onPower f).galley = s.galley := (rfl)
@[simp] theorem State.onPower_sluice (f : Power → Power) : (s.onPower f).sluice = s.sluice := (rfl)
@[simp] theorem State.onPower_nv (f : Power → Power) : (s.onPower f).nv = s.nv := (rfl)
@[simp] theorem State.onPower_board (f : Power → Power) : (s.onPower f).board = s.board := (rfl)
@[simp] theorem State.onPower_power (f : Power → Power) : (s.onPower f).power = f s.power := (rfl)
@[simp] theorem State.onPower_word (f : Power → Power) (x : Nat) : (s.onPower f).word x = s.word x := (rfl)
@[simp] theorem State.onPower_fld (f : Power → Power) (x : Fld) : (s.onPower f).fld x = s.fld x := (rfl)
@[simp] theorem State.onPower_flag (f : Power → Power) (x : Fld) : (s.onPower f).flag x = s.flag x := (rfl)
@[simp] theorem State.onPower_ctl (f : Power → Power) (x : Fin 2) : (s.onPower f).ctl x = s.ctl x := (rfl)

/-! ### State.onPins -/

@[simp] theorem State.onPins_pending (f : Pins → Pins) : (s.onPins f).pending = s.pending := (rfl)
@[simp] theorem State.onPins_regs (f : Pins → Pins) : (s.onPins f).regs = s.regs := (rfl)
@[simp] theorem State.onPins_edgeRegs (f : Pins → Pins) : (s.onPins f).edgeRegs = s.edgeRegs := (rfl)
@[simp] theorem State.onPins_turn (f : Pins → Pins) : (s.onPins f).turn = s.turn := (rfl)
@[simp] theorem State.onPins_free (f : Pins → Pins) : (s.onPins f).free = s.free := (rfl)
@[simp] theorem State.onPins_answer (f : Pins → Pins) : (s.onPins f).answer = s.answer := (rfl)
@[simp] theorem State.onPins_memory (f : Pins → Pins) : (s.onPins f).memory = s.memory := (rfl)
@[simp] theorem State.onPins_power (f : Pins → Pins) : (s.onPins f).power = s.power := (rfl)
@[simp] theorem State.onPins_mgmt (f : Pins → Pins) : (s.onPins f).mgmt = s.mgmt := (rfl)
@[simp] theorem State.onPins_collector (f : Pins → Pins) : (s.onPins f).collector = s.collector := (rfl)
@[simp] theorem State.onPins_host (f : Pins → Pins) : (s.onPins f).host = s.host := (rfl)
@[simp] theorem State.onPins_dma (f : Pins → Pins) : (s.onPins f).dma = s.dma := (rfl)
@[simp] theorem State.onPins_store (f : Pins → Pins) : (s.onPins f).store = s.store := (rfl)
@[simp] theorem State.onPins_cistern (f : Pins → Pins) : (s.onPins f).cistern = s.cistern := (rfl)
@[simp] theorem State.onPins_flash (f : Pins → Pins) : (s.onPins f).flash = s.flash := (rfl)
@[simp] theorem State.onPins_galley (f : Pins → Pins) : (s.onPins f).galley = s.galley := (rfl)
@[simp] theorem State.onPins_sluice (f : Pins → Pins) : (s.onPins f).sluice = s.sluice := (rfl)
@[simp] theorem State.onPins_nv (f : Pins → Pins) : (s.onPins f).nv = s.nv := (rfl)
@[simp] theorem State.onPins_board (f : Pins → Pins) : (s.onPins f).board = s.board := (rfl)
@[simp] theorem State.onPins_pins (f : Pins → Pins) : (s.onPins f).pins = f s.pins := (rfl)
@[simp] theorem State.onPins_word (f : Pins → Pins) (x : Nat) : (s.onPins f).word x = s.word x := (rfl)
@[simp] theorem State.onPins_fld (f : Pins → Pins) (x : Fld) : (s.onPins f).fld x = s.fld x := (rfl)
@[simp] theorem State.onPins_flag (f : Pins → Pins) (x : Fld) : (s.onPins f).flag x = s.flag x := (rfl)
@[simp] theorem State.onPins_dom (f : Pins → Pins) (d : Fin 24) : (s.onPins f).dom d = s.dom d := (rfl)
@[simp] theorem State.onPins_ctl (f : Pins → Pins) (x : Fin 2) : (s.onPins f).ctl x = s.ctl x := (rfl)

/-! ### State.onMgmt -/

@[simp] theorem State.onMgmt_pending (f : Mgmt → Mgmt) : (s.onMgmt f).pending = s.pending := (rfl)
@[simp] theorem State.onMgmt_regs (f : Mgmt → Mgmt) : (s.onMgmt f).regs = s.regs := (rfl)
@[simp] theorem State.onMgmt_edgeRegs (f : Mgmt → Mgmt) : (s.onMgmt f).edgeRegs = s.edgeRegs := (rfl)
@[simp] theorem State.onMgmt_turn (f : Mgmt → Mgmt) : (s.onMgmt f).turn = s.turn := (rfl)
@[simp] theorem State.onMgmt_free (f : Mgmt → Mgmt) : (s.onMgmt f).free = s.free := (rfl)
@[simp] theorem State.onMgmt_answer (f : Mgmt → Mgmt) : (s.onMgmt f).answer = s.answer := (rfl)
@[simp] theorem State.onMgmt_memory (f : Mgmt → Mgmt) : (s.onMgmt f).memory = s.memory := (rfl)
@[simp] theorem State.onMgmt_power (f : Mgmt → Mgmt) : (s.onMgmt f).power = s.power := (rfl)
@[simp] theorem State.onMgmt_pins (f : Mgmt → Mgmt) : (s.onMgmt f).pins = s.pins := (rfl)
@[simp] theorem State.onMgmt_collector (f : Mgmt → Mgmt) : (s.onMgmt f).collector = s.collector := (rfl)
@[simp] theorem State.onMgmt_host (f : Mgmt → Mgmt) : (s.onMgmt f).host = s.host := (rfl)
@[simp] theorem State.onMgmt_dma (f : Mgmt → Mgmt) : (s.onMgmt f).dma = s.dma := (rfl)
@[simp] theorem State.onMgmt_store (f : Mgmt → Mgmt) : (s.onMgmt f).store = s.store := (rfl)
@[simp] theorem State.onMgmt_cistern (f : Mgmt → Mgmt) : (s.onMgmt f).cistern = s.cistern := (rfl)
@[simp] theorem State.onMgmt_flash (f : Mgmt → Mgmt) : (s.onMgmt f).flash = s.flash := (rfl)
@[simp] theorem State.onMgmt_galley (f : Mgmt → Mgmt) : (s.onMgmt f).galley = s.galley := (rfl)
@[simp] theorem State.onMgmt_sluice (f : Mgmt → Mgmt) : (s.onMgmt f).sluice = s.sluice := (rfl)
@[simp] theorem State.onMgmt_nv (f : Mgmt → Mgmt) : (s.onMgmt f).nv = s.nv := (rfl)
@[simp] theorem State.onMgmt_board (f : Mgmt → Mgmt) : (s.onMgmt f).board = s.board := (rfl)
@[simp] theorem State.onMgmt_mgmt (f : Mgmt → Mgmt) : (s.onMgmt f).mgmt = f s.mgmt := (rfl)
@[simp] theorem State.onMgmt_word (f : Mgmt → Mgmt) (x : Nat) : (s.onMgmt f).word x = s.word x := (rfl)
@[simp] theorem State.onMgmt_fld (f : Mgmt → Mgmt) (x : Fld) : (s.onMgmt f).fld x = s.fld x := (rfl)
@[simp] theorem State.onMgmt_flag (f : Mgmt → Mgmt) (x : Fld) : (s.onMgmt f).flag x = s.flag x := (rfl)
@[simp] theorem State.onMgmt_dom (f : Mgmt → Mgmt) (d : Fin 24) : (s.onMgmt f).dom d = s.dom d := (rfl)
@[simp] theorem State.onMgmt_ctl (f : Mgmt → Mgmt) (x : Fin 2) : (s.onMgmt f).ctl x = s.ctl x := (rfl)

/-! ### State.onCollector -/

@[simp] theorem State.onCollector_pending (f : Collector → Collector) : (s.onCollector f).pending = s.pending := (rfl)
@[simp] theorem State.onCollector_regs (f : Collector → Collector) : (s.onCollector f).regs = s.regs := (rfl)
@[simp] theorem State.onCollector_edgeRegs (f : Collector → Collector) : (s.onCollector f).edgeRegs = s.edgeRegs := (rfl)
@[simp] theorem State.onCollector_turn (f : Collector → Collector) : (s.onCollector f).turn = s.turn := (rfl)
@[simp] theorem State.onCollector_free (f : Collector → Collector) : (s.onCollector f).free = s.free := (rfl)
@[simp] theorem State.onCollector_answer (f : Collector → Collector) : (s.onCollector f).answer = s.answer := (rfl)
@[simp] theorem State.onCollector_memory (f : Collector → Collector) : (s.onCollector f).memory = s.memory := (rfl)
@[simp] theorem State.onCollector_power (f : Collector → Collector) : (s.onCollector f).power = s.power := (rfl)
@[simp] theorem State.onCollector_pins (f : Collector → Collector) : (s.onCollector f).pins = s.pins := (rfl)
@[simp] theorem State.onCollector_mgmt (f : Collector → Collector) : (s.onCollector f).mgmt = s.mgmt := (rfl)
@[simp] theorem State.onCollector_host (f : Collector → Collector) : (s.onCollector f).host = s.host := (rfl)
@[simp] theorem State.onCollector_dma (f : Collector → Collector) : (s.onCollector f).dma = s.dma := (rfl)
@[simp] theorem State.onCollector_store (f : Collector → Collector) : (s.onCollector f).store = s.store := (rfl)
@[simp] theorem State.onCollector_cistern (f : Collector → Collector) : (s.onCollector f).cistern = s.cistern := (rfl)
@[simp] theorem State.onCollector_flash (f : Collector → Collector) : (s.onCollector f).flash = s.flash := (rfl)
@[simp] theorem State.onCollector_galley (f : Collector → Collector) : (s.onCollector f).galley = s.galley := (rfl)
@[simp] theorem State.onCollector_sluice (f : Collector → Collector) : (s.onCollector f).sluice = s.sluice := (rfl)
@[simp] theorem State.onCollector_nv (f : Collector → Collector) : (s.onCollector f).nv = s.nv := (rfl)
@[simp] theorem State.onCollector_board (f : Collector → Collector) : (s.onCollector f).board = s.board := (rfl)
@[simp] theorem State.onCollector_collector (f : Collector → Collector) : (s.onCollector f).collector = f s.collector := (rfl)
@[simp] theorem State.onCollector_word (f : Collector → Collector) (x : Nat) : (s.onCollector f).word x = s.word x := (rfl)
@[simp] theorem State.onCollector_fld (f : Collector → Collector) (x : Fld) : (s.onCollector f).fld x = s.fld x := (rfl)
@[simp] theorem State.onCollector_flag (f : Collector → Collector) (x : Fld) : (s.onCollector f).flag x = s.flag x := (rfl)
@[simp] theorem State.onCollector_dom (f : Collector → Collector) (d : Fin 24) : (s.onCollector f).dom d = s.dom d := (rfl)
@[simp] theorem State.onCollector_ctl (f : Collector → Collector) (x : Fin 2) : (s.onCollector f).ctl x = s.ctl x := (rfl)

/-! ### State.onHost -/

@[simp] theorem State.onHost_pending (f : Headgate → Headgate) : (s.onHost f).pending = s.pending := (rfl)
@[simp] theorem State.onHost_regs (f : Headgate → Headgate) : (s.onHost f).regs = s.regs := (rfl)
@[simp] theorem State.onHost_edgeRegs (f : Headgate → Headgate) : (s.onHost f).edgeRegs = s.edgeRegs := (rfl)
@[simp] theorem State.onHost_turn (f : Headgate → Headgate) : (s.onHost f).turn = s.turn := (rfl)
@[simp] theorem State.onHost_free (f : Headgate → Headgate) : (s.onHost f).free = s.free := (rfl)
@[simp] theorem State.onHost_answer (f : Headgate → Headgate) : (s.onHost f).answer = s.answer := (rfl)
@[simp] theorem State.onHost_memory (f : Headgate → Headgate) : (s.onHost f).memory = s.memory := (rfl)
@[simp] theorem State.onHost_power (f : Headgate → Headgate) : (s.onHost f).power = s.power := (rfl)
@[simp] theorem State.onHost_pins (f : Headgate → Headgate) : (s.onHost f).pins = s.pins := (rfl)
@[simp] theorem State.onHost_mgmt (f : Headgate → Headgate) : (s.onHost f).mgmt = s.mgmt := (rfl)
@[simp] theorem State.onHost_collector (f : Headgate → Headgate) : (s.onHost f).collector = s.collector := (rfl)
@[simp] theorem State.onHost_dma (f : Headgate → Headgate) : (s.onHost f).dma = s.dma := (rfl)
@[simp] theorem State.onHost_store (f : Headgate → Headgate) : (s.onHost f).store = s.store := (rfl)
@[simp] theorem State.onHost_cistern (f : Headgate → Headgate) : (s.onHost f).cistern = s.cistern := (rfl)
@[simp] theorem State.onHost_flash (f : Headgate → Headgate) : (s.onHost f).flash = s.flash := (rfl)
@[simp] theorem State.onHost_galley (f : Headgate → Headgate) : (s.onHost f).galley = s.galley := (rfl)
@[simp] theorem State.onHost_sluice (f : Headgate → Headgate) : (s.onHost f).sluice = s.sluice := (rfl)
@[simp] theorem State.onHost_nv (f : Headgate → Headgate) : (s.onHost f).nv = s.nv := (rfl)
@[simp] theorem State.onHost_board (f : Headgate → Headgate) : (s.onHost f).board = s.board := (rfl)
@[simp] theorem State.onHost_host (f : Headgate → Headgate) : (s.onHost f).host = f s.host := (rfl)
@[simp] theorem State.onHost_word (f : Headgate → Headgate) (x : Nat) : (s.onHost f).word x = s.word x := (rfl)
@[simp] theorem State.onHost_fld (f : Headgate → Headgate) (x : Fld) : (s.onHost f).fld x = s.fld x := (rfl)
@[simp] theorem State.onHost_flag (f : Headgate → Headgate) (x : Fld) : (s.onHost f).flag x = s.flag x := (rfl)
@[simp] theorem State.onHost_dom (f : Headgate → Headgate) (d : Fin 24) : (s.onHost f).dom d = s.dom d := (rfl)

/-! ### State.onStore -/

@[simp] theorem State.onStore_pending (f : Store → Store) : (s.onStore f).pending = s.pending := (rfl)
@[simp] theorem State.onStore_regs (f : Store → Store) : (s.onStore f).regs = s.regs := (rfl)
@[simp] theorem State.onStore_edgeRegs (f : Store → Store) : (s.onStore f).edgeRegs = s.edgeRegs := (rfl)
@[simp] theorem State.onStore_turn (f : Store → Store) : (s.onStore f).turn = s.turn := (rfl)
@[simp] theorem State.onStore_free (f : Store → Store) : (s.onStore f).free = s.free := (rfl)
@[simp] theorem State.onStore_answer (f : Store → Store) : (s.onStore f).answer = s.answer := (rfl)
@[simp] theorem State.onStore_memory (f : Store → Store) : (s.onStore f).memory = s.memory := (rfl)
@[simp] theorem State.onStore_power (f : Store → Store) : (s.onStore f).power = s.power := (rfl)
@[simp] theorem State.onStore_pins (f : Store → Store) : (s.onStore f).pins = s.pins := (rfl)
@[simp] theorem State.onStore_mgmt (f : Store → Store) : (s.onStore f).mgmt = s.mgmt := (rfl)
@[simp] theorem State.onStore_collector (f : Store → Store) : (s.onStore f).collector = s.collector := (rfl)
@[simp] theorem State.onStore_host (f : Store → Store) : (s.onStore f).host = s.host := (rfl)
@[simp] theorem State.onStore_dma (f : Store → Store) : (s.onStore f).dma = s.dma := (rfl)
@[simp] theorem State.onStore_cistern (f : Store → Store) : (s.onStore f).cistern = s.cistern := (rfl)
@[simp] theorem State.onStore_flash (f : Store → Store) : (s.onStore f).flash = s.flash := (rfl)
@[simp] theorem State.onStore_galley (f : Store → Store) : (s.onStore f).galley = s.galley := (rfl)
@[simp] theorem State.onStore_sluice (f : Store → Store) : (s.onStore f).sluice = s.sluice := (rfl)
@[simp] theorem State.onStore_nv (f : Store → Store) : (s.onStore f).nv = s.nv := (rfl)
@[simp] theorem State.onStore_board (f : Store → Store) : (s.onStore f).board = s.board := (rfl)
@[simp] theorem State.onStore_store (f : Store → Store) : (s.onStore f).store = f s.store := (rfl)
@[simp] theorem State.onStore_word (f : Store → Store) (x : Nat) : (s.onStore f).word x = s.word x := (rfl)
@[simp] theorem State.onStore_fld (f : Store → Store) (x : Fld) : (s.onStore f).fld x = s.fld x := (rfl)
@[simp] theorem State.onStore_flag (f : Store → Store) (x : Fld) : (s.onStore f).flag x = s.flag x := (rfl)
@[simp] theorem State.onStore_dom (f : Store → Store) (d : Fin 24) : (s.onStore f).dom d = s.dom d := (rfl)
@[simp] theorem State.onStore_ctl (f : Store → Store) (x : Fin 2) : (s.onStore f).ctl x = s.ctl x := (rfl)

/-! ### State.onCistern -/

@[simp] theorem State.onCistern_pending (f : Cistern → Cistern) : (s.onCistern f).pending = s.pending := (rfl)
@[simp] theorem State.onCistern_regs (f : Cistern → Cistern) : (s.onCistern f).regs = s.regs := (rfl)
@[simp] theorem State.onCistern_edgeRegs (f : Cistern → Cistern) : (s.onCistern f).edgeRegs = s.edgeRegs := (rfl)
@[simp] theorem State.onCistern_turn (f : Cistern → Cistern) : (s.onCistern f).turn = s.turn := (rfl)
@[simp] theorem State.onCistern_free (f : Cistern → Cistern) : (s.onCistern f).free = s.free := (rfl)
@[simp] theorem State.onCistern_answer (f : Cistern → Cistern) : (s.onCistern f).answer = s.answer := (rfl)
@[simp] theorem State.onCistern_memory (f : Cistern → Cistern) : (s.onCistern f).memory = s.memory := (rfl)
@[simp] theorem State.onCistern_power (f : Cistern → Cistern) : (s.onCistern f).power = s.power := (rfl)
@[simp] theorem State.onCistern_pins (f : Cistern → Cistern) : (s.onCistern f).pins = s.pins := (rfl)
@[simp] theorem State.onCistern_mgmt (f : Cistern → Cistern) : (s.onCistern f).mgmt = s.mgmt := (rfl)
@[simp] theorem State.onCistern_collector (f : Cistern → Cistern) : (s.onCistern f).collector = s.collector := (rfl)
@[simp] theorem State.onCistern_host (f : Cistern → Cistern) : (s.onCistern f).host = s.host := (rfl)
@[simp] theorem State.onCistern_dma (f : Cistern → Cistern) : (s.onCistern f).dma = s.dma := (rfl)
@[simp] theorem State.onCistern_store (f : Cistern → Cistern) : (s.onCistern f).store = s.store := (rfl)
@[simp] theorem State.onCistern_flash (f : Cistern → Cistern) : (s.onCistern f).flash = s.flash := (rfl)
@[simp] theorem State.onCistern_galley (f : Cistern → Cistern) : (s.onCistern f).galley = s.galley := (rfl)
@[simp] theorem State.onCistern_sluice (f : Cistern → Cistern) : (s.onCistern f).sluice = s.sluice := (rfl)
@[simp] theorem State.onCistern_nv (f : Cistern → Cistern) : (s.onCistern f).nv = s.nv := (rfl)
@[simp] theorem State.onCistern_board (f : Cistern → Cistern) : (s.onCistern f).board = s.board := (rfl)
@[simp] theorem State.onCistern_cistern (f : Cistern → Cistern) : (s.onCistern f).cistern = f s.cistern := (rfl)
@[simp] theorem State.onCistern_word (f : Cistern → Cistern) (x : Nat) : (s.onCistern f).word x = s.word x := (rfl)
@[simp] theorem State.onCistern_fld (f : Cistern → Cistern) (x : Fld) : (s.onCistern f).fld x = s.fld x := (rfl)
@[simp] theorem State.onCistern_flag (f : Cistern → Cistern) (x : Fld) : (s.onCistern f).flag x = s.flag x := (rfl)
@[simp] theorem State.onCistern_dom (f : Cistern → Cistern) (d : Fin 24) : (s.onCistern f).dom d = s.dom d := (rfl)
@[simp] theorem State.onCistern_ctl (f : Cistern → Cistern) (x : Fin 2) : (s.onCistern f).ctl x = s.ctl x := (rfl)

/-! ### State.onGalley -/

@[simp] theorem State.onGalley_pending (f : Galley → Galley) : (s.onGalley f).pending = s.pending := (rfl)
@[simp] theorem State.onGalley_regs (f : Galley → Galley) : (s.onGalley f).regs = s.regs := (rfl)
@[simp] theorem State.onGalley_edgeRegs (f : Galley → Galley) : (s.onGalley f).edgeRegs = s.edgeRegs := (rfl)
@[simp] theorem State.onGalley_turn (f : Galley → Galley) : (s.onGalley f).turn = s.turn := (rfl)
@[simp] theorem State.onGalley_free (f : Galley → Galley) : (s.onGalley f).free = s.free := (rfl)
@[simp] theorem State.onGalley_answer (f : Galley → Galley) : (s.onGalley f).answer = s.answer := (rfl)
@[simp] theorem State.onGalley_memory (f : Galley → Galley) : (s.onGalley f).memory = s.memory := (rfl)
@[simp] theorem State.onGalley_power (f : Galley → Galley) : (s.onGalley f).power = s.power := (rfl)
@[simp] theorem State.onGalley_pins (f : Galley → Galley) : (s.onGalley f).pins = s.pins := (rfl)
@[simp] theorem State.onGalley_mgmt (f : Galley → Galley) : (s.onGalley f).mgmt = s.mgmt := (rfl)
@[simp] theorem State.onGalley_collector (f : Galley → Galley) : (s.onGalley f).collector = s.collector := (rfl)
@[simp] theorem State.onGalley_host (f : Galley → Galley) : (s.onGalley f).host = s.host := (rfl)
@[simp] theorem State.onGalley_dma (f : Galley → Galley) : (s.onGalley f).dma = s.dma := (rfl)
@[simp] theorem State.onGalley_store (f : Galley → Galley) : (s.onGalley f).store = s.store := (rfl)
@[simp] theorem State.onGalley_cistern (f : Galley → Galley) : (s.onGalley f).cistern = s.cistern := (rfl)
@[simp] theorem State.onGalley_flash (f : Galley → Galley) : (s.onGalley f).flash = s.flash := (rfl)
@[simp] theorem State.onGalley_sluice (f : Galley → Galley) : (s.onGalley f).sluice = s.sluice := (rfl)
@[simp] theorem State.onGalley_nv (f : Galley → Galley) : (s.onGalley f).nv = s.nv := (rfl)
@[simp] theorem State.onGalley_board (f : Galley → Galley) : (s.onGalley f).board = s.board := (rfl)
@[simp] theorem State.onGalley_galley (f : Galley → Galley) : (s.onGalley f).galley = f s.galley := (rfl)
@[simp] theorem State.onGalley_word (f : Galley → Galley) (x : Nat) : (s.onGalley f).word x = s.word x := (rfl)
@[simp] theorem State.onGalley_fld (f : Galley → Galley) (x : Fld) : (s.onGalley f).fld x = s.fld x := (rfl)
@[simp] theorem State.onGalley_flag (f : Galley → Galley) (x : Fld) : (s.onGalley f).flag x = s.flag x := (rfl)
@[simp] theorem State.onGalley_dom (f : Galley → Galley) (d : Fin 24) : (s.onGalley f).dom d = s.dom d := (rfl)
@[simp] theorem State.onGalley_ctl (f : Galley → Galley) (x : Fin 2) : (s.onGalley f).ctl x = s.ctl x := (rfl)

/-! ### State.onFlash -/

@[simp] theorem State.onFlash_pending (f : Flash → Flash) : (s.onFlash f).pending = s.pending := (rfl)
@[simp] theorem State.onFlash_regs (f : Flash → Flash) : (s.onFlash f).regs = s.regs := (rfl)
@[simp] theorem State.onFlash_edgeRegs (f : Flash → Flash) : (s.onFlash f).edgeRegs = s.edgeRegs := (rfl)
@[simp] theorem State.onFlash_turn (f : Flash → Flash) : (s.onFlash f).turn = s.turn := (rfl)
@[simp] theorem State.onFlash_free (f : Flash → Flash) : (s.onFlash f).free = s.free := (rfl)
@[simp] theorem State.onFlash_answer (f : Flash → Flash) : (s.onFlash f).answer = s.answer := (rfl)
@[simp] theorem State.onFlash_memory (f : Flash → Flash) : (s.onFlash f).memory = s.memory := (rfl)
@[simp] theorem State.onFlash_power (f : Flash → Flash) : (s.onFlash f).power = s.power := (rfl)
@[simp] theorem State.onFlash_pins (f : Flash → Flash) : (s.onFlash f).pins = s.pins := (rfl)
@[simp] theorem State.onFlash_mgmt (f : Flash → Flash) : (s.onFlash f).mgmt = s.mgmt := (rfl)
@[simp] theorem State.onFlash_collector (f : Flash → Flash) : (s.onFlash f).collector = s.collector := (rfl)
@[simp] theorem State.onFlash_host (f : Flash → Flash) : (s.onFlash f).host = s.host := (rfl)
@[simp] theorem State.onFlash_dma (f : Flash → Flash) : (s.onFlash f).dma = s.dma := (rfl)
@[simp] theorem State.onFlash_store (f : Flash → Flash) : (s.onFlash f).store = s.store := (rfl)
@[simp] theorem State.onFlash_cistern (f : Flash → Flash) : (s.onFlash f).cistern = s.cistern := (rfl)
@[simp] theorem State.onFlash_galley (f : Flash → Flash) : (s.onFlash f).galley = s.galley := (rfl)
@[simp] theorem State.onFlash_sluice (f : Flash → Flash) : (s.onFlash f).sluice = s.sluice := (rfl)
@[simp] theorem State.onFlash_nv (f : Flash → Flash) : (s.onFlash f).nv = s.nv := (rfl)
@[simp] theorem State.onFlash_board (f : Flash → Flash) : (s.onFlash f).board = s.board := (rfl)
@[simp] theorem State.onFlash_flash (f : Flash → Flash) : (s.onFlash f).flash = f s.flash := (rfl)
@[simp] theorem State.onFlash_word (f : Flash → Flash) (x : Nat) : (s.onFlash f).word x = s.word x := (rfl)
@[simp] theorem State.onFlash_fld (f : Flash → Flash) (x : Fld) : (s.onFlash f).fld x = s.fld x := (rfl)
@[simp] theorem State.onFlash_flag (f : Flash → Flash) (x : Fld) : (s.onFlash f).flag x = s.flag x := (rfl)
@[simp] theorem State.onFlash_dom (f : Flash → Flash) (d : Fin 24) : (s.onFlash f).dom d = s.dom d := (rfl)
@[simp] theorem State.onFlash_ctl (f : Flash → Flash) (x : Fin 2) : (s.onFlash f).ctl x = s.ctl x := (rfl)

/-! ### State.onSluice -/

@[simp] theorem State.onSluice_pending (f : Sluice → Sluice) : (s.onSluice f).pending = s.pending := (rfl)
@[simp] theorem State.onSluice_regs (f : Sluice → Sluice) : (s.onSluice f).regs = s.regs := (rfl)
@[simp] theorem State.onSluice_edgeRegs (f : Sluice → Sluice) : (s.onSluice f).edgeRegs = s.edgeRegs := (rfl)
@[simp] theorem State.onSluice_turn (f : Sluice → Sluice) : (s.onSluice f).turn = s.turn := (rfl)
@[simp] theorem State.onSluice_free (f : Sluice → Sluice) : (s.onSluice f).free = s.free := (rfl)
@[simp] theorem State.onSluice_answer (f : Sluice → Sluice) : (s.onSluice f).answer = s.answer := (rfl)
@[simp] theorem State.onSluice_memory (f : Sluice → Sluice) : (s.onSluice f).memory = s.memory := (rfl)
@[simp] theorem State.onSluice_power (f : Sluice → Sluice) : (s.onSluice f).power = s.power := (rfl)
@[simp] theorem State.onSluice_pins (f : Sluice → Sluice) : (s.onSluice f).pins = s.pins := (rfl)
@[simp] theorem State.onSluice_mgmt (f : Sluice → Sluice) : (s.onSluice f).mgmt = s.mgmt := (rfl)
@[simp] theorem State.onSluice_collector (f : Sluice → Sluice) : (s.onSluice f).collector = s.collector := (rfl)
@[simp] theorem State.onSluice_host (f : Sluice → Sluice) : (s.onSluice f).host = s.host := (rfl)
@[simp] theorem State.onSluice_dma (f : Sluice → Sluice) : (s.onSluice f).dma = s.dma := (rfl)
@[simp] theorem State.onSluice_store (f : Sluice → Sluice) : (s.onSluice f).store = s.store := (rfl)
@[simp] theorem State.onSluice_cistern (f : Sluice → Sluice) : (s.onSluice f).cistern = s.cistern := (rfl)
@[simp] theorem State.onSluice_flash (f : Sluice → Sluice) : (s.onSluice f).flash = s.flash := (rfl)
@[simp] theorem State.onSluice_galley (f : Sluice → Sluice) : (s.onSluice f).galley = s.galley := (rfl)
@[simp] theorem State.onSluice_nv (f : Sluice → Sluice) : (s.onSluice f).nv = s.nv := (rfl)
@[simp] theorem State.onSluice_board (f : Sluice → Sluice) : (s.onSluice f).board = s.board := (rfl)
@[simp] theorem State.onSluice_sluice (f : Sluice → Sluice) : (s.onSluice f).sluice = f s.sluice := (rfl)
@[simp] theorem State.onSluice_word (f : Sluice → Sluice) (x : Nat) : (s.onSluice f).word x = s.word x := (rfl)
@[simp] theorem State.onSluice_fld (f : Sluice → Sluice) (x : Fld) : (s.onSluice f).fld x = s.fld x := (rfl)
@[simp] theorem State.onSluice_flag (f : Sluice → Sluice) (x : Fld) : (s.onSluice f).flag x = s.flag x := (rfl)
@[simp] theorem State.onSluice_dom (f : Sluice → Sluice) (d : Fin 24) : (s.onSluice f).dom d = s.dom d := (rfl)
@[simp] theorem State.onSluice_ctl (f : Sluice → Sluice) (x : Fin 2) : (s.onSluice f).ctl x = s.ctl x := (rfl)

/-! ### State.onNv -/

@[simp] theorem State.onNv_pending (f : NonVol → NonVol) : (s.onNv f).pending = s.pending := (rfl)
@[simp] theorem State.onNv_regs (f : NonVol → NonVol) : (s.onNv f).regs = s.regs := (rfl)
@[simp] theorem State.onNv_edgeRegs (f : NonVol → NonVol) : (s.onNv f).edgeRegs = s.edgeRegs := (rfl)
@[simp] theorem State.onNv_turn (f : NonVol → NonVol) : (s.onNv f).turn = s.turn := (rfl)
@[simp] theorem State.onNv_free (f : NonVol → NonVol) : (s.onNv f).free = s.free := (rfl)
@[simp] theorem State.onNv_answer (f : NonVol → NonVol) : (s.onNv f).answer = s.answer := (rfl)
@[simp] theorem State.onNv_memory (f : NonVol → NonVol) : (s.onNv f).memory = s.memory := (rfl)
@[simp] theorem State.onNv_power (f : NonVol → NonVol) : (s.onNv f).power = s.power := (rfl)
@[simp] theorem State.onNv_pins (f : NonVol → NonVol) : (s.onNv f).pins = s.pins := (rfl)
@[simp] theorem State.onNv_mgmt (f : NonVol → NonVol) : (s.onNv f).mgmt = s.mgmt := (rfl)
@[simp] theorem State.onNv_collector (f : NonVol → NonVol) : (s.onNv f).collector = s.collector := (rfl)
@[simp] theorem State.onNv_host (f : NonVol → NonVol) : (s.onNv f).host = s.host := (rfl)
@[simp] theorem State.onNv_dma (f : NonVol → NonVol) : (s.onNv f).dma = s.dma := (rfl)
@[simp] theorem State.onNv_store (f : NonVol → NonVol) : (s.onNv f).store = s.store := (rfl)
@[simp] theorem State.onNv_cistern (f : NonVol → NonVol) : (s.onNv f).cistern = s.cistern := (rfl)
@[simp] theorem State.onNv_flash (f : NonVol → NonVol) : (s.onNv f).flash = s.flash := (rfl)
@[simp] theorem State.onNv_galley (f : NonVol → NonVol) : (s.onNv f).galley = s.galley := (rfl)
@[simp] theorem State.onNv_sluice (f : NonVol → NonVol) : (s.onNv f).sluice = s.sluice := (rfl)
@[simp] theorem State.onNv_board (f : NonVol → NonVol) : (s.onNv f).board = s.board := (rfl)
@[simp] theorem State.onNv_nv (f : NonVol → NonVol) : (s.onNv f).nv = f s.nv := (rfl)
@[simp] theorem State.onNv_word (f : NonVol → NonVol) (x : Nat) : (s.onNv f).word x = s.word x := (rfl)
@[simp] theorem State.onNv_fld (f : NonVol → NonVol) (x : Fld) : (s.onNv f).fld x = s.fld x := (rfl)
@[simp] theorem State.onNv_flag (f : NonVol → NonVol) (x : Fld) : (s.onNv f).flag x = s.flag x := (rfl)
@[simp] theorem State.onNv_dom (f : NonVol → NonVol) (d : Fin 24) : (s.onNv f).dom d = s.dom d := (rfl)
@[simp] theorem State.onNv_ctl (f : NonVol → NonVol) (x : Fin 2) : (s.onNv f).ctl x = s.ctl x := (rfl)

/-! ### State.onCtl -/

@[simp] theorem State.onCtl_pending (c : Fin 2) (f : Controller → Controller) : (s.onCtl c f).pending = s.pending := (rfl)
@[simp] theorem State.onCtl_regs (c : Fin 2) (f : Controller → Controller) : (s.onCtl c f).regs = s.regs := (rfl)
@[simp] theorem State.onCtl_edgeRegs (c : Fin 2) (f : Controller → Controller) : (s.onCtl c f).edgeRegs = s.edgeRegs := (rfl)
@[simp] theorem State.onCtl_turn (c : Fin 2) (f : Controller → Controller) : (s.onCtl c f).turn = s.turn := (rfl)
@[simp] theorem State.onCtl_free (c : Fin 2) (f : Controller → Controller) : (s.onCtl c f).free = s.free := (rfl)
@[simp] theorem State.onCtl_answer (c : Fin 2) (f : Controller → Controller) : (s.onCtl c f).answer = s.answer := (rfl)
@[simp] theorem State.onCtl_memory (c : Fin 2) (f : Controller → Controller) : (s.onCtl c f).memory = s.memory := (rfl)
@[simp] theorem State.onCtl_power (c : Fin 2) (f : Controller → Controller) : (s.onCtl c f).power = s.power := (rfl)
@[simp] theorem State.onCtl_pins (c : Fin 2) (f : Controller → Controller) : (s.onCtl c f).pins = s.pins := (rfl)
@[simp] theorem State.onCtl_mgmt (c : Fin 2) (f : Controller → Controller) : (s.onCtl c f).mgmt = s.mgmt := (rfl)
@[simp] theorem State.onCtl_collector (c : Fin 2) (f : Controller → Controller) : (s.onCtl c f).collector = s.collector := (rfl)
@[simp] theorem State.onCtl_dma (c : Fin 2) (f : Controller → Controller) : (s.onCtl c f).dma = s.dma := (rfl)
@[simp] theorem State.onCtl_store (c : Fin 2) (f : Controller → Controller) : (s.onCtl c f).store = s.store := (rfl)
@[simp] theorem State.onCtl_cistern (c : Fin 2) (f : Controller → Controller) : (s.onCtl c f).cistern = s.cistern := (rfl)
@[simp] theorem State.onCtl_flash (c : Fin 2) (f : Controller → Controller) : (s.onCtl c f).flash = s.flash := (rfl)
@[simp] theorem State.onCtl_galley (c : Fin 2) (f : Controller → Controller) : (s.onCtl c f).galley = s.galley := (rfl)
@[simp] theorem State.onCtl_sluice (c : Fin 2) (f : Controller → Controller) : (s.onCtl c f).sluice = s.sluice := (rfl)
@[simp] theorem State.onCtl_nv (c : Fin 2) (f : Controller → Controller) : (s.onCtl c f).nv = s.nv := (rfl)
@[simp] theorem State.onCtl_board (c : Fin 2) (f : Controller → Controller) : (s.onCtl c f).board = s.board := (rfl)
@[simp] theorem State.onCtl_word (c : Fin 2) (f : Controller → Controller) (x : Nat) : (s.onCtl c f).word x = s.word x := (rfl)
@[simp] theorem State.onCtl_fld (c : Fin 2) (f : Controller → Controller) (x : Fld) : (s.onCtl c f).fld x = s.fld x := (rfl)
@[simp] theorem State.onCtl_flag (c : Fin 2) (f : Controller → Controller) (x : Fld) : (s.onCtl c f).flag x = s.flag x := (rfl)
@[simp] theorem State.onCtl_dom (c : Fin 2) (f : Controller → Controller) (d : Fin 24) : (s.onCtl c f).dom d = s.dom d := (rfl)

/-! ### State.onDma -/

@[simp] theorem State.onDma_pending (c : Fin 32) (f : DmaChan → DmaChan) : (s.onDma c f).pending = s.pending := (rfl)
@[simp] theorem State.onDma_regs (c : Fin 32) (f : DmaChan → DmaChan) : (s.onDma c f).regs = s.regs := (rfl)
@[simp] theorem State.onDma_edgeRegs (c : Fin 32) (f : DmaChan → DmaChan) : (s.onDma c f).edgeRegs = s.edgeRegs := (rfl)
@[simp] theorem State.onDma_turn (c : Fin 32) (f : DmaChan → DmaChan) : (s.onDma c f).turn = s.turn := (rfl)
@[simp] theorem State.onDma_free (c : Fin 32) (f : DmaChan → DmaChan) : (s.onDma c f).free = s.free := (rfl)
@[simp] theorem State.onDma_answer (c : Fin 32) (f : DmaChan → DmaChan) : (s.onDma c f).answer = s.answer := (rfl)
@[simp] theorem State.onDma_memory (c : Fin 32) (f : DmaChan → DmaChan) : (s.onDma c f).memory = s.memory := (rfl)
@[simp] theorem State.onDma_power (c : Fin 32) (f : DmaChan → DmaChan) : (s.onDma c f).power = s.power := (rfl)
@[simp] theorem State.onDma_pins (c : Fin 32) (f : DmaChan → DmaChan) : (s.onDma c f).pins = s.pins := (rfl)
@[simp] theorem State.onDma_mgmt (c : Fin 32) (f : DmaChan → DmaChan) : (s.onDma c f).mgmt = s.mgmt := (rfl)
@[simp] theorem State.onDma_collector (c : Fin 32) (f : DmaChan → DmaChan) : (s.onDma c f).collector = s.collector := (rfl)
@[simp] theorem State.onDma_host (c : Fin 32) (f : DmaChan → DmaChan) : (s.onDma c f).host = s.host := (rfl)
@[simp] theorem State.onDma_store (c : Fin 32) (f : DmaChan → DmaChan) : (s.onDma c f).store = s.store := (rfl)
@[simp] theorem State.onDma_cistern (c : Fin 32) (f : DmaChan → DmaChan) : (s.onDma c f).cistern = s.cistern := (rfl)
@[simp] theorem State.onDma_flash (c : Fin 32) (f : DmaChan → DmaChan) : (s.onDma c f).flash = s.flash := (rfl)
@[simp] theorem State.onDma_galley (c : Fin 32) (f : DmaChan → DmaChan) : (s.onDma c f).galley = s.galley := (rfl)
@[simp] theorem State.onDma_sluice (c : Fin 32) (f : DmaChan → DmaChan) : (s.onDma c f).sluice = s.sluice := (rfl)
@[simp] theorem State.onDma_nv (c : Fin 32) (f : DmaChan → DmaChan) : (s.onDma c f).nv = s.nv := (rfl)
@[simp] theorem State.onDma_board (c : Fin 32) (f : DmaChan → DmaChan) : (s.onDma c f).board = s.board := (rfl)
@[simp] theorem State.onDma_word (c : Fin 32) (f : DmaChan → DmaChan) (x : Nat) : (s.onDma c f).word x = s.word x := (rfl)
@[simp] theorem State.onDma_fld (c : Fin 32) (f : DmaChan → DmaChan) (x : Fld) : (s.onDma c f).fld x = s.fld x := (rfl)
@[simp] theorem State.onDma_flag (c : Fin 32) (f : DmaChan → DmaChan) (x : Fld) : (s.onDma c f).flag x = s.flag x := (rfl)
@[simp] theorem State.onDma_dom (c : Fin 32) (f : DmaChan → DmaChan) (d : Fin 24) : (s.onDma c f).dom d = s.dom d := (rfl)
@[simp] theorem State.onDma_ctl (c : Fin 32) (f : DmaChan → DmaChan) (x : Fin 2) : (s.onDma c f).ctl x = s.ctl x := (rfl)

/-! ### State.onBank -/

@[simp] theorem State.onBank_pending (b : Fin 2) (f : StoreBank → StoreBank) : (s.onBank b f).pending = s.pending := (rfl)
@[simp] theorem State.onBank_regs (b : Fin 2) (f : StoreBank → StoreBank) : (s.onBank b f).regs = s.regs := (rfl)
@[simp] theorem State.onBank_edgeRegs (b : Fin 2) (f : StoreBank → StoreBank) : (s.onBank b f).edgeRegs = s.edgeRegs := (rfl)
@[simp] theorem State.onBank_turn (b : Fin 2) (f : StoreBank → StoreBank) : (s.onBank b f).turn = s.turn := (rfl)
@[simp] theorem State.onBank_free (b : Fin 2) (f : StoreBank → StoreBank) : (s.onBank b f).free = s.free := (rfl)
@[simp] theorem State.onBank_answer (b : Fin 2) (f : StoreBank → StoreBank) : (s.onBank b f).answer = s.answer := (rfl)
@[simp] theorem State.onBank_memory (b : Fin 2) (f : StoreBank → StoreBank) : (s.onBank b f).memory = s.memory := (rfl)
@[simp] theorem State.onBank_power (b : Fin 2) (f : StoreBank → StoreBank) : (s.onBank b f).power = s.power := (rfl)
@[simp] theorem State.onBank_pins (b : Fin 2) (f : StoreBank → StoreBank) : (s.onBank b f).pins = s.pins := (rfl)
@[simp] theorem State.onBank_mgmt (b : Fin 2) (f : StoreBank → StoreBank) : (s.onBank b f).mgmt = s.mgmt := (rfl)
@[simp] theorem State.onBank_collector (b : Fin 2) (f : StoreBank → StoreBank) : (s.onBank b f).collector = s.collector := (rfl)
@[simp] theorem State.onBank_host (b : Fin 2) (f : StoreBank → StoreBank) : (s.onBank b f).host = s.host := (rfl)
@[simp] theorem State.onBank_dma (b : Fin 2) (f : StoreBank → StoreBank) : (s.onBank b f).dma = s.dma := (rfl)
@[simp] theorem State.onBank_cistern (b : Fin 2) (f : StoreBank → StoreBank) : (s.onBank b f).cistern = s.cistern := (rfl)
@[simp] theorem State.onBank_flash (b : Fin 2) (f : StoreBank → StoreBank) : (s.onBank b f).flash = s.flash := (rfl)
@[simp] theorem State.onBank_galley (b : Fin 2) (f : StoreBank → StoreBank) : (s.onBank b f).galley = s.galley := (rfl)
@[simp] theorem State.onBank_sluice (b : Fin 2) (f : StoreBank → StoreBank) : (s.onBank b f).sluice = s.sluice := (rfl)
@[simp] theorem State.onBank_nv (b : Fin 2) (f : StoreBank → StoreBank) : (s.onBank b f).nv = s.nv := (rfl)
@[simp] theorem State.onBank_board (b : Fin 2) (f : StoreBank → StoreBank) : (s.onBank b f).board = s.board := (rfl)
@[simp] theorem State.onBank_word (b : Fin 2) (f : StoreBank → StoreBank) (x : Nat) : (s.onBank b f).word x = s.word x := (rfl)
@[simp] theorem State.onBank_fld (b : Fin 2) (f : StoreBank → StoreBank) (x : Fld) : (s.onBank b f).fld x = s.fld x := (rfl)
@[simp] theorem State.onBank_flag (b : Fin 2) (f : StoreBank → StoreBank) (x : Fld) : (s.onBank b f).flag x = s.flag x := (rfl)
@[simp] theorem State.onBank_dom (b : Fin 2) (f : StoreBank → StoreBank) (d : Fin 24) : (s.onBank b f).dom d = s.dom d := (rfl)
@[simp] theorem State.onBank_ctl (b : Fin 2) (f : StoreBank → StoreBank) (x : Fin 2) : (s.onBank b f).ctl x = s.ctl x := (rfl)

/-! ### State.onDom -/

@[simp] theorem State.onDom_pending (n : Fin 24) (f : Domain → Domain) : (s.onDom n f).pending = s.pending := (rfl)
@[simp] theorem State.onDom_regs (n : Fin 24) (f : Domain → Domain) : (s.onDom n f).regs = s.regs := (rfl)
@[simp] theorem State.onDom_edgeRegs (n : Fin 24) (f : Domain → Domain) : (s.onDom n f).edgeRegs = s.edgeRegs := (rfl)
@[simp] theorem State.onDom_turn (n : Fin 24) (f : Domain → Domain) : (s.onDom n f).turn = s.turn := (rfl)
@[simp] theorem State.onDom_free (n : Fin 24) (f : Domain → Domain) : (s.onDom n f).free = s.free := (rfl)
@[simp] theorem State.onDom_answer (n : Fin 24) (f : Domain → Domain) : (s.onDom n f).answer = s.answer := (rfl)
@[simp] theorem State.onDom_memory (n : Fin 24) (f : Domain → Domain) : (s.onDom n f).memory = s.memory := (rfl)
@[simp] theorem State.onDom_pins (n : Fin 24) (f : Domain → Domain) : (s.onDom n f).pins = s.pins := (rfl)
@[simp] theorem State.onDom_mgmt (n : Fin 24) (f : Domain → Domain) : (s.onDom n f).mgmt = s.mgmt := (rfl)
@[simp] theorem State.onDom_collector (n : Fin 24) (f : Domain → Domain) : (s.onDom n f).collector = s.collector := (rfl)
@[simp] theorem State.onDom_host (n : Fin 24) (f : Domain → Domain) : (s.onDom n f).host = s.host := (rfl)
@[simp] theorem State.onDom_dma (n : Fin 24) (f : Domain → Domain) : (s.onDom n f).dma = s.dma := (rfl)
@[simp] theorem State.onDom_store (n : Fin 24) (f : Domain → Domain) : (s.onDom n f).store = s.store := (rfl)
@[simp] theorem State.onDom_cistern (n : Fin 24) (f : Domain → Domain) : (s.onDom n f).cistern = s.cistern := (rfl)
@[simp] theorem State.onDom_flash (n : Fin 24) (f : Domain → Domain) : (s.onDom n f).flash = s.flash := (rfl)
@[simp] theorem State.onDom_galley (n : Fin 24) (f : Domain → Domain) : (s.onDom n f).galley = s.galley := (rfl)
@[simp] theorem State.onDom_sluice (n : Fin 24) (f : Domain → Domain) : (s.onDom n f).sluice = s.sluice := (rfl)
@[simp] theorem State.onDom_nv (n : Fin 24) (f : Domain → Domain) : (s.onDom n f).nv = s.nv := (rfl)
@[simp] theorem State.onDom_board (n : Fin 24) (f : Domain → Domain) : (s.onDom n f).board = s.board := (rfl)
@[simp] theorem State.onDom_word (n : Fin 24) (f : Domain → Domain) (x : Nat) : (s.onDom n f).word x = s.word x := (rfl)
@[simp] theorem State.onDom_fld (n : Fin 24) (f : Domain → Domain) (x : Fld) : (s.onDom n f).fld x = s.fld x := (rfl)
@[simp] theorem State.onDom_flag (n : Fin 24) (f : Domain → Domain) (x : Fld) : (s.onDom n f).flag x = s.flag x := (rfl)
@[simp] theorem State.onDom_ctl (n : Fin 24) (f : Domain → Domain) (x : Fin 2) : (s.onDom n f).ctl x = s.ctl x := (rfl)

/-! ### State.tookFree -/

@[simp] theorem State.tookFree_pending : (s.tookFree).pending = s.pending := (rfl)
@[simp] theorem State.tookFree_regs : (s.tookFree).regs = s.regs := (rfl)
@[simp] theorem State.tookFree_edgeRegs : (s.tookFree).edgeRegs = s.edgeRegs := (rfl)
@[simp] theorem State.tookFree_turn : (s.tookFree).turn = s.turn := (rfl)
@[simp] theorem State.tookFree_answer : (s.tookFree).answer = s.answer := (rfl)
@[simp] theorem State.tookFree_memory : (s.tookFree).memory = s.memory := (rfl)
@[simp] theorem State.tookFree_power : (s.tookFree).power = s.power := (rfl)
@[simp] theorem State.tookFree_pins : (s.tookFree).pins = s.pins := (rfl)
@[simp] theorem State.tookFree_mgmt : (s.tookFree).mgmt = s.mgmt := (rfl)
@[simp] theorem State.tookFree_collector : (s.tookFree).collector = s.collector := (rfl)
@[simp] theorem State.tookFree_host : (s.tookFree).host = s.host := (rfl)
@[simp] theorem State.tookFree_dma : (s.tookFree).dma = s.dma := (rfl)
@[simp] theorem State.tookFree_store : (s.tookFree).store = s.store := (rfl)
@[simp] theorem State.tookFree_cistern : (s.tookFree).cistern = s.cistern := (rfl)
@[simp] theorem State.tookFree_flash : (s.tookFree).flash = s.flash := (rfl)
@[simp] theorem State.tookFree_galley : (s.tookFree).galley = s.galley := (rfl)
@[simp] theorem State.tookFree_sluice : (s.tookFree).sluice = s.sluice := (rfl)
@[simp] theorem State.tookFree_nv : (s.tookFree).nv = s.nv := (rfl)
@[simp] theorem State.tookFree_board : (s.tookFree).board = s.board := (rfl)
@[simp] theorem State.tookFree_word (x : Nat) : (s.tookFree).word x = s.word x := (rfl)
@[simp] theorem State.tookFree_fld (x : Fld) : (s.tookFree).fld x = s.fld x := (rfl)
@[simp] theorem State.tookFree_flag (x : Fld) : (s.tookFree).flag x = s.flag x := (rfl)
@[simp] theorem State.tookFree_dom (d : Fin 24) : (s.tookFree).dom d = s.dom d := (rfl)
@[simp] theorem State.tookFree_ctl (x : Fin 2) : (s.tookFree).ctl x = s.ctl x := (rfl)

/-! ### State.log -/

@[simp] theorem State.log_pending (code source client param : Nat) : (s.log code source client param).pending = s.pending := (rfl)
@[simp] theorem State.log_regs (code source client param : Nat) : (s.log code source client param).regs = s.regs := (rfl)
@[simp] theorem State.log_edgeRegs (code source client param : Nat) : (s.log code source client param).edgeRegs = s.edgeRegs := (rfl)
@[simp] theorem State.log_turn (code source client param : Nat) : (s.log code source client param).turn = s.turn := (rfl)
@[simp] theorem State.log_free (code source client param : Nat) : (s.log code source client param).free = s.free := (rfl)
@[simp] theorem State.log_answer (code source client param : Nat) : (s.log code source client param).answer = s.answer := (rfl)
@[simp] theorem State.log_memory (code source client param : Nat) : (s.log code source client param).memory = s.memory := (rfl)
@[simp] theorem State.log_power (code source client param : Nat) : (s.log code source client param).power = s.power := (rfl)
@[simp] theorem State.log_pins (code source client param : Nat) : (s.log code source client param).pins = s.pins := (rfl)
@[simp] theorem State.log_collector (code source client param : Nat) : (s.log code source client param).collector = s.collector := (rfl)
@[simp] theorem State.log_host (code source client param : Nat) : (s.log code source client param).host = s.host := (rfl)
@[simp] theorem State.log_dma (code source client param : Nat) : (s.log code source client param).dma = s.dma := (rfl)
@[simp] theorem State.log_store (code source client param : Nat) : (s.log code source client param).store = s.store := (rfl)
@[simp] theorem State.log_cistern (code source client param : Nat) : (s.log code source client param).cistern = s.cistern := (rfl)
@[simp] theorem State.log_flash (code source client param : Nat) : (s.log code source client param).flash = s.flash := (rfl)
@[simp] theorem State.log_galley (code source client param : Nat) : (s.log code source client param).galley = s.galley := (rfl)
@[simp] theorem State.log_sluice (code source client param : Nat) : (s.log code source client param).sluice = s.sluice := (rfl)
@[simp] theorem State.log_nv (code source client param : Nat) : (s.log code source client param).nv = s.nv := (rfl)
@[simp] theorem State.log_board (code source client param : Nat) : (s.log code source client param).board = s.board := (rfl)
@[simp] theorem State.log_word (code source client param : Nat) (x : Nat) : (s.log code source client param).word x = s.word x := (rfl)
@[simp] theorem State.log_fld (code source client param : Nat) (x : Fld) : (s.log code source client param).fld x = s.fld x := (rfl)
@[simp] theorem State.log_flag (code source client param : Nat) (x : Fld) : (s.log code source client param).flag x = s.flag x := (rfl)
@[simp] theorem State.log_dom (code source client param : Nat) (d : Fin 24) : (s.log code source client param).dom d = s.dom d := (rfl)
@[simp] theorem State.log_ctl (code source client param : Nat) (x : Fin 2) : (s.log code source client param).ctl x = s.ctl x := (rfl)

/-! ### State.captureTele -/

@[simp] theorem State.captureTele_pending : (s.captureTele).pending = s.pending := (rfl)
@[simp] theorem State.captureTele_regs : (s.captureTele).regs = s.regs := (rfl)
@[simp] theorem State.captureTele_edgeRegs : (s.captureTele).edgeRegs = s.edgeRegs := (rfl)
@[simp] theorem State.captureTele_turn : (s.captureTele).turn = s.turn := (rfl)
@[simp] theorem State.captureTele_free : (s.captureTele).free = s.free := (rfl)
@[simp] theorem State.captureTele_answer : (s.captureTele).answer = s.answer := (rfl)
@[simp] theorem State.captureTele_memory : (s.captureTele).memory = s.memory := (rfl)
@[simp] theorem State.captureTele_power : (s.captureTele).power = s.power := (rfl)
@[simp] theorem State.captureTele_pins : (s.captureTele).pins = s.pins := (rfl)
@[simp] theorem State.captureTele_collector : (s.captureTele).collector = s.collector := (rfl)
@[simp] theorem State.captureTele_host : (s.captureTele).host = s.host := (rfl)
@[simp] theorem State.captureTele_dma : (s.captureTele).dma = s.dma := (rfl)
@[simp] theorem State.captureTele_store : (s.captureTele).store = s.store := (rfl)
@[simp] theorem State.captureTele_cistern : (s.captureTele).cistern = s.cistern := (rfl)
@[simp] theorem State.captureTele_flash : (s.captureTele).flash = s.flash := (rfl)
@[simp] theorem State.captureTele_galley : (s.captureTele).galley = s.galley := (rfl)
@[simp] theorem State.captureTele_sluice : (s.captureTele).sluice = s.sluice := (rfl)
@[simp] theorem State.captureTele_nv : (s.captureTele).nv = s.nv := (rfl)
@[simp] theorem State.captureTele_board : (s.captureTele).board = s.board := (rfl)
@[simp] theorem State.captureTele_word (x : Nat) : (s.captureTele).word x = s.word x := (rfl)
@[simp] theorem State.captureTele_fld (x : Fld) : (s.captureTele).fld x = s.fld x := (rfl)
@[simp] theorem State.captureTele_flag (x : Fld) : (s.captureTele).flag x = s.flag x := (rfl)
@[simp] theorem State.captureTele_dom (d : Fin 24) : (s.captureTele).dom d = s.dom d := (rfl)
@[simp] theorem State.captureTele_ctl (x : Fin 2) : (s.captureTele).ctl x = s.ctl x := (rfl)

/-! ### State.logWrite -/

@[simp] theorem State.logWrite_pending (client a : Nat) (v : Word) : (s.logWrite client a v).pending = s.pending := (rfl)
@[simp] theorem State.logWrite_regs (client a : Nat) (v : Word) : (s.logWrite client a v).regs = s.regs := (rfl)
@[simp] theorem State.logWrite_edgeRegs (client a : Nat) (v : Word) : (s.logWrite client a v).edgeRegs = s.edgeRegs := (rfl)
@[simp] theorem State.logWrite_turn (client a : Nat) (v : Word) : (s.logWrite client a v).turn = s.turn := (rfl)
@[simp] theorem State.logWrite_free (client a : Nat) (v : Word) : (s.logWrite client a v).free = s.free := (rfl)
@[simp] theorem State.logWrite_answer (client a : Nat) (v : Word) : (s.logWrite client a v).answer = s.answer := (rfl)
@[simp] theorem State.logWrite_memory (client a : Nat) (v : Word) : (s.logWrite client a v).memory = s.memory := (rfl)
@[simp] theorem State.logWrite_power (client a : Nat) (v : Word) : (s.logWrite client a v).power = s.power := (rfl)
@[simp] theorem State.logWrite_pins (client a : Nat) (v : Word) : (s.logWrite client a v).pins = s.pins := (rfl)
@[simp] theorem State.logWrite_collector (client a : Nat) (v : Word) : (s.logWrite client a v).collector = s.collector := (rfl)
@[simp] theorem State.logWrite_host (client a : Nat) (v : Word) : (s.logWrite client a v).host = s.host := (rfl)
@[simp] theorem State.logWrite_dma (client a : Nat) (v : Word) : (s.logWrite client a v).dma = s.dma := (rfl)
@[simp] theorem State.logWrite_store (client a : Nat) (v : Word) : (s.logWrite client a v).store = s.store := (rfl)
@[simp] theorem State.logWrite_cistern (client a : Nat) (v : Word) : (s.logWrite client a v).cistern = s.cistern := (rfl)
@[simp] theorem State.logWrite_flash (client a : Nat) (v : Word) : (s.logWrite client a v).flash = s.flash := (rfl)
@[simp] theorem State.logWrite_galley (client a : Nat) (v : Word) : (s.logWrite client a v).galley = s.galley := (rfl)
@[simp] theorem State.logWrite_sluice (client a : Nat) (v : Word) : (s.logWrite client a v).sluice = s.sluice := (rfl)
@[simp] theorem State.logWrite_nv (client a : Nat) (v : Word) : (s.logWrite client a v).nv = s.nv := (rfl)
@[simp] theorem State.logWrite_board (client a : Nat) (v : Word) : (s.logWrite client a v).board = s.board := (rfl)
@[simp] theorem State.logWrite_word (client a : Nat) (v : Word) (x : Nat) : (s.logWrite client a v).word x = s.word x := (rfl)
@[simp] theorem State.logWrite_fld (client a : Nat) (v : Word) (x : Fld) : (s.logWrite client a v).fld x = s.fld x := (rfl)
@[simp] theorem State.logWrite_flag (client a : Nat) (v : Word) (x : Fld) : (s.logWrite client a v).flag x = s.flag x := (rfl)
@[simp] theorem State.logWrite_dom (client a : Nat) (v : Word) (d : Fin 24) : (s.logWrite client a v).dom d = s.dom d := (rfl)
@[simp] theorem State.logWrite_ctl (client a : Nat) (v : Word) (x : Fin 2) : (s.logWrite client a v).ctl x = s.ctl x := (rfl)

/-! ### State.logUncoded -/

@[simp] theorem State.logUncoded_pending (u : Uncoded) (client param : Nat) : (s.logUncoded u client param).pending = s.pending := (rfl)
@[simp] theorem State.logUncoded_regs (u : Uncoded) (client param : Nat) : (s.logUncoded u client param).regs = s.regs := (rfl)
@[simp] theorem State.logUncoded_edgeRegs (u : Uncoded) (client param : Nat) : (s.logUncoded u client param).edgeRegs = s.edgeRegs := (rfl)
@[simp] theorem State.logUncoded_turn (u : Uncoded) (client param : Nat) : (s.logUncoded u client param).turn = s.turn := (rfl)
@[simp] theorem State.logUncoded_free (u : Uncoded) (client param : Nat) : (s.logUncoded u client param).free = s.free := (rfl)
@[simp] theorem State.logUncoded_answer (u : Uncoded) (client param : Nat) : (s.logUncoded u client param).answer = s.answer := (rfl)
@[simp] theorem State.logUncoded_memory (u : Uncoded) (client param : Nat) : (s.logUncoded u client param).memory = s.memory := (rfl)
@[simp] theorem State.logUncoded_power (u : Uncoded) (client param : Nat) : (s.logUncoded u client param).power = s.power := (rfl)
@[simp] theorem State.logUncoded_pins (u : Uncoded) (client param : Nat) : (s.logUncoded u client param).pins = s.pins := (rfl)
@[simp] theorem State.logUncoded_collector (u : Uncoded) (client param : Nat) : (s.logUncoded u client param).collector = s.collector := (rfl)
@[simp] theorem State.logUncoded_host (u : Uncoded) (client param : Nat) : (s.logUncoded u client param).host = s.host := (rfl)
@[simp] theorem State.logUncoded_dma (u : Uncoded) (client param : Nat) : (s.logUncoded u client param).dma = s.dma := (rfl)
@[simp] theorem State.logUncoded_store (u : Uncoded) (client param : Nat) : (s.logUncoded u client param).store = s.store := (rfl)
@[simp] theorem State.logUncoded_cistern (u : Uncoded) (client param : Nat) : (s.logUncoded u client param).cistern = s.cistern := (rfl)
@[simp] theorem State.logUncoded_flash (u : Uncoded) (client param : Nat) : (s.logUncoded u client param).flash = s.flash := (rfl)
@[simp] theorem State.logUncoded_galley (u : Uncoded) (client param : Nat) : (s.logUncoded u client param).galley = s.galley := (rfl)
@[simp] theorem State.logUncoded_sluice (u : Uncoded) (client param : Nat) : (s.logUncoded u client param).sluice = s.sluice := (rfl)
@[simp] theorem State.logUncoded_nv (u : Uncoded) (client param : Nat) : (s.logUncoded u client param).nv = s.nv := (rfl)
@[simp] theorem State.logUncoded_board (u : Uncoded) (client param : Nat) : (s.logUncoded u client param).board = s.board := (rfl)
@[simp] theorem State.logUncoded_word (u : Uncoded) (client param : Nat) (x : Nat) : (s.logUncoded u client param).word x = s.word x := (rfl)
@[simp] theorem State.logUncoded_fld (u : Uncoded) (client param : Nat) (x : Fld) : (s.logUncoded u client param).fld x = s.fld x := (rfl)
@[simp] theorem State.logUncoded_flag (u : Uncoded) (client param : Nat) (x : Fld) : (s.logUncoded u client param).flag x = s.flag x := (rfl)
@[simp] theorem State.logUncoded_dom (u : Uncoded) (client param : Nat) (d : Fin 24) : (s.logUncoded u client param).dom d = s.dom d := (rfl)
@[simp] theorem State.logUncoded_ctl (u : Uncoded) (client param : Nat) (x : Fin 2) : (s.logUncoded u client param).ctl x = s.ctl x := (rfl)

/-! ### State.restartIdle -/

@[simp] theorem State.restartIdle_pending (n : Fin 24) : (s.restartIdle n).pending = s.pending := (rfl)
@[simp] theorem State.restartIdle_regs (n : Fin 24) : (s.restartIdle n).regs = s.regs := (rfl)
@[simp] theorem State.restartIdle_edgeRegs (n : Fin 24) : (s.restartIdle n).edgeRegs = s.edgeRegs := (rfl)
@[simp] theorem State.restartIdle_turn (n : Fin 24) : (s.restartIdle n).turn = s.turn := (rfl)
@[simp] theorem State.restartIdle_free (n : Fin 24) : (s.restartIdle n).free = s.free := (rfl)
@[simp] theorem State.restartIdle_answer (n : Fin 24) : (s.restartIdle n).answer = s.answer := (rfl)
@[simp] theorem State.restartIdle_memory (n : Fin 24) : (s.restartIdle n).memory = s.memory := (rfl)
@[simp] theorem State.restartIdle_pins (n : Fin 24) : (s.restartIdle n).pins = s.pins := (rfl)
@[simp] theorem State.restartIdle_mgmt (n : Fin 24) : (s.restartIdle n).mgmt = s.mgmt := (rfl)
@[simp] theorem State.restartIdle_collector (n : Fin 24) : (s.restartIdle n).collector = s.collector := (rfl)
@[simp] theorem State.restartIdle_host (n : Fin 24) : (s.restartIdle n).host = s.host := (rfl)
@[simp] theorem State.restartIdle_dma (n : Fin 24) : (s.restartIdle n).dma = s.dma := (rfl)
@[simp] theorem State.restartIdle_store (n : Fin 24) : (s.restartIdle n).store = s.store := (rfl)
@[simp] theorem State.restartIdle_cistern (n : Fin 24) : (s.restartIdle n).cistern = s.cistern := (rfl)
@[simp] theorem State.restartIdle_flash (n : Fin 24) : (s.restartIdle n).flash = s.flash := (rfl)
@[simp] theorem State.restartIdle_galley (n : Fin 24) : (s.restartIdle n).galley = s.galley := (rfl)
@[simp] theorem State.restartIdle_sluice (n : Fin 24) : (s.restartIdle n).sluice = s.sluice := (rfl)
@[simp] theorem State.restartIdle_nv (n : Fin 24) : (s.restartIdle n).nv = s.nv := (rfl)
@[simp] theorem State.restartIdle_board (n : Fin 24) : (s.restartIdle n).board = s.board := (rfl)
@[simp] theorem State.restartIdle_word (n : Fin 24) (x : Nat) : (s.restartIdle n).word x = s.word x := (rfl)
@[simp] theorem State.restartIdle_fld (n : Fin 24) (x : Fld) : (s.restartIdle n).fld x = s.fld x := (rfl)
@[simp] theorem State.restartIdle_flag (n : Fin 24) (x : Fld) : (s.restartIdle n).flag x = s.flag x := (rfl)
@[simp] theorem State.restartIdle_ctl (n : Fin 24) (x : Fin 2) : (s.restartIdle n).ctl x = s.ctl x := (rfl)

/-! ### State.startWake -/

@[simp] theorem State.startWake_pending (n : Fin 24) : (s.startWake n).pending = s.pending := (rfl)
@[simp] theorem State.startWake_regs (n : Fin 24) : (s.startWake n).regs = s.regs := (rfl)
@[simp] theorem State.startWake_edgeRegs (n : Fin 24) : (s.startWake n).edgeRegs = s.edgeRegs := (rfl)
@[simp] theorem State.startWake_turn (n : Fin 24) : (s.startWake n).turn = s.turn := (rfl)
@[simp] theorem State.startWake_free (n : Fin 24) : (s.startWake n).free = s.free := (rfl)
@[simp] theorem State.startWake_answer (n : Fin 24) : (s.startWake n).answer = s.answer := (rfl)
@[simp] theorem State.startWake_memory (n : Fin 24) : (s.startWake n).memory = s.memory := (rfl)
@[simp] theorem State.startWake_pins (n : Fin 24) : (s.startWake n).pins = s.pins := (rfl)
@[simp] theorem State.startWake_mgmt (n : Fin 24) : (s.startWake n).mgmt = s.mgmt := (rfl)
@[simp] theorem State.startWake_collector (n : Fin 24) : (s.startWake n).collector = s.collector := (rfl)
@[simp] theorem State.startWake_host (n : Fin 24) : (s.startWake n).host = s.host := (rfl)
@[simp] theorem State.startWake_dma (n : Fin 24) : (s.startWake n).dma = s.dma := (rfl)
@[simp] theorem State.startWake_store (n : Fin 24) : (s.startWake n).store = s.store := (rfl)
@[simp] theorem State.startWake_cistern (n : Fin 24) : (s.startWake n).cistern = s.cistern := (rfl)
@[simp] theorem State.startWake_flash (n : Fin 24) : (s.startWake n).flash = s.flash := (rfl)
@[simp] theorem State.startWake_galley (n : Fin 24) : (s.startWake n).galley = s.galley := (rfl)
@[simp] theorem State.startWake_sluice (n : Fin 24) : (s.startWake n).sluice = s.sluice := (rfl)
@[simp] theorem State.startWake_nv (n : Fin 24) : (s.startWake n).nv = s.nv := (rfl)
@[simp] theorem State.startWake_board (n : Fin 24) : (s.startWake n).board = s.board := (rfl)
@[simp] theorem State.startWake_word (n : Fin 24) (x : Nat) : (s.startWake n).word x = s.word x := (rfl)
@[simp] theorem State.startWake_fld (n : Fin 24) (x : Fld) : (s.startWake n).fld x = s.fld x := (rfl)
@[simp] theorem State.startWake_flag (n : Fin 24) (x : Fld) : (s.startWake n).flag x = s.flag x := (rfl)
@[simp] theorem State.startWake_ctl (n : Fin 24) (x : Fin 2) : (s.startWake n).ctl x = s.ctl x := (rfl)

/-! ### State.stall -/

@[simp] theorem State.stall_pending (n : Fin 24) (i : Instr) : (s.stall n i).pending = s.pending := (rfl)
@[simp] theorem State.stall_regs (n : Fin 24) (i : Instr) : (s.stall n i).regs = s.regs := (rfl)
@[simp] theorem State.stall_edgeRegs (n : Fin 24) (i : Instr) : (s.stall n i).edgeRegs = s.edgeRegs := (rfl)
@[simp] theorem State.stall_turn (n : Fin 24) (i : Instr) : (s.stall n i).turn = s.turn := (rfl)
@[simp] theorem State.stall_free (n : Fin 24) (i : Instr) : (s.stall n i).free = s.free := (rfl)
@[simp] theorem State.stall_answer (n : Fin 24) (i : Instr) : (s.stall n i).answer = s.answer := (rfl)
@[simp] theorem State.stall_memory (n : Fin 24) (i : Instr) : (s.stall n i).memory = s.memory := (rfl)
@[simp] theorem State.stall_pins (n : Fin 24) (i : Instr) : (s.stall n i).pins = s.pins := (rfl)
@[simp] theorem State.stall_mgmt (n : Fin 24) (i : Instr) : (s.stall n i).mgmt = s.mgmt := (rfl)
@[simp] theorem State.stall_collector (n : Fin 24) (i : Instr) : (s.stall n i).collector = s.collector := (rfl)
@[simp] theorem State.stall_host (n : Fin 24) (i : Instr) : (s.stall n i).host = s.host := (rfl)
@[simp] theorem State.stall_dma (n : Fin 24) (i : Instr) : (s.stall n i).dma = s.dma := (rfl)
@[simp] theorem State.stall_store (n : Fin 24) (i : Instr) : (s.stall n i).store = s.store := (rfl)
@[simp] theorem State.stall_cistern (n : Fin 24) (i : Instr) : (s.stall n i).cistern = s.cistern := (rfl)
@[simp] theorem State.stall_flash (n : Fin 24) (i : Instr) : (s.stall n i).flash = s.flash := (rfl)
@[simp] theorem State.stall_galley (n : Fin 24) (i : Instr) : (s.stall n i).galley = s.galley := (rfl)
@[simp] theorem State.stall_sluice (n : Fin 24) (i : Instr) : (s.stall n i).sluice = s.sluice := (rfl)
@[simp] theorem State.stall_nv (n : Fin 24) (i : Instr) : (s.stall n i).nv = s.nv := (rfl)
@[simp] theorem State.stall_board (n : Fin 24) (i : Instr) : (s.stall n i).board = s.board := (rfl)
@[simp] theorem State.stall_word (n : Fin 24) (i : Instr) (x : Nat) : (s.stall n i).word x = s.word x := (rfl)
@[simp] theorem State.stall_fld (n : Fin 24) (i : Instr) (x : Fld) : (s.stall n i).fld x = s.fld x := (rfl)
@[simp] theorem State.stall_flag (n : Fin 24) (i : Instr) (x : Fld) : (s.stall n i).flag x = s.flag x := (rfl)
@[simp] theorem State.stall_ctl (n : Fin 24) (i : Instr) (x : Fin 2) : (s.stall n i).ctl x = s.ctl x := (rfl)

/-! ### The power controller beside its domains -/

@[simp] theorem State.onDom_power_mode (n : Fin 24) (f : Domain → Domain) : (s.onDom n f).power.mode = s.power.mode := (rfl)
@[simp] theorem State.onDom_power_prev (n : Fin 24) (f : Domain → Domain) : (s.onDom n f).power.prev = s.power.prev := (rfl)
@[simp] theorem State.onDom_power_entry (n : Fin 24) (f : Domain → Domain) : (s.onDom n f).power.entry = s.power.entry := (rfl)
@[simp] theorem State.onDom_power_exiting (n : Fin 24) (f : Domain → Domain) : (s.onDom n f).power.exiting = s.power.exiting := (rfl)
@[simp] theorem State.onDom_power_entryLog (n : Fin 24) (f : Domain → Domain) : (s.onDom n f).power.entryLog = s.power.entryLog := (rfl)
@[simp] theorem State.onDom_power_psChange (n : Fin 24) (f : Domain → Domain) : (s.onDom n f).power.psChange = s.power.psChange := (rfl)
@[simp] theorem State.onDom_power_psWait (n : Fin 24) (f : Domain → Domain) : (s.onDom n f).power.psWait = s.power.psWait := (rfl)
@[simp] theorem State.onDom_power_psDone (n : Fin 24) (f : Domain → Domain) : (s.onDom n f).power.psDone = s.power.psDone := (rfl)
@[simp] theorem State.onDom_power_adminVote (n : Fin 24) (f : Domain → Domain) : (s.onDom n f).power.adminVote = s.power.adminVote := (rfl)
@[simp] theorem State.onDom_power_operPs (n : Fin 24) (f : Domain → Domain) : (s.onDom n f).power.operPs = s.power.operPs := (rfl)
@[simp] theorem State.onDom_power_floorMask (n : Fin 24) (f : Domain → Domain) : (s.onDom n f).power.floorMask = s.power.floorMask := (rfl)
@[simp] theorem State.onDom_power_floorEdition (n : Fin 24) (f : Domain → Domain) : (s.onDom n f).power.floorEdition = s.power.floorEdition := (rfl)
@[simp] theorem State.onDom_power_apstOn (n : Fin 24) (f : Domain → Domain) : (s.onDom n f).power.apstOn = s.power.apstOn := (rfl)
@[simp] theorem State.onDom_power_recovering (n : Fin 24) (f : Domain → Domain) : (s.onDom n f).power.recovering = s.power.recovering := (rfl)
@[simp] theorem State.onDom_power_energyAtRot (n : Fin 24) (f : Domain → Domain) : (s.onDom n f).power.energyAtRot = s.power.energyAtRot := (rfl)
@[simp] theorem State.onDom_power_tjNow (n : Fin 24) (f : Domain → Domain) : (s.onDom n f).power.tjNow = s.power.tjNow := (rfl)
@[simp] theorem State.onDom_power_thermCeil (n : Fin 24) (f : Domain → Domain) : (s.onDom n f).power.thermCeil = s.power.thermCeil := (rfl)
@[simp] theorem State.onDom_power_wholeService (n : Fin 24) (f : Domain → Domain) : (s.onDom n f).power.wholeService = s.power.wholeService := (rfl)
@[simp] theorem State.restartIdle_power_mode (n : Fin 24) : (s.restartIdle n).power.mode = s.power.mode := (rfl)
@[simp] theorem State.restartIdle_power_prev (n : Fin 24) : (s.restartIdle n).power.prev = s.power.prev := (rfl)
@[simp] theorem State.restartIdle_power_entry (n : Fin 24) : (s.restartIdle n).power.entry = s.power.entry := (rfl)
@[simp] theorem State.restartIdle_power_exiting (n : Fin 24) : (s.restartIdle n).power.exiting = s.power.exiting := (rfl)
@[simp] theorem State.restartIdle_power_entryLog (n : Fin 24) : (s.restartIdle n).power.entryLog = s.power.entryLog := (rfl)
@[simp] theorem State.restartIdle_power_psChange (n : Fin 24) : (s.restartIdle n).power.psChange = s.power.psChange := (rfl)
@[simp] theorem State.restartIdle_power_psWait (n : Fin 24) : (s.restartIdle n).power.psWait = s.power.psWait := (rfl)
@[simp] theorem State.restartIdle_power_psDone (n : Fin 24) : (s.restartIdle n).power.psDone = s.power.psDone := (rfl)
@[simp] theorem State.restartIdle_power_adminVote (n : Fin 24) : (s.restartIdle n).power.adminVote = s.power.adminVote := (rfl)
@[simp] theorem State.restartIdle_power_operPs (n : Fin 24) : (s.restartIdle n).power.operPs = s.power.operPs := (rfl)
@[simp] theorem State.restartIdle_power_floorMask (n : Fin 24) : (s.restartIdle n).power.floorMask = s.power.floorMask := (rfl)
@[simp] theorem State.restartIdle_power_floorEdition (n : Fin 24) : (s.restartIdle n).power.floorEdition = s.power.floorEdition := (rfl)
@[simp] theorem State.restartIdle_power_apstOn (n : Fin 24) : (s.restartIdle n).power.apstOn = s.power.apstOn := (rfl)
@[simp] theorem State.restartIdle_power_recovering (n : Fin 24) : (s.restartIdle n).power.recovering = s.power.recovering := (rfl)
@[simp] theorem State.restartIdle_power_energyAtRot (n : Fin 24) : (s.restartIdle n).power.energyAtRot = s.power.energyAtRot := (rfl)
@[simp] theorem State.restartIdle_power_tjNow (n : Fin 24) : (s.restartIdle n).power.tjNow = s.power.tjNow := (rfl)
@[simp] theorem State.restartIdle_power_thermCeil (n : Fin 24) : (s.restartIdle n).power.thermCeil = s.power.thermCeil := (rfl)
@[simp] theorem State.restartIdle_power_wholeService (n : Fin 24) : (s.restartIdle n).power.wholeService = s.power.wholeService := (rfl)
@[simp] theorem State.startWake_power_mode (n : Fin 24) : (s.startWake n).power.mode = s.power.mode := (rfl)
@[simp] theorem State.startWake_power_prev (n : Fin 24) : (s.startWake n).power.prev = s.power.prev := (rfl)
@[simp] theorem State.startWake_power_entry (n : Fin 24) : (s.startWake n).power.entry = s.power.entry := (rfl)
@[simp] theorem State.startWake_power_exiting (n : Fin 24) : (s.startWake n).power.exiting = s.power.exiting := (rfl)
@[simp] theorem State.startWake_power_entryLog (n : Fin 24) : (s.startWake n).power.entryLog = s.power.entryLog := (rfl)
@[simp] theorem State.startWake_power_psChange (n : Fin 24) : (s.startWake n).power.psChange = s.power.psChange := (rfl)
@[simp] theorem State.startWake_power_psWait (n : Fin 24) : (s.startWake n).power.psWait = s.power.psWait := (rfl)
@[simp] theorem State.startWake_power_psDone (n : Fin 24) : (s.startWake n).power.psDone = s.power.psDone := (rfl)
@[simp] theorem State.startWake_power_adminVote (n : Fin 24) : (s.startWake n).power.adminVote = s.power.adminVote := (rfl)
@[simp] theorem State.startWake_power_operPs (n : Fin 24) : (s.startWake n).power.operPs = s.power.operPs := (rfl)
@[simp] theorem State.startWake_power_floorMask (n : Fin 24) : (s.startWake n).power.floorMask = s.power.floorMask := (rfl)
@[simp] theorem State.startWake_power_floorEdition (n : Fin 24) : (s.startWake n).power.floorEdition = s.power.floorEdition := (rfl)
@[simp] theorem State.startWake_power_apstOn (n : Fin 24) : (s.startWake n).power.apstOn = s.power.apstOn := (rfl)
@[simp] theorem State.startWake_power_recovering (n : Fin 24) : (s.startWake n).power.recovering = s.power.recovering := (rfl)
@[simp] theorem State.startWake_power_energyAtRot (n : Fin 24) : (s.startWake n).power.energyAtRot = s.power.energyAtRot := (rfl)
@[simp] theorem State.startWake_power_tjNow (n : Fin 24) : (s.startWake n).power.tjNow = s.power.tjNow := (rfl)
@[simp] theorem State.startWake_power_thermCeil (n : Fin 24) : (s.startWake n).power.thermCeil = s.power.thermCeil := (rfl)
@[simp] theorem State.startWake_power_wholeService (n : Fin 24) : (s.startWake n).power.wholeService = s.power.wholeService := (rfl)
@[simp] theorem State.stall_power_mode (n : Fin 24) (i : Instr) : (s.stall n i).power.mode = s.power.mode := (rfl)
@[simp] theorem State.stall_power_prev (n : Fin 24) (i : Instr) : (s.stall n i).power.prev = s.power.prev := (rfl)
@[simp] theorem State.stall_power_entry (n : Fin 24) (i : Instr) : (s.stall n i).power.entry = s.power.entry := (rfl)
@[simp] theorem State.stall_power_exiting (n : Fin 24) (i : Instr) : (s.stall n i).power.exiting = s.power.exiting := (rfl)
@[simp] theorem State.stall_power_entryLog (n : Fin 24) (i : Instr) : (s.stall n i).power.entryLog = s.power.entryLog := (rfl)
@[simp] theorem State.stall_power_psChange (n : Fin 24) (i : Instr) : (s.stall n i).power.psChange = s.power.psChange := (rfl)
@[simp] theorem State.stall_power_psWait (n : Fin 24) (i : Instr) : (s.stall n i).power.psWait = s.power.psWait := (rfl)
@[simp] theorem State.stall_power_psDone (n : Fin 24) (i : Instr) : (s.stall n i).power.psDone = s.power.psDone := (rfl)
@[simp] theorem State.stall_power_adminVote (n : Fin 24) (i : Instr) : (s.stall n i).power.adminVote = s.power.adminVote := (rfl)
@[simp] theorem State.stall_power_operPs (n : Fin 24) (i : Instr) : (s.stall n i).power.operPs = s.power.operPs := (rfl)
@[simp] theorem State.stall_power_floorMask (n : Fin 24) (i : Instr) : (s.stall n i).power.floorMask = s.power.floorMask := (rfl)
@[simp] theorem State.stall_power_floorEdition (n : Fin 24) (i : Instr) : (s.stall n i).power.floorEdition = s.power.floorEdition := (rfl)
@[simp] theorem State.stall_power_apstOn (n : Fin 24) (i : Instr) : (s.stall n i).power.apstOn = s.power.apstOn := (rfl)
@[simp] theorem State.stall_power_recovering (n : Fin 24) (i : Instr) : (s.stall n i).power.recovering = s.power.recovering := (rfl)
@[simp] theorem State.stall_power_energyAtRot (n : Fin 24) (i : Instr) : (s.stall n i).power.energyAtRot = s.power.energyAtRot := (rfl)
@[simp] theorem State.stall_power_tjNow (n : Fin 24) (i : Instr) : (s.stall n i).power.tjNow = s.power.tjNow := (rfl)
@[simp] theorem State.stall_power_thermCeil (n : Fin 24) (i : Instr) : (s.stall n i).power.thermCeil = s.power.thermCeil := (rfl)
@[simp] theorem State.stall_power_wholeService (n : Fin 24) (i : Instr) : (s.stall n i).power.wholeService = s.power.wholeService := (rfl)

/-! ### The management plane beside its log -/

@[simp] theorem State.log_mgmt_timestamp (code source client param : Nat) : (s.log code source client param).mgmt.timestamp = s.mgmt.timestamp := by
  simp only [State.log, State.onMgmt]; split <;> rfl
@[simp] theorem State.log_mgmt_restartUntil (code source client param : Nat) : (s.log code source client param).mgmt.restartUntil = s.mgmt.restartUntil := by
  simp only [State.log, State.onMgmt]; split <;> rfl
@[simp] theorem State.log_mgmt_waiting (code source client param : Nat) : (s.log code source client param).mgmt.waiting = s.mgmt.waiting := by
  simp only [State.log, State.onMgmt]; split <;> rfl
@[simp] theorem State.log_mgmt_current (code source client param : Nat) : (s.log code source client param).mgmt.current = s.mgmt.current := by
  simp only [State.log, State.onMgmt]; split <;> rfl
@[simp] theorem State.log_mgmt_previous (code source client param : Nat) : (s.log code source client param).mgmt.previous = s.mgmt.previous := by
  simp only [State.log, State.onMgmt]; split <;> rfl
@[simp] theorem State.log_mgmt_staged (code source client param : Nat) : (s.log code source client param).mgmt.staged = s.mgmt.staged := by
  simp only [State.log, State.onMgmt]; split <;> rfl
@[simp] theorem State.log_mgmt_change (code source client param : Nat) : (s.log code source client param).mgmt.change = s.mgmt.change := by
  simp only [State.log, State.onMgmt]; split <;> rfl
@[simp] theorem State.log_mgmt_roles (code source client param : Nat) : (s.log code source client param).mgmt.roles = s.mgmt.roles := by
  simp only [State.log, State.onMgmt]; split <;> rfl
@[simp] theorem State.log_mgmt_gaugeFifo (code source client param : Nat) : (s.log code source client param).mgmt.gaugeFifo = s.mgmt.gaugeFifo := by
  simp only [State.log, State.onMgmt]; split <;> rfl
@[simp] theorem State.log_mgmt_energy (code source client param : Nat) : (s.log code source client param).mgmt.energy = s.mgmt.energy := by
  simp only [State.log, State.onMgmt]; split <;> rfl
@[simp] theorem State.log_mgmt_uartRx (code source client param : Nat) : (s.log code source client param).mgmt.uartRx = s.mgmt.uartRx := by
  simp only [State.log, State.onMgmt]; split <;> rfl
@[simp] theorem State.log_mgmt_uartTx (code source client param : Nat) : (s.log code source client param).mgmt.uartTx = s.mgmt.uartTx := by
  simp only [State.log, State.onMgmt]; split <;> rfl
@[simp] theorem State.log_mgmt_uartFrom (code source client param : Nat) : (s.log code source client param).mgmt.uartFrom = s.mgmt.uartFrom := by
  simp only [State.log, State.onMgmt]; split <;> rfl
@[simp] theorem State.log_mgmt_mctp (code source client param : Nat) : (s.log code source client param).mgmt.mctp = s.mgmt.mctp := by
  simp only [State.log, State.onMgmt]; split <;> rfl
@[simp] theorem State.log_mgmt_healthChange (code source client param : Nat) : (s.log code source client param).mgmt.healthChange = s.mgmt.healthChange := by
  simp only [State.log, State.onMgmt]; split <;> rfl
@[simp] theorem State.log_mgmt_mctpUnit (code source client param : Nat) : (s.log code source client param).mgmt.mctpUnit = s.mgmt.mctpUnit := by
  simp only [State.log, State.onMgmt]; split <;> rfl
@[simp] theorem State.log_mgmt_run (code source client param : Nat) : (s.log code source client param).mgmt.run = s.mgmt.run := by
  simp only [State.log, State.onMgmt]; split <;> rfl
@[simp] theorem State.log_mgmt_results (code source client param : Nat) : (s.log code source client param).mgmt.results = s.mgmt.results := by
  simp only [State.log, State.onMgmt]; split <;> rfl
@[simp] theorem State.log_mgmt_domTest (code source client param : Nat) : (s.log code source client param).mgmt.domTest = s.mgmt.domTest := by
  simp only [State.log, State.onMgmt]; split <;> rfl
@[simp] theorem State.log_mgmt_passes (code source client param : Nat) : (s.log code source client param).mgmt.passes = s.mgmt.passes := by
  simp only [State.log, State.onMgmt]; split <;> rfl
@[simp] theorem State.log_mgmt_slices (code source client param : Nat) : (s.log code source client param).mgmt.slices = s.mgmt.slices := by
  simp only [State.log, State.onMgmt]; split <;> rfl
@[simp] theorem State.log_mgmt_rotSlices (code source client param : Nat) : (s.log code source client param).mgmt.rotSlices = s.mgmt.rotSlices := by
  simp only [State.log, State.onMgmt]; split <;> rfl
@[simp] theorem State.log_mgmt_replies (code source client param : Nat) : (s.log code source client param).mgmt.replies = s.mgmt.replies := by
  simp only [State.log, State.onMgmt]; split <;> rfl
@[simp] theorem State.log_mgmt_shutdown (code source client param : Nat) : (s.log code source client param).mgmt.shutdown = s.mgmt.shutdown := by
  simp only [State.log, State.onMgmt]; split <;> rfl
@[simp] theorem State.log_mgmt_teleCtrl (code source client param : Nat) : (s.log code source client param).mgmt.teleCtrl = s.mgmt.teleCtrl := by
  simp only [State.log, State.onMgmt]; split <;> rfl
@[simp] theorem State.log_mgmt_teleGen (code source client param : Nat) : (s.log code source client param).mgmt.teleGen = s.mgmt.teleGen := by
  simp only [State.log, State.onMgmt]; split <;> rfl
@[simp] theorem State.log_mgmt_teleHost (code source client param : Nat) : (s.log code source client param).mgmt.teleHost = s.mgmt.teleHost := by
  simp only [State.log, State.onMgmt]; split <;> rfl
@[simp] theorem State.log_mgmt_teleWanted (code source client param : Nat) : (s.log code source client param).mgmt.teleWanted = s.mgmt.teleWanted := by
  simp only [State.log, State.onMgmt]; split <;> rfl
@[simp] theorem State.log_mgmt_teleSeen (code source client param : Nat) : (s.log code source client param).mgmt.teleSeen = s.mgmt.teleSeen := by
  simp only [State.log, State.onMgmt]; split <;> rfl
@[simp] theorem State.log_mgmt_busyMinute (code source client param : Nat) : (s.log code source client param).mgmt.busyMinute = s.mgmt.busyMinute := by
  simp only [State.log, State.onMgmt]; split <;> rfl
@[simp] theorem State.log_mgmt_smart (code source client param : Nat) : (s.log code source client param).mgmt.smart = s.mgmt.smart := by
  simp only [State.log, State.onMgmt]; split <;> rfl
@[simp] theorem State.logWrite_mgmt_timestamp (client a : Nat) (v : Word) : (s.logWrite client a v).mgmt.timestamp = s.mgmt.timestamp := State.log_mgmt_timestamp s _ _ _ _
@[simp] theorem State.logWrite_mgmt_restartUntil (client a : Nat) (v : Word) : (s.logWrite client a v).mgmt.restartUntil = s.mgmt.restartUntil := State.log_mgmt_restartUntil s _ _ _ _
@[simp] theorem State.logWrite_mgmt_waiting (client a : Nat) (v : Word) : (s.logWrite client a v).mgmt.waiting = s.mgmt.waiting := State.log_mgmt_waiting s _ _ _ _
@[simp] theorem State.logWrite_mgmt_current (client a : Nat) (v : Word) : (s.logWrite client a v).mgmt.current = s.mgmt.current := State.log_mgmt_current s _ _ _ _
@[simp] theorem State.logWrite_mgmt_previous (client a : Nat) (v : Word) : (s.logWrite client a v).mgmt.previous = s.mgmt.previous := State.log_mgmt_previous s _ _ _ _
@[simp] theorem State.logWrite_mgmt_staged (client a : Nat) (v : Word) : (s.logWrite client a v).mgmt.staged = s.mgmt.staged := State.log_mgmt_staged s _ _ _ _
@[simp] theorem State.logWrite_mgmt_change (client a : Nat) (v : Word) : (s.logWrite client a v).mgmt.change = s.mgmt.change := State.log_mgmt_change s _ _ _ _
@[simp] theorem State.logWrite_mgmt_roles (client a : Nat) (v : Word) : (s.logWrite client a v).mgmt.roles = s.mgmt.roles := State.log_mgmt_roles s _ _ _ _
@[simp] theorem State.logWrite_mgmt_gaugeFifo (client a : Nat) (v : Word) : (s.logWrite client a v).mgmt.gaugeFifo = s.mgmt.gaugeFifo := State.log_mgmt_gaugeFifo s _ _ _ _
@[simp] theorem State.logWrite_mgmt_energy (client a : Nat) (v : Word) : (s.logWrite client a v).mgmt.energy = s.mgmt.energy := State.log_mgmt_energy s _ _ _ _
@[simp] theorem State.logWrite_mgmt_uartRx (client a : Nat) (v : Word) : (s.logWrite client a v).mgmt.uartRx = s.mgmt.uartRx := State.log_mgmt_uartRx s _ _ _ _
@[simp] theorem State.logWrite_mgmt_uartTx (client a : Nat) (v : Word) : (s.logWrite client a v).mgmt.uartTx = s.mgmt.uartTx := State.log_mgmt_uartTx s _ _ _ _
@[simp] theorem State.logWrite_mgmt_uartFrom (client a : Nat) (v : Word) : (s.logWrite client a v).mgmt.uartFrom = s.mgmt.uartFrom := State.log_mgmt_uartFrom s _ _ _ _
@[simp] theorem State.logWrite_mgmt_mctp (client a : Nat) (v : Word) : (s.logWrite client a v).mgmt.mctp = s.mgmt.mctp := State.log_mgmt_mctp s _ _ _ _
@[simp] theorem State.logWrite_mgmt_healthChange (client a : Nat) (v : Word) : (s.logWrite client a v).mgmt.healthChange = s.mgmt.healthChange := State.log_mgmt_healthChange s _ _ _ _
@[simp] theorem State.logWrite_mgmt_mctpUnit (client a : Nat) (v : Word) : (s.logWrite client a v).mgmt.mctpUnit = s.mgmt.mctpUnit := State.log_mgmt_mctpUnit s _ _ _ _
@[simp] theorem State.logWrite_mgmt_run (client a : Nat) (v : Word) : (s.logWrite client a v).mgmt.run = s.mgmt.run := State.log_mgmt_run s _ _ _ _
@[simp] theorem State.logWrite_mgmt_results (client a : Nat) (v : Word) : (s.logWrite client a v).mgmt.results = s.mgmt.results := State.log_mgmt_results s _ _ _ _
@[simp] theorem State.logWrite_mgmt_domTest (client a : Nat) (v : Word) : (s.logWrite client a v).mgmt.domTest = s.mgmt.domTest := State.log_mgmt_domTest s _ _ _ _
@[simp] theorem State.logWrite_mgmt_passes (client a : Nat) (v : Word) : (s.logWrite client a v).mgmt.passes = s.mgmt.passes := State.log_mgmt_passes s _ _ _ _
@[simp] theorem State.logWrite_mgmt_slices (client a : Nat) (v : Word) : (s.logWrite client a v).mgmt.slices = s.mgmt.slices := State.log_mgmt_slices s _ _ _ _
@[simp] theorem State.logWrite_mgmt_rotSlices (client a : Nat) (v : Word) : (s.logWrite client a v).mgmt.rotSlices = s.mgmt.rotSlices := State.log_mgmt_rotSlices s _ _ _ _
@[simp] theorem State.logWrite_mgmt_replies (client a : Nat) (v : Word) : (s.logWrite client a v).mgmt.replies = s.mgmt.replies := State.log_mgmt_replies s _ _ _ _
@[simp] theorem State.logWrite_mgmt_shutdown (client a : Nat) (v : Word) : (s.logWrite client a v).mgmt.shutdown = s.mgmt.shutdown := State.log_mgmt_shutdown s _ _ _ _
@[simp] theorem State.logWrite_mgmt_teleCtrl (client a : Nat) (v : Word) : (s.logWrite client a v).mgmt.teleCtrl = s.mgmt.teleCtrl := State.log_mgmt_teleCtrl s _ _ _ _
@[simp] theorem State.logWrite_mgmt_teleGen (client a : Nat) (v : Word) : (s.logWrite client a v).mgmt.teleGen = s.mgmt.teleGen := State.log_mgmt_teleGen s _ _ _ _
@[simp] theorem State.logWrite_mgmt_teleHost (client a : Nat) (v : Word) : (s.logWrite client a v).mgmt.teleHost = s.mgmt.teleHost := State.log_mgmt_teleHost s _ _ _ _
@[simp] theorem State.logWrite_mgmt_teleWanted (client a : Nat) (v : Word) : (s.logWrite client a v).mgmt.teleWanted = s.mgmt.teleWanted := State.log_mgmt_teleWanted s _ _ _ _
@[simp] theorem State.logWrite_mgmt_teleSeen (client a : Nat) (v : Word) : (s.logWrite client a v).mgmt.teleSeen = s.mgmt.teleSeen := State.log_mgmt_teleSeen s _ _ _ _
@[simp] theorem State.logWrite_mgmt_busyMinute (client a : Nat) (v : Word) : (s.logWrite client a v).mgmt.busyMinute = s.mgmt.busyMinute := State.log_mgmt_busyMinute s _ _ _ _
@[simp] theorem State.logWrite_mgmt_smart (client a : Nat) (v : Word) : (s.logWrite client a v).mgmt.smart = s.mgmt.smart := State.log_mgmt_smart s _ _ _ _
@[simp] theorem State.logUncoded_mgmt_timestamp (u : Uncoded) (client param : Nat) : (s.logUncoded u client param).mgmt.timestamp = s.mgmt.timestamp := State.log_mgmt_timestamp s _ _ _ _
@[simp] theorem State.logUncoded_mgmt_restartUntil (u : Uncoded) (client param : Nat) : (s.logUncoded u client param).mgmt.restartUntil = s.mgmt.restartUntil := State.log_mgmt_restartUntil s _ _ _ _
@[simp] theorem State.logUncoded_mgmt_waiting (u : Uncoded) (client param : Nat) : (s.logUncoded u client param).mgmt.waiting = s.mgmt.waiting := State.log_mgmt_waiting s _ _ _ _
@[simp] theorem State.logUncoded_mgmt_current (u : Uncoded) (client param : Nat) : (s.logUncoded u client param).mgmt.current = s.mgmt.current := State.log_mgmt_current s _ _ _ _
@[simp] theorem State.logUncoded_mgmt_previous (u : Uncoded) (client param : Nat) : (s.logUncoded u client param).mgmt.previous = s.mgmt.previous := State.log_mgmt_previous s _ _ _ _
@[simp] theorem State.logUncoded_mgmt_staged (u : Uncoded) (client param : Nat) : (s.logUncoded u client param).mgmt.staged = s.mgmt.staged := State.log_mgmt_staged s _ _ _ _
@[simp] theorem State.logUncoded_mgmt_change (u : Uncoded) (client param : Nat) : (s.logUncoded u client param).mgmt.change = s.mgmt.change := State.log_mgmt_change s _ _ _ _
@[simp] theorem State.logUncoded_mgmt_roles (u : Uncoded) (client param : Nat) : (s.logUncoded u client param).mgmt.roles = s.mgmt.roles := State.log_mgmt_roles s _ _ _ _
@[simp] theorem State.logUncoded_mgmt_gaugeFifo (u : Uncoded) (client param : Nat) : (s.logUncoded u client param).mgmt.gaugeFifo = s.mgmt.gaugeFifo := State.log_mgmt_gaugeFifo s _ _ _ _
@[simp] theorem State.logUncoded_mgmt_energy (u : Uncoded) (client param : Nat) : (s.logUncoded u client param).mgmt.energy = s.mgmt.energy := State.log_mgmt_energy s _ _ _ _
@[simp] theorem State.logUncoded_mgmt_uartRx (u : Uncoded) (client param : Nat) : (s.logUncoded u client param).mgmt.uartRx = s.mgmt.uartRx := State.log_mgmt_uartRx s _ _ _ _
@[simp] theorem State.logUncoded_mgmt_uartTx (u : Uncoded) (client param : Nat) : (s.logUncoded u client param).mgmt.uartTx = s.mgmt.uartTx := State.log_mgmt_uartTx s _ _ _ _
@[simp] theorem State.logUncoded_mgmt_uartFrom (u : Uncoded) (client param : Nat) : (s.logUncoded u client param).mgmt.uartFrom = s.mgmt.uartFrom := State.log_mgmt_uartFrom s _ _ _ _
@[simp] theorem State.logUncoded_mgmt_mctp (u : Uncoded) (client param : Nat) : (s.logUncoded u client param).mgmt.mctp = s.mgmt.mctp := State.log_mgmt_mctp s _ _ _ _
@[simp] theorem State.logUncoded_mgmt_healthChange (u : Uncoded) (client param : Nat) : (s.logUncoded u client param).mgmt.healthChange = s.mgmt.healthChange := State.log_mgmt_healthChange s _ _ _ _
@[simp] theorem State.logUncoded_mgmt_mctpUnit (u : Uncoded) (client param : Nat) : (s.logUncoded u client param).mgmt.mctpUnit = s.mgmt.mctpUnit := State.log_mgmt_mctpUnit s _ _ _ _
@[simp] theorem State.logUncoded_mgmt_run (u : Uncoded) (client param : Nat) : (s.logUncoded u client param).mgmt.run = s.mgmt.run := State.log_mgmt_run s _ _ _ _
@[simp] theorem State.logUncoded_mgmt_results (u : Uncoded) (client param : Nat) : (s.logUncoded u client param).mgmt.results = s.mgmt.results := State.log_mgmt_results s _ _ _ _
@[simp] theorem State.logUncoded_mgmt_domTest (u : Uncoded) (client param : Nat) : (s.logUncoded u client param).mgmt.domTest = s.mgmt.domTest := State.log_mgmt_domTest s _ _ _ _
@[simp] theorem State.logUncoded_mgmt_passes (u : Uncoded) (client param : Nat) : (s.logUncoded u client param).mgmt.passes = s.mgmt.passes := State.log_mgmt_passes s _ _ _ _
@[simp] theorem State.logUncoded_mgmt_slices (u : Uncoded) (client param : Nat) : (s.logUncoded u client param).mgmt.slices = s.mgmt.slices := State.log_mgmt_slices s _ _ _ _
@[simp] theorem State.logUncoded_mgmt_rotSlices (u : Uncoded) (client param : Nat) : (s.logUncoded u client param).mgmt.rotSlices = s.mgmt.rotSlices := State.log_mgmt_rotSlices s _ _ _ _
@[simp] theorem State.logUncoded_mgmt_replies (u : Uncoded) (client param : Nat) : (s.logUncoded u client param).mgmt.replies = s.mgmt.replies := State.log_mgmt_replies s _ _ _ _
@[simp] theorem State.logUncoded_mgmt_shutdown (u : Uncoded) (client param : Nat) : (s.logUncoded u client param).mgmt.shutdown = s.mgmt.shutdown := State.log_mgmt_shutdown s _ _ _ _
@[simp] theorem State.logUncoded_mgmt_teleCtrl (u : Uncoded) (client param : Nat) : (s.logUncoded u client param).mgmt.teleCtrl = s.mgmt.teleCtrl := State.log_mgmt_teleCtrl s _ _ _ _
@[simp] theorem State.logUncoded_mgmt_teleGen (u : Uncoded) (client param : Nat) : (s.logUncoded u client param).mgmt.teleGen = s.mgmt.teleGen := State.log_mgmt_teleGen s _ _ _ _
@[simp] theorem State.logUncoded_mgmt_teleHost (u : Uncoded) (client param : Nat) : (s.logUncoded u client param).mgmt.teleHost = s.mgmt.teleHost := State.log_mgmt_teleHost s _ _ _ _
@[simp] theorem State.logUncoded_mgmt_teleWanted (u : Uncoded) (client param : Nat) : (s.logUncoded u client param).mgmt.teleWanted = s.mgmt.teleWanted := State.log_mgmt_teleWanted s _ _ _ _
@[simp] theorem State.logUncoded_mgmt_teleSeen (u : Uncoded) (client param : Nat) : (s.logUncoded u client param).mgmt.teleSeen = s.mgmt.teleSeen := State.log_mgmt_teleSeen s _ _ _ _
@[simp] theorem State.logUncoded_mgmt_busyMinute (u : Uncoded) (client param : Nat) : (s.logUncoded u client param).mgmt.busyMinute = s.mgmt.busyMinute := State.log_mgmt_busyMinute s _ _ _ _
@[simp] theorem State.logUncoded_mgmt_smart (u : Uncoded) (client param : Nat) : (s.logUncoded u client param).mgmt.smart = s.mgmt.smart := State.log_mgmt_smart s _ _ _ _
@[simp] theorem State.captureTele_mgmt_log : s.captureTele.mgmt.log = s.mgmt.log := (rfl)
@[simp] theorem State.captureTele_mgmt_logDropped : s.captureTele.mgmt.logDropped = s.mgmt.logDropped := (rfl)
@[simp] theorem State.captureTele_mgmt_timestamp : s.captureTele.mgmt.timestamp = s.mgmt.timestamp := (rfl)
@[simp] theorem State.captureTele_mgmt_restartUntil : s.captureTele.mgmt.restartUntil = s.mgmt.restartUntil := (rfl)
@[simp] theorem State.captureTele_mgmt_waiting : s.captureTele.mgmt.waiting = s.mgmt.waiting := (rfl)
@[simp] theorem State.captureTele_mgmt_current : s.captureTele.mgmt.current = s.mgmt.current := (rfl)
@[simp] theorem State.captureTele_mgmt_previous : s.captureTele.mgmt.previous = s.mgmt.previous := (rfl)
@[simp] theorem State.captureTele_mgmt_staged : s.captureTele.mgmt.staged = s.mgmt.staged := (rfl)
@[simp] theorem State.captureTele_mgmt_change : s.captureTele.mgmt.change = s.mgmt.change := (rfl)
@[simp] theorem State.captureTele_mgmt_roles : s.captureTele.mgmt.roles = s.mgmt.roles := (rfl)
@[simp] theorem State.captureTele_mgmt_gaugeFifo : s.captureTele.mgmt.gaugeFifo = s.mgmt.gaugeFifo := (rfl)
@[simp] theorem State.captureTele_mgmt_energy : s.captureTele.mgmt.energy = s.mgmt.energy := (rfl)
@[simp] theorem State.captureTele_mgmt_uartRx : s.captureTele.mgmt.uartRx = s.mgmt.uartRx := (rfl)
@[simp] theorem State.captureTele_mgmt_uartTx : s.captureTele.mgmt.uartTx = s.mgmt.uartTx := (rfl)
@[simp] theorem State.captureTele_mgmt_uartFrom : s.captureTele.mgmt.uartFrom = s.mgmt.uartFrom := (rfl)
@[simp] theorem State.captureTele_mgmt_mctp : s.captureTele.mgmt.mctp = s.mgmt.mctp := (rfl)
@[simp] theorem State.captureTele_mgmt_healthChange : s.captureTele.mgmt.healthChange = s.mgmt.healthChange := (rfl)
@[simp] theorem State.captureTele_mgmt_mctpUnit : s.captureTele.mgmt.mctpUnit = s.mgmt.mctpUnit := (rfl)
@[simp] theorem State.captureTele_mgmt_run : s.captureTele.mgmt.run = s.mgmt.run := (rfl)
@[simp] theorem State.captureTele_mgmt_results : s.captureTele.mgmt.results = s.mgmt.results := (rfl)
@[simp] theorem State.captureTele_mgmt_domTest : s.captureTele.mgmt.domTest = s.mgmt.domTest := (rfl)
@[simp] theorem State.captureTele_mgmt_passes : s.captureTele.mgmt.passes = s.mgmt.passes := (rfl)
@[simp] theorem State.captureTele_mgmt_slices : s.captureTele.mgmt.slices = s.mgmt.slices := (rfl)
@[simp] theorem State.captureTele_mgmt_rotSlices : s.captureTele.mgmt.rotSlices = s.mgmt.rotSlices := (rfl)
@[simp] theorem State.captureTele_mgmt_replies : s.captureTele.mgmt.replies = s.mgmt.replies := (rfl)
@[simp] theorem State.captureTele_mgmt_shutdown : s.captureTele.mgmt.shutdown = s.mgmt.shutdown := (rfl)
@[simp] theorem State.captureTele_mgmt_teleCtrl : s.captureTele.mgmt.teleCtrl = s.mgmt.teleCtrl := (rfl)
@[simp] theorem State.captureTele_mgmt_teleGen : s.captureTele.mgmt.teleGen = s.mgmt.teleGen := (rfl)
@[simp] theorem State.captureTele_mgmt_teleHost : s.captureTele.mgmt.teleHost = s.mgmt.teleHost := (rfl)
@[simp] theorem State.captureTele_mgmt_teleSeen : s.captureTele.mgmt.teleSeen = s.mgmt.teleSeen := (rfl)
@[simp] theorem State.captureTele_mgmt_busyMinute : s.captureTele.mgmt.busyMinute = s.mgmt.busyMinute := (rfl)
@[simp] theorem State.captureTele_mgmt_smart : s.captureTele.mgmt.smart = s.mgmt.smart := (rfl)

@[simp] theorem State.tookFree_free : s.tookFree.free = s.free + 1 := (rfl)

/-! ### Fixed arrays -/

theorem vupd_same {α : Type} {n : Nat} (v : Vector α n) (i : Fin n) (f : α → α) : (vupd v i f)[i] = f v[i] := by
  simp [vupd]

theorem vupd_ne {α : Type} {n : Nat} (v : Vector α n) {i j : Fin n} (f : α → α) (h : j ≠ i) : (vupd v i f)[j] = v[j] := by
  have : (i : Nat) ≠ j := fun e => h (Fin.ext e.symm)
  simp [vupd, this]

@[simp] theorem State.onDom_dom_same (n : Fin 24) (f : Domain → Domain) : (s.onDom n f).dom n = f (s.dom n) := vupd_same _ _ _

theorem State.onDom_dom_ne {n m : Fin 24} (f : Domain → Domain) (h : m ≠ n) : (s.onDom n f).dom m = s.dom m := vupd_ne _ _ h

@[simp] theorem State.onCtl_ctl_same (c : Fin 2) (f : Controller → Controller) : (s.onCtl c f).ctl c = f (s.ctl c) := vupd_same _ _ _

theorem State.onCtl_ctl_ne {c d : Fin 2} (f : Controller → Controller) (h : d ≠ c) : (s.onCtl c f).ctl d = s.ctl d := vupd_ne _ _ h

end Sys2Proof.Machine
end

