-- ==== Sys2Proof/Laws/Regs.lean ====
section
/-! SUPPORT. Laws of the setup registers: read after write of words and fields, lists of field writes, counters, and
accesses that reach a domain that is ON. -/

namespace Sys2Proof.Machine

open Sys2Proof.Safety

variable (s : State)

theorem State.word_setWord (a b : Nat) (w : Word) : (s.setWord a w).word b = if a = b then w else s.word b := by
  unfold State.setWord State.word putReg
  by_cases h : a = b
  · subst h
    by_cases hw : w = resetWord a
    · simp [hw]
    · simp [hw]
  · by_cases hw : w = resetWord a
    · simp [hw, klook_kdel_ne _ (Ne.symm h), h]
    · simp [hw, klook_kput_ne _ _ (Ne.symm h), h]

/-- One field write is one entry of a list of field writes. -/
theorem State.word_setFld (f : Fld) (v a : Nat) : (s.setFld f v).word a = wordAfter a [(f, v)] (s.word a) := by
  unfold State.setFld
  rw [State.word_setWord]
  by_cases h : f.addr = a
  · subst h; simp [wordAfter]
  · simp [wordAfter, h]

theorem wordAfter_append (a : Nat) (l m : List (Fld × Nat)) (w : Word) :
    wordAfter a (l ++ m) w = wordAfter a m (wordAfter a l w) := by
  induction l generalizing w with
  | nil => rfl
  | cons p l ih => obtain ⟨f, v⟩ := p; simp [wordAfter, ih]

theorem State.word_setFlds (l : List (Fld × Nat)) (a : Nat) : (s.setFlds l).word a = wordAfter a l (s.word a) := by
  induction l generalizing s with
  | nil => rfl
  | cons p l ih =>
    obtain ⟨f, v⟩ := p
    have : (s.setFlds ((f, v) :: l)) = (s.setFld f v).setFlds l := rfl
    rw [this, ih, State.word_setFld]; rfl

theorem State.word_addFld (f : Fld) (n a : Nat) : (s.addFld f n).word a = wordAfter a [plus s f n] (s.word a) :=
  State.word_setFld _ _ _ _

/-- A field of a word after one field write, where the fields are the same or do not overlap. -/
theorem State.fld_setFld_same (f : Fld) (v : Nat) (h : f.lsb + f.width ≤ 32) : (s.setFld f v).fld f = v % 2 ^ f.width := by
  unfold State.fld State.setFld
  rw [State.word_setWord, if_pos rfl, bitsOf_putBits_self _ _ _ _ h]

/-- Two fields share no bit. -/
def Fld.apart (f g : Fld) : Bool :=
  f.addr != g.addr || (decide (f.lsb + f.width ≤ 32) && (decide (f.lsb + f.width ≤ g.lsb) || decide (g.lsb + g.width ≤ f.lsb)))

theorem State.fld_setFld_apart (f g : Fld) (v : Nat) (h : f.apart g = true) : (s.setFld f v).fld g = s.fld g := by
  unfold State.fld State.setFld
  rw [State.word_setWord]
  by_cases e : f.addr = g.addr
  · simp [Fld.apart, e] at h
    rw [if_pos e]
    obtain ⟨h1, h2 | h2⟩ := h
    · rw [bitsOf_putBits_above _ _ _ _ _ _ h1 h2, e]
    · rw [bitsOf_putBits_below _ _ _ _ _ _ h1 h2, e]
  · rw [if_neg e]

@[simp] theorem State.fld_lt (f : Fld) : s.fld f < 2 ^ f.width := bitsOf_lt _ _ _

/-- Every part but the registers stands after a list of field writes. -/
theorem State.setFlds_eq (l : List (Fld × Nat)) : ∃ r, s.setFlds l = { s with regs := r } := by
  induction l generalizing s with
  | nil => exact ⟨s.regs, rfl⟩
  | cons p l ih =>
    obtain ⟨r, hr⟩ := ih (s.setFld p.1 p.2)
    exact ⟨r, by rw [show s.setFlds (p :: l) = (s.setFld p.1 p.2).setFlds l from rfl, hr]; rfl⟩

@[simp] theorem State.setFlds_pending (l : List (Fld × Nat)) : (s.setFlds l).pending = s.pending := by
  obtain ⟨r, h⟩ := s.setFlds_eq l; rw [h]
@[simp] theorem State.setFlds_edgeRegs (l : List (Fld × Nat)) : (s.setFlds l).edgeRegs = s.edgeRegs := by
  obtain ⟨r, h⟩ := s.setFlds_eq l; rw [h]
@[simp] theorem State.setFlds_turn (l : List (Fld × Nat)) : (s.setFlds l).turn = s.turn := by
  obtain ⟨r, h⟩ := s.setFlds_eq l; rw [h]
@[simp] theorem State.setFlds_free (l : List (Fld × Nat)) : (s.setFlds l).free = s.free := by
  obtain ⟨r, h⟩ := s.setFlds_eq l; rw [h]
@[simp] theorem State.setFlds_answer (l : List (Fld × Nat)) : (s.setFlds l).answer = s.answer := by
  obtain ⟨r, h⟩ := s.setFlds_eq l; rw [h]
@[simp] theorem State.setFlds_memory (l : List (Fld × Nat)) : (s.setFlds l).memory = s.memory := by
  obtain ⟨r, h⟩ := s.setFlds_eq l; rw [h]
@[simp] theorem State.setFlds_power (l : List (Fld × Nat)) : (s.setFlds l).power = s.power := by
  obtain ⟨r, h⟩ := s.setFlds_eq l; rw [h]
@[simp] theorem State.setFlds_pins (l : List (Fld × Nat)) : (s.setFlds l).pins = s.pins := by
  obtain ⟨r, h⟩ := s.setFlds_eq l; rw [h]
@[simp] theorem State.setFlds_mgmt (l : List (Fld × Nat)) : (s.setFlds l).mgmt = s.mgmt := by
  obtain ⟨r, h⟩ := s.setFlds_eq l; rw [h]
@[simp] theorem State.setFlds_collector (l : List (Fld × Nat)) : (s.setFlds l).collector = s.collector := by
  obtain ⟨r, h⟩ := s.setFlds_eq l; rw [h]
@[simp] theorem State.setFlds_host (l : List (Fld × Nat)) : (s.setFlds l).host = s.host := by
  obtain ⟨r, h⟩ := s.setFlds_eq l; rw [h]
@[simp] theorem State.setFlds_dma (l : List (Fld × Nat)) : (s.setFlds l).dma = s.dma := by
  obtain ⟨r, h⟩ := s.setFlds_eq l; rw [h]
@[simp] theorem State.setFlds_store (l : List (Fld × Nat)) : (s.setFlds l).store = s.store := by
  obtain ⟨r, h⟩ := s.setFlds_eq l; rw [h]
@[simp] theorem State.setFlds_cistern (l : List (Fld × Nat)) : (s.setFlds l).cistern = s.cistern := by
  obtain ⟨r, h⟩ := s.setFlds_eq l; rw [h]
@[simp] theorem State.setFlds_flash (l : List (Fld × Nat)) : (s.setFlds l).flash = s.flash := by
  obtain ⟨r, h⟩ := s.setFlds_eq l; rw [h]
@[simp] theorem State.setFlds_galley (l : List (Fld × Nat)) : (s.setFlds l).galley = s.galley := by
  obtain ⟨r, h⟩ := s.setFlds_eq l; rw [h]
@[simp] theorem State.setFlds_sluice (l : List (Fld × Nat)) : (s.setFlds l).sluice = s.sluice := by
  obtain ⟨r, h⟩ := s.setFlds_eq l; rw [h]
@[simp] theorem State.setFlds_nv (l : List (Fld × Nat)) : (s.setFlds l).nv = s.nv := by
  obtain ⟨r, h⟩ := s.setFlds_eq l; rw [h]
@[simp] theorem State.setFlds_board (l : List (Fld × Nat)) : (s.setFlds l).board = s.board := by
  obtain ⟨r, h⟩ := s.setFlds_eq l; rw [h]
@[simp] theorem State.setFlds_dom (l : List (Fld × Nat)) (d : Fin 24) : (s.setFlds l).dom d = s.dom d := by
  simp only [State.dom, State.setFlds_power]
@[simp] theorem State.setFlds_ctl (l : List (Fld × Nat)) (c : Fin 2) : (s.setFlds l).ctl c = s.ctl c := by
  simp only [State.ctl, State.setFlds_host]

/-! ### Words held for the turn-stepped units -/

@[simp] theorem State.holdWord_regs (a : Nat) : (s.holdWord a).regs = s.regs := by
  unfold State.holdWord; split <;> rfl
@[simp] theorem State.holdWord_pending (a : Nat) : (s.holdWord a).pending = s.pending := by
  unfold State.holdWord; split <;> rfl
@[simp] theorem State.holdWord_turn (a : Nat) : (s.holdWord a).turn = s.turn := by
  unfold State.holdWord; split <;> rfl
@[simp] theorem State.holdWord_free (a : Nat) : (s.holdWord a).free = s.free := by
  unfold State.holdWord; split <;> rfl
@[simp] theorem State.holdWord_answer (a : Nat) : (s.holdWord a).answer = s.answer := by
  unfold State.holdWord; split <;> rfl
@[simp] theorem State.holdWord_memory (a : Nat) : (s.holdWord a).memory = s.memory := by
  unfold State.holdWord; split <;> rfl
@[simp] theorem State.holdWord_power (a : Nat) : (s.holdWord a).power = s.power := by
  unfold State.holdWord; split <;> rfl
@[simp] theorem State.holdWord_pins (a : Nat) : (s.holdWord a).pins = s.pins := by
  unfold State.holdWord; split <;> rfl
@[simp] theorem State.holdWord_mgmt (a : Nat) : (s.holdWord a).mgmt = s.mgmt := by
  unfold State.holdWord; split <;> rfl
@[simp] theorem State.holdWord_collector (a : Nat) : (s.holdWord a).collector = s.collector := by
  unfold State.holdWord; split <;> rfl
@[simp] theorem State.holdWord_host (a : Nat) : (s.holdWord a).host = s.host := by
  unfold State.holdWord; split <;> rfl
@[simp] theorem State.holdWord_dma (a : Nat) : (s.holdWord a).dma = s.dma := by
  unfold State.holdWord; split <;> rfl
@[simp] theorem State.holdWord_store (a : Nat) : (s.holdWord a).store = s.store := by
  unfold State.holdWord; split <;> rfl
@[simp] theorem State.holdWord_cistern (a : Nat) : (s.holdWord a).cistern = s.cistern := by
  unfold State.holdWord; split <;> rfl
@[simp] theorem State.holdWord_flash (a : Nat) : (s.holdWord a).flash = s.flash := by
  unfold State.holdWord; split <;> rfl
@[simp] theorem State.holdWord_galley (a : Nat) : (s.holdWord a).galley = s.galley := by
  unfold State.holdWord; split <;> rfl
@[simp] theorem State.holdWord_sluice (a : Nat) : (s.holdWord a).sluice = s.sluice := by
  unfold State.holdWord; split <;> rfl
@[simp] theorem State.holdWord_nv (a : Nat) : (s.holdWord a).nv = s.nv := by
  unfold State.holdWord; split <;> rfl
@[simp] theorem State.holdWord_board (a : Nat) : (s.holdWord a).board = s.board := by
  unfold State.holdWord; split <;> rfl
@[simp] theorem State.holdWord_word (a x : Nat) : (s.holdWord a).word x = s.word x := by
  simp only [State.word, State.holdWord_regs]
@[simp] theorem State.holdWord_fld (a : Nat) (f : Fld) : (s.holdWord a).fld f = s.fld f := by
  simp only [State.fld, State.holdWord_word]

/-! ### Accesses that reach their domain -/

/-- An access to a domain that is ON restarts its idle timer, and nothing else. -/
theorem State.touch_on (n : Fin 24) (client : Nat) (h : (s.dom n).state = .on) : s.touch n client = s.restartIdle n := by
  simp [State.touch, h]

/-- An access to a domain that is ON runs at once. -/
theorem State.gate_on (n : Fin 24) (client addr : Nat) (write : Bool) (i : Instr) (k : State → State)
    (h : (s.dom n).state = .on) : s.gate n client addr write i k = k (s.restartIdle n) := by
  have hd : s.isDead n = false := by simp [State.isDead, h]
  have ho : (s.restartIdle n).isOn n = true := by simp [State.isOn, State.restartIdle, h]
  simp [State.gate, hd, State.touch_on s n client h, ho]

/-- A setup write that reaches its register runs at once. -/
theorem State.setupWrite_reaches (client a : Nat) (v : Word) (i : Instr) (k : State → State) (h : reaches s client a) :
    s.setupWrite client a v i k = k (s.restartIdle (blockDomain a)) := by
  simp [State.setupWrite, h.1, State.gate_on _ _ _ _ _ _ _ h.2]

@[simp] theorem State.restartIdle_dom_state (n m : Fin 24) : noIdle ((s.restartIdle n).dom m) = noIdle (s.dom m) := by
  by_cases h : m = n
  · subst h; simp [State.restartIdle, noIdle]
  · simp [State.restartIdle, State.onDom_dom_ne _ _ h]

end Sys2Proof.Machine
end

