-- ==== Sys2Proof/Laws/Frame.lean ====
section
/-! SUPPORT. Frames compose: the frame of each shared operation, once, so that a command's frame is put together from
those of the operations it calls. -/

namespace Sys2Proof.Safety

open Sys2Proof.Machine

theorem Part.same_refl (p : Part) (s : State) : p.same s s := by cases p <;> simp [Part.same]

theorem Part.same_trans {p : Part} {s t u : State} (h : p.same s t) (k : p.same t u) : p.same s u := by
  cases p
  case power =>
    simp only [Part.same] at *
    have := congrArg (fun x : Power => { x with doms := s.power.doms }) k
    exact this.trans h
  case mgmt =>
    simp only [Part.same] at *
    have := congrArg (fun x : Mgmt => { x with log := s.mgmt.log, logDropped := s.mgmt.logDropped }) k
    exact this.trans h
  case idle => simp only [Part.same] at *; exact fun n => (k n).trans (h n)
  case doms => simp only [Part.same] at *; exact fun n => (k n).trans (h n)
  case log => simp only [Part.same] at *; exact ⟨k.1.trans h.1, k.2.trans h.2⟩
  all_goals simp only [Part.same] at *; exact k.trans h

theorem Frame.refl (s : State) : Frame [] [] s s := ⟨fun p _ => p.same_refl s, fun _ => rfl⟩

theorem Frame.trans {P Q : List Part} {V W : List (Fld × Nat)} {s t u : State} (h : Frame P V s t) (k : Frame Q W t u) :
    Frame (P ++ Q) (V ++ W) s u :=
  ⟨fun p hp => Part.same_trans (h.1 p fun m => hp (List.mem_append_left _ m)) (k.1 p fun m => hp (List.mem_append_right _ m)),
    fun a => by rw [k.2, h.2, wordAfter_append]⟩

theorem Frame.mono {P Q : List Part} {W : List (Fld × Nat)} {s t : State} (h : Frame P W s t) (hs : P ⊆ Q) : Frame Q W s t :=
  ⟨fun p hp => h.1 p fun m => hp (hs m), h.2⟩

/-! ### Register writes -/

theorem frame_setFld (s : State) (f : Fld) (v : Nat) : Frame [] [(f, v)] s (s.setFld f v) :=
  ⟨fun p _ => by cases p <;> simp [Part.same], fun a => s.word_setFld f v a⟩

theorem frame_setFlds (s : State) (l : List (Fld × Nat)) : Frame [] l s (s.setFlds l) := by
  induction l generalizing s with
  | nil => exact Frame.refl s
  | cons p l ih => exact (frame_setFld s p.1 p.2).trans (ih (s.setFld p.1 p.2))

theorem frame_addFld (s : State) (f : Fld) (n : Nat) : Frame [] [plus s f n] s (s.addFld f n) := frame_setFld _ _ _

theorem frame_subFld (s : State) (f : Fld) (n : Nat) : Frame [] [(f, s.fld f - n)] s (s.subFld f n) := frame_setFld _ _ _

/-! ### Lenses -/

theorem frame_onMemory (s : State) (f : Memory → Memory) : Frame [.bytes, .memory] [] s (s.onMemory f) :=
  ⟨fun p hp => by cases p <;> simp_all [Part.same], fun _ => rfl⟩

/-- A change of the memories that leaves the bytes alone. -/
theorem frame_onMemory_keep (s : State) (f : Memory → Memory) (h : (f s.memory).bytes = s.memory.bytes) :
    Frame [.memory] [] s (s.onMemory f) :=
  ⟨fun p hp => by cases p <;> simp_all [Part.same], fun _ => rfl⟩

/-- A change of the bytes of memory alone. -/
theorem frame_onMemory_bytes (s : State) (f : Memory → Memory)
    (h : { f s.memory with bytes := [] } = { s.memory with bytes := [] }) : Frame [.bytes] [] s (s.onMemory f) :=
  ⟨fun p hp => by cases p <;> simp_all [Part.same], fun _ => rfl⟩

theorem frame_onPins (s : State) (f : Pins → Pins) : Frame [.pins] [] s (s.onPins f) :=
  ⟨fun p hp => by cases p <;> simp_all [Part.same], fun _ => rfl⟩

theorem frame_onCollector (s : State) (f : Collector → Collector) : Frame [.collector] [] s (s.onCollector f) :=
  ⟨fun p hp => by cases p <;> simp_all [Part.same], fun _ => rfl⟩

theorem frame_onHost (s : State) (f : Headgate → Headgate) : Frame [.host] [] s (s.onHost f) :=
  ⟨fun p hp => by cases p <;> simp_all [Part.same], fun _ => rfl⟩

theorem frame_onStore (s : State) (f : Store → Store) : Frame [.store] [] s (s.onStore f) :=
  ⟨fun p hp => by cases p <;> simp_all [Part.same], fun _ => rfl⟩

theorem frame_onCistern (s : State) (f : Cistern → Cistern) : Frame [.cistern] [] s (s.onCistern f) :=
  ⟨fun p hp => by cases p <;> simp_all [Part.same], fun _ => rfl⟩

theorem frame_onMgmt (s : State) (f : Mgmt → Mgmt) (h : (f s.mgmt).log = s.mgmt.log ∧ (f s.mgmt).logDropped = s.mgmt.logDropped) :
    Frame [.mgmt] [] s (s.onMgmt f) :=
  ⟨fun p hp => by cases p <;> simp_all [Part.same], fun _ => rfl⟩

/-- A change of the power controller that leaves the domains alone. -/
theorem frame_onPower (s : State) (f : Power → Power) (h : (f s.power).doms = s.power.doms) : Frame [.power] [] s (s.onPower f) :=
  ⟨fun p hp => by cases p <;> simp_all [Part.same, State.dom], fun _ => rfl⟩

theorem frame_onDma (s : State) (c : Fin 32) (f : DmaChan → DmaChan) : Frame [.dma] [] s (s.onDma c f) :=
  ⟨fun p hp => by cases p <;> simp_all [Part.same], fun _ => rfl⟩

theorem frame_onBank (s : State) (b : Fin 2) (f : StoreBank → StoreBank) : Frame [.store] [] s (s.onBank b f) :=
  frame_onStore _ _

theorem frame_onCtl (s : State) (c : Fin 2) (f : Controller → Controller) : Frame [.host] [] s (s.onCtl c f) :=
  frame_onHost _ _

theorem frame_tookFree (s : State) : Frame [.free] [] s s.tookFree :=
  ⟨fun p hp => by cases p <;> simp_all [Part.same], fun _ => rfl⟩

theorem frame_answer (s : State) (x : Option Answer) : Frame [.answer] [] s { s with answer := x } :=
  ⟨fun p hp => by cases p <;> simp_all [Part.same, State.dom], fun _ => rfl⟩

theorem frame_onGalley (s : State) (f : Galley → Galley) : Frame [.galley] [] s (s.onGalley f) :=
  ⟨fun p hp => by cases p <;> simp_all [Part.same], fun _ => rfl⟩

theorem frame_onFlash (s : State) (f : Flash → Flash) : Frame [.flash] [] s (s.onFlash f) :=
  ⟨fun p hp => by cases p <;> simp_all [Part.same], fun _ => rfl⟩

theorem frame_onSluice (s : State) (f : Sluice → Sluice) : Frame [.sluice] [] s (s.onSluice f) :=
  ⟨fun p hp => by cases p <;> simp_all [Part.same], fun _ => rfl⟩

theorem frame_onNv (s : State) (f : NonVol → NonVol) : Frame [.nv] [] s (s.onNv f) :=
  ⟨fun p hp => by cases p <;> simp_all [Part.same], fun _ => rfl⟩

theorem frame_captureTele (s : State) : Frame [.mgmt] [] s s.captureTele := frame_onMgmt _ _ ⟨rfl, rfl⟩

theorem frame_holdWord (s : State) (a : Nat) : Frame [.edgeRegs] [] s (s.holdWord a) :=
  ⟨fun p hp => by cases p <;> simp_all [Part.same, State.dom], fun _ => by simp [wordAfter]⟩

/-! ### Domains -/

theorem dom_onDom (s : State) (n m : Fin 24) (f : Domain → Domain) :
    (s.onDom n f).dom m = if m = n then f (s.dom m) else s.dom m := by
  by_cases h : m = n
  · subst h; simp
  · simp [h, State.onDom_dom_ne _ _ h]

theorem frame_onDom (s : State) (n : Fin 24) (f : Domain → Domain) : Frame [.idle, .doms] [] s (s.onDom n f) :=
  ⟨fun p hp => by cases p <;> simp_all [Part.same, State.onDom], fun _ => rfl⟩

/-- A change of one domain that leaves its idle timer alone. -/
theorem frame_onDom_keep (s : State) (n : Fin 24) (f : Domain → Domain) (h : ∀ d, (f d).idleFrom = d.idleFrom) :
    Frame [.doms] [] s (s.onDom n f) := by
  refine ⟨fun p hp => ?_, fun _ => rfl⟩
  cases p
  case idle => intro m; rw [dom_onDom]; split <;> simp [h]
  all_goals simp_all [Part.same, State.onDom]

theorem frame_restartIdle (s : State) (n : Fin 24) : Frame [.idle] [] s (s.restartIdle n) := by
  refine ⟨fun p hp => ?_, fun _ => rfl⟩
  cases p
  case doms => intro m; exact State.restartIdle_dom_state s n m
  all_goals simp_all [Part.same, State.restartIdle, State.onDom]

/-! ### The log and the collector -/

theorem frame_log (s : State) (code source client param : Nat) : Frame [.log] [] s (s.log code source client param) := by
  refine ⟨fun p hp => ?_, fun _ => rfl⟩
  cases p
  case mgmt => simp only [Part.same, State.log, State.onMgmt]; split <;> rfl
  all_goals simp_all [Part.same]

theorem frame_logWrite (s : State) (client a : Nat) (v : Word) : Frame [.log] [] s (s.logWrite client a v) := frame_log _ _ _ _ _

theorem frame_logUncoded (s : State) (u : Uncoded) (client param : Nat) : Frame [.log] [] s (s.logUncoded u client param) :=
  frame_log _ _ _ _ _

/-- One entry is in the log, or the full buffer has counted it. -/
theorem logged_log (s : State) (code source client param : Nat) : logged s (s.log code source client param) code source client param := by
  unfold logged State.log State.onMgmt
  by_cases h : s.mgmt.log.length < 8192
  · simp [h, entryOf]
  · simp [h]

/-- An entry made from a state that has the log, the time and the turn of `s` is an entry of `s`. -/
theorem logged_log_of {s x : State} {code source client param : Nat} (h1 : x.mgmt.log = s.mgmt.log)
    (h2 : x.mgmt.logDropped = s.mgmt.logDropped) (h3 : x.turn = s.turn) (h4 : x.mgmt.timestamp = s.mgmt.timestamp) :
    logged s (x.log code source client param) code source client param := by
  have h := logged_log x code source client param
  unfold logged entryOf State.timeMs at *
  rwa [h1, h2, h3, h4] at h

section
variable {s t : State} {code source client param : Nat}
@[simp] theorem logged_setFld (f : Fld) (v : Nat) : logged s (t.setFld f v) code source client param ↔ logged s t code source client param := Iff.rfl
@[simp] theorem logged_addFld (f : Fld) (v : Nat) : logged s (t.addFld f v) code source client param ↔ logged s t code source client param := Iff.rfl
@[simp] theorem logged_onMemory (f : Memory → Memory) : logged s (t.onMemory f) code source client param ↔ logged s t code source client param := Iff.rfl
@[simp] theorem logged_onPower (f : Power → Power) : logged s (t.onPower f) code source client param ↔ logged s t code source client param := Iff.rfl
@[simp] theorem logged_onHost (f : Headgate → Headgate) : logged s (t.onHost f) code source client param ↔ logged s t code source client param := Iff.rfl
@[simp] theorem logged_onStore (f : Store → Store) : logged s (t.onStore f) code source client param ↔ logged s t code source client param := Iff.rfl
@[simp] theorem logged_onNv (f : NonVol → NonVol) : logged s (t.onNv f) code source client param ↔ logged s t code source client param := Iff.rfl
@[simp] theorem logged_onSluice (f : Sluice → Sluice) : logged s (t.onSluice f) code source client param ↔ logged s t code source client param := Iff.rfl
@[simp] theorem logged_onGalley (f : Galley → Galley) : logged s (t.onGalley f) code source client param ↔ logged s t code source client param := Iff.rfl
@[simp] theorem logged_onFlash (f : Flash → Flash) : logged s (t.onFlash f) code source client param ↔ logged s t code source client param := Iff.rfl
@[simp] theorem logged_onPins (f : Pins → Pins) : logged s (t.onPins f) code source client param ↔ logged s t code source client param := Iff.rfl
@[simp] theorem logged_onCistern (f : Cistern → Cistern) : logged s (t.onCistern f) code source client param ↔ logged s t code source client param := Iff.rfl
@[simp] theorem logged_captureTele : logged s (t.captureTele) code source client param ↔ logged s t code source client param := Iff.rfl
@[simp] theorem logged_restartIdle (n : Fin 24) : logged s (t.restartIdle n) code source client param ↔ logged s t code source client param := Iff.rfl
@[simp] theorem logged_onDom (n : Fin 24) (f : Domain → Domain) : logged s (t.onDom n f) code source client param ↔ logged s t code source client param := Iff.rfl
@[simp] theorem logged_setFlds (l : List (Fld × Nat)) : logged s (t.setFlds l) code source client param ↔ logged s t code source client param := by
  simp [logged]
end

/-- A command does what its next state shows. -/
theorem does_of {i : Instr} {s t : State} {P : List Part} {W : List (Fld × Nat)} {Q : State → Prop}
    (h : exec i s = .next t) (hf : Frame P W s t) (hq : Q t) : Does i s P W Q := ⟨t, h, hf, hq⟩

theorem completes_of {i : Instr} {s t : State} {Q : State → Prop} (h : exec i s = .next t) (hq : Q t) : Completes i s Q := ⟨t, h, hq⟩

end Sys2Proof.Safety
end

