-- ==== Sys2Proof/Laws/Memory.lean ====
section
/-! SUPPORT. Laws of memory and of the canonical forms: read after write, and that every operation over memory and the
register list keeps its form. -/

namespace Sys2Proof.Machine

open Sys2Proof.Safety

/-! ### The canonical form of memory -/

theorem rising_cons_cons {α : Type} (a b : Nat) (v w : α) (t : List (Nat × α)) :
    rising ((a, v) :: (b, w) :: t) ↔ a < b ∧ rising ((b, w) :: t) := by
  simp only [rising, List.pairwise_cons, List.forall_mem_cons]
  exact ⟨fun h => ⟨h.1.1, h.2⟩, fun h => ⟨⟨h.1, fun c hc => lt_trans h.1 (h.2.1 c hc)⟩, h.2⟩⟩

theorem rising_filter {α : Type} (p : Nat × α → Bool) {l : List (Nat × α)} (h : rising l) : rising (l.filter p) := List.Pairwise.filter p h

/-- The canonical form, by membership: addresses rising, and no byte equal to 0. -/
theorem cellsWf_iff (m : List Host.Cell) : cellsWf m = true ↔ rising m ∧ ∀ c ∈ m, c.2 ≠ 0 := by
  induction m with
  | nil => simp [cellsWf, rising]
  | cons c t ih =>
    obtain ⟨a, b⟩ := c
    cases t with
    | nil => simp [cellsWf, rising]
    | cons d t =>
      obtain ⟨a', b'⟩ := d
      rw [rising_cons_cons, List.forall_mem_cons]
      simp only [cellsWf, Bool.and_eq_true, decide_eq_true_eq, bne_iff_ne, ih]
      tauto

theorem cellsWf_memPut (a : Nat) (b : Byte) {m : List Host.Cell} (h : cellsWf m = true) : cellsWf (memPut a b m) = true := by
  rw [cellsWf_iff] at *
  unfold memPut
  split
  · exact ⟨rising_kdel a h.1, fun c hc => h.2 c (mem_kdel hc)⟩
  · exact ⟨rising_kput a b h.1, fun c hc => (mem_kput hc).elim (fun e => by rw [e]; assumption) (h.2 c)⟩

theorem cellsWf_memWrite (a : Nat) (bs : Bytes) {m : List Host.Cell} (h : cellsWf m = true) : cellsWf (memWrite a bs m) = true := by
  induction bs generalizing a m with
  | nil => exact h
  | cons b bs ih => exact ih (a + 1) (cellsWf_memPut a b h)

theorem cellsWf_filter (p : Host.Cell → Bool) {m : List Host.Cell} (h : cellsWf m = true) : cellsWf (m.filter p) = true := by
  rw [cellsWf_iff] at *
  exact ⟨rising_filter p h.1, fun c hc => h.2 c (List.mem_filter.1 hc).1⟩

theorem cellsWf_memZero (lo hi : Nat) {m : List Host.Cell} (h : cellsWf m = true) : cellsWf (memZero lo hi m) = true := cellsWf_filter _ h

theorem State.poke_wf (s : State) (a n v : Nat) (h : s.memory.wf = true) : (s.poke a n v).memory.wf = true := cellsWf_memWrite _ _ h

theorem reset_memory_wf : State.reset.memory.wf = true := rfl

/-! ### Read after write -/

theorem memGet_memPut (x a : Nat) (b : Byte) (m : List Host.Cell) : memGet x (memPut a b m) = if x = a then b else memGet x m := by
  unfold memGet memPut
  by_cases hb : b = 0
  · rw [if_pos hb]
    by_cases hx : x = a
    · subst hx; simp [hb]
    · simp [hx, klook_kdel_ne _ hx]
  · rw [if_neg hb]
    by_cases hx : x = a
    · subst hx; simp
    · simp [hx, klook_kput_ne _ _ hx]

/-- A byte after a run of bytes has been written. -/
theorem memGet_memWrite (x a : Nat) (bs : Bytes) (m : List Host.Cell) :
    memGet x (memWrite a bs m) = if a ≤ x ∧ x < a + bs.length then bs.getD (x - a) 0 else memGet x m := by
  induction bs generalizing a m with
  | nil => simp [memWrite]
  | cons b bs ih =>
    rw [memWrite, ih, memGet_memPut, List.length_cons]
    by_cases h1 : a + 1 ≤ x ∧ x < a + 1 + bs.length
    · rw [if_pos h1, if_pos (by omega), show x - a = (x - (a + 1)) + 1 by omega, List.getD_cons_succ]
    · rw [if_neg h1]
      by_cases h2 : x = a
      · subst h2; rw [if_pos rfl, if_pos (by omega)]; simp
      · rw [if_neg h2, if_neg (by omega)]

/-- A byte that a sweep or a fill sets to 0 reads 0, and every other byte stands. -/
theorem memGet_memZero (x lo hi : Nat) (m : List Host.Cell) :
    memGet x (memZero lo hi m) = if lo ≤ x ∧ x < hi then 0 else memGet x m := by
  unfold memGet memZero
  induction m with
  | nil => simp [klook]
  | cons c t ih =>
    obtain ⟨a, b⟩ := c
    rw [List.filter_cons]
    by_cases hk : (decide (a < lo) || decide (hi ≤ a)) = true
    · rw [if_pos hk]
      simp only [klook]
      by_cases e : a = x
      · subst e; simp at hk; rw [if_pos rfl, if_neg (by omega), if_pos rfl]
      · rw [if_neg e, if_neg e]; exact ih
    · rw [if_neg hk, ih]
      simp only [klook]
      by_cases e : a = x
      · subst e; simp at hk; rw [if_pos (by omega), if_pos (by omega)]
      · rw [if_neg e]

/-! ### The register list -/

theorem regsWf_iff (l : List (Nat × Word)) : regsWf l = true ↔ rising l ∧ ∀ c ∈ l, c.2 ≠ resetWord c.1 := by
  induction l with
  | nil => simp [regsWf, rising]
  | cons c t ih =>
    obtain ⟨a, b⟩ := c
    cases t with
    | nil => simp [regsWf, rising]
    | cons d t =>
      obtain ⟨a', b'⟩ := d
      rw [rising_cons_cons, List.forall_mem_cons]
      simp only [regsWf, Bool.and_eq_true, decide_eq_true_eq, bne_iff_ne, ih]
      tauto

theorem regsWf_setWord (s : State) (a : Nat) (w : Word) (h : regsWf s.regs = true) : regsWf (s.setWord a w).regs = true := by
  rw [regsWf_iff] at *
  show rising (putReg a w s.regs) ∧ ∀ c ∈ putReg a w s.regs, c.2 ≠ resetWord c.1
  unfold putReg
  split
  · exact ⟨rising_kdel a h.1, fun c hc => h.2 c (mem_kdel hc)⟩
  · exact ⟨rising_kput a w h.1, fun c hc => (mem_kput hc).elim (fun e => by rw [e]; assumption) (h.2 c)⟩

theorem regsWf_setFld (s : State) (f : Fld) (v : Nat) (h : regsWf s.regs = true) : regsWf (s.setFld f v).regs = true :=
  regsWf_setWord _ _ _ h

theorem regsWf_setFlds (s : State) (l : List (Fld × Nat)) (h : regsWf s.regs = true) : regsWf (s.setFlds l).regs = true := by
  induction l generalizing s with
  | nil => exact h
  | cons p l ih => exact ih _ (regsWf_setFld s p.1 p.2 h)

/-- Field writes keep both canonical forms. -/
theorem canonical_setFlds (s : State) (l : List (Fld × Nat)) (h : canonical s = true) : canonical (s.setFlds l) = true := by
  simp only [canonical, Bool.and_eq_true] at *
  refine ⟨?_, regsWf_setFlds s l h.2⟩
  obtain ⟨r, hr⟩ := s.setFlds_eq l
  rw [hr]; exact h.1

end Sys2Proof.Machine
end

