-- ==== Sys2Proof/WellFormed.lean ====
section
/-! DEFINITION. Which commands are well formed: every operand fits the field that carries it. Meanings do not assume it: an operand
out of range has the effect that its field's rules give it, most often none. -/

namespace Sys2Proof

/-- A management or admin path of Table 14.1, and a 16-bit identifier. -/
def admWf (a : Adm) : Bool := decide (a.path < 10) && decide (a.cid < 65536)

/-- CNS and CSI are bytes. -/
def idWf (i : IdentifySel) : Bool := decide (i.cns < 256) && decide (i.csi < 256)

/-- A unit has four codewords. -/
def patrolWf (p : PatrolSample) : Bool := decide (p.cw < 4)

def refWf (r : CmdRef) : Bool := decide (r.sqid < 65536) && decide (r.cid < 65536)

/-- A submission entry: the widths of its fields (R59, R64). -/
def sqeWf (q : Sqe) : Bool :=
  decide (q.cid < 65536) && decide (q.opcode < 256) && decide (q.nsid < 2 ^ 32) && decide (q.slba < 2 ^ 64) && decide (q.nlb < 65536) &&
    decide (q.prinfo < 16) && decide (q.prinfoR < 16) && decide (q.ilbrt < 2 ^ 32) && decide (q.lbat < 65536) && decide (q.lbatm < 65536) &&
    decide (q.zsa < 256) && decide (q.dtype < 16) && decide (q.dspec < 65536) && q.ranges.all fun r => decide (r.1 < 2 ^ 64) && decide (r.2 < 2 ^ 32)

/-- A map update request: the widths of Table 05.9. -/
def mapReqWf (q : MapReq) : Bool :=
  decide (q.target < 2 ^ 64) && decide (q.expect < 2 ^ 32) && decide (q.new < 2 ^ 32) && decide (q.slot < 2 ^ 32) && decide (q.aux < 2 ^ 32)

/-- A decode names a decoder, a ladder step and a place of the media. -/
def jobWf (j : DecodeJob) : Bool :=
  decide (j.decoder < (if j.soft then 8 else 32)) && decide (j.step < 7) && decide (j.die < 1024) && decide (j.block < 65536) &&
    decide (j.page < 65536)

def miWf : MiCmd → Bool
  | .readDataStructure d => decide (d < 256)
  | .configSet _ v => decide (v < 2 ^ 32)
  | .vpdRead o n => decide (o < 65536) && decide (n < 65536)
  | .vpdWrite o d => decide (o < 65536) && decide (d.length < 65536)
  | .subsystemHealth _ | .controllerHealth _ | .configGet _ | .reset => true

def nsWf : NsMgmt → Bool
  | .create n l _ p _ _ h => decide (n < 2 ^ 64) && decide (l < 16) && decide (p < 8) && h.all fun x => decide (x < 64)
  | .delete n => decide (n < 2 ^ 32)

def consoleWf : ConsoleEdition → Bool
  | .stage n l _ => decide (n < 2 ^ 32) && decide (l < 2 ^ 32)
  | .commit n | .revert n => decide (n < 2 ^ 32)

def adminWf : AdminCmd → Bool
  | .getLogPage l p => decide (l < 256) && decide (p < 128)
  | .identify c i n => decide (c < 256) && decide (i < 256) && decide (n < 2 ^ 32)
  | .setFeatures f _ _ _ _ | .getFeatures f _ => decide (f < 256)
  | .namespaceManagement s => nsWf s
  | .namespaceAttachment n c _ => decide (n < 2 ^ 32) && decide (c < 4)
  | .imageDownload o n _ => decide (o < 2 ^ 32) && decide (n < 2 ^ 32)
  | .firmwareCommit a f => decide (a < 8) && decide (f < 8)
  | .deviceSelfTest s n => decide (s < 16) && decide (n < 2 ^ 32)
  | .directiveSend n t o v => decide (n < 2 ^ 32) && decide (t < 256) && decide (o < 256) && decide (v < 2 ^ 32)
  | .directiveReceive n t o => decide (n < 2 ^ 32) && decide (t < 256) && decide (o < 256)
  | .formatNvm n s l p _ _ => decide (n < 2 ^ 32) && decide (s < 8) && decide (l < 16) && decide (p < 8)
  | .sanitize a _ => decide (a < 8)
  | .editionStage n l _ => decide (n < 2 ^ 32) && decide (l < 2 ^ 32)
  | .editionCommit n | .editionRevert n => decide (n < 2 ^ 32)
  | .excluded | .culvertRebuildStatus => true

/-- What a turn edge reports: unit indexes of R308, and V_HOLD's 10-bit code. -/
def edgeWf (e : EdgeEnv) : Bool :=
  e.overruns.all (fun u => decide (u < 0x453)) && e.mismatches.all (fun u => decide (u < 0x454)) && decide (e.vhold < 1024) &&
    e.pairUpsets.all fun u => decide (0x440 ≤ u.1) && decide (u.1 ≤ 0x443) && decide (u.2.2 < 2)

/-- A board: at most 12 DRAM channels and 64 NAND channels, each die position at most 8. -/
def boardWf (b : Board) : Bool :=
  decide (b.dram.length = 12) && decide (b.diesPerCe.length = 64) && (b.diesPerCe.all fun d => decide (d.1 ≤ 8) && decide (d.2 ≤ 8)) &&
    b.badBlocks.all fun x => decide (x.1 < 1024) && decide (x.2 < 65536)

/-- Every operand of a command fits its field. -/
def Instr.wf (i : Instr) : Bool :=
  match i with
  | .powerOnReset b => boardWf b
  | .porNFall => true
  | .railMonitorTrip _ => true
  | .bootEnd => true
  | .turnEdge e => edgeWf e
  | .permanentFault unit => decide (unit < 1108)
  | .spanEdge => true
  | .rotationEdge => true
  | .sqTailDoorbell _ qid value => decide (qid < 65536) && decide (value < 65536)
  | .cqHeadDoorbell _ qid value => decide (qid < 65536) && decide (value < 65536)
  | .entryFetch _ sqid entries rttNs => decide (sqid < 65536) && (entries.all sqeWf) && decide (rttNs < 2 ^ 64)
  | .fetchResumeOnContext _ => true
  | .admissionDecision => true
  | .bestEffortCommit r => refWf r
  | .flush r => refWf r
  | .write r => refWf r
  | .read r => refWf r
  | .compare r => refWf r
  | .writeZeroes r => refWf r
  | .datasetManagement r => refWf r
  | .verify r => refWf r
  | .copy r => refWf r
  | .zoneManagementSend r => refWf r
  | .zoneManagementReceive r => refWf r
  | .zoneAppend r => refWf r
  | .createIoSq a qid qsize cqid _ => admWf a && decide (qid < 65536) && decide (qsize < 65536) && decide (cqid < 65536)
  | .createIoCq a qid qsize vector _ _ => admWf a && decide (qid < 65536) && decide (qsize < 65536) && decide (vector < 65536)
  | .deleteIoSq a qid => admWf a && decide (qid < 65536)
  | .deleteIoCq a qid => admWf a && decide (qid < 65536)
  | .getLogPage a lid lsp => admWf a && decide (lid < 256) && decide (lsp < 128)
  | .identify a cns nsid => admWf a && idWf cns && decide (nsid < 2 ^ 32)
  | .abort a sqid cid => admWf a && decide (sqid < 65536) && decide (cid < 65536)
  | .setFeatures a fid _ _ _ => admWf a && decide (fid < 256)
  | .getFeatures a fid _ => admWf a && decide (fid < 256)
  | .setTwiotLevel a _ _ => admWf a
  | .classBinding a _ _ => admWf a
  | .orderingMode a _ _ => admWf a
  | .keepAwakeFloor a _ _ _ => admWf a
  | .powerManagement a _ ps => admWf a && decide (ps < 32)
  | .timestamp a _ ms => admWf a && decide (ms < 2 ^ 48)
  | .asynchronousEventRequest a => admWf a
  | .namespaceManagement a sel => admWf a && nsWf sel
  | .namespaceAttachment a nsid ctrls _ => admWf a && decide (nsid < 2 ^ 32) && decide (ctrls < 4)
  | .firmwareImageDownload a ofst numd _ => admWf a && decide (ofst < 2 ^ 32) && decide (numd < 2 ^ 32)
  | .streamedDownloadChunk a ofst numd _ => admWf a && decide (ofst < 2 ^ 32) && decide (numd < 2 ^ 32)
  | .firmwareCommitReplace a fs => admWf a && decide (fs < 8)
  | .firmwareCommitReplaceActivate a fs => admWf a && decide (fs < 8)
  | .firmwareCommitActivate a fs => admWf a && decide (fs < 8)
  | .firmwareCommitImmediate a fs => admWf a && decide (fs < 8)
  | .clusterReload _ => true
  | .deviceSelfTestShort a nsid => admWf a && decide (nsid < 2 ^ 32)
  | .deviceSelfTestExtended a nsid => admWf a && decide (nsid < 2 ^ 32)
  | .deviceSelfTestFull a nsid => admWf a && decide (nsid < 2 ^ 32)
  | .deviceSelfTestAbort a => admWf a
  | .directiveSend a nsid dtype doper value => admWf a && decide (nsid < 2 ^ 32) && decide (dtype < 256) && decide (doper < 256) && decide (value < 2 ^ 32)
  | .directiveReceive a nsid dtype doper => admWf a && decide (nsid < 2 ^ 32) && decide (dtype < 256) && decide (doper < 256)
  | .nvmeMiSend a m => admWf a && miWf m
  | .nvmeMiReceive a m => admWf a && miWf m
  | .formatNvm a nsid ses lbaf pi _ _ => admWf a && decide (nsid < 2 ^ 32) && decide (ses < 8) && decide (lbaf < 16) && decide (pi < 8)
  | .sanitizeCryptoErase a _ => admWf a
  | .sanitizeBlockErase a _ => admWf a
  | .editionStage a number length _ => admWf a && decide (number < 2 ^ 32) && decide (length < 2 ^ 32)
  | .editionCommit a number => admWf a && decide (number < 2 ^ 32)
  | .editionRevert a number => admWf a && decide (number < 2 ^ 32)
  | .editionSwitch => true
  | .queueRestart a sqid freezeSeq => admWf a && decide (sqid < 65536) && decide (freezeSeq < 2 ^ 32)
  | .culvertRebuildStatus a => admWf a
  | .invalidAdminOpcode a opcode => admWf a && decide (opcode < 256)
  | .controllerEnable _ aqa asq acq => decide (aqa < 2 ^ 32) && decide (asq < 2 ^ 64) && decide (acq < 2 ^ 64)
  | .controllerReset _ => true
  | .nvmSubsystemReset _ _ => true
  | .shutdownNotification _ _ => true
  | .abruptShutdown _ => true
  | .fundamentalReset _ => true
  | .perstDeassert _ => true
  | .hotReset _ => true
  | .functionLevelReset _ => true
  | .linkTrained _ rate width _ => decide (rate < 8) && decide (width < 65)
  | .l0pEnable _ _ => true
  | .l1Entry _ _ => true
  | .l1Exit _ => true
  | .ecrcFailure _ => true
  | .poisonedTlp r => refWf r
  | .hostPortFailure _ => true
  | .bar2Write _ addr _ => decide (addr < 2 ^ 64)
  | .bar2ReadTimeout _ addr => decide (addr < 2 ^ 64)
  | .dieReady _ _ _ => true
  | .statusTimeout _ => true
  | .lunResetComplete _ => true
  | .retrainStart _ => true
  | .retrainTrainingEnd _ _ => true
  | .retrainRetry _ => true
  | .channelUpResume _ => true
  | .retrainReq client _ target => decide (client < 1024) && decide (target < 16)
  | .channelGroupWake _ failed => (failed.all fun x => decide (x < 64))
  | .decodeComplete job _ => jobWf job
  | .readDisturbProbe _ block cw => decide (block < 2 ^ 32) && decide (cw < 4)
  | .patrolCycle _ block page res => decide (block < 2 ^ 32) && decide (page < 65536) && patrolWf res
  | .hostPlace q => mapReqWf q
  | .condSet q => mapReqWf q
  | .mapSet q => mapReqWf q
  | .ovlSet q => mapReqWf q
  | .ovlFree q => mapReqWf q
  | .zoneUpdate q => mapReqWf q
  | .fbtSet q => mapReqWf q
  | .tableSet q => mapReqWf q
  | .journalSlotProgrammed slot => decide (slot < 65536)
  | .mupTailWrite client tail => decide (client < 1024) && decide (tail < 2 ^ 32)
  | .snapshotMark client => decide (client < 1024)
  | .snapshotComplete => true
  | .mirrorMoveStart client chan => decide (client < 1024) && decide (chan < 16)
  | .mirrorMoveComplete => true
  | .mapRepair client line => decide (client < 1024) && decide (line < 2 ^ 30)
  | .dredgeCopy lane fb unit => decide (lane < 4) && decide (fb < 2 ^ 32) && decide (unit < 2 ^ 32)
  | .victimErase lane fb => decide (lane < 4) && decide (fb < 2 ^ 32)
  | .formeBlockOpen lane _ => decide (lane < 4)
  | .formeProgramPlan lane fb => decide (lane < 4) && decide (fb < 2 ^ 32)
  | .weirEvaluation => true
  | .sustainableRateCompute => true
  | .allotmentTopup => true
  | .allotAddWrite client _ => decide (client < 1024)
  | .chanOutWrite client _ _ => decide (client < 1024)
  | .dieStateWrite client _ value => decide (client < 1024) && decide (value < 4)
  | .rebuildStart => true
  | .rebuildMemberComplete lane fb member => decide (lane < 4) && decide (fb < 2 ^ 32) && decide (member < 16)
  | .spareRecompute => true
  | .sealRequest client => decide (client < 1024)
  | .recoverRequest client => decide (client < 1024)
  | .earlyWarningEvent => true
  | .pwrFailAssert => true
  | .vHoldLow => true
  | .powerFailure => true
  | .spillEdge => true
  | .spillComplete _ => true
  | .supplyReturn b => boardWf b
  | .spillwayRelease => true
  | .cisternTestStart client => (client.all fun x => decide (x < 1024))
  | .cisternTestEnd => true
  | .cisternTestTimeout => true
  | .slotCapCompute => true
  | .thermtrip => true
  | .voteWrite client dom _ => decide (client < 1024) && decide (dom < 32)
  | .domainDrop _ => true
  | .idleTimerExpiry _ => true
  | .domainWakeOnAccess _ client => decide (client < 1024)
  | .domainWakeComplete _ => true
  | .domainRetire client _ => decide (client < 1024)
  | .conserveEntryEnd => true
  | .apstTransition ps => decide (ps < 32)
  | .conserveExitComplete => true
  | .ps3Ps4ChangeApplied => true
  | .dramHalfPs4Wake _ _ => true
  | .globalStateBroadcast client => decide (client < 1024)
  | .globalBarrier client => decide (client < 1024)
  | .barrierComplete => true
  | .dataPlaneReset client => decide (client < 1024)
  | .fabricParityError unit link => decide (unit < 1107) && decide (link < 8)
  | .retiredDomainAccess _ client addr _ => decide (client < 1024) && decide (addr < 2 ^ 64)
  | .trainingWritePattern _ => true
  | .trainingReadCompare _ => true
  | .trainingWriteReadCompare _ => true
  | .zqCalibration _ => true
  | .trainingDone _ errors lanes => decide (errors < 2 ^ 32) && decide (lanes < 2 ^ 40)
  | .modeRegisterWrite _ _ _ _ _ => true
  | .modeRegisterRead _ _ _ _ => true
  | .zeroFill _ => true
  | .fillDone _ => true
  | .dramUncorrectable block client => decide (block < 2 ^ 32) && decide (client < 1024)
  | .remapCopyComplete block => decide (block < 2 ^ 32)
  | .hammerWindowExpiry _ => true
  | .dramRefresh _ _ => true
  | .scrubUncorrectable _ block => decide (block < 2 ^ 32)
  | .sramUncorrectable code addr client _ => decide (code < 256) && decide (addr < 2 ^ 64) && decide (client < 1024)
  | .bankPowerRequest client code req => decide (client < 1024) && decide (code < 256) && decide (req < 4)
  | .bankIdleEntry code => decide (code < 256)
  | .bankWake code => decide (code < 256)
  | .bankWakeComplete code _ _ => decide (code < 256)
  | .bankLostClear client code => decide (client < 1024) && decide (code < 256)
  | .bankOwnerWrite client code owner => decide (client < 1024) && decide (code < 256) && decide (owner < 1024)
  | .bankRedirectWrite client code spare => decide (client < 1024) && decide (code < 256) && decide (spare < 256)
  | .bankDisable client code => decide (client < 1024) && decide (code < 256)
  | .columnRepair client code column => decide (client < 1024) && decide (code < 256) && decide (column < 2048)
  | .columnRepairDone _ => true
  | .ocmFlipmaskArm client _ _ _ => decide (client < 1024)
  | .dmcFlipmaskArm client _ _ _ _ => decide (client < 1024)
  | .flipMaskTaken _ client addr => decide (client < 1024) && decide (addr < 2 ^ 64)
  | .atomicMemoryOperation _ _ _ addr _ => decide (addr < 2 ^ 64)
  | .loadReserved _ _ addr => decide (addr < 2 ^ 64)
  | .storeConditional _ _ addr _ => decide (addr < 2 ^ 64)
  | .bitSetAliasWrite client addr _ _ => decide (client < 1024) && decide (addr < 2 ^ 64)
  | .bitClearAliasWrite client addr _ _ => decide (client < 1024) && decide (addr < 2 ^ 64)
  | .mailboxCollision addr _ _ => decide (addr < 2 ^ 64)
  | .dmaRingTailWrite client _ tail => decide (client < 1024) && decide (tail < 2 ^ 32)
  | .dmaDescriptor _ hostErr => (hostErr.all fun x => decide (x < 2 ^ 32))
  | .dmaBurst _ err => decide (err < 8)
  | .dmaRequestWithdrawn _ => true
  | .dmaAbort client _ => decide (client < 1024)
  | .dmaResume client _ => decide (client < 1024)
  | .dmaEnableWrite client _ _ => decide (client < 1024)
  | .fwsSequenceWrite client _ _ => decide (client < 1024)
  | .fwsSequenceTimeout => true
  | .programPage client addr _ => decide (client < 1024) && decide (addr < 2 ^ 64)
  | .eraseBlock client addr => decide (client < 1024) && decide (addr < 2 ^ 64)
  | .eraseSuspend client addr => decide (client < 1024) && decide (addr < 2 ^ 64)
  | .eraseResume client addr => decide (client < 1024) && decide (addr < 2 ^ 64)
  | .clearFlag client addr => decide (client < 1024) && decide (addr < 2 ^ 64)
  | .fwsOperationEnd _ _ pulses => decide (pulses < 2 ^ 32)
  | .fwsEraseAutoSuspend _ client _ => decide (client < 1024)
  | .fwsEraseAutoResume _ => true
  | .xoDataRead client addr => decide (client < 1024) && decide (addr < 2 ^ 64)
  | .xoWrite client _ _ => decide (client < 1024)
  | .readWindowWrite client addr _ => decide (client < 1024) && decide (addr < 2 ^ 64)
  | .dlxNowWrite client _ => decide (client < 1024)
  | .pairLoRead client addr => decide (client < 1024) && decide (addr < 2 ^ 64)
  | .rcFieldRead client addr => decide (client < 1024) && decide (addr < 2 ^ 64)
  | .irqEnableWrite client _ _ _ => decide (client < 1024)
  | .registerWrite client addr _ width => decide (client < 1024) && decide (addr < 2 ^ 64) && decide (width < 9)
  | .riderLockstepMismatch => true
  | .clusterWatchdogReset _ => true
  | .gaugeSample _ _ => true
  | .gaugeFifoPop client => decide (client < 1024)
  | .riderDoorbellSet client _ => decide (client < 1024)
  | .clusterDoorbellSet client _ _ => decide (client < 1024)
  | .uartDataRead client => decide (client < 1024)
  | .uartDataWrite client _ => decide (client < 1024)
  | .mctpRxPop client _ => decide (client < 1024)
  | .mctpTxPush client _ _ => decide (client < 1024)
  | .readNvmeMiDataStructure path dtyp => decide (path < 10) && decide (dtyp < 256)
  | .nvmSubsystemHealthStatusPoll path _ => decide (path < 10)
  | .controllerHealthStatusPoll path _ => decide (path < 10)
  | .configurationGet path _ => decide (path < 10)
  | .configurationSet path _ value => decide (path < 10) && decide (value < 2 ^ 32)
  | .vpdRead path ofs len => decide (path < 10) && decide (ofs < 2 ^ 32) && decide (len < 2 ^ 32)
  | .vpdWrite path ofs _ => decide (path < 10) && decide (ofs < 2 ^ 32)
  | .nvmeMiReset path => decide (path < 10)
  | .nvmeMiTunnelledAdmin path cid c => decide (path < 10) && decide (cid < 65536) && adminWf c
  | .consoleStatus => true
  | .consoleLog format => decide (format < 3)
  | .consoleEdition op => consoleWf op
  | .consoleSelftest stc => decide (stc < 16)
  | .selfTestInServicePass client source => decide (client < 1024) && decide (source < 10)
  | .selfTestShortRun client source => decide (client < 1024) && decide (source < 10)
  | .selfTestExtendedRun client source => decide (client < 1024) && decide (source < 10)
  | .selfTestFullRun client source => decide (client < 1024) && decide (source < 10)
  | .selfTestShutdownRun client source => decide (client < 1024) && decide (source < 10)
  | .selfTestAbort client => decide (client < 1024)
  | .selfTestSlice item inst _ => decide (item < 8) && decide (inst < 256)
  | .interruptCoalescingExpiry _ vector => decide (vector < 8192)
  | .l0pWidthRequest _ width => decide (width < 65)
  | .pwrFailRelease => true
  | .supplyReturnWithoutSpill => true
  | .riderWatchdogReset => true
  | .uartByteReceived _ _ => true
  | .mctpPacketReceived _ _ => true
  | .tapInstructionUpdate _ => true

end Sys2Proof
end

