-- ==== Sys2Proof/Tests/Slice0.lean ====
section
/-! SUPPORT. The model's own tests: ill-formed commands that are refused, one step of a command against the spec's words, and for
each statement a state and operands that meet its hypotheses together. -/

namespace Sys2Proof.Tests

set_option Elab.async false

open Sys2Proof.Machine Sys2Proof.Safety

/-! ### What a test checks -/

/-- A part of one state is that part of the other, as a test computes it. -/
def sameB (p : Part) (s t : State) : Bool :=
  match p with
  | .pending => t.pending == s.pending
  | .edgeRegs => t.edgeRegs == s.edgeRegs
  | .turn => t.turn == s.turn
  | .free => t.free == s.free
  | .answer => t.answer == s.answer
  | .bytes => t.memory.bytes == s.memory.bytes
  | .memory => { t.memory with bytes := [] } == { s.memory with bytes := [] }
  | .idle => (List.finRange 24).all fun n => (t.dom n).idleFrom == (s.dom n).idleFrom
  | .doms => (List.finRange 24).all fun n => noIdle (t.dom n) == noIdle (s.dom n)
  | .power => { t.power with doms := s.power.doms } == s.power
  | .pins => t.pins == s.pins
  | .log => t.mgmt.log == s.mgmt.log && t.mgmt.logDropped == s.mgmt.logDropped
  | .mgmt => { t.mgmt with log := s.mgmt.log, logDropped := s.mgmt.logDropped } == s.mgmt
  | .collector => t.collector == s.collector
  | .host => t.host == s.host
  | .dma => t.dma == s.dma
  | .store => t.store == s.store
  | .cistern => t.cistern == s.cistern
  | .flash => t.flash == s.flash
  | .galley => t.galley == s.galley
  | .sluice => t.sluice == s.sluice
  | .nv => t.nv == s.nv
  | .board => t.board == s.board

def allParts : List Part :=
  [.pending, .edgeRegs, .turn, .free, .answer, .bytes, .memory, .idle, .doms, .power, .pins, .log, .mgmt, .collector, .host, .dma, .store,
    .cistern, .flash, .galley, .sluice, .nv, .board]

/-- The offsets whose words can differ between two states or be written. -/
def offsets (l : List (Fld × Nat)) (s t : State) : List Nat := s.regs.map (·.1) ++ t.regs.map (·.1) ++ l.map (·.1.addr)

/-- The command answers a next state that differs in these parts and field writes only, and passes a check: what `Does` says. -/
def does (i : Instr) (s : State) (parts : List Part) (writes : List (Fld × Nat)) (p : State → Bool) : Bool :=
  match exec i s with
  | .next t =>
    (allParts.all fun q => parts.contains q || sameB q s t) && ((offsets writes s t).all fun a => t.word a == wordAfter a writes (s.word a)) && p t
  | _ => false

/-- What `Changes` says. -/
def changes (i : Instr) (s : State) (parts : List Part) (regs : List Nat) (p : State → Bool) : Bool :=
  match exec i s with
  | .next t =>
    (allParts.all fun q => parts.contains q || sameB q s t) && ((offsets [] s t).all fun a => regs.contains a || t.word a == s.word a) && p t
  | _ => false

/-- What `Completes` says. -/
def completes (i : Instr) (s : State) (p : State → Bool) : Bool := match exec i s with | .next t => p t | _ => false

/-- The command leaves the state as it is. -/
def still (i : Instr) (s : State) : Bool := match exec i s with | .next t => t == s | _ => false

/-! ### Small states -/

/-- Domains made ON. -/
def on (l : List (Fin 24)) (s : State := State.reset) : State := l.foldl (fun s n => s.onDom n fun d => { d with state := .on }) s

/-- One domain in another state. -/
def domAs (n : Fin 24) (f : Domain → Domain) (s : State := State.reset) : State := s.onDom n f

def inMode (m : Mode) (s : State := State.reset) : State := s.onPower fun p => { p with mode := m }

/-- Both controllers run in Service, with admin queues of 16 entries. -/
def hostUp (s : State := State.reset) : State :=
  let up (s : State) (c : Fin 2) : State := s.onCtl c fun x =>
    { x with en := true, rdy := true, adminSq := { qid := 0, size := 16, cqid := 0 }, adminCq := { qid := 0, size := 16 } }
  inMode .service (up (up s 0) 1)

/-- The management paths take requests: the UART, the SMBus ports and both VDM ports. -/
def pathsUp (s : State := State.reset) : State :=
  inMode .service (s.setFlds [(Reg.MBX_UART_CFG_EN, 1), (Reg.MBX_MCTP_CFG_EN 0, 1), (Reg.MBX_MCTP_CFG_EN 1, 1), (Reg.MBX_MCTP_CFG_EN 2, 1),
    (Reg.HGT_LINK_STATUS_RATE 0, 5), (Reg.HGT_LINK_STATUS_RATE 1, 5)])

/-- The fields of the completions on a controller's admin queue. -/
def answers (t : State) (c : Fin 2) : List (Nat × Nat × Nat × Nat) := (t.ctl c).adminCq.entries.map fun q => (q.cid, q.sct, q.sc, q.dw0)

/-- Every field write of a list. -/
def with_ (l : List (Fld × Nat)) (s : State := State.reset) : State := s.setFlds l

/-- Channels 0–16 are up at full rate, with one die each in service, two blocks per plane and four units in a member block; one lane. -/
def mediaUp (s : State := State.reset) : State :=
  ((List.range 17).foldl (fun s c => s.setFlds [(Reg.FCE_STATUS_STATE c, 2), (Reg.FCE_STATUS_CUR_IDX c, 0), (Reg.FCE_GEOM_B_BLOCKS_PER_PLANE c, 2),
    (Reg.SLU_DIE_STATE_STATE (16 * c), 0), (Reg.FUR_CFG_PRESENT (16 * c), 1)]) s).setFld Reg.DMC_MAP_CFG_UNITS_PER_MB 4

/-- A forme-block of lane 0 on block 0 of the dies of channels 0–15, with its table words. -/
def formeUp (f : FormeBlock → FormeBlock) (s : State := State.reset) : State :=
  let ms : List MBlock := (List.range 16).map fun c => ⟨16 * c, 0⟩
  let s := (mediaUp s).onFlash fun x => { x with formeBlocks := [f { lane := 0, b := 0, members := ms }] }
  s.onGalley fun g => { g with fbt := (List.range 16).map fun c => (c, blockWord ⟨16 * c, 0⟩) }

/-- A whole unit of owner g with empty sectors. -/
def unitOf (g : Nat) : MediaUnit :=
  { kind := 0, sectors := (List.range 4).map fun k => some (g, k, { fields := [], proof := 0 }), wrot := 0, wtemp := 0, member := 2, lane := 0, fblk := 0 }

/-- One namespace of one granule, attached to both controllers, with its table words; the domains on every path are ON. -/
def nsUp (s : State := State.reset) : State :=
  let s := on (List.finRange 24) (hostUp (mediaUp s))
  let s := s.setFlds [(Reg.DMC_MAP_GRAN_NS_BANK, 1), (Reg.PMC_CIS_SLOTS_CAP_SLOTS, 1000), (Reg.SLU_ALLOT_BAL_BALANCE, 64), (Reg.HGT_LINK_STATUS_RATE 0, 5),
    (Reg.HGT_LINK_STATUS_WIDTH 0, 4)]
  let s := ((s.poke (s.nstAddr 0 0) 4 0x80000000).poke (s.nstAddr 0 1) 4 1).poke (s.granAddr 0) 4 0x80000000
  (s.onNv fun v => { v with namespaces := [{ nsid := 1, nsze := 1024, lbaf := 0, dataGrans := 1, gbase := 0, grans := 1, attached := 3 }] }).onSluice
    fun x => { x with hold := false }

/-- An I/O command alone in its context, fetched at turn 100, observed at 99 under a class. -/
def cmdIn (e : Sqe) (cls : Nat) (s : State := State.reset) : State :=
  let up (x : Controller) : Controller := { x with cqs := [{ qid := 1, size := 16 }], sqs := [{ qid := 1, size := 16, cqid := 1, cls := cls }] }
  (s.onCtl 0 up).onHost fun h => { h with
    cmds := [{ ref := ⟨0, 1, 7⟩, sqe := e, cls := cls, ordered := false, level0 := false, stamp := 99, fetched := 100, order := 0 }] }

def atTurn (n : Nat) (s : State := State.reset) : State := { s with turn := n }

/-! ### The statements' hypotheses, computed -/

def reachesB (s : State) (client a : Nat) : Bool := !viaBar2 client && (s.dom (blockDomain a)).state == .on

theorem reaches_of {s : State} {client a : Nat} (h : reachesB s client a = true) : reaches s client a := by
  simpa [reachesB, reaches] using h

def readyB (s : State) (a : Nat) : Bool :=
  match bankOf a with
  | some code => (s.dom (bankDomain code)).state == .on && s.fld (Reg.OCM_BANK_DISABLE code) == 0 && s.bankState code == 1 &&
      s.fld (Reg.OCM_BANK_SWEEP code) == 0
  | none => isDram a && (s.dom (if (s.sliceOf ((a - dramBase) / 4096)).1 < 6 then 11 else 12)).state == .on &&
      s.fld (Reg.DMC_FILL_GO (s.sliceOf ((a - dramBase) / 4096)).1) == 0

theorem ready_of {s : State} {a : Nat} (h : readyB s a = true) : ready s a := by
  unfold readyB at h; unfold ready
  split at h <;> simp_all

def sideOpenB (s : State) (space a len : Nat) : Bool :=
  space != 0 || (probes a len).all fun p =>
    if inSetup 0 p = true then (s.dom (blockDomain (p - 0x20000000))).state == .on
    else if inStore p = true then (s.dom 23).state == .on
    else readyB s p

theorem memOpen_of {s : State} {a : Nat} (h : readyB s a = true) : memOpen s a := by
  unfold readyB at h; unfold memOpen
  split at h <;> simp_all

theorem sideOpen_of {s : State} {space a len : Nat} (h : sideOpenB s space a len = true) : sideOpen s space a len := by
  intro h0 p hp
  have h1 : (if inSetup 0 p = true then (s.dom (blockDomain (p - 0x20000000))).state == .on
      else if inStore p = true then (s.dom 23).state == .on else readyB s p) = true := by
    simp only [sideOpenB, h0, bne_self_eq_false, Bool.false_or, List.all_eq_true] at h
    exact h p hp
  split
  · rename_i q; rw [if_pos q] at h1; simpa using h1
  · rename_i q; rw [if_neg q] at h1
    split
    · rename_i r; rw [if_pos r] at h1; simpa using h1
    · rename_i r; rw [if_neg r] at h1; exact memOpen_of h1

def sidesOpenB (s : State) (d : Desc) : Bool := sideOpenB s d.srcSpace d.src (sideLen d.srcFix d) && sideOpenB s d.dstSpace d.dst (sideLen d.dstFix d)

theorem sidesOpen_of {s : State} {d : Desc} (h : sidesOpenB s d = true) : sidesOpen s d := by
  simp only [sidesOpenB, Bool.and_eq_true] at h
  exact ⟨sideOpen_of h.1, sideOpen_of h.2⟩

def noMaskB (s : State) : Bool := s.fld Reg.OCM_FLIPMASK2_ARMED == 0 && (List.range 12).all fun n => s.fld (Reg.DMC_FLIPMASK2_ARMED n) == 0

theorem noMask_of {s : State} (h : noMaskB s = true) : noMask s := by simpa [noMaskB, noMask] using h

def wholeB (s : State) (a : Adm) : Bool :=
  match admCtrl a.path with | some c => (s.ctl c).adminCq.size != 0 && !(s.ctl c).poisoned.contains a.cid | none => true

theorem whole_of {s : State} {a : Adm} (h : wholeB s a = true) : whole s a := by
  intro c hc
  unfold wholeB at h; rw [hc] at h
  simp only [Bool.and_eq_true, bne_iff_ne, Bool.not_eq_true'] at h
  exact h

def hearsB (s : State) (a : Adm) : Bool :=
  s.pathOpen a.path && !s.restarting && wholeB s a && (s.power.mode != .conserve || s.power.exiting.isSome || (admCtrl a.path).isNone)

theorem hears_of {s : State} {a : Adm} (h : hearsB s a = true) : hears s a := by
  simp only [hearsB, Bool.and_eq_true, Bool.not_eq_true', Bool.or_eq_true, bne_iff_ne, Option.isNone_iff_eq_none] at h
  refine ⟨h.1.1.1, h.1.1.2, whole_of h.1.2, fun hm => ?_⟩
  rcases h.2 with (h2 | h2) | h2
  · exact absurd hm h2
  · exact .inl h2
  · exact .inr h2

def takesB (s : State) (a : Adm) : Bool := s.pathOpen a.path && !s.restarting && s.power.mode != .conserve && wholeB s a

theorem takes_of {s : State} {a : Adm} (h : takesB s a = true) : takes s a := by
  simp only [takesB, Bool.and_eq_true, Bool.not_eq_true', bne_iff_ne] at h
  exact ⟨h.1.1.1, h.1.1.2, h.1.2, whole_of h.2⟩

def hgTakesB (s : State) (a : Adm) (c : Fin 2) : Bool :=
  admCtrl a.path == some c && s.running c && wholeB s a && (s.power.mode != .conserve || s.power.exiting.isSome)

theorem hgTakes_of {s : State} {a : Adm} {c : Fin 2} (h : hgTakesB s a c = true) : hgTakes s a c := by
  simp only [hgTakesB, Bool.and_eq_true, beq_iff_eq, Bool.or_eq_true, bne_iff_ne] at h
  exact ⟨h.1.1.1, h.1.1.2, whole_of h.1.2, fun hm => h.2.resolve_left fun hn => hn hm⟩

/-- In Sealed every retry of a write is refused, so that its hint is none. -/
theorem hintFrom_sealed (s : State) (k : Cmd) (n : Namespace) (p : Parts) (cls post : Nat) (hw : k.kind.writes = true)
    (hm : s.power.mode = .sealed) : ∀ fuel h, s.hintFrom k n p cls post fuel h = 0xFFFF := by
  intro fuel
  induction fuel with
  | zero => intro h; rfl
  | succ f ih =>
    intro h
    have hb : (s.future (post + 16 * h + 3)).writeBar k n p = some 0xA := by
      have : (s.future (post + 16 * h + 3)).power.mode = s.power.mode := rfl
      simp [State.writeBar, hw, this, hm]
    simp [State.hintFrom, State.tryPlan, hb, ih]

theorem hint_sealed_of {s : State} {r : CmdRef} {cls : Nat}
    (h : ∃ k ∈ s.cmd r, k.kind.writes = true ∧ s.power.mode = .sealed ∧ ∃ n ∈ s.ns 1, (s.parts k n).isSome = true) :
    ∃ k ∈ s.cmd r, ∃ n ∈ s.ns 1, ∃ p ∈ s.parts k n, s.hint k n p cls 5 = 0xFFFF := by
  obtain ⟨k, hk, hw, hm, n, hn, hp⟩ := h
  obtain ⟨p, hp⟩ := Option.isSome_iff_exists.1 hp
  exact ⟨k, hk, n, hn, p, hp, by simp [State.hint, hintFrom_sealed s k n p cls _ hw hm]⟩

theorem crc32cBit_lt {c : Nat} (h : c < 2 ^ 32) : crc32cBit c < 2 ^ 32 := by
  unfold crc32cBit
  split
  · exact Nat.xor_lt_two_pow (by omega) (by decide)
  · omega

theorem iter_crc_lt : ∀ (n : Nat) {c : Nat}, c < 2 ^ 32 → iter crc32cBit n c < 2 ^ 32
  | 0, _, h => h
  | n + 1, _, h => iter_crc_lt n (crc32cBit_lt h)

theorem crc_fold_lt : ∀ (bs : Bytes) {c : Nat}, c < 2 ^ 32 → bs.foldl (fun c b => iter crc32cBit 8 (c ^^^ b.toNat)) c < 2 ^ 32
  | [], _, h => h
  | b :: t, _, h => crc_fold_lt t (iter_crc_lt 8 (Nat.xor_lt_two_pow h (Nat.lt_of_lt_of_le b.isLt (by decide))))

/-- A page whose data word is the check code of PBUF is programmed, where its address and order are good. -/
theorem programRefusal_none {s : State} {client addr : Nat}
    (h : addr % 512 = 0 ∧ ((s.bank (storeBankOf addr)).prog.isSome = false ∧
      storeBlock addr ∉ s.store.flags ∧ (s.bank (storeBankOf addr)).erasing (storeBlock addr) = false) ∧
      s.store.orderOk (storePage addr) = true ∧ s.selfBank client ≠ some (storeBankOf addr).val) :
    s.programRefusal client addr (BitVec.ofNat 32 (crc32c s.pbuf)) = none := by
  have hc : (BitVec.ofNat 32 (crc32c s.pbuf)).toNat = crc32c s.pbuf := by
    rw [BitVec.toNat_ofNat, Nat.mod_eq_of_lt]
    exact Nat.xor_lt_two_pow (crc_fold_lt _ (by decide)) (by decide)
  obtain ⟨h1, ⟨h2, h4, h5⟩, h6, h7⟩ := h
  simp [State.programRefusal, hc, h1, h2, h4, h5, h6, h7]

/-- With no sound image in either slot, none is valid. -/
theorem slotValid_none {s : State} (h : s.store.slots = #v[none, none]) (n : Nat) : s.slotValid n = false := by
  unfold State.slotValid State.slotImage
  rw [h]
  rcases hn : n - 1 with _ | _ | k <;> simp

/-! ### Ill-formed commands (the widths of WellFormed, each one past its end) -/

theorem test_sqeWf : [
  { opcode := 0, cid := 65536 }, { opcode := 256, cid := 0 }, { opcode := 0, cid := 0, nsid := 2 ^ 32 }, { opcode := 0, cid := 0, slba := 2 ^ 64 },
    { opcode := 0, cid := 0, nlb := 65536 }, { opcode := 0, cid := 0, prinfo := 16 }, { opcode := 0, cid := 0, prinfoR := 16 },
    { opcode := 0, cid := 0, ilbrt := 2 ^ 32 }, { opcode := 0, cid := 0, lbat := 65536 }, { opcode := 0, cid := 0, lbatm := 65536 },
    { opcode := 0, cid := 0, zsa := 256 }, { opcode := 0, cid := 0, dtype := 16 }, { opcode := 0, cid := 0, dspec := 65536 },
    { opcode := 0, cid := 0, ranges := [(2 ^ 64, 0)] }, { opcode := 0, cid := 0, ranges := [(0, 2 ^ 32)] }].all (fun x => !sqeWf x) = true := by decide +kernel

theorem test_mapReqWf : [
  { target := 2 ^ 64, new := 0 }, { target := 0, new := 2 ^ 32 }, { target := 0, new := 0, expect := 2 ^ 32 },
    { target := 0, new := 0, slot := 2 ^ 32 }, { target := 0, new := 0, aux := 2 ^ 32 }].all (fun x => !mapReqWf x) = true := by decide +kernel

theorem test_jobWf : [
  { decoder := 32, die := 0, block := 0, page := 0, plan := 0 }, { soft := true, decoder := 8, die := 0, block := 0, page := 0, plan := 0 },
    { decoder := 0, step := 7, die := 0, block := 0, page := 0, plan := 0 }, { decoder := 0, die := 1024, block := 0, page := 0, plan := 0 },
    { decoder := 0, die := 0, block := 65536, page := 0, plan := 0 }, { decoder := 0, die := 0, block := 0, page := 65536, plan := 0 }].all (fun x => !jobWf x) = true := by decide +kernel

theorem test_miWf : [
  .readDataStructure 256, .configSet .healthStatusChange (2 ^ 32), .vpdRead 65536 0, .vpdRead 0 65536, .vpdWrite 65536 [],
    .vpdWrite 0 (List.replicate 65536 0)].all (fun x => !miWf x) = true := by decide +kernel

theorem test_nsWf : [
  .create (2 ^ 64) 0 false 0 false false [], .create 0 16 false 0 false false [], .create 0 0 false 8 false false [],
    .create 0 0 false 0 false false [64], .delete (2 ^ 32)].all (fun x => !nsWf x) = true := by decide +kernel

theorem test_consoleWf : [
  .stage (2 ^ 32) 0 [], .stage 0 (2 ^ 32) [], .commit (2 ^ 32), .revert (2 ^ 32)].all (fun x => !consoleWf x) = true := by decide +kernel

theorem test_adminWf : [
  .getLogPage 256 0, .getLogPage 0 128, .identify 256 0 0, .identify 0 256 0, .identify 0 0 (2 ^ 32), .setFeatures 256 false 0 0 [],
    .getFeatures 256 0, .namespaceManagement (.delete (2 ^ 32)), .namespaceAttachment (2 ^ 32) 0 false, .namespaceAttachment 0 4 false,
    .imageDownload (2 ^ 32) 0 [], .imageDownload 0 (2 ^ 32) [], .firmwareCommit 8 0, .firmwareCommit 0 8, .deviceSelfTest 16 0,
    .deviceSelfTest 0 (2 ^ 32), .directiveSend (2 ^ 32) 0 0 0, .directiveSend 0 256 0 0, .directiveSend 0 0 256 0, .directiveSend 0 0 0 (2 ^ 32),
    .directiveReceive (2 ^ 32) 0 0, .directiveReceive 0 256 0, .directiveReceive 0 0 256, .formatNvm (2 ^ 32) 0 0 0 false false,
    .formatNvm 0 8 0 0 false false, .formatNvm 0 0 16 0 false false, .formatNvm 0 0 0 8 false false, .sanitize 8 false, .editionStage (2 ^ 32) 0 [],
    .editionStage 0 (2 ^ 32) [], .editionCommit (2 ^ 32), .editionRevert (2 ^ 32)].all (fun x => !adminWf x) = true := by decide +kernel

theorem test_edgeWf : [
  { overruns := [0x453] }, { mismatches := [0x454] }, { vhold := 1024 }].all (fun x => !edgeWf x) = true := by decide +kernel

theorem test_boardWf : [
  { dram := [] }, { diesPerCe := [] }, { diesPerCe := List.replicate 64 (9, 8) }, { diesPerCe := List.replicate 64 (8, 9) }].all (fun x => !boardWf x) = true := by decide +kernel

theorem test_illFormed1 : ([
  .powerOnReset { dram := [] }, .turnEdge { vhold := 1024 }, .permanentFault 1108, .sqTailDoorbell 0 65536 0, .sqTailDoorbell 0 0 65536,
    .cqHeadDoorbell 0 65536 0, .cqHeadDoorbell 0 0 65536, .entryFetch 0 65536 [] 0, .entryFetch 0 0 [] 18446744073709551616,
    .entryFetch 0 0 [{ opcode := 256, cid := 0 }] 0, .bestEffortCommit ⟨0, 65536, 0⟩, .flush ⟨0, 65536, 0⟩, .flush ⟨0, 0, 65536⟩,
    .write ⟨0, 65536, 0⟩, .read ⟨0, 65536, 0⟩, .compare ⟨0, 65536, 0⟩, .writeZeroes ⟨0, 65536, 0⟩, .datasetManagement ⟨0, 65536, 0⟩,
    .verify ⟨0, 65536, 0⟩, .copy ⟨0, 65536, 0⟩, .zoneManagementSend ⟨0, 65536, 0⟩, .zoneManagementReceive ⟨0, 65536, 0⟩, .zoneAppend ⟨0, 65536, 0⟩,
    .createIoSq ⟨0, 0⟩ 65536 0 0 false, .createIoSq ⟨0, 0⟩ 0 65536 0 false, .createIoSq ⟨0, 0⟩ 0 0 65536 false, .createIoSq ⟨10, 0⟩ 0 0 0 false,
    .createIoCq ⟨0, 0⟩ 65536 0 0 false false, .createIoCq ⟨0, 0⟩ 0 65536 0 false false, .createIoCq ⟨0, 0⟩ 0 0 65536 false false,
    .createIoCq ⟨10, 0⟩ 0 0 0 false false, .deleteIoSq ⟨0, 0⟩ 65536, .deleteIoSq ⟨10, 0⟩ 0, .deleteIoSq ⟨0, 65536⟩ 0, .deleteIoCq ⟨0, 0⟩ 65536,
    .deleteIoCq ⟨10, 0⟩ 0, .getLogPage ⟨0, 0⟩ 256 0, .getLogPage ⟨0, 0⟩ 0 128, .getLogPage ⟨10, 0⟩ 0 0, .identify ⟨0, 0⟩ ⟨0, 0⟩ 4294967296] : List Instr).all (fun i => !i.wf) = true := by decide +kernel

theorem test_illFormed2 : ([
  .identify ⟨10, 0⟩ ⟨0, 0⟩ 0, .identify ⟨0, 0⟩ ⟨256, 0⟩ 0, .identify ⟨0, 0⟩ ⟨0, 256⟩ 0, .abort ⟨0, 0⟩ 65536 0, .abort ⟨0, 0⟩ 0 65536,
    .abort ⟨10, 0⟩ 0 0, .setFeatures ⟨0, 0⟩ 256 false 0 ⟨0, []⟩, .setFeatures ⟨10, 0⟩ 0 false 0 ⟨0, []⟩, .getFeatures ⟨0, 0⟩ 256 0,
    .getFeatures ⟨10, 0⟩ 0 0, .setTwiotLevel ⟨10, 0⟩ false 0, .classBinding ⟨10, 0⟩ false 0, .orderingMode ⟨10, 0⟩ false 0,
    .keepAwakeFloor ⟨10, 0⟩ false 0 0, .powerManagement ⟨0, 0⟩ false 32, .powerManagement ⟨10, 0⟩ false 0, .timestamp ⟨0, 0⟩ false 281474976710656,
    .timestamp ⟨10, 0⟩ false 0, .asynchronousEventRequest ⟨10, 0⟩, .namespaceManagement ⟨10, 0⟩ (.delete 0),
    .namespaceManagement ⟨0, 0⟩ (.delete (2 ^ 32)), .namespaceAttachment ⟨0, 0⟩ 4294967296 0 false, .namespaceAttachment ⟨0, 0⟩ 0 4 false,
    .namespaceAttachment ⟨10, 0⟩ 0 0 false, .firmwareImageDownload ⟨0, 0⟩ 4294967296 0 [], .firmwareImageDownload ⟨0, 0⟩ 0 4294967296 [],
    .firmwareImageDownload ⟨10, 0⟩ 0 0 [], .streamedDownloadChunk ⟨0, 0⟩ 4294967296 0 [], .streamedDownloadChunk ⟨0, 0⟩ 0 4294967296 [],
    .streamedDownloadChunk ⟨10, 0⟩ 0 0 [], .firmwareCommitReplace ⟨0, 0⟩ 8, .firmwareCommitReplace ⟨10, 0⟩ 0,
    .firmwareCommitReplaceActivate ⟨0, 0⟩ 8, .firmwareCommitReplaceActivate ⟨10, 0⟩ 0, .firmwareCommitActivate ⟨0, 0⟩ 8,
    .firmwareCommitActivate ⟨10, 0⟩ 0, .firmwareCommitImmediate ⟨0, 0⟩ 8, .firmwareCommitImmediate ⟨10, 0⟩ 0, .deviceSelfTestShort ⟨0, 0⟩ 4294967296,
    .deviceSelfTestShort ⟨10, 0⟩ 0] : List Instr).all (fun i => !i.wf) = true := by decide +kernel

theorem test_illFormed3 : ([
  .deviceSelfTestExtended ⟨0, 0⟩ 4294967296, .deviceSelfTestExtended ⟨10, 0⟩ 0, .deviceSelfTestFull ⟨0, 0⟩ 4294967296, .deviceSelfTestFull ⟨10, 0⟩ 0,
    .deviceSelfTestAbort ⟨10, 0⟩, .directiveSend ⟨0, 0⟩ 4294967296 0 0 0, .directiveSend ⟨0, 0⟩ 0 256 0 0, .directiveSend ⟨0, 0⟩ 0 0 256 0,
    .directiveSend ⟨0, 0⟩ 0 0 0 4294967296, .directiveSend ⟨10, 0⟩ 0 0 0 0, .directiveReceive ⟨0, 0⟩ 4294967296 0 0,
    .directiveReceive ⟨0, 0⟩ 0 256 0, .directiveReceive ⟨0, 0⟩ 0 0 256, .directiveReceive ⟨10, 0⟩ 0 0 0, .nvmeMiSend ⟨10, 0⟩ .reset,
    .nvmeMiSend ⟨0, 0⟩ (.readDataStructure 256), .nvmeMiReceive ⟨10, 0⟩ .reset, .nvmeMiReceive ⟨0, 0⟩ (.readDataStructure 256),
    .formatNvm ⟨0, 0⟩ 4294967296 0 0 0 false false, .formatNvm ⟨0, 0⟩ 0 8 0 0 false false, .formatNvm ⟨0, 0⟩ 0 0 16 0 false false,
    .formatNvm ⟨0, 0⟩ 0 0 0 8 false false, .formatNvm ⟨10, 0⟩ 0 0 0 0 false false, .sanitizeCryptoErase ⟨10, 0⟩ false,
    .sanitizeBlockErase ⟨10, 0⟩ false, .editionStage ⟨0, 0⟩ 4294967296 0 [], .editionStage ⟨0, 0⟩ 0 4294967296 [], .editionStage ⟨10, 0⟩ 0 0 [],
    .editionCommit ⟨0, 0⟩ 4294967296, .editionCommit ⟨10, 0⟩ 0, .editionRevert ⟨0, 0⟩ 4294967296, .editionRevert ⟨10, 0⟩ 0,
    .queueRestart ⟨0, 0⟩ 65536 0, .queueRestart ⟨0, 0⟩ 0 4294967296, .queueRestart ⟨10, 0⟩ 0 0, .culvertRebuildStatus ⟨10, 0⟩,
    .invalidAdminOpcode ⟨0, 0⟩ 256, .invalidAdminOpcode ⟨10, 0⟩ 0, .controllerEnable 0 4294967296 0 0, .controllerEnable 0 0 18446744073709551616 0] : List Instr).all (fun i => !i.wf) = true := by decide +kernel

theorem test_illFormed4 : ([
  .controllerEnable 0 0 0 18446744073709551616, .linkTrained 0 8 0 false, .linkTrained 0 0 65 false, .poisonedTlp ⟨0, 65536, 0⟩,
    .bar2Write 0 18446744073709551616 0, .bar2ReadTimeout 0 18446744073709551616, .retrainReq 1024 0 0, .retrainReq 0 0 16, .channelGroupWake 0 [64],
    .decodeComplete { decoder := 32, die := 0, block := 0, page := 0, plan := 0 } .fail, .readDisturbProbe 0 4294967296 0, .readDisturbProbe 0 0 4,
    .patrolCycle 0 4294967296 0 ⟨0, false, []⟩, .patrolCycle 0 0 65536 ⟨0, false, []⟩, .patrolCycle 0 0 0 ⟨4, false, []⟩,
    .hostPlace { target := 0, new := 2 ^ 32 }, .condSet { target := 0, new := 2 ^ 32 }, .mapSet { target := 0, new := 2 ^ 32 },
    .ovlSet { target := 0, new := 2 ^ 32 }, .ovlFree { target := 0, new := 2 ^ 32 }, .zoneUpdate { target := 0, new := 2 ^ 32 },
    .fbtSet { target := 0, new := 2 ^ 32 }, .tableSet { target := 0, new := 2 ^ 32 }, .journalSlotProgrammed 65536, .mupTailWrite 1024 0,
    .mupTailWrite 0 4294967296, .snapshotMark 1024, .mirrorMoveStart 1024 0, .mirrorMoveStart 0 16, .mapRepair 1024 0, .mapRepair 0 1073741824,
    .dredgeCopy 4 0 0, .dredgeCopy 0 4294967296 0, .dredgeCopy 0 0 4294967296, .victimErase 4 0, .victimErase 0 4294967296, .formeBlockOpen 4 false,
    .formeProgramPlan 4 0, .formeProgramPlan 0 4294967296, .allotAddWrite 1024 0] : List Instr).all (fun i => !i.wf) = true := by decide +kernel

theorem test_illFormed5 : ([
  .chanOutWrite 1024 0 0, .dieStateWrite 1024 0 0, .dieStateWrite 0 0 4, .rebuildMemberComplete 4 0 0, .rebuildMemberComplete 0 4294967296 0,
    .rebuildMemberComplete 0 0 16, .sealRequest 1024, .recoverRequest 1024, .supplyReturn { dram := [] }, .cisternTestStart (some 1024),
    .voteWrite 1024 0 false, .voteWrite 0 32 false, .domainWakeOnAccess 0 1024, .domainRetire 1024 0, .apstTransition 32, .globalStateBroadcast 1024,
    .globalBarrier 1024, .dataPlaneReset 1024, .fabricParityError 1107 0, .fabricParityError 0 8, .retiredDomainAccess 0 1024 0 false,
    .retiredDomainAccess 0 0 18446744073709551616 false, .trainingDone 0 4294967296 0, .trainingDone 0 0 1099511627776,
    .dramUncorrectable 4294967296 0, .dramUncorrectable 0 1024, .remapCopyComplete 4294967296, .scrubUncorrectable 0 4294967296,
    .sramUncorrectable 256 0 0 .load, .sramUncorrectable 0 18446744073709551616 0 .load, .sramUncorrectable 0 0 1024 .load,
    .bankPowerRequest 1024 0 0, .bankPowerRequest 0 256 0, .bankPowerRequest 0 0 4, .bankIdleEntry 256, .bankWake 256,
    .bankWakeComplete 256 false false, .bankLostClear 1024 0, .bankLostClear 0 256, .bankOwnerWrite 1024 0 0] : List Instr).all (fun i => !i.wf) = true := by decide +kernel

theorem test_illFormed6 : ([
  .bankOwnerWrite 0 256 0, .bankOwnerWrite 0 0 1024, .bankRedirectWrite 1024 0 0, .bankRedirectWrite 0 256 0, .bankRedirectWrite 0 0 256,
    .bankDisable 1024 0, .bankDisable 0 256, .columnRepair 1024 0 0, .columnRepair 0 256 0, .columnRepair 0 0 2048, .ocmFlipmaskArm 1024 0 0 0,
    .dmcFlipmaskArm 1024 0 0 0 0, .flipMaskTaken none 1024 0, .flipMaskTaken none 0 18446744073709551616,
    .atomicMemoryOperation 0 .add false 18446744073709551616 0, .loadReserved 0 false 18446744073709551616,
    .storeConditional 0 false 18446744073709551616 0, .bitSetAliasWrite 1024 0 0 0, .bitSetAliasWrite 0 18446744073709551616 0 0,
    .bitClearAliasWrite 1024 0 0 0, .bitClearAliasWrite 0 18446744073709551616 0 0, .mailboxCollision 18446744073709551616 .read .read,
    .dmaRingTailWrite 1024 0 0, .dmaRingTailWrite 0 0 4294967296, .dmaBurst 0 8, .dmaAbort 1024 0, .dmaResume 1024 0, .dmaEnableWrite 1024 0 false,
    .fwsSequenceWrite 1024 .key 0, .programPage 1024 0 0, .programPage 0 18446744073709551616 0, .eraseBlock 1024 0,
    .eraseBlock 0 18446744073709551616, .eraseSuspend 1024 0, .eraseSuspend 0 18446744073709551616, .eraseResume 1024 0,
    .eraseResume 0 18446744073709551616, .clearFlag 1024 0, .clearFlag 0 18446744073709551616, .fwsOperationEnd 0 false 4294967296] : List Instr).all (fun i => !i.wf) = true := by decide +kernel

theorem test_illFormed7 : ([
  .fwsEraseAutoSuspend 0 1024 false, .xoDataRead 1024 0, .xoDataRead 0 18446744073709551616, .xoWrite 1024 0 0, .readWindowWrite 1024 0 0,
    .readWindowWrite 0 18446744073709551616 0, .dlxNowWrite 1024 0, .pairLoRead 1024 0, .pairLoRead 0 18446744073709551616, .rcFieldRead 1024 0,
    .rcFieldRead 0 18446744073709551616, .irqEnableWrite 1024 0 0 0, .registerWrite 1024 0 0 0, .registerWrite 0 18446744073709551616 0 0,
    .registerWrite 0 0 0 9, .gaugeFifoPop 1024, .riderDoorbellSet 1024 0, .clusterDoorbellSet 1024 0 0, .uartDataRead 1024, .uartDataWrite 1024 0,
    .mctpRxPop 1024 0, .mctpTxPush 1024 0 0, .readNvmeMiDataStructure 10 0, .readNvmeMiDataStructure 0 256, .nvmSubsystemHealthStatusPoll 10 false,
    .controllerHealthStatusPoll 10 0, .configurationGet 10 .healthStatusChange, .configurationSet 10 .healthStatusChange 0,
    .configurationSet 0 .healthStatusChange 4294967296, .vpdRead 10 0 0, .vpdRead 0 4294967296 0, .vpdRead 0 0 4294967296, .vpdWrite 10 0 [],
    .vpdWrite 0 4294967296 [], .nvmeMiReset 10, .nvmeMiTunnelledAdmin 10 0 .excluded, .nvmeMiTunnelledAdmin 0 65536 .excluded,
    .nvmeMiTunnelledAdmin 0 0 (.sanitize 8 false), .consoleLog 3, .consoleEdition (.commit (2 ^ 32))] : List Instr).all (fun i => !i.wf) = true := by decide +kernel

theorem test_illFormed8 : ([
  .consoleSelftest 16, .selfTestInServicePass 1024 0, .selfTestInServicePass 0 10, .selfTestShortRun 1024 0, .selfTestShortRun 0 10,
    .selfTestExtendedRun 1024 0, .selfTestExtendedRun 0 10, .selfTestFullRun 1024 0, .selfTestFullRun 0 10, .selfTestShutdownRun 1024 0,
    .selfTestShutdownRun 0 10, .selfTestAbort 1024, .selfTestSlice 8 0 false, .selfTestSlice 0 256 false, .interruptCoalescingExpiry 0 8192,
    .l0pWidthRequest 0 65] : List Instr).all (fun i => !i.wf) = true := by decide +kernel

theorem test_wellFormed1 : ([
  .powerOnReset {}, .turnEdge {}, .permanentFault 0, .sqTailDoorbell 0 0 0, .cqHeadDoorbell 0 0 0, .entryFetch 0 0 [] 0, .bestEffortCommit ⟨0, 0, 0⟩,
    .flush ⟨0, 0, 0⟩, .write ⟨0, 0, 0⟩, .read ⟨0, 0, 0⟩, .compare ⟨0, 0, 0⟩, .writeZeroes ⟨0, 0, 0⟩, .datasetManagement ⟨0, 0, 0⟩, .verify ⟨0, 0, 0⟩,
    .copy ⟨0, 0, 0⟩, .zoneManagementSend ⟨0, 0, 0⟩, .zoneManagementReceive ⟨0, 0, 0⟩, .zoneAppend ⟨0, 0, 0⟩, .createIoSq ⟨0, 0⟩ 0 0 0 false,
    .createIoCq ⟨0, 0⟩ 0 0 0 false false, .deleteIoSq ⟨0, 0⟩ 0, .deleteIoCq ⟨0, 0⟩ 0, .getLogPage ⟨0, 0⟩ 0 0, .identify ⟨0, 0⟩ ⟨0, 0⟩ 0,
    .abort ⟨0, 0⟩ 0 0, .setFeatures ⟨0, 0⟩ 0 false 0 ⟨0, []⟩, .getFeatures ⟨0, 0⟩ 0 0, .setTwiotLevel ⟨0, 0⟩ false 0, .classBinding ⟨0, 0⟩ false 0,
    .orderingMode ⟨0, 0⟩ false 0, .keepAwakeFloor ⟨0, 0⟩ false 0 0, .powerManagement ⟨0, 0⟩ false 0, .timestamp ⟨0, 0⟩ false 0,
    .asynchronousEventRequest ⟨0, 0⟩, .namespaceManagement ⟨0, 0⟩ (.delete 0), .namespaceAttachment ⟨0, 0⟩ 0 0 false,
    .firmwareImageDownload ⟨0, 0⟩ 0 0 [], .streamedDownloadChunk ⟨0, 0⟩ 0 0 [], .firmwareCommitReplace ⟨0, 0⟩ 0,
    .firmwareCommitReplaceActivate ⟨0, 0⟩ 0, .firmwareCommitActivate ⟨0, 0⟩ 0, .firmwareCommitImmediate ⟨0, 0⟩ 0, .deviceSelfTestShort ⟨0, 0⟩ 0,
    .deviceSelfTestExtended ⟨0, 0⟩ 0, .deviceSelfTestFull ⟨0, 0⟩ 0, .deviceSelfTestAbort ⟨0, 0⟩, .directiveSend ⟨0, 0⟩ 0 0 0 0,
    .directiveReceive ⟨0, 0⟩ 0 0 0, .nvmeMiSend ⟨0, 0⟩ .reset, .nvmeMiReceive ⟨0, 0⟩ .reset, .formatNvm ⟨0, 0⟩ 0 0 0 0 false false,
    .sanitizeCryptoErase ⟨0, 0⟩ false, .sanitizeBlockErase ⟨0, 0⟩ false, .editionStage ⟨0, 0⟩ 0 0 [], .editionCommit ⟨0, 0⟩ 0,
    .editionRevert ⟨0, 0⟩ 0, .queueRestart ⟨0, 0⟩ 0 0, .culvertRebuildStatus ⟨0, 0⟩, .invalidAdminOpcode ⟨0, 0⟩ 0, .controllerEnable 0 0 0 0] : List Instr).all Instr.wf = true := by decide +kernel

theorem test_wellFormed2 : ([
  .linkTrained 0 0 0 false, .poisonedTlp ⟨0, 0, 0⟩, .bar2Write 0 0 0, .bar2ReadTimeout 0 0, .retrainReq 0 0 0, .channelGroupWake 0 [],
    .decodeComplete { decoder := 0, die := 0, block := 0, page := 0, plan := 0 } .fail, .readDisturbProbe 0 0 0, .patrolCycle 0 0 0 ⟨0, false, []⟩,
    .hostPlace { target := 0, new := 0 }, .condSet { target := 0, new := 0 }, .mapSet { target := 0, new := 0 }, .ovlSet { target := 0, new := 0 },
    .ovlFree { target := 0, new := 0 }, .zoneUpdate { target := 0, new := 0 }, .fbtSet { target := 0, new := 0 },
    .tableSet { target := 0, new := 0 }, .journalSlotProgrammed 0, .mupTailWrite 0 0, .snapshotMark 0, .mirrorMoveStart 0 0, .mapRepair 0 0,
    .dredgeCopy 0 0 0, .victimErase 0 0, .formeBlockOpen 0 false, .formeProgramPlan 0 0, .allotAddWrite 0 0, .chanOutWrite 0 0 0,
    .dieStateWrite 0 0 0, .rebuildMemberComplete 0 0 0, .sealRequest 0, .recoverRequest 0, .supplyReturn {}, .cisternTestStart none,
    .voteWrite 0 0 false, .domainWakeOnAccess 0 0, .domainRetire 0 0, .apstTransition 0, .globalStateBroadcast 0, .globalBarrier 0,
    .dataPlaneReset 0, .fabricParityError 0 0, .retiredDomainAccess 0 0 0 false, .trainingDone 0 0 0, .dramUncorrectable 0 0, .remapCopyComplete 0,
    .scrubUncorrectable 0 0, .sramUncorrectable 0 0 0 .load, .bankPowerRequest 0 0 0, .bankIdleEntry 0, .bankWake 0, .bankWakeComplete 0 false false,
    .bankLostClear 0 0, .bankOwnerWrite 0 0 0, .bankRedirectWrite 0 0 0, .bankDisable 0 0, .columnRepair 0 0 0, .ocmFlipmaskArm 0 0 0 0,
    .dmcFlipmaskArm 0 0 0 0 0, .flipMaskTaken none 0 0] : List Instr).all Instr.wf = true := by decide +kernel

theorem test_wellFormed3 : ([
  .atomicMemoryOperation 0 .add false 0 0, .loadReserved 0 false 0, .storeConditional 0 false 0 0, .bitSetAliasWrite 0 0 0 0,
    .bitClearAliasWrite 0 0 0 0, .mailboxCollision 0 .read .read, .dmaRingTailWrite 0 0 0, .dmaDescriptor 0 none, .dmaBurst 0 0, .dmaAbort 0 0,
    .dmaResume 0 0, .dmaEnableWrite 0 0 false, .fwsSequenceWrite 0 .key 0, .programPage 0 0 0, .eraseBlock 0 0, .eraseSuspend 0 0, .eraseResume 0 0,
    .clearFlag 0 0, .fwsOperationEnd 0 false 0, .fwsEraseAutoSuspend 0 0 false, .xoDataRead 0 0, .xoWrite 0 0 0, .readWindowWrite 0 0 0,
    .dlxNowWrite 0 0, .pairLoRead 0 0, .rcFieldRead 0 0, .irqEnableWrite 0 0 0 0, .registerWrite 0 0 0 0, .gaugeFifoPop 0, .riderDoorbellSet 0 0,
    .clusterDoorbellSet 0 0 0, .uartDataRead 0, .uartDataWrite 0 0, .mctpRxPop 0 0, .mctpTxPush 0 0 0, .readNvmeMiDataStructure 0 0,
    .nvmSubsystemHealthStatusPoll 0 false, .controllerHealthStatusPoll 0 0, .configurationGet 0 .healthStatusChange,
    .configurationSet 0 .healthStatusChange 0, .vpdRead 0 0 0, .vpdWrite 0 0 [], .nvmeMiReset 0, .nvmeMiTunnelledAdmin 0 0 .excluded, .consoleLog 0,
    .consoleEdition (.commit 0), .consoleSelftest 0, .selfTestInServicePass 0 0, .selfTestShortRun 0 0, .selfTestExtendedRun 0 0,
    .selfTestFullRun 0 0, .selfTestShutdownRun 0 0, .selfTestAbort 0, .selfTestSlice 0 0 false, .interruptCoalescingExpiry 0 0, .l0pWidthRequest 0 0] : List Instr).all Instr.wf = true := by decide +kernel

/-! ### One step each, against the spec's words and worked cases -/

/-- R287: the check value of CRC-32C for "123456789". -/
theorem test_crc32c_check_value : crc32c [0x31, 0x32, 0x33, 0x34, 0x35, 0x36, 0x37, 0x38, 0x39] = 0xE3069283 := by decide +kernel

/-- R216: the spare worked case: 42,800 forme-blocks, 42,131 without channel 18, 41,964 without a die of one more channel. -/
theorem test_formable_counts : formable (List.replicate 64 10700) = 42800 ∧ formable (List.replicate 63 10700) = 42131 ∧ formable (List.replicate 62 10700 ++ [8025]) = 41964 := by decide +kernel

/-- Table 05.3: the 128 TiB worked case: 56 GiB with six pairs, 59 GiB with three. -/
theorem test_dram_requirement : (let b : Board := { diesPerCe := List.replicate 64 (8, 0), geom := { blocksPerPlane := 2048 } }; decide (b.lanes = 2 ∧ b.dramNeed 6 = 56 ∧ b.dramNeed 3 = 59)) = true := by decide +kernel

def sDelluxCell : State := with_ [(Reg.LDP_DLX_NOW_ROT, 41900000), (Reg.LDP_DLX_TEMP_G0 1, 0x5F)]

/-- R260: the threshold worked case: age bucket 4, ΔT bucket 0, wear 2 give entry 162. -/
theorem test_dellux_cell : (sDelluxCell).dlxCell (41000000 + 0x88 * 2 ^ 32 + 2 * 2 ^ 40 + 2 ^ 63) 517 0 0 = 162 := by decide +kernel

def sMeasuredTimeIsRaised : State := atTurn 4057 (with_ [(learnedFld 517 0, 52), (Reg.FUR_CFG_AUTO_RAISE 517, 1)] (State.reset.onFlash fun x => { x with dies := [(517, { busy := some (.read, 4000) })] }))

/-- R160: the worked case of die 517: a read measured at 57 turns raises T_R from 52 to 61. -/
theorem test_measured_time_is_raised : completes (.dieReady 517 false 0xE0) (sMeasuredTimeIsRaised) (fun t => t.fld (learnedFld 517 0) == 61 && t.fld (Reg.FUR_EVENT_T_EXCEED 517) == 1) = true := by decide +kernel

def sAllotmentRefusalHint : State := (with_ [(Reg.SLU_ALLOT_BAL_BALANCE, 24), (Reg.SLU_ALLOT_CREDIT_CREDIT, 2)] (cmdIn { opcode := 1, cid := 7, nsid := 1, nlb := 63 } 1 (((nsUp (atTurn 1000007)).onNv fun v => { v with namespaces := v.namespaces.map fun n => { n with lbaf := 2 } })))).onHost fun h => { h with cmds := h.cmds.map fun k => { k with stamp := 1000004, fetched := 1000005 } }

/-- R112, R113: the allotment worked case: balance 24, credit 2 a span, a write of 64 units is refused with DW0 0x0005_0014. -/
theorem test_allotment_refusal_hint : completes (.write ⟨0, 1, 7⟩) (sAllotmentRefusalHint) (fun t => t.host.cmds.map (fun k => (k.outcome, k.postAt)) == [(some (7, 0x80, false, 0x00050014), some 1000008)]) = true := by decide +kernel

def sLargestTransfer : State := (nsUp (atTurn 99)).onNv fun v => { v with namespaces := v.namespaces.map fun n => { n with lbaf := 3, extended := true, nsze := 0x10000 } }

/-- R64: the edge values of format 3 with extended LBA: NLB 0x07FB is accepted, 0x07FC ends with Invalid Field in Command. -/
theorem test_largest_transfer : ((sLargestTransfer).check 0 { opcode := 2, cid := 7, nsid := 1, nlb := 0x7FB }).isNone = true ∧ (sLargestTransfer).check 0 { opcode := 2, cid := 7, nsid := 1, nlb := 0x7FC } = some St.invalidField := by decide +kernel

def sVoteWakesAnOffDomain : State := State.reset

/-- R436: a hold of an OFF domain is a vote and starts its wake. -/
theorem test_vote_wakes_an_off_domain : does (.voteWrite 5 4 true) (sVoteWakesAnOffDomain) [.idle, .doms] [] (fun t => (t.dom 4).votes == [5] && (t.dom 4).state == .waking && (t.dom 4).wakeFrom == 0) = true := by decide +kernel

def sSealRequestIsLatched : State := inMode .service

/-- R435: SEAL is latched in MODE_REQ. -/
theorem test_seal_request_is_latched : does (.sealRequest 5) (sSealRequestIsLatched) [.idle] [(Reg.PMC_MODE_REQ_SEAL, 1)] (fun _ => true) = true := by decide +kernel

def sThermtripIsLatched : State := inMode .service (atTurn 9)

/-- R445: a thermal trip drives the pin and is recorded. -/
theorem test_thermtrip_is_latched : completes .thermtrip (sThermtripIsLatched) (fun t => t.pins.thermtrip && t.fld Reg.PMC_THERM_TRIP == 1) = true := by decide +kernel

def sBarrierIsIssued : State := inMode .service (on [5] (atTurn 9))

/-- R39: a barrier is in flight from its write on. -/
theorem test_barrier_is_issued : completes (.globalBarrier 5) (sBarrierIsIssued) (fun t => t.sluice.globals == [(2, 5, 10)] && t.fld Reg.TRN_GLOBAL_STATUS_BUSY == 1 && t.fld Reg.TRN_GLOBAL_STATUS_OP == 2) = true := by decide +kernel

def sMisalignedAtomicIsAStoreFault : State := State.reset

/-- R359: an atomic operation off its natural alignment is a store/AMO access fault. -/
theorem test_misaligned_atomic_is_a_store_fault : does (.atomicMemoryOperation 5 .add true 12 1) (sMisalignedAtomicIsAStoreFault) [.answer] [] (fun t => t.answer == some (.storeFault 5 12)) = true := by decide +kernel

def sCqHeadFrees : State := (hostUp (atTurn 500)).onCtl 0 fun x => { x with cqs := [{ qid := 1, size := 4, entries := [{ sqid := 1, cid := 1, sct := 0, sc := 0, dnr := false, dw0 := 0 }, { sqid := 1, cid := 2, sct := 0, sc := 0, dnr := false, dw0 := 0 }] }] }

/-- R61: a head doorbell frees the entries before it. -/
theorem test_cq_head_frees : does (.cqHeadDoorbell 0 1 1) (sCqHeadFrees) [.host] [] (fun t => ((t.bellTurn 0).cq 0 1).map (fun q => (q.head, q.entries.map (·.cid))) == some (1, [2])) = true := by decide +kernel

def sSqTailStamps : State := (hostUp (atTurn 500)).onCtl 0 fun x => { x with sqs := [{ qid := 1, size := 8, cqid := 1, head := 6, tail := 7, cls := 2, visible := [(490, 2, false, 0)] }] }

/-- R58: a tail write makes the new entries visible under the turn as their stamp; the ring wraps. -/
theorem test_sq_tail_stamps : does (.sqTailDoorbell 0 1 1) (sSqTailStamps) [.host] [] (fun t => (t.sq 0 1).map (fun q => (q.tail, q.visible.map (·.1))) == some (1, [490, 500, 500])) = true := by decide +kernel

def sFetchMarksATableCheck : State := (nsUp (atTurn 500)).onCtl 0 fun x => { x with sqs := [{ qid := 1, size := 8, cqid := 1, head := 6, tail := 7, cls := 2, visible := [(490, 2, false, 0)] }] }

/-- R59, R67, R531: an entry of an unsupported opcode is fetched with Invalid Command Opcode and DNR as its outcome. -/
theorem test_fetch_marks_a_table_check : completes (.entryFetch 0 1 [{ opcode := 0x33, cid := 77, nsid := 1 }] 10) (sFetchMarksATableCheck) (fun t => t.host.cmds.map (fun k => (k.ref.cid, k.stamp, k.outcome)) == [(77, 490, some (0, 1, true, 0))]) = true := by decide +kernel

def sReadOfADeallocatedRange : State := cmdIn { opcode := 2, cid := 7, nsid := 1, nlb := 7 } 0 (nsUp (atTurn 110))

/-- R103, R107: a read of deallocated units is accepted with a plan that posts by its limit. -/
theorem test_read_of_a_deallocated_range : completes (.read ⟨0, 1, 7⟩) (sReadOfADeallocatedRange) (fun t => t.host.cmds.map (fun k => (k.phase, k.limit)) == [(.accepted, 479)] && t.sluice.plans.all fun q => decide (q.post ≤ 479)) = true := by decide +kernel

def sSealedRefusesWrites : State := inMode .sealed (cmdIn { opcode := 1, cid := 7, nsid := 1, nlb := 7 } 2 (nsUp (atTurn 110)))

/-- R110: in Sealed a write is refused for reason 0A with hint 0xFFFF. -/
theorem test_sealed_refuses_writes : completes (.write ⟨0, 1, 7⟩) (sSealedRefusesWrites) (fun t => t.host.cmds.map (·.outcome) == [some (7, 0x80, false, 0x000AFFFF)]) = true := by decide +kernel

def sCreateCqOverTheRange : State := hostUp (atTurn 500)

/-- R62: a queue identifier above 8,192 is an Invalid Queue Identifier. -/
theorem test_create_cq_over_the_range : does (.createIoCq ⟨1, 9⟩ 8193 5 1 true false) (sCreateCqOverTheRange) [.host] [] (fun t => answers t 0 == [(9, 1, 1, 0)]) = true := by decide +kernel

def sAerOverTheLimit : State := (hostUp (atTurn 500)).onCtl 1 fun x => { x with aers := List.replicate 16 ⟨2, 1⟩ }

/-- R77: a seventeenth event request ends with Asynchronous Event Request Limit Exceeded. -/
theorem test_aer_over_the_limit : does (.asynchronousEventRequest ⟨2, 9⟩) (sAerOverTheLimit) [.host] [] (fun t => answers t 1 == [(9, 1, 5, 0)]) = true := by decide +kernel

def sFeatureReadsBack : State := on [1] (hostUp (atTurn 500))

/-- R69: Set Features FID 0Bh takes its value. -/
theorem test_feature_reads_back : completes (.setFeatures ⟨1, 9⟩ 0xB false 0x89ABCDEF ⟨0, []⟩) (sFeatureReadsBack) (fun t => klook 0xB (t.ctl 0).features == some 0x89ABCDEF && answers t 0 == [(9, 0, 0, 0)]) = true := by decide +kernel

def sUnknownLogPage : State := on [1] (hostUp (atTurn 500))

/-- R70: a log page that is not supported ends with Invalid Log Page. -/
theorem test_unknown_log_page : does (.getLogPage ⟨1, 9⟩ 0xC6 0) (sUnknownLogPage) [.host, .mgmt] [] (fun t => answers t 0 == [(9, 1, 9, 0)]) = true := by decide +kernel

def sCreateNamespaceWithoutRoom : State := (nsUp (atTurn 500)).onNv fun v => { v with grans := 3 }

/-- R177: a size with too few free granules ends with Namespace Insufficient Capacity. -/
theorem test_create_namespace_without_room : does (.namespaceManagement ⟨1, 9⟩ (.create 0x1000000 0 false 0 false false [])) (sCreateNamespaceWithoutRoom) [.host, .mgmt] [] (fun t => answers t 0 == [(9, 1, 0x15, 0)]) = true := by decide +kernel

def sDownloadGranularity : State := on [1] (hostUp (atTurn 500))

/-- R416: a chunk that is not whole 4 KiB ends with Invalid Field in Command. -/
theorem test_download_granularity : does (.firmwareImageDownload ⟨1, 9⟩ 1 1023 []) (sDownloadGranularity) [.host, .mgmt, .store] [] (fun t => answers t 0 == [(9, 0, 2, 0)]) = true := by decide +kernel

def sControllerResetDeletesQueues : State := cmdIn { opcode := 2, cid := 7 } 2 (hostUp (atTurn 500))

/-- R53: a controller reset deletes its queues and marks its commands for discard. -/
theorem test_controller_reset_deletes_queues : completes (.controllerReset 0) (sControllerResetDeletesQueues) (fun t => (t.ctl 0).sqs == [] && (t.ctl 0).cqs == [] && t.host.cmds.all (fun k => k.discard) && t.ctl 1 == (sControllerResetDeletesQueues).ctl 1) = true := by decide +kernel

def sGen6IsFlit : State := on [2, 3, 4] (hostUp (atTurn 500 (State.reset.onPins fun p => { p with perst := #v[true, true] })))

/-- R48: a link at 64 GT/s is in FLIT mode. -/
theorem test_gen6_is_flit : completes (.linkTrained 1 6 2 false) (sGen6IsFlit) (fun t => t.fld (Reg.HGT_LINK_STATUS_FLIT 1) == 1 && t.fld (Reg.HGT_LINK_STATUS_RATE 1) == 6) = true := by decide +kernel

def sBar2WriteIsLogged : State := (hostUp (atTurn 500)).setFlds [(Reg.HGT_LINK_STATUS_RATE 0, 5)]

/-- R489: a write through BAR2 changes nothing and is logged. -/
theorem test_bar2_write_is_logged : does (.bar2Write 0 0x40100 7) (sBar2WriteIsLogged) [.log] [] (fun t => (t.mgmt.log.map fun e => (e.code, e.source, e.client, e.param)) == [(0x0901, 0, 0x20, 0x40100 + 7 * 2 ^ 32)]) = true := by decide +kernel

def sProgramPassesToProof : State := atTurn 1000 (State.reset.onFlash fun x => { x with dies := [(6, { busy := some (.program, 700), hold := some { erase := false, block := 7, page := 3, plan := 9, since := 700 } })], plans := [{ id := 9, lane := 0, b := 0, off := 0, units := [], slots := [], members := [{ die := 6, block := 7, dataIn := (1, 2), issue := 3, stage := .programming }] }] })

/-- R36, R152: a program that passed waits for its proof read. -/
theorem test_program_passes_to_proof : completes (.dieReady 6 false 0xE0) (sProgramPassesToProof) (fun t => (t.die 6).hold == none && t.flash.plans.map (fun p => p.members.map (·.stage)) == [[.ready]]) = true := by decide +kernel

def sRetrainTakes256Turns : State := atTurn 5000 (with_ [(Reg.FCE_STATUS_STATE 3, 2), (Reg.FCE_STATUS_CUR_IDX 3, 1)])

/-- R144: a retrain trains for 256 turns with its channel reported down. -/
theorem test_retrain_takes_256_turns : completes (.retrainStart 3) (sRetrainTakes256Turns) (fun t => t.fld (Reg.FCE_STATUS_STATE 3) == 3 && (t.chan 3).training == some (1, 5256) && t.sluice.chansOut == [(3, 5001, none)]) = true := by decide +kernel

def sMapSetIsJournaled : State := (with_ [(Reg.FCE_GEOM_B_BLOCKS_PER_PLANE 0, 100), (Reg.FCE_STATUS_DIES 0, 1), (Reg.DMC_MAP_CFG_UNITS_PER_MB, 1000)]).onGalley fun g => { g with jnlSeq := 6 }

/-- R194, R203: a SET writes the entry and a record with the next SEQ. -/
theorem test_map_set_is_journaled : completes (.mapSet ⟨false, 77, 0, 0x10000005, 0xFFFFFFFF, 0⟩) (sMapSetIsJournaled) (fun t => t.peek ((sMapSetIsJournaled).mapAddr 77) 4 == 0x10000005 && t.galley.jnlSeq == 7 && t.galley.journal.map (fun x => x.2.map fun r => (r.kind, r.seq, r.unit, r.new)) == [[(1, 6, 77, 0x10000005)]]) = true := by decide +kernel

def sVictimWithValidDataStays : State := formeUp (fun f => { f with next := 1 }) (atTurn 100)

/-- R229: an open forme-block is not erased. -/
theorem test_victim_with_valid_data_stays : still (.victimErase 0 0) (sVictimWithValidDataStays) = true := by decide +kernel

def sWeirOfEmptyMedia : State := inMode .service

/-- R222: with no free forme-block the weir is CLOSED and admits nothing. -/
theorem test_weir_of_empty_media : completes .weirEvaluation (sWeirOfEmptyMedia) (fun t => t.flash.weir == 4 && t.fld Reg.SLU_WEIR_RATE == 0) = true := by decide +kernel

def sChanOutRetires : State := on [5] (inMode .service)

/-- R132: a bit newly set in CHAN_OUT retires its channel. -/
theorem test_chan_out_retires : completes (.chanOutWrite 5 1 2) (sChanOutRetires) (fun t => t.fld (Reg.SLU_CHAN_OUT_OUT 1) == 2 && t.fld (Reg.FCE_STATUS_STATE 33) == 5) = true := by decide +kernel

def sPwrFailStartsTheFilter : State := inMode .service (atTurn 9)

/-- R311: PWR_FAIL_n low starts the 1 µs filter. -/
theorem test_pwr_fail_starts_the_filter : does .pwrFailAssert (sPwrFailStartsTheFilter) [.pins] [] (fun t => t.pins == { (sPwrFailStartsTheFilter).pins with pwrFailLow := true, filter := some 9 }) = true := by decide +kernel

def sFwsKeyOpens : State := on [23]

/-- R402: 0xC3 in KEY is the first step of the sequence, and its client the holder. -/
theorem test_fws_key_opens : does (.fwsSequenceWrite 5 .key 0xC3) (sFwsKeyOpens) [.idle] [(Reg.FWS_STATUS_SEQ_STATE, 1), (Reg.FWS_STATUS_HOLDER, 5)] (fun _ => true) = true := by decide +kernel

def sFwsWrongKeyIsAnError : State := on [23]

/-- R402: another value in KEY is a sequence error. -/
theorem test_fws_wrong_key_is_an_error : does (.fwsSequenceWrite 5 .key 0x5A) (sFwsWrongKeyIsAnError) [.idle] [(Reg.FWS_STATUS_SEQ_STATE, 0), (Reg.FWS_STATUS_ERR_SEQ, 1), (Reg.FWS_EVENT_ERR, 1)] (fun _ => true) = true := by decide +kernel

def sRegisterHoleWriteIsLogged : State := on [5]

/-- R489: a write to an offset with no register is ignored and logged. -/
theorem test_register_hole_write_is_logged : completes (.registerWrite 5 0x3FFFC 7 4) (sRegisterHoleWriteIsLogged) (fun t => (t.mgmt.log.map fun e => (e.code, e.client, e.param)) == [(0x0901, 5, 0x3FFFC + 7 * 2 ^ 32)]) = true := by decide +kernel

def sGaugeFaultIsReported : State := inMode .service

/-- R465: a faulty sensor sets its fault bit and the event. -/
theorem test_gauge_fault_is_reported : does (.gaugeSample 5 .fault) (sGaugeFaultIsReported) [] [(gaugeFault 5, 1), (gaugeValid 5, 1), (Reg.GAU_EVENT_FAULT, 1)] (fun _ => true) = true := by decide +kernel

def sUartOverrun : State := inMode .service (with_ [(Reg.MBX_UART_CFG_EN, 1)] (on [1] (State.reset.onMgmt fun m => { m with uartRx := List.replicate 32 1 })))

/-- R462: a byte that meets a full receive FIFO of 32 is lost and OVERRUN is set. -/
theorem test_uart_overrun : does (.uartByteReceived 9 false) (sUartOverrun) [] [(Reg.MBX_UART_STATUS_OVERRUN, 1)] (fun _ => true) = true := by decide +kernel

def sEditionOfNoBytesIsInvalid : State := hostUp (atTurn 4)

/-- R471: a blob without a header is refused with reason 1. -/
theorem test_edition_of_no_bytes_is_invalid : completes (.editionStage ⟨1, 9⟩ 2 32 []) (sEditionOfNoBytesIsInvalid) (fun t => t.mgmt.staged == none && t.fld Reg.EDC_RESULT_REASON == 1 && answers t 0 == [(9, 0, 2, 1)]) = true := by decide +kernel

def sClusterWatchdogDropsReservations : State := on [7] (State.reset.onMemory fun m => { m with reserved := [(0, 5), (9, 7), (15, 6)] })

/-- R408: the cores of a restarted cluster lose their reservations; the others keep theirs. -/
theorem test_cluster_watchdog_drops_reservations : completes (.clusterWatchdogReset 1) (sClusterWatchdogDropsReservations) (fun t => t.memory.reserved == [(0, 5)]) = true := by decide +kernel

def sExtestNeedsTesten : State := inMode .service

/-- R529: with TESTEN low EXTEST selects BYPASS. -/
theorem test_extest_needs_testen : does (.tapInstructionUpdate .extest) (sExtestNeedsTesten) [.pins] [] (fun t => t.pins == { (sExtestNeedsTesten).pins with tap := .bypass }) = true := by decide +kernel

def sBootWithoutAnImage : State := State.reset.onStore fun t => { t with slots := #v[none, none], ext := #v[false, false] }

/-- R414: with no valid image and no boot extension the part stays in Boot and logs it. -/
theorem test_boot_without_an_image : completes .bootEnd (sBootWithoutAnImage) (fun t => t.power.mode == .boot && (t.mgmt.log.map (·.code)) == [0x0102]) = true := by decide +kernel

def sBootPopulationGap : State := { State.reset with board := { dram := [some {}, none] ++ List.replicate 5 (some {}) ++ [none] ++ List.replicate 4 (some {}) } }

/-- R341: a gap in the DRAM population enters Recovery with cause 4. -/
theorem test_boot_population_gap : completes .bootEnd (sBootPopulationGap) (fun t => t.power.mode == .recovery && t.fld Reg.PMC_MODE_REC_CAUSE == 4) = true := by decide +kernel

def sTurnEdgeCountsAMisvote : State := with_ [(Reg.TRN_VOTE_MISMATCH, 65534)] (inMode .service (atTurn 500))

/-- R502: an outvoted copy of the turn counter is counted, and the turn advances. -/
theorem test_turn_edge_counts_a_misvote : completes (.turnEdge { misvote := true }) (sTurnEdgeCountsAMisvote) (fun t => t.turn == 501 && t.fld Reg.TRN_VOTE_MISMATCH == 65535) = true := by decide +kernel

def sSpanEdgeSaturates : State := with_ [(Reg.SLU_ALLOT_BAL_BALANCE, 0xFFFFFFFE), (Reg.SLU_ALLOT_CREDIT_CREDIT, 5)] (inMode .service (atTurn 32))

/-- R120: the allotment credit is added at a span edge, and the balance saturates. -/
theorem test_span_edge_saturates : completes .spanEdge (sSpanEdgeSaturates) (fun t => t.fld Reg.SLU_ALLOT_BAL_BALANCE == 0xFFFFFFFF) = true := by decide +kernel

def sIdleBlock : State := State.reset

/-- The model's idle step: with no command waiting a step changes nothing (assumption log 1). -/
theorem test_idle_block : (match step (sIdleBlock) with | .next t => t == (sIdleBlock) | _ => false) = true := by decide +kernel

def sFrontCommandRuns : State := { inMode .service with pending := [.pwrFailAssert, .porNFall] }

/-- The front command is executed on the state with the queue's rest. -/
theorem test_front_command_runs : (match step (sFrontCommandRuns) with | .next t => t.pending == [.porNFall] && t.pins.pwrFailLow | _ => false) = true := by decide +kernel

/-! ### Witnesses: states and operands that meet the statements' hypotheses -/

def wStepKeepsCanonicalForm1 : State := { (with_ [(Reg.PMC_PS_PS, 3)] (State.reset.poke 0x1000 8 0x1234)) with pending := [.voteWrite 5 21 true] }
theorem witness_StepKeepsCanonicalForm :
  canonical wStepKeepsCanonicalForm1 = true := by decide +kernel

def wVotesHoldAndRetireDomains1 : State := on [21]
def wVotesHoldAndRetireDomains2 : State := State.reset
def wVotesHoldAndRetireDomains3 : State := domAs 22 (fun d => { d with state := .dropping, dropFrom := 3 }) (atTurn 60)
def wVotesHoldAndRetireDomains4 : State := domAs 6 (fun d => { d with state := .on, votes := [9] })
def wVotesHoldAndRetireDomains5 : State := (domAs 11 (fun d => { d with state := .on, votes := [9] })).onPower fun p => { p with exiting := some { began := 7, req := none } }
def wVotesHoldAndRetireDomains6 : State := domAs 6 (fun d => { d with state := .on, votes := [9, 8] })
def wVotesHoldAndRetireDomains7 : State := State.reset
def wVotesHoldAndRetireDomains8 : State := on [6]
theorem witness_VotesHoldAndRetireDomains :
  reaches wVotesHoldAndRetireDomains1 5 Reg.PMC_VOTE ∧
  (domPolicy 21 = 3 ∧ 5 ∉ (wVotesHoldAndRetireDomains1.dom 21).votes ∧ (wVotesHoldAndRetireDomains1.dom 21).state = .on) ∧
  reaches wVotesHoldAndRetireDomains2 5 Reg.PMC_VOTE ∧
  (5 ∉ (wVotesHoldAndRetireDomains2.dom 4).votes ∧ (wVotesHoldAndRetireDomains2.dom 4).state = .off ∧ wVotesHoldAndRetireDomains2.power.mode ≠ .recovery ∧ domPolicy 4 = 3) ∧
  reaches wVotesHoldAndRetireDomains3 7 Reg.PMC_VOTE ∧
  (7 ∉ (wVotesHoldAndRetireDomains3.dom 22).votes ∧ (wVotesHoldAndRetireDomains3.dom 22).state = .dropping ∧ domPolicy 22 = 3) ∧
  reaches wVotesHoldAndRetireDomains4 9 Reg.PMC_VOTE ∧
  (9 ∈ (wVotesHoldAndRetireDomains4.dom 6).votes ∧ (wVotesHoldAndRetireDomains4.dom 6).votes = [9] ∧ (wVotesHoldAndRetireDomains4.dom 6).state = .on ∧ domPolicy 6 = 3 ∧ wVotesHoldAndRetireDomains4.power.exiting.isSome = false) ∧
  reaches wVotesHoldAndRetireDomains5 9 Reg.PMC_VOTE ∧
  ((wVotesHoldAndRetireDomains5.dom 11).votes = [9] ∧ (wVotesHoldAndRetireDomains5.dom 11).state = .on ∧ domPolicy 11 = 3 ∧ wVotesHoldAndRetireDomains5.power.exiting.isSome = true ∧ 11 ∈ conserveDoms) ∧
  reaches wVotesHoldAndRetireDomains6 9 Reg.PMC_VOTE ∧
  (9 ∈ (wVotesHoldAndRetireDomains6.dom 6).votes ∧ (wVotesHoldAndRetireDomains6.dom 6).votes.erase 9 ≠ [] ∧ domPolicy 6 = 3) ∧
  reaches wVotesHoldAndRetireDomains7 9 Reg.PMC_VOTE ∧
  (domPolicy 23 ≠ 3 ∧ domPolicy 0 ≠ 3) ∧
  reaches wVotesHoldAndRetireDomains8 9 (Reg.PMC_DOM 4) ∧
  reaches wVotesHoldAndRetireDomains8 9 (Reg.PMC_DOM 13) ∧
  reaches wVotesHoldAndRetireDomains8 9 (Reg.PMC_DOM 6) ∧
  (retirable 4 = false ∧ retirable 13 = true ∧ wVotesHoldAndRetireDomains8.fld (Reg.PMC_DOM_RETIRE 13) = 0 ∧ retirable 6 = true ∧ wVotesHoldAndRetireDomains8.fld (Reg.PMC_DOM_RETIRE 6) = 0 ∧ retirable 8 = true) :=
  ⟨reaches_of (by decide +kernel), by decide +kernel, reaches_of (by decide +kernel), by decide +kernel, reaches_of (by decide +kernel), by decide +kernel, reaches_of (by decide +kernel), by decide +kernel, reaches_of (by decide +kernel), by decide +kernel, reaches_of (by decide +kernel), by decide +kernel, reaches_of (by decide +kernel), by decide +kernel, reaches_of (by decide +kernel), reaches_of (by decide +kernel), reaches_of (by decide +kernel), by decide +kernel⟩

def wDomainsDrop1 : State := domAs 22 (fun d => { d with state := .dropping, dropFrom := 3 }) (atTurn 66)
def wDomainsDrop2 : State := domAs 22 (fun d => { d with state := .dropping, dropFrom := 3, votes := [4] }) (atTurn 67)
def wDomainsDrop3 : State := with_ [(Reg.OCM_BANK_STATE 3, 1), (Reg.OCM_BANK_STATE 4, 2)] ((domAs 21 (fun d => { d with state := .dropping, dropFrom := 3 }) (atTurn 67)).poke 0x10300000 8 5)
def wDomainsDrop4 : State := domAs 23 (fun d => { d with state := .on, idleFrom := 5 }) (atTurn 5)
def wDomainsDrop5 : State := (on [13] (atTurn (2 ^ 30))).onPower fun p => { p with exiting := some { began := 7, req := none } }
def wDomainsDrop6 : State := domAs 23 (fun d => { d with state := .on }) (atTurn (2 ^ 30))
def wDomainsDrop7 : State := (domAs 23 (fun d => { d with state := .on }) (atTurn (2 ^ 30))).onStore fun t => { t with banks := #v[{ erase := some 7 }, {}] }
theorem witness_DomainsDrop :
  ((wDomainsDrop1.dom 22).state = .dropping ∧ wDomainsDrop1.turn < (wDomainsDrop1.dom 22).dropFrom + 64) ∧
  ((wDomainsDrop2.dom 22).state = .dropping ∧ (wDomainsDrop2.dom 22).dropFrom + 64 ≤ wDomainsDrop2.turn ∧ domainBanks 22 = []) ∧
  ((wDomainsDrop3.dom 21).state = .dropping ∧ (wDomainsDrop3.dom 21).dropFrom + 64 ≤ wDomainsDrop3.turn ∧ 3 ∈ domainBanks 21 ∧ wDomainsDrop3.bankState 4 = 2) ∧
  (domPolicy 23 = 2 ∧ (wDomainsDrop4.dom 23).state = .on ∧ wDomainsDrop4.turn < (wDomainsDrop4.dom 23).idleFrom + wDomainsDrop4.idleTimer 23) ∧
  (domPolicy 13 = 2 ∧ (wDomainsDrop5.dom 13).state = .on ∧ (wDomainsDrop5.dom 13).idleFrom + wDomainsDrop5.idleTimer 13 ≤ wDomainsDrop5.turn ∧ wDomainsDrop5.power.exiting.isSome = true ∧ (13 : Fin 24).val ∈ conserveDoms) ∧
  (domPolicy 23 = 2 ∧ (wDomainsDrop6.dom 23).state = .on ∧ (wDomainsDrop6.dom 23).idleFrom + wDomainsDrop6.idleTimer 23 ≤ wDomainsDrop6.turn ∧ wDomainsDrop6.power.exiting.isSome = false ∧ wDomainsDrop6.idleCond 23 = true) ∧
  (domPolicy 23 = 2 ∧ (wDomainsDrop7.dom 23).state = .on ∧ (wDomainsDrop7.dom 23).idleFrom + wDomainsDrop7.idleTimer 23 ≤ wDomainsDrop7.turn ∧ wDomainsDrop7.power.exiting.isSome = false ∧ wDomainsDrop7.idleCond 23 = false) :=
  ⟨by decide +kernel, by decide +kernel, by decide +kernel, by decide +kernel, by decide +kernel, by decide +kernel, by decide +kernel⟩

def wDomainsWake1 : State := atTurn 9
def wDomainsWake2 : State := on [4] (atTurn 9)
def wDomainsWake3 : State := domAs 4 (fun d => { d with state := .dropping, dropFrom := 3 }) (atTurn 60)
def wDomainsWake4 : State := domAs 4 (fun d => { d with state := .waking, wakeFrom := 3, wakeLen := 32 }) (atTurn 35)
def wDomainsWake5 : State := domAs 4 (fun d => { d with state := .waking, wakeFrom := 3, wakeLen := 32 }) (atTurn 34)
def wDomainsWake6 : State := domAs 13 (fun d => { d with state := .waking, wakeFrom := 0, wakeLen := 400 }) (atTurn 400)
def wDomainsWake7 : State := domAs 12 (fun d => { d with state := .waking, wakeFrom := 0, wakeLen := 4608 }) (atTurn 4608)
theorem witness_DomainsWake :
  ((wDomainsWake1.dom 2).state = .off ∧ (wDomainsWake1.dom 12).state = .off ∧ (wDomainsWake1.dom 13).state = .off ∧ (wDomainsWake1.dom 20).state = .off ∧ (wDomainsWake1.dom 4).state = .off ∧ wDomainsWake1.power.mode ≠ .recovery ∧ wDomainsWake1.power.mode ≠ .conserve) ∧
  (wDomainsWake2.dom 4).state = .on ∧
  (wDomainsWake3.dom 4).state = .dropping ∧
  ((wDomainsWake4.dom 4).state = .waking ∧ (wDomainsWake4.dom 4).wakeFrom + (wDomainsWake4.dom 4).wakeLen ≤ wDomainsWake4.turn ∧ (wDomainsWake4.dom 4).wakeLen ≠ 4608 ∧ domainBanks 4 = [] ∧ (wDomainsWake4.dom 4).stalled = [] ∧ (wDomainsWake4.dom 4).dropFrom ≤ (wDomainsWake4.dom 4).wakeFrom) ∧
  ((wDomainsWake5.dom 4).state = .waking ∧ wDomainsWake5.turn < (wDomainsWake5.dom 4).wakeFrom + (wDomainsWake5.dom 4).wakeLen) ∧
  ((wDomainsWake6.dom (groupDom 0)).state = .waking ∧ (wDomainsWake6.dom (groupDom 0)).wakeFrom + (wDomainsWake6.dom (groupDom 0)).wakeLen ≤ wDomainsWake6.turn ∧ (wDomainsWake6.dom (groupDom 0)).stalled = []) ∧
  ((wDomainsWake7.dom (if true then 12 else 11)).state = .waking ∧ (wDomainsWake7.dom 12).wakeLen = 4608 ∧ (wDomainsWake7.dom 12).wakeFrom + 4608 ≤ wDomainsWake7.turn ∧ (wDomainsWake7.dom 12).stalled = [] ∧ (wDomainsWake7.dom 12).dropFrom ≤ (wDomainsWake7.dom 12).wakeFrom) :=
  ⟨by decide +kernel, by decide +kernel, by decide +kernel, by decide +kernel, by decide +kernel, by decide +kernel, by decide +kernel⟩

def wConserveEntersChangesAndExits1 : State := inMode .service ((atTurn 90).onPower fun p => { p with entry := some { began := 7, target := 3, req := none }, operPs := 0 })
def wConserveEntersChangesAndExits2 : State := inMode .conserve ((on [4, 5, 6, 7, 8, 9, 10, 11, 12, 13, 14, 15, 16, 17, 18, 19, 20, 21, 22, 23] (atTurn 90)).onPower fun p => { p with exiting := some { began := 7, req := none }, operPs := 1 })
def wConserveEntersChangesAndExits3 : State := inMode .service (((atTurn 90).setFlds [(Reg.LDP_DLX_TABLE_BANK, 9), (Reg.OCM_BANK_STATE 9, 1)]).onPower fun p => { p with apstOn := true })
def wConserveEntersChangesAndExits4 : State := inMode .surge ((atTurn 90).onPower fun p => { p with apstOn := true })
def wConserveEntersChangesAndExits5 : State := inMode .conserve (State.reset.onPower fun p => { p with psChange := some (4, none) })
def wConserveEntersChangesAndExits6 : State := inMode .conserve ((on [11, 12]).onPower fun p => { p with psChange := some (3, none) })
theorem witness_ConserveEntersChangesAndExits :
  (wConserveEntersChangesAndExits1.power.entry = some { began := 7, target := 3, req := none } ∧ wConserveEntersChangesAndExits1.power.mode = .service ∧ wConserveEntersChangesAndExits1.oldPlans 7 = false ∧ wConserveEntersChangesAndExits1.conserveOff = true) ∧
  (wConserveEntersChangesAndExits2.power.exiting = some { began := 7, req := none } ∧ wConserveEntersChangesAndExits2.power.mode = .conserve ∧ wConserveEntersChangesAndExits2.conserveOn = true ∧ wConserveEntersChangesAndExits2.fld Reg.PMC_MODE_REQ_SEAL = 0 ∧ wConserveEntersChangesAndExits2.power.operPs < 3) ∧
  (wConserveEntersChangesAndExits3.power.apstOn = true ∧ wConserveEntersChangesAndExits3.fld Reg.SLU_STATUS_SEALED = 0 ∧ wConserveEntersChangesAndExits3.power.mode = .service ∧ wConserveEntersChangesAndExits3.power.entry = none ∧ 9 ∈ wConserveEntersChangesAndExits3.copyBanks ∧ wConserveEntersChangesAndExits3.bankState 9 = 1) ∧
  ((wConserveEntersChangesAndExits4.power.apstOn = true ∧ wConserveEntersChangesAndExits4.fld Reg.SLU_STATUS_SEALED = 0 ∧ wConserveEntersChangesAndExits4.power.mode = .surge ∧ wConserveEntersChangesAndExits4.power.entry = none ∧ (∀ b ∈ wConserveEntersChangesAndExits4.copyBanks, wConserveEntersChangesAndExits4.bankState b ≠ 1))) ∧
  ((wConserveEntersChangesAndExits5.power.psChange = some (4, none) ∧ wConserveEntersChangesAndExits5.power.mode = .conserve ∧ (wConserveEntersChangesAndExits5.dom 11).state ≠ .waking ∧ (wConserveEntersChangesAndExits5.dom 12).state ≠ .waking ∧ (∀ b ∈ wConserveEntersChangesAndExits5.copyBanks, wConserveEntersChangesAndExits5.fld (Reg.OCM_BANK_REQ b) = 2 → wConserveEntersChangesAndExits5.bankState b = 2))) ∧
  (wConserveEntersChangesAndExits6.power.psChange = some (3, none) ∧ wConserveEntersChangesAndExits6.power.mode = .conserve ∧ (wConserveEntersChangesAndExits6.dom 11).state = .on ∧ (wConserveEntersChangesAndExits6.dom 12).state = .on ∧ (wConserveEntersChangesAndExits6.dom 11).votes = [] ∧ (wConserveEntersChangesAndExits6.dom 12).votes = []) :=
  ⟨by decide +kernel, by decide +kernel, by decide +kernel, by decide +kernel, by decide +kernel, by decide +kernel⟩

def wModeRequestsAreTaken1 : State := inMode .service
def wModeRequestsAreTaken2 : State := (inMode .service).onCollector fun c => { c with pairRun := [(0x440, 16)] }
theorem witness_ModeRequestsAreTaken :
  reaches wModeRequestsAreTaken1 5 Reg.PMC_MODE_REQ ∧
  (wModeRequestsAreTaken1.power.mode ≠ .conserve ∧ wModeRequestsAreTaken1.power.mode = .service ∧ (klook 9 wModeRequestsAreTaken1.collector.pairRun).getD 0 < 16) ∧
  (16 ≤ (klook 0x440 wModeRequestsAreTaken2.collector.pairRun).getD 0 ∧ wModeRequestsAreTaken2.power.mode ≠ .conserve) :=
  ⟨reaches_of (by decide +kernel), by decide +kernel, by decide +kernel⟩

def wThermtripStaysUntilPowerOnReset1 : State := inMode .service
def wThermtripStaysUntilPowerOnReset2 : State := (inMode .service).onPins fun p => { p with thermtrip := true }
theorem witness_ThermtripStaysUntilPowerOnReset :
  (wThermtripStaysUntilPowerOnReset1.power.mode ≠ .off ∧ wThermtripStaysUntilPowerOnReset1.pins.thermtrip = false) ∧
  wThermtripStaysUntilPowerOnReset2.pins.thermtrip = true :=
  ⟨by decide +kernel, by decide +kernel⟩

def wGlobalOperationsIssueAndComplete1 : State := inMode .service (on [5] (atTurn 9))
def wGlobalOperationsIssueAndComplete2 : State := on [5] (atTurn 9)
def wGlobalOperationsIssueAndComplete3 : State := (on [5] (atTurn 9)).onSluice fun x => { x with globals := [(2, 6, 9)] }
def wGlobalOperationsIssueAndComplete4 : State := (on [5] (atTurn 13)).onSluice fun x => { x with globals := [(2, 6, 9)] }
def wGlobalOperationsIssueAndComplete5 : State := inMode .service ((on [5] (atTurn 13)).onSluice fun x => { x with globals := [(2, 6, 13)] })
theorem witness_GlobalOperationsIssueAndComplete :
  reaches wGlobalOperationsIssueAndComplete1 5 Reg.TRN_GLOBAL_CMD ∧
  (wGlobalOperationsIssueAndComplete1.sluice.globals = [] ∧ wGlobalOperationsIssueAndComplete1.bootMode = false) ∧
  reaches wGlobalOperationsIssueAndComplete2 5 Reg.TRN_GLOBAL_CMD ∧
  (wGlobalOperationsIssueAndComplete2.bootMode = true ∧ wGlobalOperationsIssueAndComplete2.sluice.globals = []) ∧
  reaches wGlobalOperationsIssueAndComplete3 5 Reg.TRN_GLOBAL_CMD ∧
  (wGlobalOperationsIssueAndComplete3.bootMode = true ∧ wGlobalOperationsIssueAndComplete3.sluice.globals = [(2, 6, 9)] ∧ 9 ≤ wGlobalOperationsIssueAndComplete3.turn ∧ wGlobalOperationsIssueAndComplete3.turn < 9 + 4) ∧
  ((wGlobalOperationsIssueAndComplete4.sluice.globals = [(2, 6, 9)] ∧ 9 + 4 ≤ wGlobalOperationsIssueAndComplete4.turn ∧ ∀ g : Fin 8, (wGlobalOperationsIssueAndComplete4.dom (groupDom g)).state ≠ .waking)) ∧
  (wGlobalOperationsIssueAndComplete5.sluice.globals = [(2, 6, wGlobalOperationsIssueAndComplete5.turn)] ∧ wGlobalOperationsIssueAndComplete5.power.mode ≠ .recovery ∧ (wGlobalOperationsIssueAndComplete5.dom (groupDom 7)).state = .off ∧ (wGlobalOperationsIssueAndComplete5.dom 5).state ≠ .off) :=
  ⟨reaches_of (by decide +kernel), by decide +kernel, reaches_of (by decide +kernel), by decide +kernel, reaches_of (by decide +kernel), by decide +kernel, by decide +kernel, by decide +kernel⟩

def wBanksChangePowerState1 : State := with_ [(Reg.OCM_BANK_STATE 4, 2), (Reg.OCM_BANK_STATE 5, 1), (Reg.OCM_BANK_OWNER 3, 5), (Reg.OCM_BANK_OWNER 4, 5), (Reg.OCM_BANK_OWNER 5, 5)]
def wBanksChangePowerState2 : State := (with_ [(Reg.OCM_BANK_STATE 5, 1)]).onMemory fun m => { m with bankWait := [(5, 2)], bytes := [(0x10500000, 7), (0x10600000, 8)] }
def wBanksChangePowerState3 : State := (with_ [(Reg.OCM_BANK_STATE 5, 1)]).onMemory fun m => { m with bankWait := [(5, 0)], bytes := [(0x10500000, 7), (0x105FFFFF, 7), (0x10600000, 8)] }
theorem witness_BanksChangePowerState :
  reaches wBanksChangePowerState1 5 (Reg.OCM_BANK 3) ∧
  reaches wBanksChangePowerState1 5 (Reg.OCM_BANK 4) ∧
  reaches wBanksChangePowerState1 5 (Reg.OCM_BANK 5) ∧
  (bankExists 3 = true ∧ bankExists 4 = true ∧ bankExists 5 = true ∧ bankExists 0x80 = true ∧ wBanksChangePowerState1.fld (Reg.OCM_BANK_OWNER 3) = 5 ∧ wBanksChangePowerState1.bankState 3 = 0 ∧ wBanksChangePowerState1.bankState 4 = 2 ∧ wBanksChangePowerState1.bankState 5 = 1 ∧ wBanksChangePowerState1.bankState 0x80 = 0) ∧
  (klook 5 wBanksChangePowerState2.memory.bankWait = some 2 ∧ wBanksChangePowerState2.bankState 5 = 1 ∧ wBanksChangePowerState2.fld (Reg.OCM_BANK_SWEEP 5) = 0) ∧
  (bankBase 5 = some 0x10500000 ∧ klook 5 wBanksChangePowerState3.memory.bankWait = some 0 ∧ wBanksChangePowerState3.bankState 5 = 1 ∧ wBanksChangePowerState3.fld (Reg.OCM_BANK_SWEEP 5) = 0) :=
  ⟨reaches_of (by decide +kernel), reaches_of (by decide +kernel), reaches_of (by decide +kernel), by decide +kernel, by decide +kernel, by decide +kernel⟩

def wBanksWakeSweptOrChecked1 : State := (with_ [(Reg.OCM_BANK_SWEEP 5, 1), (Reg.OCM_BANK_REQ 5, 1)] (atTurn 40)).onMemory fun m => { m with bankDue := [(5, 40)], bytes := [(0x10500000, 7), (0x105FFFFF, 7), (0x10600000, 8)] }
def wBanksWakeSweptOrChecked2 : State := (with_ [(Reg.OCM_BANK_SWEEP 5, 1), (Reg.OCM_BANK_REQ 5, 1), (Reg.OCM_BANK_STATE 5, 2)]).onMemory fun m => { m with bytes := [(0x10500000, 7), (0x10600000, 8)], canaries := [(5, canaryWords 0 5)] }
def wBanksWakeSweptOrChecked3 : State := (with_ [(Reg.OCM_BANK_SWEEP 5, 1), (Reg.OCM_BANK_REQ 5, 1), (Reg.OCM_BANK_STATE 5, 1), (Reg.OCM_BANK_LOST 5, 1)] (atTurn 40)).onMemory fun m => { m with bankDue := [(5, 41)], bytes := [(0x10600000, 8)] }
def wBanksWakeSweptOrChecked4 : State := (with_ [(Reg.OCM_BANK_SWEEP 5, 1), (Reg.OCM_BANK_REQ 5, 1), (Reg.OCM_BANK_STATE 5, 1), (Reg.OCM_BANK_LOST 5, 1)] (atTurn 41)).onMemory fun m => { m with bankDue := [(5, 41)], bytes := [(0x10600000, 8)] }
theorem witness_BanksWakeSweptOrChecked :
  (bankExists 5 = true ∧ bankBase 5 = some 0x10500000 ∧ wBanksWakeSweptOrChecked1.fld (Reg.OCM_BANK_SWEEP 5) = 1 ∧ wBanksWakeSweptOrChecked1.fld (Reg.OCM_BANK_REQ 5) = 1 ∧ wBanksWakeSweptOrChecked1.memory.bankStall = [] ∧ wBanksWakeSweptOrChecked1.bankState 5 = 0 ∧ (klook 5 wBanksWakeSweptOrChecked1.memory.bankDue).getD 0 ≤ wBanksWakeSweptOrChecked1.turn) ∧
  (wBanksWakeSweptOrChecked2.bankState 5 = 2 ∧ wBanksWakeSweptOrChecked2.memory.flips = [] ∧ wBanksWakeSweptOrChecked2.fld (Reg.OCM_BANK_LOST 5) = 0 ∧ wBanksWakeSweptOrChecked2.fld (Reg.OCM_BANK_SWEEP 5) = 1 ∧ wBanksWakeSweptOrChecked2.fld (Reg.OCM_BANK_REQ 5) = 1 ∧ (klook 5 wBanksWakeSweptOrChecked2.memory.bankDue).getD 0 ≤ wBanksWakeSweptOrChecked2.turn) ∧
  (wBanksWakeSweptOrChecked3.fld (Reg.OCM_BANK_SWEEP 5) = 1 ∧ wBanksWakeSweptOrChecked3.fld (Reg.OCM_BANK_REQ 5) = 1 ∧ wBanksWakeSweptOrChecked3.memory.bankStall = [] ∧ wBanksWakeSweptOrChecked3.bankState 5 = 1 ∧ wBanksWakeSweptOrChecked3.turn < (klook 5 wBanksWakeSweptOrChecked3.memory.bankDue).getD 0) ∧
  (wBanksWakeSweptOrChecked4.fld (Reg.OCM_BANK_SWEEP 5) = 1 ∧ wBanksWakeSweptOrChecked4.fld (Reg.OCM_BANK_REQ 5) = 1 ∧ wBanksWakeSweptOrChecked4.memory.bankStall = [] ∧ wBanksWakeSweptOrChecked4.bankState 5 = 1 ∧ (klook 5 wBanksWakeSweptOrChecked4.memory.bankDue).getD 0 ≤ wBanksWakeSweptOrChecked4.turn) :=
  ⟨by decide +kernel, by decide +kernel, by decide +kernel, by decide +kernel⟩

def wBankRegistersAndRepairs1 : State := with_ [(Reg.OCM_BANK_LOST 5, 1), (Reg.OCM_STATUS_LOST_COUNT, 2), (Reg.OCM_BANK_STATE 5, 1), (Reg.OCM_BANK_REQ 5, 1), (Reg.OCM_BANK_OWNER 5, 9), (Reg.OCM_BANK_STATE 0x1F, 1)]
def wBankRegistersAndRepairs2 : State := (with_ [(Reg.OCM_REPAIR_STATUS_BUSY, 1), (Reg.OCM_BANK_SPARES 5, 2)]).onMemory fun m => { m with burn := some ⟨5, 3⟩ }
def wBankRegistersAndRepairs3 : State := (with_ [(Reg.OCM_REPAIR_STATUS_BUSY, 1), (Reg.OCM_BANK_SPARES 5, 0)]).onMemory fun m => { m with burn := some ⟨5, 3⟩ }
theorem witness_BankRegistersAndRepairs :
  reaches wBankRegistersAndRepairs1 9 (Reg.OCM_BANK 5) ∧
  reaches wBankRegistersAndRepairs1 0x60 (Reg.OCM_BANK 5) ∧
  reaches wBankRegistersAndRepairs1 9 Reg.OCM_REPAIR ∧
  (bankExists 5 = true ∧ wBankRegistersAndRepairs1.fld (Reg.OCM_BANK_LOST 5) = 1 ∧ wBankRegistersAndRepairs1.fld (Reg.OCM_BANK_OWNER 5) = 9 ∧ wBankRegistersAndRepairs1.bankState 5 = 1 ∧ wBankRegistersAndRepairs1.fld (Reg.OCM_BANK_REQ 5) = 1 ∧ wBankRegistersAndRepairs1.bankState 0x1F = 1 ∧ wBankRegistersAndRepairs1.fld (Reg.OCM_BANK_DISABLE 5) = 0 ∧ (∀ c : Fin 256, bankExists c.val = true → wBankRegistersAndRepairs1.fld (Reg.OCM_BANK_REDIRECT c) ≠ 0x1F) ∧ wBankRegistersAndRepairs1.fld Reg.OCM_REPAIR_STATUS_BUSY = 0) ∧
  reaches wBankRegistersAndRepairs2 9 Reg.OCM_REPAIR ∧
  (wBankRegistersAndRepairs2.fld Reg.OCM_REPAIR_STATUS_BUSY = 1 ∧ wBankRegistersAndRepairs2.memory.burn = some ⟨5, 3⟩) ∧
  (wBankRegistersAndRepairs3.memory.burn = some ⟨5, 3⟩ ∧ wBankRegistersAndRepairs3.fld (Reg.OCM_BANK_SPARES 5) = 0) :=
  ⟨reaches_of (by decide +kernel), reaches_of (by decide +kernel), reaches_of (by decide +kernel), by decide +kernel, reaches_of (by decide +kernel), by decide +kernel, by decide +kernel⟩

def wFlipMasksArmAndApply1 : State := inMode .service (on [11, 12])
def wFlipMasksArmAndApply2 : State := inMode .spill
def wFlipMasksArmAndApply3 : State := with_ [(Reg.OCM_FLIPMASK2_ARMED, 1), (Reg.OCM_FLIPMASK2_MEM_SEL, 5), (Reg.OCM_FLIPMASK2_CLIENT, 0x3FF), (Reg.OCM_FLIPMASK0_DATA_LO, 3), (Reg.OCM_FLIPMASK1_DATA_HI, 1)]
def wFlipMasksArmAndApply4 : State := with_ [(Reg.DMC_FLIPMASK2_ARMED 6, 1), (Reg.DMC_FLIPMASK2_SUBCH 6, 1), (Reg.DMC_FLIPMASK2_WORD 6, 7), (Reg.DMC_FLIPMASK2_CLIENT 6, 8), (Reg.DMC_FLIPMASK1_DATA_HI 6, 1), (Reg.DMC_FLIPMASK2_ASC 6, 9), (Reg.DMC_LAYOUT_K, 6), (Reg.DMC_LAYOUT_PRESENT, 0xFFF)]
theorem witness_FlipMasksArmAndApply :
  reaches wFlipMasksArmAndApply1 5 Reg.OCM_FLIPMASK2 ∧
  reaches wFlipMasksArmAndApply1 5 (Reg.DMC_FLIPMASK2 2) ∧
  (wFlipMasksArmAndApply1.power.mode ≠ .spill ∧ bitsOf 0x83FF10AB 31 1 = 1 ∧ bitsOf 0x83FF10AB 26 5 = 0 ∧ bitsOf 0xBFFF10AB 31 1 = 1 ∧ bitsOf 0xBFFF10AB 30 1 = 0) ∧
  reaches wFlipMasksArmAndApply2 5 Reg.OCM_FLIPMASK2 ∧
  (wFlipMasksArmAndApply2.power.mode = .spill ∧ bitsOf 0x83FF10AB 26 5 = 0) ∧
  wFlipMasksArmAndApply3.ocmMaskHits 8 (wFlipMasksArmAndApply3.storage 0x10500008) = true ∧
  (wFlipMasksArmAndApply4.dmcMaskHits 8 (wFlipMasksArmAndApply4.storage (dramBase + 3 * 4096 + 56)) = true ∧ (wFlipMasksArmAndApply4.sliceOf ((wFlipMasksArmAndApply4.storage (dramBase + 3 * 4096 + 56) - dramBase) / 4096)).1 = 6) :=
  ⟨reaches_of (by decide +kernel), reaches_of (by decide +kernel), by decide +kernel, reaches_of (by decide +kernel), by decide +kernel, by decide +kernel, by decide +kernel⟩

def wAtomicsAndReservations1 : State := (with_ [(Reg.OCM_BANK_STATE 0x45, 1)] (on [6])).poke 0x01500008 8 0xF000000180000002
def wAtomicsAndReservations2 : State := ((with_ [(Reg.OCM_BANK_STATE 0x45, 1)] (on [6])).poke 0x01500008 8 0xF000000180000002).onMemory fun m => { m with reserved := [(7, 0x01500008 / 64), (5, 0x01500008 / 64), (3, 9)] }
theorem witness_AtomicsAndReservations :
  ready wAtomicsAndReservations1 (wAtomicsAndReservations1.resolve 5 8) ∧
  ready wAtomicsAndReservations1 (wAtomicsAndReservations1.resolve 5 12) ∧
  noMask wAtomicsAndReservations1 ∧
  (takesAtomics (wAtomicsAndReservations1.resolve 5 8) = true ∧ wAtomicsAndReservations1.checkWord (wAtomicsAndReservations1.storage (wAtomicsAndReservations1.resolve 5 8)) = .clean ∧ wAtomicsAndReservations1.resolve 5 8 = 0x01500008 ∧ takesAtomics (wAtomicsAndReservations1.resolve 5 12) = true ∧ wAtomicsAndReservations1.checkWord (wAtomicsAndReservations1.storage (wAtomicsAndReservations1.resolve 5 12)) = .clean) ∧
  ready wAtomicsAndReservations2 (wAtomicsAndReservations2.resolve 5 8) ∧
  noMask wAtomicsAndReservations2 ∧
  (5, wAtomicsAndReservations2.storage (wAtomicsAndReservations2.resolve 5 8) / 64) ∈ wAtomicsAndReservations2.memory.reserved :=
  ⟨ready_of (by decide +kernel), ready_of (by decide +kernel), noMask_of (by decide +kernel), by decide +kernel, ready_of (by decide +kernel), noMask_of (by decide +kernel), by decide +kernel⟩

def wAliasAndMailboxWrites1 : State := ((with_ [(Reg.OCM_BANK_STATE 5, 1), (Reg.OCM_BANK_STATE 0x20, 1)] (on [1, 21])).poke 0x10500008 8 0xF0F0).poke 0x18000010 8 0x1122334455667788
theorem witness_AliasAndMailboxWrites :
  ready wAliasAndMailboxWrites1 0x11500008 ∧
  ready wAliasAndMailboxWrites1 0x12500008 ∧
  noMask wAliasAndMailboxWrites1 ∧
  ready wAliasAndMailboxWrites1 0x18000010 ∧
  (hasAliases 0x11500008 = true ∧ aliasOf 0x11500008 = 1 ∧ hasAliases 0x12500008 = true ∧ aliasOf 0x12500008 = 2 ∧ wAliasAndMailboxWrites1.checkWord (wAliasAndMailboxWrites1.storage 0x11500008) = .clean ∧ wAliasAndMailboxWrites1.checkWord (wAliasAndMailboxWrites1.storage 0x12500008) = .clean ∧ bankOf 0x18000010 = some 0x20 ∧ wAliasAndMailboxWrites1.checkWord (wAliasAndMailboxWrites1.storage 0x18000010) = .clean) :=
  ⟨ready_of (by decide +kernel), ready_of (by decide +kernel), noMask_of (by decide +kernel), ready_of (by decide +kernel), by decide +kernel⟩

def wErrorsAreCountedAndReported1 : State := on [21] (with_ [(Reg.OCM_BANK_STATE 5, 1)])
def wErrorsAreCountedAndReported2 : State := (State.reset.onCollector fun c => { c with parity := [(40, 1023), (41, 1024)] }).onDom 7 fun d => { d with state := .retired }
theorem witness_ErrorsAreCountedAndReported :
  (¬ (0x80 ≤ 5 ∧ 5 ≤ 0xBF) ∧ bankOf (wErrorsAreCountedAndReported1.storage 0x10500008) = some 5 ∧ 0x80 ≤ 0x80 ∧ 0x80 ≤ 0xBF) ∧
  ((klook (5 * 8 + 0) wErrorsAreCountedAndReported2.collector.parity).getD 0 < 1024 ∧ 1024 ≤ (klook (5 * 8 + 1) wErrorsAreCountedAndReported2.collector.parity).getD 0 ∧ (wErrorsAreCountedAndReported2.dom 7).state = .retired) :=
  ⟨by decide +kernel, by decide +kernel⟩

def wTrainingAndModeRegisters1 : State := on [11, 12]
def wTrainingAndModeRegisters2 : State := (on [11, 12]).onMemory fun m => { m with modeRegs := [(modeKey 7 0x2A true false, 0x99)] }
def wTrainingAndModeRegisters3 : State := with_ [(Reg.DMC_TRAIN_RESULT_BUSY 2, 1), (Reg.DMC_TRAIN_CTRL_OP 2, 2)] (on [11, 12])
def wTrainingAndModeRegisters4 : State := with_ [(Reg.DMC_TRAIN_RESULT_BUSY 2, 1), (Reg.DMC_TRAIN_CTRL_OP 2, 3)] (on [11, 12])
theorem witness_TrainingAndModeRegisters :
  reaches wTrainingAndModeRegisters1 0x60 (Reg.DMC_TRAIN_CTRL 2) ∧
  reaches wTrainingAndModeRegisters1 0x60 (Reg.DMC_MRW 7) ∧
  wTrainingAndModeRegisters1.fld (Reg.DMC_TRAIN_RESULT_BUSY 2) = 0 ∧
  reaches wTrainingAndModeRegisters2 0x60 (Reg.DMC_MRW 7) ∧
  klook (modeKey 7 0x2A true false) wTrainingAndModeRegisters2.memory.modeRegs = some 0x99 ∧
  reaches wTrainingAndModeRegisters3 0x60 (Reg.DMC_TRAIN_CTRL 2) ∧
  (wTrainingAndModeRegisters3.fld (Reg.DMC_TRAIN_RESULT_BUSY 2) = 1 ∧ wTrainingAndModeRegisters3.fld (Reg.DMC_TRAIN_CTRL_OP 2) = 2) ∧
  (wTrainingAndModeRegisters4.fld (Reg.DMC_TRAIN_RESULT_BUSY 2) = 1 ∧ wTrainingAndModeRegisters4.fld (Reg.DMC_TRAIN_CTRL_OP 2) = 3) :=
  ⟨reaches_of (by decide +kernel), reaches_of (by decide +kernel), by decide +kernel, reaches_of (by decide +kernel), by decide +kernel, reaches_of (by decide +kernel), by decide +kernel, by decide +kernel⟩

def wFillsWindowsAndRefreshes1 : State := (with_ [(Reg.DMC_FILL_GO 6, 1), (Reg.DMC_LAYOUT_K, 6), (Reg.DMC_LAYOUT_PRESENT, 0xFFF)] (on [11, 12] (atTurn 31294))).onMemory fun m => { m with windows := [(6, 44), (7, 45)], bytes := [(dramBase, 1), (dramBase + 2 * 4096, 5), (dramBase + 3 * 4096 + 7, 9)], flips := [(dramBase, ⟨1, 0, 0⟩), (dramBase + 2 * 4096, ⟨1, 0, 0⟩)], rows := [⟨6, 0, 0, 0, 0, [], 3, false, false, []⟩, ⟨7, 0, 0, 0, 0, [], 3, false, false, []⟩], hot := [6] }
theorem witness_FillsWindowsAndRefreshes :
  reaches wFillsWindowsAndRefreshes1 0x60 (Reg.DMC_FILL 6) ∧
  (wFillsWindowsAndRefreshes1.fld (Reg.DMC_FILL_GO 6) = 1 ∧ wFillsWindowsAndRefreshes1.fld (Reg.DMC_FILL_GO 0) = 0 ∧ wFillsWindowsAndRefreshes1.memory.hot.count 6 ≤ 1 ∧ (klook 6 wFillsWindowsAndRefreshes1.memory.windows).getD 0 + 31250 ≤ wFillsWindowsAndRefreshes1.turn ∧ wFillsWindowsAndRefreshes1.turn < (klook 7 wFillsWindowsAndRefreshes1.memory.windows).getD 0 + 31250) :=
  ⟨reaches_of (by decide +kernel), by decide +kernel⟩

def wUncorrectableBlocksAreRemapped1 : State := with_ [(Reg.DMC_SCRUB_ENABLE 0, 1), (Reg.DMC_LAYOUT_K, 6), (Reg.DMC_LAYOUT_PRESENT, 0xFFF), (Reg.DMC_REMAP_BASE_BASE_GIB, 8)]
def wUncorrectableBlocksAreRemapped2 : State := State.reset.onMemory fun m => { m with remaps := [⟨3, 9, true, [1]⟩, ⟨4, 10, true, []⟩], flips := [(dramBase + 3 * 4096, ⟨3, 0, 0⟩), (dramBase + 3 * 4096 + 8, ⟨1, 0, 0⟩), (dramBase + 4 * 4096, ⟨1, 0, 0⟩)] }
theorem witness_UncorrectableBlocksAreRemapped :
  ((24 < 2 ^ 28 ∧ (∀ r ∈ wUncorrectableBlocksAreRemapped1.memory.remaps, r.block ≠ 24) ∧ (wUncorrectableBlocksAreRemapped1.remapTarget 24).isSome = true ∧ wUncorrectableBlocksAreRemapped1.fld (Reg.DMC_REMAP_USED (wUncorrectableBlocksAreRemapped1.sliceOf 24).1) < 4096 ∧ (wUncorrectableBlocksAreRemapped1.sliceOf 24).1 = 0 ∧ wUncorrectableBlocksAreRemapped1.fld (Reg.DMC_SCRUB_ENABLE 0) = 1)) ∧
  ({ block := 3, target := 9, copying := true, lines := [1] } : Remap) ∈ wUncorrectableBlocksAreRemapped2.memory.remaps :=
  ⟨by decide +kernel, by decide +kernel⟩

def wDmaRingsBurstsAndAborts1 : State := with_ [(Reg.DMA_ASSIGN_OWNER 5, 9), (Reg.DMA_RING_PTR_HEAD 5, 14), (Reg.DMA_RING_PTR_TAIL 5, 2), (Reg.DMA_STATUS_STATE 5, 3)] (on [22])
def wDmaRingsBurstsAndAborts2 : State := ((with_ [(Reg.DMA_ASSIGN_OWNER 5, 9), (Reg.DMA_ASSIGN_REQ_LINE 5, 3), (Reg.DMA_RING_PTR_HEAD 5, 15), (Reg.DMA_RING_BASE_HI_BASE_HI 5, 0x100), (Reg.OCM_BANK_STATE 0, 1)] (domAs 22 (fun d => { d with state := .on, votes := [0x45, 0x46] }) (on [21])))).onDma 5 fun c => { c with job := some { desc := ⟨0x10000000, 0x10001000, 64, 0x0E80⟩, moved := 24 } }
def wDmaRingsBurstsAndAborts3 : State := (with_ [(Reg.DMA_ASSIGN_OWNER 5, 9)] (on [22])).onDma 5 fun c => { c with job := some { desc := ⟨0x10000000, 0x10001000, 64, 0x0E80⟩, moved := 56, inFlight := true } }
def wDmaRingsBurstsAndAborts4 : State := (with_ [(Reg.DMA_ASSIGN_OWNER 5, 9)] (on [22])).onDma 5 fun c => { c with job := some { desc := ⟨0x10000000, 0x10001000, 64, 0x0E80⟩, moved := 48, inFlight := true } }
theorem witness_DmaRingsBurstsAndAborts :
  reaches wDmaRingsBurstsAndAborts1 9 (Reg.DMA_RING_PTR 5) ∧
  reaches wDmaRingsBurstsAndAborts1 9 (Reg.DMA_CTRL 5) ∧
  reaches wDmaRingsBurstsAndAborts1 8 (Reg.DMA_CTRL 5) ∧
  (wDmaRingsBurstsAndAborts1.fld (Reg.DMA_ASSIGN_OWNER 5) = 9 ∧ wDmaRingsBurstsAndAborts1.dmaRing 5 = 16 ∧ wDmaRingsBurstsAndAborts1.fld (Reg.DMA_STATUS_STATE 5) = 3 ∧ wDmaRingsBurstsAndAborts1.fld (Reg.DMA_STATUS_STATE 6) ≠ 3) ∧
  (sidesOpen wDmaRingsBurstsAndAborts2 ⟨0x10000000, 0x10001000, 64, 0x0E80⟩) ∧
  noMask wDmaRingsBurstsAndAborts2 ∧
  reaches wDmaRingsBurstsAndAborts2 9 (Reg.DMA_CTRL 5) ∧
  (wDmaRingsBurstsAndAborts2.dma[(5 : Fin 32)].job = some { desc := ⟨0x10000000, 0x10001000, 64, 0x0E80⟩, moved := 24 } ∧ wDmaRingsBurstsAndAborts2.fld (Reg.DMA_ASSIGN_OWNER 5) = 9 ∧ wDmaRingsBurstsAndAborts2.power.mode ≠ .spill ∧ wDmaRingsBurstsAndAborts2.lineAsserted 5 (Desc.burst ⟨0x10000000, 0x10001000, 64, 0x0E80⟩) = true) ∧
  reaches wDmaRingsBurstsAndAborts3 9 (Reg.DMA_CTRL 5) ∧
  (wDmaRingsBurstsAndAborts3.dma[(5 : Fin 32)].job = some { desc := ⟨0x10000000, 0x10001000, 64, 0x0E80⟩, moved := 56, inFlight := true } ∧ 56 + Desc.burstFrom ⟨0x10000000, 0x10001000, 64, 0x0E80⟩ 56 = 64 ∧ wDmaRingsBurstsAndAborts3.fld (Reg.DMA_ASSIGN_OWNER 5) = 9) ∧
  reaches wDmaRingsBurstsAndAborts4 9 (Reg.DMA_CTRL 5) ∧
  (wDmaRingsBurstsAndAborts4.dma[(5 : Fin 32)].job = some { desc := ⟨0x10000000, 0x10001000, 64, 0x0E80⟩, moved := 48, inFlight := true } ∧ 48 + Desc.burstFrom ⟨0x10000000, 0x10001000, 64, 0x0E80⟩ 48 ≠ 64 ∧ wDmaRingsBurstsAndAborts4.fld (Reg.DMA_ASSIGN_OWNER 5) = 9) :=
  ⟨reaches_of (by decide +kernel), reaches_of (by decide +kernel), reaches_of (by decide +kernel), by decide +kernel, sidesOpen_of (by decide +kernel), noMask_of (by decide +kernel), reaches_of (by decide +kernel), by decide +kernel, reaches_of (by decide +kernel), by decide +kernel, reaches_of (by decide +kernel), by decide +kernel⟩

def wDmaDescriptorsRun1 : State := on [22]
def wDmaDescriptorsRun2 : State := ((((with_ [(Reg.DMA_CTRL_ENABLE 5, 1), (Reg.DMA_RING_PTR_TAIL 5, 1), (Reg.DMA_RING_BASE_LO_BASE_LO 5, 0x18000), (Reg.OCM_BANK_STATE 0, 1), (Reg.OCM_BANK_STATE 0x20, 1)] (on [1, 21, 22])).poke 0x18000000 8 0x10000004).poke 0x18000008 8 0x10000009).poke 0x18000010 4 20).poke 0x18000014 4 0x0C00 |>.poke 0x10000000 8 0x1122334455667788 |>.poke 0x10000008 8 0x99AABBCCDDEEFF00 |>.poke 0x10000010 8 0x0102030405060708
def wDmaDescriptorsRun3 : State := ((((with_ [(Reg.DMA_CTRL_ENABLE 5, 1), (Reg.DMA_RING_PTR_TAIL 5, 1), (Reg.DMA_RING_BASE_LO_BASE_LO 5, 0x18000), (Reg.OCM_BANK_STATE 0, 1), (Reg.OCM_BANK_STATE 0x20, 1)] (on [1, 21, 22])).poke 0x18000000 8 0x10000004).poke 0x18000008 8 0x10000009).poke 0x18000010 4 0).poke 0x18000014 4 0x0C00
def wDmaDescriptorsRun4 : State := ((((with_ [(Reg.DMA_CTRL_ENABLE 5, 1), (Reg.DMA_RING_PTR_TAIL 5, 1), (Reg.DMA_RING_BASE_LO_BASE_LO 5, 0x18000), (Reg.DMA_ASSIGN_REQ_LINE 5, 3), (Reg.OCM_BANK_STATE 0, 1), (Reg.OCM_BANK_STATE 0x20, 1)] (on [1, 21, 22])).poke 0x18000000 8 0x10000000).poke 0x18000008 8 0x10001000).poke 0x18000010 4 64).poke 0x18000014 4 0x0E80
theorem witness_DmaDescriptorsRun :
  wDmaDescriptorsRun1.dmaMayFetch 5 = false ∧
  (memOpen wDmaDescriptorsRun2 (wDmaDescriptorsRun2.dmaSlot 5 (wDmaDescriptorsRun2.fld (Reg.DMA_RING_PTR_HEAD 5)))) ∧
  (sidesOpen wDmaDescriptorsRun2 ⟨0x10000004, 0x10000009, 20, 0x0C00⟩) ∧
  noMask wDmaDescriptorsRun2 ∧
  (wDmaDescriptorsRun2.dmaMayFetch 5 = true ∧ (wDmaDescriptorsRun2.dom 22).state = .on ∧ wDmaDescriptorsRun2.dmaSlot 5 (wDmaDescriptorsRun2.fld (Reg.DMA_RING_PTR_HEAD 5)) = 0x18000000 ∧ wDmaDescriptorsRun2.readDesc 0x18000000 = some ⟨0x10000004, 0x10000009, 20, 0x0C00⟩ ∧ wDmaDescriptorsRun2.dmaValidate 5 ⟨0x10000004, 0x10000009, 20, 0x0C00⟩ = 0 ∧ inSetup 0 0x10000004 = false ∧ inSetup 0 0x10000009 = false ∧ inStore 0x10000004 = false ∧ Desc.req ⟨0x10000004, 0x10000009, 20, 0x0C00⟩ = false ∧ Desc.swap ⟨0x10000004, 0x10000009, 20, 0x0C00⟩ = 0 ∧ Desc.srcSpace ⟨0x10000004, 0x10000009, 20, 0x0C00⟩ = 0 ∧ Desc.dstSpace ⟨0x10000004, 0x10000009, 20, 0x0C00⟩ = 0 ∧ Desc.srcFix ⟨0x10000004, 0x10000009, 20, 0x0C00⟩ = false ∧ Desc.dstFix ⟨0x10000004, 0x10000009, 20, 0x0C00⟩ = false ∧ (∀ k : Fin 36, wDmaDescriptorsRun2.storage (0x10000000 + k) = 0x10000000 + k ∧ aliasOf (0x10000000 + k) = 0 ∧ wDmaDescriptorsRun2.checkWord (0x10000000 + k) = .clean ∧ wDmaDescriptorsRun2.sideDead 0 (0x10000000 + k) = false)) ∧
  (memOpen wDmaDescriptorsRun3 (wDmaDescriptorsRun3.dmaSlot 5 (wDmaDescriptorsRun3.fld (Reg.DMA_RING_PTR_HEAD 5)))) ∧
  noMask wDmaDescriptorsRun3 ∧
  (wDmaDescriptorsRun3.dmaMayFetch 5 = true ∧ (wDmaDescriptorsRun3.dom 22).state = .on ∧ wDmaDescriptorsRun3.readDesc (wDmaDescriptorsRun3.dmaSlot 5 (wDmaDescriptorsRun3.fld (Reg.DMA_RING_PTR_HEAD 5))) = some ⟨0x10000004, 0x10000009, 0, 0x0C00⟩ ∧ wDmaDescriptorsRun3.dmaValidate 5 ⟨0x10000004, 0x10000009, 0, 0x0C00⟩ ≠ 0) ∧
  (memOpen wDmaDescriptorsRun4 (wDmaDescriptorsRun4.dmaSlot 5 (wDmaDescriptorsRun4.fld (Reg.DMA_RING_PTR_HEAD 5)))) ∧
  noMask wDmaDescriptorsRun4 ∧
  (wDmaDescriptorsRun4.dmaMayFetch 5 = true ∧ (wDmaDescriptorsRun4.dom 22).state = .on ∧ wDmaDescriptorsRun4.readDesc (wDmaDescriptorsRun4.dmaSlot 5 (wDmaDescriptorsRun4.fld (Reg.DMA_RING_PTR_HEAD 5))) = some ⟨0x10000000, 0x10001000, 64, 0x0E80⟩ ∧ wDmaDescriptorsRun4.dmaValidate 5 ⟨0x10000000, 0x10001000, 64, 0x0E80⟩ = 0 ∧ Desc.req ⟨0x10000000, 0x10001000, 64, 0x0E80⟩ = true) :=
  ⟨by decide +kernel, (by unfold memOpen; decide +kernel), sidesOpen_of (by decide +kernel), noMask_of (by decide +kernel), by decide +kernel, (by unfold memOpen; decide +kernel), noMask_of (by decide +kernel), by decide +kernel, (by unfold memOpen; decide +kernel), noMask_of (by decide +kernel), by decide +kernel⟩

def wStoreSequenceOpensAndLocks1 : State := on [23, 0, 22]
def wStoreSequenceOpensAndLocks2 : State := with_ [(Reg.FWS_STATUS_SEQ_STATE, 1), (Reg.FWS_STATUS_HOLDER, 5)] (on [23])
def wStoreSequenceOpensAndLocks3 : State := with_ [(Reg.FWS_STATUS_SEQ_STATE, 2), (Reg.FWS_STATUS_HOLDER, 5)] (on [23])
def wStoreSequenceOpensAndLocks4 : State := with_ [(Reg.FWS_STATUS_SEQ_STATE, 3), (Reg.FWS_STATUS_HOLDER, 5)] (on [23])
theorem witness_StoreSequenceOpensAndLocks :
  reaches wStoreSequenceOpensAndLocks1 5 Reg.FWS_KEY ∧
  (storeWriter 5 = true ∧ wStoreSequenceOpensAndLocks1.fld Reg.FWS_STATUS_SEQ_STATE = 0 ∧ storeWriter 0x20 = false ∧ fwsRegAddr .key = Reg.FWS_KEY) ∧
  reaches wStoreSequenceOpensAndLocks2 5 Reg.FWS_KEY ∧
  reaches wStoreSequenceOpensAndLocks2 6 Reg.FWS_KEY ∧
  (wStoreSequenceOpensAndLocks2.fld Reg.FWS_STATUS_SEQ_STATE = 1 ∧ wStoreSequenceOpensAndLocks2.fld Reg.FWS_STATUS_HOLDER = 5) ∧
  reaches wStoreSequenceOpensAndLocks3 5 Reg.FWS_CMD ∧
  (wStoreSequenceOpensAndLocks3.fld Reg.FWS_STATUS_SEQ_STATE = 2 ∧ wStoreSequenceOpensAndLocks3.fld Reg.FWS_STATUS_HOLDER = 5 ∧ fwsOpcode 5 = true ∧ fwsOpcode 6 = false) ∧
  reaches wStoreSequenceOpensAndLocks4 5 Reg.FWS_ADDR ∧
  (wStoreSequenceOpensAndLocks4.fld Reg.FWS_STATUS_SEQ_STATE = 3 ∧ wStoreSequenceOpensAndLocks4.fld Reg.FWS_STATUS_HOLDER = 5 ∧ fwsField .addr 0x8000007 ≠ (0x8000007 : Word).toNat ∧ storeWriter 5 = true ∧ wStoreSequenceOpensAndLocks4.fld Reg.FWS_STATUS_HOLDER = 5) :=
  ⟨reaches_of (by decide +kernel), by decide +kernel, reaches_of (by decide +kernel), reaches_of (by decide +kernel), by decide +kernel, reaches_of (by decide +kernel), by decide +kernel, reaches_of (by decide +kernel), by decide +kernel⟩

def wStoreOperationsStart1 : State := with_ [(Reg.FWS_STATUS_SEQ_STATE, 4), (Reg.FWS_STATUS_HOLDER, 5), (Reg.FWS_CMD_OPCODE, 1), (Reg.FWS_ADDR_ADDR, 300 * 0x40000 + 512), (Reg.FWS_BANK_STATE 1, 2), (Reg.FWS_PBUF_BYTES 3, 77)] (on [23] (inMode .service (State.reset.onStore fun t => { t with banks := #v[{}, { erase := some 301 }] })))
def wStoreOperationsStart2 : State := with_ [(Reg.FWS_STATUS_SEQ_STATE, 4), (Reg.FWS_STATUS_HOLDER, 5), (Reg.FWS_CMD_OPCODE, 2), (Reg.FWS_ADDR_ADDR, 300 * 0x40000)] (on [23])
def wStoreOperationsStart3 : State := with_ [(Reg.FWS_STATUS_SEQ_STATE, 4), (Reg.FWS_STATUS_HOLDER, 5), (Reg.FWS_CMD_OPCODE, 2), (Reg.FWS_ADDR_ADDR, 300 * 0x40000)] (on [23] (State.reset.onStore fun t => { t with fetchBank := [(5, 1)] }))
def wStoreOperationsStart4 : State := with_ [(Reg.FWS_STATUS_SEQ_STATE, 4), (Reg.FWS_STATUS_HOLDER, 5), (Reg.FWS_CMD_OPCODE, 3), (Reg.FWS_ADDR_ADDR, 4), (Reg.FWS_BANK_STATE 0, 2)] (on [23] (State.reset.onStore fun t => { t with banks := #v[{ erase := some 3 }, {}] }))
def wStoreOperationsStart5 : State := with_ [(Reg.FWS_STATUS_SEQ_STATE, 4), (Reg.FWS_STATUS_HOLDER, 5), (Reg.FWS_CMD_OPCODE, 3), (Reg.FWS_ADDR_ADDR, 4), (Reg.FWS_BANK_STATE 0, 1)] (on [23] (State.reset.onStore fun t => { t with banks := #v[{ erase := some 3, prog := some ⟨99, []⟩ }, {}] }))
def wStoreOperationsStart6 : State := with_ [(Reg.FWS_STATUS_SEQ_STATE, 4), (Reg.FWS_STATUS_HOLDER, 5), (Reg.FWS_CMD_OPCODE, 4), (Reg.FWS_ADDR_ADDR, 4), (Reg.FWS_BANK_STATE 0, 4)] (on [23] (State.reset.onStore fun t => { t with banks := #v[{ erase := some 3, held := true }, {}] }))
def wStoreOperationsStart7 : State := with_ [(Reg.FWS_STATUS_SEQ_STATE, 4), (Reg.FWS_STATUS_HOLDER, 5), (Reg.FWS_CMD_OPCODE, 5), (Reg.FWS_ADDR_ADDR, 3 * 0x40000)] (on [23] (State.reset.onStore fun t => { t with flags := [3] }))
theorem witness_StoreOperationsStart :
  (wStoreOperationsStart1.programRefusal 5 (300 * 0x40000 + 512) (BitVec.ofNat 32 (crc32c wStoreOperationsStart1.pbuf)) = none) ∧
  reaches wStoreOperationsStart1 5 Reg.FWS_DATA ∧
  (storeWriter 5 = true ∧ wStoreOperationsStart1.fld Reg.FWS_STATUS_SEQ_STATE = 4 ∧ wStoreOperationsStart1.fld Reg.FWS_STATUS_HOLDER = 5 ∧ wStoreOperationsStart1.fld Reg.FWS_ADDR_ADDR = 300 * 0x40000 + 512 ∧ wStoreOperationsStart1.power.mode ≠ .spill ∧ wStoreOperationsStart1.fld Reg.FWS_CMD_OPCODE = 1 ∧ wStoreOperationsStart1.programRefusal 5 (300 * 0x40000 + 511) 0 = some Reg.FWS_STATUS_ERR_ADDR) ∧
  ((wStoreOperationsStart2.store.banks[(1 : Fin 2)]).free = true ∧ wStoreOperationsStart2.selfBank 5 ≠ some 1 ∧ wStoreOperationsStart2.fld Reg.FWS_CMD_OPCODE = 2 ∧ wStoreOperationsStart2.fld Reg.FWS_ADDR_ADDR = 300 * 0x40000) ∧
  ((wStoreOperationsStart3.store.banks[(1 : Fin 2)]).free = true ∧ wStoreOperationsStart3.selfBank 5 = some 1 ∧ wStoreOperationsStart3.fld Reg.FWS_CMD_OPCODE = 2) ∧
  (wStoreOperationsStart4.fld (Reg.FWS_BANK_STATE 0) = 2 ∧ wStoreOperationsStart4.fld Reg.FWS_CMD_OPCODE = 3) ∧
  (wStoreOperationsStart5.fld (Reg.FWS_BANK_STATE 0) = 1 ∧ wStoreOperationsStart5.fld Reg.FWS_CMD_OPCODE = 3 ∧ (wStoreOperationsStart5.store.banks[(0 : Fin 2)]).erase.isSome = true ∧ (wStoreOperationsStart5.store.banks[(0 : Fin 2)]).held = false) ∧
  ((wStoreOperationsStart6.store.banks[(0 : Fin 2)]).erase.isSome = true ∧ (wStoreOperationsStart6.store.banks[(0 : Fin 2)]).held = true ∧ (wStoreOperationsStart6.store.banks[(0 : Fin 2)]).prog = none ∧ wStoreOperationsStart6.fld Reg.FWS_CMD_OPCODE = 4) ∧
  ((wStoreOperationsStart7.store.banks[(0 : Fin 2)]).free = true ∧ 3 ∈ wStoreOperationsStart7.store.flags ∧ wStoreOperationsStart7.fld Reg.FWS_CMD_OPCODE = 5) :=
  ⟨programRefusal_none (by decide +kernel), reaches_of (by decide +kernel), by decide +kernel, by decide +kernel, by decide +kernel, by decide +kernel, by decide +kernel, by decide +kernel, by decide +kernel⟩

def wStoreOperationsEndAndRangesHold1 : State := with_ [(Reg.FWS_BANK_STATE 0, 1)] (on [23] (State.reset.onStore fun t => { t with pages := [(99 * 512, List.replicate 512 0xF0)], banks := #v[{ prog := some ⟨99 * 512, List.replicate 512 0x3C⟩ }, {}] }))
def wStoreOperationsEndAndRangesHold2 : State := with_ [(Reg.FWS_BANK_STATE 1, 2)] (on [23] (atTurn 9 (State.reset.onStore fun t => { t with pages := [(300 * 512, List.replicate 512 0xF0)], markers := [300 * 512], banks := #v[{}, { erase := some 300 }] })))
def wStoreOperationsEndAndRangesHold3 : State := with_ [(Reg.FWS_BANK_STATE 0, 3), (Reg.FWS_BANK_STATE 1, 3), (Reg.FWS_XO_EN 1, 1), (Reg.FWS_XO_FIRST 1, 5), (Reg.FWS_XO_LAST 1, 6), (Reg.FWS_XO_LOCK 1, 1)] (on [23] (atTurn 73 (State.reset.onStore fun t => { t with pages := [(263 * 512, List.replicate 512 0xF0)], banks := #v[{ erase := some 3, quiet := 10 }, { erase := some 300, quiet := 9 }] })))
def wStoreOperationsEndAndRangesHold4 : State := with_ [(Reg.FWS_BANK_STATE 0, 5)] (on [23] (State.reset.onStore fun t => { t with flags := [3], banks := #v[{ blank := some 3 }, {}] }))
theorem witness_StoreOperationsEndAndRangesHold :
  wStoreOperationsEndAndRangesHold1.store.banks[(0 : Fin 2)].prog = some ⟨99 * 512, List.replicate 512 0x3C⟩ ∧
  reaches wStoreOperationsEndAndRangesHold2 5 (Reg.FWS_XO 1) ∧
  (wStoreOperationsEndAndRangesHold2.store.banks[(1 : Fin 2)].prog = none ∧ wStoreOperationsEndAndRangesHold2.store.banks[(1 : Fin 2)].blank = none ∧ wStoreOperationsEndAndRangesHold2.store.banks[(1 : Fin 2)].erase = some 300 ∧ wStoreOperationsEndAndRangesHold2.fld (Reg.FWS_BANK_STATE 1) = 2 ∧ (wStoreOperationsEndAndRangesHold2.dom 23).state = .on ∧ wStoreOperationsEndAndRangesHold2.fld (Reg.FWS_BANK_STATE 0) ≠ 2 ∧ wStoreOperationsEndAndRangesHold2.fld (Reg.FWS_XO_LOCK 1) = 0) ∧
  (wStoreOperationsEndAndRangesHold3.fld (Reg.FWS_BANK_STATE 0) = 3 ∧ wStoreOperationsEndAndRangesHold3.turn < wStoreOperationsEndAndRangesHold3.store.banks[(0 : Fin 2)].quiet + 64 ∧ wStoreOperationsEndAndRangesHold3.store.banks[(1 : Fin 2)].quiet + 64 ≤ wStoreOperationsEndAndRangesHold3.turn ∧ wStoreOperationsEndAndRangesHold3.fld (Reg.FWS_BANK_STATE 1) = 3 ∧ wStoreOperationsEndAndRangesHold3.inXo (0xC000000 + 6 * 0x40000 + 8 - 0x8000000) = true ∧ wStoreOperationsEndAndRangesHold3.inXo (0xC000000 + 7 * 0x40000 + 8 - 0x8000000) = false ∧ wStoreOperationsEndAndRangesHold3.fld (Reg.FWS_XO_LOCK 1) = 1 ∧ (wStoreOperationsEndAndRangesHold3.dom 23).state = .on) ∧
  (wStoreOperationsEndAndRangesHold4.store.banks[(0 : Fin 2)].stalls = true ∧ (wStoreOperationsEndAndRangesHold4.dom 23).state = .on ∧ storeBankOf (0x8000010 - 0x8000000) = 0) :=
  ⟨by decide +kernel, reaches_of (by decide +kernel), by decide +kernel, by decide +kernel, by decide +kernel⟩

def wRegisterAccessesFollowTheirRules1 : State := inMode .service (on [1, 5, 4, 22, 23, 11, 12, 13, 14, 15, 16, 17, 18, 19, 20])
def wRegisterAccessesFollowTheirRules2 : State := inMode .boot
theorem witness_RegisterAccessesFollowTheirRules :
  reaches wRegisterAccessesFollowTheirRules1 5 Reg.ERC_OVR_SEL ∧
  reaches wRegisterAccessesFollowTheirRules1 0x60 Reg.LDP_DLX_NOW ∧
  reaches wRegisterAccessesFollowTheirRules1 5 (Reg.IRQ_EN 5 2) ∧
  (wRegisterAccessesFollowTheirRules1.singleWrite 5 Reg.ERC_OVR_SEL 7 = none ∧ wRegisterAccessesFollowTheirRules1.arrayWrite 5 Reg.ERC_OVR_SEL 7 = none ∧ (regAt Reg.ERC_OVR_SEL).isSome = true ∧ regAt 0x3FFFC = none ∧ wRegisterAccessesFollowTheirRules1.singleWrite 5 0x3FFFC 7 = none ∧ wRegisterAccessesFollowTheirRules1.arrayWrite 5 0x3FFFC 7 = none ∧ Reg.TRN_COUNT_LO ∈ pairLo ∧ wRegisterAccessesFollowTheirRules1.barRead 5 Reg.TRN_COUNT_LO = none ∧ (wRegisterAccessesFollowTheirRules1.dom (blockDomain Reg.TRN_COUNT_LO)).state = .on ∧ wRegisterAccessesFollowTheirRules1.bootMode = false ∧ wRegisterAccessesFollowTheirRules1.flash.dlxTaken = false ∧ viaBar2 0x20 = true ∧ targetClient 5 = 5 ∧ wRegisterAccessesFollowTheirRules1.popRead 5 262272 = none) ∧
  reaches wRegisterAccessesFollowTheirRules2 5 Reg.LDP_DLX_NOW ∧
  wRegisterAccessesFollowTheirRules2.bootMode = true :=
  ⟨reaches_of (by decide +kernel), reaches_of (by decide +kernel), reaches_of (by decide +kernel), by decide +kernel, reaches_of (by decide +kernel), by decide +kernel⟩

def wPeripheralsKeepTheirOrder1 : State := inMode .service (with_ [(Reg.MBX_UART_CFG_EN, 1), (Reg.MBX_MCTP_CFG_EN 0, 1), (Reg.MBX_MCTP_CFG_EN 1, 1), (Reg.MBX_RDB_BITS, 5)] (on [1] (atTurn 0x8000003 (State.reset.onMgmt fun m => { m with gaugeFifo := [7, 8], uartRx := [0x41, 0x42], uartTx := List.replicate 31 0x20, mctp := #v[{ rx := [1, 2, 3, 4, 5, 6, 7, 8] }, {}, { tx := List.replicate 1020 1 }] }))))
def wPeripheralsKeepTheirOrder2 : State := inMode .service (with_ [(Reg.GAU_CFG_FIFO_EN, 1), (Reg.MBX_UART_CFG_EN, 1)] (on [1] (atTurn 0x8000003 (State.reset.onMgmt fun m => { m with gaugeFifo := List.replicate 1022 7, uartRx := List.replicate 32 1 }))))
theorem witness_PeripheralsKeepTheirOrder :
  reaches wPeripheralsKeepTheirOrder1 5 Reg.MBX_RDB_SET ∧
  reaches wPeripheralsKeepTheirOrder1 5 (Reg.MBX_CDB_SET 2) ∧
  reaches wPeripheralsKeepTheirOrder1 5 Reg.MBX_UART_DATA ∧
  reaches wPeripheralsKeepTheirOrder1 5 (Reg.MBX_MCTP_TX 2) ∧
  (wPeripheralsKeepTheirOrder1.restarting = false ∧ wPeripheralsKeepTheirOrder1.power.mode ≠ .off ∧ wPeripheralsKeepTheirOrder1.fld Reg.GAU_CFG_FIFO_EN = 0 ∧ wPeripheralsKeepTheirOrder1.fld (gaugeFault 5) = 0 ∧ wPeripheralsKeepTheirOrder1.isAssigned 5 = false ∧ (wPeripheralsKeepTheirOrder1.dom (blockDomain Reg.GAU_FIFO)).state = .on ∧ (wPeripheralsKeepTheirOrder1.dom (blockDomain Reg.MBX_UART_DATA)).state = .on ∧ wPeripheralsKeepTheirOrder1.fld Reg.MBX_UART_CFG_EN = 1 ∧ (wPeripheralsKeepTheirOrder1.dom 1).state = .on ∧ wPeripheralsKeepTheirOrder1.fld (Reg.MBX_MCTP_CFG_EN 0) = 1 ∧ wPeripheralsKeepTheirOrder1.mgmt.uartTx.length < 32 ∧ wPeripheralsKeepTheirOrder1.mgmt.mctp[(0 : Fin 3)].rx ≠ [] ∧ wPeripheralsKeepTheirOrder1.mgmt.mctp[(2 : Fin 3)].tx.length + 4 ≤ 1024) ∧
  (wPeripheralsKeepTheirOrder2.restarting = false ∧ wPeripheralsKeepTheirOrder2.power.mode ≠ .off ∧ wPeripheralsKeepTheirOrder2.fld Reg.GAU_CFG_FIFO_EN = 1 ∧ wPeripheralsKeepTheirOrder2.mgmt.gaugeFifo.length + 2 ≤ 1024 ∧ 32 ≤ wPeripheralsKeepTheirOrder2.mgmt.uartRx.length ∧ wPeripheralsKeepTheirOrder2.fld Reg.MBX_UART_CFG_EN = 1 ∧ (wPeripheralsKeepTheirOrder2.dom 1).state = .on) :=
  ⟨reaches_of (by decide +kernel), reaches_of (by decide +kernel), reaches_of (by decide +kernel), reaches_of (by decide +kernel), by decide +kernel, by decide +kernel⟩

def wManagementRequestsAnswer1 : State := (pathsUp (atTurn 5 (State.reset.onMgmt fun m => { m with healthChange := 6, log := [⟨1, 2, 0x0101, 1, 0, 5, 7⟩] }))).onStore fun t => { t with vpd := List.replicate 1024 7 }
def wManagementRequestsAnswer2 : State := pathsUp (hostUp (State.reset.onStore fun t => { t with pointer := none }))
theorem witness_ManagementRequestsAnswer :
  (wManagementRequestsAnswer1.pathOpen 7 = true ∧ wManagementRequestsAnswer1.restarting = false ∧ wManagementRequestsAnswer1.mgmt.change = none ∧ wManagementRequestsAnswer1.power.mode ≠ .conserve ∧ wManagementRequestsAnswer1.mgmt.run = none ∧ wManagementRequestsAnswer1.pathOpen 3 = true ∧ wManagementRequestsAnswer1.pathOpen 4 = true ∧ wManagementRequestsAnswer1.pathOpen 5 = true ∧ wManagementRequestsAnswer1.pathOpen 6 = true ∧ wManagementRequestsAnswer1.vpdBytes.length = 1024 ∧ wManagementRequestsAnswer1.power.mode = .service) ∧
  (wManagementRequestsAnswer2.power.mode = .service ∧ wManagementRequestsAnswer2.store.pointer = none ∧ wManagementRequestsAnswer2.pathOpen 3 = true ∧ wManagementRequestsAnswer2.restarting = false) :=
  ⟨by decide +kernel, by decide +kernel⟩

def wEditionsAreStagedAndSwitched1 : State := hostUp (State.reset.onMgmt fun m => { m with current := { number := 1, format := 1 } })
def wEditionsAreStagedAndSwitched2 : State := hostUp (atTurn 4 (State.reset.onMgmt fun m => { m with current := { number := 1 }, previous := some { number := 3 }, staged := some { number := 5 } }))
def wEditionsAreStagedAndSwitched3 : State := hostUp (atTurn 4 (State.reset.onMgmt fun m => { m with change := some { phase := .booking, revert := false, number := 5, path := 1, adm := none } }))
def wEditionsAreStagedAndSwitched4 : State := hostUp (atTurn 8 ((State.reset.onNv fun v => { v with namespaces := [{ nsid := 1, nsze := 8, lbaf := 0, dataGrans := 1, gbase := 0, grans := 1, attached := 1 }] }).onMgmt fun m => { m with staged := some { number := 5, reg := [(Reg.PMC_THERM_CFG, 0xFF, 100), (Reg.OCM_STEAL, 0xFF, 3)] }, change := some { phase := .pending, revert := false, number := 5, path := 1, adm := none, since := 7 } }))
def wEditionsAreStagedAndSwitched5 : State := hostUp (atTurn 7 (State.reset.onMgmt fun m => { m with change := some { phase := .pending, revert := false, number := 5, path := 1, adm := none, since := 7 } }))
theorem witness_EditionsAreStagedAndSwitched :
  takes wEditionsAreStagedAndSwitched1 ⟨1, 9⟩ ∧
  (wEditionsAreStagedAndSwitched1.mgmt.change = none ∧ 2 ≠ wEditionsAreStagedAndSwitched1.mgmt.current.number ∧ (wEditionsAreStagedAndSwitched1.dom 23).state ≠ .dropping) ∧
  takes wEditionsAreStagedAndSwitched2 ⟨1, 9⟩ ∧
  (wEditionsAreStagedAndSwitched2.mgmt.change = none ∧ wEditionsAreStagedAndSwitched2.mgmt.staged = some { number := 5 } ∧ wEditionsAreStagedAndSwitched2.mgmt.previous = some { number := 3 } ∧ (wEditionsAreStagedAndSwitched2.recheck { number := 5 }).toBool = true ∧ (wEditionsAreStagedAndSwitched2.recheck { number := 3 }).toBool = true) ∧
  takes wEditionsAreStagedAndSwitched3 ⟨1, 9⟩ ∧
  wEditionsAreStagedAndSwitched3.mgmt.change = some { phase := .booking, revert := false, number := 5, path := 1, adm := none } ∧
  (wEditionsAreStagedAndSwitched4.mgmt.change = some { phase := .pending, revert := false, number := 5, path := 1, adm := none, since := 7 } ∧ 7 < wEditionsAreStagedAndSwitched4.turn ∧ wEditionsAreStagedAndSwitched4.mgmt.staged.isSome = true ∧ wEditionsAreStagedAndSwitched4.nv.namespaces ≠ []) ∧
  (wEditionsAreStagedAndSwitched5.mgmt.change = some { phase := .pending, revert := false, number := 5, path := 1, adm := none, since := 7 } ∧ wEditionsAreStagedAndSwitched5.turn ≤ 7) :=
  ⟨takes_of (by decide +kernel), by decide +kernel, takes_of (by decide +kernel), by decide +kernel, takes_of (by decide +kernel), by decide +kernel, by decide +kernel, by decide +kernel⟩

def wSelfTestRunsStartAndEnd1 : State := with_ [(Reg.BST_CFG_SERVICE_EN, 1)] (hostUp (atTurn 77))
def wSelfTestRunsStartAndEnd2 : State := with_ [(Reg.BST_CFG_SERVICE_EN, 1), (Reg.SLU_STATUS_HARD_DEC, 4)] (hostUp (atTurn 77 (State.reset.onMgmt fun m => { m with run := some { kind := 2, source := 7, began := 3, done := 4, total := 9 } })))
def wSelfTestRunsStartAndEnd3 : State := inMode .recovery (pathsUp (atTurn 77))
theorem witness_SelfTestRunsStartAndEnd :
  reaches wSelfTestRunsStartAndEnd1 5 Reg.BST_CTRL ∧
  takes wSelfTestRunsStartAndEnd1 ⟨1, 9⟩ ∧
  (wSelfTestRunsStartAndEnd1.fld Reg.BST_CFG_SERVICE_EN = 1 ∧ wSelfTestRunsStartAndEnd1.mgmt.run = none ∧ wSelfTestRunsStartAndEnd1.power.mode ≠ .recovery) ∧
  reaches wSelfTestRunsStartAndEnd2 5 Reg.BST_CTRL ∧
  takes wSelfTestRunsStartAndEnd2 ⟨1, 9⟩ ∧
  (wSelfTestRunsStartAndEnd2.mgmt.run = some { kind := 2, source := 7, began := 3, done := 4, total := 9 } ∧ wSelfTestRunsStartAndEnd2.sliceAllowed { kind := 2, source := 7, began := 3, done := 4, total := 9 } 7 = false ∧ wSelfTestRunsStartAndEnd2.sliceAllowed { kind := 2, source := 7, began := 3, done := 4, total := 9 } 1 = true ∧ wSelfTestRunsStartAndEnd2.sliceFits 1 3 (wSelfTestRunsStartAndEnd2.fld Reg.BST_CFG_SLICE_TURNS) = true ∧ wSelfTestRunsStartAndEnd2.sliceFits 2 3 (wSelfTestRunsStartAndEnd2.fld Reg.BST_CFG_SLICE_TURNS) = false) ∧
  (wSelfTestRunsStartAndEnd3.power.mode = .boot ∨ wSelfTestRunsStartAndEnd3.power.mode = .recovery) :=
  ⟨reaches_of (by decide +kernel), takes_of (by decide +kernel), by decide +kernel, reaches_of (by decide +kernel), takes_of (by decide +kernel), by decide +kernel, by decide +kernel⟩

def wPowerFailInputsRequestSpills1 : State := inMode .service (atTurn 9)
def wPowerFailInputsRequestSpills2 : State := inMode .service (atTurn 9 (State.reset.onPins fun p => { p with filter := some 8, vholdLow := true }))
def wPowerFailInputsRequestSpills3 : State := inMode .recovery (atTurn 9 (State.reset.onPins fun p => { p with filter := some 8, vholdLow := true }))
def wPowerFailInputsRequestSpills4 : State := inMode .spill (atTurn 9 (State.reset.onPins fun p => { p with filter := some 8, vholdLow := true }))
def wPowerFailInputsRequestSpills5 : State := inMode .recovery (State.reset.onCistern fun c => { c with waiting := true })
def wPowerFailInputsRequestSpills6 : State := inMode .service (State.reset.onNv fun v => { v with image := some { seq := 1, cause := 0, turn := 2, dlxNow := 0, slots := [], journal := [], edition := none, log := [], weir := 0 } })
theorem witness_PowerFailInputsRequestSpills :
  wPowerFailInputsRequestSpills1.pins.filter = none ∧
  (wPowerFailInputsRequestSpills2.pins.filter.isSome = true ∧ wPowerFailInputsRequestSpills2.power.mode = .service ∧ wPowerFailInputsRequestSpills2.cistern.request = none) ∧
  (wPowerFailInputsRequestSpills3.pins.filter.isSome = true ∧ wPowerFailInputsRequestSpills3.power.mode = .recovery) ∧
  (wPowerFailInputsRequestSpills4.pins.filter.isSome = true ∧ wPowerFailInputsRequestSpills4.power.mode = .spill) ∧
  (wPowerFailInputsRequestSpills5.cistern.waiting = true ∧ wPowerFailInputsRequestSpills5.pins.pwrFailLow = false ∧ wPowerFailInputsRequestSpills5.pins.vholdLow = false) ∧
  (wPowerFailInputsRequestSpills6.nv.image.isSome = true ∧ wPowerFailInputsRequestSpills6.power.mode = .service ∧ wPowerFailInputsRequestSpills6.released = true) :=
  ⟨by decide +kernel, by decide +kernel, by decide +kernel, by decide +kernel, by decide +kernel, by decide +kernel⟩

def wSpillsLatchKeepAndRestart1 : State := hostUp (atTurn 9 ((State.reset.onCistern fun c => { c with request := some (1, 8) }).onNv fun v => { v with image := some { seq := 1, cause := 0, turn := 2, dlxNow := 0, slots := [], journal := [], edition := none, log := [], weir := 0, set := 0 }, spillSeq := 0xFFFFFFFF }))
def wSpillsLatchKeepAndRestart2 : State := hostUp (atTurn 8 (State.reset.onCistern fun c => { c with request := some (1, 8) }))
def wSpillsLatchKeepAndRestart3 : State := inMode .spill (on [4, 11] (atTurn 5000 (State.reset.onCistern fun c => { c with latched := some { seq := 3, cause := 0, turn := 9, dlxNow := 0, slots := [(4, [none, none, none, none])], journal := [(0, [])], edition := none, log := [], weir := 0 }, began := 9 })))
def wSpillsLatchKeepAndRestart4 : State := inMode .spill (atTurn 5000 (State.reset.onCistern fun c => { c with ended := true }))
theorem witness_SpillsLatchKeepAndRestart :
  (wSpillsLatchKeepAndRestart1.cistern.request = some (1, 8) ∧ 8 < wSpillsLatchKeepAndRestart1.turn ∧ wSpillsLatchKeepAndRestart1.power.mode.carriesData = true) ∧
  (wSpillsLatchKeepAndRestart2.cistern.request = some (1, 8) ∧ wSpillsLatchKeepAndRestart2.turn ≤ 8) ∧
  (wSpillsLatchKeepAndRestart3.cistern.latched.isSome = true ∧ wSpillsLatchKeepAndRestart3.power.mode = .spill ∧ wSpillsLatchKeepAndRestart3.cistern.ended = false) ∧
  (wSpillsLatchKeepAndRestart4.power.mode = .spill ∧ wSpillsLatchKeepAndRestart4.cistern.ended = true ∧ wSpillsLatchKeepAndRestart4.pins.pwrFailLow = false ∧ wSpillsLatchKeepAndRestart4.pins.vholdLow = false) :=
  ⟨by decide +kernel, by decide +kernel, by decide +kernel, by decide +kernel⟩

def wCisternTestsAndSlotCap1 : State := with_ [(Reg.PMC_CIS_TEST_LOAD, 100), (Reg.PMC_CIS_DIV_V_FULL, 3000), (Reg.PMC_CIS_DIV_DIV_X256, 256), (Reg.PMC_CIS_STATUS_VHOLD, 3100)] (inMode .service (on [1] (atTurn 7)))
def wCisternTestsAndSlotCap2 : State := on [1] (atTurn 2048)
def wCisternTestsAndSlotCap3 : State := with_ [(Reg.PMC_CIS_TEST_LOAD, 1200), (Reg.PMC_CIS_CAP_C_UF, 7)] (inMode .service (atTurn 1000007 (State.reset.onCistern fun c => { c with test := some ⟨7, 3100⟩ })))
def wCisternTestsAndSlotCap4 : State := atTurn 1000006 (State.reset.onCistern fun c => { c with test := some ⟨7, 3100⟩ })
theorem witness_CisternTestsAndSlotCap :
  reaches wCisternTestsAndSlotCap1 5 Reg.PMC_CIS_TEST ∧
  (wCisternTestsAndSlotCap1.cisternOff = false ∧ wCisternTestsAndSlotCap1.cistern.test = none ∧ wCisternTestsAndSlotCap1.power.mode ≠ .spill ∧ wCisternTestsAndSlotCap1.testDue = true ∧ wCisternTestsAndSlotCap1.turn % 1024 ≠ 0) ∧
  reaches wCisternTestsAndSlotCap2 5 Reg.PMC_CIS_TEST ∧
  (wCisternTestsAndSlotCap2.cisternOff = true ∧ wCisternTestsAndSlotCap2.testDue = false ∧ wCisternTestsAndSlotCap2.turn % 1024 = 0 ∧ wCisternTestsAndSlotCap2.power.mode ≠ .off ∧ wCisternTestsAndSlotCap2.fld Reg.PMC_CIS_CAP_C_UF = 0) ∧
  (wCisternTestsAndSlotCap3.cistern.test = some ⟨7, 3100⟩ ∧ 7 + 1000000 ≤ wCisternTestsAndSlotCap3.turn) ∧
  (wCisternTestsAndSlotCap4.cistern.test = some ⟨7, 3100⟩ ∧ wCisternTestsAndSlotCap4.turn < 7 + 1000000) :=
  ⟨reaches_of (by decide +kernel), by decide +kernel, reaches_of (by decide +kernel), by decide +kernel, by decide +kernel, by decide +kernel⟩

def wMapRequestsApplyAtomically1 : State := (with_ [(Reg.FCE_GEOM_B_BLOCKS_PER_PLANE 0, 100), (Reg.FCE_STATUS_DIES 0, 1), (Reg.DMC_MAP_CFG_UNITS_PER_MB, 1000)]).onGalley fun g => { g with slots := [(3, { unit := 77, state := .resident, order := 1 }), (4, { unit := 77, state := .placing, order := 0, inFlight := true }), (9, { unit := 78, state := .resident, order := 1 })], jnlSeq := 6, zones := [(5, (2, 9))] }
def wMapRequestsApplyAtomically2 : State := (State.reset.onFlash fun x => { x with plans := [{ id := 9, lane := 0, b := 0, off := 0, units := [], slots := [], members := [] }] }).onGalley fun g => { g with slots := [(3, { unit := 0, state := .resident, order := 1 })] }
theorem witness_MapRequestsApplyAtomically :
  (wMapRequestsApplyAtomically1.malformed 3 ⟨false, 77, 0, 0x10000005, 0xFFFFFFFF, 0⟩ = false ∧ wMapRequestsApplyAtomically1.jnlFull = false ∧ (wMapRequestsApplyAtomically1.unshadowed (wMapRequestsApplyAtomically1.reqPage 3 ⟨false, 77, 0, 0x10000005, 0xFFFFFFFF, 0⟩) && wMapRequestsApplyAtomically1.shadowFull) = false ∧ wMapRequestsApplyAtomically1.rawUnits ≤ 200000 ∧ wMapRequestsApplyAtomically1.malformed 1 ⟨false, 77, 0, 0x10000005, 3, 0⟩ = false ∧ (wMapRequestsApplyAtomically1.newest 77).map (fun x => (x.1, x.2.state.landed)) = some (3, true) ∧ wMapRequestsApplyAtomically1.mapWord 77 = 0 ∧ wMapRequestsApplyAtomically1.unproven 77 0x10000005 = false) ∧
  wMapRequestsApplyAtomically2.unproven 0 0x10000000 = true :=
  ⟨by decide +kernel, by decide +kernel⟩

def wJournalSnapshotAndMoves1 : State := ((with_ [(Reg.DMC_MUP_PTR_HEAD, 14), (Reg.DMC_MUP_PTR_TAIL, 2)] (on [11, 12])).onGalley fun g => { g with journal := [(7, List.replicate 256 ⟨1, 6, 0, 77, 0, 0, 0, 3⟩), (8, [])] }).onNv fun v => { v with journal := [⟨1, 5, 0, 77, 0, 0, 0, 3⟩, ⟨1, 6, 0, 77, 0, 0, 0, 3⟩] }
def wJournalSnapshotAndMoves2 : State := ((with_ [(Reg.DMC_GLY_MOVE_ACTIVE, 1)] (on [11, 12])).onGalley fun g => { g with writing := some (5, {}) }).onNv fun v => { v with journal := [⟨1, 5, 0, 77, 0, 0, 0, 3⟩, ⟨1, 6, 0, 77, 0, 0, 0, 3⟩] }
def wJournalSnapshotAndMoves3 : State := (with_ [(Reg.DMC_GLY_MOVE_ACTIVE, 1)]).onGalley fun g => { g with moveLeft := 1, writing := some (5, {}), unwritten := [7] }
theorem witness_JournalSnapshotAndMoves :
  reaches wJournalSnapshotAndMoves1 5 Reg.DMC_MUP_PTR ∧
  reaches wJournalSnapshotAndMoves1 5 Reg.DMC_SNAP_CTRL ∧
  reaches wJournalSnapshotAndMoves1 5 Reg.DMC_GLY_MOVE ∧
  reaches wJournalSnapshotAndMoves1 5 Reg.DMC_MAP_REPAIR ∧
  (ringPasses wJournalSnapshotAndMoves1.mupEntries 14 2 5 = false ∧ ringPasses wJournalSnapshotAndMoves1.mupEntries 14 2 15 = true ∧ wJournalSnapshotAndMoves1.galley.writing = none ∧ wJournalSnapshotAndMoves1.fld Reg.DMC_GLY_MOVE_ACTIVE = 0 ∧ (wJournalSnapshotAndMoves1.galley.journal.find? (fun j => j.1 == 7 && decide (256 ≤ j.2.length))).isSome = true) ∧
  reaches wJournalSnapshotAndMoves2 5 Reg.DMC_SNAP_CTRL ∧
  (wJournalSnapshotAndMoves2.galley.writing = some (5, {}) ∧ wJournalSnapshotAndMoves2.galley.unwritten = [] ∧ wJournalSnapshotAndMoves2.fld Reg.DMC_GLY_MOVE_ACTIVE = 1 ∧ wJournalSnapshotAndMoves2.galley.moveLeft = 0) ∧
  (wJournalSnapshotAndMoves3.fld Reg.DMC_GLY_MOVE_ACTIVE = 1 ∧ wJournalSnapshotAndMoves3.galley.moveLeft ≠ 0 ∧ wJournalSnapshotAndMoves3.galley.unwritten ≠ []) :=
  ⟨reaches_of (by decide +kernel), reaches_of (by decide +kernel), reaches_of (by decide +kernel), reaches_of (by decide +kernel), by decide +kernel, reaches_of (by decide +kernel), by decide +kernel, by decide +kernel⟩

def wDiesReportAndTimeOut1 : State := atTurn 1000 ((State.reset.onSluice fun x => { x with diesOut := [(8, 11, none), (9, 12, none)] }).onFlash fun x => { x with dies := [(5, { busy := some (.read, 990), page := some (7, 3), maxima := [2, 0, 0, 0, 0] }), (6, { busy := some (.program, 700), hold := some { erase := false, block := 7, page := 3, plan := 9, since := 700 } }), (7, { busy := some (.erase, 100), hold := some { erase := true, block := 8, page := 0, plan := 0, since := 100, suspends := 0 } }), (8, { busy := some (.reset, 10) })], plans := [{ id := 9, lane := 0, b := 0, off := 0, units := [], slots := [], members := [{ die := 6, block := 7, dataIn := (1, 2), issue := 3, stage := .programming }, { die := 9, block := 7, dataIn := (1, 2), issue := 3, stage := .programming }] }], units := [(unitKey 7 8 5, { kind := 0, sectors := [], wrot := 0, wtemp := 0, member := 0, lane := 0, fblk := 0 }), (unitKey 7 9 0, { kind := 0, sectors := [], wrot := 0, wtemp := 0, member := 0, lane := 0, fblk := 0 })] })
def wDiesReportAndTimeOut2 : State := atTurn 2000 ((mediaUp State.reset).onFlash fun x => { x with formeBlocks := [{ lane := 0, b := 0, members := [⟨0, 1⟩] }, { lane := 0, b := 1, members := [⟨16, 1⟩] }], dies := [(0, { busy := some (.read, 10) })] })
def wDiesReportAndTimeOut3 : State := atTurn 70000 (with_ [(Reg.FUR_TIMEOUT_ROT 1023, 2)] (State.reset.onFlash fun x => { x with dies := [(5, { busy := some (.read, 990), page := some (7, 3) }), (1023, { busy := some (.suspend, 900) })] }))
theorem witness_DiesReportAndTimeOut :
  ((wDiesReportAndTimeOut1.die 4).busy = none ∧ (wDiesReportAndTimeOut1.die 5).busy = some (.read, 990) ∧ (wDiesReportAndTimeOut1.die 6).busy = some (.program, 700) ∧ (wDiesReportAndTimeOut1.die 6).hold = some { erase := false, block := 7, page := 3, plan := 9, since := 700 } ∧ (wDiesReportAndTimeOut1.die 7).busy = some (.erase, 100) ∧ (wDiesReportAndTimeOut1.die 7).hold = some { erase := true, block := 8, page := 0, plan := 0, since := 100, suspends := 0 } ∧ wDiesReportAndTimeOut1.fbOf 7 8 = none ∧ (wDiesReportAndTimeOut1.die 8).busy = some (.reset, 10) ∧ wDiesReportAndTimeOut1.turn - 990 + 1 < 2 ^ (learnedFld 5 0).width ∧ wDiesReportAndTimeOut1.turn - 700 + 1 < 2 ^ (learnedFld 6 3).width ∧ wDiesReportAndTimeOut1.turn - 100 + 1 < 2 ^ (learnedFld 7 4).width ∧ wDiesReportAndTimeOut1.fld (Reg.FUR_STATUS_STATE 5) ≠ 0xA ∧ wDiesReportAndTimeOut1.fld (Reg.FUR_STATUS_STATE 5) ≠ 0xB ∧ wDiesReportAndTimeOut1.opAge 5 < wDiesReportAndTimeOut1.opLimit 5) ∧
  ((wDiesReportAndTimeOut2.die 0).busy = some (.read, 10) ∧ ¬ (wDiesReportAndTimeOut2.turn - 10 + 1 < 2 ^ (learnedFld 0 0).width) ∧ wDiesReportAndTimeOut2.fld (Reg.SLU_DIE_STATE_STATE 0) = 0) ∧
  ((wDiesReportAndTimeOut3.die 5).busy.isSome = true ∧ (wDiesReportAndTimeOut3.die 5).hold = none ∧ wDiesReportAndTimeOut3.opLimit 5 ≤ wDiesReportAndTimeOut3.opAge 5 ∧ (wDiesReportAndTimeOut3.die 1023).busy.isSome = true ∧ (wDiesReportAndTimeOut3.die 1023).hold = none ∧ wDiesReportAndTimeOut3.opLimit 1023 ≤ wDiesReportAndTimeOut3.opAge 1023 ∧ wDiesReportAndTimeOut3.fld (Reg.FUR_TIMEOUT_ROT 1023) = 2 ∧ wDiesReportAndTimeOut3.fld (Reg.FUR_TIMEOUT_ROT 5) < 2) :=
  ⟨by decide +kernel, by decide +kernel, by decide +kernel⟩

def wChannelsRetrainAndResume1 : State := atTurn 5000 (with_ [(Reg.FCE_STATUS_STATE 3, 2), (Reg.FCE_STATUS_CUR_IDX 3, 1), (Reg.FCE_STATUS_STATE 9, 3), (Reg.FCE_CTRL_RETRAIN_REQ 10, 1), (Reg.FCE_STATUS_STATE 63, 1), (Reg.FCE_STATUS_STATE 4, 3), (Reg.FCE_STATUS_CUR_IDX 4, 2), (Reg.FCE_RATE_FLOOR_IDX 4, 6), (Reg.FCE_STATUS_STATE 5, 3), (Reg.FCE_RATE_FLOOR_IDX 5, 6), (Reg.FCE_RETRAIN_FAILED_ROT 5, 1), (Reg.FCE_STATUS_STATE 6, 4), (Reg.FCE_STATUS_STATE 7, 4)] (on [13, 14, 15, 16, 20] ((State.reset.onSluice fun x => { x with chansOut := [(4, 4745, none), (9, 9, none)] }).onFlash fun x => { x with chans := [(3, { cameUp := some 5000 }), (9, { coming := some (4, 1) }), (4, { training := some (2, 5000) }), (5, { training := some (3, 4990), second := true }), (6, { retryAt := some 5000 }), (7, { retryAt := some 5001 }), (8, { training := some (2, 5001) })], dies := [(48, { page := some (1, 2) }), (50, { page := some (1, 2), hold := some { erase := true, block := 1, page := 0, plan := 0, since := 4000, suspended := some 4100 } })] })))
def wChannelsRetrainAndResume2 : State := atTurn 100 (with_ [(Reg.FCE_STATUS_STATE 3, 2)] (on [13, 14, 15, 16] (State.reset.onSluice fun x => { x with bookings := [{ res := .chan 3, start := 120, len := 40, plan := 4 }] })))
theorem witness_ChannelsRetrainAndResume :
  reaches wChannelsRetrainAndResume1 5 (Reg.FCE_CTRL 3) ∧
  reaches wChannelsRetrainAndResume1 5 (Reg.FCE_CTRL 10) ∧
  reaches wChannelsRetrainAndResume1 5 (Reg.FCE_CTRL 63) ∧
  (wChannelsRetrainAndResume1.fld (Reg.FCE_STATUS_STATE 3) = 2 ∧ (wChannelsRetrainAndResume1.chan 3).stopped = false ∧ (wChannelsRetrainAndResume1.chan 3).raiseAt = none ∧ wChannelsRetrainAndResume1.fld (Reg.FCE_STATUS_STATE 63) ≠ 2 ∧ (wChannelsRetrainAndResume1.chan 4).training = some (2, 5000) ∧ 5000 ≤ wChannelsRetrainAndResume1.turn ∧ (wChannelsRetrainAndResume1.chan 4).raise = false ∧ (wChannelsRetrainAndResume1.chan 4).second = false ∧ 2 + 1 ≤ wChannelsRetrainAndResume1.fld (Reg.FCE_RATE_FLOOR_IDX 4) ∧ (wChannelsRetrainAndResume1.chan 5).training = some (3, 4990) ∧ (wChannelsRetrainAndResume1.chan 5).second = true ∧ (wChannelsRetrainAndResume1.chan 5).raise = false ∧ wChannelsRetrainAndResume1.fld (Reg.FCE_RETRAIN_FAILED_ROT 5) < 2 ∧ (wChannelsRetrainAndResume1.chan 8).training = some (2, 5001) ∧ wChannelsRetrainAndResume1.turn < 5001 ∧ (wChannelsRetrainAndResume1.chan 6).retryAt = some 5000 ∧ (wChannelsRetrainAndResume1.chan 6).stopped = false ∧ (wChannelsRetrainAndResume1.chan 7).retryAt = some 5001 ∧ (wChannelsRetrainAndResume1.chan 3).cameUp = some wChannelsRetrainAndResume1.turn ∧ (wChannelsRetrainAndResume1.chan 9).coming = some (4, 1) ∧ wChannelsRetrainAndResume1.fld (Reg.FCE_CTRL_RETRAIN_REQ 3) = 0 ∧ wChannelsRetrainAndResume1.fld (Reg.FCE_CTRL_RETRAIN_REQ 10) = 1 ∧ wChannelsRetrainAndResume1.fld (Reg.FCE_CTRL_RETRAIN_REQ 63) = 0 ∧ planFree wChannelsRetrainAndResume1.turn wChannelsRetrainAndResume1.sluice.bookings (.die 50) wChannelsRetrainAndResume1.turn = true ∧ (wChannelsRetrainAndResume1.die 50).busy = none ∧ (wChannelsRetrainAndResume1.die 50).hold = some { erase := true, block := 1, page := 0, plan := 0, since := 4000, suspended := some 4100 }) ∧
  reaches wChannelsRetrainAndResume2 5 (Reg.FCE_CTRL 3) ∧
  (wChannelsRetrainAndResume2.fld (Reg.FCE_STATUS_STATE 3) = 2 ∧ (wChannelsRetrainAndResume2.chan 3).raiseAt = none ∧ wChannelsRetrainAndResume2.fld (Reg.FCE_CTRL_RETRAIN_REQ 3) = 0 ∧ (wChannelsRetrainAndResume2.chan 3).cameUp ≠ some wChannelsRetrainAndResume2.turn) :=
  ⟨reaches_of (by decide +kernel), reaches_of (by decide +kernel), reaches_of (by decide +kernel), by decide +kernel, reaches_of (by decide +kernel), by decide +kernel⟩

def wDecodesProbesAndPatrols1 : State := atTurn 100 (with_ [(Reg.LDP_HARD_OUT_OUT, 0x10), (Reg.LDP_SOFT_OUT_OUT, 2), (Reg.LDP_MR_RING_LOG2_ENTRIES, 2), (Reg.LDP_RD_LIMIT_LIMIT, 1001)] (State.reset.onFlash fun x => { x with formeBlocks := [{ lane := 0, b := 0, members := [⟨5, 6⟩, ⟨21, 6⟩], isOpen := false, next := 5 }] }))
def wDecodesProbesAndPatrols2 : State := atTurn 100 ((State.reset.onFlash fun x => { x with plans := [{ id := 2, lane := 0, b := 0, off := 0, units := [], slots := [], members := [{ die := 5, block := 6, dataIn := (1, 2), issue := 3, stage := .proofing, proof := some { reads := [{ die := 5, block := 6, page := 0, member := 2, suspend := none, issue := 4, ready := 10, xfer := (11, 2), resume := none }], decode := (13, 1), proof := 14, host := (15, 1), post := 16 } }] }], formeBlocks := [{ lane := 0, b := 0, members := [⟨5, 6⟩, ⟨21, 6⟩], isOpen := true }] }))
def wDecodesProbesAndPatrols3 : State := ((formeUp (fun f => { f with next := 1, isOpen := false }) (atTurn 100)).onFlash fun x => { x with units := [(unitKey 32 0 0, unitOf 1)] }).poke (State.reset.mapAddr 1) 4 0x30000000
theorem witness_DecodesProbesAndPatrols :
  (wDecodesProbesAndPatrols1.fld Reg.LDP_HARD_OUT_OUT / 2 ^ 4 % 2 = 1 ∧ wDecodesProbesAndPatrols1.fld Reg.LDP_SOFT_OUT_OUT / 2 ^ 1 % 2 = 1 ∧ wDecodesProbesAndPatrols1.fld Reg.LDP_HARD_OUT_OUT / 2 ^ 3 % 2 = 0 ∧ wDecodesProbesAndPatrols1.fld Reg.LDP_SOFT_OUT_OUT / 2 ^ 3 % 2 = 0 ∧ wDecodesProbesAndPatrols1.flash.plans = [] ∧ wDecodesProbesAndPatrols1.fbOf 5 7 = none ∧ wDecodesProbesAndPatrols1.fbOf 5 6 = some { lane := 0, b := 0, members := [⟨5, 6⟩, ⟨21, 6⟩], isOpen := false, next := 5 } ∧ wDecodesProbesAndPatrols1.validUnits { lane := 0, b := 0, members := [⟨5, 6⟩, ⟨21, 6⟩], isOpen := false, next := 5 } = 0 ∧ (wDecodesProbesAndPatrols1.blockInfo 5 6).probes < 4) ∧
  (wDecodesProbesAndPatrols2.fld Reg.LDP_HARD_OUT_OUT / 2 ^ 3 % 2 = 0 ∧ wDecodesProbesAndPatrols2.fbOf 5 6 = some { lane := 0, b := 0, members := [⟨5, 6⟩, ⟨21, 6⟩], isOpen := true }) ∧
  ((wDecodesProbesAndPatrols3.fbOf 32 0).map (fun f => (f.isOpen, f.next, decide (wDecodesProbesAndPatrols3.validUnits f = 0))) = some (false, 1, false) ∧ wDecodesProbesAndPatrols3.patrolPage 0 = true) :=
  ⟨by decide +kernel, by decide +kernel, by decide +kernel⟩

def wDredgingMovesLiveUnits1 : State := (mediaUp (atTurn 100)).setFld Reg.DMC_MAP_CFG_LANES 2
def wDredgingMovesLiveUnits2 : State := atTurn 100
def wDredgingMovesLiveUnits3 : State := ((formeUp (fun f => { f with next := 1, isOpen := false, victim := 1, handle := 3 }) (atTurn 100)).onFlash fun x => { x with units := [(unitKey 32 0 0, unitOf 1)] }).poke (State.reset.mapAddr 1) 4 0x30000000
def wDredgingMovesLiveUnits4 : State := formeUp (fun f => { f with next := 1, isOpen := false, victim := 1, copies := [(0, 2, [])] }) (atTurn 100)
def wDredgingMovesLiveUnits5 : State := (formeUp (fun f => { f with next := 2, members := f.members.take 4 }) (atTurn 100)).onGalley fun g => { g with slots := [(3, { unit := 5, state := .resident, order := 1, sectors := List.replicate 4 (some { fields := [], proof := 0 }) })] }
def wDredgingMovesLiveUnits6 : State := ((formeUp (fun f => { f with next := 2, members := f.members.take 4 }) (atTurn 100)).onGalley fun g => { g with slots := [(3, { unit := 5, state := .resident, order := 1, sectors := List.replicate 4 (some { fields := [], proof := 0 }) })] }).onFlash fun x => { x with dies := [(48, { busy := some (.erase, 50) })] }
theorem witness_DredgingMovesLiveUnits_1 :
  0 < wDredgingMovesLiveUnits1.lanes ∧ ((wDredgingMovesLiveUnits1.openOrder (true && wDredgingMovesLiveUnits1.wearNext 0) 0 []).take 16).length = 16 := by decide +kernel

theorem witness_DredgingMovesLiveUnits_2 :
  0 < wDredgingMovesLiveUnits2.lanes ∧ ((wDredgingMovesLiveUnits2.openOrder (true && wDredgingMovesLiveUnits2.wearNext 0) 0 []).take 16).length < 16 := by decide +kernel

theorem witness_DredgingMovesLiveUnits_3 :
  (∃ f ∈ wDredgingMovesLiveUnits3.formeBlock 0 0, wDredgingMovesLiveUnits3.mayDredge f = true ∧ 2 / 14 < f.next ∧ wDredgingMovesLiveUnits3.copying f 0 2 = false ∧ 0 < wDredgingMovesLiveUnits3.validUnits f) ∧ wDredgingMovesLiveUnits3.unitAt 0 0 2 = some (unitOf 1) ∧ wDredgingMovesLiveUnits3.unitLive 0 0 2 = true := by decide +kernel

theorem witness_DredgingMovesLiveUnits_4 :
  (∃ f ∈ wDredgingMovesLiveUnits4.formeBlock 0 0, f.isOpen = false ∧ f.victim ≠ 9 ∧ (∀ c ∈ f.copies, c.2.2 = []) ∧ wDredgingMovesLiveUnits4.validUnits f = 0 ∧ (∀ m ∈ f.members, wDredgingMovesLiveUnits4.blockPinned m = false) ∧ f.failed = [] ∧ (∀ m ∈ f.members, wDredgingMovesLiveUnits4.dieCounts m.die = true) ∧ f.members ≠ []) := by decide +kernel

theorem witness_DredgingMovesLiveUnits_5 :
  (∃ f ∈ wDredgingMovesLiveUnits5.formeBlock 0 0, f.isOpen = true ∧ (∀ x ∈ wDredgingMovesLiveUnits5.waitingSlots f.lane (some (wDredgingMovesLiveUnits5.formeHandle f)), wDredgingMovesLiveUnits5.slotReady x.2 = true) ∧ wDredgingMovesLiveUnits5.formeUnits f ≠ [] ∧ wDredgingMovesLiveUnits5.accRoom = true ∧ f.next < wDredgingMovesLiveUnits5.unitsPerMb ∧ wDredgingMovesLiveUnits5.tableWritten f = true ∧ (∀ m ∈ f.members, wDredgingMovesLiveUnits5.chanInPlan (m.die / 16) wDredgingMovesLiveUnits5.turn = true) ∧ (∀ m ∈ f.members, (wDredgingMovesLiveUnits5.die m.die).canHold = true)) ∧ (match wDredgingMovesLiveUnits5.formeBlock 0 0 with | some f => (match wDredgingMovesLiveUnits5.dataIns (f.members.take 14) 64 (wDredgingMovesLiveUnits5.turn + 17) with | some w => (match wDredgingMovesLiveUnits5.layProofs wDredgingMovesLiveUnits5.sluice.nextPlan f.lane (f.b * max 1 wDredgingMovesLiveUnits5.unitsPerMb + f.next) (wDredgingMovesLiveUnits5.planMembers f w).zipIdx ⟨wDredgingMovesLiveUnits5.sluice.bookings, []⟩ with | .ok _ => true | .error _ => false) | none => false) | none => false) = true := by decide +kernel

theorem witness_DredgingMovesLiveUnits_6 :
  (∃ f ∈ wDredgingMovesLiveUnits6.formeBlock 0 0, f.isOpen = true ∧ (∀ x ∈ wDredgingMovesLiveUnits6.waitingSlots f.lane (some (wDredgingMovesLiveUnits6.formeHandle f)), wDredgingMovesLiveUnits6.slotReady x.2 = true) ∧ wDredgingMovesLiveUnits6.formeUnits f ≠ [] ∧ wDredgingMovesLiveUnits6.accRoom = true ∧ f.next < wDredgingMovesLiveUnits6.unitsPerMb ∧ wDredgingMovesLiveUnits6.tableWritten f = true ∧ (∀ m ∈ f.members, wDredgingMovesLiveUnits6.chanInPlan (m.die / 16) wDredgingMovesLiveUnits6.turn = true) ∧ (∃ m ∈ f.members, (wDredgingMovesLiveUnits6.die m.die).canHold = false)) := by decide +kernel

theorem witness_DredgingMovesLiveUnits :
  (0 < wDredgingMovesLiveUnits1.lanes ∧ ((wDredgingMovesLiveUnits1.openOrder (true && wDredgingMovesLiveUnits1.wearNext 0) 0 []).take 16).length = 16) ∧
  (0 < wDredgingMovesLiveUnits2.lanes ∧ ((wDredgingMovesLiveUnits2.openOrder (true && wDredgingMovesLiveUnits2.wearNext 0) 0 []).take 16).length < 16) ∧
  ((∃ f ∈ wDredgingMovesLiveUnits3.formeBlock 0 0, wDredgingMovesLiveUnits3.mayDredge f = true ∧ 2 / 14 < f.next ∧ wDredgingMovesLiveUnits3.copying f 0 2 = false ∧ 0 < wDredgingMovesLiveUnits3.validUnits f) ∧ wDredgingMovesLiveUnits3.unitAt 0 0 2 = some (unitOf 1) ∧ wDredgingMovesLiveUnits3.unitLive 0 0 2 = true) ∧
  ((∃ f ∈ wDredgingMovesLiveUnits4.formeBlock 0 0, f.isOpen = false ∧ f.victim ≠ 9 ∧ (∀ c ∈ f.copies, c.2.2 = []) ∧ wDredgingMovesLiveUnits4.validUnits f = 0 ∧ (∀ m ∈ f.members, wDredgingMovesLiveUnits4.blockPinned m = false) ∧ f.failed = [] ∧ (∀ m ∈ f.members, wDredgingMovesLiveUnits4.dieCounts m.die = true) ∧ f.members ≠ [])) ∧
  ((∃ f ∈ wDredgingMovesLiveUnits5.formeBlock 0 0, f.isOpen = true ∧ (∀ x ∈ wDredgingMovesLiveUnits5.waitingSlots f.lane (some (wDredgingMovesLiveUnits5.formeHandle f)), wDredgingMovesLiveUnits5.slotReady x.2 = true) ∧ wDredgingMovesLiveUnits5.formeUnits f ≠ [] ∧ wDredgingMovesLiveUnits5.accRoom = true ∧ f.next < wDredgingMovesLiveUnits5.unitsPerMb ∧ wDredgingMovesLiveUnits5.tableWritten f = true ∧ (∀ m ∈ f.members, wDredgingMovesLiveUnits5.chanInPlan (m.die / 16) wDredgingMovesLiveUnits5.turn = true) ∧ (∀ m ∈ f.members, (wDredgingMovesLiveUnits5.die m.die).canHold = true)) ∧ (match wDredgingMovesLiveUnits5.formeBlock 0 0 with | some f => (match wDredgingMovesLiveUnits5.dataIns (f.members.take 14) 64 (wDredgingMovesLiveUnits5.turn + 17) with | some w => (match wDredgingMovesLiveUnits5.layProofs wDredgingMovesLiveUnits5.sluice.nextPlan f.lane (f.b * max 1 wDredgingMovesLiveUnits5.unitsPerMb + f.next) (wDredgingMovesLiveUnits5.planMembers f w).zipIdx ⟨wDredgingMovesLiveUnits5.sluice.bookings, []⟩ with | .ok _ => true | .error _ => false) | none => false) | none => false) = true) ∧
  ((∃ f ∈ wDredgingMovesLiveUnits6.formeBlock 0 0, f.isOpen = true ∧ (∀ x ∈ wDredgingMovesLiveUnits6.waitingSlots f.lane (some (wDredgingMovesLiveUnits6.formeHandle f)), wDredgingMovesLiveUnits6.slotReady x.2 = true) ∧ wDredgingMovesLiveUnits6.formeUnits f ≠ [] ∧ wDredgingMovesLiveUnits6.accRoom = true ∧ f.next < wDredgingMovesLiveUnits6.unitsPerMb ∧ wDredgingMovesLiveUnits6.tableWritten f = true ∧ (∀ m ∈ f.members, wDredgingMovesLiveUnits6.chanInPlan (m.die / 16) wDredgingMovesLiveUnits6.turn = true) ∧ (∃ m ∈ f.members, (wDredgingMovesLiveUnits6.die m.die).canHold = false))) :=
  ⟨witness_DredgingMovesLiveUnits_1, witness_DredgingMovesLiveUnits_2, witness_DredgingMovesLiveUnits_3, witness_DredgingMovesLiveUnits_4, witness_DredgingMovesLiveUnits_5, witness_DredgingMovesLiveUnits_6⟩

def wWeirAllotmentAndWarnings1 : State := on [5] (mediaUp ((State.reset.onNv fun n => { n with n0 := [2], wear := { n.wear with burst := true } }).onFlash fun x => { x with weir := 3 }))
def wWeirAllotmentAndWarnings2 : State := with_ [(Reg.SLU_STATUS_SEALED, 1)] (State.reset.onNv fun n => { n with wear := { n.wear with burst := true, saved := 1 } })
def wWeirAllotmentAndWarnings3 : State := State.reset.onNv fun n => { n with wear := { n.wear with burst := true, saved := 1 } }
def wWeirAllotmentAndWarnings4 : State := State.reset.onNv fun n => { n with wear := { n.wear with burst := false } }
theorem witness_WeirAllotmentAndWarnings :
  reaches wWeirAllotmentAndWarnings1 5 Reg.SLU_ALLOT_ADD ∧
  (wWeirAllotmentAndWarnings1.fld Reg.SLU_STATUS_SEALED = 0 ∧ wWeirAllotmentAndWarnings1.nv.wear.burst = true) ∧
  wWeirAllotmentAndWarnings2.fld Reg.SLU_STATUS_SEALED = 1 ∧
  ((wWeirAllotmentAndWarnings3.nv.raised = [] ∧ (∀ w ∈ wWeirAllotmentAndWarnings3.warnings, w.now = false))) ∧
  wWeirAllotmentAndWarnings4.nv.wear.burst = false :=
  ⟨reaches_of (by decide +kernel), by decide +kernel, by decide +kernel, by decide +kernel, by decide +kernel⟩

def wRetirementsAndRebuilds1 : State := on [5] (with_ [(Reg.SLU_DIE_STATE_STATE 7, 2), (Reg.SLU_DIE_STATE_STATE 8, 1), (Reg.FUR_STATUS_STATE 8, 0xA)] (formeUp (fun f => { f with next := 1 }) (atTurn 100)))
def wRetirementsAndRebuilds2 : State := with_ [(Reg.SLU_CHAN_OUT_OUT 0, 4)] (((formeUp (fun f => { f with next := 1, isOpen := false }) (atTurn 100)).onFlash fun x => { x with units := [(unitKey 32 0 0, unitOf 1)] }).poke (State.reset.mapAddr 1) 4 0x30000000)
def wRetirementsAndRebuilds3 : State := (((formeUp (fun f => { f with next := 1, isOpen := false }) (atTurn 100)).onFlash fun x => { x with units := [(unitKey 32 0 0, unitOf 1)], rebuilds := [{ chan := true, unit := 3, state := 1, total := 1, done := 0, start := 50, left := [(0, 0, 3)] }] })).setFld Reg.DMC_MAP_CFG_LANES 2
theorem witness_RetirementsAndRebuilds :
  reaches wRetirementsAndRebuilds1 5 (Reg.SLU_CHAN_OUT 1) ∧
  reaches wRetirementsAndRebuilds1 5 (Reg.SLU_DIE_STATE 7) ∧
  (wRetirementsAndRebuilds1.chanRetired 33 = false ∧ wRetirementsAndRebuilds1.fld (Reg.SLU_DIE_STATE_STATE 7) = 2 ∧ wRetirementsAndRebuilds1.fld (Reg.SLU_DIE_STATE_STATE 8) = 1 ∧ wRetirementsAndRebuilds1.fld (Reg.SLU_DIE_STATE_STATE 16) = 0 ∧ wRetirementsAndRebuilds1.nv.fdp = false) ∧
  (wRetirementsAndRebuilds2.flash.rebuilds = [] ∧ wRetirementsAndRebuilds2.unrecorded = [(true, 2)] ∧ (wRetirementsAndRebuilds2.hitBlocks fun d => d / 16 == 2) ≠ []) ∧
  ((∃ f ∈ wRetirementsAndRebuilds3.formeBlock 0 0, 3 < f.members.length ∧ (∀ o < f.next, 14 ≤ wRetirementsAndRebuilds3.readable f.lane (f.b * max 1 wRetirementsAndRebuilds3.unitsPerMb + o) 3) ∧ (wRetirementsAndRebuilds3.openOrder false f.lane f.chans).length = 1) ∧ wRetirementsAndRebuilds3.flash.rebuilds = [{ chan := true, unit := 3, state := 1, total := 1, done := 0, start := 50, left := [(0, 0, 3)] }]) :=
  ⟨reaches_of (by decide +kernel), reaches_of (by decide +kernel), by decide +kernel, by decide +kernel, by decide +kernel⟩

def wQueuesFollowTheirDoorbells1 : State := (hostUp (atTurn 500)).onCtl 0 fun x => { x with cqs := [{ qid := 1, size := 4, vector := 3, entries := [{ sqid := 1, cid := 1, sct := 0, sc := 0, dnr := false, dw0 := 0 }, { sqid := 1, cid := 2, sct := 0, sc := 0, dnr := false, dw0 := 0 }] }, { qid := 2, size := 4, head := 1, entries := List.replicate 3 { sqid := 1, cid := 1, sct := 0, sc := 0, dnr := false, dw0 := 0 }, held := [{ e := { sqid := 1, cid := 9, sct := 0, sc := 0, dnr := false, dw0 := 0 }, cls := 8 }] }], sqs := [{ qid := 1, size := 8, cqid := 1, head := 6, tail := 7, cls := 2, visible := [(490, 2, false, 0)] }, { qid := 2, size := 8, cqid := 1, frozen := true }, { qid := 3, size := 8, cqid := 1, cls := 2, ordered := true, visible := [(490, 2, true, 0)] }, { qid := 4, size := 8, cqid := 1, tail := 5, cls := 3, visible := [(490, 2, false, 0), (500, 2, false, 0), (500, 2, false, 0)] }], coalesced := [(3, 2)] }
def wQueuesFollowTheirDoorbells2 : State := (hostUp (atTurn 500)).onCtl 0 fun x => { x with badBells := [(3, 1, 9)], arb := (2, 0), sqs := [{ qid := 3, size := 8, cqid := 1, cls := 2, ordered := true, visible := [(490, 2, true, 0)] }], cqs := [{ qid := 1, size := 4 }] }
def wQueuesFollowTheirDoorbells3 : State := (hostUp (atTurn 500)).onCtl 0 fun x => { x with link := .l11, sqs := [{ qid := 1, size := 8, cqid := 1, head := 6, tail := 7, cls := 2, visible := [(490, 2, false, 0)] }] }
def wQueuesFollowTheirDoorbells4 : State := with_ [(Reg.HGT_LEVEL_C0_LEVEL, 1), (Reg.HGT_CTX_FLOOR_FLOOR 0, 0), (Reg.HGT_CTX_FLOOR_FLOOR 1, 0xFFFFF), (Reg.SLU_REFUSE_COUNT 8, 0xFFFFFFFF)] (((hostUp (atTurn 500)).onCtl 0 fun x => { x with exhausted := true, sqs := [{ qid := 1, size := 8, cqid := 1, visible := [(490, 2, false, 0)] }, { qid := 2, size := 8, cqid := 1, visible := [(490, 7, false, 0)] }] }).onHost fun h => { h with cmds := [{ ref := ⟨0, 1, 8⟩, sqe := { opcode := 2, cid := 8 }, cls := 2, ordered := false, level0 := false, stamp := 1, fetched := 2, order := 1 }] })
def wQueuesFollowTheirDoorbells5 : State := with_ [(Reg.HGT_LEVEL_C0_LEVEL, 1), (Reg.HGT_CTX_FLOOR_FLOOR 0, 0), (Reg.HGT_CTX_FLOOR_FLOOR 1, 0xFFFFF), (Reg.SLU_REFUSE_COUNT 8, 0xFFFFFFFF)] (((hostUp (atTurn 500)).onCtl 0 fun x => { x with exhausted := true, arb := (1, 100000), sqs := [{ qid := 1, size := 8, cqid := 1, visible := [(490, 2, false, 0)] }, { qid := 2, size := 8, cqid := 1, visible := [(490, 7, false, 0)] }] }).onHost fun h => { h with cmds := [{ ref := ⟨0, 1, 8⟩, sqe := { opcode := 2, cid := 8 }, cls := 2, ordered := false, level0 := false, stamp := 1, fetched := 2, order := 1 }] })
theorem witness_QueuesFollowTheirDoorbells :
  ((wQueuesFollowTheirDoorbells1.running 0 = true ∧ (∃ q ∈ wQueuesFollowTheirDoorbells1.sq 0 1, q.frozen = false ∧ 1 < q.size ∧ (1 + q.size - q.head) % q.size = 3 ∧ (6 + q.size - q.head) % q.size = 0 ∧ q.visible = [(490, 2, false, 0)] ∧ q.paused = false) ∧ wQueuesFollowTheirDoorbells1.turn = 500 ∧ (∃ q ∈ wQueuesFollowTheirDoorbells1.sq 0 4, q.frozen = false ∧ (2 + q.size - q.head) % q.size = 2 ∧ q.visible.length = 3) ∧ wQueuesFollowTheirDoorbells1.power.mode ≠ .conserve ∧ wQueuesFollowTheirDoorbells1.power.entry = none ∧ (∃ q ∈ wQueuesFollowTheirDoorbells1.sq 0 2, q.frozen = true ∧ 7 < q.size) ∧ wQueuesFollowTheirDoorbells1.ctxFree 0 = true ∧ wQueuesFollowTheirDoorbells1.host.admitStop = false ∧ klook 3 (wQueuesFollowTheirDoorbells1.ctl 0).coalesced = some 2 ∧ (wQueuesFollowTheirDoorbells1.ctl 0).link = .l0 ∧ wQueuesFollowTheirDoorbells1.cq 0 9 = none ∧ wQueuesFollowTheirDoorbells1.nextSq 0 = some 1 ∧ wQueuesFollowTheirDoorbells1.fetchedNow 0 < 2048) ∧ (∃ q ∈ wQueuesFollowTheirDoorbells1.cq 0 1, (1 + q.size - q.head) % q.size ≤ q.entries.length ∧ q.held = [] ∧ q.entries.length < (3 + q.size - q.head) % q.size) ∧ (∃ q ∈ wQueuesFollowTheirDoorbells1.cq 0 2, (2 + q.size - q.head) % q.size ≤ q.entries.length ∧ q.held.length = 1 ∧ q.entries.length - (2 + q.size - q.head) % q.size + 1 < q.size)) ∧
  ((wQueuesFollowTheirDoorbells2.running 0 = true ∧ (wQueuesFollowTheirDoorbells2.ctl 0).badBells = [(3, 1, 9)] ∧ (∀ q ∈ wQueuesFollowTheirDoorbells2.allCqs 0, q.newHead = none) ∧ wQueuesFollowTheirDoorbells2.nextSq 0 = some 3 ∧ wQueuesFollowTheirDoorbells2.fetchedNow 0 < 2048 ∧ wQueuesFollowTheirDoorbells2.ctxFree 0 = true ∧ wQueuesFollowTheirDoorbells2.host.admitStop = false)) ∧
  ((wQueuesFollowTheirDoorbells3.running 0 = true ∧ (wQueuesFollowTheirDoorbells3.ctl 0).link ≠ .l0 ∧ (∃ q ∈ wQueuesFollowTheirDoorbells3.sq 0 1, q.frozen = false ∧ 1 < q.size ∧ (1 + q.size - q.head) % q.size = 3 ∧ q.visible = [(490, 2, false, 0)]) ∧ wQueuesFollowTheirDoorbells3.power.mode ≠ .conserve ∧ wQueuesFollowTheirDoorbells3.power.entry = none)) ∧
  ((wQueuesFollowTheirDoorbells4.running 0 = true ∧ wQueuesFollowTheirDoorbells4.host.admitStop = false ∧ wQueuesFollowTheirDoorbells4.ctxFree 0 = false ∧ wQueuesFollowTheirDoorbells4.level 0 ≠ 0 ∧ (wQueuesFollowTheirDoorbells4.ctl 0).exhausted = true ∧ (∃ q ∈ wQueuesFollowTheirDoorbells4.sq 0 1, q.visible = [(490, 2, false, 0)] ∧ q.frozen = false ∧ q.paused = false) ∧ wQueuesFollowTheirDoorbells4.nextSq 0 = some 1 ∧ wQueuesFollowTheirDoorbells4.fetchedNow 0 < 2048 ∧ wQueuesFollowTheirDoorbells4.check 0 { opcode := 0, cid := 77, nsid := 0xFFFFFFFF } = none ∧ (wQueuesFollowTheirDoorbells4.check 0 { opcode := 2, cid := 77, nsid := 9, nlb := 1 }).isSome = true)) ∧
  ((wQueuesFollowTheirDoorbells5.running 0 = true ∧ wQueuesFollowTheirDoorbells5.host.admitStop = false ∧ wQueuesFollowTheirDoorbells5.ctxFree 0 = false ∧ wQueuesFollowTheirDoorbells5.level 0 ≠ 0 ∧ (wQueuesFollowTheirDoorbells5.ctl 0).exhausted = true ∧ (∃ q ∈ wQueuesFollowTheirDoorbells5.sq 0 2, q.visible = [(490, 7, false, 0)] ∧ q.frozen = false ∧ q.paused = false) ∧ wQueuesFollowTheirDoorbells5.nextSq 0 = some 2 ∧ wQueuesFollowTheirDoorbells5.fetchedNow 0 < 2048)) :=
  ⟨by decide +kernel, by decide +kernel, by decide +kernel, by decide +kernel, by decide +kernel⟩

def wQueueCommandsAnswer1 : State := with_ [(Reg.HGT_LEVEL_C0_LEVEL, 2)] (((hostUp (atTurn 500)).onCtl 0 fun x => { x with cqs := [{ qid := 1, size := 4 }, { qid := 2, size := 4 }], sqs := [{ qid := 1, size := 8, cqid := 1, head := 6, tail := 7, cls := 2 }, { qid := 2, size := 8, cqid := 1, head := 6, tail := 7, cls := 2, ordered := true, frozen := true, storedTail := some 1, visible := [(3, 2, true, 0)] }, { qid := 5, size := 8, cqid := 1, frozen := true, visible := [(3, 2, true, 0)] }], freezes := [{ seq := 6, sqid := 5, trigCid := 0, trigStatus := 0, sqHead := 0, turn := 0, trigDw0 := 0, count := 0, first := 0, last := 0 }, { seq := 4, sqid := 2, trigCid := 0, trigStatus := 0, sqHead := 0, turn := 0, trigDw0 := 0, count := 0, first := 0, last := 0 }] }).onHost fun h => { h with cmds := [{ ref := ⟨0, 1, 7⟩, sqe := { opcode := 2, cid := 7 }, cls := 2, ordered := false, level0 := false, stamp := 1, fetched := 2, order := 0 }, { ref := ⟨0, 1, 8⟩, sqe := { opcode := 2, cid := 8 }, cls := 2, ordered := false, level0 := false, stamp := 1, fetched := 2, order := 1, phase := .started }, { ref := ⟨0, 1, 6⟩, sqe := { opcode := 2, cid := 6 }, cls := 2, ordered := false, level0 := false, stamp := 1, fetched := 2, order := 2, phase := .accepted, plan := 3 }] })
def wQueueCommandsAnswer2 : State := (hostUp (atTurn 500)).onCtl 1 fun x => { x with events := [{ type := 7, info := 0xD0, lid := 2 }, { type := 1, info := 2, lid := 2 }] }
def wQueueCommandsAnswer3 : State := (hostUp (atTurn 500)).onCtl 1 fun x => { x with aers := List.replicate 16 ⟨2, 1⟩, aborts := List.replicate 64 ⟨⟨2, 1⟩, none, 0, 1⟩ }
theorem witness_QueueCommandsAnswer :
  hgTakes wQueueCommandsAnswer1 ⟨1, 9⟩ 0 ∧
  ((wQueueCommandsAnswer1.cq 0 3 = none ∧ (wQueueCommandsAnswer1.cq 0 1).isSome = true ∧ wQueueCommandsAnswer1.sq 0 3 = none ∧ wQueueCommandsAnswer1.cq 0 9 = none ∧ (wQueueCommandsAnswer1.sq 0 1).isSome = true ∧ (∀ q ∈ (wQueueCommandsAnswer1.ctl 0).sqs, q.cqid ≠ 2) ∧ (∃ q ∈ (wQueueCommandsAnswer1.ctl 0).sqs, q.cqid = 1) ∧ (wQueueCommandsAnswer1.cq 0 2).isSome = true ∧ 2 ≤ wQueueCommandsAnswer1.level 0 ∧ (∃ q ∈ wQueueCommandsAnswer1.sq 0 1, q.frozen = false ∧ q.ordered = false ∧ q.cqid ≠ 0) ∧ (∃ q ∈ wQueueCommandsAnswer1.sq 0 2, q.frozen = true ∧ q.storedTail = some 1 ∧ 1 < q.size ∧ (q.visible.filter fun x => x.1 != wQueueCommandsAnswer1.turn).length ≤ (1 + q.size - q.head) % q.size) ∧ (∃ q ∈ wQueueCommandsAnswer1.sq 0 5, q.frozen = true ∧ q.storedTail = none) ∧ (∃ f ∈ (wQueueCommandsAnswer1.ctl 0).freezes, f.sqid = 5 ∧ f.seq = 6) ∧ wQueueCommandsAnswer1.power.mode ≠ .conserve ∧ wQueueCommandsAnswer1.power.entry = none ∧ (wQueueCommandsAnswer1.ctl 0).aborts.length < 64 ∧ (∃ f ∈ (wQueueCommandsAnswer1.ctl 0).freezes, f.sqid = 2 ∧ f.seq = 4) ∧ (∃ k ∈ wQueueCommandsAnswer1.cmd ⟨0, 1, 7⟩, k.fetched ≠ wQueueCommandsAnswer1.turn ∧ k.posting wQueueCommandsAnswer1.turn = false ∧ k.phase = .fetched) ∧ (∃ k ∈ wQueueCommandsAnswer1.cmd ⟨0, 1, 6⟩, k.fetched ≠ wQueueCommandsAnswer1.turn ∧ k.posting wQueueCommandsAnswer1.turn = false ∧ k.phase = .accepted) ∧ (∃ k ∈ wQueueCommandsAnswer1.cmd ⟨0, 1, 8⟩, k.phase = .started) ∧ wQueueCommandsAnswer1.cmd ⟨0, 1, 10⟩ = none ∧ (wQueueCommandsAnswer1.ctl 0).aers.length < 16 ∧ (wQueueCommandsAnswer1.ctl 0).events = [])) ∧
  hgTakes wQueueCommandsAnswer2 ⟨2, 9⟩ 1 ∧
  (wQueueCommandsAnswer2.level 1 < 2 ∧ (wQueueCommandsAnswer2.ctl 1).aers.length < 16 ∧ (wQueueCommandsAnswer2.ctl 1).events = [{ type := 7, info := 0xD0, lid := 2 }, { type := 1, info := 2, lid := 2 }]) ∧
  hgTakes wQueueCommandsAnswer3 ⟨2, 9⟩ 1 ∧
  (16 ≤ (wQueueCommandsAnswer3.ctl 1).aers.length ∧ 64 ≤ (wQueueCommandsAnswer3.ctl 1).aborts.length) :=
  ⟨hgTakes_of (by decide +kernel), by decide +kernel, hgTakes_of (by decide +kernel), by decide +kernel, hgTakes_of (by decide +kernel), by decide +kernel⟩

def wAdmissionDecidesCommands1 : State := cmdIn { opcode := 2, cid := 7, nsid := 1, nlb := 7 } 0 (nsUp (atTurn 110))
def wAdmissionDecidesCommands2 : State := cmdIn { opcode := 1, cid := 7, nsid := 1, nlb := 7, data := List.replicate 8 [] } 2 (nsUp (atTurn 110))
def wAdmissionDecidesCommands3 : State := cmdIn { opcode := 0x7D, cid := 7, nsid := 1, nlb := 7, data := List.replicate 8 [] } 2 (nsUp (atTurn 110))
def wAdmissionDecidesCommands4 : State := cmdIn { opcode := 5, cid := 7, nsid := 1, nlb := 7, data := List.replicate 8 [] } 2 (nsUp (atTurn 110))
def wAdmissionDecidesCommands5 : State := cmdIn { opcode := 8, cid := 7, nsid := 1, nlb := 33 } 2 (nsUp (atTurn 110))
def wAdmissionDecidesCommands6 : State := cmdIn { opcode := 9, cid := 7, nsid := 1, ad := true, ranges := [(0, 32)] } 2 (nsUp (atTurn 110))
def wAdmissionDecidesCommands7 : State := cmdIn { opcode := 0xC, cid := 7, nsid := 1, nlb := 31 } 2 (nsUp (atTurn 110))
def wAdmissionDecidesCommands8 : State := cmdIn { opcode := 0x19, cid := 7, nsid := 1, slba := 64, ranges := [(0, 32)] } 2 (nsUp (atTurn 110))
def wAdmissionDecidesCommands9 : State := cmdIn { opcode := 0x79, cid := 7, nsid := 1, zsa := 3 } 3 (nsUp (atTurn 110))
def wAdmissionDecidesCommands10 : State := cmdIn { opcode := 0x7A, cid := 7, nsid := 1 } 2 (nsUp (atTurn 110))
def wAdmissionDecidesCommands11 : State := cmdIn { opcode := 2, cid := 7, nsid := 1, slba := 0x200000, nlb := 7 } 0 (nsUp (atTurn 110))
def wAdmissionDecidesCommands12 : State := cmdIn { opcode := 2, cid := 7, nsid := 1, nlb := 7 } 7 (nsUp (atTurn 110))
def wAdmissionDecidesCommands13 : State := inMode .sealed (cmdIn { opcode := 1, cid := 7, nsid := 1, nlb := 7 } 2 (nsUp (atTurn 110)))
def wAdmissionDecidesCommands14 : State := with_ [(Reg.SLU_ALLOT_BAL_BALANCE, 0), (Reg.SLU_ALLOT_CREDIT_CREDIT, 1)] (cmdIn { opcode := 1, cid := 7, nsid := 1, nlb := 7 } 2 (nsUp (atTurn 110)))
def wAdmissionDecidesCommands15 : State := (cmdIn { opcode := 2, cid := 7, nsid := 1, nlb := 7 } 0 (nsUp (atTurn 110))).onMemory fun m => { m with searching := [1] }
def wAdmissionDecidesCommands16 : State := (cmdIn { opcode := 2, cid := 7, nsid := 1, nlb := 7 } 0 (nsUp (atTurn 110))).onSluice fun x => { x with lookups := [(101 * 16 + 15, 4096)] }
def wAdmissionDecidesCommands17 : State := cmdIn { opcode := 2, cid := 7, nsid := 1, nlb := 7 } 0 (nsUp (atTurn 600))
theorem witness_AdmissionDecidesCommands :
  ((∃ k ∈ wAdmissionDecidesCommands1.cmd ⟨0, 1, 7⟩, wAdmissionDecidesCommands1.host.cmds = [k] ∧ wAdmissionDecidesCommands1.due k = true ∧ ∃ n ∈ wAdmissionDecidesCommands1.ns 1, ∃ p ∈ wAdmissionDecidesCommands1.parts k n, wAdmissionDecidesCommands1.decideClass k n = 0 ∧ k.cls = 0 ∧ wAdmissionDecidesCommands1.writeBar k n p = none ∧ wAdmissionDecidesCommands1.memory.searching = [] ∧ wAdmissionDecidesCommands1.linesFit k (wAdmissionDecidesCommands1.mapLines p k) = true ∧ wAdmissionDecidesCommands1.badLine (wAdmissionDecidesCommands1.mapLines p k) = none ∧ ((wAdmissionDecidesCommands1.countLines k (wAdmissionDecidesCommands1.mapLines p k)).tryPlan k n p 0 99).toOption.isSome = true)) ∧
  ((∃ k ∈ wAdmissionDecidesCommands2.cmd ⟨0, 1, 7⟩, wAdmissionDecidesCommands2.host.cmds = [k] ∧ wAdmissionDecidesCommands2.due k = true ∧ ∃ n ∈ wAdmissionDecidesCommands2.ns 1, ∃ p ∈ wAdmissionDecidesCommands2.parts k n, wAdmissionDecidesCommands2.decideClass k n = 2 ∧ wAdmissionDecidesCommands2.writeBar k n p = none)) ∧
  ((∃ k ∈ wAdmissionDecidesCommands11.cmd ⟨0, 1, 7⟩, wAdmissionDecidesCommands11.host.cmds = [k] ∧ wAdmissionDecidesCommands11.due k = true ∧ ∃ n ∈ wAdmissionDecidesCommands11.ns 1, (wAdmissionDecidesCommands11.parts k n).isNone = true)) ∧
  ((∃ k ∈ wAdmissionDecidesCommands12.cmd ⟨0, 1, 7⟩, wAdmissionDecidesCommands12.host.cmds = [k] ∧ wAdmissionDecidesCommands12.due k = true ∧ ∃ n ∈ wAdmissionDecidesCommands12.ns 1, (wAdmissionDecidesCommands12.parts k n).isSome = true ∧ wAdmissionDecidesCommands12.decideClass k n = 7)) ∧
  ((∃ k ∈ wAdmissionDecidesCommands13.cmd ⟨0, 1, 7⟩, wAdmissionDecidesCommands13.host.cmds = [k] ∧ wAdmissionDecidesCommands13.due k = true ∧ ∃ n ∈ wAdmissionDecidesCommands13.ns 1, ∃ p ∈ wAdmissionDecidesCommands13.parts k n, wAdmissionDecidesCommands13.decideClass k n = 2 ∧ wAdmissionDecidesCommands13.writeBar k n p = some 0xA)) ∧
  ((∃ k ∈ wAdmissionDecidesCommands14.cmd ⟨0, 1, 7⟩, wAdmissionDecidesCommands14.host.cmds = [k] ∧ wAdmissionDecidesCommands14.due k = true ∧ ∃ n ∈ wAdmissionDecidesCommands14.ns 1, ∃ p ∈ wAdmissionDecidesCommands14.parts k n, wAdmissionDecidesCommands14.decideClass k n = 2 ∧ wAdmissionDecidesCommands14.writeBar k n p = some 5)) ∧
  ((∃ k ∈ wAdmissionDecidesCommands15.cmd ⟨0, 1, 7⟩, wAdmissionDecidesCommands15.host.cmds = [k] ∧ wAdmissionDecidesCommands15.due k = true ∧ wAdmissionDecidesCommands15.memory.searching ≠ [] ∧ ∃ n ∈ wAdmissionDecidesCommands15.ns 1, ∃ p ∈ wAdmissionDecidesCommands15.parts k n, wAdmissionDecidesCommands15.decideClass k n = 0 ∧ wAdmissionDecidesCommands15.writeBar k n p = none)) ∧
  ((∃ k ∈ wAdmissionDecidesCommands16.cmd ⟨0, 1, 7⟩, wAdmissionDecidesCommands16.host.cmds = [k] ∧ wAdmissionDecidesCommands16.due k = true ∧ wAdmissionDecidesCommands16.memory.searching = [] ∧ ∃ n ∈ wAdmissionDecidesCommands16.ns 1, ∃ p ∈ wAdmissionDecidesCommands16.parts k n, wAdmissionDecidesCommands16.decideClass k n = 0 ∧ wAdmissionDecidesCommands16.writeBar k n p = none ∧ wAdmissionDecidesCommands16.linesFit k (wAdmissionDecidesCommands16.mapLines p k) = false)) ∧
  ((∃ k ∈ wAdmissionDecidesCommands17.cmd ⟨0, 1, 7⟩, wAdmissionDecidesCommands17.host.cmds = [k] ∧ wAdmissionDecidesCommands17.due k = true ∧ wAdmissionDecidesCommands17.memory.searching = [] ∧ ∃ n ∈ wAdmissionDecidesCommands17.ns 1, ∃ p ∈ wAdmissionDecidesCommands17.parts k n, wAdmissionDecidesCommands17.decideClass k n = 0 ∧ wAdmissionDecidesCommands17.writeBar k n p = none ∧ wAdmissionDecidesCommands17.linesFit k (wAdmissionDecidesCommands17.mapLines p k) = true ∧ wAdmissionDecidesCommands17.badLine (wAdmissionDecidesCommands17.mapLines p k) = none ∧ ((wAdmissionDecidesCommands17.countLines k (wAdmissionDecidesCommands17.mapLines p k)).tryPlan k n p 0 99).toOption.isSome = false)) :=
  ⟨by decide +kernel, by decide +kernel, by decide +kernel, by decide +kernel, by decide +kernel, by decide +kernel, by decide +kernel, by decide +kernel, by decide +kernel⟩

def wRefusalHintIsLeast1 : State := cmdIn { opcode := 2, cid := 7, nsid := 1, nlb := 7 } 0 (nsUp (atTurn 600))
def wRefusalHintIsLeast2 : State := inMode .sealed (cmdIn { opcode := 1, cid := 7, nsid := 1, nlb := 7 } 2 (nsUp (atTurn 110)))
theorem witness_RefusalHintIsLeast :
  ((∃ k ∈ wRefusalHintIsLeast1.cmd ⟨0, 1, 7⟩, ∃ n ∈ wRefusalHintIsLeast1.ns 1, ∃ p ∈ wRefusalHintIsLeast1.parts k n, wRefusalHintIsLeast1.hint k n p 0 9 ≠ 0xFFFF ∧ wRefusalHintIsLeast1.hint k n p 0 0xA = 0xFFFF)) ∧
  (∃ k ∈ wRefusalHintIsLeast2.cmd ⟨0, 1, 7⟩, ∃ n ∈ wRefusalHintIsLeast2.ns 1, ∃ p ∈ wRefusalHintIsLeast2.parts k n, wRefusalHintIsLeast2.hint k n p 2 5 = 0xFFFF) :=
  ⟨by decide +kernel, hint_sealed_of (by decide +kernel)⟩

def wHeldAndImmediateCommands1 : State := (cmdIn { opcode := 2, cid := 7, nsid := 1, nlb := 7 } 7 (nsUp (atTurn 110))).onHost fun h => { h with cmds := h.cmds.map fun k => { k with phase := .held } }
def wHeldAndImmediateCommands2 : State := with_ [(Reg.SLU_ALLOT_BAL_BALANCE, 0)] ((cmdIn { opcode := 1, cid := 7, nsid := 1, nlb := 7 } 7 (nsUp (atTurn 110))).onHost fun h => { h with cmds := h.cmds.map fun k => { k with phase := .held } })
def wHeldAndImmediateCommands3 : State := inMode .sealed ((cmdIn { opcode := 1, cid := 7, nsid := 1, nlb := 7 } 7 (nsUp (atTurn 110))).onHost fun h => { h with cmds := h.cmds.map fun k => { k with phase := .held } })
def wHeldAndImmediateCommands4 : State := (cmdIn { opcode := 0, cid := 7, nsid := 1 } 2 (nsUp (atTurn 101))).onHost fun h => { h with cmds := h.cmds.map fun k => { k with outcome := some (0, 0, false, 0) } }
def wHeldAndImmediateCommands5 : State := (cmdIn { opcode := 9, cid := 7, nsid := 1 } 2 (nsUp (atTurn 101))).onHost fun h => { h with cmds := h.cmds.map fun k => { k with outcome := some (0, 0, false, 0) } }
def wHeldAndImmediateCommands6 : State := (cmdIn { opcode := 9, cid := 7, nsid := 1 } 2 (nsUp (atTurn 100))).onHost fun h => { h with cmds := h.cmds.map fun k => { k with outcome := some (0, 0, false, 0) } }
def wHeldAndImmediateCommands7 : State := cmdIn { opcode := 5, cid := 7, nsid := 1, nlb := 7 } 2 (nsUp (atTurn 110))
def wHeldAndImmediateCommands8 : State := cmdIn { opcode := 0x19, cid := 7, nsid := 1, slba := 64, ranges := [(0, 32)] } 2 (nsUp (atTurn 110))
theorem witness_HeldAndImmediateCommands :
  ((∃ k ∈ wHeldAndImmediateCommands1.cmd ⟨0, 1, 7⟩, k.phase = .held ∧ k.outcome = none ∧ ∃ n ∈ wHeldAndImmediateCommands1.ns k.sqe.nsid, ∃ p ∈ wHeldAndImmediateCommands1.parts k n, (wHeldAndImmediateCommands1.tryPlan k n p 7 k.stamp).toOption.isSome = true)) ∧
  ((∃ k ∈ wHeldAndImmediateCommands2.cmd ⟨0, 1, 7⟩, k.phase = .held ∧ k.outcome = none ∧ wHeldAndImmediateCommands2.power.mode ≠ .sealed ∧ ∃ n ∈ wHeldAndImmediateCommands2.ns k.sqe.nsid, ∃ p ∈ wHeldAndImmediateCommands2.parts k n, (match wHeldAndImmediateCommands2.tryPlan k n p 7 k.stamp with | .error e => decide (e ≠ 8) | .ok _ => false) = true)) ∧
  ((∃ k ∈ wHeldAndImmediateCommands3.cmd ⟨0, 1, 7⟩, k.phase = .held ∧ k.outcome = none ∧ k.kind.writes = true ∧ wHeldAndImmediateCommands3.power.mode = .sealed ∧ (wHeldAndImmediateCommands3.ns k.sqe.nsid).isSome = true)) ∧
  ((∃ k ∈ wHeldAndImmediateCommands4.cmd ⟨0, 1, 7⟩, k.sqe.opcode = 0 ∧ k.fetched + 1 ≤ wHeldAndImmediateCommands4.turn ∧ wHeldAndImmediateCommands4.waitsTurn k = false ∧ k.outcome = some (0, 0, false, 0) ∧ k.phase = .fetched ∧ k.discard = false ∧ ∃ q ∈ wHeldAndImmediateCommands4.sq 0 1, ∃ c ∈ wHeldAndImmediateCommands4.cq 0 q.cqid, c.full = false ∧ c.held = [])) ∧
  ((∃ k ∈ wHeldAndImmediateCommands5.cmd ⟨0, 1, 7⟩, k.sqe.opcode = 9 ∧ k.sqe.ad = false ∧ k.fetched + 1 ≤ wHeldAndImmediateCommands5.turn ∧ wHeldAndImmediateCommands5.waitsTurn k = false ∧ k.outcome = some (0, 0, false, 0) ∧ k.phase = .fetched ∧ k.discard = false)) ∧
  ((∃ k ∈ wHeldAndImmediateCommands6.cmd ⟨0, 1, 7⟩, k.sqe.opcode = 9 ∧ k.sqe.ad = false ∧ wHeldAndImmediateCommands6.turn < k.fetched + 1)) ∧
  ((∃ k ∈ wHeldAndImmediateCommands7.cmd ⟨0, 1, 7⟩, k.outcome = none ∧ k.sqe.opcode = 5 ∧ k.phase = .fetched ∧ wHeldAndImmediateCommands7.sluice.plans = [] ∧ k.ref.sqid ≠ 0)) ∧
  ((∃ k ∈ wHeldAndImmediateCommands8.cmd ⟨0, 1, 7⟩, k.outcome = none ∧ k.sqe.opcode = 0x19 ∧ k.phase = .fetched ∧ wHeldAndImmediateCommands8.sluice.plans = [])) :=
  ⟨by decide +kernel, by decide +kernel, by decide +kernel, by decide +kernel, by decide +kernel, by decide +kernel, by decide +kernel, by decide +kernel⟩

def wFeaturesAreSetAndRead1 : State := with_ [(Reg.HGT_LEVEL_C0_LEVEL, 2)] (on [1] ((hostUp (atTurn 500)).onCtl 0 fun x => { x with sqs := [{ qid := 3, size := 8, cqid := 1 }], features := [(0xB, 7)] }))
def wFeaturesAreSetAndRead2 : State := domAs 3 (fun d => { d with state := .retired }) (with_ [(Reg.HGT_LEVEL_C1_LEVEL, 3)] (on [1] (hostUp (atTurn 500))))
def wFeaturesAreSetAndRead3 : State := with_ [(Reg.LDP_DLX_TABLE_BANK, 9), (Reg.OCM_BANK_STATE 9, 1), (Reg.PMC_PS_C1_SEL, 4), (Reg.PMC_PS_C0_SEL, 2), (Reg.PMC_PS_PS, 2)] (on [1] (hostUp (atTurn 500)))
def wFeaturesAreSetAndRead4 : State := with_ [(Reg.HGT_LEVEL_C0_LEVEL, 2)] (cmdIn { opcode := 2, cid := 7 } 2 (on [1] (hostUp (atTurn 500))))
def wFeaturesAreSetAndRead5 : State := with_ [(Reg.SLU_STATUS_SEALED, 1)] (inMode .sealed (on [1] (hostUp (atTurn 500))))
def wFeaturesAreSetAndRead6 : State := pathsUp (atTurn 500)
theorem witness_FeaturesAreSetAndRead :
  hears wFeaturesAreSetAndRead1 ⟨1, 9⟩ ∧
  ((wFeaturesAreSetAndRead1.power.mode ≠ .conserve ∧ (wFeaturesAreSetAndRead1.ctl 0).sqs ≠ [] ∧ 1 ≤ wFeaturesAreSetAndRead1.level 0 ∧ 2 ≤ wFeaturesAreSetAndRead1.level 0 ∧ wFeaturesAreSetAndRead1.level 0 < 3 ∧ (∃ q ∈ wFeaturesAreSetAndRead1.sq 0 3, wFeaturesAreSetAndRead1.sqBusy 0 q = false))) ∧
  hears wFeaturesAreSetAndRead2 ⟨2, 9⟩ ∧
  (3 ≤ wFeaturesAreSetAndRead2.level 1 ∧ 4 % 2 = 0 ∧ wFeaturesAreSetAndRead2.deadMask 4 = 0 ∧ wFeaturesAreSetAndRead2.deadMask 8 ≠ 0 ∧ (wFeaturesAreSetAndRead2.ctl 1).sqs = [] ∧ wFeaturesAreSetAndRead2.level 0 < 1) ∧
  hears wFeaturesAreSetAndRead3 ⟨1, 9⟩ ∧
  (wFeaturesAreSetAndRead3.power.mode = .service ∧ wFeaturesAreSetAndRead3.fld Reg.SLU_STATUS_SEALED = 0 ∧ wFeaturesAreSetAndRead3.power.entry = none ∧ wFeaturesAreSetAndRead3.power.psWait = none ∧ wFeaturesAreSetAndRead3.power.psChange = none ∧ wFeaturesAreSetAndRead3.power.thermCeil = none ∧ 3 ≤ min 3 (wFeaturesAreSetAndRead3.fld Reg.PMC_PS_C1_SEL) ∧ min 2 (wFeaturesAreSetAndRead3.fld Reg.PMC_PS_C1_SEL) = wFeaturesAreSetAndRead3.fld Reg.PMC_PS_PS ∧ min 1 (wFeaturesAreSetAndRead3.fld Reg.PMC_PS_C1_SEL) ≠ wFeaturesAreSetAndRead3.fld Reg.PMC_PS_PS ∧ 9 ∈ wFeaturesAreSetAndRead3.copyBanks ∧ wFeaturesAreSetAndRead3.bankState 9 = 1) ∧
  hears wFeaturesAreSetAndRead4 ⟨1, 9⟩ ∧
  (∃ q ∈ wFeaturesAreSetAndRead4.sq 0 1, wFeaturesAreSetAndRead4.sqBusy 0 q = true) ∧
  hears wFeaturesAreSetAndRead5 ⟨1, 9⟩ ∧
  wFeaturesAreSetAndRead5.fld Reg.SLU_STATUS_SEALED = 1 ∧
  hears wFeaturesAreSetAndRead6 ⟨7, 9⟩ :=
  ⟨hears_of (by decide +kernel), by decide +kernel, hears_of (by decide +kernel), by decide +kernel, hears_of (by decide +kernel), by decide +kernel, hears_of (by decide +kernel), by decide +kernel, hears_of (by decide +kernel), by decide +kernel, hears_of (by decide +kernel)⟩

def wPagesAndStructuresAnswer1 : State := with_ [(Reg.HGT_LEVEL_C0_LEVEL, 2)] (nsUp (atTurn 500))
def wPagesAndStructuresAnswer2 : State := with_ [(Reg.HGT_LEVEL_C0_LEVEL, 3)] (nsUp (atTurn 500))
def wPagesAndStructuresAnswer3 : State := (inMode .conserve (hostUp (atTurn 500))).onPower fun p => { p with exiting := some { began := 7, req := none } }
theorem witness_PagesAndStructuresAnswer :
  hears wPagesAndStructuresAnswer1 ⟨1, 9⟩ ∧
  ((wPagesAndStructuresAnswer1.power.mode ≠ .conserve ∧ 2 ≤ wPagesAndStructuresAnswer1.level 0 ∧ wPagesAndStructuresAnswer1.level 0 < 3 ∧ (∃ n ∈ wPagesAndStructuresAnswer1.ns 1, n.on 0 = true))) ∧
  hears wPagesAndStructuresAnswer2 ⟨1, 9⟩ ∧
  3 ≤ wPagesAndStructuresAnswer2.level 0 ∧
  hears wPagesAndStructuresAnswer3 ⟨1, 9⟩ ∧
  ((wPagesAndStructuresAnswer3.level 0 < 2 ∧ wPagesAndStructuresAnswer3.power.mode = .conserve ∧ ∃ n ∈ wPagesAndStructuresAnswer3.adminCluster, (wPagesAndStructuresAnswer3.dom n).state = .off ∧ (wPagesAndStructuresAnswer3.dom n).votes = [])) :=
  ⟨hears_of (by decide +kernel), by decide +kernel, hears_of (by decide +kernel), by decide +kernel, hears_of (by decide +kernel), by decide +kernel⟩

def wNamespaceCommandsAct1 : State := ((nsUp (atTurn 500)).onNv fun v => { v with grans := 3, fdp := true }).onStore fun t => { t with vpd := List.replicate 1024 7 }
def wNamespaceCommandsAct2 : State := (nsUp (atTurn 500)).onNv fun v => { v with fdp := false, namespaces := v.namespaces.map fun n => { n with attached := 0 } }
def wNamespaceCommandsAct3 : State := ((nsUp (atTurn 500)).onGalley fun g => { g with wipe := some { adm := none, kind := 2, nsids := [1], rekey := true } }).onNv fun v => { v with namespaces := (List.range 256).map fun i => { nsid := i + 1, nsze := 8, lbaf := 0, dataGrans := 1, gbase := 0, grans := 1 } }
def wNamespaceCommandsAct4 : State := (nsUp (atTurn 500)).onGalley fun g => { g with creating := [(⟨1, 9⟩, 2)] }
def wNamespaceCommandsAct5 : State := (nsUp (atTurn 500)).onGalley fun g => { g with wipe := some { adm := some ⟨1, 9⟩, kind := 3, nsids := [1], rekey := false, closing := true } }
theorem witness_NamespaceCommandsAct :
  takes wNamespaceCommandsAct1 ⟨1, 9⟩ ∧
  ((formatOk 0 0 = true ∧ formatOk 5 0 = false ∧ formatOk 0 1 = false ∧ (List.range 256).find? (fun i => (wNamespaceCommandsAct1.ns (i + 1)).isNone) = some 1 ∧ (wNamespaceCommandsAct1.allocate 2 (gransOf (dataGransOf 100 0) 0)).isSome = true ∧ (wNamespaceCommandsAct1.allocate 2 (gransOf (dataGransOf 0x1000000 0) 0)).isNone = true ∧ (∃ n ∈ wNamespaceCommandsAct1.ns 1, n.attached = 3) ∧ wNamespaceCommandsAct1.ns 2 = none ∧ wNamespaceCommandsAct1.galley.wipe = none ∧ wNamespaceCommandsAct1.mgmt.run = none ∧ wNamespaceCommandsAct1.formatFits [1] 4 = true ∧ wNamespaceCommandsAct1.nsOk 1 = true ∧ wNamespaceCommandsAct1.nsOk 2 = false ∧ wNamespaceCommandsAct1.nv.fdp = true ∧ 0 + 32 ≤ 1024 ∧ 0 < wNamespaceCommandsAct1.vpdBytes.length)) ∧
  takes wNamespaceCommandsAct2 ⟨1, 9⟩ ∧
  ((wNamespaceCommandsAct2.nv.fdp = false ∧ wNamespaceCommandsAct2.nsOk 1 = true ∧ (∃ n ∈ wNamespaceCommandsAct2.ns 1, n.attached = 0) ∧ wNamespaceCommandsAct2.galley.wipe = none)) ∧
  takes wNamespaceCommandsAct3 ⟨1, 9⟩ ∧
  ((List.range 256).find? (fun i => (wNamespaceCommandsAct3.ns (i + 1)).isNone) = none ∧ wNamespaceCommandsAct3.galley.wipe = some { adm := none, kind := 2, nsids := [1], rekey := true }) ∧
  takes wNamespaceCommandsAct4 ⟨1, 9⟩ ∧
  (wNamespaceCommandsAct4.galley.creating = [(⟨1, 9⟩, 2)] ∧ wNamespaceCommandsAct4.portBusy = false) ∧
  takes wNamespaceCommandsAct5 ⟨1, 9⟩ ∧
  (wNamespaceCommandsAct5.galley.wipe = some { adm := some ⟨1, 9⟩, kind := 3, nsids := [1], rekey := false, closing := true } ∧ wNamespaceCommandsAct5.portBusy = false) :=
  ⟨takes_of (by decide +kernel), by decide +kernel, takes_of (by decide +kernel), by decide +kernel, takes_of (by decide +kernel), by decide +kernel, takes_of (by decide +kernel), by decide +kernel, takes_of (by decide +kernel), by decide +kernel⟩

def wFirmwareIsDownloadedAndActivated1 : State := with_ [(Reg.SLU_STATUS_CLUSTERS, 7)] (on [1, 6, 7, 8] (hostUp (atTurn 500 (State.reset.onStore fun t => { t with running := some 1 }))))
def wFirmwareIsDownloadedAndActivated2 : State := on [1, 6, 7, 8] (hostUp (atTurn 500 (State.reset.onStore fun t => { t with running := some 1, buffer := some (0, [(4096, [3, 3])]), activation := some { adm := none, slot := 2, old := { len := 0, release := 0, epoch := 0, stateFmt := 0, editionFmts := 0, keyId := 0, sound := true } } })))
def wFirmwareIsDownloadedAndActivated3 : State := with_ [(Reg.SLU_STATUS_CLUSTERS, 7)] (on [1, 6, 7, 8] (hostUp (atTurn 500 (State.reset.onStore fun t => { t with running := some 1, slots := #v[some { len := 4096, release := 5, epoch := 0, stateFmt := 3, editionFmts := 2, keyId := 0, sound := true }, some { len := 4096, release := 6, epoch := 0, stateFmt := 3, editionFmts := 2 ^ State.reset.mgmt.current.format, keyId := 0, sound := true }] }))))
def wFirmwareIsDownloadedAndActivated4 : State := with_ [(Reg.SLU_STATUS_CLUSTERS, 7)] (on [1, 6, 7, 8] (hostUp (atTurn 500 (State.reset.onStore fun t => { t with running := some 1, slots := #v[some { len := 4096, release := 5, epoch := 0, stateFmt := 3, editionFmts := 2, keyId := 0, sound := true }, some { len := 4096, release := 6, epoch := 0, stateFmt := 3, editionFmts := 0, keyId := 0, sound := true }] }))))
def wFirmwareIsDownloadedAndActivated5 : State := with_ [(Reg.SLU_STATUS_CLUSTERS, 7)] (on [1, 6, 7, 8] (hostUp (atTurn 500 (State.reset.onStore fun t => { t with running := some 1, slots := #v[some { len := 4096, release := 5, epoch := 0, stateFmt := 2, editionFmts := 2, keyId := 0, sound := true }, some { len := 4096, release := 6, epoch := 0, stateFmt := 3, editionFmts := 0, keyId := 0, sound := true }] }))))
def wFirmwareIsDownloadedAndActivated6 : State := with_ [(Reg.SLU_STATUS_CLUSTERS, 5)] (on [1, 6, 7, 8] (hostUp (atTurn 500 (State.reset.onStore fun t => { t with running := some 1, activation := some { adm := some ⟨1, 9⟩, slot := 2, moved := 1, old := { len := 0, release := 0, epoch := 0, stateFmt := 0, editionFmts := 0, keyId := 0, sound := true } } }))))
def wFirmwareIsDownloadedAndActivated7 : State := with_ [(Reg.SLU_STATUS_CLUSTERS, 3)] (on [1, 6, 7, 8] (hostUp (atTurn 500 (State.reset.onStore fun t => { t with running := some 1, activation := some { adm := some ⟨1, 9⟩, slot := 2, moved := 2, old := { len := 0, release := 0, epoch := 0, stateFmt := 0, editionFmts := 0, keyId := 0, sound := true } } }))))
def wFirmwareIsDownloadedAndActivated8 : State := with_ [(Reg.SLU_STATUS_CLUSTERS, 3)] (on [1, 6, 7, 8] (hostUp (atTurn 500 (State.reset.onStore fun t => { t with running := some 1, activation := some { adm := some ⟨1, 9⟩, slot := 2, moved := 2, back := true, old := { len := 0, release := 0, epoch := 0, stateFmt := 0, editionFmts := 0, keyId := 0, sound := true } } }))))
def wFirmwareIsDownloadedAndActivated9 : State := with_ [(Reg.SLU_STATUS_CLUSTERS, 6)] (on [1, 6, 7, 8] (hostUp (atTurn 500 (State.reset.onStore fun t => { t with running := some 1, activation := some { adm := some ⟨1, 9⟩, slot := 2, moved := 0, back := true, old := { len := 0, release := 0, epoch := 0, stateFmt := 0, editionFmts := 0, keyId := 0, sound := true } } }))))
def wFirmwareIsDownloadedAndActivated10 : State := inMode .recovery (pathsUp (atTurn 500))
theorem witness_FirmwareIsDownloadedAndActivated :
  takes wFirmwareIsDownloadedAndActivated1 ⟨1, 9⟩ ∧
  (wFirmwareIsDownloadedAndActivated1.streams = false ∧ badChunk 0 1024 = true ∧ badChunk 1024 1023 = false ∧ wFirmwareIsDownloadedAndActivated1.store.buffer = none ∧ wFirmwareIsDownloadedAndActivated1.store.activation = none ∧ wFirmwareIsDownloadedAndActivated1.store.running = some 1 ∧ wFirmwareIsDownloadedAndActivated1.slotValid 2 = false ∧ wFirmwareIsDownloadedAndActivated1.slotValid 1 = true ∧ wFirmwareIsDownloadedAndActivated1.store.running ≠ some 2 ∧ wFirmwareIsDownloadedAndActivated1.buffered.bind imageOf = none) ∧
  ((4096 < 1024 * 4 + (padTo ((1023 + 1) * 4) ([] : Bytes)).length ∧ 1024 * 4 < 4096 + ([3, 3] : Bytes).length)) ∧
  takes wFirmwareIsDownloadedAndActivated2 ⟨2, 9⟩ ∧
  (wFirmwareIsDownloadedAndActivated2.streams = false ∧ badChunk 1024 1023 = false ∧ wFirmwareIsDownloadedAndActivated2.store.buffer = some (0, [(4096, [3, 3])]) ∧ wFirmwareIsDownloadedAndActivated2.store.activation.isSome = true) ∧
  takes wFirmwareIsDownloadedAndActivated3 ⟨1, 9⟩ ∧
  ((wFirmwareIsDownloadedAndActivated3.streams = false ∧ wFirmwareIsDownloadedAndActivated3.store.running ≠ some 2 ∧ wFirmwareIsDownloadedAndActivated3.store.activation = none ∧ wFirmwareIsDownloadedAndActivated3.store.buffer = none ∧ wFirmwareIsDownloadedAndActivated3.poolWhole = true ∧ (∃ m ∈ wFirmwareIsDownloadedAndActivated3.slotImage 2, m.sound = true ∧ (∃ r ∈ wFirmwareIsDownloadedAndActivated3.runningImage, r.stateFmt = m.stateFmt) ∧ m.editionFmts / 2 ^ wFirmwareIsDownloadedAndActivated3.mgmt.current.format % 2 = 1))) ∧
  ((wFirmwareIsDownloadedAndActivated4.poolWhole = true ∧ (∃ m ∈ wFirmwareIsDownloadedAndActivated4.slotImage 2, m.sound = true ∧ (∃ r ∈ wFirmwareIsDownloadedAndActivated4.runningImage, r.stateFmt = m.stateFmt) ∧ m.editionFmts / 2 ^ wFirmwareIsDownloadedAndActivated4.mgmt.current.format % 2 = 0))) ∧
  ((∃ m ∈ wFirmwareIsDownloadedAndActivated5.slotImage 2, m.sound = true ∧ (∃ r ∈ wFirmwareIsDownloadedAndActivated5.runningImage, r.stateFmt ≠ m.stateFmt))) ∧
  takes wFirmwareIsDownloadedAndActivated6 ⟨1, 9⟩ ∧
  ((∃ r ∈ wFirmwareIsDownloadedAndActivated6.store.activation, r.moved = 1 ∧ r.back = false)) ∧
  ((∃ r ∈ wFirmwareIsDownloadedAndActivated7.store.activation, r.moved = 2 ∧ r.back = false)) ∧
  ((∃ r ∈ wFirmwareIsDownloadedAndActivated8.store.activation, r.moved = 2 ∧ r.back = true)) ∧
  takes wFirmwareIsDownloadedAndActivated9 ⟨1, 9⟩ ∧
  ((∃ r ∈ wFirmwareIsDownloadedAndActivated9.store.activation, r.moved = 0 ∧ r.back = true ∧ r.adm = some ⟨1, 9⟩)) ∧
  takes wFirmwareIsDownloadedAndActivated10 ⟨7, 9⟩ ∧
  (wFirmwareIsDownloadedAndActivated10.streams = true ∧ wFirmwareIsDownloadedAndActivated10.store.stream = none ∧ badChunk 0 1023 = false ∧ trailerAt (padTo 4096 [1, 2, 3]) 1 0 = none) :=
  ⟨takes_of (by decide +kernel), by decide +kernel, by simp only [padTo, fill, List.length_append, List.length_replicate, List.length_take, List.length_nil, List.length_cons]; omega, takes_of (by decide +kernel), by decide +kernel, takes_of (by decide +kernel), by decide +kernel, by decide +kernel, by decide +kernel, takes_of (by decide +kernel), by decide +kernel, by decide +kernel, by decide +kernel, takes_of (by decide +kernel), by decide +kernel, takes_of (by decide +kernel), by decide +kernel⟩

def wControllersEnableResetAndShutDown1 : State := with_ [(Reg.HGT_LEVEL_C0_LEVEL, 3), (Reg.HGT_LEVEL_C1_LEVEL, 2), (Reg.HGT_LINK_STATUS_RATE 0, 5), (Reg.HGT_LINK_STATUS_WIDTH 0, 4), (Reg.HGT_LINK_STATUS_RATE 1, 5)] (on [0, 1, 2, 3, 4, 5, 6, 7, 8] ((cmdIn { opcode := 2, cid := 7, nsid := 1 } 2 (hostUp (atTurn 500))).onPower fun p => { p with floorMask := vupd p.floorMask 0 fun x => x.set 2 4 }))
def wControllersEnableResetAndShutDown2 : State := (hostUp (atTurn 500)).onCtl 1 fun x => { x with en := false, rdy := false }
def wControllersEnableResetAndShutDown3 : State := with_ [(Reg.HGT_LINK_STATUS_RATE 1, 5)] (hostUp (atTurn 500 (State.reset.onStore fun t => { t with running := some 1, pointer := some ⟨3, 1, 2⟩, slots := #v[some { len := 4096, release := 5, epoch := 0, stateFmt := 3, editionFmts := 2, keyId := 0, sound := true }, some { len := 4096, release := 6, epoch := 0, stateFmt := 3, editionFmts := 0, keyId := 0, sound := true }] })))
def wControllersEnableResetAndShutDown4 : State := inMode .recovery (hostUp (atTurn 500))
theorem witness_ControllersEnableResetAndShutDown :
  ((wControllersEnableResetAndShutDown1.resettable = true ∧ wControllersEnableResetAndShutDown1.power.mode.carriesData = true ∧ (wControllersEnableResetAndShutDown1.ctl 0).en = true ∧ wControllersEnableResetAndShutDown1.linkUp 0 = true ∧ (∀ p ∈ wControllersEnableResetAndShutDown1.store.pointer, p.next = p.active) ∧ (wControllersEnableResetAndShutDown1.ctl 0).shst = 0 ∧ wControllersEnableResetAndShutDown1.power.mode ≠ .conserve ∧ wControllersEnableResetAndShutDown1.mgmt.shutdown = none ∧ 7 ≠ nssrValue)) ∧
  (wControllersEnableResetAndShutDown2.resettable = true ∧ (wControllersEnableResetAndShutDown2.ctl 1).en = false) ∧
  ((wControllersEnableResetAndShutDown3.resettable = true ∧ wControllersEnableResetAndShutDown3.linkUp 1 = true ∧ wControllersEnableResetAndShutDown3.power.mode.carriesData = true ∧ (∃ p ∈ wControllersEnableResetAndShutDown3.store.pointer, p.next ≠ p.active ∧ wControllersEnableResetAndShutDown3.slotValid p.next = true))) ∧
  (wControllersEnableResetAndShutDown4.resettable = true ∧ wControllersEnableResetAndShutDown4.power.mode.carriesData = false ∧ (wControllersEnableResetAndShutDown4.ctl 0).en = true ∧ (wControllersEnableResetAndShutDown4.ctl 0).shst = 0) :=
  ⟨by decide +kernel, by decide +kernel, by decide +kernel, by decide +kernel⟩

def wLinksTrainNarrowAndFail1 : State := with_ [(Reg.HGT_LINK_STATUS_RATE 0, 5), (Reg.HGT_LINK_STATUS_WIDTH 0, 4), (Reg.HGT_LINK_STATUS_L0P_EN 0, 1)] (domAs 2 (fun d => { d with state := .off }) (on [4, 2, 3] ((hostUp (atTurn 500)).onPins fun p => { p with perst := #v[true, true] })))
def wLinksTrainNarrowAndFail2 : State := (on [2, 3, 4] (cmdIn { opcode := 2, cid := 7 } 2 (hostUp (atTurn 500 (State.reset.onPins fun p => { p with perst := #v[true, true] }))))).onCtl 1 fun x => { x with link := .l11, l0pWidth := some 2 }
def wLinksTrainNarrowAndFail3 : State := with_ [(Reg.HGT_LINK_STATUS_RATE 0, 5), (Reg.HGT_LINK_STATUS_RATE 1, 5)] ((on [2, 3, 4] (cmdIn { opcode := 2, cid := 7 } 2 (hostUp (atTurn 500)))).onCtl 1 fun x => { x with link := .l11 })
def wLinksTrainNarrowAndFail4 : State := with_ [(Reg.HGT_LINK_STATUS_RATE 0, 5), (Reg.HGT_LINK_STATUS_RATE 1, 5)] (((hostUp (atTurn 500)).onCtl 1 fun x => { x with sqs := [{ qid := 1, size := 8, cqid := 1, visible := [(490, 2, false, 0)] }] }).onCtl 0 fun x => { x with cqs := [{ qid := 1, size := 4, held := [{ e := { sqid := 1, cid := 9, sct := 0, sc := 0, dnr := false, dw0 := 0 }, cls := 8 }] }] })
def wLinksTrainNarrowAndFail5 : State := (hostUp (atTurn 9192)).onHost fun h => { h with barReads := [(1, 0x1000, 1000)] }
def wLinksTrainNarrowAndFail6 : State := (hostUp (atTurn 9191)).onHost fun h => { h with barReads := [(1, 0x1000, 1000)] }
theorem witness_LinksTrainNarrowAndFail :
  (wLinksTrainNarrowAndFail1.resettable = true ∧ wLinksTrainNarrowAndFail1.portDown 2 = false ∧ (wLinksTrainNarrowAndFail1.dom 2).state = .off ∧ (wLinksTrainNarrowAndFail1.dom 4).state = .on ∧ wLinksTrainNarrowAndFail1.power.mode ≠ .recovery ∧ wLinksTrainNarrowAndFail1.strapWidth < 17 ∧ wLinksTrainNarrowAndFail1.linkUp 0 = true ∧ wLinksTrainNarrowAndFail1.fld (Reg.HGT_LINK_STATUS_L0P_EN 0) = 1 ∧ wLinksTrainNarrowAndFail1.fld (Reg.HGT_LINK_STATUS_WIDTH 0) = 4 ∧ wLinksTrainNarrowAndFail1.ctrlBusy 0 = false) ∧
  ((wLinksTrainNarrowAndFail2.resettable = true ∧ wLinksTrainNarrowAndFail2.mayTrain 1 6 2 = true ∧ (∃ k ∈ wLinksTrainNarrowAndFail2.host.cmds, k.ref.ctrl = 0) ∧ (wLinksTrainNarrowAndFail2.dom (wLinksTrainNarrowAndFail2.linkDom 1)).state = .on)) ∧
  ((wLinksTrainNarrowAndFail3.linkUp 0 = true ∧ wLinksTrainNarrowAndFail3.linkUp 1 = true ∧ (∃ k ∈ wLinksTrainNarrowAndFail3.host.cmds, k.ref.ctrl = 0) ∧ (wLinksTrainNarrowAndFail3.dom (wLinksTrainNarrowAndFail3.linkDom 1)).state = .on)) ∧
  ((wLinksTrainNarrowAndFail4.linkUp 0 = true ∧ wLinksTrainNarrowAndFail4.linkUp 1 = true ∧ (∃ q ∈ (wLinksTrainNarrowAndFail4.ctl 1).sqs, q.visible ≠ []) ∧ (∃ q ∈ wLinksTrainNarrowAndFail4.allCqs 0, q.held ≠ []))) ∧
  (wLinksTrainNarrowAndFail5.host.barReads = [((1 : Fin 2).val, 0x1000, 1000)] ∧ 1000 + 8192 ≤ wLinksTrainNarrowAndFail5.turn) ∧
  (wLinksTrainNarrowAndFail6.host.barReads = [((1 : Fin 2).val, 0x1000, 1000)] ∧ wLinksTrainNarrowAndFail6.turn < 1000 + 8192) :=
  ⟨by decide +kernel, by decide +kernel, by decide +kernel, by decide +kernel, by decide +kernel, by decide +kernel⟩

def wRestartsAndTapInstructions1 : State := with_ [(Reg.FWS_BANK_STATE 0, 1), (Reg.FWS_BANK_STATE 1, 2), (Reg.FWS_STATUS_SEQ_STATE, 4)] (on [6, 7] (hostUp (atTurn 500 ((State.reset.onStore fun t => { t with banks := #v[{ prog := some ⟨5000, fill 512 9⟩ }, { erase := some 300 }], flags := [300], markers := [5000], buffer := some (0, []) }).onMemory fun m => { m with reserved := [(0, 5), (9, 7), (15, 6)] }))))
def wRestartsAndTapInstructions2 : State := inMode .off (atTurn 500)
def wRestartsAndTapInstructions3 : State := domAs 9 (fun d => { d with state := .fused }) ((hostUp (atTurn 500)).onPins fun p => { p with testen := true })
theorem witness_RestartsAndTapInstructions :
  ((wRestartsAndTapInstructions1.power.mode ≠ .off ∧ (wRestartsAndTapInstructions1.dom 7).state = .on ∧ (wRestartsAndTapInstructions1.dom 8).state ≠ .on ∧ (wRestartsAndTapInstructions1.bank 0).prog = some ⟨5000, fill 512 9⟩ ∧ (∀ d : Fin 2, d ≠ 0 → (wRestartsAndTapInstructions1.bank d).prog = none))) ∧
  wRestartsAndTapInstructions2.power.mode = .off ∧
  (wRestartsAndTapInstructions3.power.mode ≠ .off ∧ wRestartsAndTapInstructions3.pins.testen = true ∧ extestClass .extest = true ∧ extestClass wRestartsAndTapInstructions3.pins.tap = false ∧ wRestartsAndTapInstructions3.isDead 9 = true ∧ extestClass .samplePreload = extestClass wRestartsAndTapInstructions3.pins.tap) :=
  ⟨by decide +kernel, by decide +kernel, by decide +kernel⟩

def wPowerOnResetClearsThePart1 : State := with_ [(Reg.HGT_LEVEL_C0_LEVEL, 3)] (nsUp (atTurn 500))
def wPowerOnResetClearsThePart2 : State := inMode .recovery (with_ [(Reg.HGT_LEVEL_C0_LEVEL, 3)] (atTurn 500))
def wPowerOnResetClearsThePart3 : State := inMode .off (atTurn 500 (State.reset.onPins fun p => { p with porLow := true, railsDown := [2] }))
def wPowerOnResetClearsThePart4 : State := inMode .spill (State.reset.onCistern fun c => { c with ended := true })
theorem witness_PowerOnResetClearsThePart :
  (wPowerOnResetClearsThePart1.power.mode.carriesData = true ∧ wPowerOnResetClearsThePart1.power.mode ≠ .off) ∧
  wPowerOnResetClearsThePart2.power.mode = .recovery ∧
  wPowerOnResetClearsThePart3.power.mode = .off ∧
  (wPowerOnResetClearsThePart4.power.mode = .spill ∧ wPowerOnResetClearsThePart4.cistern.ended = true ∧ wPowerOnResetClearsThePart4.pins.pwrFailLow = false ∧ wPowerOnResetClearsThePart4.pins.vholdLow = false) :=
  ⟨by decide +kernel, by decide +kernel, by decide +kernel, by decide +kernel⟩

def wBootChecksInOrder1 : State := inMode .boot (State.reset.onStore fun t => { t with slots := #v[none, none], ext := #v[false, false] })
def wBootChecksInOrder2 : State := inMode .boot (State.reset.onStore fun t => { t with slots := #v[none, none], ext := #v[false, true] })
def wBootChecksInOrder3 : State := { State.reset with board := { dram := [some {}, none, some {}, some {}, some {}, some {}, some {}, none, some {}, some {}, some {}, some {}] } }
def wBootChecksInOrder4 : State := { State.reset with board := { dramFail := [0, 1, 2, 3, 4] } }
def wBootChecksInOrder5 : State := { State.reset with board := { geom := { bpc := 5 } } }
def wBootChecksInOrder6 : State := { State.reset with board := { diesPerCe := (3, 8) :: List.replicate 63 (8, 8) } }
def wBootChecksInOrder7 : State := { State.reset with board := { dram := List.replicate 12 (some { half := true }), dramFail := [0] } }
def wBootChecksInOrder8 : State := { State.reset with board := { dram := List.replicate 5 (some { half := true }) ++ [none] ++ List.replicate 5 (some { half := true }) ++ [none] } }
def wBootChecksInOrder9 : State := State.reset
def wBootChecksInOrder10 : State := inMode .service
theorem witness_BootChecksInOrder :
  (∀ n, wBootChecksInOrder1.slotValid n = false) ∧
  (wBootChecksInOrder1.power.mode = .boot ∧ wBootChecksInOrder1.pins.testen = false ∧ wBootChecksInOrder1.cistern.waiting = false ∧ wBootChecksInOrder1.store.flags = [] ∧ wBootChecksInOrder1.slotValid 1 = false ∧ wBootChecksInOrder1.slotValid 2 = false ∧ wBootChecksInOrder1.store.ext.any (fun x => x) = false) ∧
  (∀ n, wBootChecksInOrder2.slotValid n = false) ∧
  (wBootChecksInOrder2.power.mode = .boot ∧ wBootChecksInOrder2.store.ext.any (fun x => x) = true) ∧
  ((wBootChecksInOrder3.power.mode = .boot ∧ wBootChecksInOrder3.pins.testen = false ∧ wBootChecksInOrder3.cistern.waiting = false ∧ wBootChecksInOrder3.store.flags = [] ∧ (∃ p ∈ wBootChecksInOrder3.store.pointer, wBootChecksInOrder3.slotValid p.next = true) ∧ wBootChecksInOrder3.board.dramBad.isSome = true)) ∧
  (wBootChecksInOrder4.board.dramBad = none ∧ wBootChecksInOrder4.board.dramUsed.length / 2 < 2) ∧
  (wBootChecksInOrder5.board.dramBad = none ∧ 2 ≤ wBootChecksInOrder5.board.dramUsed.length / 2 ∧ wBootChecksInOrder5.board.geomBad.isSome = true) ∧
  (wBootChecksInOrder6.board.dramBad = none ∧ 2 ≤ wBootChecksInOrder6.board.dramUsed.length / 2 ∧ wBootChecksInOrder6.board.geomBad = none ∧ wBootChecksInOrder6.board.laneBad.isSome = true) ∧
  (wBootChecksInOrder7.board.dramBad = none ∧ 2 ≤ wBootChecksInOrder7.board.dramUsed.length / 2 ∧ wBootChecksInOrder7.board.geomBad = none ∧ wBootChecksInOrder7.board.laneBad = none ∧ (wBootChecksInOrder7.board.dramGib : Rat) < wBootChecksInOrder7.board.dramNeed (wBootChecksInOrder7.board.dramUsed.length / 2) ∧ wBootChecksInOrder7.board.dramUsed.length / 2 < wBootChecksInOrder7.board.pairs) ∧
  (wBootChecksInOrder8.board.dramBad = none ∧ (wBootChecksInOrder8.board.dramGib : Rat) < wBootChecksInOrder8.board.dramNeed (wBootChecksInOrder8.board.dramUsed.length / 2) ∧ ¬(wBootChecksInOrder8.board.dramUsed.length / 2 < wBootChecksInOrder8.board.pairs)) ∧
  ((wBootChecksInOrder9.power.mode = .boot ∧ wBootChecksInOrder9.pins.testen = false ∧ wBootChecksInOrder9.cistern.waiting = false ∧ wBootChecksInOrder9.store.flags = [] ∧ (∃ p ∈ wBootChecksInOrder9.store.pointer, wBootChecksInOrder9.slotValid p.next = true) ∧ wBootChecksInOrder9.board.dramBad = none ∧ 2 ≤ wBootChecksInOrder9.board.dramUsed.length / 2 ∧ wBootChecksInOrder9.board.geomBad = none ∧ wBootChecksInOrder9.board.laneBad = none ∧ wBootChecksInOrder9.board.dramNeed (wBootChecksInOrder9.board.dramUsed.length / 2) ≤ (wBootChecksInOrder9.board.dramGib : Rat))) ∧
  wBootChecksInOrder10.power.mode ≠ .boot :=
  ⟨slotValid_none (by decide +kernel), by decide +kernel, slotValid_none (by decide +kernel), by decide +kernel, by decide +kernel, by decide +kernel, by decide +kernel, by decide +kernel, by decide +kernel, by decide +kernel, by decide +kernel, by decide +kernel⟩

def wTurnEdgesAdvanceTheTurn1 : State := inMode .off (atTurn 500)
def wTurnEdgesAdvanceTheTurn2 : State := with_ [(Reg.TRN_VOTE_MISMATCH, 65534), (Reg.PMC_CIS_DIV_DIV_X256, 0x1300)] (inMode .service (atTurn 500 (((State.reset.onSluice fun x => { x with bookings := [{ res := .soft, start := 490, len := 10, plan := 1 }, { res := .soft, start := 490, len := 11, plan := 1 }, { res := .soft, start := 490, len := 12, plan := 1 }], lookups := [(499 * 16, 5), (500 * 16 + 15, 3)] }).onMgmt fun m => { m with restartUntil := some 501, teleWanted := true }).onCollector fun c => { c with pairRun := [(0x10, 3)], overruns := [(0x05, 0xFFFFFFFF)] })))
def wTurnEdgesAdvanceTheTurn3 : State := inMode .service (atTurn 501 (State.reset.onMgmt fun m => { m with restartUntil := some 501 }))
theorem witness_TurnEdgesAdvanceTheTurn :
  wTurnEdgesAdvanceTheTurn1.power.mode = .off ∧
  ((wTurnEdgesAdvanceTheTurn2.power.mode ≠ .off ∧ wTurnEdgesAdvanceTheTurn2.mgmt.waiting = [] ∧ wTurnEdgesAdvanceTheTurn2.memory.bankStall = [] ∧ (∀ b, (wTurnEdgesAdvanceTheTurn2.bank b).waiting = []) ∧ (∀ n, (wTurnEdgesAdvanceTheTurn2.dom n).stalled = []) ∧ wTurnEdgesAdvanceTheTurn2.mgmt.restartUntil = some 501 ∧ wTurnEdgesAdvanceTheTurn2.turn < 501)) ∧
  (wTurnEdgesAdvanceTheTurn3.power.mode ≠ .off ∧ wTurnEdgesAdvanceTheTurn3.mgmt.restartUntil = some 501 ∧ 501 ≤ wTurnEdgesAdvanceTheTurn3.turn ∧ isPair 0x440 = true) :=
  ⟨by decide +kernel, by decide +kernel, by decide +kernel⟩

def wSpanAndRotationEdgesAct1 : State := with_ [(Reg.SLU_ALLOT_BAL_BALANCE, 0xFFFFFFFE), (Reg.SLU_ALLOT_CREDIT_CREDIT, 5), (Reg.SLU_REFUSE_COUNT 3, 7), (Reg.SLU_CULV_COLLIDE, 7), (Reg.FUR_TIMEOUT_ROT 1023, 2)] (inMode .service (atTurn (2 ^ 20) (((State.reset.onMgmt fun m => { m with log := [⟨1, 2, 0x0101, 1, 0, 5, 7⟩] }).onHost fun h => { h with rtt := #v[(70000, 3), (5, 0)] }).onNv fun n => { n with formatted := true })))
def wSpanAndRotationEdgesAct2 : State := inMode .service (atTurn 17)
theorem witness_SpanAndRotationEdgesAct :
  (wSpanAndRotationEdgesAct1.power.mode ≠ .off ∧ wSpanAndRotationEdgesAct1.turn % 16 = 0 ∧ 0 < wSpanAndRotationEdgesAct1.turn ∧ wSpanAndRotationEdgesAct1.sluice.spanDone ≠ some wSpanAndRotationEdgesAct1.turn ∧ wSpanAndRotationEdgesAct1.turn % 2 ^ 20 = 0 ∧ wSpanAndRotationEdgesAct1.sluice.rotDone ≠ some wSpanAndRotationEdgesAct1.turn ∧ wSpanAndRotationEdgesAct1.nv.formatted = true ∧ wSpanAndRotationEdgesAct1.sluice.reasons.length = 10 ∧ wSpanAndRotationEdgesAct1.mgmt.log.length ≤ 8192) ∧
  (wSpanAndRotationEdgesAct2.turn % 16 ≠ 0 ∧ wSpanAndRotationEdgesAct2.turn % 2 ^ 20 ≠ 0) :=
  ⟨by decide +kernel, by decide +kernel⟩

def wSetupWritesMeetTheirDomain1 : State := domAs 5 (fun d => { d with state := .waking }) (domAs 13 (fun d => { d with state := .retired }) (atTurn 500))
theorem witness_SetupWritesMeetTheirDomain :
  viaBar2 0x20 = true ∧ viaBar2 5 = false ∧ wSetupWritesMeetTheirDomain1.isDead (blockDomain (Reg.FCE_CTRL 3)) = true ∧ (wSetupWritesMeetTheirDomain1.dom (blockDomain Reg.SLU_ALLOT_ADD)).state = .waking ∧ (wSetupWritesMeetTheirDomain1.dom (blockDomain (Reg.FWS_XO 0))).state = .off ∧ wSetupWritesMeetTheirDomain1.power.mode ≠ .recovery ∧ setupOf (.retrainReq 5 3 1) = some (5, Reg.FCE_CTRL 3, 17) ∧ setupOf (.allotAddWrite 0x20 7) = some (0x20, Reg.SLU_ALLOT_ADD, 7) ∧ setupOf (.allotAddWrite 5 7) = some (5, Reg.SLU_ALLOT_ADD, 7) ∧ setupOf (.xoWrite 5 0 7) = some (5, Reg.FWS_XO 0, 7) := by decide +kernel

end Sys2Proof.Tests
end

section
/-! What lists of field writes leave alone, and the bus error of the error collector as one such list. -/

namespace Sys2Proof.Machine

open Sys2Proof.Safety

/-! ### Lists of field writes: what they leave alone -/

theorem wordAfter_of_addr_ne {a : Nat} {l : List (Fld × Nat)} (h : ∀ p ∈ l, p.1.addr ≠ a) (w : Word) : wordAfter a l w = w := by
  induction l generalizing w with
  | nil => rfl
  | cons p l ih =>
    obtain ⟨f, v⟩ := p
    obtain ⟨hf, hl⟩ := List.forall_mem_cons.1 h
    rw [wordAfter, if_neg hf, ih hl]

theorem State.setFlds_cons (s : State) (p : Fld × Nat) (l : List (Fld × Nat)) : s.setFlds (p :: l) = (s.setFld p.1 p.2).setFlds l := rfl

theorem State.word_setFlds_of_addr_ne (s : State) {a : Nat} {l : List (Fld × Nat)} (h : ∀ p ∈ l, p.1.addr ≠ a) :
    (s.setFlds l).word a = s.word a := by
  rw [State.word_setFlds, wordAfter_of_addr_ne h]

theorem State.fld_setFlds_apart (s : State) {g : Fld} {l : List (Fld × Nat)} (h : ∀ p ∈ l, p.1.apart g = true) :
    (s.setFlds l).fld g = s.fld g := by
  induction l generalizing s with
  | nil => rfl
  | cons p l ih =>
    obtain ⟨hp, hl⟩ := List.forall_mem_cons.1 h
    exact (ih (s.setFld p.1 p.2) hl).trans (State.fld_setFld_apart s _ _ _ hp)

/-! ### The error collector -/

theorem State.ercLast_eq_setFlds (s : State) (client kind : Nat) (write : Bool) (mem addr : Nat) :
    s.ercLast client kind write mem addr = s.setFlds (lastWrites s client kind write mem addr) := by
  by_cases h : s.fld Reg.ERC_LAST_VALID = 1
  · simp [State.ercLast, lastWrites, State.flag, h, State.setFlds]
  · cases write <;> simp [State.ercLast, lastWrites, State.flag, h]

theorem lastWrites_congr {s t : State} (h : t.fld Reg.ERC_LAST_VALID = s.fld Reg.ERC_LAST_VALID) (client kind : Nat) (write : Bool)
    (mem addr : Nat) : lastWrites t client kind write mem addr = lastWrites s client kind write mem addr := by
  simp only [lastWrites, h]

/-- A bus error writes its count, its event bit and ERC.LAST (R307, R497). -/
theorem State.busError_eq_setFlds (s : State) (client addr : Nat) (write : Bool) :
    s.busError client addr write =
      s.setFlds (plus s Reg.ERC_BUSERR_COUNT 1 :: (Reg.ERC_EVENT_BUS_ERR, 1) :: lastWrites s client 4 write 0 addr) := by
  have h : ((s.addFld Reg.ERC_BUSERR_COUNT 1).setFld Reg.ERC_EVENT_BUS_ERR 1).fld Reg.ERC_LAST_VALID = s.fld Reg.ERC_LAST_VALID := by
    rw [State.fld_setFld_apart _ _ _ _ (by decide), State.addFld, State.fld_setFld_apart _ _ _ _ (by decide)]
  rw [State.busError, State.ercLast_eq_setFlds, lastWrites_congr h, State.setFlds_cons, State.setFlds_cons, State.addFld, plus]

theorem lastWrites_addr_subset (s : State) (client kind : Nat) (write : Bool) (mem addr : Nat) :
    (lastWrites s client kind write mem addr).map (·.1.addr) ⊆ [Reg.ERC_LAST, Reg.ERC_LAST_ADDR_LO, Reg.ERC_LAST_ADDR_HI] := by
  unfold lastWrites
  split <;> (simp only [List.map]; decide)

/-- A bus error changes no register but its count, its event and ERC.LAST. -/
theorem State.word_busError (s : State) (client addr : Nat) (write : Bool) {a : Nat}
    (h : a ∉ [Reg.ERC_BUSERR, Reg.ERC_EVENT, Reg.ERC_LAST, Reg.ERC_LAST_ADDR_LO, Reg.ERC_LAST_ADDR_HI]) :
    (s.busError client addr write).word a = s.word a := by
  rw [State.busError_eq_setFlds]
  refine State.word_setFlds_of_addr_ne s fun p hp e => h (e ▸ ?_)
  rcases List.mem_cons.1 hp with rfl | hp
  · simp [plus, Reg.ERC_BUSERR_COUNT]
  rcases List.mem_cons.1 hp with rfl | hp
  · simp [Reg.ERC_EVENT_BUS_ERR]
  · exact List.mem_cons_of_mem _ (List.mem_cons_of_mem _ (lastWrites_addr_subset _ _ _ _ _ _ (List.mem_map_of_mem hp)))

/-- A bus error raises its event. -/
theorem State.busError_event (s : State) (client addr : Nat) (write : Bool) :
    (s.busError client addr write).fld Reg.ERC_EVENT_BUS_ERR = 1 := by
  have apart : ∀ p ∈ lastWrites ((s.addFld Reg.ERC_BUSERR_COUNT 1).setFld Reg.ERC_EVENT_BUS_ERR 1) client 4 write 0 addr,
      p.1.apart Reg.ERC_EVENT_BUS_ERR = true := fun p hp => by
    have h := lastWrites_addr_subset _ _ _ _ _ _ (List.mem_map_of_mem hp)
    have : p.1.addr ≠ Reg.ERC_EVENT := fun e => absurd (e ▸ h) (by decide)
    simp [Fld.apart, Reg.ERC_EVENT_BUS_ERR, this]
  rw [State.busError, State.ercLast_eq_setFlds, State.fld_setFlds_apart _ apart, State.fld_setFld_same _ _ _ (by decide)]
  rfl

theorem frame_busError (s : State) (client addr : Nat) (write : Bool) :
    Frame [] (plus s Reg.ERC_BUSERR_COUNT 1 :: (Reg.ERC_EVENT_BUS_ERR, 1) :: lastWrites s client 4 write 0 addr) s
      (s.busError client addr write) := by
  rw [State.busError_eq_setFlds]
  exact frame_setFlds s _

end Sys2Proof.Machine
end

section
/-! What the reset of one controller keeps: the other controller and its link, the power mode, memory, and what the part keeps without
power. -/

namespace Sys2Proof.Machine

open Sys2Proof.Safety

/-! ### What a frame says of one field -/

section
variable {s t : State} {P : List Part} {W : List (Fld × Nat)}

theorem Frame.mode_eq (h : Frame P W s t) (hP : Part.power ∉ P) : t.power.mode = s.power.mode := by
  have : { t.power with doms := s.power.doms } = s.power := h.1 .power hP
  rw [← this]

theorem Frame.ctl_eq (h : Frame P W s t) (hP : Part.host ∉ P) (c : Fin 2) : t.ctl c = s.ctl c := by
  have : t.host = s.host := h.1 .host hP
  rw [State.ctl, this, State.ctl]

/-- A change of the power controller that leaves the idle timers alone. -/
theorem frame_onPower_doms (s : State) (f : Power → Power) (h : ∀ n, ((s.onPower f).dom n).idleFrom = (s.dom n).idleFrom) :
    Frame [.power, .doms] [] s (s.onPower f) :=
  ⟨fun p hp => by cases p <;> simp_all [Part.same], fun _ => rfl⟩

end

/-! ### The reset of one controller (R52, R53) -/

/-- The parts that the reset of a controller can change. -/
def resetParts : List Part := [.power, .doms, .log, .mgmt, .host, .store, .galley, .sluice]

/-- From `s` to `t` the reset of controller `c` has changed parts of `resetParts` only, and of these neither the power mode nor the
other controller; nor has it changed what HGT.LINK_STATUS reports of the other controller's link. -/
structure ResetKeeps (c : Fin 2) (s t : State) : Prop where
  parts : ∀ p, p ∉ resetParts → p.same s t
  mode : t.power.mode = s.power.mode
  ctl : ∀ d, d ≠ c → t.ctl d = s.ctl d
  link : ∀ d : Fin 2, d ≠ c → t.word (Reg.HGT_LINK_STATUS d) = s.word (Reg.HGT_LINK_STATUS d)

section
variable {c : Fin 2} {s t u : State}

theorem ResetKeeps.refl (c : Fin 2) (s : State) : ResetKeeps c s s := ⟨fun p _ => p.same_refl s, rfl, fun _ _ => rfl, fun _ _ => rfl⟩

theorem ResetKeeps.trans (h : ResetKeeps c s t) (k : ResetKeeps c t u) : ResetKeeps c s u :=
  ⟨fun p hp => Part.same_trans (h.parts p hp) (k.parts p hp), k.mode.trans h.mode, fun d hd => (k.ctl d hd).trans (h.ctl d hd),
    fun d hd => (k.link d hd).trans (h.link d hd)⟩

theorem ResetKeeps.foldl {α : Type} {f : State → α → State} (h : ∀ s x, ResetKeeps c s (f s x)) (l : List α) (s : State) :
    ResetKeeps c s (l.foldl f s) := by
  induction l generalizing s with
  | nil => exact .refl c s
  | cons x l ih => exact (h s x).trans (ih (f s x))

theorem ResetKeeps.ite (h : ResetKeeps c s t) (b : Bool) : ResetKeeps c s (if b then t else s) := by
  split_ifs
  · exact h
  · exact .refl c s

/-- What is left to show of a frame inside `resetParts`. -/
theorem ResetKeeps.of_frame {P : List Part} {W : List (Fld × Nat)} (h : Frame P W s t) (hP : P ⊆ resetParts)
    (mode : t.power.mode = s.power.mode) (ctl : ∀ d, d ≠ c → t.ctl d = s.ctl d)
    (hW : ∀ d : Fin 2, d ≠ c → ∀ p ∈ W, p.1.addr ≠ Reg.HGT_LINK_STATUS d) : ResetKeeps c s t :=
  ⟨(h.mono hP).1, mode, ctl, fun d hd => by rw [h.2, wordAfter_of_addr_ne (hW d hd)]⟩

theorem ResetKeeps.memory (h : ResetKeeps c s t) : t.memory = s.memory := by
  have hb : t.memory.bytes = s.memory.bytes := h.parts .bytes (by decide)
  have hm : { t.memory with bytes := [] } = { s.memory with bytes := [] } := h.parts .memory (by decide)
  calc t.memory = { { t.memory with bytes := [] } with bytes := t.memory.bytes } := rfl
    _ = s.memory := by rw [hm, hb]

theorem ResetKeeps.nv (h : ResetKeeps c s t) : t.nv = s.nv := h.parts .nv (by decide)

theorem ResetKeeps.pins (h : ResetKeeps c s t) : t.pins = s.pins := h.parts .pins (by decide)

theorem ResetKeeps.resettable (h : ResetKeeps c s t) : t.resettable = s.resettable := by rw [State.resettable, h.mode, State.resettable]

theorem ResetKeeps.linkPort (h : ResetKeeps c s t) (d : Fin 2) : t.linkPort d = s.linkPort d := by
  unfold State.linkPort State.linkDom
  rw [h.pins]

end

theorem link_status_ne {c d : Fin 2} (h : d ≠ c) : Reg.HGT_LINK_STATUS c ≠ Reg.HGT_LINK_STATUS d := by
  have : d.val ≠ c.val := Fin.val_ne_of_ne h
  simp only [Reg.HGT_LINK_STATUS]; omega

/-- The self-test's registers and those of the link status lie apart. -/
theorem link_status_lt_bst (d : Fin 2) : Reg.HGT_LINK_STATUS d < Reg.BST_CTRL := by
  have := d.isLt
  simp only [Reg.HGT_LINK_STATUS, Reg.BST_CTRL]; omega

section
variable (s : State) (c : Fin 2)

theorem resetKeeps_onCmd (r : CmdRef) (f : Cmd → Cmd) : ResetKeeps c s (s.onCmd r f) :=
  .of_frame (frame_onHost _ _) (by decide) rfl (fun _ _ => rfl) (by simp)

theorem resetKeeps_dropCmd (r : CmdRef) : ResetKeeps c s (s.dropCmd r) :=
  .of_frame (frame_onHost _ _) (by decide) rfl (fun _ _ => rfl) (by simp)

theorem resetKeeps_cancelWrites (id : Nat) : ResetKeeps c s (s.cancelWrites id) :=
  .of_frame (((frame_onSluice _ _).trans (frame_onGalley _ _)).trans (frame_onGalley _ _)) (by decide) rfl (fun _ _ => rfl) (by simp)

theorem resetKeeps_abandon (p : Cmd → Bool) : ResetKeeps c s (s.abandon p) := by
  refine .foldl (fun s k => ?_) _ s
  split_ifs
  · exact (resetKeeps_cancelWrites s c k.plan).trans (resetKeeps_onCmd _ c k.ref _)
  · exact resetKeeps_onCmd s c k.ref _
  · exact resetKeeps_dropCmd s c k.ref

theorem resetKeeps_forgetAdmin : ResetKeeps c s (s.forgetAdmin c) :=
  .of_frame ((((frame_onPower_doms s _ fun n => by simp [State.dom]).trans (frame_onMgmt _ _ ⟨rfl, rfl⟩)).trans (frame_onStore _ _)).trans
    (frame_onGalley _ _)) (by decide) rfl (fun _ _ => rfl) (by simp)

/-- The status of a self-test is registers of the self-test alone. -/
theorem frame_runStatus : ∃ W, Frame [] W s s.runStatus ∧ ∀ p ∈ W, Reg.BST_CTRL ≤ p.1.addr := by
  unfold State.runStatus
  split
  · refine ⟨_, frame_setFlds s _, ?_⟩
    simp [Reg.BST_CTRL, Reg.BST_STATUS, Reg.BST_STATUS_BUSY, Reg.BST_STATUS_KIND, Reg.BST_STATUS_PCT, Reg.BST_STATUS_SOURCE]
  · refine ⟨_, frame_setFld s _ _, ?_⟩
    simp [Reg.BST_CTRL, Reg.BST_STATUS, Reg.BST_STATUS_BUSY]

theorem frame_endRun (code : Nat) : ∃ W, Frame [.mgmt, .log] W s (s.endRun code) ∧ ∀ p ∈ W, Reg.BST_CTRL ≤ p.1.addr := by
  unfold State.endRun
  split
  · exact ⟨[], (Frame.refl s).mono (by simp), by simp⟩
  · next r hr =>
    obtain ⟨W, hf, hW⟩ := frame_runStatus _
    refine ⟨_, (((frame_onMgmt s _ ⟨rfl, rfl⟩).trans (frame_setFlds _ _)).trans (frame_log _ _ _ _ _)).trans hf, ?_⟩
    simp only [List.nil_append, List.append_nil, List.forall_mem_append, List.forall_mem_cons]
    refine ⟨⟨by decide, by decide, by decide, ?_, by simp⟩, hW⟩
    split_ifs <;> decide

theorem resetKeeps_endRunOf (path : Nat) : ResetKeeps c s (s.endRunOf path) := by
  unfold State.endRunOf
  split
  · split_ifs
    · obtain ⟨W, hf, hW⟩ := frame_endRun s 2
      exact .of_frame hf (by decide) (Frame.mode_eq hf (by decide)) (fun d _ => Frame.ctl_eq hf (by decide) d)
        fun d _ p hp => (link_status_lt_bst d |>.trans_le (hW p hp)).ne'
    · exact .refl c s
  · exact .refl c s

theorem resetKeeps_onCtl (f : Controller → Controller) : ResetKeeps c s (s.onCtl c f) :=
  .of_frame (frame_onCtl s c f) (by decide) rfl (fun _ hd => State.onCtl_ctl_ne _ _ hd) (by simp)

theorem resetKeeps_setWord {a : Nat} (w : Word) (h : ∀ d : Fin 2, d ≠ c → a ≠ Reg.HGT_LINK_STATUS d) : ResetKeeps c s (s.setWord a w) where
  parts p _ := by cases p <;> simp [Part.same]
  mode := rfl
  ctl _ _ := rfl
  link d hd := by rw [State.word_setWord, if_neg (h d hd)]

theorem resetKeeps_onPower (f : Power → Power) (hd : (f s.power).doms = s.power.doms) (hm : (f s.power).mode = s.power.mode) :
    ResetKeeps c s (s.onPower f) :=
  .of_frame (frame_onPower s f hd) (by decide) hm (fun _ _ => rfl) (by simp)

theorem resetKeeps_linkDown : ResetKeeps c s (s.linkDown c) :=
  .of_frame ((frame_setFlds s _).trans (frame_onCtl _ c _)) (by decide) (by simp [State.linkDown])
    (fun d hd => by simp [State.linkDown, State.onCtl_ctl_ne _ _ hd])
    fun d hd => by simpa [Reg.HGT_LINK_STATUS_RATE, Reg.HGT_LINK_STATUS_WIDTH, Reg.HGT_LINK_STATUS_FLIT, Reg.HGT_LINK_STATUS_L0P_EN]
      using link_status_ne hd

theorem resetKeeps_loadSaved : ResetKeeps c s (s.loadSaved c) := by
  unfold State.loadSaved
  dsimp only
  split
  · exact (resetKeeps_onCtl s c _).trans (resetKeeps_onPower _ c _ rfl rfl)
  · exact resetKeeps_onCtl s c _

theorem resetKeeps_refreshApst : ResetKeeps c s s.refreshApst := resetKeeps_onPower s c _ rfl rfl

/-- HGT.LEVEL and HGT.FETCH_LAT are not the link status. -/
theorem level_ne_link_status (d : Fin 2) :
    (if c = 0 then Reg.HGT_LEVEL_C0_LEVEL else Reg.HGT_LEVEL_C1_LEVEL).addr ≠ Reg.HGT_LINK_STATUS d := by
  revert c d; decide

theorem fetch_lat_ne_link_status (d : Fin 2) : Reg.HGT_FETCH_LAT c ≠ Reg.HGT_LINK_STATUS d := by
  revert c d; decide

/-- The reset of a controller keeps the other one and its link, the power mode, memory and what the part keeps without power. -/
theorem resetKeeps_resetCtrl (cfg : PciConfig → PciConfig) (down : Bool) : ResetKeeps c s (s.resetCtrl c cfg down) := by
  unfold State.resetCtrl
  dsimp only
  refine .trans ?_ (resetKeeps_refreshApst _ c)
  refine .trans ?_ (resetKeeps_loadSaved _ c)
  refine .trans ?_ (resetKeeps_onPower _ c _ rfl rfl)
  refine .trans ?_ ((resetKeeps_linkDown _ c).ite down)
  refine .trans ?_ (resetKeeps_setWord _ c _ fun d _ => fetch_lat_ne_link_status c d)
  refine .trans ?_ (resetKeeps_setWord _ c _ fun d _ => level_ne_link_status c d)
  refine .trans ?_ (resetKeeps_onCtl _ c _)
  refine .trans ?_ (resetKeeps_endRunOf _ c _)
  exact (resetKeeps_abandon s c _).trans (resetKeeps_forgetAdmin _ c)

theorem State.linkDown_rate : (s.linkDown c).fld (Reg.HGT_LINK_STATUS_RATE c) = 0 := by
  have apart : ∀ p ∈ [(Reg.HGT_LINK_STATUS_WIDTH c, 0), (Reg.HGT_LINK_STATUS_FLIT c, 0), (Reg.HGT_LINK_STATUS_L0P_EN c, 0)],
      p.1.apart (Reg.HGT_LINK_STATUS_RATE c) = true := by
    revert c; decide
  rw [State.linkDown, State.onCtl_fld, State.setFlds_cons, State.fld_setFlds_apart _ apart, State.fld_setFld_same _ _ _ (by decide : 0 + 3 ≤ 32), Nat.zero_mod]

theorem State.loadSaved_fld (f : Fld) : (s.loadSaved c).fld f = s.fld f := by
  unfold State.loadSaved
  dsimp only
  split <;> rfl

theorem State.loadSaved_en (d : Fin 2) : ((s.loadSaved c).ctl d).en = (s.ctl d).en := by
  have h (f : List (Nat × Nat)) : ((s.onCtl c fun x => { x with features := f }).ctl d).en = (s.ctl d).en := by
    by_cases hd : d = c
    · subst hd; simp
    · rw [State.onCtl_ctl_ne _ _ hd]
  unfold State.loadSaved
  dsimp only
  split
  · exact h _
  · exact h _

/-- A reset that takes the link down reports it so. -/
theorem State.resetCtrl_rate (cfg : PciConfig → PciConfig) : (s.resetCtrl c cfg true).fld (Reg.HGT_LINK_STATUS_RATE c) = 0 := by
  unfold State.resetCtrl State.refreshApst
  simp only [State.onPower_fld, State.loadSaved_fld, if_true, State.linkDown_rate]

/-- A reset clears CC.EN. -/
theorem State.resetCtrl_en (cfg : PciConfig → PciConfig) (down : Bool) : ((s.resetCtrl c cfg down).ctl c).en = false := by
  unfold State.resetCtrl State.refreshApst
  simp only [State.onPower_ctl, State.loadSaved_en]
  split_ifs <;> simp [State.linkDown]

end

end Sys2Proof.Machine
end

section
/-! The commands of the host links and of BAR2 (chapter 2, R489, R498, R519), one lemma for each effect, and O53. -/

namespace Sys2Proof.Machine

open Sys2Proof.Safety

/-! ### PERST_n, training and the power states of a link (R47–R50, R86, R519) -/

section
variable (s : State) (c : Fin 2)

/-- An access to an OFF domain starts its wake, but in Recovery (R433, R436). -/
theorem State.touch_off (n : Fin 24) (client : Nat) (h : (s.dom n).state = .off) (hm : s.power.mode ≠ .recovery) :
    s.touch n client = (s.startWake n).restartIdle n := by
  simp [State.touch, h, hm]

theorem frame_startWake (n : Fin 24) : Frame [.doms] [] s (s.startWake n) := frame_onDom_keep s n _ fun _ => rfl

theorem State.startWake_dom_ne {n m : Fin 24} (h : m ≠ n) : (s.startWake n).dom m = s.dom m := State.onDom_dom_ne s _ h

theorem State.startWake_state (n : Fin 24) : ((s.startWake n).dom n).state = .waking := by
  rw [State.startWake, State.onDom_dom_same]

theorem State.restartIdle_state (n m : Fin 24) : ((s.restartIdle n).dom m).state = (s.dom m).state :=
  (congrArg Domain.state (State.restartIdle_dom_state s n m) :)

/-- The PHY domain of a port is not HCORE's. -/
theorem hcore_ne_phy (port : Fin 2) : (4 : Fin 24) ≠ if port = 0 then 2 else 3 := by
  revert port; decide

theorem perstDeassert_wakes (hr : s.resettable = true) (port : Fin 2) (hp : s.portDown (2 + port.val) = false)
    (hoff : (s.dom (if port = 0 then 2 else 3)).state = .off) (hon : (s.dom 4).state = .on) (hm : s.power.mode ≠ .recovery) :
    Does (.perstDeassert port) s [.pins, .doms, .idle] [] fun t => t.pins = { s.pins with perst := s.pins.perst.set port true } ∧
      (t.dom (if port = 0 then 2 else 3)).state = .waking ∧ othersSame (if port = 0 then 2 else 3) s t := by
  set p := s.onPins fun p => { p with perst := p.perst.set port true } with hpins
  have run : exec (.perstDeassert port) s = .next ((p.touch (if port = 0 then 2 else 3) 0x3FF).touch 4 0x3FF) := by
    have hr' : p.resettable = true := hr
    have hp' : p.portDown (2 + port.val) = false := hp
    show execPerstDeassert port s = _
    simp only [execPerstDeassert, ← hpins, hr', hp', Bool.not_true, Bool.false_eq_true, if_false]
  have h4 := hcore_ne_phy port
  generalize (if port = 0 then 2 else 3 : Fin 24) = n at *
  have h4on : (((p.startWake n).restartIdle n).dom 4).state = .on := by
    rw [State.restartIdle_state, State.startWake_dom_ne _ h4]; exact hon
  rw [State.touch_off p n _ hoff hm, State.touch_on _ 4 _ h4on] at run
  refine does_of run ((((frame_onPins s _).trans (frame_startWake p n)).trans (frame_restartIdle _ n)).trans (frame_restartIdle _ 4) |>.mono
    (by decide)) ⟨by simp [p], ?_, fun m hmn => ?_⟩
  · rw [State.restartIdle_state, State.restartIdle_state, State.startWake_state]
  · rw [State.restartIdle_dom_state, State.restartIdle_dom_state, State.startWake_dom_ne _ hmn]; rfl

theorem linkTrained_reports {rate width : Nat} (flit : Bool) (h : s.mayTrain c rate width = true) :
    Does (.linkTrained c rate width flit) s [.host]
      [(Reg.HGT_LINK_STATUS_RATE c, rate), (Reg.HGT_LINK_STATUS_WIDTH c, width), (Reg.HGT_LINK_STATUS_FLIT c, if flit || rate = 6 then 1 else 0)]
      fun t => t.ctl c = { s.ctl c with link := .l0, l0pWidth := none } := by
  have run : exec (.linkTrained c rate width flit) s = .next ((s.setFlds [(Reg.HGT_LINK_STATUS_RATE c, rate),
      (Reg.HGT_LINK_STATUS_WIDTH c, width), (Reg.HGT_LINK_STATUS_FLIT c, if flit || rate = 6 then 1 else 0)]).onCtl c
        fun x => { x with link := .l0, l0pWidth := none }) :=
    congrArg Host.Outcome.next (if_pos h)
  exact does_of run ((frame_setFlds s _).trans (frame_onCtl _ c _)) (by simp)

theorem mayTrain_eq_false {rate width : Nat} (h : (s.ctl c).phyFailed = true ∨ s.pins.perst[s.linkPort c] = false ∨ s.strapWidth < width) :
    s.mayTrain c rate width = false := by
  unfold State.mayTrain
  rcases h with h | h | h
  · simp [h]
  · simp [h]
  · simp [Nat.not_le.2 h]

theorem linkTrained_ignored {rate width : Nat} (flit : Bool)
    (h : (s.ctl c).phyFailed = true ∨ s.pins.perst[s.linkPort c] = false ∨ s.strapWidth < width) :
    exec (.linkTrained c rate width flit) s = .next s := by
  show execLinkTrained c rate width flit s = _
  rw [execLinkTrained, if_neg (by simp [mayTrain_eq_false s c h])]

end

section
variable {s : State} {c : Fin 2} (hr : s.resettable = true) (hu : s.linkUp c = true)
include hr hu

theorem l0pEnable_sets (on : Bool) : Does (.l0pEnable c on) s [.host] [(Reg.HGT_LINK_STATUS_L0P_EN c, on.toNat)] fun t =>
    t.ctl c = { s.ctl c with l0pWidth := if on then (s.ctl c).l0pWidth else none } := by
  have run : exec (.l0pEnable c on) s = .next ((s.setFld (Reg.HGT_LINK_STATUS_L0P_EN c) on.toNat).onCtl c
      fun x => { x with l0pWidth := if on then x.l0pWidth else none }) :=
    congrArg Host.Outcome.next (if_pos (by simp [hr, hu]))
  exact does_of run ((frame_setFld s _ _).trans (frame_onCtl _ c _)) (by simp)

theorem l0pWidthRequest_narrows {width : Nat} (hen : s.fld (Reg.HGT_LINK_STATUS_L0P_EN c) = 1)
    (hlo : s.fld (Reg.HGT_LINK_STATUS_WIDTH c) ≤ 2 * width) (hhi : width ≤ s.fld (Reg.HGT_LINK_STATUS_WIDTH c)) :
    Does (.l0pWidthRequest c width) s [.host] [] fun t => t.ctl c =
      { s.ctl c with l0pWidth := if width = s.fld (Reg.HGT_LINK_STATUS_WIDTH c) then none else some width } := by
  have run : exec (.l0pWidthRequest c width) s = .next (s.onCtl c
      fun x => { x with l0pWidth := if width = s.fld (Reg.HGT_LINK_STATUS_WIDTH c) then none else some width }) :=
    congrArg Host.Outcome.next (if_pos (by simp [State.flag, hr, hu, hen, hlo, hhi]))
  exact does_of run (frame_onCtl s c _) (by simp)

omit hr hu in
theorem l0pWidthRequest_below_half {width : Nat} (h : 2 * width < s.fld (Reg.HGT_LINK_STATUS_WIDTH c)) :
    exec (.l0pWidthRequest c width) s = .next s := by
  refine congrArg Host.Outcome.next (if_neg ?_)
  simp [Nat.not_le.2 h]

theorem l1Entry_idle (hb : s.ctrlBusy c = false) (l12 : Bool) : Does (.l1Entry c l12) s [.host] [] fun t =>
    t.ctl c = { s.ctl c with link := if l12 then .l12 else .l11 } ∧ t.host.cmds = s.host.cmds := by
  have run : exec (.l1Entry c l12) s = .next (s.onCtl c fun x => { x with link := if l12 then .l12 else .l11 }) :=
    congrArg Host.Outcome.next (if_neg (by simp [hr, hu, hb]))
  exact does_of run (frame_onCtl s c _) ⟨by simp, rfl⟩

omit hr hu in
theorem ctrlBusy_of_outstanding
    (h : (∃ k ∈ s.host.cmds, k.ref.ctrl = c) ∨ (∃ q ∈ (s.ctl c).sqs, q.visible ≠ []) ∨ (∃ q ∈ s.allCqs c, q.held ≠ [])) :
    s.ctrlBusy c = true := by
  simp only [State.ctrlBusy, Bool.or_eq_true, List.any_eq_true, beq_iff_eq, Bool.not_eq_true', List.isEmpty_eq_false_iff]
  exact h.elim (fun k => .inl (.inl (.inr k))) fun h => h.elim (fun q => .inl (.inr q)) .inr

omit hr hu in
theorem l1Entry_busy (h : s.ctrlBusy c = true) (l12 : Bool) : exec (.l1Entry c l12) s = .next s :=
  congrArg Host.Outcome.next (if_pos (by simp [h]))

theorem l1Exit_on (hd : (s.dom (s.linkDom c)).state = .on) :
    Does (.l1Exit c) s [.host, .idle] [] fun t => t.ctl c = { s.ctl c with link := .l0 } := by
  have run : exec (.l1Exit c) s = .next ((s.onCtl c fun x => { x with link := .l0 }).restartIdle (s.linkDom c)) :=
    congrArg Host.Outcome.next ((if_neg (by simp [hr, hu])).trans (State.touch_on _ _ (0x20 + c.val) hd))
  exact does_of run ((frame_onCtl s c _).trans (frame_restartIdle _ (s.linkDom c))) (by simp)

theorem ecrcFailure_reports : Does (.ecrcFailure c) s [.host] [(Reg.HGT_EVENT_ECRC_ERR, 1)] fun t =>
    t.ctl c = { s.ctl c with pci := { (s.ctl c).pci with aerUnc := setBitNat (s.ctl c).pci.aerUnc 19 } } := by
  have run : exec (.ecrcFailure c) s = .next ((s.setFld Reg.HGT_EVENT_ECRC_ERR 1).onCtl c
      fun x => { x with pci := { x.pci with aerUnc := setBitNat x.pci.aerUnc 19 } }) :=
    congrArg Host.Outcome.next (if_neg (by simp [hr, hu]))
  exact does_of run ((frame_setFld s _ _).trans (frame_onCtl _ c _)) (by simp)

theorem bar2Write_logged {addr : Nat} (v : Word) (ha : addr < 2 ^ 26) : Does (.bar2Write c addr v) s [.log] [] fun t =>
    logged s t 0x0901 0 (0x20 + c.val) (addr + v.toNat * 2 ^ 32) := by
  have run : exec (.bar2Write c addr v) s = .next (s.logWrite (0x20 + c.val) addr v) := by
    conv_rhs => rw [← Nat.mod_eq_of_lt ha]
    exact congrArg Host.Outcome.next (if_pos (by simp [hr, hu]))
  exact does_of run (frame_logWrite s (0x20 + c.val) addr v) (logged_log _ _ _ _ _)

end

/-! ### Port failure (R42, R46) -/

/-- A port's failure at one controller: the link of a controller on the port goes down with its reset, and does not train again. -/
def State.failLink (s : State) (port c : Fin 2) : State :=
  if s.linkPort c = port then
    (if s.resettable then s.resetCtrl c PciConfig.hot true else s).onCtl c fun x => { x with phyFailed := true }
  else s

section
variable (s : State) (port c : Fin 2)

theorem exec_hostPortFailure (hm : s.power.mode ≠ .off) :
    exec (.hostPortFailure port) s = .next ((s.failLink port 0).failLink port 1) := by
  show execHostPortFailure port s = _
  rw [execHostPortFailure, if_neg (by simpa using hm)]
  rfl

theorem resetKeeps_failLink : ResetKeeps c s (s.failLink port c) := by
  unfold State.failLink
  split_ifs
  · exact (resetKeeps_resetCtrl s c _ true).trans (resetKeeps_onCtl _ c _)
  · exact resetKeeps_onCtl s c _
  · exact .refl c s

theorem State.failLink_other (h : s.linkPort c ≠ port) : s.failLink port c = s := if_neg h

/-- What a failed port's controller shows: its PHY has failed, it is not enabled, and its link is down. -/
def State.portFailed (s : State) (c : Fin 2) : Prop :=
  (s.ctl c).phyFailed = true ∧ (s.ctl c).en = false ∧ s.fld (Reg.HGT_LINK_STATUS_RATE c) = 0

theorem State.portFailed_failLink (hr : s.resettable = true) (h : s.linkPort c = port) : (s.failLink port c).portFailed c := by
  rw [State.failLink, if_pos h, if_pos hr]
  exact ⟨by simp, by simp [State.resetCtrl_en], by simp [State.resetCtrl_rate]⟩

/-- The reset of the other controller leaves a failed one as it is. -/
theorem ResetKeeps.portFailed {s t : State} {c d : Fin 2} (h : ResetKeeps c s t) (hd : d ≠ c) (hf : s.portFailed d) : t.portFailed d := by
  have hl : t.fld (Reg.HGT_LINK_STATUS_RATE d) = s.fld (Reg.HGT_LINK_STATUS_RATE d) := by
    unfold State.fld
    rw [show (Reg.HGT_LINK_STATUS_RATE d).addr = Reg.HGT_LINK_STATUS d from rfl, h.link d hd]
  rwa [State.portFailed, h.ctl d hd, hl]

theorem hostPortFailure_fails (hr : s.resettable = true) : Completes (.hostPortFailure port) s fun t =>
    t.nv = s.nv ∧ t.memory = s.memory ∧ t.power.mode = s.power.mode ∧
      ∀ d, (s.linkPort d = port → t.portFailed d) ∧ (s.linkPort d ≠ port → t.ctl d = s.ctl d) := by
  have hm : s.power.mode ≠ .off := by
    intro h; simp [State.resettable, h] at hr
  have k0 := resetKeeps_failLink s port 0
  have k1 := resetKeeps_failLink (s.failLink port 0) port 1
  refine completes_of (exec_hostPortFailure s port hm) ⟨k1.nv.trans k0.nv, k1.memory.trans k0.memory, k1.mode.trans k0.mode, fun d => ?_⟩
  match d with
  | 0 =>
    refine ⟨fun h => k1.portFailed (by decide) (State.portFailed_failLink s port 0 hr h), fun h => ?_⟩
    rw [k1.ctl 0 (by decide), State.failLink_other s port 0 h]
  | 1 =>
    refine ⟨fun h => State.portFailed_failLink _ port 1 (k0.resettable.trans hr) ((k0.linkPort 1).trans h), fun h => ?_⟩
    rw [State.failLink_other _ port 1 (by rwa [k0.linkPort]), k0.ctl 1 (by decide)]

end

/-! ### BAR2 reads (R498) -/

section
variable {s : State} {c : Fin 2} {addr since : Nat} (h : s.host.barReads = [(c.val, addr, since)])
include h

theorem bar2ReadTimeout_early (ht : s.turn < since + 8192) : exec (.bar2ReadTimeout c addr) s = .next s := by
  show execBar2ReadTimeout c addr s = _
  simp [execBar2ReadTimeout, h, Nat.not_le.2 ht]

/-- A read that has waited 8,192 turns, answered with all ones as a bus error (R498). -/
def State.barTimedOut (s : State) (c : Fin 2) (addr since : Nat) : State :=
  { (s.onHost fun h => { h with barReads := h.barReads.replace (c.val, addr, since) (c.val, barMark addr, since) }).busError
      (0x20 + c.val) (0x20000000 + addr) false with answer := some (.value (0x20 + c.val) 0xFFFFFFFF) }

theorem exec_bar2ReadTimeout (ht : since + 8192 ≤ s.turn) :
    exec (.bar2ReadTimeout c addr) s = .next (s.barTimedOut c addr since) := by
  have due : s.host.barReads.find? (fun r => r.1 == c.val && r.2.1 == addr && decide (r.2.2 + 8192 ≤ s.turn)) =
      some (c.val, addr, since) := by
    simp [h, ht]
  show execBar2ReadTimeout c addr s = _
  rw [execBar2ReadTimeout, due]
  rfl

omit h in
theorem State.barTimedOut_cmds : (s.barTimedOut c addr since).host.cmds = s.host.cmds := by
  rw [State.barTimedOut, State.busError_eq_setFlds, State.setFlds_host]
  rfl

theorem bar2ReadTimeout_due (ht : since + 8192 ≤ s.turn) :
    Changes (.bar2ReadTimeout c addr) s [.host, .answer] [Reg.ERC_BUSERR, Reg.ERC_EVENT, Reg.ERC_LAST, Reg.ERC_LAST_ADDR_LO,
        Reg.ERC_LAST_ADDR_HI] fun t =>
      t.answer = some (.value (0x20 + c.val) 0xFFFFFFFF) ∧ t.fld Reg.ERC_EVENT_BUS_ERR = 1 ∧ t.host.cmds = s.host.cmds :=
  ⟨_, exec_bar2ReadTimeout h ht, (((frame_onHost s _).trans (frame_busError _ _ _ _)).trans (frame_answer _ _)).1,
    fun _ ha => State.word_busError _ _ _ _ ha, rfl, State.busError_event _ _ _ _, State.barTimedOut_cmds⟩

end

/-- Settles O53: each command's effect is a lemma of its own above; a failed port's needs that the reset of one controller keeps the
other one with its link (`resetKeeps_resetCtrl`). -/
theorem linksTrainNarrowAndFail : Obligations.LinksTrainNarrowAndFail := by
  unfold Obligations.LinksTrainNarrowAndFail
  intro s c hr
  refine ⟨fun port hp hoff hon hm => perstDeassert_wakes s hr port hp hoff hon hm,
    fun rate width flit => ⟨linkTrained_reports s c flit, linkTrained_ignored s c flit⟩, fun on width hu => ?_,
    fun port => hostPortFailure_fails s port hr, fun addr since h => ⟨bar2ReadTimeout_early h, bar2ReadTimeout_due h⟩⟩
  exact ⟨l0pEnable_sets hr hu on, l0pWidthRequest_narrows hr hu, l0pWidthRequest_below_half, fun hb => l1Entry_idle hr hu hb on,
    fun h => l1Entry_busy (ctrlBusy_of_outstanding h) on, l1Exit_on hr hu, ecrcFailure_reports hr hu, fun _ v ha => bar2Write_logged hr hu v ha⟩

end Sys2Proof.Machine
end

section
namespace Sys2Proof.Machine

open Sys2Proof.Safety

/-! ### A turn edge that serves a waiting NVMe-MI Reset

A management command that the access gate holds (R513) runs again in a turn edge once the gate lets it through. Where it is an NVMe-MI
Reset and the part is in Recovery, the power-on reset that it raises starts the turn counter at 0 inside that edge. -/

/-- Turn 5 in Recovery, with an NVMe-MI Reset waiting for the management gate. -/
def resetWaiting : State :=
  { State.reset.setFld Reg.MBX_UART_CFG_EN 1 with
    turn := 5
    power := { mode := .recovery }
    mgmt := { waiting := [.nvmeMiSend ⟨7, 0⟩ .reset] }
    sluice := { hold := true } }

/-- The edge serves the reset first and then counts one turn from 0. -/
theorem turnEdge_resetWaiting_turn : (resetWaiting.turnEdge {}).turn = 1 := by decide +kernel

theorem exec_turnEdge_resetWaiting : exec (.turnEdge {}) resetWaiting = .next (resetWaiting.turnEdge {}) := by
  show execTurnEdge {} resetWaiting = _
  rw [execTurnEdge, if_neg (by decide)]

/-- Refutes O4: the turn edge of `resetWaiting` takes the counter from 5 to 1, since the NVMe-MI Reset that it serves starts it at 0. -/
theorem not_onlyTurnEdgeMovesTime : ¬ Obligations.OnlyTurnEdgeMovesTime := by
  unfold Obligations.OnlyTurnEdgeMovesTime
  intro h
  have hturn : (resetWaiting.turnEdge {}).turn = 6 := (h _ _ _ exec_turnEdge_resetWaiting).1 {} rfl
  rw [turnEdge_resetWaiting_turn] at hturn
  exact absurd hturn (by decide)

/-- Refutes O57 by the state that refutes O4: its turn edge answers turn 1, not 6. -/
theorem not_turnEdgesAdvanceTheTurn : ¬ Obligations.TurnEdgesAdvanceTheTurn := by
  unfold Obligations.TurnEdgesAdvanceTheTurn
  intro h
  obtain ⟨t, hnext, hturn, -⟩ := (h resetWaiting {}).2 (by decide)
  rw [exec_turnEdge_resetWaiting] at hnext
  obtain rfl : resetWaiting.turnEdge {} = t := by injection hnext
  rw [turnEdge_resetWaiting_turn] at hturn
  exact absurd hturn (by decide)

end Sys2Proof.Machine
end

section
/-! Setup writes: every command that `setupOf` names is one use of `State.setupWrite`, and what that does at BAR2, at a dead domain and
at a domain that sleeps. -/

namespace Sys2Proof.Machine

open Sys2Proof.Safety

theorem exec_of_setupOf (s : State) {i : Instr} {client a : Nat} {v : Word} (h : setupOf i = some (client, a, v)) :
    ∃ k, exec i s = .next (s.setupWrite client a v i k) := by
  unfold setupOf at h
  split at h <;> cases h <;> exact ⟨_, rfl⟩

section
variable {s : State} {n : Fin 24} {client a : Nat} {v : Word} {i : Instr} {k : State → State}

theorem State.setupWrite_bar2 (h : viaBar2 client = true) : s.setupWrite client a v i k = s.logWrite client a v := by
  rw [State.setupWrite, if_pos h]

theorem State.setupWrite_gate (h : viaBar2 client = false) :
    s.setupWrite client a v i k = s.gate (blockDomain a) client (0x20000000 + a) true i k := by
  rw [State.setupWrite, if_neg (by simp [h])]

theorem State.gate_dead {write : Bool} (h : s.isDead n = true) : s.gate n client a write i k = s.busError client a write := by
  rw [State.gate, if_pos h]

/-- An access that does not find its domain ON after the wake that it asks for waits there. -/
theorem State.gate_stalls {write : Bool} (hd : s.isDead n = false) (ho : (s.touch n client).isOn n = false) :
    s.gate n client a write i k = (s.touch n client).stall n i := by
  rw [State.gate, if_neg (by simp [hd]), if_neg (by simp [ho])]

theorem State.gate_waking {write : Bool} (h : (s.dom n).state = .waking) : s.gate n client a write i k = s.stall n i := by
  have touched : s.touch n client = s := by rw [State.touch, h]
  rw [State.gate_stalls (by rw [State.isDead, h]) (by rw [touched, State.isOn, h]; rfl), touched]

theorem State.gate_off {write : Bool} (h : (s.dom n).state = .off) (hm : s.power.mode ≠ .recovery) :
    s.gate n client a write i k = ((s.startWake n).restartIdle n).stall n i := by
  have touched := State.touch_off s n client h hm
  refine (State.gate_stalls (by rw [State.isDead, h]) ?_).trans (by rw [touched])
  rw [touched, State.isOn, State.restartIdle, State.onDom_dom_same, State.startWake_state]
  rfl

end

theorem frame_stall (s : State) (n : Fin 24) (i : Instr) : Frame [.doms] [] s (s.stall n i) := frame_onDom_keep s n _ fun _ => rfl

theorem othersSame_stall (s : State) (n : Fin 24) (i : Instr) : othersSame n s (s.stall n i) := fun m hm => by
  rw [State.stall, State.onDom_dom_ne _ _ hm]

theorem othersSame_wake (s : State) (n : Fin 24) : othersSame n s ((s.startWake n).restartIdle n) := fun m hm => by
  rw [State.restartIdle, State.onDom_dom_ne _ _ hm, State.startWake_dom_ne _ hm]

theorem State.stall_dom_same (s : State) (n : Fin 24) (i : Instr) :
    (s.stall n i).dom n = { s.dom n with stalled := (s.dom n).stalled ++ [i] } := State.onDom_dom_same _ _ _

/-- The length of the wake aside, a domain that an access wakes is WAKING from this turn. -/
theorem State.wake_dom_same (s : State) (n : Fin 24) : ∃ len, ((s.startWake n).restartIdle n).dom n =
    { s.dom n with state := .waking, wakeFrom := s.turn, wakeLen := len, idleFrom := s.turn } := by
  rw [State.restartIdle, State.startWake, State.onDom_dom_same, State.onDom_dom_same]
  exact ⟨_, rfl⟩

/-- Settles O59: a setup write is one use of `State.setupWrite`, whose gate answers each state of the domain by a lemma above. -/
theorem setupWritesMeetTheirDomain : Obligations.SetupWritesMeetTheirDomain := by
  unfold Obligations.SetupWritesMeetTheirDomain
  intro s i client a v hi
  obtain ⟨k, hk⟩ := exec_of_setupOf s hi
  refine ⟨fun bar2 => ?_, fun bus => ?_⟩
  · exact ⟨_, by rw [hk, State.setupWrite_bar2 bar2], frame_logWrite _ _ _ _, logged_log _ _ _ _ _⟩
  rw [State.setupWrite_gate bus] at hk
  refine ⟨fun dead => ?_, fun waking => ?_, fun off hm => ?_⟩
  · exact ⟨_, by rw [hk, State.gate_dead dead], frame_busError _ _ _ _, trivial⟩
  · exact ⟨_, by rw [hk, State.gate_waking waking], frame_stall _ _ _, State.stall_dom_same _ _ _, othersSame_stall _ _ _⟩
  · obtain ⟨len, woken⟩ := State.wake_dom_same s (blockDomain a)
    refine ⟨_, by rw [hk, State.gate_off off hm],
      (((frame_startWake s _).trans (frame_restartIdle _ _)).trans (frame_stall _ _ i)).mono (by decide), ?_⟩
    beta_reduce
    rw [State.stall_dom_same, woken]
    exact ⟨rfl, rfl, rfl, fun m hm => (othersSame_stall _ _ i m hm).trans (othersSame_wake s _ m hm)⟩

end Sys2Proof.Machine
end

section
/-! Requests for Sealed and for Recovery, and the mismatch of a pair that has stood (R43, R240, R454). -/

namespace Sys2Proof.Machine

open Sys2Proof.Safety

variable {s : State} {client : Nat}

/-- The steps of R43 as a Recovery request begins them: RECOVER is set, admission stops, and the countdown runs. -/
def State.beginRecovery (s : State) : State :=
  ((s.setFld Reg.PMC_MODE_REQ_RECOVER 1).onHost fun h => { h with admitStop := true }).onPower fun p => { p with recovering := some 6 }

theorem frame_beginRecovery (s : State) : Frame [.host, .power] [(Reg.PMC_MODE_REQ_RECOVER, 1)] s s.beginRecovery :=
  ((frame_setFld _ _ _).trans (frame_onHost _ _)).trans (frame_onPower _ _ rfl)

theorem frame_permanentFault (s : State) :
    Frame [.host, .power, .nv, .mgmt] [(Reg.PMC_MODE_REQ_RECOVER, 1)] s s.permanentFault :=
  ((frame_beginRecovery s).trans (frame_onNv _ _)).trans (frame_captureTele _)

theorem exec_sealRequest (h : reaches s client Reg.PMC_MODE_REQ) (hm : s.power.mode ≠ .conserve) :
    exec (.sealRequest client) s = .next ((s.restartIdle (blockDomain Reg.PMC_MODE_REQ)).setFld Reg.PMC_MODE_REQ_SEAL 1) := by
  show execSealRequest client s = _
  rw [execSealRequest, State.setupWrite_reaches _ _ _ _ _ _ h]
  exact congrArg _ (if_neg (by simpa using hm))

/-- The modes in which a Recovery request acts at once carry host data and are not Conserve. -/
theorem exec_recoverRequest (h : reaches s client Reg.PMC_MODE_REQ) (data : s.power.mode.carriesData = true)
    (hm : s.power.mode ≠ .conserve) :
    exec (.recoverRequest client) s = .next (s.restartIdle (blockDomain Reg.PMC_MODE_REQ)).beginRecovery := by
  show execRecoverRequest client s = _
  rw [execRecoverRequest, State.setupWrite_reaches _ _ _ _ _ _ h]
  refine congrArg _ ((if_neg ?_).trans (if_neg (by simpa using hm)))
  simpa using data

theorem exec_permanentFault {unit : Nat} (h : 16 ≤ (klook unit s.collector.pairRun).getD 0) (hm : s.power.mode ≠ .conserve) :
    exec (.permanentFault unit) s = .next s.permanentFault := by
  show execPermanentFault unit s = _
  rw [execPermanentFault, if_pos h, if_neg (by simpa using hm)]

theorem exec_permanentFault_short {unit : Nat} (h : (klook unit s.collector.pairRun).getD 0 < 16) :
    exec (.permanentFault unit) s = .next s := by
  show execPermanentFault unit s = _
  rw [execPermanentFault, if_neg (by omega)]

/-- Settles O9: outside Conserve each request is its register write, with the steps of R43 begun where they are due. -/
theorem modeRequestsAreTaken : Obligations.ModeRequestsAreTaken := by
  unfold Obligations.ModeRequestsAreTaken
  intro s client unit
  refine ⟨fun h hm => ?_, fun h hm => ?_, fun h hm => ?_, fun h => exec_permanentFault_short h⟩
  · exact ⟨_, exec_sealRequest h hm, (frame_restartIdle _ _).trans (frame_setFld _ _ _), trivial⟩
  · obtain ⟨data, awake⟩ : s.power.mode.carriesData = true ∧ s.power.mode ≠ .conserve := by
      rcases hm with hm | hm | hm <;> rw [hm] <;> decide
    exact ⟨_, exec_recoverRequest h data awake, (frame_restartIdle _ _).trans (frame_beginRecovery _), rfl, rfl, rfl⟩
  · exact ⟨_, exec_permanentFault h hm, frame_permanentFault s, rfl, rfl, rfl⟩

end Sys2Proof.Machine
end

section
/-! Uncorrectable words, parity errors of a link and accesses to dead domains (R23, R25, R300, R302, R307, R497). -/

namespace Sys2Proof.Machine

open Sys2Proof.Safety

variable (s : State)

/-- An answer changes nothing but the answer. -/
theorem frame_withAnswer {P : List Part} {W : List (Fld × Nat)} {s t : State} (h : Frame P W s t) (x : Option Answer) :
    Frame (P ++ [.answer]) W s { t with answer := x } := by
  rw [← List.append_nil W]
  exact h.trans (frame_answer t x)

/-! ### The record of an uncorrectable word -/

/-- The field writes that record an uncorrectable SRAM word: its count, its event and ERC.LAST. -/
def ueWrites (client mem addr : Nat) (write : Bool) : List (Fld × Nat) :=
  [plus s Reg.ERC_UE_COUNT 1, (Reg.ERC_EVENT_SRAM_UE, 1)] ++ lastWrites s client 1 write mem addr

theorem State.recordUe_eq_setFlds (client mem addr : Nat) (write : Bool) :
    ((s.addFld Reg.ERC_UE_COUNT 1).setFld Reg.ERC_EVENT_SRAM_UE 1).ercLast client 1 write mem addr =
      s.setFlds (ueWrites s client mem addr write) := by
  have h : ((s.addFld Reg.ERC_UE_COUNT 1).setFld Reg.ERC_EVENT_SRAM_UE 1).fld Reg.ERC_LAST_VALID = s.fld Reg.ERC_LAST_VALID := by
    rw [State.fld_setFld_apart _ _ _ _ (by decide), State.addFld, State.fld_setFld_apart _ _ _ _ (by decide)]
  rw [State.ercLast_eq_setFlds, lastWrites_congr h, ueWrites, List.cons_append, List.cons_append, List.nil_append,
    State.setFlds_cons, State.setFlds_cons, State.addFld, plus]

/-! ### A word of a bank that the compositor map holds (R302, Table 08.7) -/

theorem bankOf_lt {a c : Nat} (h : bankOf a = some c) : a < dramBase := by
  unfold bankOf at h
  simp only [Bool.and_eq_true, decide_eq_true_eq] at h
  simp only [dramBase]
  split_ifs at h <;> omega

theorem isDram_of_bankOf {a c : Nat} (h : bankOf a = some c) : isDram a = false := by
  simp [isDram, Nat.not_le.2 (bankOf_lt h)]

theorem State.memCode_of_bankOf {a c : Nat} (h : bankOf a = some c) : s.memCode a = c := by rw [State.memCode, h]

theorem frame_setFlips (w : Nat) (f : Flips) : Frame [.memory] [] s (s.setFlips w f) := frame_onMemory_keep _ _ rfl

/-- The state after an access other than a full store has met an uncorrectable word at storage address `a` of bank `c`. -/
theorem State.upsetWord_eq {client addr c : Nat} (h : bankOf (s.storage addr) = some c) {acc : MemAccess}
    (narrow : ∀ v, acc ≠ .storeFull v) :
    s.upsetWord client addr acc =
      ((s.setFlips (s.storage addr / 8 * 8) ⟨3, 0, 0⟩).setFlds
        (ueWrites s client c (s.storage addr) (acc == .storeNarrow || acc == .dmaWrite))).uncorrectableAnswer client addr acc := by
  rw [State.upsetWord, isDram_of_bankOf h, if_neg (by decide), State.uncorrectable, State.memCode_of_bankOf _ h, if_pos rfl,
    State.recordUe_eq_setFlds]
  · rfl
  · exact narrow

/-- Two flipped data bits are beyond the code (R300). -/
theorem State.checkWord_two_flips {a c : Nat} (h : bankOf a = some c) (hf : klook (a / 8 * 8) s.memory.flips = some ⟨3, 0, 0⟩) :
    s.checkWord a = .uncorrectable 1 := by
  rw [State.checkWord, hf, isDram_of_bankOf h]
  decide

/-- An access and its answer by Table 08.7. -/
def ueAnswers (client addr : Nat) (acc : MemAccess) (x : Answer) : Prop :=
  (acc = .load ∧ x = .loadFault client addr) ∨ (acc = .fetch ∧ x = .fetchFault client addr) ∨
    (acc = .storeNarrow ∧ x = .storeFault client addr) ∨ (acc = .dmaRead ∧ x = .dmaError client 3) ∨
    (acc = .dmaWrite ∧ x = .dmaError client 4)

section
variable {client addr c : Nat} {acc : MemAccess} {x : Answer} (hx : ueAnswers client addr acc x)
include hx

theorem State.uncorrectableAnswer_eq : s.uncorrectableAnswer client addr acc = { s with answer := some x } := by
  rcases hx with ⟨rfl, rfl⟩ | ⟨rfl, rfl⟩ | ⟨rfl, rfl⟩ | ⟨rfl, rfl⟩ | ⟨rfl, rfl⟩ <;> rfl

theorem ne_storeFull_of_ueAnswers (v : BitVec 64) : acc ≠ .storeFull v := by
  rcases hx with ⟨rfl, rfl⟩ | ⟨rfl, rfl⟩ | ⟨rfl, rfl⟩ | ⟨rfl, rfl⟩ | ⟨rfl, rfl⟩ <;> nofun

theorem exec_sramUncorrectable_mapped {code : Nat} (hc : ¬(0x80 ≤ code ∧ code ≤ 0xBF)) (hb : bankOf (s.storage addr) = some c) :
    exec (.sramUncorrectable code addr client acc) s = .next { (s.setFlips (s.storage addr / 8 * 8) ⟨3, 0, 0⟩).setFlds
      (ueWrites s client c (s.storage addr) (acc == .storeNarrow || acc == .dmaWrite)) with answer := some x } := by
  show execSramUncorrectable code addr client acc s = _
  rw [execSramUncorrectable, if_neg (by simpa using hc), State.upsetWord_eq s hb (ne_storeFull_of_ueAnswers hx),
    State.uncorrectableAnswer_eq _ hx]

theorem sramUncorrectable_mapped {code : Nat} (hc : ¬(0x80 ≤ code ∧ code ≤ 0xBF)) (hb : bankOf (s.storage addr) = some c) :
    Does (.sramUncorrectable code addr client acc) s [.answer, .memory]
      (ueWrites s client c (s.storage addr) (acc == .storeNarrow || acc == .dmaWrite)) fun t =>
      t.answer = some x ∧ t.checkWord (s.storage addr) = .uncorrectable 1 := by
  refine ⟨_, exec_sramUncorrectable_mapped s hx hc hb, Frame.mono (P := [.memory, .answer])
    (frame_withAnswer ((frame_setFlips s _ _).trans (frame_setFlds _ _)) _) (by decide), rfl, State.checkWord_two_flips _ hb ?_⟩
  show klook _ ((s.setFlips _ _).setFlds _).memory.flips = _
  rw [State.setFlds_memory]
  exact klook_kput_self _ _ _

end

/-! ### A word of a channel buffer -/

theorem frame_setPlan (p : Plan) : Frame [.sluice] [] s (s.setPlan p) := frame_onSluice _ _

/-- The loss of a read slot changes nothing but the plan that held it. -/
theorem State.readSlotLost_eq (ch : Nat) : s.readSlotLost ch = s ∨ ∃ p, s.readSlotLost ch = s.setPlan p := by
  rw [State.readSlotLost]
  split
  · exact .inl rfl
  · split
    · exact .inr ⟨_, rfl⟩
    · exact .inl rfl

theorem frame_readSlotLost (ch : Nat) : Frame [.sluice] [] s (s.readSlotLost ch) ∧
    (s.readSlotLost ch).sluice.bookings = s.sluice.bookings := by
  rcases s.readSlotLost_eq ch with h | ⟨p, h⟩ <;> rw [h]
  · exact ⟨(Frame.refl s).mono (by decide), rfl⟩
  · exact ⟨frame_setPlan s p, rfl⟩

theorem frame_refillRegion (ch : Nat) : Frame [.flash] [] s (s.refillRegion ch) := frame_onFlash _ _

/-- What an uncorrectable word of a channel buffer changes besides the record: the read that held a slot, or the program whose data-in
waits. -/
def State.bufferWordLost (s : State) (ch : Nat) : MemAccess → State
  | .readSlot => s.readSlotLost ch
  | .programRegion => s.refillRegion ch
  | _ => s

theorem State.bufferWordLost_keeps (ch : Nat) (acc : MemAccess) :
    Frame (if acc = .readSlot then [.sluice] else if acc = .programRegion then [.flash] else []) [] s (s.bufferWordLost ch acc) ∧
      (s.bufferWordLost ch acc).flash.dies = s.flash.dies ∧ (s.bufferWordLost ch acc).sluice.bookings = s.sluice.bookings := by
  cases acc
  case readSlot =>
    obtain ⟨hf, hb⟩ := frame_readSlotLost s ch
    exact ⟨hf, congrArg Flash.dies (hf.1 .flash (by decide)), hb⟩
  case programRegion => exact ⟨frame_refillRegion s ch, rfl, rfl⟩
  all_goals exact ⟨Frame.refl s, rfl, rfl⟩

theorem exec_sramUncorrectable_buffer {code addr client : Nat} {acc : MemAccess} (lo : 0x80 ≤ code) (hi : code ≤ 0xBF) :
    exec (.sramUncorrectable code addr client acc) s =
      .next ((s.setFlds (ueWrites s client code addr false)).bufferWordLost (code - 0x80) acc) := by
  show execSramUncorrectable code addr client acc s = _
  rw [execSramUncorrectable, if_pos (by simp [lo, hi]), State.recordUe_eq_setFlds]
  cases acc <;> rfl

theorem sramUncorrectable_buffer {code addr client : Nat} (lo : 0x80 ≤ code) (hi : code ≤ 0xBF) (acc : MemAccess) :
    Does (.sramUncorrectable code addr client acc) s
      (if acc = .readSlot then [.sluice] else if acc = .programRegion then [.flash] else []) (ueWrites s client code addr false) fun t =>
      t.flash.dies = s.flash.dies ∧ t.sluice.bookings = s.sluice.bookings := by
  obtain ⟨hf, hd, hb⟩ := State.bufferWordLost_keeps (s.setFlds (ueWrites s client code addr false)) (code - 0x80) acc
  have frame := (frame_setFlds s (ueWrites s client code addr false)).trans hf
  rw [List.append_nil, List.nil_append] at frame
  rw [State.setFlds_flash] at hd
  rw [State.setFlds_sluice] at hb
  exact ⟨_, exec_sramUncorrectable_buffer s lo hi, frame, hd, hb⟩

/-! ### Parity errors of a link (R23) -/

section
variable {unit link : Nat}

/-- A link's count after one more parity error. -/
def State.countParity (s : State) (unit link : Nat) : State :=
  s.onCollector fun c => { c with parity := kput (unit * 8 + link) ((klook (unit * 8 + link) s.collector.parity).getD 0 + 1) c.parity }

theorem exec_fabricParityError : exec (.fabricParityError unit link) s =
    .next (if 1024 < (klook (unit * 8 + link) s.collector.parity).getD 0 + 1 then
      (s.countParity unit link).setFld Reg.ERC_EVENT_FAB_LIMIT 1 else s.countParity unit link) := rfl

theorem State.countParity_same : klook (unit * 8 + link) (s.countParity unit link).collector.parity =
    some ((klook (unit * 8 + link) s.collector.parity).getD 0 + 1) := klook_kput_self _ _ _

theorem State.countParity_other {k : Nat} (h : k ≠ unit * 8 + link) :
    klook k (s.countParity unit link).collector.parity = klook k s.collector.parity := klook_kput_ne _ _ h

theorem fabricParityError_below (h : (klook (unit * 8 + link) s.collector.parity).getD 0 < 1024) :
    Does (.fabricParityError unit link) s [.collector] [] fun t =>
      klook (unit * 8 + link) t.collector.parity = some ((klook (unit * 8 + link) s.collector.parity).getD 0 + 1) ∧
        ∀ k, k ≠ unit * 8 + link → klook k t.collector.parity = klook k s.collector.parity :=
  ⟨_, (exec_fabricParityError s).trans (congrArg _ (if_neg (by omega))), frame_onCollector s _, s.countParity_same,
    fun _ hk => s.countParity_other hk⟩

theorem fabricParityError_above (h : 1024 ≤ (klook (unit * 8 + link) s.collector.parity).getD 0) :
    Does (.fabricParityError unit link) s [.collector] [(Reg.ERC_EVENT_FAB_LIMIT, 1)] fun t =>
      klook (unit * 8 + link) t.collector.parity = some ((klook (unit * 8 + link) s.collector.parity).getD 0 + 1) :=
  ⟨_, (exec_fabricParityError s).trans (congrArg _ (if_pos (by omega))),
    (frame_onCollector s _).trans (frame_setFld _ _ _), s.countParity_same⟩

end

/-! ### Dead domains (R25, R497) -/

theorem State.isDead_iff (d : Fin 24) :
    s.isDead d = true ↔ (s.dom d).state = .retired ∨ (s.dom d).state = .fused ∨ (s.dom d).state = .absent := by
  rw [State.isDead]
  cases (s.dom d).state <;> simp

theorem retiredDomainAccess_dead {d : Fin 24} (h : s.isDead d = true) (client addr : Nat) (write : Bool) :
    Does (.retiredDomainAccess d client addr write) s [.answer]
      ([plus s Reg.ERC_BUSERR_COUNT 1, (Reg.ERC_EVENT_BUS_ERR, 1)] ++ lastWrites s client 4 write 0 addr) fun t =>
      t.answer = if write then s.answer else some (.value client 0xFFFFFFFF) := by
  refine ⟨{ s.busError client addr write with answer := if write then s.answer else some (.value client 0xFFFFFFFF) }, ?_,
    frame_withAnswer (frame_busError s client addr write) _, rfl⟩
  show execRetiredDomainAccess d client addr write s = _
  rw [execRetiredDomainAccess, if_pos h]

/-- Settles O18: each kind of error by a lemma above. -/
theorem errorsAreCountedAndReported : Obligations.ErrorsAreCountedAndReported := by
  unfold Obligations.ErrorsAreCountedAndReported
  refine ⟨fun s code addr client => ⟨fun c hc hb acc x hx => sramUncorrectable_mapped s hx hc hb,
      fun lo hi acc => sramUncorrectable_buffer s lo hi acc⟩,
    fun s unit link d client addr write => ⟨fun _ h => fabricParityError_below s h, fun _ h => fabricParityError_above s h, fun h => ?_⟩⟩
  exact retiredDomainAccess_dead s ((s.isDead_iff d).2 h) client addr write

end Sys2Proof.Machine
end

section
/-! What a run of operations can change, when the values written do not matter: parts of the state and window offsets. And words of
memory: what a read returns after a write. -/

namespace Sys2Proof.Machine

open Sys2Proof.Safety

/-! ### Parts and registers that may have changed -/

/-- From `s` to `t` nothing changed but the listed parts and the registers at the listed window offsets. -/
def Within (P : List Part) (R : List Nat) (s t : State) : Prop :=
  (∀ p, p ∉ P → p.same s t) ∧ ∀ a, a ∉ R → t.word a = s.word a

section
variable {P : List Part} {R : List Nat} {s t u : State}

theorem within_refl (P : List Part) (R : List Nat) (s : State) : Within P R s s := ⟨fun p _ => p.same_refl s, fun _ _ => rfl⟩

theorem within_trans (h : Within P R s t) (k : Within P R t u) : Within P R s u :=
  ⟨fun p hp => Part.same_trans (h.1 p hp) (k.1 p hp), fun a ha => (k.2 a ha).trans (h.2 a ha)⟩

theorem within_mono {Q : List Part} {S : List Nat} (h : Within P R s t) (hP : P ⊆ Q) (hR : R ⊆ S) : Within Q S s t :=
  ⟨fun p hp => h.1 p fun m => hp (hP m), fun a ha => h.2 a fun m => ha (hR m)⟩

/-- A frame, with the values that its writes leave forgotten. -/
theorem within_of_frame {Q : List Part} {W : List (Fld × Nat)} (h : Frame Q W s t) (hP : Q ⊆ P) (hR : ∀ p ∈ W, p.1.addr ∈ R) :
    Within P R s t :=
  ⟨(h.mono hP).1, fun a ha => by
    have apart : ∀ p ∈ W, p.1.addr ≠ a := fun p hp e => ha (e ▸ hR p hp)
    rw [h.2, wordAfter_of_addr_ne apart]⟩

theorem within_ite {c : Prop} [Decidable c] (h : c → Within P R s t) (k : ¬c → Within P R s u) : Within P R s (if c then t else u) := by
  split_ifs with hc
  · exact h hc
  · exact k hc

/-- A field of a register that cannot have changed. -/
theorem within_fld (h : Within P R s t) {g : Fld} (hg : g.addr ∉ R) : t.fld g = s.fld g := by
  rw [State.fld, h.2 _ hg, State.fld]

theorem within_setFld (s : State) {f : Fld} (v : Nat) (h : f.addr ∈ R) : Within P R s (s.setFld f v) :=
  within_of_frame (frame_setFld s f v) (List.nil_subset _) (by simpa using h)

theorem within_setFlds (s : State) {l : List (Fld × Nat)} (h : ∀ p ∈ l, p.1.addr ∈ R) : Within P R s (s.setFlds l) :=
  within_of_frame (frame_setFlds s l) (List.nil_subset _) h

theorem within_addFld (s : State) {f : Fld} (n : Nat) (h : f.addr ∈ R) : Within P R s (s.addFld f n) := within_setFld s _ h

theorem within_holdWord (s : State) (a : Nat) (h : Part.edgeRegs ∈ P) : Within P R s (s.holdWord a) :=
  within_of_frame (frame_holdWord s a) (List.cons_subset.2 ⟨h, List.nil_subset _⟩) nofun

theorem within_onFlash (s : State) (f : Flash → Flash) (h : Part.flash ∈ P) : Within P R s (s.onFlash f) :=
  within_of_frame (frame_onFlash s f) (List.cons_subset.2 ⟨h, List.nil_subset _⟩) nofun

theorem within_onSluice (s : State) (f : Sluice → Sluice) (h : Part.sluice ∈ P) : Within P R s (s.onSluice f) :=
  within_of_frame (frame_onSluice s f) (List.cons_subset.2 ⟨h, List.nil_subset _⟩) nofun

theorem within_onGalley (s : State) (f : Galley → Galley) (h : Part.galley ∈ P) : Within P R s (s.onGalley f) :=
  within_of_frame (frame_onGalley s f) (List.cons_subset.2 ⟨h, List.nil_subset _⟩) nofun

theorem within_onNv (s : State) (f : NonVol → NonVol) (h : Part.nv ∈ P) : Within P R s (s.onNv f) :=
  within_of_frame (frame_onNv s f) (List.cons_subset.2 ⟨h, List.nil_subset _⟩) nofun

/-- A command changes what its next state shows. -/
theorem changes_of {i : Instr} {Q : State → Prop} (h : exec i s = .next t) (hw : Within P R s t) (hq : Q t) : Changes i s P R Q :=
  ⟨t, h, hw.1, hw.2, hq⟩

theorem changes_imp {i : Instr} {Q Q' : State → Prop} (h : Changes i s P R Q) (hq : ∀ t, Q t → Q' t) : Changes i s P R Q' := by
  obtain ⟨t, hnext, hparts, hregs, hQ⟩ := h
  exact ⟨t, hnext, hparts, hregs, hq t hQ⟩

end

/-! ### Words of memory -/

theorem memRead_congr {m m' : List Host.Cell} {a n : Nat} (h : ∀ x, a ≤ x → x < a + n → memGet x m' = memGet x m) :
    memRead m' a n = memRead m a n := by
  induction n generalizing a with
  | zero => rfl
  | succ n ih => rw [memRead, memRead, h a (by omega) (by omega), ih fun x hl hr => h x (by omega) (by omega)]

theorem memRead_memWrite_same (m : List Host.Cell) (a : Nat) (bs : Bytes) : memRead (memWrite a bs m) a bs.length = bs := by
  induction bs generalizing a m with
  | nil => rfl
  | cons b bs ih =>
    rw [List.length_cons, memRead, memWrite, ih, memGet_memWrite, if_neg (by omega), memGet_memPut, if_pos rfl]

theorem State.peek_poke_same (s : State) (a n v : Nat) : (s.poke a n v).peek a n = v % 256 ^ n := by
  have h := memRead_memWrite_same s.memory.bytes a (leBytes n v)
  rw [leBytes_length] at h
  show leNat (memRead (memWrite a (leBytes n v) s.memory.bytes) a n) = _
  rw [h, leNat_leBytes]

theorem State.peek_poke_apart (s : State) {a b n k : Nat} (v : Nat) (h : b + k ≤ a ∨ a + n ≤ b) : (s.poke a n v).peek b k = s.peek b k := by
  refine congrArg leNat (memRead_congr fun x hl hr => ?_)
  show memGet x (memWrite a (leBytes n v) s.memory.bytes) = _
  rw [memGet_memWrite, leBytes_length, if_neg (by omega)]

theorem frame_poke (s : State) (a n v : Nat) : Frame [.bytes] [] s (s.poke a n v) := frame_onMemory_bytes s _ rfl

/-! ### Elements that a test picks -/

theorem updIf_eq_map {α : Type} (p : α → Bool) (f : α → α) (l : List α) : updIf p f l = l.map fun a => if p a then f a else a := by
  induction l with
  | nil => rfl
  | cons a l ih => rw [updIf, ih, List.map_cons]

theorem mem_updIf {α : Type} {p : α → Bool} {f : α → α} {l : List α} {y : α} (h : y ∈ updIf p f l) :
    (∃ x ∈ l, p x = true ∧ y = f x) ∨ (y ∈ l ∧ p y = false) := by
  rw [updIf_eq_map] at h
  obtain ⟨x, hx, rfl⟩ := List.mem_map.1 h
  cases hp : p x
  · exact .inr (by simp [hx, hp])
  · exact .inl ⟨x, hx, hp, by simp⟩

end Sys2Proof.Machine
end

section
/-! Dies: the ends of their operations, and their timeouts (R152, R154, R156, R161). -/

namespace Sys2Proof.Machine

open Sys2Proof.Safety

variable (s : State)

/-! ### Dies and blocks under the updates of the state -/

@[simp] theorem State.setFld_die (f : Fld) (v n : Nat) : (s.setFld f v).die n = s.die n := (rfl)

theorem State.die_of_flash {t : State} (h : t.flash = s.flash) (n : Nat) : t.die n = s.die n := by rw [State.die, h, State.die]

theorem State.klook_onDie (n : Nat) (f : Die → Die) : klook n (s.onDie n f).flash.dies = some (f (s.die n)) := klook_kput_self _ _ _

@[simp] theorem State.onDie_die (n : Nat) (f : Die → Die) : (s.onDie n f).die n = f (s.die n) := by
  rw [State.die, State.klook_onDie, Option.getD_some]

@[simp] theorem State.onDie_fld (n : Nat) (f : Die → Die) (g : Fld) : (s.onDie n f).fld g = s.fld g := (rfl)

@[simp] theorem State.onDie_turn (n : Nat) (f : Die → Die) : (s.onDie n f).turn = s.turn := (rfl)

theorem State.klook_onDie_ne {n m : Nat} (f : Die → Die) (h : m ≠ n) : klook m (s.onDie n f).flash.dies = klook m s.flash.dies :=
  klook_kput_ne _ _ h

/-! ### Addresses of a die's registers -/

/-- The learned times of the dies lie below the furrows' registers. -/
theorem learnedFld_addr_lt {n : Nat} (hn : n < 1024) (k : Nat) : (learnedFld n k).addr < Reg.FUR_CFG 0 := by
  unfold learnedFld
  split <;> simp only [Reg.SLU_DIE_TIME_A_T_R, Reg.SLU_DIE_TIME_A_T_SUSP_P, Reg.SLU_DIE_TIME_A_T_SUSP_E, Reg.SLU_DIE_TIME_B_T_PROG,
    Reg.SLU_DIE_TIME_B_T_ERS, Reg.SLU_DIE_TIME_A, Reg.SLU_DIE_TIME_B, Reg.FUR_CFG] <;> omega

/-- The furrows' registers lie above those of the sluice. -/
theorem furCfg_le (n : Nat) : Reg.FUR_CFG 0 ≤ Reg.FUR_STATUS n ∧ Reg.FUR_CFG 0 ≤ Reg.FUR_EVENT n := by
  simp only [Reg.FUR_CFG, Reg.FUR_STATUS, Reg.FUR_EVENT]; omega

/-! ### The state that a furrow reports -/

/-- FUR.STATUS holds FAILING or RETIRED, which stand (R150). -/
def State.furStands (n : Nat) : Prop := s.fld (Reg.FUR_STATUS_STATE n) = 0xA ∨ s.fld (Reg.FUR_STATUS_STATE n) = 0xB

/-- The register write that reports a furrow's state. -/
def State.furWrites (n st : Nat) : List (Fld × Nat) :=
  if s.fld (Reg.FUR_STATUS_STATE n) = 0xA || s.fld (Reg.FUR_STATUS_STATE n) = 0xB then [] else [(Reg.FUR_STATUS_STATE n, st)]

theorem State.setFur_eq_setFlds (n st : Nat) : s.setFur n st = s.setFlds (s.furWrites n st) := by
  unfold State.setFur State.furWrites
  split <;> rfl

theorem State.furWrites_mem {n st : Nat} {p : Fld × Nat} (h : p ∈ s.furWrites n st) : p = (Reg.FUR_STATUS_STATE n, st) := by
  unfold State.furWrites at h
  split at h
  · cases h
  · exact List.mem_singleton.1 h

theorem frame_setFur (n st : Nat) : Frame [] (s.furWrites n st) s (s.setFur n st) := by
  rw [State.setFur_eq_setFlds]
  exact frame_setFlds s _

theorem within_setFur {P : List Part} {R : List Nat} (n st : Nat) (h : Reg.FUR_STATUS n ∈ R) : Within P R s (s.setFur n st) :=
  within_of_frame (frame_setFur s n st) (List.nil_subset _) fun p hp => by rw [s.furWrites_mem hp]; exact h

@[simp] theorem State.setFur_flash (n st : Nat) : (s.setFur n st).flash = s.flash := by
  rw [State.setFur_eq_setFlds, State.setFlds_flash]

@[simp] theorem State.setFur_turn (n st : Nat) : (s.setFur n st).turn = s.turn := by
  rw [State.setFur_eq_setFlds, State.setFlds_turn]

@[simp] theorem State.setFur_sluice (n st : Nat) : (s.setFur n st).sluice = s.sluice := by
  rw [State.setFur_eq_setFlds, State.setFlds_sluice]

theorem State.setFur_fld {g : Fld} (n st : Nat) (h : (Reg.FUR_STATUS_STATE n).apart g = true) : (s.setFur n st).fld g = s.fld g := by
  rw [State.setFur_eq_setFlds]
  exact State.fld_setFlds_apart s fun p hp => by rw [s.furWrites_mem hp]; exact h

theorem State.setFur_state {n : Nat} (st : Nat) (h : ¬s.furStands n) (hst : st < 16) :
    (s.setFur n st).fld (Reg.FUR_STATUS_STATE n) = st := by
  rw [State.setFur, if_neg (by simpa [State.furStands] using h), State.fld_setFld_same _ _ _ (show 0 + 4 ≤ 32 by decide)]
  exact Nat.mod_eq_of_lt hst

/-! ### The measurement of an operation (R161) -/

/-- A measured time of the die is below its field's largest value. -/
def unsaturated (n k m : Nat) : Prop := m + 1 < 2 ^ (learnedFld n k).width

/-- The end of a measurement: with AUTO_RAISE set, a time above the learned one raises it. -/
def State.raiseLearned (n k m : Nat) : State :=
  if s.flag (Reg.FUR_CFG_AUTO_RAISE n) && decide (s.fld (learnedFld n k) < m) then
    ((s.holdWord (learnedFld n k).addr).setFld (learnedFld n k)
      (min (2 ^ (learnedFld n k).width - 1) (m + max 2 (cdiv m 16)))).setFld (Reg.FUR_EVENT_T_EXCEED n) 1
  else s

/-- The die's maximum of a measured time. -/
def State.countMaximum (n k m : Nat) : State :=
  s.onDie n fun d => { d with maxima := updAt (fun v => max v (min (2 ^ (learnedFld n k).width - 1) m)) k d.maxima }

theorem State.measure_unsaturated {n k m : Nat} (h : unsaturated n k m) : s.measure n k m = (s.countMaximum n k m).raiseLearned n k m := by
  have : ¬2 ^ (learnedFld n k).width - 1 ≤ m := by unfold unsaturated at h; omega
  simp only [State.measure, if_neg this]
  rfl

theorem State.measure_saturated {n k m : Nat} (h : ¬unsaturated n k m) :
    s.measure n k m = (((s.countMaximum n k m).setFld (Reg.FUR_EVENT_SAT n) 1).failDie n).raiseLearned n k m := by
  have : 2 ^ (learnedFld n k).width - 1 ≤ m := by unfold unsaturated at h; omega
  simp only [State.measure, if_pos this]
  rfl

theorem within_raiseLearned {P : List Part} {R : List Nat} (n k m : Nat) (hP : Part.edgeRegs ∈ P) (hL : (learnedFld n k).addr ∈ R)
    (hE : Reg.FUR_EVENT n ∈ R) : Within P R s (s.raiseLearned n k m) :=
  within_ite (fun _ => within_trans (within_trans (within_holdWord s _ hP) (within_setFld _ _ hL)) (within_setFld _ _ hE))
    fun _ => within_refl P R s

@[simp] theorem State.raiseLearned_flash (n k m : Nat) : (s.raiseLearned n k m).flash = s.flash := by
  unfold State.raiseLearned
  split
  · rw [State.setFld_flash, State.setFld_flash, State.holdWord_flash]
  · rfl

theorem State.raiseLearned_fld {n k : Nat} {g : Fld} (m : Nat) (hL : (learnedFld n k).apart g = true)
    (hE : (Reg.FUR_EVENT_T_EXCEED n).apart g = true) : (s.raiseLearned n k m).fld g = s.fld g := by
  unfold State.raiseLearned
  split
  · rw [State.fld_setFld_apart _ _ _ _ hE, State.fld_setFld_apart _ _ _ _ hL, State.holdWord_fld]
  · rfl

theorem within_countMaximum {P : List Part} {R : List Nat} (n k m : Nat) (hP : Part.flash ∈ P) : Within P R s (s.countMaximum n k m) :=
  within_onFlash s _ hP

/-! A measurement that does not saturate changes the die's maxima and, with AUTO_RAISE, the learned time. -/

section
variable {n k m : Nat} (h : unsaturated n k m)
include h

theorem within_measure {P : List Part} {R : List Nat} (hF : Part.flash ∈ P) (hE : Part.edgeRegs ∈ P) (hL : (learnedFld n k).addr ∈ R)
    (hR : Reg.FUR_EVENT n ∈ R) : Within P R s (s.measure n k m) := by
  rw [State.measure_unsaturated s h]
  exact within_trans (within_countMaximum s n k m hF) (within_raiseLearned _ n k m hE hL hR)

theorem State.measure_flash : (s.measure n k m).flash = (s.countMaximum n k m).flash := by
  rw [State.measure_unsaturated s h, State.raiseLearned_flash]

theorem State.measure_die : ∃ x, (s.measure n k m).die n = { s.die n with maxima := x } := by
  rw [State.die_of_flash _ (State.measure_flash s h), State.countMaximum, State.onDie_die]
  exact ⟨_, rfl⟩

theorem State.klook_measure_ne {i : Nat} (hi : i ≠ n) : klook i (s.measure n k m).flash.dies = klook i s.flash.dies := by
  rw [State.measure_flash s h]
  exact State.klook_onDie_ne s _ hi

end

/-! ### A read ends (R152, R161) -/

section
variable {n : Nat}

theorem apart_fur_sr : (Reg.FUR_STATUS_STATE n).apart (Reg.FUR_STATUS_SR n) = true ∧ (Reg.FUR_STATUS_SR n).apart (Reg.FUR_STATUS_STATE n) = true := by
  simp [Fld.apart, Reg.FUR_STATUS_STATE, Reg.FUR_STATUS_SR]

/-- The poll that shows a read ready, before its time is measured: the status byte is latched and the die is idle. -/
def State.readPolled (n sr : Nat) : State := ((s.setFld (Reg.FUR_STATUS_SR n) sr).onDie n fun d => { d with busy := none }).setFur n 3

theorem State.dieReady_idle (h : (s.die n).busy = none) (fail : Bool) (sr : Nat) : s.dieReady n fail sr = s := by
  rw [State.dieReady, h]

theorem State.dieReady_read {since : Nat} (h : (s.die n).busy = some (.read, since)) (fail : Bool) (sr : Nat) :
    s.dieReady n fail sr = (s.readPolled n sr).measure n 0 (s.turn - since) := by
  rw [State.dieReady, h]
  rfl

theorem within_readPolled (sr : Nat) : Within [.flash] [Reg.FUR_STATUS n] s (s.readPolled n sr) :=
  within_trans (within_trans (within_setFld s sr (List.mem_singleton_self _)) (within_onFlash _ _ (List.mem_singleton_self _)))
    (within_setFur _ n 3 (List.mem_singleton_self _))

theorem State.readPolled_die (sr : Nat) : (s.readPolled n sr).die n = { s.die n with busy := none } := by
  rw [State.readPolled, State.die_of_flash _ (State.setFur_flash _ n 3), State.onDie_die, State.setFld_die]

theorem State.klook_readPolled_ne {m : Nat} (sr : Nat) (h : m ≠ n) :
    klook m (s.readPolled n sr).flash.dies = klook m s.flash.dies := by
  rw [State.readPolled, State.setFur_flash, State.klook_onDie_ne _ _ h, State.setFld_flash]

theorem State.readPolled_sr (sr : Byte) : (s.readPolled n sr.toNat).fld (Reg.FUR_STATUS_SR n) = sr.toNat := by
  rw [State.readPolled, State.setFur_fld _ _ _ apart_fur_sr.1]
  exact (State.fld_setFld_same s _ _ (show 8 + 8 ≤ 32 by decide)).trans (Nat.mod_eq_of_lt sr.isLt)

theorem State.readPolled_state (sr : Nat) (h : ¬s.furStands n) : (s.readPolled n sr).fld (Reg.FUR_STATUS_STATE n) = 3 := by
  have kept : (s.setFld (Reg.FUR_STATUS_SR n) sr).fld (Reg.FUR_STATUS_STATE n) = s.fld (Reg.FUR_STATUS_STATE n) :=
    State.fld_setFld_apart s _ _ _ apart_fur_sr.2
  refine State.setFur_state _ 3 (fun stands => h ?_) (by decide)
  unfold State.furStands at stands
  rwa [show ((s.setFld (Reg.FUR_STATUS_SR n) sr).onDie n _).fld (Reg.FUR_STATUS_STATE n) = _ from kept] at stands

/-- A read whose time does not saturate the measurement. -/
theorem dieReady_read_unsaturated (d : Fin 1024) {since : Nat} (h : (s.die d).busy = some (.read, since)) (fail : Bool) (sr : Byte)
    (hu : unsaturated d 0 (s.turn - since)) :
    Changes (.dieReady d fail sr) s [.edgeRegs, .flash] [Reg.FUR_STATUS d, Reg.FUR_EVENT d, (learnedFld d 0).addr] fun t =>
      (t.die d).busy = none ∧ (t.die d).page = (s.die d).page ∧ (t.die d).hold = (s.die d).hold ∧
        (∀ n, n ≠ d.val → klook n t.flash.dies = klook n s.flash.dies) ∧ t.fld (Reg.FUR_STATUS_SR d) = sr.toNat ∧
        (¬s.furStands d → t.fld (Reg.FUR_STATUS_STATE d) = 3) := by
  have low := learnedFld_addr_lt d.isLt 0
  have fur := furCfg_le d
  have measured : Within [.edgeRegs, .flash] [Reg.FUR_EVENT d, (learnedFld d 0).addr] (s.readPolled d sr.toNat)
      ((s.readPolled d sr.toNat).measure d 0 (s.turn - since)) := within_measure _ hu (by simp) (by simp) (by simp) (by simp)
  have status : Reg.FUR_STATUS d ∉ [Reg.FUR_EVENT d, (learnedFld d 0).addr] := by
    have : Reg.FUR_STATUS d ≠ Reg.FUR_EVENT d := by simp [Reg.FUR_STATUS, Reg.FUR_EVENT]
    simp only [List.mem_cons, List.not_mem_nil, or_false, not_or]
    omega
  obtain ⟨maxima, die⟩ := State.measure_die (s.readPolled d sr.toNat) hu
  rw [s.readPolled_die] at die
  refine changes_of (congrArg Host.Outcome.next (s.dieReady_read h fail sr.toNat))
    (within_trans (within_mono (within_readPolled s _) (by simp) (by simp)) (within_mono measured (List.Subset.refl _) (by simp))) ?_
  refine ⟨?_, ?_, ?_, fun i hi => (State.klook_measure_ne _ hu hi).trans (s.klook_readPolled_ne _ hi),
    (within_fld measured status).trans (s.readPolled_sr sr), fun hf => (within_fld measured status).trans (s.readPolled_state _ hf)⟩ <;>
    rw [die]

/-! ### A read whose time saturates sets the die failing (R161) -/

theorem foldl_fdpEvent_keeps (l : List FormeBlock) : (l.foldl (fun s f => s.fdpEvent 0 f.handle) s).regs = s.regs ∧
    (l.foldl (fun s f => s.fdpEvent 0 f.handle) s).flash = s.flash := by
  induction l generalizing s with
  | nil => exact ⟨rfl, rfl⟩
  | cons f l ih =>
    obtain ⟨hr, hf⟩ := ih (s.fdpEvent 0 f.handle)
    have step : (s.fdpEvent 0 f.handle).regs = s.regs ∧ (s.fdpEvent 0 f.handle).flash = s.flash := by
      unfold State.fdpEvent
      split <;> exact ⟨rfl, rfl⟩
    exact ⟨hr.trans step.1, hf.trans step.2⟩

theorem State.dropPlans_regs (p : FormePlan → Bool) : (s.dropPlans p).regs = s.regs := (rfl)

theorem State.dropPlans_dies (p : FormePlan → Bool) : (s.dropPlans p).flash.dies = s.flash.dies := (rfl)

/-- The close of forme-blocks touches no register and no die. -/
theorem State.closeFormeBlocks_keeps (p : FormeBlock → Bool) (v : Nat) :
    (s.closeFormeBlocks p v).regs = s.regs ∧ (s.closeFormeBlocks p v).flash.dies = s.flash.dies := by
  unfold State.closeFormeBlocks
  extract_lets hit close short t
  obtain ⟨hr, hf⟩ := foldl_fdpEvent_keeps s short
  rw [State.dropPlans_regs, State.dropPlans_dies]
  exact ⟨hr, (congrArg Flash.dies hf :)⟩

/-- A forme-block that holds a member block of the test's kind is closed, and a victim of class 1 unless it is being erased. -/
theorem State.closeFormeBlocks_closed (q : MBlock → Bool) {f : FormeBlock}
    (hf : f ∈ (s.closeFormeBlocks (fun f => f.has q) 1).flash.formeBlocks) (hq : f.has q = true) :
    f.isOpen = false ∧ (f.victim = 1 ∨ f.victim = 9) := by
  obtain ⟨g, hg, rfl⟩ := List.mem_map.1 hf
  rcases mem_updIf hg with ⟨x, -, -, rfl⟩ | ⟨-, hn⟩
  · refine ⟨rfl, ?_⟩
    show (if 1 = 0 || x.victim = 9 then x.victim else 1) = 1 ∨ (if 1 = 0 || x.victim = 9 then x.victim else 1) = 9
    by_cases h9 : x.victim = 9 <;> simp [h9]
  · exact absurd (hq.symm.trans hn) (by decide)

theorem State.failDie_inService (h : s.fld (Reg.SLU_DIE_STATE_STATE n) = 0) :
    s.failDie n = (((s.holdWord (Reg.SLU_DIE_STATE n)).setFld (Reg.SLU_DIE_STATE_STATE n) 1).setFld
      (Reg.FUR_STATUS_STATE n) 0xA).closeFormeBlocks (fun f => f.has fun m => m.die == n) 1 := by
  rw [State.failDie, if_neg (by simp [h]), State.setDieState, if_neg (by simp [h])]
  rfl

theorem State.failDie_dies (h : s.fld (Reg.SLU_DIE_STATE_STATE n) = 0) : (s.failDie n).flash.dies = s.flash.dies := by
  obtain ⟨-, dies⟩ := State.closeFormeBlocks_keeps (((s.holdWord (Reg.SLU_DIE_STATE n)).setFld (Reg.SLU_DIE_STATE_STATE n) 1).setFld
    (Reg.FUR_STATUS_STATE n) 0xA) (fun f => f.has fun m => m.die == n) 1
  rw [State.failDie_inService s h, dies, State.setFld_flash, State.setFld_flash, State.holdWord_flash]

/-- A field of a die that fails, by the register writes of its failure alone. -/
theorem State.failDie_fld (h : s.fld (Reg.SLU_DIE_STATE_STATE n) = 0) (g : Fld) : (s.failDie n).fld g =
    (((s.holdWord (Reg.SLU_DIE_STATE n)).setFld (Reg.SLU_DIE_STATE_STATE n) 1).setFld (Reg.FUR_STATUS_STATE n) 0xA).fld g := by
  obtain ⟨regs, -⟩ := State.closeFormeBlocks_keeps (((s.holdWord (Reg.SLU_DIE_STATE n)).setFld (Reg.SLU_DIE_STATE_STATE n) 1).setFld
    (Reg.FUR_STATUS_STATE n) 0xA) (fun f => f.has fun m => m.die == n) 1
  rw [State.failDie_inService s h, State.fld, State.word, regs, State.fld, State.word]

theorem State.failDie_state (hn : n < 1024) (h : s.fld (Reg.SLU_DIE_STATE_STATE n) = 0) :
    (s.failDie n).fld (Reg.SLU_DIE_STATE_STATE n) = 1 := by
  have apart : (Reg.FUR_STATUS_STATE n).apart (Reg.SLU_DIE_STATE_STATE n) = true := by
    simp only [Fld.apart, Reg.FUR_STATUS_STATE, Reg.SLU_DIE_STATE_STATE, Reg.FUR_STATUS, Reg.SLU_DIE_STATE, Bool.or_eq_true, bne_iff_ne]
    omega
  rw [State.failDie_fld s h, State.fld_setFld_apart _ _ _ _ apart, State.fld_setFld_same _ _ _ (show 0 + 2 ≤ 32 by decide)]
  rfl

theorem State.failDie_event (hn : n < 1024) (h : s.fld (Reg.SLU_DIE_STATE_STATE n) = 0) :
    (s.failDie n).fld (Reg.FUR_EVENT_SAT n) = s.fld (Reg.FUR_EVENT_SAT n) := by
  have apart : (Reg.FUR_STATUS_STATE n).apart (Reg.FUR_EVENT_SAT n) = true ∧
      (Reg.SLU_DIE_STATE_STATE n).apart (Reg.FUR_EVENT_SAT n) = true := by
    simp only [Fld.apart, Reg.FUR_STATUS_STATE, Reg.SLU_DIE_STATE_STATE, Reg.FUR_EVENT_SAT, Reg.FUR_STATUS, Reg.SLU_DIE_STATE,
      Reg.FUR_EVENT, Bool.or_eq_true, bne_iff_ne]
    omega
  rw [State.failDie_fld s h, State.fld_setFld_apart _ _ _ _ apart.1, State.fld_setFld_apart _ _ _ _ apart.2, State.holdWord_fld]

theorem apart_learned_state : (learnedFld n 0).apart (Reg.SLU_DIE_STATE_STATE n) = true := by
  simp only [Fld.apart, learnedFld, Reg.SLU_DIE_TIME_A_T_R, Reg.SLU_DIE_TIME_A, Reg.SLU_DIE_STATE_STATE, Reg.SLU_DIE_STATE, Bool.or_eq_true,
    bne_iff_ne]
  omega

theorem apart_event_state (hn : n < 1024) : (Reg.FUR_EVENT_T_EXCEED n).apart (Reg.SLU_DIE_STATE_STATE n) = true := by
  simp only [Fld.apart, Reg.FUR_EVENT_T_EXCEED, Reg.FUR_EVENT, Reg.SLU_DIE_STATE_STATE, Reg.SLU_DIE_STATE, Bool.or_eq_true, bne_iff_ne]
  omega

theorem apart_learned_event (hn : n < 1024) : (learnedFld n 0).apart (Reg.FUR_EVENT_SAT n) = true := by
  have low := learnedFld_addr_lt hn 0
  have fur := furCfg_le n
  have : (learnedFld n 0).addr ≠ Reg.FUR_EVENT n := by omega
  simp [Fld.apart, Reg.FUR_EVENT_SAT, this]

theorem apart_exceed_sat : (Reg.FUR_EVENT_T_EXCEED n).apart (Reg.FUR_EVENT_SAT n) = true := by
  simp [Fld.apart, Reg.FUR_EVENT_T_EXCEED, Reg.FUR_EVENT_SAT]

/-- A read whose time saturates the measurement. -/
theorem dieReady_read_saturated (d : Fin 1024) {since : Nat} (h : (s.die d).busy = some (.read, since)) (fail : Bool) (sr : Byte)
    (hu : ¬unsaturated d 0 (s.turn - since)) (service : s.fld (Reg.SLU_DIE_STATE_STATE d) = 0) :
    Completes (.dieReady d fail sr) s fun t => (t.die d).busy = none ∧ t.fld (Reg.SLU_DIE_STATE_STATE d) = 1 ∧
      t.fld (Reg.FUR_EVENT_SAT d) = 1 ∧ ∀ f ∈ t.flash.formeBlocks, (f.has fun m => m.die == d.val) = true →
        f.isOpen = false ∧ (f.victim = 1 ∨ f.victim = 9) := by
  refine completes_of (congrArg Host.Outcome.next ((s.dieReady_read h fail sr.toNat).trans (State.measure_saturated _ hu))) ?_
  generalize hx : ((s.readPolled d sr.toNat).countMaximum d 0 (s.turn - since)).setFld (Reg.FUR_EVENT_SAT d) 1 = x
  have inService : x.fld (Reg.SLU_DIE_STATE_STATE d) = 0 := by
    have polled : Within [.flash] [Reg.FUR_STATUS d, Reg.FUR_EVENT d] s x := hx ▸ within_trans
      (within_trans (within_mono (within_readPolled s _) (by simp) (by simp)) (within_countMaximum _ d 0 _ (by simp)))
      (within_setFld _ 1 (List.mem_cons_of_mem _ (List.mem_singleton_self _)))
    refine (within_fld polled ?_).trans service
    simp only [Reg.SLU_DIE_STATE_STATE, Reg.SLU_DIE_STATE, Reg.FUR_STATUS, Reg.FUR_EVENT, List.mem_cons, List.not_mem_nil, or_false, not_or]
    omega
  have event : x.fld (Reg.FUR_EVENT_SAT d) = 1 := by
    rw [← hx, State.fld_setFld_same _ _ _ (show 4 + 1 ≤ 32 by decide)]
    rfl
  have idle : (x.die d).busy = none := by
    rw [← hx, State.setFld_die, State.countMaximum, State.onDie_die, State.readPolled_die]
  refine ⟨?_, ?_, ?_, fun f hf hq => ?_⟩
  · rw [State.die, State.raiseLearned_flash, State.failDie_dies _ inService]
    exact idle
  · rw [State.raiseLearned_fld _ _ apart_learned_state (apart_event_state d.isLt), State.failDie_state _ d.isLt inService]
  · rw [State.raiseLearned_fld _ _ (apart_learned_event d.isLt) apart_exceed_sat, State.failDie_event _ d.isLt inService, event]
  · rw [State.raiseLearned_flash, State.failDie_inService _ inService] at hf
    exact State.closeFormeBlocks_closed _ _ hf hq

/-! ### A program or an erase ends (R36, R152, R156) -/

theorem State.endHold_flash : (s.endHold n).flash =
    { s.flash with dies := kput n { s.die n with busy := none, hold := none, page := none } s.flash.dies } := by
  rw [State.endHold, State.setFlds_flash, State.setFur_flash]
  rfl

theorem State.endHold_turn : (s.endHold n).turn = s.turn := by
  rw [State.endHold, State.setFlds_turn, State.setFur_turn]
  rfl

theorem State.endHold_die : (s.endHold n).die n = { s.die n with busy := none, hold := none, page := none } := by
  rw [State.die, State.endHold_flash, klook_kput_self, Option.getD_some]

theorem State.klook_endHold_ne {i : Nat} (h : i ≠ n) : klook i (s.endHold n).flash.dies = klook i s.flash.dies := by
  rw [State.endHold_flash]
  exact klook_kput_ne _ _ h

theorem within_endHold {P : List Part} {R : List Nat} (hP : Part.flash ∈ P) (hS : Reg.FUR_STATUS n ∈ R) (hC : Reg.FUR_SUSP_CNT n ∈ R) :
    Within P R s (s.endHold n) :=
  within_trans (within_trans (within_onFlash s _ hP) (within_setFur _ n 1 hS))
    (within_setFlds _ (by simp [Reg.FUR_STATUS_HOLD, Reg.FUR_STATUS_HOLD_SUSP, Reg.FUR_SUSP_CNT_COUNT, hS, hC]))

/-- A hold of die `n` has ended from `s` to `t`: the die is idle, the rest of the flash is as it was, and no register changed but the
furrow's and the learned time `k`. -/
structure HoldEnded (n k : Nat) (s t : State) : Prop where
  busy : (t.die n).busy = none
  hold : (t.die n).hold = none
  others : ∀ i, i ≠ n → klook i t.flash.dies = klook i s.flash.dies
  rest : t.flash = { s.flash with dies := t.flash.dies }
  within : Within [.edgeRegs, .flash] [Reg.FUR_STATUS n, Reg.FUR_EVENT n, Reg.FUR_SUSP_CNT n, (learnedFld n k).addr] s t

/-- The poll that shows a program or an erase ready latches the status byte and ends the hold. -/
theorem holdEnded_endHold (k sr : Nat) : HoldEnded n k s ((s.setFld (Reg.FUR_STATUS_SR n) sr).endHold n) where
  busy := by rw [State.endHold_die]
  hold := by rw [State.endHold_die]
  others _ hi := State.klook_endHold_ne _ hi
  rest := by rw [State.endHold_flash, State.setFld_flash]
  within := within_trans (within_setFld s sr (List.mem_cons_self ..)) (within_endHold _ (by simp) (by simp) (by simp))

theorem holdEnded_measure {k m : Nat} {t : State} (h : HoldEnded n k s t) (hu : unsaturated n k m) : HoldEnded n k s (t.measure n k m) := by
  obtain ⟨maxima, die⟩ := State.measure_die t hu
  exact {
    busy := by rw [die]; exact h.busy
    hold := by rw [die]; exact h.hold
    others := fun i hi => (State.klook_measure_ne t hu hi).trans (h.others i hi)
    rest := by rw [State.measure_flash t hu, State.countMaximum, State.onDie, State.onFlash_flash, h.rest]
    within := within_trans h.within (within_measure t hu (by simp) (by simp) (by simp) (by simp)) }

/-- A plan whose member has just been programmed: the member waits for its proof read (R36). -/
theorem State.programEnd_ready (h : DieHold) {p : FormePlan} (hp : p ∈ (s.programEnd n h false).flash.plans) (hid : p.id = h.plan)
    {m : FormeMember} (hm : m ∈ p.members) (hd : m.die = n) (hb : m.block = h.block) : m.stage = .ready := by
  rcases mem_updIf hp with ⟨q, -, -, rfl⟩ | ⟨-, hn⟩
  · rcases mem_updIf hm with ⟨x, -, -, rfl⟩ | ⟨-, hx⟩
    · rfl
    · simp [hd, hb] at hx
  · simp [hid] at hn

/-- A program that passed. -/
theorem dieReady_program (d : Fin 1024) {since : Nat} {h : DieHold} (sr : Byte) (hb : (s.die d).busy = some (.program, since))
    (hh : (s.die d).hold = some h) (hu : unsaturated d 3 (s.turn - h.since - h.excluded)) :
    Changes (.dieReady d false sr) s [.edgeRegs, .flash] [Reg.FUR_STATUS d, Reg.FUR_EVENT d, Reg.FUR_SUSP_CNT d, (learnedFld d 3).addr] fun t =>
      (t.die d).busy = none ∧ (t.die d).hold = none ∧ (∀ n, n ≠ d.val → klook n t.flash.dies = klook n s.flash.dies) ∧
        t.flash.units = s.flash.units ∧
        ∀ p ∈ t.flash.plans, p.id = h.plan → ∀ m ∈ p.members, m.die = d → m.block = h.block → m.stage = .ready := by
  have ended := holdEnded_measure s (holdEnded_endHold s (n := d) 3 sr.toNat) hu
  have ready : s.dieReady d false sr.toNat = ((((s.setFld (Reg.FUR_STATUS_SR d) sr.toNat).endHold d).measure d 3
      (s.turn - h.since - h.excluded)).programEnd d h false) := by
    simp only [State.dieReady, hb, State.setFld_die, hh]
    rfl
  refine changes_of (congrArg Host.Outcome.next ready) (within_trans ended.within (within_onFlash _ _ (by simp)))
    ⟨ended.busy, ended.hold, ended.others, ?_, fun p hp hid m hm => State.programEnd_ready _ h hp hid hm⟩
  exact (congrArg Flash.units ended.rest :)

/-! An erase that passes in a block of no forme-block (R156). -/

/-- The die's blocks, units and freed list after an erase that passed. -/
theorem State.erasePass_eq {block : Nat} (h : s.fbOf n block = none) : s.erasePass n block =
    ((((s.poke (s.rdAddr n block) 4 0).onFlash fun x =>
      { x with
        units := x.units.filter fun u => decide (u.1 < unitKey n block 0) || decide (unitKey n block 0 + 2 ^ 32 ≤ u.1)
        freed := ⟨n, block⟩ :: x.freed }).onBlock n block fun b => { b with erases := b.erases + 1, probes := 0, mismatch := none }).onNv
      fun v => { v with wear := { v.wear with used := v.wear.used + 1, lastRot := v.wear.lastRot + 1 } }) := by
  rw [State.erasePass, h]

theorem within_erased {R : List Nat} {block : Nat} (h : s.fbOf n block = none) :
    Within [.flash, .bytes, .nv] R s ((s.erasePass n block).dropMember n block) := by
  rw [State.erasePass_eq s h]
  exact within_trans (within_trans (within_trans (within_trans
    (within_of_frame (frame_poke s _ 4 0) (by simp) (by simp)) (within_onFlash _ _ (by simp))) (within_onFlash _ _ (by simp)))
    (within_onNv _ _ (by simp))) (within_onFlash _ _ (by simp))

/-- What the erase of a block leaves: it is freed in the next turn, with no units and one more erase, its read counter is 0, and the
wear budget has one erase less. -/
structure Erased (n block : Nat) (s t : State) : Prop where
  freed : t.flash.freed = ⟨n, block⟩ :: s.flash.freed
  erases : (t.blockInfo n block).erases = (s.blockInfo n block).erases + 1
  reads : t.peek (s.rdAddr n block) 4 = 0
  wear : t.nv.wear.used = s.nv.wear.used + 1
  units : ∀ u ∈ t.flash.units, u.1 < unitKey n block 0 ∨ unitKey n block 0 + 2 ^ 32 ≤ u.1

theorem erased_erasePass {block : Nat} (h : s.fbOf n block = none) : Erased n block s ((s.erasePass n block).dropMember n block) := by
  rw [State.erasePass_eq s h]
  exact {
    freed := rfl
    erases := congrArg (fun b => (b.getD ({} : BlockInfo)).erases) (klook_kput_self _ _ _)
    reads := s.peek_poke_same _ 4 0
    wear := rfl
    units := fun u hu => by simpa using (List.mem_filter.1 hu).2 }

theorem State.erasePass_dies {block : Nat} (h : s.fbOf n block = none) :
    ((s.erasePass n block).dropMember n block).flash.dies = s.flash.dies := by
  rw [State.erasePass_eq s h]
  rfl

section
variable {s} {k block : Nat} {t : State} (hd : HoldEnded n k s t)
include hd

theorem fbOf_holdEnded : t.fbOf n block = s.fbOf n block := by rw [State.fbOf, hd.rest, State.fbOf]

/-- The end of a hold moves no read counter. -/
theorem rdAddr_holdEnded (hn : n < 1024) : t.rdAddr n block = s.rdAddr n block := by
  have low := learnedFld_addr_lt hn k
  have base : t.fld Reg.LDP_RD_BASE_BASE_MIB = s.fld Reg.LDP_RD_BASE_BASE_MIB := within_fld hd.within (by
    simp only [Reg.LDP_RD_BASE_BASE_MIB, Reg.LDP_RD_BASE, Reg.FUR_STATUS, Reg.FUR_EVENT, Reg.FUR_SUSP_CNT, Reg.FUR_CFG, List.mem_cons,
      List.not_mem_nil, or_false, not_or] at low ⊢
    omega)
  have blocks : t.fld (Reg.FCE_GEOM_B_BLOCKS_PER_PLANE 0) = s.fld (Reg.FCE_GEOM_B_BLOCKS_PER_PLANE 0) := within_fld hd.within (by
    have apart : (learnedFld n k).addr ≠ Reg.FCE_GEOM_B 0 := by
      unfold learnedFld
      split <;> simp only [Reg.SLU_DIE_TIME_A_T_R, Reg.SLU_DIE_TIME_A_T_SUSP_P, Reg.SLU_DIE_TIME_A_T_SUSP_E, Reg.SLU_DIE_TIME_B_T_PROG,
        Reg.SLU_DIE_TIME_B_T_ERS, Reg.SLU_DIE_TIME_A, Reg.SLU_DIE_TIME_B, Reg.FCE_GEOM_B] <;> omega
    simp only [Reg.FCE_GEOM_B_BLOCKS_PER_PLANE, Reg.FCE_GEOM_B, Reg.FUR_STATUS, Reg.FUR_EVENT, Reg.FUR_SUSP_CNT, List.mem_cons,
      List.not_mem_nil, or_false, not_or] at apart ⊢
    omega)
  rw [State.rdAddr, base, blocks, State.rdAddr]

/-- An erase from the state in which a hold has ended is an erase from the state before it. -/
theorem erased_of_holdEnded {u : State} (hn : n < 1024) (h : Erased n block t u) : Erased n block s u where
  freed := h.freed.trans (by rw [hd.rest])
  erases := by rw [h.erases, State.blockInfo, hd.rest, State.blockInfo]
  reads := by rw [← rdAddr_holdEnded hd hn, h.reads]
  wear := by
    have nv : t.nv = s.nv := hd.within.1 .nv (by decide)
    rw [h.wear, nv]
  units := h.units

end

/-- An erase that passed in a block of no forme-block. -/
theorem dieReady_erase (d : Fin 1024) {since : Nat} {h : DieHold} (sr : Byte) (hb : (s.die d).busy = some (.erase, since))
    (hh : (s.die d).hold = some h) (hf : s.fbOf d h.block = none) (hu : h.suspends = 0 → unsaturated d 4 (s.turn - h.since)) :
    Changes (.dieReady d false sr) s [.edgeRegs, .flash, .bytes, .nv]
      [Reg.FUR_STATUS d, Reg.FUR_EVENT d, Reg.FUR_SUSP_CNT d, (learnedFld d 4).addr] fun t =>
      (t.die d).busy = none ∧ (t.die d).hold = none ∧ Erased d h.block s t := by
  have held := holdEnded_endHold s (n := d) 4 sr.toNat
  obtain ⟨t, ht, ended⟩ : ∃ t, s.dieReady d false sr.toNat = t.eraseEnd d h false ∧ HoldEnded d 4 s t := by
    have ready : s.dieReady d false sr.toNat = (if h.suspends = 0 then
        ((s.setFld (Reg.FUR_STATUS_SR d) sr.toNat).endHold d).measure d 4 (s.turn - h.since)
        else (s.setFld (Reg.FUR_STATUS_SR d) sr.toNat).endHold d).eraseEnd d h false := by
      simp only [State.dieReady, hb, State.setFld_die, hh]
      rw [State.endHold_turn]
      rfl
    by_cases h0 : h.suspends = 0
    · rw [if_pos h0] at ready
      exact ⟨_, ready, holdEnded_measure s held (hu h0)⟩
    · rw [if_neg h0] at ready
      exact ⟨_, ready, held⟩
  have alone : t.fbOf d h.block = none := (fbOf_holdEnded ended).trans hf
  have dies := State.erasePass_dies t alone
  refine changes_of (congrArg Host.Outcome.next ht) (within_trans (within_mono ended.within (by simp) (List.Subset.refl _))
    (within_mono (within_erased t alone) (by simp) (List.Subset.refl _))) ⟨?_, ?_, erased_of_holdEnded ended d.isLt (erased_erasePass t alone)⟩
  · show (State.die ((t.erasePass d h.block).dropMember d h.block) d).busy = none
    rw [State.die, dies]
    exact ended.busy
  · show (State.die ((t.erasePass d h.block).dropMember d h.block) d).hold = none
    rw [State.die, dies]
    exact ended.hold

/-! ### Timeouts and LUN resets (R154) -/

theorem State.statusTimeout_early (h : s.opAge n < s.opLimit n) : s.statusTimeout n = s := by
  rw [State.statusTimeout, if_pos (by simp [h])]

/-- An operation has timed out: its die is reset, and the furrow reports and counts it. -/
def State.timedOut (n : Nat) : State :=
  (((((s.endHold n).onDie n fun d => { d with busy := some (.reset, s.turn), sent := some { op := .lunReset } }).setFur n 9).addFld
    (Reg.FUR_TIMEOUT_ROT n) 1).addFld (Reg.FUR_TIMEOUT_TOTAL n) 1).setFld (Reg.FUR_EVENT_TIMEOUT n) 1

/-- The die is out of plan from the next turn. -/
def State.dieOut (n : Nat) : State :=
  s.onSluice fun x => { x with diesOut := (n, s.turn + 1, none) :: x.diesOut.filter fun o => o.1 != n }

@[simp] theorem State.dieOut_flash (n : Nat) : (s.dieOut n).flash = s.flash := (rfl)

@[simp] theorem State.dieOut_fld (n : Nat) (g : Fld) : (s.dieOut n).fld g = s.fld g := (rfl)

/-- The third timeout of a rotation stops the furrow. -/
def State.stopThird (n : Nat) : State :=
  if s.fld (Reg.FUR_TIMEOUT_ROT n) = 3 then (s.setFld (Reg.FUR_EVENT_THIRD_TIMEOUT n) 1).onDie n fun d => { d with stopped := true } else s

theorem State.statusTimeout_due (hb : (s.die n).busy.isSome = true) (hh : (s.die n).hold = none) (h : s.opLimit n ≤ s.opAge n) :
    s.statusTimeout n = ((s.timedOut n).dieOut n).stopThird n := by
  have due : ¬((s.die n).busy.isNone || decide (s.opAge n < s.opLimit n)) = true := by
    simp [Nat.not_lt.2 h, Option.isSome_iff_ne_none.1 hb]
  rw [State.statusTimeout, if_neg due, hh]
  rfl

/-- The die after its operation has timed out. -/
def State.resetDie (n : Nat) : Die :=
  { s.die n with busy := some (.reset, s.turn), hold := none, page := none, sent := some { op := .lunReset } }

theorem State.timedOut_flash : (s.timedOut n).flash = ((s.endHold n).onDie n fun d =>
    { d with busy := some (.reset, s.turn), sent := some { op := .lunReset } }).flash := by
  rw [State.timedOut, State.setFld_flash, State.addFld_flash, State.addFld_flash, State.setFur_flash]

theorem State.timedOut_die : (s.timedOut n).die n = s.resetDie n := by
  rw [State.die_of_flash _ s.timedOut_flash, State.onDie_die, State.endHold_die]
  rfl

theorem State.klook_timedOut_ne {i : Nat} (h : i ≠ n) : klook i (s.timedOut n).flash.dies = klook i s.flash.dies := by
  rw [s.timedOut_flash, State.klook_onDie_ne _ _ h, State.klook_endHold_ne s h]

theorem State.timedOut_turn : (s.timedOut n).turn = s.turn := by
  rw [State.timedOut, State.setFld_turn, State.addFld_turn, State.addFld_turn, State.setFur_turn, State.onDie_turn,
    State.endHold_turn]

theorem within_timedOut : Within [.flash] [Reg.FUR_STATUS n, Reg.FUR_EVENT n, Reg.FUR_SUSP_CNT n, Reg.FUR_TIMEOUT n] s (s.timedOut n) :=
  within_trans (within_trans (within_trans (within_trans (within_trans (within_endHold s (by simp) (by simp) (by simp))
    (within_onFlash _ _ (by simp))) (within_setFur _ n 9 (by simp))) (within_addFld _ 1 (by simp [Reg.FUR_TIMEOUT_ROT])))
    (within_addFld _ 1 (by simp [Reg.FUR_TIMEOUT_TOTAL]))) (within_setFld _ 1 (by simp [Reg.FUR_EVENT_TIMEOUT]))

theorem State.timedOut_event : (s.timedOut n).fld (Reg.FUR_EVENT_TIMEOUT n) = 1 :=
  State.fld_setFld_same _ _ _ (show 1 + 1 ≤ 32 by decide)

/-- The count of the rotation's timeouts, which saturates at its width. -/
theorem State.timedOut_count : (s.timedOut n).fld (Reg.FUR_TIMEOUT_ROT n) =
    min (2 ^ (Reg.FUR_TIMEOUT_ROT n).width - 1) (s.fld (Reg.FUR_TIMEOUT_ROT n) + 1) := by
  have event : (Reg.FUR_EVENT_TIMEOUT n).apart (Reg.FUR_TIMEOUT_ROT n) = true := by
    simp [Fld.apart, Reg.FUR_EVENT_TIMEOUT, Reg.FUR_TIMEOUT_ROT, Reg.FUR_EVENT, Reg.FUR_TIMEOUT]
  have total : (Reg.FUR_TIMEOUT_TOTAL n).apart (Reg.FUR_TIMEOUT_ROT n) = true := by
    simp [Fld.apart, Reg.FUR_TIMEOUT_TOTAL, Reg.FUR_TIMEOUT_ROT]
  have before : (((s.endHold n).onDie n fun d => { d with busy := some (.reset, s.turn), sent := some { op := .lunReset } }).setFur n 9).fld
      (Reg.FUR_TIMEOUT_ROT n) = s.fld (Reg.FUR_TIMEOUT_ROT n) := by
    have kept : Within [.flash] [Reg.FUR_STATUS n, Reg.FUR_SUSP_CNT n] s (((s.endHold n).onDie n fun d =>
        { d with busy := some (.reset, s.turn), sent := some { op := .lunReset } }).setFur n 9) :=
      within_trans (within_trans (within_endHold s (by simp) (by simp) (by simp)) (within_onFlash _ _ (by simp))) (within_setFur _ n 9 (by simp))
    exact within_fld kept (by simp [Reg.FUR_TIMEOUT_ROT, Reg.FUR_TIMEOUT, Reg.FUR_STATUS, Reg.FUR_SUSP_CNT])
  rw [State.timedOut, State.fld_setFld_apart _ _ _ _ event, State.addFld, State.fld_setFld_apart _ _ _ _ total, State.addFld, before,
    State.fld_setFld_same _ _ _ (show 0 + 2 ≤ 32 by decide)]
  exact Nat.mod_eq_of_lt (Nat.lt_of_le_of_lt (Nat.min_le_left _ _) (show 2 ^ 2 - 1 < 2 ^ 2 by decide))

theorem within_stopThird : Within [.flash] [Reg.FUR_EVENT n] s (s.stopThird n) :=
  within_ite (fun _ => within_trans (within_setFld s 1 (by simp [Reg.FUR_EVENT_THIRD_TIMEOUT])) (within_onFlash _ _ (by simp)))
    fun _ => within_refl _ _ s

theorem State.stopThird_count : (s.stopThird n).fld (Reg.FUR_TIMEOUT_ROT n) = s.fld (Reg.FUR_TIMEOUT_ROT n) :=
  within_fld (within_stopThird s) (by simp [Reg.FUR_TIMEOUT_ROT, Reg.FUR_TIMEOUT, Reg.FUR_EVENT])

theorem State.stopThird_event : (s.stopThird n).fld (Reg.FUR_EVENT_TIMEOUT n) = s.fld (Reg.FUR_EVENT_TIMEOUT n) := by
  unfold State.stopThird
  split
  · rw [State.onDie_fld, State.fld_setFld_apart s _ _ _ (by simp [Fld.apart, Reg.FUR_EVENT_THIRD_TIMEOUT, Reg.FUR_EVENT_TIMEOUT])]
  · rfl

theorem State.stopThird_third (h : s.fld (Reg.FUR_TIMEOUT_ROT n) = 3) :
    s.stopThird n = (s.setFld (Reg.FUR_EVENT_THIRD_TIMEOUT n) 1).onDie n fun d => { d with stopped := true } := if_pos h

theorem State.stopThird_busy : ((s.stopThird n).die n).busy = (s.die n).busy := by
  unfold State.stopThird
  split
  · rw [State.onDie_die, State.setFld_die]
  · rfl

theorem State.klook_stopThird_ne {i : Nat} (h : i ≠ n) : klook i (s.stopThird n).flash.dies = klook i s.flash.dies := by
  unfold State.stopThird
  split
  · rw [State.klook_onDie_ne _ _ h, State.setFld_flash]
  · rfl

/-- A timeout of an operation that has no hold. -/
theorem statusTimeout_due (d : Fin 1024) (hb : (s.die d).busy.isSome = true) (hh : (s.die d).hold = none) (h : s.opLimit d ≤ s.opAge d) :
    Changes (.statusTimeout d) s [.flash, .sluice] [Reg.FUR_STATUS d, Reg.FUR_EVENT d, Reg.FUR_SUSP_CNT d, Reg.FUR_TIMEOUT d] fun t =>
      (t.die d).busy = some (.reset, s.turn) ∧ (∀ n, n ≠ d.val → klook n t.flash.dies = klook n s.flash.dies) ∧
        (d.val, s.turn + 1, none) ∈ t.sluice.diesOut ∧ t.fld (Reg.FUR_EVENT_TIMEOUT d) = 1 ∧
        t.fld (Reg.FUR_TIMEOUT_ROT d) = min (2 ^ (Reg.FUR_TIMEOUT_ROT d).width - 1) (s.fld (Reg.FUR_TIMEOUT_ROT d) + 1) ∧
        (s.fld (Reg.FUR_TIMEOUT_ROT d) = 2 → (t.die d).stopped = true ∧ t.fld (Reg.FUR_EVENT_THIRD_TIMEOUT d) = 1) ∧
        (s.fld (Reg.FUR_TIMEOUT_ROT d) < 2 → (t.die d).stopped = (s.die d).stopped) := by
  have count : ((s.timedOut d).dieOut d).fld (Reg.FUR_TIMEOUT_ROT d) = min 3 (s.fld (Reg.FUR_TIMEOUT_ROT d) + 1) :=
    (State.dieOut_fld _ _ _).trans s.timedOut_count
  have die : ((s.timedOut d).dieOut d).die d = s.resetDie d := by rw [State.die_of_flash _ (State.dieOut_flash _ _), s.timedOut_die]
  refine changes_of (congrArg Host.Outcome.next (s.statusTimeout_due hb hh h)) (within_trans (within_trans
    (within_mono (within_timedOut s) (by simp) (List.Subset.refl _)) (within_onSluice _ _ (by simp)))
    (within_mono (within_stopThird _) (by simp) (by simp))) ⟨?_, fun i hi => ?_, ?_, ?_, ?_, fun h2 => ?_, fun h2 => ?_⟩
  · rw [State.stopThird_busy, die]
    rfl
  · rw [State.klook_stopThird_ne _ hi, State.dieOut_flash, s.klook_timedOut_ne hi]
  · have sluice : (((s.timedOut d).dieOut d).stopThird d).sluice = ((s.timedOut d).dieOut d).sluice := (within_stopThird _).1 .sluice (by decide)
    rw [sluice, ← s.timedOut_turn (n := d)]
    exact List.mem_cons_self ..
  · rw [State.stopThird_event, State.dieOut_fld, State.timedOut_event]
  · rw [State.stopThird_count, State.dieOut_fld, State.timedOut_count]
  · rw [State.stopThird_third _ (count.trans (by rw [h2]; rfl)), State.onDie_die, State.onDie_fld,
      State.fld_setFld_same _ _ _ (show 2 + 1 ≤ 32 by decide)]
    exact ⟨rfl, rfl⟩
  · rw [State.stopThird, if_neg (by rw [count]; omega), die]
    rfl

/-- The poll that shows a LUN reset ready: the die takes steps again from the next turn. -/
def State.resetPolled (n sr : Nat) : State :=
  (((s.setFld (Reg.FUR_STATUS_SR n) sr).onDie n fun d => { d with busy := none }).setFur n 1).onSluice fun x =>
    { x with diesOut := x.diesOut.map fun o =>
        if o.1 == n then (o.1, o.2.1, some (s.turn + 1)) else o }

theorem State.dieReady_reset {since : Nat} (h : (s.die n).busy = some (.reset, since)) (fail : Bool) (sr : Nat) :
    s.dieReady n fail sr = s.resetPolled n sr := by
  rw [State.dieReady, h]
  rfl

theorem exec_lunResetComplete (d : Fin 1024) {since : Nat} (h : (s.die d).busy = some (.reset, since)) :
    exec (.lunResetComplete d) s = .next (s.tookFree.resetPolled d (Config.freeNat s.free % 256)) := by
  show execLunResetComplete d s = _
  rw [execLunResetComplete, h]
  exact congrArg _ (State.dieReady_reset s.tookFree h false _)

theorem exec_lunResetComplete_other (d : Fin 1024) (h : ∀ since, (s.die d).busy ≠ some (.reset, since)) :
    exec (.lunResetComplete d) s = .next s := by
  show execLunResetComplete d s = _
  unfold execLunResetComplete
  split
  · exact absurd ‹_› (h _)
  · rfl

/-- The end of a LUN reset. -/
theorem lunResetComplete_ends (d : Fin 1024) {since : Nat} (h : (s.die d).busy = some (.reset, since)) :
    Changes (.lunResetComplete d) s [.flash, .sluice, .free] [Reg.FUR_STATUS d] fun t =>
      (t.die d).busy = none ∧ (∀ n, n ≠ d.val → klook n t.flash.dies = klook n s.flash.dies) ∧
        ∀ x ∈ t.sluice.diesOut, x.1 = d → x.2.2 = some (s.turn + 1) := by
  refine changes_of (exec_lunResetComplete s d h) (within_trans (within_trans (within_trans (within_trans
    (within_of_frame (frame_tookFree s) (by simp) (by simp)) (within_setFld _ _ (by simp [Reg.FUR_STATUS_SR])))
    (within_onFlash _ _ (by simp))) (within_setFur _ d 1 (by simp))) (within_onSluice _ _ (by simp))) ⟨?_, fun i hi => ?_, fun x hx hd => ?_⟩
  · rw [State.resetPolled, State.die, State.onSluice_flash, State.setFur_flash, State.klook_onDie, Option.getD_some]
  · rw [State.resetPolled, State.onSluice_flash, State.setFur_flash, State.klook_onDie_ne _ _ hi, State.setFld_flash]
    rfl
  · obtain ⟨o, -, rfl⟩ := List.mem_map.1 hx
    split_ifs at hd ⊢ with ho
    · rfl
    · exact absurd (beq_iff_eq.2 hd) ho

end

/-- Settles O37: the end of each operation and each timeout by a lemma above. -/
theorem diesReportAndTimeOut : Obligations.DiesReportAndTimeOut := by
  unfold Obligations.DiesReportAndTimeOut
  intro s d sr
  refine ⟨fun fail hb => congrArg Host.Outcome.next (s.dieReady_idle hb fail sr.toNat),
    fun fail since hb hu => dieReady_read_unsaturated s d hb fail sr hu,
    fun fail since hb hu hs => dieReady_read_saturated s d hb fail sr hu hs,
    fun since h hb hh hu => dieReady_program s d sr hb hh hu, fun since h hb hh hf hu => ?_,
    fun _ h => congrArg Host.Outcome.next (s.statusTimeout_early h), fun hb hh h => statusTimeout_due s d hb hh h,
    fun since hb => lunResetComplete_ends s d hb, exec_lunResetComplete_other s d⟩
  obtain ⟨t, hnext, hparts, hregs, busy, hold, erased⟩ := dieReady_erase s d sr hb hh hf hu
  exact ⟨t, hnext, hparts, hregs, busy, hold, erased.freed, erased.erases, erased.reads, erased.wear, erased.units⟩

end Sys2Proof.Machine
end

section
/-! Map update requests at the port (R36, R37, R194, R203, R204). -/

namespace Sys2Proof.Machine

open Sys2Proof.Safety

variable (s : State)

/-! ### The journal (R204) -/

/-- The records of the last journal slot after one more. -/
theorem getLast?_appendLast (r : JournalRec) {j : List (Nat × List JournalRec)} {n : Nat} {l : List JournalRec}
    (h : j.getLast? = some (n, l)) : (appendLast r j).getLast? = some (n, l ++ [r]) := by
  induction j with
  | nil => cases h
  | cons x t ih =>
    cases t with
    | nil =>
      obtain rfl : x = (n, l) := by simpa using h
      rfl
    | cons y t =>
      rw [List.getLast?_cons_cons] at h
      have tail := ih h
      cases t with
      | nil =>
        obtain rfl : y = (n, l) := by simpa using h
        rfl
      | cons z t => exact (List.getLast?_cons_cons ..).trans tail

/-- Two states give journal slots alike: the slots in use, the next one, and those that a mirror move bars. -/
structure SameJournal (s t : State) : Prop where
  regs : t.regs = s.regs
  journal : t.galley.journal = s.galley.journal
  nextSlot : t.galley.nextSlot = s.galley.nextSlot
  moveDone : t.galley.moveDone = s.galley.moveDone
  moveLast : t.galley.moveLast = s.galley.moveLast

section
variable {s t : State} (h : SameJournal s t)
include h

theorem jnlOpen_congr : t.jnlOpen = s.jnlOpen := by rw [State.jnlOpen, h.journal, State.jnlOpen]

theorem barredJnl_congr (n : Nat) : t.barredJnl n = s.barredJnl n := by
  have fld (f : Fld) : t.fld f = s.fld f := by rw [State.fld, State.word, h.regs, State.fld, State.word]
  have moves : t.moves n = s.moves n := by simp only [State.moves, State.copyChans, State.flag, fld]
  have share : t.moveShare 262144 = s.moveShare 262144 := by simp only [State.moveShare, fld]
  rw [State.barredJnl, moves, share, fld, h.moveDone, h.moveLast, State.barredJnl]

theorem freeJnlFrom_congr (fuel n : Nat) : t.freeJnlFrom fuel n = s.freeJnlFrom fuel n := by
  induction fuel generalizing n with
  | zero => rfl
  | succ fuel ih =>
    have used (k : Nat) : t.jnlUsed k = s.jnlUsed k := by rw [State.jnlUsed, h.journal, State.jnlUsed]
    rw [State.freeJnlFrom, used, barredJnl_congr h, ih, State.freeJnlFrom]

theorem jnlFull_congr : t.jnlFull = s.jnlFull := by
  rw [State.jnlFull, jnlOpen_congr h, freeJnlFrom_congr h, h.nextSlot, State.jnlFull]

end

/-- The current journal slot, a new one where the last is full. -/
def State.openJournal : State :=
  if s.jnlOpen then s else
    match s.freeJnlFrom 65536 s.galley.nextSlot with
    | some n => s.onGalley fun g => { g with journal := g.journal ++ [(n, [])], nextSlot := (n + 1) % 65536 }
    | none => s

theorem State.journal_eq (kind unit new old aux slot : Nat) : s.journal kind unit new old aux slot =
    s.openJournal.onGalley fun g => { g with
      journal := appendLast ⟨kind, s.galley.jnlSeq, s.turn, unit, new, old, aux, slot⟩ g.journal, jnlSeq := g.jnlSeq + 1 } := rfl

theorem State.openJournal_eq : s.openJournal = s ∨
    ∃ n, s.openJournal = s.onGalley fun g => { g with journal := g.journal ++ [(n, [])], nextSlot := (n + 1) % 65536 } := by
  unfold State.openJournal
  split
  · exact .inl rfl
  · split
    · exact .inr ⟨_, rfl⟩
    · exact .inl rfl

/-- Where the journal is not full, the open slot is its last. -/
theorem State.openJournal_last (h : s.jnlFull = false) : ∃ n l, s.openJournal.galley.journal.getLast? = some (n, l) := by
  unfold State.openJournal
  split
  · next ho =>
    unfold State.jnlOpen at ho
    split at ho
    · next j hj => exact ⟨j.1, j.2, hj⟩
    · cases ho
  · next ho =>
    split
    · exact ⟨_, _, List.getLast?_concat⟩
    · next hn => simp [State.jnlFull, ho, hn] at h

/-- One record more: it is the last of the last slot. -/
theorem State.journal_last (kind unit new old aux slot : Nat) (h : s.jnlFull = false) :
    ∃ n l, (s.journal kind unit new old aux slot).galley.journal.getLast? = some (n, l) ∧
      l.getLast? = some ⟨kind, s.galley.jnlSeq, s.turn, unit, new, old, aux, slot⟩ := by
  obtain ⟨n, l, hl⟩ := s.openJournal_last h
  rw [State.journal_eq]
  exact ⟨n, _, getLast?_appendLast _ hl, List.getLast?_concat⟩

/-- The journal changes the galley in its own fields alone. -/
theorem State.journal_galley (kind unit new old aux slot : Nat) : ∃ j n, (s.journal kind unit new old aux slot).galley =
    { s.galley with journal := j, nextSlot := n, jnlSeq := s.galley.jnlSeq + 1 } := by
  rw [State.journal_eq]
  rcases s.openJournal_eq with h | ⟨n, h⟩ <;> rw [h] <;> exact ⟨_, _, rfl⟩

theorem within_journal {P : List Part} {R : List Nat} (kind unit new old aux slot : Nat) (h : Part.galley ∈ P) :
    Within P R s (s.journal kind unit new old aux slot) := by
  rw [State.journal_eq]
  rcases s.openJournal_eq with e | ⟨n, e⟩ <;> rw [e]
  · exact within_onGalley s _ h
  · exact within_trans (within_onGalley s _ h) (within_onGalley _ _ h)

/-! ### A request, step by step (R203) -/

section
variable (kind : Nat) (q : MapReq)

/-- A request that is well formed and finds journal and shadow room. -/
def State.hasRoom : Prop :=
  s.malformed kind q = false ∧ s.jnlFull = false ∧ (s.unshadowed (s.reqPage kind q) && s.shadowFull) = false

/-- A conditional request settles copies of dredge victims first. -/
def State.resolved : State := if kind = 2 ∨ kind = 4 then s.resolveCopies kind q else s

/-- The word that a request writes, with its page noted before. -/
def State.written : State := (s.touchPage (s.reqPage kind q)).reqWrite kind q

/-- What a request that applies does. -/
def State.applied (below : Nat) : State :=
  ((s.written kind q).journal (journalKind kind) q.target q.new (s.reqOld kind q) q.aux q.slot).reqSlots kind q below

/-- The state with the port's answer. -/
def State.said (r : MapResult) : State := { s with answer := some (.value 0x3FF r.code) }

variable {kind q}

theorem State.portRequest_applied (hr : s.hasRoom kind q) (hh : (s.resolved kind q).reqHolds kind q = true) :
    s.portRequest kind q = ((s.resolved kind q).applied kind q (s.galley.order + 1)).said .applied := by
  obtain ⟨hm, hj, hs⟩ := hr
  have req : s.applyReq kind q (s.galley.order + 1) =
      (.applied, (s.resolved kind q).applied kind q (s.galley.order + 1)) := by
    rw [State.applyReq, if_neg (by simp [hm]), if_neg (by simp [hj, hs])]
    exact if_pos hh
  rw [State.portRequest, req]
  rfl

theorem State.portRequest_stale (hr : s.hasRoom kind q) (hk : kind ≠ 1) (hh : (s.resolved kind q).reqHolds kind q = false) :
    s.portRequest kind q = (s.resolved kind q).said .stale := by
  obtain ⟨hm, hj, hs⟩ := hr
  have req : s.applyReq kind q (s.galley.order + 1) = (.stale, s.resolved kind q) := by
    rw [State.applyReq, if_neg (by simp [hm]), if_neg (by simp [hj, hs])]
    exact (if_neg (Bool.eq_false_iff.1 hh)).trans (if_neg hk)
  rw [State.portRequest, req]
  rfl

theorem State.portRequest_superseded (hr : s.hasRoom 1 q) (hh : s.reqHolds 1 q = false) :
    s.portRequest 1 q = ((s.onSlot q.slot fun x => { x with inFlight := false }).freeSlots).said .superseded := by
  obtain ⟨hm, hj, hs⟩ := hr
  have req : s.applyReq 1 q (s.galley.order + 1) = (.superseded, (s.onSlot q.slot fun x => { x with inFlight := false }).freeSlots) := by
    rw [State.applyReq, if_neg (by simp [hm]), if_neg (by simp [hj, hs])]
    exact (if_neg (Bool.eq_false_iff.1 hh)).trans (if_pos rfl)
  rw [State.portRequest, req]
  rfl

theorem State.portRequest_malformed (hm : s.malformed kind q = true) :
    s.portRequest kind q = (s.logUncoded .malformed 0x3FF q.target).said .malformed := by
  have req : s.applyReq kind q (s.galley.order + 1) = (.malformed, s) := by rw [State.applyReq, if_pos hm]
  rw [State.portRequest, req]
  rfl

theorem State.portRequest_rejected (hm : s.malformed kind q = false)
    (h : s.jnlFull = true ∨ (s.unshadowed (s.reqPage kind q) && s.shadowFull) = true) : s.portRequest kind q = s.said .rejected := by
  have req : s.applyReq kind q (s.galley.order + 1) = (.rejected, s) := by
    rw [State.applyReq, if_neg (by simp [hm]), if_pos (by simpa using h)]
  rw [State.portRequest, req]
  rfl

/-! ### What an applied request leaves -/

theorem State.reqOld_resolved : (s.resolved kind q).reqOld kind q = s.reqOld kind q := by
  unfold State.resolved
  split <;> rfl

theorem State.galley_resolved : (s.resolved kind q).galley = s.galley := by
  unfold State.resolved
  split <;> rfl

theorem State.memory_resolved : (s.resolved kind q).memory = s.memory := by
  unfold State.resolved
  split <;> rfl

theorem State.regs_resolved : (s.resolved kind q).regs = s.regs := by
  unfold State.resolved
  split <;> rfl

theorem State.turn_resolved : (s.resolved kind q).turn = s.turn := by
  unfold State.resolved
  split <;> rfl

/-- A request writes one word of memory, or one of the galley's tables. -/
theorem State.reqWrite_cases (kind : Nat) (q : MapReq) : (∃ a, s.reqWrite kind q = s.poke a 4 q.new) ∨
    ∃ o f z, s.reqWrite kind q = s.onGalley fun g => { g with ovl := o, fbt := f, zones := z } := by
  unfold State.reqWrite
  split
  · exact .inl ⟨_, rfl⟩
  · exact .inl ⟨_, rfl⟩
  · exact .inl ⟨_, rfl⟩
  · exact .inr ⟨_, _, _, rfl⟩
  · exact .inr ⟨_, _, _, rfl⟩
  · exact .inr ⟨_, _, _, rfl⟩
  · exact .inr ⟨_, _, _, rfl⟩
  · split
    · exact .inl ⟨_, rfl⟩
    · exact .inl ⟨_, rfl⟩

/-- What a request writes leaves the journal, the slots and the turn. -/
structure WriteKeeps (s t : State) : Prop extends SameJournal s t where
  slots : t.galley.slots = s.galley.slots
  seq : t.galley.jnlSeq = s.galley.jnlSeq
  turn : t.turn = s.turn

theorem writeKeeps_written : WriteKeeps s (s.written kind q) := by
  unfold State.written
  rcases (s.touchPage (s.reqPage kind q)).reqWrite_cases kind q with ⟨a, h⟩ | ⟨o, f, z, h⟩ <;> rw [h] <;>
    exact ⟨⟨rfl, rfl, rfl, rfl, rfl⟩, rfl, rfl, rfl⟩

/-- What a request does to residencies it does to the galley's slots alone. -/
theorem State.reqSlots_eq (kind : Nat) (q : MapReq) (below : Nat) :
    ∃ l, s.reqSlots kind q below = s.onGalley fun g => { g with slots := l } := by
  unfold State.reqSlots
  split
  · exact ⟨_, rfl⟩
  · exact ⟨_, rfl⟩
  · exact ⟨s.galley.slots, rfl⟩

/-- The journal record of an applied request. -/
def State.recorded (s t : State) (kind : Nat) (q : MapReq) : Prop :=
  t.galley.jnlSeq = s.galley.jnlSeq + 1 ∧ ∃ n l, t.galley.journal.getLast? = some (n, l) ∧
    l.getLast? = some ⟨journalKind kind, s.galley.jnlSeq, s.turn, q.target, q.new, s.reqOld kind q, q.aux, q.slot⟩

theorem recorded_applied (below : Nat) (h : s.jnlFull = false) : s.recorded (s.applied kind q below) kind q := by
  have keeps := writeKeeps_written s (kind := kind) (q := q)
  obtain ⟨n, l, hn, hl⟩ := (s.written kind q).journal_last (journalKind kind) q.target q.new (s.reqOld kind q) q.aux q.slot
    ((jnlFull_congr keeps.toSameJournal).trans h)
  obtain ⟨j, m, hg⟩ := (s.written kind q).journal_galley (journalKind kind) q.target q.new (s.reqOld kind q) q.aux q.slot
  obtain ⟨slots, hs⟩ := ((s.written kind q).journal (journalKind kind) q.target q.new (s.reqOld kind q) q.aux q.slot).reqSlots_eq kind q below
  rw [keeps.seq, keeps.turn] at hl
  rw [State.applied, hs]
  refine ⟨?_, n, l, hn, hl⟩
  rw [State.onGalley_galley, hg, keeps.seq]

/-- The galley's tables after an applied request are those that its write left. -/
theorem applied_tables (below : Nat) : (s.applied kind q below).galley.ovl = (s.written kind q).galley.ovl ∧
    (s.applied kind q below).galley.fbt = (s.written kind q).galley.fbt ∧
    (s.applied kind q below).galley.zones = (s.written kind q).galley.zones := by
  obtain ⟨j, m, hg⟩ := (s.written kind q).journal_galley (journalKind kind) q.target q.new (s.reqOld kind q) q.aux q.slot
  obtain ⟨slots, hs⟩ := ((s.written kind q).journal (journalKind kind) q.target q.new (s.reqOld kind q) q.aux q.slot).reqSlots_eq kind q below
  rw [State.applied, hs, State.onGalley_galley, hg]
  exact ⟨rfl, rfl, rfl⟩

/-- A request that supersedes no residency leaves the slots alone. -/
theorem applied_slots (h1 : kind ≠ 1) (h3 : kind ≠ 3) (below : Nat) : (s.applied kind q below).galley.slots = s.galley.slots := by
  obtain ⟨j, m, hg⟩ := (s.written kind q).journal_galley (journalKind kind) q.target q.new (s.reqOld kind q) q.aux q.slot
  have plain (u : State) : u.reqSlots kind q below = u := by
    unfold State.reqSlots
    split
    · exact absurd rfl h1
    · exact absurd rfl h3
    · rfl
  rw [State.applied, plain, hg]
  exact (writeKeeps_written s).slots

theorem State.journal_memory (k unit new old aux slot : Nat) : (s.journal k unit new old aux slot).memory = s.memory := by
  rw [State.journal_eq, State.onGalley_memory]
  rcases s.openJournal_eq with h | ⟨n, h⟩ <;> rw [h]
  rfl

theorem applied_memory (below : Nat) : (s.applied kind q below).memory = (s.written kind q).memory := by
  obtain ⟨slots, hs⟩ := ((s.written kind q).journal (journalKind kind) q.target q.new (s.reqOld kind q) q.aux q.slot).reqSlots_eq kind q below
  rw [State.applied, hs, State.onGalley_memory, State.journal_memory]

theorem within_applied {P : List Part} {R : List Nat} (below : Nat) (hP : Part.galley ∈ P)
    (hw : ∀ u : State, Within P R u (u.reqWrite kind q)) : Within P R s (s.applied kind q below) := by
  obtain ⟨slots, hs⟩ := ((s.written kind q).journal (journalKind kind) q.target q.new (s.reqOld kind q) q.aux q.slot).reqSlots_eq kind q below
  rw [State.applied, hs]
  exact within_trans (within_trans (within_trans (within_onGalley s _ hP) (hw _)) (within_journal _ _ _ _ _ _ _ hP)) (within_onGalley _ _ hP)

theorem within_resolved {P : List Part} {R : List Nat} (h : kind = 2 ∨ kind = 4 → Part.flash ∈ P) : Within P R s (s.resolved kind q) :=
  within_ite (fun hk => within_onFlash s _ (h hk)) fun _ => within_refl P R s

theorem within_said {P : List Part} {R : List Nat} (r : MapResult) (h : Part.answer ∈ P) : Within P R s (s.said r) :=
  within_of_frame (frame_answer s _) (List.cons_subset.2 ⟨h, List.nil_subset _⟩) nofun

theorem recorded_resolved (below : Nat) (h : s.jnlFull = false) :
    s.recorded (((s.resolved kind q).applied kind q below).said .applied) kind q := by
  have same : SameJournal s (s.resolved kind q) := by
    have galley := s.galley_resolved (kind := kind) (q := q)
    exact ⟨s.regs_resolved, by rw [galley], by rw [galley], by rw [galley], by rw [galley]⟩
  have recorded := recorded_applied (s.resolved kind q) (kind := kind) (q := q) below ((jnlFull_congr same).trans h)
  unfold State.recorded at recorded ⊢
  rwa [State.galley_resolved, State.turn_resolved, State.reqOld_resolved] at recorded

/-- A command that hands the port a request which applies. -/
theorem changes_applied {i : Instr} {P : List Part} {Q : State → Prop} (hi : exec i s = .next (s.portRequest kind q))
    (hr : s.hasRoom kind q) (hh : (s.resolved kind q).reqHolds kind q = true) (hA : Part.answer ∈ P) (hG : Part.galley ∈ P)
    (hF : kind = 2 ∨ kind = 4 → Part.flash ∈ P) (hw : ∀ u : State, Within P [] u (u.reqWrite kind q))
    (hQ : Q (((s.resolved kind q).applied kind q (s.galley.order + 1)).said .applied)) : Changes i s P [] fun t =>
      t.answer = some (.value 0x3FF 1) ∧ s.recorded t kind q ∧ Q t :=
  changes_of (hi.trans (congrArg _ (s.portRequest_applied hr hh)))
    (within_trans (within_trans (within_resolved s hF) (within_applied _ _ hG hw)) (within_said _ _ hA))
    ⟨rfl, recorded_resolved s _ hr.2.1, hQ⟩

/-- A command that hands the port a conditional request whose condition does not hold. -/
theorem changes_stale {i : Instr} (hi : exec i s = .next (s.portRequest kind q)) (hr : s.hasRoom kind q) (hk : kind ≠ 1)
    (hh : (s.resolved kind q).reqHolds kind q = false) : Changes i s [.answer, .flash] [] fun t => t.answer = some (.value 0x3FF 2) :=
  changes_of (hi.trans (congrArg _ (s.portRequest_stale hr hk hh)))
    (within_trans (within_resolved s fun _ => by simp) (within_said _ _ (by simp))) rfl

/-! ### The words of memory that requests write -/

/-- From `s` to `t` the word at `a` has become the request's new value, and no other byte of memory changed. -/
def State.wroteWord (s t : State) (q : MapReq) (a : Nat) : Prop :=
  t.peek a 4 = q.new % 2 ^ 32 ∧ ∀ x, x < a ∨ a + 4 ≤ x → memGet x t.memory.bytes = memGet x s.memory.bytes

theorem wroteWord_poke {t : State} {a : Nat} (h : t.memory = (s.poke a 4 q.new).memory) : s.wroteWord t q a := by
  refine ⟨?_, fun x hx => ?_⟩
  · rw [State.peek, h]
    exact (s.peek_poke_same a 4 q.new).trans (congrArg (q.new % ·) (by decide))
  · rw [h]
    show memGet x (memWrite a (leBytes 4 q.new) s.memory.bytes) = _
    rw [memGet_memWrite, leBytes_length, if_neg (by omega)]

theorem poke_memory_congr {t u : State} (h : t.memory = u.memory) (a n v : Nat) : (t.poke a n v).memory = (u.poke a n v).memory := by
  rw [State.poke, State.onMemory_memory, h]
  rfl

theorem State.mapAddr_resolved (g : Nat) : (s.resolved kind q).mapAddr g = s.mapAddr g := by
  rw [State.mapAddr, State.fld, State.word, State.regs_resolved, State.mapAddr, State.fld, State.word]

/-- A request of the kinds that write a map word. -/
theorem wroteWord_map (hk : kind = 1 ∨ kind = 2 ∨ kind = 3) (below : Nat) :
    s.wroteWord (((s.resolved kind q).applied kind q below).said .applied) q (s.mapAddr q.target) := by
  have word : (s.resolved kind q).written kind q =
      ((s.resolved kind q).touchPage ((s.resolved kind q).reqPage kind q)).poke ((s.resolved kind q).mapAddr q.target) 4 q.new := by
    rcases hk with rfl | rfl | rfl <;> rfl
  refine wroteWord_poke s ?_
  show ((s.resolved kind q).applied kind q below).memory = _
  rw [applied_memory, word, State.mapAddr_resolved]
  exact poke_memory_congr (State.memory_resolved s) _ _ _

/-- A request of the kind that writes a granule or a namespace word. -/
theorem wroteWord_table (below : Nat) : s.wroteWord ((s.applied 8 q below).said .applied) q
    (if natBits q.target 32 1 = 0 then s.granAddr (natBits q.target 0 18) else s.nstAddr (natBits q.target 0 18) (natBits q.target 33 1)) := by
  refine wroteWord_poke s ((applied_memory s below).trans ?_)
  rw [State.written, State.reqWrite]
  split
  · rfl
  · rfl
  all_goals nofun

/-! ### Residencies (R36, R187, R194) -/

/-- Host placement leaves its slot superseded and with no program in flight. -/
theorem State.placed_slot {n : Nat} {y : Nat × Slot}
    (hy : y ∈ ((s.onSlot n fun x => { x with state := .superseded, inFlight := false }).freeSlots).galley.slots) (hn : y.1 = n) :
    y.2.state = .superseded ∧ y.2.inFlight = false := by
  rcases mem_updIf (List.mem_filter.1 hy).1 with ⟨x, -, -, rfl⟩ | ⟨-, ho⟩
  · exact ⟨rfl, rfl⟩
  · simp [hn] at ho

theorem Slot.without_keeps (ks : List Nat) (x : Slot) :
    (x.without ks).unit = x.unit ∧ (x.without ks).order = x.order ∧ (x.without ks).sectors.length = x.sectors.length := by
  unfold Slot.without
  split
  · exact ⟨rfl, rfl, rfl⟩
  · exact ⟨rfl, rfl, rfl⟩
  · exact ⟨rfl, rfl, by simp⟩

/-- A slot without any of its sectors: a write that is still filling lands without them, and any other residency is superseded. -/
theorem Slot.without_all {x : Slot} (h : x.sectors.length ≤ 4) : (x.without [0, 1, 2, 3]).state = .superseded ∨
    (x.without [0, 1, 2, 3]).state = .filling ∧ ∀ k, k < 4 → k ∈ (x.without [0, 1, 2, 3]).cut := by
  have all : (x.sectors.zipIdx.map fun y => if [0, 1, 2, 3].contains y.2 then none else y.1).all (·.isNone) = true := by
    simp only [List.all_map, List.all_eq_true, Function.comp_apply]
    intro y hy
    have : y.2 < x.sectors.length := by simpa using (List.mem_zipIdx hy).2.1
    have low : y.2 ∈ [0, 1, 2, 3] := by simp; omega
    rw [if_pos (List.contains_iff_mem.2 low)]
    rfl
  unfold Slot.without
  split
  · next hf => exact .inr ⟨hf, fun k hk => List.mem_eraseDups.2 (List.mem_append_left _ (by simp; omega))⟩
  · exact .inl rfl
  · exact .inl (if_pos all)

/-- An unconditional map set leaves no residency of the unit that is older than it but those that it supersedes, and those still filling
that it cuts whole. -/
theorem State.cut_slot {g below : Nat} {x : Nat × Slot} (hx : x ∈ (s.cutSectors g below [0, 1, 2, 3]).galley.slots) (hu : x.2.unit = g)
    (ho : x.2.order < below) (hl : x.2.sectors.length ≤ 4) :
    x.2.state = .superseded ∨ x.2.state = .filling ∧ ∀ k, k < 4 → k ∈ x.2.cut := by
  rcases mem_updIf (List.mem_filter.1 hx).1 with ⟨y, -, -, rfl⟩ | ⟨-, hn⟩
  · exact Slot.without_all (by rwa [(Slot.without_keeps _ y.2).2.2] at hl)
  · simp [hu, ho] at hn

/-! ### The request kinds -/

theorem State.resolved_plain (h2 : kind ≠ 2) (h4 : kind ≠ 4) : s.resolved kind q = s := if_neg (by simp [h2, h4])

/-- MAP_SET. -/
theorem mapSet_applies (hr : s.hasRoom 3 q) : Changes (.mapSet q) s [.answer, .bytes, .galley] [] fun t =>
    t.answer = some (.value 0x3FF 1) ∧ s.recorded t 3 q ∧ s.wroteWord t q (s.mapAddr q.target) ∧
      ∀ x ∈ t.galley.slots, x.2.unit = q.target → x.2.order ≤ s.galley.order → x.2.sectors.length ≤ 4 →
        x.2.state = .superseded ∨ x.2.state = .filling ∧ ∀ k, k < 4 → k ∈ x.2.cut :=
  changes_applied s rfl hr rfl (by simp) (by simp) (by simp) (fun u => within_of_frame (frame_poke u _ 4 _) (by simp) (by simp))
    ⟨wroteWord_map s (by simp) _, fun _ hx hu ho hl => State.cut_slot _ hx hu (Nat.lt_succ_of_le ho) hl⟩

theorem exec_unproven (hu : s.unproven q.target q.new = true) :
    exec (.hostPlace q) s = .next s ∧ exec (.condSet q) s = .next s := by
  show execHostPlace q s = _ ∧ execCondSet q s = _
  rw [execHostPlace, execCondSet, if_pos hu, if_pos hu]
  exact ⟨rfl, rfl⟩

section
variable (hp : s.unproven q.target q.new = false)
include hp

theorem exec_hostPlace : exec (.hostPlace q) s = .next (s.portRequest 1 q) := by
  show execHostPlace q s = _
  rw [execHostPlace, if_neg (by simp [hp])]

theorem exec_condSet : exec (.condSet q) s = .next (s.portRequest 2 q) := by
  show execCondSet q s = _
  rw [execCondSet, if_neg (by simp [hp])]

/-- HOST_PLACE where its slot holds the newest residency. -/
theorem hostPlace_applies (hr : s.hasRoom 1 q) {x : Slot} (hn : s.newest q.target = some (q.slot, x)) (hl : x.state.landed = true) :
    Changes (.hostPlace q) s [.answer, .bytes, .galley] [] fun t => t.answer = some (.value 0x3FF 1) ∧ s.recorded t 1 q ∧
      s.wroteWord t q (s.mapAddr q.target) ∧ ∀ y ∈ t.galley.slots, y.1 = q.slot → y.2.state = .superseded ∧ y.2.inFlight = false := by
  have holds : s.reqHolds 1 q = true := by
    rw [State.reqHolds, hn]
    simp [hl]
  exact changes_applied s (exec_hostPlace s hp) hr holds (by simp) (by simp) (by simp)
    (fun u => within_of_frame (frame_poke u _ 4 _) (by simp) (by simp)) ⟨wroteWord_map s (by simp) _, fun _ hy => State.placed_slot _ hy⟩

/-- HOST_PLACE where another residency is newer. -/
theorem hostPlace_superseded (hr : s.hasRoom 1 q) (hn : ∀ x, s.newest q.target = some (q.slot, x) → x.state.landed = false) :
    Changes (.hostPlace q) s [.answer, .galley] [] fun t => t.answer = some (.value 0x3FF 3) ∧ t.galley.journal = s.galley.journal := by
  have fails : s.reqHolds 1 q = false := by
    rw [State.reqHolds]
    split
    · next r hr =>
      by_cases hs : r.1 = q.slot
      · simp [hn r.2 (by rw [hr, ← hs])]
      · simp [hs]
    · rfl
  exact changes_of ((exec_hostPlace s hp).trans (congrArg _ (s.portRequest_superseded hr fails)))
    (within_trans (within_trans (within_onGalley s _ (by simp)) (within_onGalley _ _ (by simp))) (within_said _ _ (by simp))) ⟨rfl, rfl⟩

/-- COND_SET where the map word is the expected one. -/
theorem condSet_applies (hr : s.hasRoom 2 q) (he : s.mapWord q.target = q.expect) :
    Changes (.condSet q) s [.answer, .bytes, .galley, .flash] [] fun t => t.answer = some (.value 0x3FF 1) ∧ s.recorded t 2 q ∧
      s.wroteWord t q (s.mapAddr q.target) ∧ t.galley.slots = s.galley.slots := by
  have holds : (s.resolved 2 q).reqHolds 2 q = true := beq_iff_eq.2 ((s.reqOld_resolved (kind := 2)).trans he)
  refine changes_applied s (exec_condSet s hp) hr holds (by simp) (by simp) (by simp)
    (fun u => within_of_frame (frame_poke u _ 4 _) (by simp) (by simp)) ⟨wroteWord_map s (by simp) _, ?_⟩
  exact (applied_slots (s.resolved 2 q) (by decide) (by decide) _).trans (congrArg Galley.slots s.galley_resolved)

theorem condSet_stale (hr : s.hasRoom 2 q) (he : s.mapWord q.target ≠ q.expect) :
    Changes (.condSet q) s [.answer, .flash] [] fun t => t.answer = some (.value 0x3FF 2) :=
  changes_stale s (exec_condSet s hp) hr (by decide) (beq_eq_false_iff_ne.2 (by rwa [s.reqOld_resolved (kind := 2)]))

end

/-- OVL_SET where it is unconditional or the field is the expected one. -/
theorem ovlSet_applies (hr : s.hasRoom 4 q) (he : q.cond = false ∨ s.reqOld 4 q = q.expect) :
    Changes (.ovlSet q) s [.answer, .galley, .flash] [] fun t => t.answer = some (.value 0x3FF 1) ∧ s.recorded t 4 q ∧
      t.overlay (natBits q.target 0 28) = (s.overlay (natBits q.target 0 28)).setField (natBits q.target 32 4) q.new ∧
      ∀ i, i ≠ natBits q.target 0 28 → klook i t.galley.ovl = klook i s.galley.ovl := by
  have holds : (s.resolved 4 q).reqHolds 4 q = true := by
    show (!q.cond || (s.resolved 4 q).reqOld 4 q == q.expect) = true
    rw [s.reqOld_resolved (kind := 4)]
    simpa using he
  have table : ((s.resolved 4 q).applied 4 q (s.galley.order + 1)).galley.ovl = kput (natBits q.target 0 28)
      ((s.overlay (natBits q.target 0 28)).setField (natBits q.target 32 4) q.new) s.galley.ovl := (applied_tables _ _).1
  refine changes_applied s rfl hr holds (by simp) (by simp) (by simp) (fun u => within_onGalley u _ (by simp)) ⟨?_, fun i hi => ?_⟩
  · show (klook _ ((s.resolved 4 q).applied 4 q (s.galley.order + 1)).galley.ovl).getD {} = _
    rw [table, klook_kput_self, Option.getD_some]
  · show klook i ((s.resolved 4 q).applied 4 q (s.galley.order + 1)).galley.ovl = _
    rw [table, klook_kput_ne _ _ hi]

theorem ovlSet_stale (hr : s.hasRoom 4 q) (hc : q.cond = true) (he : s.reqOld 4 q ≠ q.expect) :
    Changes (.ovlSet q) s [.answer, .flash] [] fun t => t.answer = some (.value 0x3FF 2) := by
  refine changes_stale s rfl hr (by decide) ?_
  show (!q.cond || (s.resolved 4 q).reqOld 4 q == q.expect) = false
  rw [s.reqOld_resolved (kind := 4)]
  simp [hc, he]

/-- OVL_FREE. -/
theorem ovlFree_applies (hr : s.hasRoom 5 q) : Changes (.ovlFree q) s [.answer, .galley] [] fun t =>
    t.answer = some (.value 0x3FF 1) ∧ s.recorded t 5 q ∧ klook q.target t.galley.ovl = none ∧
      ∀ i, i ≠ q.target → klook i t.galley.ovl = klook i s.galley.ovl := by
  have table : (s.applied 5 q (s.galley.order + 1)).galley.ovl = kdel q.target s.galley.ovl := (applied_tables _ _).1
  refine changes_applied s rfl hr rfl (by simp) (by simp) (by simp) (fun u => within_onGalley u _ (by simp)) ⟨?_, fun i hi => ?_⟩
  · exact (congrArg (klook q.target) table).trans (klook_kdel_self _ _)
  · exact (congrArg (klook i) table).trans (klook_kdel_ne _ hi)

/-- ZONE_UPDATE: the state of a zone, or its write pointer. -/
theorem zoneUpdate_applies (hr : s.hasRoom 6 q) : Changes (.zoneUpdate q) s [.answer, .galley] [] fun t =>
    t.answer = some (.value 0x3FF 1) ∧ s.recorded t 6 q ∧
      klook (natBits q.target 0 32) t.galley.zones =
        some (if natBits q.target 32 1 = 0 then (q.new % 16, ((klook (natBits q.target 0 32) s.galley.zones).getD (0, 0)).2)
          else (((klook (natBits q.target 0 32) s.galley.zones).getD (0, 0)).1, q.new)) := by
  have table : (s.applied 6 q (s.galley.order + 1)).galley.zones = kput (natBits q.target 0 32)
      (if natBits q.target 32 1 = 0 then (q.new % 16, ((klook (natBits q.target 0 32) s.galley.zones).getD (0, 0)).2)
        else (((klook (natBits q.target 0 32) s.galley.zones).getD (0, 0)).1, q.new)) s.galley.zones := (applied_tables _ _).2.2
  exact changes_applied s rfl hr rfl (by simp) (by simp) (by simp) (fun u => within_onGalley u _ (by simp))
    ((congrArg (klook (natBits q.target 0 32)) table).trans (klook_kput_self _ _ _))

/-- FBT_SET where it is unconditional or the word is the expected one. -/
theorem fbtSet_applies (hr : s.hasRoom 7 q) (he : q.cond = false ∨ s.reqOld 7 q = q.expect) :
    Changes (.fbtSet q) s [.answer, .galley] [] fun t => t.answer = some (.value 0x3FF 1) ∧ s.recorded t 7 q ∧
      t.fbtWord (natBits q.target 0 2) (natBits q.target 2 28) (natBits q.target 30 4) = q.new := by
  have holds : s.reqHolds 7 q = true := by
    show (!q.cond || s.reqOld 7 q == q.expect) = true
    simpa using he
  have table : (s.applied 7 q (s.galley.order + 1)).galley.fbt =
      kput (fbtKey (natBits q.target 0 2) (natBits q.target 2 28) (natBits q.target 30 4)) q.new s.galley.fbt := (applied_tables _ _).2.1
  refine changes_applied s rfl hr holds (by simp) (by simp) (by simp) (fun u => within_onGalley u _ (by simp)) ?_
  show (klook _ (s.applied 7 q (s.galley.order + 1)).galley.fbt).getD 0 = _
  rw [table, klook_kput_self, Option.getD_some]

/-- TABLE_SET: a granule, or a namespace word. -/
theorem tableSet_applies (hr : s.hasRoom 8 q) : Changes (.tableSet q) s [.answer, .bytes, .galley] [] fun t =>
    t.answer = some (.value 0x3FF 1) ∧ s.recorded t 8 q ∧
      s.wroteWord t q (if natBits q.target 32 1 = 0 then s.granAddr (natBits q.target 0 18)
        else s.nstAddr (natBits q.target 0 18) (natBits q.target 33 1)) := by
  have write (u : State) : Within [.answer, .bytes, .galley] [] u (u.reqWrite 8 q) :=
    within_ite (fun _ => within_of_frame (frame_poke u _ 4 _) (by simp) (by simp))
      fun _ => within_of_frame (frame_poke u _ 4 _) (by simp) (by simp)
  exact changes_applied s rfl hr rfl (by simp) (by simp) (by simp) write (wroteWord_table s _)

/-! ### Requests that the port does not take -/

/-- The commands that hand the port a request, by its kind. -/
def requestOf (q : MapReq) (kind : Nat) (i : Instr) : Prop :=
  (kind = 1 ∧ i = Instr.hostPlace q) ∨ (kind = 2 ∧ i = .condSet q) ∨ (kind = 3 ∧ i = .mapSet q) ∨ (kind = 4 ∧ i = .ovlSet q) ∨
    (kind = 5 ∧ i = .ovlFree q) ∨ (kind = 6 ∧ i = .zoneUpdate q) ∨ (kind = 7 ∧ i = .fbtSet q) ∨ (kind = 8 ∧ i = .tableSet q)

theorem exec_of_requestOf {i : Instr} (h : requestOf q kind i) (hp : kind ≤ 2 → s.unproven q.target q.new = false) :
    exec i s = .next (s.portRequest kind q) := by
  rcases h with ⟨rfl, rfl⟩ | ⟨rfl, rfl⟩ | ⟨rfl, rfl⟩ | ⟨rfl, rfl⟩ | ⟨rfl, rfl⟩ | ⟨rfl, rfl⟩ | ⟨rfl, rfl⟩ | ⟨rfl, rfl⟩
  · exact exec_hostPlace s (hp (by decide))
  · exact exec_condSet s (hp (by decide))
  all_goals rfl

theorem request_malformed {i : Instr} (hi : exec i s = .next (s.portRequest kind q)) (hm : s.malformed kind q = true) :
    Does i s [.answer, .log] [] fun t =>
      t.answer = some (.value 0x3FF 5) ∧ logged s t (Config.uncodedEvent 16) 0 0x3FF q.target :=
  ⟨_, hi.trans (congrArg _ (s.portRequest_malformed hm)),
    ((frame_logUncoded s .malformed 0x3FF q.target).trans (frame_answer _ _)).mono (by decide), rfl, logged_log s _ _ _ _⟩

theorem request_rejected {i : Instr} (hi : exec i s = .next (s.portRequest kind q)) (hm : s.malformed kind q = false)
    (h : s.jnlFull = true ∨ (s.unshadowed (s.reqPage kind q) && s.shadowFull) = true) :
    Does i s [.answer] [] fun t => t.answer = some (.value 0x3FF 4) :=
  ⟨_, hi.trans (congrArg _ (s.portRequest_rejected hm h)), frame_answer _ _, rfl⟩

end

/-- Settles O35: each kind of request, and each way in which the port does not take one, by a lemma above. -/
theorem mapRequestsApplyAtomically : Obligations.MapRequestsApplyAtomically := by
  unfold Obligations.MapRequestsApplyAtomically
  intro s q
  refine ⟨fun hr => ?_, exec_unproven s, fun hr hp => ⟨fun x hn hl => ?_, hostPlace_superseded s hp hr⟩,
    fun hr hp => ⟨fun he => ?_, condSet_stale s hp hr⟩, fun hr => ⟨ovlSet_applies s hr, ovlSet_stale s hr⟩, ovlFree_applies s,
    zoneUpdate_applies s, fbtSet_applies s, tableSet_applies s, fun kind i hi hp => ?_⟩
  · exact changes_imp (mapSet_applies s hr) fun t ⟨hsaid, hrec, hword, hslots⟩ => ⟨hsaid, hword, hrec, hslots⟩
  · exact changes_imp (hostPlace_applies s hp hr hn hl) fun t ⟨hsaid, hrec, hword, hslots⟩ => ⟨hsaid, hword, hrec, hslots⟩
  · exact changes_imp (condSet_applies s hp hr he) fun t ⟨hsaid, hrec, hword, hslots⟩ => ⟨hsaid, hword, hrec, hslots⟩
  · have hexec := exec_of_requestOf s hi hp
    exact ⟨request_malformed s hexec, request_rejected s hexec⟩

end Sys2Proof.Machine
end

section
/-! The queue of commands under every function of the model that answers a state, in the order of the model: each leaves the queue as it
found it, so that only a step takes a command from it (R29). One lemma per function, from those of the functions that it calls. -/

namespace Sys2Proof.Machine

open Sys2Proof.Safety

/-- The outcome is a next state, and that state holds the queue of `s`. -/
def keepsQueue (s : State) (o : Out) : Prop := ∃ t, o = .next t ∧ t.pending = s.pending

@[simp] theorem keepsQueue_next (s t : State) : keepsQueue s (.next t) ↔ t.pending = s.pending := by simp [keepsQueue]

theorem nextOf_pending {s : State} {o : Out} (h : keepsQueue s o) (d : State) : (nextOf o d).pending = s.pending := by
  obtain ⟨t, rfl, ht⟩ := h; exact ht

@[simp] theorem nextOf_self_pending {s : State} {o : Out} (h : keepsQueue s o) : (nextOf o s).pending = s.pending := nextOf_pending h s

theorem answered_pending {s : State} {o : Out} (h : keepsQueue s o) (d : State) : (answered o d).pending = s.pending := by
  obtain ⟨t, rfl, ht⟩ := h; exact ht

@[simp] theorem State.pending_ite (c : Prop) [Decidable c] (s t : State) :
    (if c then s else t).pending = if c then s.pending else t.pending := apply_ite State.pending c s t

@[simp] theorem foldl_pending {α : Type} {f : State → α → State} (h : ∀ s x, (f s x).pending = s.pending) (l : List α) (s : State) :
    (l.foldl f s).pending = s.pending := by
  induction l generalizing s with
  | nil => rfl
  | cons x l ih => exact (ih (f s x)).trans (h s x)

theorem foldl_fst_pending {α β : Type} {f : State × β → α → State × β} (h : ∀ a x, (f a x).1.pending = a.1.pending) (l : List α)
    (a : State × β) : (l.foldl f a).1.pending = a.1.pending := by
  induction l generalizing a with
  | nil => rfl
  | cons x l ih => exact (ih (f a x)).trans (h a x)

/-! ### Setup registers -/

@[simp] theorem State.setCluster_pending (s : State) (c : Nat) (present : Bool) : (s.setCluster c present).pending = s.pending := (rfl)

/-! ### The error collector (R300, R307) -/

@[simp] theorem State.ercLast_pending (s : State) (client kind : Nat) (write : Bool) (mem addr : Nat) :
    (s.ercLast client kind write mem addr).pending = s.pending := by
  simp [State.ercLast]

@[simp] theorem State.busError_pending (s : State) (client addr : Nat) (write : Bool) :
    (s.busError client addr write).pending = s.pending := by
  simp [State.busError]

@[simp] theorem State.proofError_pending (s : State) (client : Nat) (transit : Bool) (addr : Nat) :
    (s.proofError client transit addr).pending = s.pending := by
  simp [State.proofError]

/-! ### Power domains (R435–R440) -/

@[simp] theorem State.countRefusal_pending (s : State) (n : Fin 24) (aborted : Bool) (client : Nat) :
    (s.countRefusal n aborted client).pending = s.pending :=
  (rfl)

@[simp] theorem State.touch_pending (s : State) (n : Fin 24) (client : Nat) : (s.touch n client).pending = s.pending := by
  unfold State.touch
  split <;> simp

@[simp] theorem State.gate_pending (s : State) (n : Fin 24) (client addr : Nat) (write : Bool) (i : Instr) {k : State → State}
    (hk : ∀ t, (k t).pending = t.pending) :
    (s.gate n client addr write i k).pending = s.pending := by
  simp only [State.gate]
  (repeat' split) <;> simp [hk]

@[simp] theorem State.setupWrite_pending (s : State) (client a : Nat) (v : Word) (i : Instr) {k : State → State}
    (hk : ∀ t, (k t).pending = t.pending) :
    (s.setupWrite client a v i k).pending = s.pending := by
  simp only [State.setupWrite]
  (repeat' split) <;> simp [hk]

/-! ### Register writes by type (R17, R492, R493) -/

@[simp] theorem State.regWrite_pending (s : State) (client a : Nat) (v : Word) : (s.regWrite client a v).pending = s.pending := by
  unfold State.regWrite
  split <;> simp

/-! ### Bytes -/

@[simp] theorem State.poke_pending (s : State) (a n v : Nat) : (s.poke a n v).pending = s.pending := (rfl)

/-! ### Checked words (R299–R303) -/

@[simp] theorem State.uncorrectable_pending (s : State) (client a kind : Nat) (write : Bool) :
    (s.uncorrectable client a kind write).pending = s.pending := by
  simp [State.uncorrectable]

@[simp] theorem State.correct_pending (s : State) (a : Nat) : (s.correct a).pending = s.pending := (rfl)

@[simp] theorem State.readWord_pending (s : State) (client a : Nat) : (s.readWord client a).2.pending = s.pending := by
  unfold State.readWord
  split <;> simp

@[simp] theorem State.setFlips_pending (s : State) (w : Nat) (f : Flips) : (s.setFlips w f).pending = s.pending := (rfl)

@[simp] theorem State.sealWord_pending (s : State) (client a : Nat) : (s.sealWord client a).pending = s.pending := by simp [State.sealWord]

@[simp] theorem State.breakReservations_pending (s : State) (client a : Nat) : (s.breakReservations client a).pending = s.pending := (rfl)

@[simp] theorem State.markLine_pending (s : State) (a : Nat) : (s.markLine a).pending = s.pending := by simp [State.markLine]

@[simp] theorem State.storeWord_pending (s : State) (client a value be : Nat) : (s.storeWord client a value be).2.pending = s.pending := by
  unfold State.storeWord
  dsimp only
  (repeat' split) <;> simp

/-! ### Bank readiness (R360, R361) -/

@[simp] theorem State.startSweep_pending (s : State) (code turns : Nat) : (s.startSweep code turns).pending = s.pending := by
  rw [State.startSweep, State.onMemory_pending, State.setFld_pending]

@[simp] theorem State.startBankWake_pending (s : State) (code : Nat) : (s.startBankWake code).pending = s.pending := by
  simp [State.startBankWake]

@[simp] theorem State.bankGate_pending (s : State) (code client addr : Nat) (write : Bool) (i : Instr) {k : State → State}
    (hk : ∀ t, (k t).pending = t.pending) :
    (s.bankGate code client addr write i k).pending = s.pending := by
  simp only [State.bankGate]
  (repeat' split) <;> simp [hk]

@[simp] theorem State.memGate_pending (s : State) (client addr : Nat) (write : Bool) (i : Instr) {k : State → State}
    (hk : ∀ t, (k t).pending = t.pending) :
    (s.memGate client addr write i k).pending = s.pending := by
  simp only [State.memGate]
  (repeat' split) <;> simp [hk]

/-! ### Residencies and slots (R186–R192) -/

@[simp] theorem State.onSlot_pending (s : State) (n : Nat) (f : Slot → Slot) : (s.onSlot n f).pending = s.pending := (rfl)

@[simp] theorem State.freeSlots_pending (s : State) : s.freeSlots.pending = s.pending := (rfl)

@[simp] theorem State.supersede_pending (s : State) (g below : Nat) : (s.supersede g below).pending = s.pending := (rfl)

@[simp] theorem State.cutSectors_pending (s : State) (g below : Nat) (ks : List Nat) : (s.cutSectors g below ks).pending = s.pending :=
  (rfl)

@[simp] theorem State.allocSlot_pending (s : State) (x1 : Slot) : (s.allocSlot x1).2.pending = s.pending := by
  simp only [State.allocSlot]
  (repeat' split) <;> simp

@[simp] theorem State.pin_pending (s : State) (n plan : Nat) : (s.pin n plan).pending = s.pending := (rfl)

@[simp] theorem State.unpin_pending (s : State) (plan : Nat) : (s.unpin plan).pending = s.pending := (rfl)

/-! ### Journal and snapshot (R204–R206) -/

@[simp] theorem State.journal_pending (s : State) (kind unit new old aux slot : Nat) :
    (s.journal kind unit new old aux slot).pending = s.pending := by
  unfold State.journal
  dsimp only
  (repeat' split) <;> simp

@[simp] theorem State.touchPage_pending (s : State) (p : Nat × Nat) : (s.touchPage p).pending = s.pending := (rfl)

/-! ### The map update port (R203) -/

@[simp] theorem State.reqWrite_pending (s : State) (kind : Nat) (q : MapReq) : (s.reqWrite kind q).pending = s.pending := by
  unfold State.reqWrite
  split <;> simp

@[simp] theorem State.reqSlots_pending (s : State) (kind : Nat) (q : MapReq) (below : Nat) :
    (s.reqSlots kind q below).pending = s.pending := by
  unfold State.reqSlots
  split <;> simp

@[simp] theorem State.resolveCopies_pending (s : State) (kind : Nat) (q : MapReq) : (s.resolveCopies kind q).pending = s.pending := (rfl)

@[simp] theorem State.applyReq_pending (s : State) (kind : Nat) (q : MapReq) (below : Nat) :
    (s.applyReq kind q below).2.pending = s.pending := by
  unfold State.applyReq
  dsimp only
  split_ifs <;> simp

@[simp] theorem State.bookOp_pending (s : State) (o : MapOp) : (s.bookOp o).pending = s.pending := (rfl)

@[simp] theorem State.portRequest_pending (s : State) (kind : Nat) (q : MapReq) : (s.portRequest kind q).pending = s.pending := by
  simp [State.portRequest]

@[simp] theorem execHostPlace_keepsQueue (q : MapReq) (s : State) : keepsQueue s (execHostPlace q s) := by simp [execHostPlace]

@[simp] theorem execCondSet_keepsQueue (q : MapReq) (s : State) : keepsQueue s (execCondSet q s) := by simp [execCondSet]

@[simp] theorem execMapSet_keepsQueue (q : MapReq) (s : State) : keepsQueue s (execMapSet q s) := by simp [execMapSet]

@[simp] theorem execOvlSet_keepsQueue (q : MapReq) (s : State) : keepsQueue s (execOvlSet q s) := by simp [execOvlSet]

@[simp] theorem execOvlFree_keepsQueue (q : MapReq) (s : State) : keepsQueue s (execOvlFree q s) := by simp [execOvlFree]

@[simp] theorem execZoneUpdate_keepsQueue (q : MapReq) (s : State) : keepsQueue s (execZoneUpdate q s) := by simp [execZoneUpdate]

@[simp] theorem execFbtSet_keepsQueue (q : MapReq) (s : State) : keepsQueue s (execFbtSet q s) := by simp [execFbtSet]

@[simp] theorem execTableSet_keepsQueue (q : MapReq) (s : State) : keepsQueue s (execTableSet q s) := by simp [execTableSet]

/-! ### The ring -/

@[simp] theorem State.ringStep_pending (s : State) : s.ringStep.pending = s.pending := by
  unfold State.ringStep
  dsimp only
  split <;> simp

@[simp] theorem State.ringRun_pending (n : Nat) (s : State) : (s.ringRun n).pending = s.pending := by
  induction n generalizing s with
  | zero => rfl
  | succ n ih => unfold State.ringRun; split <;> simp [ih]

@[simp] theorem execMupTailWrite_keepsQueue (client tail : Nat) (s : State) : keepsQueue s (execMupTailWrite client tail s) := by
  simp [execMupTailWrite]

@[simp] theorem execJournalSlotProgrammed_keepsQueue (slot : Nat) (s : State) : keepsQueue s (execJournalSlotProgrammed slot s) := by
  unfold execJournalSlotProgrammed
  split <;> simp

/-! ### Snapshot commands -/

@[simp] theorem execSnapshotMark_keepsQueue (client : Nat) (s : State) : keepsQueue s (execSnapshotMark client s) := by
  simp [execSnapshotMark]

@[simp] theorem State.takeMark_pending (s : State) : s.takeMark.pending = s.pending := by simp [State.takeMark]

@[simp] theorem execSnapshotComplete_keepsQueue (s : State) : keepsQueue s (execSnapshotComplete s) := by
  unfold execSnapshotComplete
  split <;> simp

/-! ### Mirror move and map repair (R189, R209, R355) -/

@[simp] theorem State.startMove_pending (s : State) : s.startMove.pending = s.pending := by
  rw [State.startMove, State.setFlds_pending, State.onGalley_pending]

@[simp] theorem execMirrorMoveStart_keepsQueue (client chan : Nat) (s : State) : keepsQueue s (execMirrorMoveStart client chan s) := by
  simp [execMirrorMoveStart]

@[simp] theorem State.moveStep_pending (s : State) : s.moveStep.pending = s.pending := by simp [State.moveStep]

@[simp] theorem execMirrorMoveComplete_keepsQueue (s : State) : keepsQueue s (execMirrorMoveComplete s) := by simp [execMirrorMoveComplete]

@[simp] theorem execMapRepair_keepsQueue (client line : Nat) (s : State) : keepsQueue s (execMapRepair client line s) := by
  simp [execMapRepair]

@[simp] theorem State.takeRepair_pending (s : State) : s.takeRepair.pending = s.pending := by simp [State.takeRepair]

/-! ### Member blocks (R215, R216, R219) -/

@[simp] theorem State.onBlock_pending (s : State) (die block : Nat) (f : BlockInfo → BlockInfo) :
    (s.onBlock die block f).pending = s.pending :=
  (rfl)

@[simp] theorem State.recomputeSpare_pending (s : State) : s.recomputeSpare.pending = s.pending := (rfl)

@[simp] theorem execSpareRecompute_keepsQueue (s : State) : keepsQueue s (execSpareRecompute s) := by simp [execSpareRecompute]

/-! ### The ledger (R277) -/

@[simp] theorem State.retireRecord_pending (s : State) (kind trigger id aux : Nat) :
    (s.retireRecord kind trigger id aux).pending = s.pending :=
  (rfl)

@[simp] theorem State.recordLost_pending (s : State) (g trigger : Nat) : (s.recordLost g trigger).pending = s.pending := (rfl)

/-! ### FDP events (R200) -/

@[simp] theorem State.fdpEvent_pending (s : State) (type handle : Nat) : (s.fdpEvent type handle).pending = s.pending := by
  simp [State.fdpEvent]

@[simp] theorem State.fdpMoved_pending (s : State) (handle : Nat) : (s.fdpMoved handle).pending = s.pending := by simp [State.fdpMoved]

/-! ### Forme-blocks that lose a member (R230, R271) -/

@[simp] theorem State.dropPlans_pending (s : State) (p : FormePlan → Bool) : (s.dropPlans p).pending = s.pending := (rfl)

@[simp] theorem State.closeFormeBlocks_pending (s : State) (p : FormeBlock → Bool) (victim : Nat) :
    (s.closeFormeBlocks p victim).pending = s.pending := by
  simp [State.closeFormeBlocks]

/-! ### Retirement (Table 06.4) -/

@[simp] theorem State.keepOut_pending (s : State) (a : Nat) : (s.keepOut a).pending = s.pending := (rfl)

@[simp] theorem State.retireDomain_pending (s : State) (n : Fin 24) : (s.retireDomain n).pending = s.pending := by simp [State.retireDomain]

@[simp] theorem State.setDieState_pending (s : State) (die v : Nat) : (s.setDieState die v).pending = s.pending := by
  simp [State.setDieState]

@[simp] theorem State.writeSpillRate_pending (s : State) : s.writeSpillRate.pending = s.pending := State.setFld_pending _ _ _

@[simp] theorem State.retireDie_pending (s : State) (die trigger : Nat) : (s.retireDie die trigger).pending = s.pending := by
  simp [State.retireDie]

@[simp] theorem State.failDie_pending (s : State) (die : Nat) : (s.failDie die).pending = s.pending := by simp [State.failDie]

@[simp] theorem State.retireBlock_pending (s : State) (die block trigger : Nat) :
    (s.retireBlock die block trigger).pending = s.pending := by
  simp [State.retireBlock]

@[simp] theorem State.retireChannel_pending (s : State) (ch trigger : Nat) : (s.retireChannel ch trigger).pending = s.pending := by
  simp [State.retireChannel]

@[simp] theorem State.permanentFault_pending (s : State) : s.permanentFault.pending = s.pending := (rfl)

/-! ### Dies -/

@[simp] theorem State.onDie_pending (s : State) (n : Nat) (f : Die → Die) : (s.onDie n f).pending = s.pending := (rfl)

@[simp] theorem State.onChan_pending (s : State) (c : Nat) (f : Chan → Chan) : (s.onChan c f).pending = s.pending := (rfl)

@[simp] theorem State.setFur_pending (s : State) (n st : Nat) : (s.setFur n st).pending = s.pending := by simp [State.setFur]

@[simp] theorem State.setChanState_pending (s : State) (c v : Nat) : (s.setChanState c v).pending = s.pending := by
  simp [State.setChanState]

/-! ### Media reports (R252) -/

@[simp] theorem State.report_pending (s : State) (kind step die block page cw bits : Nat) :
    (s.report kind step die block page cw bits).pending = s.pending := by
  simp [State.report]

/-! ### Read counters (R264) -/

@[simp] theorem State.countRead_pending (s : State) (die block : Nat) : (s.countRead die block).pending = s.pending := by
  unfold State.countRead
  dsimp only
  split <;> simp

/-! ### Dellux (R255–R262) -/

@[simp] theorem State.writeStamp_pending (s : State) (lane b m off die block : Nat) :
    (s.writeStamp lane b m off die block).pending = s.pending := by
  simp [State.writeStamp]

@[simp] theorem State.clearStamps_pending (s : State) (lane b m : Nat) : (s.clearStamps lane b m).pending = s.pending := (rfl)

@[simp] theorem State.countDellux_pending (s : State) (lane b m off die : Nat) : (s.countDellux lane b m off die).pending = s.pending := by
  unfold State.countDellux
  split <;> simp

/-! ### Furrow steps (R151–R153) -/

@[simp] theorem State.issueRead_pending (s : State) (n block off : Nat) (ofs : Option (List ℤ)) :
    (s.issueRead n block off ofs).pending = s.pending := by
  simp [State.issueRead]

@[simp] theorem State.issueSuspend_pending (s : State) (n : Nat) : (s.issueSuspend n).pending = s.pending := by
  unfold State.issueSuspend
  split <;> simp

@[simp] theorem State.issueResume_pending (s : State) (n : Nat) : (s.issueResume n).pending = s.pending := by
  simp only [State.issueResume]
  (repeat' split) <;> simp

@[simp] theorem State.issueHold_pending (s : State) (n : Nat) (erase : Bool) (block off plan : Nat) :
    (s.issueHold n erase block off plan).pending = s.pending := by
  simp [State.issueHold]

@[simp] theorem State.endHold_pending (s : State) (n : Nat) : (s.endHold n).pending = s.pending := by simp [State.endHold]

/-! ### Measured times (R159, R160) -/

@[simp] theorem State.measure_pending (s : State) (n k m : Nat) : (s.measure n k m).pending = s.pending := by simp [State.measure]

/-! ### Classification (R275) -/

@[simp] theorem State.makeVictim_pending (s : State) (die block cls : Nat) : (s.makeVictim die block cls).pending = s.pending := (rfl)

@[simp] theorem State.replaceSystem_pending (s : State) (die block trigger : Nat) :
    (s.replaceSystem die block trigger).pending = s.pending := by
  unfold State.replaceSystem
  dsimp only
  split <;> simp

@[simp] theorem State.condemn_pending (s : State) (die block trigger : Nat) : (s.condemn die block trigger).pending = s.pending := by
  simp [State.condemn]

@[simp] theorem State.mismatch_pending (s : State) (die block : Nat) : (s.mismatch die block).pending = s.pending := by
  simp [State.mismatch]

@[simp] theorem State.removeDecoder_pending (s : State) (soft : Bool) (dec : Nat) : (s.removeDecoder soft dec).pending = s.pending := by
  simp [State.removeDecoder]

@[simp] theorem State.syndrome_pending (s : State) (soft : Bool) (dec : Nat) : (s.syndrome soft dec).pending = s.pending := by
  simp [State.syndrome]

@[simp] theorem State.countL0Fail_pending (s : State) (die block off : Nat) : (s.countL0Fail die block off).pending = s.pending := by
  unfold State.countL0Fail
  dsimp only
  (repeat' split) <;> simp

@[simp] theorem State.learnShift_pending (s : State) (die block off : Nat) (n : ℤ) :
    (s.learnShift die block off n).pending = s.pending := by
  unfold State.learnShift
  split <;> simp

@[simp] theorem State.recoveredByPeers_pending (s : State) (lane b m off die block : Nat) :
    (s.recoveredByPeers lane b m off die block).pending = s.pending := by
  simp [State.recoveredByPeers]

@[simp] theorem State.decoded_pending (s : State) (soft : Bool) (dec step die block off cw : Nat) (r : DecodeResult) :
    (s.decoded soft dec step die block off cw r).2.pending = s.pending := by
  unfold State.decoded
  dsimp only
  split <;> simp

/-! ### DIE_READY (R152, R156, R160, R230, R232) -/

@[simp] theorem State.programEnd_pending (s : State) (n : Nat) (h : DieHold) (fail : Bool) :
    (s.programEnd n h fail).pending = s.pending := by
  simp [State.programEnd]

@[simp] theorem State.erasePass_pending (s : State) (n block : Nat) : (s.erasePass n block).pending = s.pending := by
  unfold State.erasePass
  split <;> simp

@[simp] theorem State.dropMember_pending (s : State) (n block : Nat) : (s.dropMember n block).pending = s.pending := (rfl)

@[simp] theorem State.eraseEnd_pending (s : State) (n : Nat) (h : DieHold) (fail : Bool) : (s.eraseEnd n h fail).pending = s.pending := by
  simp [State.eraseEnd]

@[simp] theorem State.dieReady_pending (s : State) (n : Nat) (fail : Bool) (sr : Nat) : (s.dieReady n fail sr).pending = s.pending := by
  unfold State.dieReady
  dsimp only
  (repeat' split) <;> simp

@[simp] theorem execDieReady_keepsQueue (die : Fin 1024) (fail : Bool) (sr : Byte) (s : State) :
    keepsQueue s (execDieReady die fail sr s) := by
  simp [execDieReady]

/-! ### Timeouts and LUN resets (R154) -/

@[simp] theorem State.statusTimeout_pending (s : State) (n : Nat) : (s.statusTimeout n).pending = s.pending := by
  unfold State.statusTimeout
  dsimp only
  (repeat' split) <;> simp

@[simp] theorem execStatusTimeout_keepsQueue (die : Fin 1024) (s : State) : keepsQueue s (execStatusTimeout die s) := by
  simp [execStatusTimeout]

@[simp] theorem execLunResetComplete_keepsQueue (die : Fin 1024) (s : State) : keepsQueue s (execLunResetComplete die s) := by
  unfold execLunResetComplete
  split <;> simp

/-! ### Retrains (R144–R146) -/

@[simp] theorem State.train_pending (s : State) (c rung : Nat) (second : Bool) : (s.train c rung second).pending = s.pending := by
  simp [State.train]

@[simp] theorem State.retrain_pending (s : State) (c rung : Nat) (raise : Bool) : (s.retrain c rung raise).pending = s.pending := by
  simp [State.retrain]

@[simp] theorem execRetrainStart_keepsQueue (ch : Fin 64) (s : State) : keepsQueue s (execRetrainStart ch s) := by simp [execRetrainStart]

@[simp] theorem State.bringUp_pending (s : State) (c : Nat) : (s.bringUp c).pending = s.pending := by
  unfold State.bringUp
  split <;> simp

@[simp] theorem State.retrainFailed_pending (s : State) (c : Nat) (counted : Bool) : (s.retrainFailed c counted).pending = s.pending := by
  simp [State.retrainFailed]

@[simp] theorem State.trainingEnd_pending (s : State) (c : Nat) (pass : Bool) : (s.trainingEnd c pass).pending = s.pending := by
  unfold State.trainingEnd
  split <;> simp

@[simp] theorem execRetrainTrainingEnd_keepsQueue (ch : Fin 64) (pass : Bool) (s : State) :
    keepsQueue s (execRetrainTrainingEnd ch pass s) := by
  simp [execRetrainTrainingEnd]

@[simp] theorem execRetrainRetry_keepsQueue (ch : Fin 64) (s : State) : keepsQueue s (execRetrainRetry ch s) := by
  unfold execRetrainRetry
  split <;> simp

/-! ### The retry hint (R113) -/

@[simp] theorem State.future_pending (s : State) (t : Nat) : (s.future t).pending = s.pending := (rfl)

/-! ### Accounting and outcomes -/

@[simp] theorem State.onCmd_pending (s : State) (r : CmdRef) (f : Cmd → Cmd) : (s.onCmd r f).pending = s.pending := (rfl)

@[simp] theorem State.onAcct_pending (s : State) (cls : Nat) (f : ClassAcct → ClassAcct) : (s.onAcct cls f).pending = s.pending := (rfl)

@[simp] theorem State.settle_pending (s : State) (r : CmdRef) (st : Status) (post : Nat) : (s.settle r st post).pending = s.pending := (rfl)

@[simp] theorem State.wakeFor_pending (s : State) (p : Parts) (reason : Nat) : (s.wakeFor p reason).pending = s.pending := by
  simp [State.wakeFor]

@[simp] theorem State.refuseWith_pending (s : State) (c : Cmd) (cls reason h : Nat) : (s.refuseWith c cls reason h).pending = s.pending :=
  (rfl)

@[simp] theorem State.refuse_pending (s : State) (c : Cmd) (ns : Namespace) (p : Parts) (cls reason : Nat) :
    (s.refuse c ns p cls reason).pending = s.pending := by
  simp [State.refuse]

/-! ### The commit -/

@[simp] theorem State.takeSlots_pending (s : State) (c : Cmd) (handle plan : Nat) (l : List UnitWrite) :
    (s.takeSlots c handle plan l).2.pending = s.pending := by
  induction l generalizing s with
  | nil => rfl
  | cons w t ih => simp [State.takeSlots, ih]

@[simp] theorem State.countStamps_pending (s : State) (turn : Nat) (us : List UnitRead) : (s.countStamps turn us).pending = s.pending :=
  (rfl)

@[simp] theorem State.noteRead_pending (s : State) (host served : Bool) (u : UnitRead) :
    (s.noteRead host served u).pending = s.pending := by
  unfold State.noteRead
  split <;> simp

@[simp] theorem State.commit_pending (s : State) (c : Cmd) (ns : Namespace) (p : Parts) (cls : Nat) (d : Draft) (tr : Trial) :
    (s.commit c ns p cls d tr).pending = s.pending := by
  simp [State.commit]

/-! ### The decision -/

@[simp] theorem State.countLines_pending (s : State) (c : Cmd) (lines : List Nat) : (s.countLines c lines).pending = s.pending := by
  simp [State.countLines]

@[simp] theorem State.holdBest_pending (s : State) (c : Cmd) : (s.holdBest c).pending = s.pending := (rfl)

@[simp] theorem State.tableFault_pending (s : State) (c : Cmd) (ns : Namespace) : (s.tableFault c ns).pending = s.pending := (rfl)

@[simp] theorem State.decideOne_pending (s : State) (c : Cmd) : (s.decideOne c).pending = s.pending := by
  unfold State.decideOne
  dsimp only
  (repeat' split) <;> simp

/-! ### Which commands are due -/

@[simp] theorem State.decideWhile_pending (go : Cmd → Bool) (fuel : Nat) (s : State) :
    (State.decideWhile go fuel s).pending = s.pending := by
  induction fuel generalizing s with
  | zero => rfl
  | succ n ih =>
    unfold State.decideWhile
    split
    · split <;> simp [ih]
    · rfl

@[simp] theorem State.decideDue_pending (s : State) : s.decideDue.pending = s.pending := by simp [State.decideDue]

@[simp] theorem execAdmissionDecision_keepsQueue (s : State) : keepsQueue s (execAdmissionDecision s) := by simp [execAdmissionDecision]

@[simp] theorem State.commitBest_pending (s : State) (c : Cmd) : (s.commitBest c).pending = s.pending := by
  simp only [State.commitBest]
  (repeat' split) <;> simp

@[simp] theorem execBestEffortCommit_keepsQueue (r : CmdRef) (s : State) : keepsQueue s (execBestEffortCommit r s) := by
  unfold execBestEffortCommit
  split <;> simp

@[simp] theorem State.decideUpTo_pending (s : State) (r : CmdRef) (k : Nat → Bool) : (s.decideUpTo r k).pending = s.pending := by
  unfold State.decideUpTo
  split <;> simp

@[simp] theorem execWrite_keepsQueue (r : CmdRef) (s : State) : keepsQueue s (execWrite r s) := by simp [execWrite]

@[simp] theorem execRead_keepsQueue (r : CmdRef) (s : State) : keepsQueue s (execRead r s) := by simp [execRead]

@[simp] theorem execCompare_keepsQueue (r : CmdRef) (s : State) : keepsQueue s (execCompare r s) := by simp [execCompare]

@[simp] theorem execWriteZeroes_keepsQueue (r : CmdRef) (s : State) : keepsQueue s (execWriteZeroes r s) := by simp [execWriteZeroes]

@[simp] theorem execVerify_keepsQueue (r : CmdRef) (s : State) : keepsQueue s (execVerify r s) := by simp [execVerify]

@[simp] theorem execCopy_keepsQueue (r : CmdRef) (s : State) : keepsQueue s (execCopy r s) := by simp [execCopy]

@[simp] theorem execZoneManagementSend_keepsQueue (r : CmdRef) (s : State) : keepsQueue s (execZoneManagementSend r s) := by
  simp [execZoneManagementSend]

@[simp] theorem execZoneManagementReceive_keepsQueue (r : CmdRef) (s : State) : keepsQueue s (execZoneManagementReceive r s) := by
  simp [execZoneManagementReceive]

@[simp] theorem execZoneAppend_keepsQueue (r : CmdRef) (s : State) : keepsQueue s (execZoneAppend r s) := by simp [execZoneAppend]

/-! ### Training (R344, R368) -/

@[simp] theorem State.startTraining_pending (s : State) (ch op : Nat) : (s.startTraining ch op).pending = s.pending := by
  simp [State.startTraining]

@[simp] theorem State.trainingGo_pending (s : State) (ch : Fin 12) (op : Nat) (i : Instr) : (s.trainingGo ch op i).pending = s.pending := by
  simp [State.trainingGo]

@[simp] theorem execTrainingWritePattern_keepsQueue (ch : Fin 12) (s : State) : keepsQueue s (execTrainingWritePattern ch s) := by
  simp [execTrainingWritePattern]

@[simp] theorem execTrainingReadCompare_keepsQueue (ch : Fin 12) (s : State) : keepsQueue s (execTrainingReadCompare ch s) := by
  simp [execTrainingReadCompare]

@[simp] theorem execTrainingWriteReadCompare_keepsQueue (ch : Fin 12) (s : State) : keepsQueue s (execTrainingWriteReadCompare ch s) := by
  simp [execTrainingWriteReadCompare]

@[simp] theorem execZqCalibration_keepsQueue (ch : Fin 12) (s : State) : keepsQueue s (execZqCalibration ch s) := by
  simp [execZqCalibration]

@[simp] theorem execTrainingDone_keepsQueue (ch : Fin 12) (errors lanes : Nat) (s : State) :
    keepsQueue s (execTrainingDone ch errors lanes s) := by
  simp [execTrainingDone]

/-! ### Mode registers (R368) -/

@[simp] theorem execModeRegisterWrite_keepsQueue (ch : Fin 12) (mr data : Byte) (subch rank : Bool) (s : State) :
    keepsQueue s (execModeRegisterWrite ch mr data subch rank s) := by
  simp [execModeRegisterWrite]

@[simp] theorem execModeRegisterRead_keepsQueue (ch : Fin 12) (mr : Byte) (subch rank : Bool) (s : State) :
    keepsQueue s (execModeRegisterRead ch mr subch rank s) := by
  simp [execModeRegisterRead]

/-! ### Zero-fill (R345) -/

@[simp] theorem execZeroFill_keepsQueue (ch : Fin 12) (s : State) : keepsQueue s (execZeroFill ch s) := by simp [execZeroFill]

@[simp] theorem execFillDone_keepsQueue (ch : Fin 12) (s : State) : keepsQueue s (execFillDone ch s) := by simp [execFillDone]

/-! ### Uncorrectable blocks (R351–R354) -/

@[simp] theorem State.sliceFails_pending (s : State) (ch i : Nat) : (s.sliceFails ch i).pending = s.pending := (rfl)

@[simp] theorem State.countSpare_pending (s : State) : s.countSpare.pending = s.pending := (rfl)

@[simp] theorem State.sliceRetires_pending (s : State) (ch i : Nat) : (s.sliceRetires ch i).pending = s.pending := by
  simp [State.sliceRetires]

@[simp] theorem State.blockError_pending (s : State) (client block : Nat) : (s.blockError client block).pending = s.pending := by
  unfold State.blockError
  dsimp only
  (repeat' split) <;> simp

@[simp] theorem execDramUncorrectable_keepsQueue (block client : Nat) (s : State) :
    keepsQueue s (execDramUncorrectable block client s) := by
  simp [execDramUncorrectable]

@[simp] theorem execRemapCopyComplete_keepsQueue (block : Nat) (s : State) : keepsQueue s (execRemapCopyComplete block s) := by
  simp [execRemapCopyComplete]

@[simp] theorem execScrubUncorrectable_keepsQueue (ch : Fin 12) (block : Nat) (s : State) :
    keepsQueue s (execScrubUncorrectable ch block s) := by
  simp [execScrubUncorrectable]

/-! ### Hammered rows and refresh (R349, R350) -/

@[simp] theorem State.hammerHit_pending (s : State) (r : RowCount) : (s.hammerHit r).pending = s.pending := by simp [State.hammerHit]

@[simp] theorem State.activate_pending (s : State) (a : Activation) : (s.activate a).pending = s.pending := by simp [State.activate]

@[simp] theorem execHammerWindowExpiry_keepsQueue (ch : Fin 12) (s : State) : keepsQueue s (execHammerWindowExpiry ch s) := by
  simp [execHammerWindowExpiry]

@[simp] theorem execDramRefresh_keepsQueue (ch : Fin 12) (hot : Bool) (s : State) : keepsQueue s (execDramRefresh ch hot s) := by
  simp [execDramRefresh]

/-! ### Queues -/

@[simp] theorem State.onSq_pending (s : State) (c : Fin 2) (qid : Nat) (f : Sq → Sq) : (s.onSq c qid f).pending = s.pending := by
  simp [State.onSq]

@[simp] theorem State.onCq_pending (s : State) (c : Fin 2) (qid : Nat) (f : Cq → Cq) : (s.onCq c qid f).pending = s.pending := by
  simp [State.onCq]

@[simp] theorem State.hgtEvent_pending (s : State) (c : Fin 2) (bit0 : Nat) : (s.hgtEvent c bit0).pending = s.pending := (rfl)

/-! ### Interrupts (R61, R48) -/

@[simp] theorem State.sendMsix_pending (s : State) (c : Fin 2) (v : Nat) : (s.sendMsix c v).pending = s.pending := (rfl)

@[simp] theorem State.interrupt_pending (s : State) (c : Fin 2) (v : Nat) : (s.interrupt c v).pending = s.pending := by
  simp [State.interrupt]

@[simp] theorem execInterruptCoalescingExpiry_keepsQueue (c : Fin 2) (vector : Nat) (s : State) :
    keepsQueue s (execInterruptCoalescingExpiry c vector s) := by
  unfold execInterruptCoalescingExpiry
  split <;> simp

/-! ### Completions (R61) -/

@[simp] theorem State.postCqe_pending (s : State) (c : Fin 2) (cqid : Nat) (x3 : HeldCqe) : (s.postCqe c cqid x3).pending = s.pending := by
  unfold State.postCqe
  split <;> simp

@[simp] theorem State.logError_pending (s : State) (sqid cid : Nat) (st : Status) (lba nsid : Nat) :
    (s.logError sqid cid st lba nsid).pending = s.pending := by
  simp [State.logError]

@[simp] theorem State.reply_pending (s : State) (a : Adm) (st : Status) (data : List Bytes) : (s.reply a st data).pending = s.pending := by
  unfold State.reply
  split <;> simp

@[simp] theorem State.hear_pending (s : State) (a : Adm) {k : State → State} (hk : ∀ t, (k t).pending = t.pending) :
    (s.hear a k).pending = s.pending := by
  simp only [State.hear]
  (repeat' split) <;> simp [hk]

@[simp] theorem State.replyDone_pending (s : State) (x : Option Adm) : (s.replyDone x).pending = s.pending := by
  unfold State.replyDone
  split <;> simp

@[simp] theorem State.replyNext_pending (s : State) (x : Option Adm) : (s.replyNext x).pending = s.pending := by
  unfold State.replyNext
  split <;> simp

@[simp] theorem State.postPsDone_pending (s : State) : s.postPsDone.pending = s.pending := by simp [State.postPsDone]

@[simp] theorem State.parkBanks_pending (s : State) : s.parkBanks.pending = s.pending := by simp [State.parkBanks]

@[simp] theorem State.unparkBanks_pending (s : State) (banks : List Nat) : (s.unparkBanks banks).pending = s.pending := by
  simp [State.unparkBanks]

@[simp] theorem State.wakeBack_pending (s : State) (n : Fin 24) : (s.wakeBack n).pending = s.pending := by
  unfold State.wakeBack
  split <;> simp

@[simp] theorem State.startExit_pending (s : State) (req : Option Adm) : (s.startExit req).pending = s.pending := by simp [State.startExit]

@[simp] theorem State.adminExit_pending (s : State) (a : Adm) : (s.adminExit a).pending = s.pending := by simp [State.adminExit]

@[simp] theorem State.admin_pending (s : State) (a : Adm) {k : State → State} (hk : ∀ t, (k t).pending = t.pending) :
    (s.admin a k).pending = s.pending := by
  simp [State.admin, hk]

@[simp] theorem State.riderAdmin_pending (s : State) (a : Adm) (i : Instr) {k : State → State} (hk : ∀ t, (k t).pending = t.pending) :
    (s.riderAdmin a i k).pending = s.pending := by
  simp [State.riderAdmin, hk]

/-! ### Asynchronous events (R60, R469) -/

@[simp] theorem State.raise_pending (s : State) (c : Fin 2) (type info lid : Nat) : (s.raise c type info lid).pending = s.pending := by
  simp only [State.raise]
  (repeat' split) <;> simp

@[simp] theorem State.raiseBoth_pending (s : State) (type info lid : Nat) : (s.raiseBoth type info lid).pending = s.pending := by
  simp [State.raiseBoth]

@[simp] theorem State.rearm_pending (s : State) (c : Fin 2) (lid : Nat) : (s.rearm c lid).pending = s.pending := (rfl)

@[simp] theorem execAsynchronousEventRequest_keepsQueue (a : Adm) (s : State) : keepsQueue s (execAsynchronousEventRequest a s) := by
  refine (keepsQueue_next _ _).2 (State.admin_pending s a fun t => ?_)
  split
  · simp
  · split
    · simp
    · split <;> simp

/-! ### Ending plans -/

@[simp] theorem State.endPlan_pending (s : State) (id : Nat) : (s.endPlan id).pending = s.pending := (rfl)

@[simp] theorem State.cancelWrites_pending (s : State) (id : Nat) : (s.cancelWrites id).pending = s.pending := (rfl)

@[simp] theorem State.dropCmd_pending (s : State) (r : CmdRef) : (s.dropCmd r).pending = s.pending := (rfl)

/-! ### Posting an I/O completion -/

@[simp] theorem State.freeze_pending (s : State) (c : Cmd) (st : Status) : (s.freeze c st).pending = s.pending := by
  unfold State.freeze
  split <;> simp

@[simp] theorem State.account_pending (s : State) (c : Cmd) (st : Status) : (s.account c st).pending = s.pending := by simp [State.account]

@[simp] theorem State.postCmd_pending (s : State) (c : Cmd) (st : Status) (data : List Bytes) :
    (s.postCmd c st data).pending = s.pending := by
  unfold State.postCmd
  dsimp only
  (repeat' split) <;> simp

/-! ### Doorbells (R58, R60, R61, R75) -/

@[simp] theorem State.badDoorbell_pending (s : State) (c : Fin 2) (info bell value : Nat) :
    (s.badDoorbell c info bell value).pending = s.pending :=
  (rfl)

@[simp] theorem State.reportBell_pending (s : State) (c : Fin 2) (b : Nat × Nat × Nat) : (s.reportBell c b).pending = s.pending := by
  simp [State.reportBell]

@[simp] theorem State.goodDoorbell_pending (s : State) (c : Fin 2) (bell : Nat) : (s.goodDoorbell c bell).pending = s.pending := by
  simp [State.goodDoorbell]

@[simp] theorem State.endEntry_pending (s : State) (outcome : Nat) : (s.endEntry outcome).pending = s.pending := by
  unfold State.endEntry
  split <;> simp

@[simp] theorem State.doorbellPower_pending (s : State) (qid : Nat) : (s.doorbellPower qid).pending = s.pending := by
  simp only [State.doorbellPower]
  (repeat' split) <;> simp

@[simp] theorem State.observeTail_pending (s : State) (c : Fin 2) (q : Sq) (value : Nat) :
    (s.observeTail c q value).pending = s.pending := by
  simp [State.observeTail]

@[simp] theorem State.tailDoorbell_pending (s : State) (c : Fin 2) (qid value : Nat) :
    (s.tailDoorbell c qid value).pending = s.pending := by
  unfold State.tailDoorbell
  split <;> simp

@[simp] theorem State.leaveL1_pending (s : State) (c : Fin 2) : (s.leaveL1 c).pending = s.pending := by simp [State.leaveL1]

@[simp] theorem execSqTailDoorbell_keepsQueue (c : Fin 2) (qid value : Nat) (s : State) :
    keepsQueue s (execSqTailDoorbell c qid value s) := by
  simp [execSqTailDoorbell]

@[simp] theorem State.drainCq_pending (s : State) (c : Fin 2) (qid fuel : Nat) : (s.drainCq c qid fuel).pending = s.pending := by
  induction fuel generalizing s with
  | zero => rfl
  | succ n ih =>
    unfold State.drainCq
    split
    · rfl
    · split
      · rfl
      · split <;> simp [ih]

@[simp] theorem State.takeHead_pending (s : State) (c : Fin 2) (q : Cq) (value : Nat) : (s.takeHead c q value).pending = s.pending := by
  simp [State.takeHead]

@[simp] theorem execCqHeadDoorbell_keepsQueue (c : Fin 2) (qid value : Nat) (s : State) :
    keepsQueue s (execCqHeadDoorbell c qid value s) := by
  simp only [execCqHeadDoorbell]
  (repeat' split) <;> simp

@[simp] theorem State.bellTurn_pending (s : State) (c : Fin 2) : (s.bellTurn c).pending = s.pending := by
  refine (foldl_pending (fun s b => State.reportBell_pending s c b) _ _).trans ?_
  rw [State.pending_ite, State.onCtl_pending, ite_self]
  exact foldl_pending (fun s q => by split <;> simp) _ _

/-! ### Entry fetch (R55, R56, R59, R67) -/

@[simp] theorem State.takeEntry_pending (s : State) (c : Fin 2) (q : Sq) (v : Nat × Nat × Bool × Nat) (e : Sqe) :
    (s.takeEntry c q v e).pending = s.pending := by
  unfold State.takeEntry
  dsimp only
  (repeat' split) <;> simp

@[simp] theorem State.exhaust_pending (s : State) (c : Fin 2) : (s.exhaust c).pending = s.pending := by simp [State.exhaust]

@[simp] theorem State.countFetch_pending (s : State) (c : Fin 2) (sqid : Nat) : (s.countFetch c sqid).pending = s.pending := (rfl)

@[simp] theorem State.fetch_pending (s : State) (c : Fin 2) (sqid : Nat) (l : List Sqe) : (s.fetch c sqid l).pending = s.pending := by
  induction l generalizing s with
  | nil => rfl
  | cons e t ih =>
    unfold State.fetch
    split
    · rfl
    · split
      · rfl
      · split
        · rfl
        · dsimp only; split <;> simp [ih]

@[simp] theorem execEntryFetch_keepsQueue (c : Fin 2) (sqid : Nat) (entries : List Sqe) (rttNs : Nat) (s : State) :
    keepsQueue s (execEntryFetch c sqid entries rttNs s) := by
  simp [execEntryFetch]

@[simp] theorem execFetchResumeOnContext_keepsQueue (c : Fin 2) (s : State) : keepsQueue s (execFetchResumeOnContext c s) := by
  simp [execFetchResumeOnContext]

@[simp] theorem execFlush_keepsQueue (r : CmdRef) (s : State) : keepsQueue s (execFlush r s) := by
  simp only [execFlush]
  (repeat' split) <;> simp

@[simp] theorem execDatasetManagement_keepsQueue (r : CmdRef) (s : State) : keepsQueue s (execDatasetManagement r s) := by
  simp only [execDatasetManagement]
  (repeat' split) <;> simp

/-! ### Queue management (R62, R57) -/

@[simp] theorem State.createCq_pending (s : State) (c : Fin 2) (a : Adm) (qid qsize vector : Nat) (pc ien : Bool) :
    (s.createCq c a qid qsize vector pc ien).pending = s.pending := by
  simp [State.createCq]

@[simp] theorem execCreateIoCq_keepsQueue (a : Adm) (qid qsize vector : Nat) (pc ien : Bool) (s : State) :
    keepsQueue s (execCreateIoCq a qid qsize vector pc ien s) := by
  unfold execCreateIoCq
  split <;> simp

@[simp] theorem State.createSq_pending (s : State) (c : Fin 2) (a : Adm) (qid qsize cqid : Nat) (pc : Bool) :
    (s.createSq c a qid qsize cqid pc).pending = s.pending := by
  simp [State.createSq]

@[simp] theorem execCreateIoSq_keepsQueue (a : Adm) (qid qsize cqid : Nat) (pc : Bool) (s : State) :
    keepsQueue s (execCreateIoSq a qid qsize cqid pc s) := by
  unfold execCreateIoSq
  split <;> simp

@[simp] theorem State.abandon_pending (s : State) (p : Cmd → Bool) : (s.abandon p).pending = s.pending := by simp [State.abandon]

@[simp] theorem State.deleteSq_pending (s : State) (c : Fin 2) (a : Adm) (qid : Nat) : (s.deleteSq c a qid).pending = s.pending := by
  simp [State.deleteSq]

@[simp] theorem execDeleteIoSq_keepsQueue (a : Adm) (qid : Nat) (s : State) : keepsQueue s (execDeleteIoSq a qid s) := by
  unfold execDeleteIoSq
  split <;> simp

@[simp] theorem State.deleteCq_pending (s : State) (c : Fin 2) (a : Adm) (qid : Nat) : (s.deleteCq c a qid).pending = s.pending := by
  simp [State.deleteCq]

@[simp] theorem execDeleteIoCq_keepsQueue (a : Adm) (qid : Nat) (s : State) : keepsQueue s (execDeleteIoCq a qid s) := by
  unfold execDeleteIoCq
  split <;> simp

/-! ### Abort (R71, R72) -/

@[simp] theorem State.abortLater_pending (s : State) (c : Fin 2) (a : Adm) (target : Option (CmdRef × Nat)) (bit : Nat) :
    (s.abortLater c a target bit).pending = s.pending :=
  (rfl)

@[simp] theorem State.abortIo_pending (s : State) (c : Fin 2) (a : Adm) (k : Cmd) : (s.abortIo c a k).pending = s.pending := by
  simp [State.abortIo]

@[simp] theorem State.replyAborts_pending (s : State) (c : Fin 2) : (s.replyAborts c).pending = s.pending := by simp [State.replyAborts]

@[simp] theorem State.abortCmd_pending (s : State) (c : Fin 2) (a : Adm) (sqid cid : Nat) :
    (s.abortCmd c a sqid cid).pending = s.pending := by
  simp only [State.abortCmd]
  (repeat' split) <;> simp

@[simp] theorem execAbort_keepsQueue (a : Adm) (sqid cid : Nat) (s : State) : keepsQueue s (execAbort a sqid cid s) := by
  unfold execAbort
  split <;> simp

/-! ### Queue Restart (R77, R75) -/

@[simp] theorem State.restartSq_pending (s : State) (c : Fin 2) (a : Adm) (sqid freezeSeq : Nat) :
    (s.restartSq c a sqid freezeSeq).pending = s.pending := by
  unfold State.restartSq
  dsimp only
  (repeat' split) <;> simp

@[simp] theorem execQueueRestart_keepsQueue (a : Adm) (sqid freezeSeq : Nat) (s : State) :
    keepsQueue s (execQueueRestart a sqid freezeSeq s) := by
  unfold execQueueRestart
  split <;> simp

@[simp] theorem State.poisonIo_pending (s : State) (r : CmdRef) : (s.poisonIo r).pending = s.pending := by
  unfold State.poisonIo
  split <;> simp

@[simp] theorem execPoisonedTlp_keepsQueue (r : CmdRef) (s : State) : keepsQueue s (execPoisonedTlp r s) := by simp [execPoisonedTlp]

/-! ### One die read -/

@[simp] theorem State.stepIssue_pending (s : State) (r : DieRead) : (s.stepIssue r).1.pending = s.pending := by
  unfold State.stepIssue
  split <;> simp

@[simp] theorem State.stepWaiting_pending (s : State) (w : ReadFor) (r : DieRead) : (s.stepWaiting w r).1.pending = s.pending := by
  unfold State.stepWaiting
  dsimp only
  split_ifs <;> simp

@[simp] theorem State.crcFailure_pending (s : State) (w : ReadFor) (r : DieRead) : (s.crcFailure w r).1.pending = s.pending := by
  unfold State.crcFailure
  dsimp only
  (repeat' split) <;> simp

@[simp] theorem State.stepIssued_pending (s : State) (e : EdgeEnv) (w : ReadFor) (r : DieRead) :
    (s.stepIssued e w r).1.pending = s.pending := by
  unfold State.stepIssued
  dsimp only
  split_ifs <;> simp

@[simp] theorem State.stepResume_pending (s : State) (r : DieRead) : (s.stepResume r).pending = s.pending := by
  unfold State.stepResume
  split <;> simp

@[simp] theorem State.stepDie_pending (s : State) (e : EdgeEnv) (w : ReadFor) (r : DieRead) : (s.stepDie e w r).1.pending = s.pending := by
  simp only [State.stepDie]
  (repeat' split) <;> simp

@[simp] theorem State.stepDies_pending (s : State) (e : EdgeEnv) (w : ReadFor) (l : List DieRead) :
    (s.stepDies e w l).1.pending = s.pending := by
  induction l generalizing s with
  | nil => rfl
  | cons r t ih => simp [State.stepDies, ih]

/-! ### A unit's read -/

@[simp] theorem State.layNow_pending (s : State) (l : Lay Chain) : ∀ t ∈ s.layNow l, t.2.pending = s.pending := by
  unfold State.layNow
  split <;> simp

@[simp] theorem State.layPending_pending (s : State) (p : Plan) (c : Option Cmd) (tag : Nat) (u : UnitRead) :
    (s.layPending p c tag u).1.pending = s.pending := by
  unfold State.layPending
  split
  · extract_lets x v
    split
    · rfl
    · split
      · next h => exact State.layNow_pending _ _ _ h
      · rfl
  · rfl

/-! ### Second chances (R104, R109) -/

theorem State.relay_pending {s : State} {p : Plan} {c : Option Cmd} {tag : Nat} {u : UnitRead} {x : Chain × State}
    (h : s.relay p c tag u = some x) : x.2.pending = s.pending := by
  unfold State.relay at h
  split at h
  · cases h
  · dsimp only at h
    split at h
    · split_ifs at h <;> (obtain rfl := Option.some.inj h; rfl)
    · obtain rfl := Option.some.inj h; rfl
    · obtain rfl := Option.some.inj h; rfl
    · cases h

theorem State.takeChain_pending (s : State) (tag : Nat) (u : UnitRead) {x : Option (Chain × State)}
    (h : ∀ y, x = some y → y.2.pending = s.pending) : (s.takeChain tag u x).1.pending = s.pending := by
  unfold State.takeChain
  split
  · rfl
  · next ch t => exact h (ch, t) rfl

/-- The chain that is laid again for a read changes the calendar alone. -/
@[simp] theorem State.takeChain_relay_pending (s : State) (p : Plan) (c : Option Cmd) (tag : Nat) (u v : UnitRead) :
    (s.takeChain tag v (s.relay p c tag u)).1.pending = s.pending :=
  s.takeChain_pending tag v fun _ h => State.relay_pending h

@[simp] theorem State.relayOther_pending (s : State) (y : Nat × Nat) : (s.relayOther y).pending = s.pending := by
  unfold State.relayOther
  dsimp only
  (repeat' split) <;> simp

@[simp] theorem State.invoke_pending (s : State) (p : Plan) (c : Option Cmd) (tag : Nat) (u : UnitRead) :
    (s.invoke p c tag u).1.pending = s.pending := by
  unfold State.invoke
  dsimp only
  split_ifs <;> simp

@[simp] theorem State.pending_arm (s : State) (p : Plan) (c : Option Cmd) (tag : Nat) (u : UnitRead) (sec : Chain) :
    (s.arm p c tag u sec).1.pending = s.pending := by
  unfold State.arm
  split <;> simp

@[simp] theorem State.advancePath_pending (s : State) (p : Plan) (c : Option Cmd) (tag : Nat) (u : UnitRead) :
    (s.advancePath p c tag u).1.pending = s.pending := by
  unfold State.advancePath
  dsimp only
  (repeat' split) <;> simp

@[simp] theorem State.noteRebuilt_pending (s : State) (u : UnitRead) (c : Chain) : (s.noteRebuilt u c).pending = s.pending := by
  unfold State.noteRebuilt
  split <;> simp

@[simp] theorem State.exitFails_pending (s : State) (p : Plan) (c : Option Cmd) (tag : Nat) (u : UnitRead) :
    (s.exitFails p c tag u).1.pending = s.pending := by
  unfold State.exitFails
  dsimp only
  (repeat' split) <;> simp

@[simp] theorem State.stepChain_pending (s : State) (e : EdgeEnv) (p : Plan) (c : Option Cmd) (tag : Nat) (u : UnitRead) (ch : Chain) :
    (s.stepChain e p c tag u ch).1.pending = s.pending := by
  unfold State.stepChain
  dsimp only
  split_ifs <;> simp

@[simp] theorem State.slotFails_pending (s : State) (p : Plan) (u : UnitRead) (n : Nat) : (s.slotFails p u n).1.pending = s.pending := by
  unfold State.slotFails
  split <;> simp

@[simp] theorem State.stepSlot_pending (s : State) (e : EdgeEnv) (p : Plan) (c : Option Cmd) (tag : Nat) (u : UnitRead) (n t : Nat) :
    (s.stepSlot e p c tag u n t).1.pending = s.pending := by
  unfold State.stepSlot
  dsimp only
  (repeat' split) <;> simp

@[simp] theorem State.stepUnit_pending (s : State) (e : EdgeEnv) (p : Plan) (c : Option Cmd) (tag : Nat) (u : UnitRead) :
    (s.stepUnit e p c tag u).1.pending = s.pending := by
  unfold State.stepUnit
  dsimp only
  split <;> simp

@[simp] theorem State.stepUnits_pending (s : State) (e : EdgeEnv) (p : Plan) (c : Option Cmd) (tag : Nat) (l : List UnitRead) :
    (s.stepUnits e p c tag l).1.pending = s.pending := by
  induction l generalizing s tag with
  | nil => rfl
  | cons u t ih => simp [State.stepUnits, ih]

/-! ### Windows given back (R22) -/

@[simp] theorem State.giveBack_pending (s : State) (p : Plan) : (s.giveBack p).pending = s.pending := (rfl)

/-! ### Landing (R107, R186, R191–R193) -/

@[simp] theorem State.landUnit_pending (s : State) (ns : Namespace) (fills : List UnitRead) (w : UnitWrite) :
    (s.landUnit ns fills w).pending = s.pending := by
  unfold State.landUnit
  split <;> simp

@[simp] theorem State.voidSlots_pending (s : State) (gone : List Nat) : (s.voidSlots gone).pending = s.pending := (rfl)

@[simp] theorem State.landPlan_pending (s : State) (e : EdgeEnv) (q p : Plan) (c : Cmd) (ns : Namespace) :
    (s.landPlan e q p c ns).1.pending = s.pending := by
  unfold State.landPlan
  dsimp only
  split
  · rfl
  · split
    · simp
    · rw [State.voidSlots_pending]
      exact foldl_fst_pending (fun a w => by split_ifs <;> simp) _ _

/-! ### Map-only steps (R107, R194, R195) -/

/-- `State.setSectorKind` over any way `f` of applying a request: what holds for every `f` is shown without running one. -/
def setKindBy (f : State → Nat → MapReq → Nat → MapResult × State) (s : State) (g k kind : Nat) : State :=
  let old := s.mapWord g
  match entryOf old with
  | .overlay i =>
    let sect := (s.overlay i).sect
    let new := sect - natBits sect (8 * k) 8 * 2 ^ (8 * k) + kind * 2 ^ (8 * k)
    (f s 4 { target := i + 5 * 2 ^ 32, new := new } 0).2
  | _ =>
    let i := s.freeOverlay s.galley.ovl.length 0
    let set (s : State) (field v : Nat) : State := (f s 4 { target := i + field * 2 ^ 32, new := v } 0).2
    let s := set (set (set (set s 0 old) 5 (kind * 2 ^ (8 * k))) 6 (g % 2 ^ 32)) 7 (g / 2 ^ 32)
    (f s 2 { target := g, expect := old, new := entryWord (.overlay i) } 0).2

theorem State.setSectorKind_eq : State.setSectorKind = setKindBy State.applyReq := rfl

theorem setKindBy_pending {f : State → Nat → MapReq → Nat → MapResult × State}
    (hf : ∀ s n q below, (f s n q below).2.pending = s.pending) (s : State) (g k kind : Nat) :
    (setKindBy f s g k kind).pending = s.pending := by
  unfold setKindBy
  dsimp only
  split <;> simp [hf]

@[simp] theorem State.setSectorKind_pending (s : State) (g k kind : Nat) : (s.setSectorKind g k kind).pending = s.pending := by
  rw [State.setSectorKind_eq]
  exact setKindBy_pending State.applyReq_pending s g k kind

@[simp] theorem State.applyOp_pending (s : State) (order : Nat) (x : MapOp) : (s.applyOp order x).pending = s.pending := by
  unfold State.applyOp
  (repeat' split) <;> simp

@[simp] theorem State.portTurn_pending (s : State) : s.portTurn.pending = s.pending := by
  unfold State.portTurn
  extract_lets now step r
  rw [State.ringRun_pending, State.onGalley_pending]
  exact foldl_fst_pending (fun a b => by dsimp only [step]; split_ifs <;> simp) now _

/-! ### Started, late, posted -/

@[simp] theorem State.noteNoData_pending (s : State) (p : Plan) : (s.noteNoData p).pending = s.pending :=
  foldl_pending (fun s x => by split <;> simp) _ _

@[simp] theorem State.fillCache_pending (s : State) (u : UnitRead) : (s.fillCache u).pending = s.pending := by
  unfold State.fillCache
  (repeat' split) <;> simp

@[simp] theorem State.countHost_pending (s : State) (c : Cmd) (ns : Namespace) : (s.countHost c ns).pending = s.pending := by
  unfold State.countHost
  split <;> simp

@[simp] theorem State.postPlan_pending (s : State) (p : Plan) (c : Cmd) : (s.postPlan p c).pending = s.pending := by
  unfold State.postPlan
  split <;> simp

@[simp] theorem State.postOne_pending (s : State) (c : Cmd) : (s.postOne c).pending = s.pending := by
  unfold State.postOne
  (repeat' split) <;> simp

@[simp] theorem State.postTurn_pending (s : State) (e : EdgeEnv) : (s.postTurn e).pending = s.pending :=
  foldl_pending (fun s c => by
    split_ifs
    · rfl
    · split <;> simp) _ _

@[simp] theorem State.setPlan_pending (s : State) (p : Plan) : (s.setPlan p).pending = s.pending := by simp [State.setPlan]

@[simp] theorem State.stepPlan_pending (s : State) (e : EdgeEnv) (q : Plan) : (s.stepPlan e q).pending = s.pending := by
  unfold State.stepPlan
  dsimp only
  (repeat' split) <;> simp

@[simp] theorem State.stepPlans_pending (s : State) (e : EdgeEnv) : (s.stepPlans e).pending = s.pending :=
  foldl_pending (fun s x => by split <;> simp) _ _

/-! ### DECODE_COMPLETE (R250, R157) -/

@[simp] theorem State.proofLost_pending (s : State) (die block plan : Nat) : (s.proofLost die block plan).pending = s.pending := by
  simp [State.proofLost]

@[simp] theorem State.proofReadFailed_pending (s : State) (job : DecodeJob) : (s.proofReadFailed job).pending = s.pending := by
  simp [State.proofReadFailed]

@[simp] theorem State.decodeDone_pending (s : State) (job : DecodeJob) (res : DecodeResult) :
    (s.decodeDone job res).pending = s.pending := by
  unfold State.decodeDone
  split <;> simp

@[simp] theorem execDecodeComplete_keepsQueue (job : DecodeJob) (res : DecodeResult) (s : State) :
    keepsQueue s (execDecodeComplete job res s) := by
  simp [execDecodeComplete]

/-! ### Uncorrectable words (R302) -/

@[simp] theorem State.uncorrectableAnswer_pending (s : State) (client addr : Nat) (x : MemAccess) :
    (s.uncorrectableAnswer client addr x).pending = s.pending := by
  unfold State.uncorrectableAnswer
  split <;> simp

@[simp] theorem State.upsetWord_pending (s : State) (client addr : Nat) (acc : MemAccess) :
    (s.upsetWord client addr acc).pending = s.pending := by
  unfold State.upsetWord
  split <;> simp

@[simp] theorem State.readSlotLost_pending (s : State) (ch : Nat) : (s.readSlotLost ch).pending = s.pending := by
  unfold State.readSlotLost
  dsimp only
  (repeat' split) <;> simp

@[simp] theorem State.refillRegion_pending (s : State) (ch : Nat) : (s.refillRegion ch).pending = s.pending := by simp [State.refillRegion]

@[simp] theorem execSramUncorrectable_keepsQueue (code addr client : Nat) (acc : MemAccess) (s : State) :
    keepsQueue s (execSramUncorrectable code addr client acc s) := by
  unfold execSramUncorrectable
  (repeat' split) <;> simp

/-! ### Bank power (R360–R362) -/

@[simp] theorem State.bankRequest_pending (s : State) (client code req : Nat) : (s.bankRequest client code req).pending = s.pending := by
  simp [State.bankRequest]

@[simp] theorem execBankPowerRequest_keepsQueue (client code req : Nat) (s : State) :
    keepsQueue s (execBankPowerRequest client code req s) := by
  simp [execBankPowerRequest]

@[simp] theorem State.sweepBank_pending (s : State) (code : Nat) : (s.sweepBank code).pending = s.pending := by
  unfold State.sweepBank
  split <;> simp

@[simp] theorem State.bankEnter_pending (s : State) (code : Nat) : (s.bankEnter code).pending = s.pending := by
  unfold State.bankEnter
  split <;> simp

@[simp] theorem execBankIdleEntry_keepsQueue (code : Nat) (s : State) : keepsQueue s (execBankIdleEntry code s) := by
  simp [execBankIdleEntry]

@[simp] theorem execBankWake_keepsQueue (code : Nat) (s : State) : keepsQueue s (execBankWake code s) := by simp [execBankWake]

@[simp] theorem State.bankAwake_pending (s : State) (code : Nat) (uncorrectable canaryBad : Bool) :
    (s.bankAwake code uncorrectable canaryBad).pending = s.pending := by
  unfold State.bankAwake
  split
  · rfl
  · extract_lets from0 from2 bad canary lost s1 s2 s3 s4 s5 s6
    have h1 : s1.pending = s.pending := by simp [s1]
    have h2 : s2.pending = s.pending := by
      rw [← h1]
      unfold s2
      split
      · exact foldl_pending (fun s w => by split <;> simp) _ _
      · split <;> simp
    have h3 : s3.pending = s.pending := by simp [s3, h2]
    have h4 : s4.pending = s.pending := by simp [s4, h3]
    have h5 : s5.pending = s.pending := by simp [s5, h4]
    have h6 : s6.pending = s.pending := by simp [s6, h4, h5]
    simp [h6]

@[simp] theorem execBankLostClear_keepsQueue (client code : Nat) (s : State) : keepsQueue s (execBankLostClear client code s) := by
  simp [execBankLostClear]

@[simp] theorem execBankOwnerWrite_keepsQueue (client code owner : Nat) (s : State) :
    keepsQueue s (execBankOwnerWrite client code owner s) := by
  simp [execBankOwnerWrite]

@[simp] theorem execBankRedirectWrite_keepsQueue (client code spare : Nat) (s : State) :
    keepsQueue s (execBankRedirectWrite client code spare s) := by
  simp [execBankRedirectWrite]

@[simp] theorem State.disableBank_pending (s : State) (code : Nat) : (s.disableBank code).pending = s.pending := by simp [State.disableBank]

@[simp] theorem execBankDisable_keepsQueue (client code : Nat) (s : State) : keepsQueue s (execBankDisable client code s) := by
  simp [execBankDisable]

/-! ### Column repair (R364) -/

@[simp] theorem execColumnRepair_keepsQueue (client code column : Nat) (s : State) :
    keepsQueue s (execColumnRepair client code column s) := by
  simp [execColumnRepair]

@[simp] theorem execColumnRepairDone_keepsQueue (fuseOk : Bool) (s : State) : keepsQueue s (execColumnRepairDone fuseOk s) := by
  unfold execColumnRepairDone
  split <;> simp

/-! ### Flip masks (R303–R305) -/

@[simp] theorem execOcmFlipmaskArm_keepsQueue (client : Nat) (w0 w1 w2 : Word) (s : State) :
    keepsQueue s (execOcmFlipmaskArm client w0 w1 w2 s) := by
  simp [execOcmFlipmaskArm]

@[simp] theorem execDmcFlipmaskArm_keepsQueue (client : Nat) (ch : Fin 12) (w0 w1 w2 : Word) (s : State) :
    keepsQueue s (execDmcFlipmaskArm client ch w0 w1 w2 s) := by
  simp [execDmcFlipmaskArm]

@[simp] theorem execFlipMaskTaken_keepsQueue (dmc : Option (Fin 12)) (client addr : Nat) (s : State) :
    keepsQueue s (execFlipMaskTaken dmc client addr s) := by
  simp [execFlipMaskTaken]

/-! ### Atomics and aliases (R359) -/

theorem State.readWord_pending_of_eq {s t : State} {client a : Nat} {o : Option Nat} (h : s.readWord client a = (o, t)) :
    t.pending = s.pending := by
  have := s.readWord_pending client a
  rwa [h] at this

theorem State.storeWord_pending_of_eq {s t : State} {client a v be : Nat} {b : Bool} (h : s.storeWord client a v be = (b, t)) :
    t.pending = s.pending := by
  have := s.storeWord_pending client a v be
  rwa [h] at this

@[simp] theorem State.amo_pending (s : State) (core : Nat) (op : AmoOp) (double : Bool) (addr v : Nat) :
    (s.amo core op double addr v).pending = s.pending := by
  unfold State.amo
  dsimp only
  split <;> next h => simp [State.readWord_pending_of_eq h]

@[simp] theorem execAtomicMemoryOperation_keepsQueue (core : Fin 24) (op : AmoOp) (double : Bool) (addr : Nat) (value : BitVec 64)
    (s : State) :
    keepsQueue s (execAtomicMemoryOperation core op double addr value s) := by
  simp [execAtomicMemoryOperation]

@[simp] theorem execLoadReserved_keepsQueue (core : Fin 24) (double : Bool) (addr : Nat) (s : State) :
    keepsQueue s (execLoadReserved core double addr s) := by
  refine (keepsQueue_next _ _).2 ?_
  dsimp only
  split
  · rfl
  · refine State.memGate_pending _ _ _ _ _ fun t => ?_
    split <;> next h => simp [State.readWord_pending_of_eq h]

@[simp] theorem execStoreConditional_keepsQueue (core : Fin 24) (double : Bool) (addr : Nat) (value : BitVec 64) (s : State) :
    keepsQueue s (execStoreConditional core double addr value s) := by
  refine (keepsQueue_next _ _).2 ?_
  dsimp only
  split
  · rfl
  · refine State.memGate_pending _ _ _ _ _ fun t => ?_
    split
    · split <;> next h => simp [State.storeWord_pending_of_eq h]
    · rfl

@[simp] theorem State.aliasWrite_pending (s : State) (client addr v be : Nat) (set : Bool) :
    (s.aliasWrite client addr v be set).pending = s.pending := by
  unfold State.aliasWrite
  dsimp only
  split <;> next h => simp [State.readWord_pending_of_eq h]

@[simp] theorem execBitSetAliasWrite_keepsQueue (client addr : Nat) (value : BitVec 64) (be : BitVec 8) (s : State) :
    keepsQueue s (execBitSetAliasWrite client addr value be s) := by
  simp [execBitSetAliasWrite]

@[simp] theorem execBitClearAliasWrite_keepsQueue (client addr : Nat) (value : BitVec 64) (be : BitVec 8) (s : State) :
    keepsQueue s (execBitClearAliasWrite client addr value be s) := by
  simp [execBitClearAliasWrite]

/-! ### The mailbox's two ports (R358) -/

@[simp] theorem execMailboxCollision_keepsQueue (addr : Nat) (portR portC : MbxAccess) (s : State) :
    keepsQueue s (execMailboxCollision addr portR portC s) := by
  refine (keepsQueue_next _ _).2 ?_
  dsimp only
  split
  · refine State.memGate_pending _ _ _ _ _ fun t => ?_
    split <;> next h => simp [State.readWord_pending_of_eq h]
  · rfl

/-! ### Votes (R436) -/

@[simp] theorem State.holdVote_pending (s : State) (n : Fin 24) (client : Nat) : (s.holdVote n client).pending = s.pending := by
  simp [State.holdVote]

@[simp] theorem State.dropVote_pending (s : State) (n : Fin 24) (client : Nat) : (s.dropVote n client).pending = s.pending := by
  simp [State.dropVote]

@[simp] theorem State.requestDrop_pending (s : State) (n : Fin 24) (client : Nat) : (s.requestDrop n client).pending = s.pending := by
  unfold State.requestDrop
  dsimp only
  (repeat' split) <;> simp

@[simp] theorem execVoteWrite_keepsQueue (client dom : Nat) (hold : Bool) (s : State) : keepsQueue s (execVoteWrite client dom hold s) := by
  simp [execVoteWrite]

@[simp] theorem State.onCluster_pending (s : State) (i : Instr) {k : State → State} (hk : ∀ t, (k t).pending = t.pending) :
    (s.onCluster i k).pending = s.pending := by
  unfold State.onCluster
  dsimp only
  split_ifs
  · exact hk s
  · split <;> simp [hk]

@[simp] theorem State.adminVoteTurn_pending (s : State) : s.adminVoteTurn.pending = s.pending := by
  unfold State.adminVoteTurn
  split <;> simp

@[simp] theorem State.clusterAdmin_pending (s : State) (a : Adm) (i : Instr) {k : State → State} (hk : ∀ t, (k t).pending = t.pending) :
    (s.clusterAdmin a i k).pending = s.pending := by
  simp [State.clusterAdmin, hk]

/-! ### Keep-awake floors (R439) -/

@[simp] theorem State.silentVotes_pending (s : State) : s.silentVotes.pending = s.pending := by simp [State.silentVotes]

/-! ### Domains going off (R435–R438) -/

@[simp] theorem State.powerBanks_pending (s : State) (n : Fin 24) : (s.powerBanks n).pending = s.pending := by simp [State.powerBanks]

@[simp] theorem State.parkTcms_pending (s : State) (n : Fin 24) : (s.parkTcms n).pending = s.pending := by simp [State.parkTcms]

@[simp] theorem State.groupOff_pending (s : State) (g : Nat) : (s.groupOff g).pending = s.pending := by simp [State.groupOff]

@[simp] theorem State.groupOn_pending (s : State) (g : Nat) : (s.groupOn g).pending = s.pending := by simp [State.groupOn]

@[simp] theorem State.domainOff_pending (s : State) (n : Fin 24) : (s.domainOff n).pending = s.pending := by simp [State.domainOff]

@[simp] theorem execDomainDrop_keepsQueue (dom : Fin 24) (s : State) : keepsQueue s (execDomainDrop dom s) := by simp [execDomainDrop]

@[simp] theorem execIdleTimerExpiry_keepsQueue (dom : Fin 24) (s : State) : keepsQueue s (execIdleTimerExpiry dom s) := by
  simp [execIdleTimerExpiry]

@[simp] theorem execDomainWakeOnAccess_keepsQueue (dom : Fin 24) (client : Nat) (s : State) :
    keepsQueue s (execDomainWakeOnAccess dom client s) := by
  simp [execDomainWakeOnAccess]

@[simp] theorem execDomainRetire_keepsQueue (client : Nat) (dom : Fin 24) (s : State) : keepsQueue s (execDomainRetire client dom s) := by
  simp [execDomainRetire]

@[simp] theorem execRetiredDomainAccess_keepsQueue (dom : Fin 24) (client addr : Nat) (write : Bool) (s : State) :
    keepsQueue s (execRetiredDomainAccess dom client addr write s) := by
  simp [execRetiredDomainAccess]

@[simp] theorem execFabricParityError_keepsQueue (unit link : Nat) (s : State) : keepsQueue s (execFabricParityError unit link s) := by
  simp [execFabricParityError]

/-! ### The ceiling (R447) -/

@[simp] theorem State.applyCeil_pending (s : State) : s.applyCeil.pending = s.pending := by simp [State.applyCeil]

/-! ### Mode changes (R431) -/

@[simp] theorem State.setMode_pending (s : State) (m : Mode) : (s.setMode m).pending = s.pending := by simp [State.setMode]

@[simp] theorem State.startSurge_pending (s : State) : s.startSurge.pending = s.pending := by simp [State.startSurge]

@[simp] theorem State.endSurge_pending (s : State) (m : Mode) : (s.endSurge m).pending = s.pending := by simp [State.endSurge]

@[simp] theorem State.leaveTo_pending (s : State) (m : Mode) : (s.leaveTo m).pending = s.pending := by simp [State.leaveTo]

@[simp] theorem State.emptyFurrow_pending (s : State) (n : Nat) : (s.emptyFurrow n).pending = s.pending := by simp [State.emptyFurrow]

@[simp] theorem State.emptyDataPlane_pending (s : State) : s.emptyDataPlane.pending = s.pending := by simp [State.emptyDataPlane]

@[simp] theorem State.recoveryDomains_pending (s : State) : s.recoveryDomains.pending = s.pending := by simp [State.recoveryDomains]

@[simp] theorem State.fetchFromExt_pending (s : State) : s.fetchFromExt.pending = s.pending := by simp [State.fetchFromExt]

/-! ### Global operations (R26–R28, R39, R40, R502) -/

@[simp] theorem State.globalStatus_pending (s : State) (busy : Bool) (result op client : Nat) :
    (s.globalStatus busy result op client).pending = s.pending := by
  simp [State.globalStatus]

@[simp] theorem State.issueReset_pending (s : State) (client : Nat) : (s.issueReset client).pending = s.pending := by
  unfold State.issueReset
  dsimp only
  split <;> simp

@[simp] theorem State.issueGlobal_pending (s : State) (client op : Nat) : (s.issueGlobal client op).pending = s.pending := by
  simp [State.issueGlobal]

@[simp] theorem State.enterRecovery_pending (s : State) (cause : Nat) : (s.enterRecovery cause).pending = s.pending := by
  simp [State.enterRecovery]

@[simp] theorem execSealRequest_keepsQueue (client : Nat) (s : State) : keepsQueue s (execSealRequest client s) := by simp [execSealRequest]

@[simp] theorem execRecoverRequest_keepsQueue (client : Nat) (s : State) : keepsQueue s (execRecoverRequest client s) := by
  simp [execRecoverRequest]

@[simp] theorem execPermanentFault_keepsQueue (unit : Nat) (s : State) : keepsQueue s (execPermanentFault unit s) := by
  simp [execPermanentFault]

@[simp] theorem State.abandonForSealed_pending (s : State) : s.abandonForSealed.pending = s.pending := by
  unfold State.abandonForSealed
  (repeat' split) <;> simp

@[simp] theorem State.modeTurn_pending (s : State) : s.modeTurn.pending = s.pending := by simp [State.modeTurn]

/-! ### Power states (R82–R84, R441–R445, R533) -/

@[simp] theorem State.supersede_ps_pending (s : State) : s.supersede_ps.pending = s.pending := by simp [State.supersede_ps]

@[simp] theorem State.beginEntry_pending (s : State) (target : Nat) (req : Option Adm) : (s.beginEntry target req).pending = s.pending := by
  simp [State.beginEntry]

@[simp] theorem State.beginChange_pending (s : State) (target : Nat) (req : Option Adm) :
    (s.beginChange target req).pending = s.pending := by
  simp [State.beginChange]

@[simp] theorem State.selectInConserve_pending (s : State) (g : Nat) (a : Adm) : (s.selectInConserve g a).pending = s.pending := by
  unfold State.selectInConserve
  dsimp only
  (repeat' split) <;> simp

@[simp] theorem State.selectPower_pending (s : State) (c : Fin 2) (ps : Nat) (a : Adm) : (s.selectPower c ps a).pending = s.pending := by
  simp [State.selectPower]

@[simp] theorem State.psTurn_pending (s : State) : s.psTurn.pending = s.pending := by
  unfold State.psTurn
  split <;> simp

@[simp] theorem State.entryTurn_pending (s : State) : s.entryTurn.pending = s.pending := by
  unfold State.entryTurn
  split <;> simp

@[simp] theorem execConserveEntryEnd_keepsQueue (s : State) : keepsQueue s (execConserveEntryEnd s) := by
  unfold execConserveEntryEnd
  split <;> simp

@[simp] theorem execApstTransition_keepsQueue (ps : Nat) (s : State) : keepsQueue s (execApstTransition ps s) := by
  simp [execApstTransition]

@[simp] theorem execConserveExitComplete_keepsQueue (s : State) : keepsQueue s (execConserveExitComplete s) := by
  unfold execConserveExitComplete
  split <;> simp

@[simp] theorem execPs3Ps4ChangeApplied_keepsQueue (s : State) : keepsQueue s (execPs3Ps4ChangeApplied s) := by
  unfold execPs3Ps4ChangeApplied
  split <;> simp

/-! ### Thermal trip (R451) -/

@[simp] theorem execThermtrip_keepsQueue (s : State) : keepsQueue s (execThermtrip s) := by simp [execThermtrip]

/-! ### Global operations by command (R26–R28, R39, R40, R502) -/

@[simp] theorem State.globalWrite_pending (s : State) (client op : Nat) (i : Instr) : (s.globalWrite client op i).pending = s.pending := by
  simp [State.globalWrite]

@[simp] theorem execGlobalStateBroadcast_keepsQueue (client : Nat) (s : State) : keepsQueue s (execGlobalStateBroadcast client s) := by
  simp [execGlobalStateBroadcast]

@[simp] theorem execGlobalBarrier_keepsQueue (client : Nat) (s : State) : keepsQueue s (execGlobalBarrier client s) := by
  simp [execGlobalBarrier]

@[simp] theorem execDataPlaneReset_keepsQueue (client : Nat) (s : State) : keepsQueue s (execDataPlaneReset client s) := by
  simp [execDataPlaneReset]

@[simp] theorem execBarrierComplete_keepsQueue (s : State) : keepsQueue s (execBarrierComplete s) := by
  unfold execBarrierComplete
  split <;> simp

@[simp] theorem State.reloadStates_pending (s : State) : s.reloadStates.pending = s.pending := by
  unfold State.reloadStates
  rw [foldl_pending fun s d => ?_]
  · exact foldl_pending (fun s c => by split <;> simp) _ _
  · split <;> simp

@[simp] theorem State.wakeGroups_pending (s : State) : s.wakeGroups.pending = s.pending := by simp [State.wakeGroups]

@[simp] theorem State.holdBarrier_pending (s : State) : s.holdBarrier.pending = s.pending := by simp [State.holdBarrier]

@[simp] theorem State.globalTurn_pending (s : State) : s.globalTurn.pending = s.pending := by simp [State.globalTurn]

/-! ### Opening a forme-block (R220) -/

@[simp] theorem State.writeFbt_pending (s : State) (lane b i : Nat) (l : List MBlock) : (s.writeFbt lane b i l).pending = s.pending := by
  induction l generalizing s i with
  | nil => rfl
  | cons m t ih => simp [State.writeFbt, ih]

@[simp] theorem State.openForme_pending (s : State) (lane : Nat) (dredge : Bool) : (s.openForme lane dredge).pending = s.pending := by
  simp [State.openForme]

@[simp] theorem execFormeBlockOpen_keepsQueue (lane : Nat) (forDredge : Bool) (s : State) :
    keepsQueue s (execFormeBlockOpen lane forDredge s) := by
  simp [execFormeBlockOpen]

/-! ### Valid units -/

@[simp] theorem State.onForme_pending (s : State) (lane b : Nat) (g : FormeBlock → FormeBlock) :
    (s.onForme lane b g).pending = s.pending := by
  simp [State.onForme]

/-! ### Dredge copies (R227) -/

@[simp] theorem State.loseUnit_pending (s : State) (f m : Nat) (x3 : MediaUnit) : (s.loseUnit f m x3).pending = s.pending := by
  simp [State.loseUnit]

@[simp] theorem State.startWork_pending (s : State) (w : Work) (us : List UnitRead) : (s.startWork w us).pending = s.pending := by
  simp [State.startWork]

@[simp] theorem State.dredgeCopy_pending (s : State) (fb : FormeBlock) (f m : Nat) : (s.dredgeCopy fb f m).pending = s.pending := by
  unfold State.dredgeCopy
  split <;> simp

@[simp] theorem execDredgeCopy_keepsQueue (lane fb unit : Nat) (s : State) : keepsQueue s (execDredgeCopy lane fb unit s) := by
  unfold execDredgeCopy
  split <;> simp

@[simp] theorem State.dredgeEnd_pending (s : State) (us : List UnitRead) (lane b f m : Nat) :
    (s.dredgeEnd us lane b f m).pending = s.pending := by
  unfold State.dredgeEnd
  split <;> simp

/-! ### Merges (R183) -/

@[simp] theorem State.mergeEnd_pending (s : State) (us : List UnitRead) (n : Nat) : (s.mergeEnd us n).pending = s.pending := by
  unfold State.mergeEnd
  split <;> simp

/-! ### Read disturb and patrol (R263, R265, R266) -/

@[simp] theorem State.probe_pending (s : State) (die block cw : Nat) : (s.probe die block cw).pending = s.pending := by
  unfold State.probe
  split <;> simp

@[simp] theorem execReadDisturbProbe_keepsQueue (die : Fin 1024) (block cw : Nat) (s : State) :
    keepsQueue s (execReadDisturbProbe die block cw s) := by
  simp [execReadDisturbProbe]

@[simp] theorem State.probeEnd_pending (s : State) (us : List UnitRead) (die block : Nat) (high : Bool) :
    (s.probeEnd us die block high).pending = s.pending := by
  simp [State.probeEnd]

@[simp] theorem State.patrolRead_pending (s : State) (die block off cw : Nat) (below : Bool) (trims : List ℤ) :
    (s.patrolRead die block off cw below trims).pending = s.pending := by
  unfold State.patrolRead
  split <;> simp

@[simp] theorem execPatrolCycle_keepsQueue (die : Fin 1024) (block page : Nat) (res : PatrolSample) (s : State) :
    keepsQueue s (execPatrolCycle die block page res s) := by
  simp [execPatrolCycle]

@[simp] theorem State.moveTrims_pending (s : State) (die : Nat) (trims : List ℤ) : (s.moveTrims die trims).pending = s.pending := by
  simp [State.moveTrims]

@[simp] theorem State.patrolEnd_pending (s : State) (us : List UnitRead) (die block : Nat) (below : Bool) (trims : List Int) :
    (s.patrolEnd us die block below trims).pending = s.pending := by
  unfold State.patrolEnd
  extract_lets t t'
  have ht : t.pending = s.pending := foldl_pending (fun s u => by
    split
    · split <;> simp
    · split <;> simp
    · rfl) _ _
  have ht' : t'.pending = s.pending := by simp [t', ht]
  split
  · split <;> simp [ht']
  · exact ht'

@[simp] theorem State.stepWorks_pending (s : State) : s.stepWorks.pending = s.pending :=
  foldl_pending (fun s p => by
    split
    · split <;> simp
    · split
      · rfl
      · split <;> simp) _ _

/-! ### Erasing a victim (R229) -/

@[simp] theorem State.eraseVictim_pending (s : State) (fb : FormeBlock) : (s.eraseVictim fb).pending = s.pending := by
  simp [State.eraseVictim]

@[simp] theorem execVictimErase_keepsQueue (lane fb : Nat) (s : State) : keepsQueue s (execVictimErase lane fb s) := by
  unfold execVictimErase
  split <;> simp

/-! ### Placing a forme (R149, R228, R268) -/

@[simp] theorem State.startMerges_pending (s : State) (l : List (Nat × Slot)) : (s.startMerges l).pending = s.pending := by
  simp [State.startMerges]

@[simp] theorem State.commitForme_pending (s : State) (fb : FormeBlock) (handle : Nat) (plan : FormePlan) (bs : List Booking) :
    (s.commitForme fb handle plan bs).pending = s.pending := by
  simp [State.commitForme]

@[simp] theorem State.holdPlacing_pending (s : State) (us : List Placing) : (s.holdPlacing us).pending = s.pending := by
  simp [State.holdPlacing]

@[simp] theorem State.planForme_pending (s : State) (fb : FormeBlock) : (s.planForme fb).pending = s.pending := by
  unfold State.planForme
  dsimp only
  (repeat' split) <;> simp

@[simp] theorem execFormeProgramPlan_keepsQueue (lane fb : Nat) (s : State) : keepsQueue s (execFormeProgramPlan lane fb s) := by
  unfold execFormeProgramPlan
  split <;> simp

/-! ### A turn of the forme plans -/

@[simp] theorem State.programMember_pending (s : State) (p : FormePlan) (i : Nat) (m : FormeMember) :
    (s.programMember p i m).pending = s.pending := by
  simp [State.programMember]

@[simp] theorem State.dataInEnd_pending (s : State) (e : EdgeEnv) (p : FormePlan) (m : FormeMember) :
    (s.dataInEnd e p m).1.pending = s.pending := by
  unfold State.dataInEnd
  dsimp only
  split_ifs <;> simp

@[simp] theorem State.transitFails_pending (s : State) (m : FormeMember) : (s.transitFails m).1.pending = s.pending := by
  simp [State.transitFails]

@[simp] theorem State.dropProof_pending (s : State) (p : FormePlan) (i : Nat) (m : FormeMember) :
    (s.dropProof p i m).1.pending = s.pending := by
  simp [State.dropProof]

/-- `State.replanProof` unfolded as a function: with `State.layProof` generalised, no plan is laid to compare two states. -/
theorem State.replanProof_def : State.replanProof = delta% State.replanProof := rfl

/-- A proof read that is planned again changes the calendar, or nothing. -/
theorem State.replanProof_cases {P : State × FormeMember → Prop} (s : State) (p : FormePlan) (i : Nat) (m : FormeMember)
    (ok : ∀ c bs, P (s.onSluice fun x => { x with bookings := bs }, { m with proof := some c, stage := .ready }))
    (error : P (s, { m with stage := .ready })) : P (s.replanProof p i m) := by
  rw [State.replanProof_def]
  beta_reduce
  generalize State.layProof = lay
  split
  · exact ok _ _
  · exact error

@[simp] theorem State.replanProof_pending (s : State) (p : FormePlan) (i : Nat) (m : FormeMember) :
    (s.replanProof p i m).1.pending = s.pending :=
  State.replanProof_cases (P := fun r => r.1.pending = s.pending) s p i m (fun _ _ => rfl) rfl

@[simp] theorem State.stepProof_pending (s : State) (e : EdgeEnv) (p : FormePlan) (i : Nat) (m : FormeMember) :
    (s.stepProof e p i m).1.pending = s.pending := by
  unfold State.stepProof
  dsimp only
  (repeat' split) <;> simp

@[simp] theorem State.stepMember_pending (s : State) (e : EdgeEnv) (p : FormePlan) (i : Nat) (m : FormeMember) :
    (s.stepMember e p i m).1.pending = s.pending := by
  unfold State.stepMember
  dsimp only
  (repeat' split) <;> simp

@[simp] theorem State.stepMembers_pending (s : State) (e : EdgeEnv) (p : FormePlan) (i : Nat) (l : List FormeMember) :
    (s.stepMembers e p i l).1.pending = s.pending := by
  induction l generalizing s i with
  | nil => rfl
  | cons m t ih => simp [State.stepMembers, ih]

@[simp] theorem State.stepForme_pending (s : State) (e : EdgeEnv) (p : FormePlan) : (s.stepForme e p).pending = s.pending := by
  unfold State.stepForme
  dsimp only
  split <;> simp

@[simp] theorem State.stepFormes_pending (s : State) (e : EdgeEnv) : (s.stepFormes e).pending = s.pending :=
  foldl_pending (fun s x => by split <;> simp) _ _

@[simp] theorem State.stepErases_pending (s : State) (e : EdgeEnv) : (s.stepErases e).pending = s.pending := by simp [State.stepErases]

@[simp] theorem State.resumeLate_pending (s : State) : s.resumeLate.pending = s.pending := foldl_pending (fun s x => by split <;> simp) _ _

@[simp] theorem State.takeFreed_pending (s : State) : s.takeFreed.pending = s.pending := by simp [State.takeFreed]

/-! ### The weir (R222–R224) -/

@[simp] theorem State.setDredgeFloor_pending (s : State) : s.setDredgeFloor.pending = s.pending := by simp [State.setDredgeFloor]

@[simp] theorem execWeirEvaluation_keepsQueue (s : State) : keepsQueue s (execWeirEvaluation s) := by simp [execWeirEvaluation]

@[simp] theorem State.computeRate_pending (s : State) : s.computeRate.pending = s.pending := by simp [State.computeRate]

@[simp] theorem execSustainableRateCompute_keepsQueue (s : State) : keepsQueue s (execSustainableRateCompute s) := by
  simp [execSustainableRateCompute]

/-! ### The wear allotment (R233–R236) -/

@[simp] theorem State.wearTurn_pending (s : State) : s.wearTurn.pending = s.pending := by
  unfold State.wearTurn
  dsimp only
  (repeat' split) <;> simp

@[simp] theorem State.ledgerTurn_pending (s : State) : s.ledgerTurn.pending = s.pending := by simp [State.ledgerTurn]

@[simp] theorem execAllotmentTopup_keepsQueue (s : State) : keepsQueue s (execAllotmentTopup s) := by simp [execAllotmentTopup]

@[simp] theorem execAllotAddWrite_keepsQueue (client : Nat) (value : Word) (s : State) :
    keepsQueue s (execAllotAddWrite client value s) := by
  simp [execAllotAddWrite]

/-! ### Retirement writes (R132, R133, R237) -/

@[simp] theorem execChanOutWrite_keepsQueue (client : Nat) (m : Fin 2) (value : Word) (s : State) :
    keepsQueue s (execChanOutWrite client m value s) := by
  simp [execChanOutWrite]

@[simp] theorem execDieStateWrite_keepsQueue (client : Nat) (die : Fin 1024) (value : Nat) (s : State) :
    keepsQueue s (execDieStateWrite client die value s) := by
  unfold execDieStateWrite
  split <;> simp

/-! ### Rebuilds (R271–R274) -/

@[simp] theorem State.rebuildFlag_pending (s : State) : s.rebuildFlag.pending = s.pending := by simp [State.rebuildFlag]

@[simp] theorem State.startRebuilds_pending (s : State) : s.startRebuilds.pending = s.pending := by simp [State.startRebuilds]

@[simp] theorem execRebuildStart_keepsQueue (s : State) : keepsQueue s (execRebuildStart s) := by simp [execRebuildStart]

@[simp] theorem State.moveMember_pending (s : State) (f : FormeBlock) (i : Nat) (new : MBlock) :
    (s.moveMember f i new).pending = s.pending := by
  simp [State.moveMember]

@[simp] theorem State.recordRebuild_pending (s : State) (key : Nat × Nat × Nat) (halt : Bool) :
    (s.recordRebuild key halt).pending = s.pending := by
  simp [State.recordRebuild]

@[simp] theorem State.rebuildMember_pending (s : State) (f : FormeBlock) (i : Nat) : (s.rebuildMember f i).pending = s.pending := by
  unfold State.rebuildMember
  extract_lets key u broken lose
  have hlose (s : State) (o : Nat) : (lose s o).pending = s.pending := foldl_pending (fun s m => by split <;> simp) _ _
  split
  · simp [hlose]
  · split <;> simp

@[simp] theorem execRebuildMemberComplete_keepsQueue (lane fb member : Nat) (s : State) :
    keepsQueue s (execRebuildMemberComplete lane fb member s) := by
  unfold execRebuildMemberComplete
  split <;> simp

/-! ### Early warnings (R239, Table 06.5) -/

@[simp] theorem State.warn_pending (s : State) (w : Warning) : (s.warn w).pending = s.pending := by
  unfold State.warn
  (repeat' split) <;> simp

@[simp] theorem execEarlyWarningEvent_keepsQueue (s : State) : keepsQueue s (execEarlyWarningEvent s) := by simp [execEarlyWarningEvent]

/-! ### The re-fix (R217) -/

@[simp] theorem State.fixCapacity_pending (s : State) : s.fixCapacity.pending = s.pending := by simp [State.fixCapacity]

@[simp] theorem State.refix_pending (s : State) : s.refix.pending = s.pending := by simp [State.refix]

/-! ### Channel requests -/

@[simp] theorem execChannelUpResume_keepsQueue (ch : Fin 64) (s : State) : keepsQueue s (execChannelUpResume ch s) := by
  refine (keepsQueue_next _ _).2 ?_
  split
  · rfl
  · refine foldl_pending (fun s p => ?_) _ _
    dsimp only
    split
    · split <;> simp
    · simp

@[simp] theorem State.planRetrain_pending (s : State) (ch : Nat) : (s.planRetrain ch).pending = s.pending := by
  unfold State.planRetrain
  split <;> simp

@[simp] theorem execRetrainReq_keepsQueue (client : Nat) (ch : Fin 64) (target : Nat) (s : State) :
    keepsQueue s (execRetrainReq client ch target s) := by
  simp [execRetrainReq]

@[simp] theorem State.raiseTurn_pending (s : State) : s.raiseTurn.pending = s.pending :=
  foldl_pending (fun s c => by
    split
    · rfl
    · split
      · split_ifs <;> simp
      · simp) _ _

/-! ### Clients -/

@[simp] theorem State.fwsError_pending (s : State) (f : Fld) : (s.fwsError f).pending = s.pending := by simp [State.fwsError]

@[simp] theorem State.fwsLock_pending (s : State) : s.fwsLock.pending = s.pending := by simp [State.fwsLock]

@[simp] theorem State.fwsBadSequence_pending (s : State) : s.fwsBadSequence.pending = s.pending := by simp [State.fwsBadSequence]

@[simp] theorem State.fwsAdvance_pending (s : State) (client : Nat) (r : FwsReg) (n : Nat) :
    (s.fwsAdvance client r n).pending = s.pending := by
  unfold State.fwsAdvance
  split <;> simp

@[simp] theorem State.fwsWrite_pending (s : State) (client : Nat) (r : FwsReg) (v : Word) :
    (s.fwsWrite client r v).pending = s.pending := by
  simp [State.fwsWrite]

@[simp] theorem execFwsSequenceWrite_keepsQueue (client : Nat) (reg : FwsReg) (value : Word) (s : State) :
    keepsQueue s (execFwsSequenceWrite client reg value s) := by
  simp [execFwsSequenceWrite]

@[simp] theorem execFwsSequenceTimeout_keepsQueue (s : State) : keepsQueue s (execFwsSequenceTimeout s) := by simp [execFwsSequenceTimeout]

/-! ### Operations (R403–R407) -/

@[simp] theorem State.fwsData_pending (s : State) (client op addr : Nat) (v : Word) (i : Instr) {k : State → State}
    (hk : ∀ t, (k t).pending = t.pending) : (s.fwsData client op addr v i k).pending = s.pending :=
  State.setupWrite_pending s _ _ _ _ fun t => by split_ifs <;> simp [hk]

@[simp] theorem State.startProgram_pending (s : State) (addr : Nat) : (s.startProgram addr).pending = s.pending := by
  simp [State.startProgram]

@[simp] theorem execProgramPage_keepsQueue (client addr : Nat) (data : Word) (s : State) :
    keepsQueue s (execProgramPage client addr data s) :=
  (keepsQueue_next _ _).2 (State.fwsData_pending s _ _ _ _ _ fun t => by split <;> simp)

@[simp] theorem State.blockGone_pending (s : State) (b : Nat) : (s.blockGone b).pending = s.pending := by
  unfold State.blockGone
  (repeat' split) <;> simp

@[simp] theorem State.startBlockErase_pending (s : State) (addr : Nat) : (s.startBlockErase addr).pending = s.pending := by
  simp [State.startBlockErase]

@[simp] theorem execEraseBlock_keepsQueue (client addr : Nat) (s : State) : keepsQueue s (execEraseBlock client addr s) := by
  simp [execEraseBlock]

@[simp] theorem execEraseSuspend_keepsQueue (client addr : Nat) (s : State) : keepsQueue s (execEraseSuspend client addr s) := by
  simp [execEraseSuspend]

@[simp] theorem State.eraseGoesOn_pending (s : State) (b : Fin 2) : (s.eraseGoesOn b).pending = s.pending := by simp [State.eraseGoesOn]

@[simp] theorem execEraseResume_keepsQueue (client addr : Nat) (s : State) : keepsQueue s (execEraseResume client addr s) := by
  simp [execEraseResume]

@[simp] theorem execClearFlag_keepsQueue (client addr : Nat) (s : State) : keepsQueue s (execClearFlag client addr s) := by
  simp [execClearFlag]

@[simp] theorem State.bankDone_pending (s : State) (b : Fin 2) (st pulses : Nat) (pass : Bool) :
    (s.bankDone b st pulses pass).pending = s.pending := by
  simp [State.bankDone]

@[simp] theorem State.markBad_pending (s : State) (blk : Nat) : (s.markBad blk).pending = s.pending := by simp [State.markBad]

@[simp] theorem State.tryErase_pending (s : State) (b : Nat) : (s.tryErase b).pending = s.pending := by simp [State.tryErase]

@[simp] theorem execFwsOperationEnd_keepsQueue (bank : Fin 2) (pass : Bool) (pulses : Nat) (s : State) :
    keepsQueue s (execFwsOperationEnd bank pass pulses s) := by
  unfold execFwsOperationEnd
  dsimp only
  split <;> simp

@[simp] theorem State.readBank_pending (s : State) (bank : Fin 2) : (s.readBank bank).pending = s.pending := by simp [State.readBank]

@[simp] theorem State.storeGate_pending (s : State) (bank : Fin 2) (i : Instr) {k : State → State}
    (hk : ∀ t, (k t).pending = t.pending) : (s.storeGate bank i k).pending = s.pending := by
  unfold State.storeGate
  split <;> simp [hk]

@[simp] theorem execFwsEraseAutoSuspend_keepsQueue (bank : Fin 2) (client : Nat) (fetch : Bool) (s : State) :
    keepsQueue s (execFwsEraseAutoSuspend bank client fetch s) := by
  simp [execFwsEraseAutoSuspend]

@[simp] theorem execFwsEraseAutoResume_keepsQueue (bank : Fin 2) (s : State) : keepsQueue s (execFwsEraseAutoResume bank s) := by
  simp [execFwsEraseAutoResume]

/-! ### Execute-only ranges and the read window (R399, R400) -/

@[simp] theorem execXoDataRead_keepsQueue (client addr : Nat) (s : State) : keepsQueue s (execXoDataRead client addr s) := by
  simp [execXoDataRead]

@[simp] theorem execXoWrite_keepsQueue (client : Nat) (bank : Fin 2) (value : Word) (s : State) :
    keepsQueue s (execXoWrite client bank value s) := by
  simp [execXoWrite]

@[simp] theorem execReadWindowWrite_keepsQueue (client addr : Nat) (value : Word) (s : State) :
    keepsQueue s (execReadWindowWrite client addr value s) := by
  simp [execReadWindowWrite]

/-! ### The commands (R472–R476) -/

@[simp] theorem State.refuseEdition_pending (s : State) (a : Adm) (number : Nat) (r : Refused) :
    (s.refuseEdition a number r).pending = s.pending := by
  simp [State.refuseEdition]

@[simp] theorem State.publishEditions_pending (s : State) : s.publishEditions.pending = s.pending := by simp [State.publishEditions]

@[simp] theorem State.conflictEdition_pending (s : State) (a : Adm) (number other : Nat) :
    (s.conflictEdition a number other).pending = s.pending := by
  simp [State.conflictEdition]

@[simp] theorem State.putEdition_pending (s : State) (payload : Bytes) : (s.putEdition payload).pending = s.pending := by
  simp [State.putEdition]

@[simp] theorem State.stageEdition_pending (s : State) (a : Adm) (number length : Nat) (blob : Bytes) :
    (s.stageEdition a number length blob).pending = s.pending := by
  unfold State.stageEdition
  (repeat' split) <;> simp

@[simp] theorem State.pendSwitch_pending (s : State) (a : Adm) (revert : Bool) (number : Nat) :
    (s.pendSwitch a revert number).pending = s.pending := by
  simp [State.pendSwitch]

@[simp] theorem State.commitEdition_pending (s : State) (a : Adm) (number : Nat) : (s.commitEdition a number).pending = s.pending := by
  unfold State.commitEdition
  (repeat' split) <;> simp

@[simp] theorem State.revertEdition_pending (s : State) (a : Adm) (number : Nat) : (s.revertEdition a number).pending = s.pending := by
  unfold State.revertEdition
  (repeat' split) <;> simp

@[simp] theorem execEditionStage_keepsQueue (a : Adm) (number length : Nat) (blob : Bytes) (s : State) :
    keepsQueue s (execEditionStage a number length blob s) := by
  simp [execEditionStage]

@[simp] theorem execEditionCommit_keepsQueue (a : Adm) (number : Nat) (s : State) : keepsQueue s (execEditionCommit a number s) := by
  simp [execEditionCommit]

@[simp] theorem execEditionRevert_keepsQueue (a : Adm) (number : Nat) (s : State) : keepsQueue s (execEditionRevert a number s) := by
  simp [execEditionRevert]

/-! ### The switch edge (R474, Table 14.10) -/

@[simp] theorem State.loadRwe_pending (s : State) (e : Edition) : (s.loadRwe e).pending = s.pending := by
  unfold State.loadRwe
  split <;> simp

@[simp] theorem State.loadDellux_pending (s : State) (e : Edition) : (s.loadDellux e).pending = s.pending := by simp [State.loadDellux]

@[simp] theorem State.applyEdition_pending (s : State) (e : Edition) : (s.applyEdition e).pending = s.pending := by
  simp [State.applyEdition]

@[simp] theorem State.switchRoles_pending (s : State) (c : EditionChange) : (s.switchRoles c).pending = s.pending := by
  simp [State.switchRoles]

@[simp] theorem execEditionSwitch_keepsQueue (s : State) : keepsQueue s (execEditionSwitch s) := by
  unfold execEditionSwitch
  split <;> simp

@[simp] theorem State.editionTurn_pending (s : State) : s.editionTurn.pending = s.pending := by
  unfold State.editionTurn
  (repeat' split) <;> simp

@[simp] theorem State.bookEdition_pending (s : State) : s.bookEdition.pending = s.pending := by
  unfold State.bookEdition
  split <;> simp

/-! ### Runs -/

@[simp] theorem State.runStatus_pending (s : State) : s.runStatus.pending = s.pending := by
  unfold State.runStatus
  split <;> simp

@[simp] theorem State.startRun_pending (s : State) (kind source nsid : Nat) : (s.startRun kind source nsid).pending = s.pending := by
  simp [State.startRun]

@[simp] theorem State.endRun_pending (s : State) (code : Nat) : (s.endRun code).pending = s.pending := by
  unfold State.endRun
  split <;> simp

@[simp] theorem State.endRunOf_pending (s : State) (path : Nat) : (s.endRunOf path).pending = s.pending := by
  unfold State.endRunOf
  split <;> simp

/-! ### Failures (R483) -/

@[simp] theorem State.itemFailed_pending (s : State) (item inst : Nat) : (s.itemFailed item inst).pending = s.pending := by
  unfold State.itemFailed
  split <;> simp

@[simp] theorem State.domTested_pending (s : State) (r : SelfTestRun) (item inst result len : Nat) :
    (s.domTested r item inst result len).pending = s.pending := by
  simp [State.domTested]

@[simp] theorem State.failItem_pending (s : State) (r : SelfTestRun) (item inst dur : Nat) :
    (s.failItem r item inst dur).pending = s.pending := by
  simp [State.failItem]

/-! ### Slices (R479) -/

@[simp] theorem State.slice_pending (s : State) (r : SelfTestRun) (item inst : Nat) (pass : Bool) :
    (s.slice r item inst pass).pending = s.pending := by
  unfold State.slice
  dsimp only
  (repeat' split) <;> simp

@[simp] theorem execSelfTestSlice_keepsQueue (item inst : Nat) (pass : Bool) (s : State) :
    keepsQueue s (execSelfTestSlice item inst pass s) := by
  unfold execSelfTestSlice
  split <;> simp

/-! ### BST.CTRL (R485) -/

@[simp] theorem State.bstStart_pending (s : State) (client kind source : Nat) (i : Instr) :
    (s.bstStart client kind source i).pending = s.pending := by
  simp [State.bstStart]

@[simp] theorem execSelfTestInServicePass_keepsQueue (client source : Nat) (s : State) :
    keepsQueue s (execSelfTestInServicePass client source s) := by
  simp [execSelfTestInServicePass]

@[simp] theorem execSelfTestShortRun_keepsQueue (client source : Nat) (s : State) :
    keepsQueue s (execSelfTestShortRun client source s) := by
  simp [execSelfTestShortRun]

@[simp] theorem execSelfTestExtendedRun_keepsQueue (client source : Nat) (s : State) :
    keepsQueue s (execSelfTestExtendedRun client source s) := by
  simp [execSelfTestExtendedRun]

@[simp] theorem execSelfTestFullRun_keepsQueue (client source : Nat) (s : State) : keepsQueue s (execSelfTestFullRun client source s) := by
  simp [execSelfTestFullRun]

@[simp] theorem execSelfTestShutdownRun_keepsQueue (client source : Nat) (s : State) :
    keepsQueue s (execSelfTestShutdownRun client source s) := by
  simp [execSelfTestShutdownRun]

@[simp] theorem execSelfTestAbort_keepsQueue (client : Nat) (s : State) : keepsQueue s (execSelfTestAbort client s) := by
  simp [execSelfTestAbort]

/-! ### Device Self-test (R482) -/

@[simp] theorem State.deviceTest_pending (s : State) (a : Adm) (kind nsid : Nat) : (s.deviceTest a kind nsid).pending = s.pending := by
  simp [State.deviceTest]

@[simp] theorem State.testShort_pending (s : State) (a : Adm) (nsid : Nat) : (s.testShort a nsid).pending = s.pending := by
  simp [State.testShort]

@[simp] theorem State.testExtended_pending (s : State) (a : Adm) (nsid : Nat) : (s.testExtended a nsid).pending = s.pending := by
  simp [State.testExtended]

@[simp] theorem State.testFull_pending (s : State) (a : Adm) (nsid : Nat) : (s.testFull a nsid).pending = s.pending := by
  simp [State.testFull]

@[simp] theorem State.testAbort_pending (s : State) (a : Adm) : (s.testAbort a).pending = s.pending := by simp [State.testAbort]

@[simp] theorem execDeviceSelfTestShort_keepsQueue (a : Adm) (nsid : Nat) (s : State) :
    keepsQueue s (execDeviceSelfTestShort a nsid s) := by
  simp [execDeviceSelfTestShort]

@[simp] theorem execDeviceSelfTestExtended_keepsQueue (a : Adm) (nsid : Nat) (s : State) :
    keepsQueue s (execDeviceSelfTestExtended a nsid s) := by
  simp [execDeviceSelfTestExtended]

@[simp] theorem execDeviceSelfTestFull_keepsQueue (a : Adm) (nsid : Nat) (s : State) : keepsQueue s (execDeviceSelfTestFull a nsid s) := by
  simp [execDeviceSelfTestFull]

@[simp] theorem execDeviceSelfTestAbort_keepsQueue (a : Adm) (s : State) : keepsQueue s (execDeviceSelfTestAbort a s) := by
  simp [execDeviceSelfTestAbort]

@[simp] theorem State.selfTest_pending (s : State) (a : Adm) (stc nsid : Nat) : (s.selfTest a stc nsid).pending = s.pending := by
  unfold State.selfTest
  split <;> simp

@[simp] theorem State.setupRead_pending (s : State) (client a : Nat) (i : Instr) {k : State → State}
    (hk : ∀ t, (k t).pending = t.pending) : (s.setupRead client a i k).pending = s.pending :=
  State.gate_pending s _ _ _ _ _ hk

@[simp] theorem State.answerWith_pending (s : State) (client v : Nat) : (s.answerWith client v).pending = s.pending := by
  simp [State.answerWith]

/-! ### Gauges (R463–R465) -/

@[simp] theorem State.pushSample_pending (s : State) (k : Nat) : (s.pushSample k).pending = s.pending := by simp [State.pushSample]

@[simp] theorem State.gaugeFaulted_pending (s : State) (k : Nat) : (s.gaugeFaulted k).pending = s.pending := by simp [State.gaugeFaulted]

@[simp] theorem State.tjHot_pending (s : State) (k : Nat) : (s.tjHot k).pending = s.pending := by simp [State.tjHot]

@[simp] theorem execGaugeSample_keepsQueue (k : Fin 30) (v : GaugeReading) (s : State) : keepsQueue s (execGaugeSample k v s) := by
  unfold execGaugeSample
  (repeat' split) <;> simp

@[simp] theorem State.energyTurn_pending (s : State) : s.energyTurn.pending = s.pending := by simp [State.energyTurn]

@[simp] theorem execGaugeFifoPop_keepsQueue (client : Nat) (s : State) : keepsQueue s (execGaugeFifoPop client s) :=
  (keepsQueue_next _ _).2 (State.setupRead_pending s _ _ _ fun t => by split <;> simp)

/-! ### Doorbells (R486) -/

@[simp] theorem execRiderDoorbellSet_keepsQueue (client : Nat) (bits : Word) (s : State) :
    keepsQueue s (execRiderDoorbellSet client bits s) := by
  simp [execRiderDoorbellSet]

@[simp] theorem execClusterDoorbellSet_keepsQueue (client : Nat) (cluster : Fin 3) (bits : Word) (s : State) :
    keepsQueue s (execClusterDoorbellSet client cluster bits s) := by
  simp [execClusterDoorbellSet]

/-! ### UART (R486) -/

@[simp] theorem execUartDataRead_keepsQueue (client : Nat) (s : State) : keepsQueue s (execUartDataRead client s) :=
  (keepsQueue_next _ _).2 (State.setupRead_pending s _ _ _ fun t => by split <;> simp)

@[simp] theorem execUartDataWrite_keepsQueue (client : Nat) (byte : Byte) (s : State) : keepsQueue s (execUartDataWrite client byte s) := by
  simp [execUartDataWrite]

@[simp] theorem execUartByteReceived_keepsQueue (byte : Byte) (frameErr : Bool) (s : State) :
    keepsQueue s (execUartByteReceived byte frameErr s) := by
  simp [execUartByteReceived]

@[simp] theorem State.uartTurn_pending (s : State) : s.uartTurn.pending = s.pending := by simp [State.uartTurn]

/-! ### MCTP (R486) -/

@[simp] theorem State.onMctp_pending (s : State) (p : Fin 3) (f : MctpPort → MctpPort) : (s.onMctp p f).pending = s.pending := by
  simp [State.onMctp]

@[simp] theorem execMctpPacketReceived_keepsQueue (p : Fin 3) (packet : Bytes) (s : State) :
    keepsQueue s (execMctpPacketReceived p packet s) := by
  simp [execMctpPacketReceived]

@[simp] theorem execMctpRxPop_keepsQueue (client : Nat) (p : Fin 3) (s : State) : keepsQueue s (execMctpRxPop client p s) := by
  simp [execMctpRxPop]

@[simp] theorem execMctpTxPush_keepsQueue (client : Nat) (p : Fin 3) (word : Word) (s : State) :
    keepsQueue s (execMctpTxPush client p word s) := by
  simp [execMctpTxPush]

@[simp] theorem State.mctpTurn_pending (s : State) : s.mctpTurn.pending = s.pending := by simp [State.mctpTurn]

/-! ### Restarts and watchdogs (R35, R408, R499) -/

@[simp] theorem State.storeReset_pending (s : State) : s.storeReset.pending = s.pending := by
  unfold State.storeReset
  dsimp only
  (repeat' split) <;> simp

@[simp] theorem State.forgetFetch_pending (s : State) (p : Nat → Bool) : (s.forgetFetch p).pending = s.pending := by
  simp [State.forgetFetch]

@[simp] theorem State.restartRider_pending (s : State) : s.restartRider.pending = s.pending := by simp [State.restartRider]

@[simp] theorem execRiderLockstepMismatch_keepsQueue (s : State) : keepsQueue s (execRiderLockstepMismatch s) := by
  simp [execRiderLockstepMismatch]

@[simp] theorem State.dropDownload_pending (s : State) : s.dropDownload.pending = s.pending := by simp [State.dropDownload]

@[simp] theorem execRiderWatchdogReset_keepsQueue (s : State) : keepsQueue s (execRiderWatchdogReset s) := by simp [execRiderWatchdogReset]

@[simp] theorem execClusterWatchdogReset_keepsQueue (cluster : Fin 3) (s : State) : keepsQueue s (execClusterWatchdogReset cluster s) := by
  simp [execClusterWatchdogReset]

@[simp] theorem State.featureAdmin_pending (s : State) (a : Adm) (fid : Nat) (i : Instr) {k : State → State}
    (hk : ∀ t, (k t).pending = t.pending) :
    (s.featureAdmin a fid i k).pending = s.pending := by
  unfold State.featureAdmin
  split <;> simp [*]

@[simp] theorem State.putFeature_pending (s : State) (c : Fin 2) (fid v : Nat) (sv : Bool) :
    (s.putFeature c fid v sv).pending = s.pending := by
  simp [State.putFeature]

/-! ### The Twiot features (Table 02.14) -/

@[simp] theorem State.setLevel_pending (s : State) (a : Adm) (sv : Bool) (w : Word) : (s.setLevel a sv w).pending = s.pending := by
  simp [State.setLevel]

@[simp] theorem State.setClass_pending (s : State) (a : Adm) (sv : Bool) (w : Word) : (s.setClass a sv w).pending = s.pending := by
  simp [State.setClass]

@[simp] theorem State.setOrdered_pending (s : State) (a : Adm) (sv : Bool) (w : Word) : (s.setOrdered a sv w).pending = s.pending := by
  unfold State.setOrdered
  dsimp only
  (repeat' split) <;> simp

@[simp] theorem State.setFloor_pending (s : State) (a : Adm) (sv : Bool) (w11 w12 : Word) :
    (s.setFloor a sv w11 w12).pending = s.pending := by
  simp [State.setFloor]

@[simp] theorem execSetTwiotLevel_keepsQueue (a : Adm) (sv : Bool) (cdw11 : Word) (s : State) :
    keepsQueue s (execSetTwiotLevel a sv cdw11 s) := by
  simp [execSetTwiotLevel]

@[simp] theorem execClassBinding_keepsQueue (a : Adm) (sv : Bool) (cdw11 : Word) (s : State) :
    keepsQueue s (execClassBinding a sv cdw11 s) := by
  simp [execClassBinding]

@[simp] theorem execOrderingMode_keepsQueue (a : Adm) (sv : Bool) (cdw11 : Word) (s : State) :
    keepsQueue s (execOrderingMode a sv cdw11 s) := by
  simp [execOrderingMode]

@[simp] theorem execKeepAwakeFloor_keepsQueue (a : Adm) (sv : Bool) (cdw11 cdw12 : Word) (s : State) :
    keepsQueue s (execKeepAwakeFloor a sv cdw11 cdw12 s) := by
  simp [execKeepAwakeFloor]

/-! ### Power state and timestamp -/

@[simp] theorem State.setPower_pending (s : State) (a : Adm) (sv : Bool) (ps : Nat) : (s.setPower a sv ps).pending = s.pending := by
  simp [State.setPower]

@[simp] theorem execPowerManagement_keepsQueue (a : Adm) (sv : Bool) (ps : Nat) (s : State) :
    keepsQueue s (execPowerManagement a sv ps s) := by
  simp [execPowerManagement]

@[simp] theorem State.setTimestamp_pending (s : State) (a : Adm) (sv : Bool) (ms : Nat) : (s.setTimestamp a sv ms).pending = s.pending := by
  simp [State.setTimestamp]

@[simp] theorem execTimestamp_keepsQueue (a : Adm) (sv : Bool) (ms : Nat) (s : State) : keepsQueue s (execTimestamp a sv ms s) := by
  simp [execTimestamp]

@[simp] theorem State.refreshApst_pending (s : State) : s.refreshApst.pending = s.pending := by simp [State.refreshApst]

/-! ### Set Features (R69) -/

@[simp] theorem State.setFeature_pending (s : State) (a : Adm) (fid : Nat) (sv : Bool) (w11 w12 : Word) (data : Bytes) :
    (s.setFeature a fid sv w11 w12 data).pending = s.pending := by
  unfold State.setFeature
  split <;> simp

@[simp] theorem execSetFeatures_keepsQueue (a : Adm) (fid : Nat) (sv : Bool) (cdw11 : Word) (cdw12 : FeatureRest) (s : State) :
    keepsQueue s (execSetFeatures a fid sv cdw11 cdw12 s) := by
  simp [execSetFeatures]

/-! ### Get Features (R69) -/

@[simp] theorem State.getFeature_pending (s : State) (a : Adm) (fid : Nat) (w : Word) : (s.getFeature a fid w).pending = s.pending := by
  unfold State.getFeature
  dsimp only
  (repeat' split) <;> simp

@[simp] theorem execGetFeatures_keepsQueue (a : Adm) (fid : Nat) (cdw11 : Word) (s : State) :
    keepsQueue s (execGetFeatures a fid cdw11 s) := by
  simp [execGetFeatures]

/-! ### The granule and namespace tables (R177) -/

@[simp] theorem State.setTable_pending (s : State) (nst : Bool) (word i v : Nat) : (s.setTable nst word i v).pending = s.pending := by
  simp [State.setTable]

@[simp] theorem State.setGranules_pending (s : State) (base : Nat) (l : List Nat) : (s.setGranules base l).pending = s.pending := by
  induction l generalizing s base with
  | nil => rfl
  | cons g t ih => simp [State.setGranules, ih]

@[simp] theorem State.clearGranules_pending (s : State) (base n : Nat) : (s.clearGranules base n).pending = s.pending := by
  induction n generalizing s base with
  | zero => rfl
  | succ n ih => simp [State.clearGranules, ih]

@[simp] theorem State.allocate_pending (s : State) (nsid grans : Nat) : ∀ t ∈ s.allocate nsid grans, t.2.pending = s.pending := by
  unfold State.allocate
  (repeat' split) <;> simp

@[simp] theorem State.release_pending (s : State) (n : Namespace) : (s.release n).pending = s.pending := by simp [State.release]

/-! ### Namespace Management and Attachment (R54, R177, R297) -/

@[simp] theorem State.noteChange_pending (s : State) (nsid mask : Nat) : (s.noteChange nsid mask).pending = s.pending := by
  simp [State.noteChange]

@[simp] theorem State.createNs_pending (s : State) (a : Adm) (nsze lbaf : Nat) (extended : Bool) (pi : Nat) (piFirst zoned : Bool)
    (handles : List Nat) : (s.createNs a nsze lbaf extended pi piFirst zoned handles).pending = s.pending := by
  unfold State.createNs
  extract_lets data
  split_ifs
  · simp
  · simp
  · split
    · simp
    · split
      · simp
      · next h => exact State.allocate_pending _ _ _ _ h

@[simp] theorem State.replyCreated_pending (s : State) : s.replyCreated.pending = s.pending := by simp [State.replyCreated]

@[simp] theorem State.onNs_pending (s : State) (nsid : Nat) (f : Namespace → Namespace) : (s.onNs nsid f).pending = s.pending := by
  simp [State.onNs]

@[simp] theorem State.deleteNs_pending (s : State) (a : Adm) (nsid : Nat) : (s.deleteNs a nsid).pending = s.pending := by
  have note (t : State) (l : List Nat) :
      (l.foldl (fun s i => match s.ns i with | some n => s.noteChange i n.attached | none => s) t).pending = t.pending :=
    foldl_pending (fun s i => by split <;> simp) l t
  unfold State.deleteNs
  extract_lets ids
  split
  · simp
  · split
    · simp
    · simp only [State.onGalley_pending]
      exact (foldl_pending (fun s i => State.onNs_pending s i _) _ _).trans (note _ _)

@[simp] theorem State.manageNs_pending (s : State) (a : Adm) (x : NsMgmt) : (s.manageNs a x).pending = s.pending := by
  unfold State.manageNs
  split <;> simp

@[simp] theorem execNamespaceManagement_keepsQueue (a : Adm) (sel : NsMgmt) (s : State) :
    keepsQueue s (execNamespaceManagement a sel s) := by
  simp [execNamespaceManagement]

@[simp] theorem State.attachNs_pending (s : State) (a : Adm) (nsid ctrls : Nat) (attach : Bool) :
    (s.attachNs a nsid ctrls attach).pending = s.pending := by
  unfold State.attachNs
  split <;> simp

@[simp] theorem execNamespaceAttachment_keepsQueue (a : Adm) (nsid ctrls : Nat) (attach : Bool) (s : State) :
    keepsQueue s (execNamespaceAttachment a nsid ctrls attach s) := by
  simp [execNamespaceAttachment]

/-! ### Format NVM and Sanitize (R298) -/

@[simp] theorem State.barCmds_pending (s : State) (ids : List Nat) (st : Status) : (s.barCmds ids st).pending = s.pending := by
  simp [State.barCmds]

@[simp] theorem State.beginWipe_pending (s : State) (a : Option Adm) (kind : Nat) (ids : List Nat) (rekey : Bool)
    (format : Option (Nat × Nat × Bool × Bool)) :
    (s.beginWipe a kind ids rekey format).pending = s.pending := by
  simp [State.beginWipe]

@[simp] theorem State.format_pending (s : State) (a : Adm) (nsid ses lbaf pi : Nat) (extended piFirst : Bool) :
    (s.format a nsid ses lbaf pi extended piFirst).pending = s.pending := by
  unfold State.format
  (repeat' split) <;> simp

@[simp] theorem execFormatNvm_keepsQueue (a : Adm) (nsid ses lbaf pi : Nat) (extended piFirst : Bool) (s : State) :
    keepsQueue s (execFormatNvm a nsid ses lbaf pi extended piFirst s) := by
  simp [execFormatNvm]

@[simp] theorem State.sanitize_pending (s : State) (a : Adm) (kind : Nat) (ndas : Bool) : (s.sanitize a kind ndas).pending = s.pending := by
  unfold State.sanitize
  (repeat' split) <;> simp

@[simp] theorem execSanitizeCryptoErase_keepsQueue (a : Adm) (ndas : Bool) (s : State) :
    keepsQueue s (execSanitizeCryptoErase a ndas s) := by
  simp [execSanitizeCryptoErase]

@[simp] theorem execSanitizeBlockErase_keepsQueue (a : Adm) (ndas : Bool) (s : State) : keepsQueue s (execSanitizeBlockErase a ndas s) := by
  simp [execSanitizeBlockErase]

/-! ### An erase operation, turn by turn (R298) -/

@[simp] theorem State.wipeUnit_pending (s : State) (g : Nat) : (s.wipeUnit g).pending = s.pending := by
  unfold State.wipeUnit
  split <;> simp

@[simp] theorem State.rekey_pending (s : State) (ids : List Nat) : (s.rekey ids).pending = s.pending := by simp [State.rekey]

@[simp] theorem State.startErase_pending (s : State) : s.startErase.pending = s.pending := by simp [State.startErase]

@[simp] theorem State.resetZones_pending (s : State) (n : Namespace) : (s.resetZones n).pending = s.pending := by simp [State.resetZones]

@[simp] theorem State.reformat_pending (s : State) (n : Namespace) (f : Nat × Nat × Bool × Bool) : (s.reformat n f).pending = s.pending := by
  unfold State.reformat
  extract_lets grans new t t'
  have ht : t.pending = s.pending := by simp [t]
  rw [State.noteChange_pending]
  unfold t'
  split
  · simp
  · split
    · next h => rw [State.onNs_pending]; exact (State.allocate_pending _ _ _ _ h).trans ht
    · exact ht

@[simp] theorem State.closeWipe_pending (s : State) (w : Wipe) : (s.closeWipe w).pending = s.pending := by
  unfold State.closeWipe
  (repeat' split) <;> simp

@[simp] theorem State.endWipe_pending (s : State) (w : Wipe) : (s.endWipe w).pending = s.pending := by
  unfold State.endWipe
  dsimp only
  split <;> simp

@[simp] theorem State.wipeTurn_pending (s : State) : s.wipeTurn.pending = s.pending := by
  unfold State.wipeTurn
  (repeat' split) <;> simp

/-! ### Directives (R62) -/

@[simp] theorem State.recvDirective_pending (s : State) (a : Adm) (nsid dtype doper : Nat) :
    (s.recvDirective a nsid dtype doper).pending = s.pending := by
  simp [State.recvDirective]

@[simp] theorem execDirectiveReceive_keepsQueue (a : Adm) (nsid dtype doper : Nat) (s : State) :
    keepsQueue s (execDirectiveReceive a nsid dtype doper s) := by
  simp [execDirectiveReceive]

@[simp] theorem State.sendDirective_pending (s : State) (a : Adm) (nsid dtype doper value : Nat) :
    (s.sendDirective a nsid dtype doper value).pending = s.pending := by
  simp [State.sendDirective]

@[simp] theorem execDirectiveSend_keepsQueue (a : Adm) (nsid dtype doper value : Nat) (s : State) :
    keepsQueue s (execDirectiveSend a nsid dtype doper value s) := by
  simp [execDirectiveSend]

/-! ### Culvert Rebuild Status (R274) -/

@[simp] theorem State.rebuildStatus_pending (s : State) (a : Adm) : (s.rebuildStatus a).pending = s.pending := by simp [State.rebuildStatus]

@[simp] theorem execCulvertRebuildStatus_keepsQueue (a : Adm) (s : State) : keepsQueue s (execCulvertRebuildStatus a s) := by
  simp [execCulvertRebuildStatus]

/-! ### Unsupported commands (R62) -/

@[simp] theorem execInvalidAdminOpcode_keepsQueue (a : Adm) (opcode : Nat) (s : State) :
    keepsQueue s (execInvalidAdminOpcode a opcode s) := by
  simp [execInvalidAdminOpcode]

/-! ### Telemetry (R470) -/

@[simp] theorem State.takeTele_pending (s : State) : s.takeTele.pending = s.pending := by simp [State.takeTele]

@[simp] theorem State.teleHostLog_pending (s : State) (a : Adm) (lsp : Nat) : (s.teleHostLog a lsp).pending = s.pending := by
  unfold State.teleHostLog
  split <;> simp

@[simp] theorem State.teleCtrlLog_pending (s : State) (a : Adm) (lsp : Nat) : (s.teleCtrlLog a lsp).pending = s.pending := by
  unfold State.teleCtrlLog
  split <;> simp

/-! ### Get Log Page (R70) -/

@[simp] theorem State.logPage_pending (s : State) (a : Adm) (lid lsp : Nat) : (s.logPage a lid lsp).pending = s.pending := by
  unfold State.logPage
  split <;> simp

@[simp] theorem execGetLogPage_keepsQueue (a : Adm) (lid lsp : Nat) (s : State) : keepsQueue s (execGetLogPage a lid lsp s) := by
  simp [execGetLogPage]

/-! ### Identify (R62) -/

@[simp] theorem State.identify_pending (s : State) (a : Adm) (cns csi nsid : Nat) : (s.identify a cns csi nsid).pending = s.pending := by
  unfold State.identify
  (repeat' split) <;> simp

@[simp] theorem execIdentify_keepsQueue (a : Adm) (cns : IdentifySel) (nsid : Nat) (s : State) :
    keepsQueue s (execIdentify a cns nsid s) := by
  simp [execIdentify]

/-! ### Slots (R418–R420) -/

@[simp] theorem State.putImage_pending (s : State) (n : Nat) (m : Option Image) : (s.putImage n m).pending = s.pending := by
  simp [State.putImage]

@[simp] theorem State.programSlot_pending (s : State) (n from_ : Nat) (pages : List Bytes) :
    (s.programSlot n from_ pages).pending = s.pending := by
  simp [State.programSlot]

@[simp] theorem State.eraseSlot_pending (s : State) (n : Nat) : (s.eraseSlot n).pending = s.pending := by simp [State.eraseSlot]

@[simp] theorem State.eraseSome_pending (done : Option Nat) (l : List Nat) (need : Nat) (s : State) :
    (State.eraseSome done l need s).pending = s.pending := by
  induction l generalizing need s with
  | nil => rfl
  | cons b t ih =>
    cases need with
    | zero => rfl
    | succ n => simp [State.eraseSome, ih]

@[simp] theorem State.writeRecord_pending (s : State) (active next fuel seq : Nat) :
    (s.writeRecord active next fuel seq).pending = s.pending := by
  induction fuel generalizing s seq with
  | zero => rfl
  | succ n ih =>
    unfold State.writeRecord
    extract_lets
    split
    · exact ih _ _
    · rfl

@[simp] theorem State.writePointer_pending (s : State) (active next : Nat) : (s.writePointer active next).pending = s.pending := by
  simp [State.writePointer]

/-! ### Download (R416, R417) -/

@[simp] theorem State.bufferChunk_pending (s : State) (a : Adm) (ofst numd : Nat) (data : Bytes) :
    (s.bufferChunk a ofst numd data).pending = s.pending := by
  unfold State.bufferChunk
  dsimp only
  (repeat' split) <;> simp

@[simp] theorem State.streamChunk_pending (s : State) (a : Adm) (ofst numd : Nat) (data : Bytes) :
    (s.streamChunk a ofst numd data).pending = s.pending := by
  unfold State.streamChunk
  dsimp only
  (repeat' split) <;> simp

@[simp] theorem State.download_pending (s : State) (a : Adm) (ofst numd : Nat) (data : Bytes) :
    (s.download a ofst numd data).pending = s.pending := by
  simp [State.download]

@[simp] theorem execFirmwareImageDownload_keepsQueue (a : Adm) (ofst numd : Nat) (data : Bytes) (s : State) :
    keepsQueue s (execFirmwareImageDownload a ofst numd data s) := by
  simp [execFirmwareImageDownload]

@[simp] theorem execStreamedDownloadChunk_keepsQueue (a : Adm) (ofst numd : Nat) (data : Bytes) (s : State) :
    keepsQueue s (execStreamedDownloadChunk a ofst numd data s) := by
  simp [execStreamedDownloadChunk]

/-! ### Commit (R418–R420) -/

@[simp] theorem State.endCommit_pending (s : State) (a : Adm) (st : Status) : (s.endCommit a st).pending = s.pending := by
  simp [State.endCommit]

@[simp] theorem State.writeSlot_pending (n : Nat) (b : Bytes) (m : Image) (fuel : Nat) (s : State) :
    (State.writeSlot n b m fuel s).pending = s.pending := by
  induction fuel generalizing s with
  | zero => rfl
  | succ k ih =>
    unfold State.writeSlot
    extract_lets first s1 s2 bad s3
    have h1 : s1.pending = s.pending := by unfold s1; clear_value first; cases first <;> simp
    have h2 : s2.pending = s.pending := by simp [s2, h1]
    have h3 : s3.pending = s.pending := by simp [s3, h2]
    split_ifs
    · exact h2
    · rw [ih]; simp [h3]
    · simp [h3]

set_option maxRecDepth 2000 in
@[simp] theorem State.commitBuffer_pending (s : State) (a : Adm) (n : Nat) {k : State → Image → State}
    (hk : ∀ t m, (k t m).pending = t.pending) : (s.commitBuffer a n k).pending = s.pending := by
  unfold State.commitBuffer
  split
  · simp
  · split <;> simp [hk]

@[simp] theorem State.setNext_pending (s : State) (n : Nat) : (s.setNext n).pending = s.pending := by simp [State.setNext]

set_option maxRecDepth 2000 in
@[simp] theorem State.commitStream_pending (s : State) (a : Adm) (n ca : Nat) : (s.commitStream a n ca).pending = s.pending := by
  unfold State.commitStream
  split
  · simp
  · split
    · simp
    · split
      · simp
      · split <;> simp

@[simp] theorem State.startActivation_pending (s : State) (a : Adm) (n : Nat) : (s.startActivation a n).pending = s.pending := by
  unfold State.startActivation
  split <;> simp

@[simp] theorem State.publishRelease_pending (s : State) : s.publishRelease.pending = s.pending := by simp [State.publishRelease]

@[simp] theorem State.hitless_pending (s : State) (a : Adm) (n : Nat) (m : Image) {write : (State → State) → State}
    (hwrite : ∀ g : State → State, (∀ t, (g t).pending = t.pending) → (write g).pending = s.pending) :
    (s.hitless a n m write).pending = s.pending := by
  unfold State.hitless
  split <;> simp [*]

@[simp] theorem State.commitNow_pending (s : State) (a : Adm) (n : Nat) : (s.commitNow a n).pending = s.pending := by
  unfold State.commitNow
  split
  · split
    · split
      · exact State.hitless_pending _ _ _ _ fun g hg => hg s
      · simp
    · simp
  · split
    · exact State.hitless_pending _ _ _ _ fun g hg => State.commitBuffer_pending _ _ _ fun t _ => hg t
    · simp

@[simp] theorem State.firmwareCommit_pending (s : State) (a : Adm) (ca fs : Nat) : (s.firmwareCommit a ca fs).pending = s.pending := by
  simp [State.firmwareCommit]

@[simp] theorem execFirmwareCommitReplace_keepsQueue (a : Adm) (fs : Nat) (s : State) :
    keepsQueue s (execFirmwareCommitReplace a fs s) := by
  simp [execFirmwareCommitReplace]

@[simp] theorem execFirmwareCommitReplaceActivate_keepsQueue (a : Adm) (fs : Nat) (s : State) :
    keepsQueue s (execFirmwareCommitReplaceActivate a fs s) := by
  simp [execFirmwareCommitReplaceActivate]

@[simp] theorem execFirmwareCommitActivate_keepsQueue (a : Adm) (fs : Nat) (s : State) :
    keepsQueue s (execFirmwareCommitActivate a fs s) := by
  simp [execFirmwareCommitActivate]

@[simp] theorem execFirmwareCommitImmediate_keepsQueue (a : Adm) (fs : Nat) (s : State) :
    keepsQueue s (execFirmwareCommitImmediate a fs s) := by
  simp [execFirmwareCommitImmediate]

/-! ### Activation (R421, R422) -/

@[simp] theorem State.endActivation_pending (s : State) (r : Reload) (st : Status) : (s.endActivation r st).pending = s.pending := by
  unfold State.endActivation
  split <;> simp

@[simp] theorem State.clusterMoved_pending (s : State) (r : Reload) : (s.clusterMoved r).pending = s.pending := by simp [State.clusterMoved]

@[simp] theorem State.clusterBack_pending (s : State) (r : Reload) (ok : Bool) : (s.clusterBack r ok).pending = s.pending := by
  simp [State.clusterBack]

@[simp] theorem execClusterReload_keepsQueue (selfCheckOk : Bool) (s : State) : keepsQueue s (execClusterReload selfCheckOk s) := by
  unfold execClusterReload
  split <;> simp

@[simp] theorem State.activationTurn_pending (s : State) : s.activationTurn.pending = s.pending := by
  unfold State.activationTurn
  split <;> simp

/-! ### What the part keeps without power -/

@[simp] theorem State.cutPrograms_pending (s : State) : s.cutPrograms.pending = s.pending := by
  unfold State.cutPrograms
  dsimp only
  (repeat' split) <;> simp

@[simp] theorem State.recordOut_pending (s : State) : s.recordOut.pending = s.pending := by simp [State.recordOut]

@[simp] theorem State.bare_pending (s : State) (cut : Bool) : (s.bare cut).pending = s.pending := by simp [State.bare]

/-! ### Power-on reset (R518, R520, R517) -/

@[simp] theorem State.fuseDoms_pending (s : State) (mask : Nat) : (s.fuseDoms mask).pending = s.pending := by simp [State.fuseDoms]

@[simp] theorem State.powerOn_pending (s : State) (b : Board) : (s.powerOn b).pending = s.pending := by simp [State.powerOn]

@[simp] theorem execPowerOnReset_keepsQueue (b : Board) (s : State) : keepsQueue s (execPowerOnReset b s) := by simp [execPowerOnReset]

@[simp] theorem execPorNFall_keepsQueue (s : State) : keepsQueue s (execPorNFall s) := by
  unfold execPorNFall
  split <;> simp

@[simp] theorem execRailMonitorTrip_keepsQueue (rail : Fin 6) (s : State) : keepsQueue s (execRailMonitorTrip rail s) := by
  simp [execRailMonitorTrip]

/-! ### Step 2: flag cells, images (R413, R414) -/

@[simp] theorem State.eraseFlags_pending (s : State) : s.eraseFlags.pending = s.pending := by simp [State.eraseFlags]

@[simp] theorem State.loadPointer_pending (s : State) : s.loadPointer.pending = s.pending := by
  unfold State.loadPointer
  split <;> simp

@[simp] theorem State.scanImages_pending (s : State) : s.scanImages.pending = s.pending := by
  unfold State.scanImages
  dsimp only
  (repeat' split) <;> simp

@[simp] theorem State.selectImage_pending (s : State) : ∀ t ∈ s.selectImage, t.pending = s.pending := by
  unfold State.selectImage
  dsimp only
  (repeat' split) <;> simp

@[simp] theorem State.lockExt_pending (s : State) : s.lockExt.pending = s.pending := by
  unfold State.lockExt
  split <;> simp

/-! ### Step 3: the edition in force (R333) and the scratchpad places -/

@[simp] theorem State.resolveEdition_pending (s : State) : s.resolveEdition.pending = s.pending := by
  unfold State.resolveEdition
  split <;> simp

@[simp] theorem State.placeScratch_pending (s : State) : s.placeScratch.pending = s.pending := by simp [State.placeScratch]

@[simp] theorem State.loadEdition_pending (s : State) : s.loadEdition.pending = s.pending := by simp [State.loadEdition]

/-! ### Step 4: DRAM (R340, R341, R344, R345) -/

@[simp] theorem State.dramUp_pending (s : State) (c : Nat) (p : DramPop) : (s.dramUp c p).pending = s.pending := by simp [State.dramUp]

@[simp] theorem State.dramLayout_pending (s : State) : s.dramLayout.pending = s.pending := by simp [State.dramLayout]

@[simp] theorem State.trainFailures_pending (s : State) : s.trainFailures.pending = s.pending := by simp [State.trainFailures]

/-! ### Step 5: dies (R136–R141, R161) -/

@[simp] theorem State.chanUp_pending (s : State) (c build : Nat) : (s.chanUp c build).pending = s.pending := by simp [State.chanUp]

@[simp] theorem State.dieUp_pending (s : State) (n : Nat) : (s.dieUp n).pending = s.pending := by simp [State.dieUp]

@[simp] theorem State.pageTypes_pending (s : State) : s.pageTypes.pending = s.pending := by simp [State.pageTypes]

@[simp] theorem State.placeDram_pending (s : State) : s.placeDram.pending = s.pending := by simp [State.placeDram]

@[simp] theorem State.spareDram_pending (s : State) : s.spareDram.pending = s.pending := by simp [State.spareDram]

/-! ### Retirement state (R500) -/

@[simp] theorem State.restoreOut_pending (s : State) : s.restoreOut.pending = s.pending := by simp [State.restoreOut]

@[simp] theorem State.poolStatus_pending (s : State) : s.poolStatus.pending = s.pending := by simp [State.poolStatus]

/-! ### Domains and banks -/

@[simp] theorem State.bankUp_pending (s : State) (c : Nat) : (s.bankUp c).pending = s.pending := by simp [State.bankUp]

@[simp] theorem State.domUp_pending (s : State) (n : Fin 24) : (s.domUp n).pending = s.pending := by simp [State.domUp]

@[simp] theorem State.domainsUp_pending (s : State) : s.domainsUp.pending = s.pending := by simp [State.domainsUp]

/-! ### Step 6: the map, the galley and the restart from a spill (R325–R329) -/

@[simp] theorem State.replayRec_pending (s : State) (r : JournalRec) : (s.replayRec r).pending = s.pending := by
  unfold State.replayRec
  split <;> simp

@[simp] theorem State.replay_pending (s : State) (spilled : List JournalRec) : (s.replay spilled).1.pending = s.pending := by
  unfold State.replay
  extract_lets flash all step r
  exact foldl_fst_pending (fun a x => by dsimp only [step]; split_ifs <;> simp) all _

@[simp] theorem State.loadTables_pending (s : State) (t : Tables) : (s.loadTables t).pending = s.pending := by simp [State.loadTables]

@[simp] theorem State.loseAtRestart_pending (s : State) (g : Nat) : (s.loseAtRestart g).pending = s.pending := by simp [State.loseAtRestart]

@[simp] theorem State.restoreSlots_pending (s : State) (i : SpillImage) : (s.restoreSlots i).1.pending = s.pending :=
  foldl_fst_pending (fun a x => by split <;> simp) _ _

@[simp] theorem State.restoreJournal_pending (s : State) (i : SpillImage) : (s.restoreJournal i).pending = s.pending := by
  simp [State.restoreJournal]

@[simp] theorem State.scanForme_pending (s : State) (recs : List JournalRec) (f : FormeBlock) : (s.scanForme recs f).pending = s.pending := by
  unfold State.scanForme
  extract_lets
  refine foldl_pending (fun s i => foldl_pending (fun s m => ?_) _ _) _ _
  split
  · split
    · exact State.applyReq_pending _ _ _ _
    · rfl
  · rfl

@[simp] theorem State.tagScan_pending (s : State) (recs : List JournalRec) : (s.tagScan recs).pending = s.pending := by simp [State.tagScan]

@[simp] theorem State.closeOpen_pending (s : State) : s.closeOpen.pending = s.pending := by simp [State.closeOpen]

@[simp] theorem State.restoreStamps_pending (s : State) : s.restoreStamps.pending = s.pending :=
  foldl_pending (fun s f => foldl_pending (fun s m => foldl_pending (fun s x => by dsimp only; split <;> simp) _ _) _ _) _ _

@[simp] theorem State.spillIncomplete_pending (s : State) (i : Option SpillImage) (lost last : Nat) :
    (s.spillIncomplete i lost last).pending = s.pending := by
  simp [State.spillIncomplete]

@[simp] theorem State.restart_pending (s : State) : s.restart.pending = s.pending := by
  unfold State.restart
  dsimp only
  split <;> simp

/-! ### Step 7 -/

@[simp] theorem State.loadSaved_pending (s : State) (c : Fin 2) : (s.loadSaved c).pending = s.pending := by
  unfold State.loadSaved
  dsimp only
  split <;> simp

@[simp] theorem State.loadPower_pending (s : State) : s.loadPower.pending = s.pending := by simp [State.loadPower]

@[simp] theorem State.startTests_pending (s : State) : s.startTests.pending = s.pending := by simp [State.startTests]

@[simp] theorem State.countStart_pending (s : State) : s.countStart.pending = s.pending := by simp [State.countStart]

@[simp] theorem State.resumeWipe_pending (s : State) : s.resumeWipe.pending = s.pending := by simp [State.resumeWipe]

@[simp] theorem State.firstFormat_pending (s : State) : s.firstFormat.pending = s.pending := by simp [State.firstFormat]

@[simp] theorem State.enterService_pending (s : State) : s.enterService.pending = s.pending := by simp [State.enterService]

@[simp] theorem State.bootMemories_pending (s : State) : s.bootMemories.pending = s.pending := by
  unfold State.bootMemories
  dsimp only
  (repeat' split) <;> simp

@[simp] theorem execBootEnd_keepsQueue (s : State) : keepsQueue s (execBootEnd s) := by
  unfold execBootEnd
  rw [keepsQueue_next]
  split
  · rfl
  · dsimp only
    split
    · next h => simp [State.selectImage_pending _ _ h]
    · split_ifs <;> simp

/-! ### Ends of a descriptor -/

@[simp] theorem State.dmaVote_pending (s : State) (ch : Nat) (hold : Bool) : (s.dmaVote ch hold).pending = s.pending := by
  simp [State.dmaVote]

@[simp] theorem State.dmaEnd_pending (s : State) (ch : Fin 32) (j : DmaJob) (aborted : Bool) (code residue : Nat) :
    (s.dmaEnd ch j aborted code residue).pending = s.pending := by
  simp [State.dmaEnd]

/-! ### The owner's writes -/

@[simp] theorem State.dmaOwned_pending (s : State) (client : Nat) (ch : Fin 32) (a : Nat) (v : Word) (i : Instr) {k : State → State}
    (hk : ∀ t, (k t).pending = t.pending) : (State.dmaOwned s client ch a v i k).pending = s.pending :=
  State.setupWrite_pending s _ _ _ _ fun t => by split_ifs <;> simp [hk]

@[simp] theorem execDmaRingTailWrite_keepsQueue (client : Nat) (ch : Fin 32) (tail : Nat) (s : State) :
    keepsQueue s (execDmaRingTailWrite client ch tail s) := by
  simp [execDmaRingTailWrite]

@[simp] theorem State.dmaAbort_pending (s : State) (ch : Fin 32) : (s.dmaAbort ch).pending = s.pending := by
  unfold State.dmaAbort
  split <;> simp

@[simp] theorem execDmaAbort_keepsQueue (client : Nat) (ch : Fin 32) (s : State) : keepsQueue s (execDmaAbort client ch s) := by
  simp [execDmaAbort]

@[simp] theorem execDmaResume_keepsQueue (client : Nat) (ch : Fin 32) (s : State) : keepsQueue s (execDmaResume client ch s) := by
  simp [execDmaResume]

@[simp] theorem execDmaEnableWrite_keepsQueue (client : Nat) (ch : Fin 32) (enable : Bool) (s : State) :
    keepsQueue s (execDmaEnableWrite client ch enable s) := by
  simp [execDmaEnableWrite]

/-! ### The power-fail inputs (R311, R312) -/

@[simp] theorem State.startFilter_pending (s : State) (f : Pins → Pins) : (s.startFilter f).pending = s.pending := by
  simp [State.startFilter]

@[simp] theorem execPwrFailAssert_keepsQueue (s : State) : keepsQueue s (execPwrFailAssert s) := by simp [execPwrFailAssert]

@[simp] theorem execVHoldLow_keepsQueue (s : State) : keepsQueue s (execVHoldLow s) := by simp [execVHoldLow]

@[simp] theorem execPwrFailRelease_keepsQueue (s : State) : keepsQueue s (execPwrFailRelease s) := by simp [execPwrFailRelease]

/-! ### The firmware store at a power failure (R332) -/

@[simp] theorem State.storePowerFail_pending (s : State) : s.storePowerFail.pending = s.pending := by simp [State.storePowerFail]

@[simp] theorem State.dropTest_pending (s : State) : s.dropTest.pending = s.pending := by simp [State.dropTest]

@[simp] theorem execPowerFailure_keepsQueue (s : State) : keepsQueue s (execPowerFailure s) := by simp [execPowerFailure]

/-! ### The spill edge (R320, R321) -/

@[simp] theorem State.resetDies_pending (s : State) : s.resetDies.pending = s.pending := by simp [State.resetDies]

@[simp] theorem State.endActivities_pending (s : State) : s.endActivities.pending = s.pending := by simp [State.endActivities]

@[simp] theorem State.spillDomains_pending (s : State) : s.spillDomains.pending = s.pending := by simp [State.spillDomains]

@[simp] theorem State.disarmMasks_pending (s : State) : s.disarmMasks.pending = s.pending := by simp [State.disarmMasks]

@[simp] theorem execSpillEdge_keepsQueue (s : State) : keepsQueue s (execSpillEdge s) := by
  unfold execSpillEdge
  split <;> simp

/-! ### The end of the spill (R322, R323) -/

@[simp] theorem execSpillComplete_keepsQueue (sealed : Bool) (s : State) : keepsQueue s (execSpillComplete sealed s) := by
  unfold execSpillComplete
  split <;> simp

@[simp] theorem execSupplyReturn_keepsQueue (b : Board) (s : State) : keepsQueue s (execSupplyReturn b s) := by simp [execSupplyReturn]

@[simp] theorem execSupplyReturnWithoutSpill_keepsQueue (s : State) : keepsQueue s (execSupplyReturnWithoutSpill s) := by
  simp [execSupplyReturnWithoutSpill]

/-! ### Release (R324) -/

@[simp] theorem execSpillwayRelease_keepsQueue (s : State) : keepsQueue s (execSpillwayRelease s) := by simp [execSpillwayRelease]

/-! ### The health test and the slot cap (R315, R316, R318) -/

@[simp] theorem State.cisternResult_pending (s : State) (r : Nat) : (s.cisternResult r).pending = s.pending := by simp [State.cisternResult]

@[simp] theorem State.evalCistern_pending (s : State) : s.evalCistern.pending = s.pending := by simp [State.evalCistern]

@[simp] theorem State.startTest_pending (s : State) : s.startTest.pending = s.pending := by simp [State.startTest]

@[simp] theorem execCisternTestStart_keepsQueue (client : Option Nat) (s : State) : keepsQueue s (execCisternTestStart client s) := by
  unfold execCisternTestStart
  split <;> simp

@[simp] theorem execCisternTestEnd_keepsQueue (s : State) : keepsQueue s (execCisternTestEnd s) := by
  unfold execCisternTestEnd
  split <;> simp

@[simp] theorem execCisternTestTimeout_keepsQueue (s : State) : keepsQueue s (execCisternTestTimeout s) := by
  unfold execCisternTestTimeout
  split <;> simp

@[simp] theorem execSlotCapCompute_keepsQueue (s : State) : keepsQueue s (execSlotCapCompute s) := by simp [execSlotCapCompute]

/-! ### Links (R45–R50, R86) -/

@[simp] theorem State.linkDown_pending (s : State) (c : Fin 2) : (s.linkDown c).pending = s.pending := by simp [State.linkDown]

/-! ### Controller resets (R52, R53, R499) -/

@[simp] theorem State.forgetAdmin_pending (s : State) (c : Fin 2) : (s.forgetAdmin c).pending = s.pending := by simp [State.forgetAdmin]

@[simp] theorem State.resetCtrl_pending (s : State) (c : Fin 2) (cfg : PciConfig → PciConfig) (down : Bool) :
    (s.resetCtrl c cfg down).pending = s.pending := by
  simp [State.resetCtrl]

@[simp] theorem execControllerEnable_keepsQueue (c : Fin 2) (aqa asq acq : Nat) (s : State) :
    keepsQueue s (execControllerEnable c aqa asq acq s) := by
  simp [execControllerEnable]

@[simp] theorem execControllerReset_keepsQueue (c : Fin 2) (s : State) : keepsQueue s (execControllerReset c s) := by
  simp [execControllerReset]

@[simp] theorem State.subsystemReset_pending (s : State) : s.subsystemReset.pending = s.pending := by
  unfold State.subsystemReset
  dsimp only
  (repeat' split) <;> simp

@[simp] theorem execNvmSubsystemReset_keepsQueue (c : Fin 2) (value : Word) (s : State) :
    keepsQueue s (execNvmSubsystemReset c value s) := by
  simp [execNvmSubsystemReset]

@[simp] theorem execFundamentalReset_keepsQueue (port : Fin 2) (s : State) : keepsQueue s (execFundamentalReset port s) := by
  simp [execFundamentalReset]

@[simp] theorem execPerstDeassert_keepsQueue (port : Fin 2) (s : State) : keepsQueue s (execPerstDeassert port s) := by
  simp [execPerstDeassert]

@[simp] theorem execHotReset_keepsQueue (c : Fin 2) (s : State) : keepsQueue s (execHotReset c s) := by simp [execHotReset]

@[simp] theorem execFunctionLevelReset_keepsQueue (c : Fin 2) (s : State) : keepsQueue s (execFunctionLevelReset c s) := by
  simp [execFunctionLevelReset]

@[simp] theorem execLinkTrained_keepsQueue (c : Fin 2) (rate width : Nat) (flit : Bool) (s : State) :
    keepsQueue s (execLinkTrained c rate width flit s) := by
  simp [execLinkTrained]

@[simp] theorem execL0pEnable_keepsQueue (c : Fin 2) (on : Bool) (s : State) : keepsQueue s (execL0pEnable c on s) := by
  simp [execL0pEnable]

@[simp] theorem execL0pWidthRequest_keepsQueue (c : Fin 2) (width : Nat) (s : State) : keepsQueue s (execL0pWidthRequest c width s) := by
  simp [execL0pWidthRequest]

@[simp] theorem execL1Entry_keepsQueue (c : Fin 2) (l12 : Bool) (s : State) : keepsQueue s (execL1Entry c l12 s) := by simp [execL1Entry]

@[simp] theorem execL1Exit_keepsQueue (c : Fin 2) (s : State) : keepsQueue s (execL1Exit c s) := by simp [execL1Exit]

@[simp] theorem execEcrcFailure_keepsQueue (c : Fin 2) (s : State) : keepsQueue s (execEcrcFailure c s) := by simp [execEcrcFailure]

@[simp] theorem execHostPortFailure_keepsQueue (port : Fin 2) (s : State) : keepsQueue s (execHostPortFailure port s) := by
  simp [execHostPortFailure]

/-! ### Shutdown (R480) -/

@[simp] theorem State.shutRecord_pending (s : State) (n : Fin 24) (r : Option Bool) : (s.shutRecord n r).pending = s.pending := by
  unfold State.shutRecord
  (repeat' split) <;> simp

@[simp] theorem State.endShutdown_pending (s : State) (x1 : Shutdown) : (s.endShutdown x1).pending = s.pending := by
  simp [State.endShutdown]

@[simp] theorem State.shutTurn_pending (s : State) : s.shutTurn.pending = s.pending := by
  unfold State.shutTurn
  (repeat' split) <;> simp

@[simp] theorem execShutdownNotification_keepsQueue (c : Fin 2) (testResults : List (Nat × Bool)) (s : State) :
    keepsQueue s (execShutdownNotification c testResults s) := by
  simp [execShutdownNotification]

@[simp] theorem execAbruptShutdown_keepsQueue (c : Fin 2) (s : State) : keepsQueue s (execAbruptShutdown c s) := by
  simp [execAbruptShutdown]

/-! ### BAR2 (R489, R498) -/

@[simp] theorem execBar2Write_keepsQueue (c : Fin 2) (addr : Nat) (value : Word) (s : State) :
    keepsQueue s (execBar2Write c addr value s) := by
  simp [execBar2Write]

@[simp] theorem execBar2ReadTimeout_keepsQueue (c : Fin 2) (addr : Nat) (s : State) : keepsQueue s (execBar2ReadTimeout c addr s) := by
  unfold execBar2ReadTimeout
  split <;> simp

/-! ### Register pairs (R496) -/

@[simp] theorem State.latchHi_pending (s : State) (client a : Nat) : (s.latchHi client a).pending = s.pending := by simp [State.latchHi]

/-! ### Reads -/

@[simp] theorem State.clearRc_pending (s : State) (client a : Nat) : (s.clearRc client a).pending = s.pending := by
  unfold State.clearRc
  (repeat' split) <;> simp

@[simp] theorem State.readEffects_pending (s : State) (client a : Nat) : (s.readEffects client a).pending = s.pending := by
  simp [State.readEffects]

@[simp] theorem State.endBarRead_pending (s : State) (client a : Nat) : (s.endBarRead client a).pending = s.pending := by
  unfold State.endBarRead
  split <;> simp

@[simp] theorem State.answerRead_pending (s : State) (client a v : Nat) : (s.answerRead client a v).pending = s.pending := by
  unfold State.answerRead
  split <;> simp

@[simp] theorem State.setupGet_pending (s : State) (client a : Nat) (i : Instr) : (s.setupGet client a i).pending = s.pending := by
  simp [State.setupGet]

@[simp] theorem State.popRead_pending (s : State) (client a : Nat) : ∀ t ∈ s.popRead client a, t.pending = s.pending := by
  unfold State.popRead
  split_ifs <;> simp

@[simp] theorem execPairLoRead_keepsQueue (client addr : Nat) (s : State) : keepsQueue s (execPairLoRead client addr s) := by
  simp [execPairLoRead]

@[simp] theorem execRcFieldRead_keepsQueue (client : Nat) (addr : Nat) (s : State) : keepsQueue s (execRcFieldRead client addr s) := by
  unfold execRcFieldRead
  rw [keepsQueue_next]
  split
  · next h => exact State.popRead_pending _ _ _ _ h
  · exact State.setupGet_pending _ _ _ _

/-! ### Writes with rules of their own -/

@[simp] theorem State.writeDlxNow_pending (s : State) (client : Nat) (v : Word) : (s.writeDlxNow client v).pending = s.pending := by
  simp [State.writeDlxNow]

@[simp] theorem execDlxNowWrite_keepsQueue (client : Nat) (value : Word) (s : State) : keepsQueue s (execDlxNowWrite client value s) := by
  simp [execDlxNowWrite]

@[simp] theorem execIrqEnableWrite_keepsQueue (client : Nat) (t : Fin 25) (w : Fin 6) (value : Word) (s : State) :
    keepsQueue s (execIrqEnableWrite client t w value s) := by
  simp [execIrqEnableWrite]

@[simp] theorem State.bankWrite_pending (s : State) (client code : Nat) (v : Word) : (s.bankWrite client code v).pending = s.pending := by
  simp [State.bankWrite]

@[simp] theorem State.dmaCtrlWrite_pending (s : State) (client : Nat) (ch : Fin 32) (v : Word) :
    (s.dmaCtrlWrite client ch v).pending = s.pending := by
  simp [State.dmaCtrlWrite]

@[simp] theorem State.dmaPageWrite_pending (s : State) (client : Nat) (ch : Fin 32) (a : Nat) (v : Word) :
    (s.dmaPageWrite client ch a v).pending = s.pending := by
  simp [State.dmaPageWrite]

@[simp] theorem State.bstWrite_pending (s : State) (client : Nat) (v : Word) : (s.bstWrite client v).pending = s.pending := by
  unfold State.bstWrite
  (repeat' split) <;> simp

@[simp] theorem State.fwsDataWrite_pending (s : State) (client : Nat) (v : Word) : (s.fwsDataWrite client v).pending = s.pending := by
  unfold State.fwsDataWrite
  dsimp only
  (repeat' split) <;> simp

@[simp] theorem State.trainWrite_pending (s : State) (client : Nat) (ch : Fin 12) (v : Word) :
    (s.trainWrite client ch v).pending = s.pending := by
  simp [State.trainWrite]

@[simp] theorem State.mrwWrite_pending (s : State) (client : Nat) (ch : Fin 12) (v : Word) :
    (s.mrwWrite client ch v).pending = s.pending := by
  simp [State.mrwWrite]

@[simp] theorem State.laneWrite_pending (s : State) (client ch : Nat) (v : Word) : (s.laneWrite client ch v).pending = s.pending := by
  simp [State.laneWrite]

@[simp] theorem State.mrPtrWrite_pending (s : State) (client : Nat) (v : Word) : (s.mrPtrWrite client v).pending = s.pending := by
  simp [State.mrPtrWrite]

@[simp] theorem State.decOutWrite_pending (s : State) (soft : Bool) (v : Word) : (s.decOutWrite soft v).pending = s.pending := by
  simp [State.decOutWrite]

@[simp] theorem State.fceCtrlWrite_pending (s : State) (client : Nat) (ch : Fin 64) (v : Word) :
    (s.fceCtrlWrite client ch v).pending = s.pending := by
  simp [State.fceCtrlWrite]

@[simp] theorem State.furCfgWrite_pending (s : State) (client n : Nat) (v : Word) : (s.furCfgWrite client n v).pending = s.pending := by
  simp [State.furCfgWrite]

@[simp] theorem State.modeReqWrite_pending (s : State) (client : Nat) (v : Word) : (s.modeReqWrite client v).pending = s.pending := by
  simp [State.modeReqWrite]

/-- What holds of the states of both branches holds of the state of a conditional. -/
theorem forall_mem_ite {P : State → Prop} {c : Prop} [Decidable c] {o p : Option State} :
    (∀ t ∈ (if c then o else p), P t) ↔ (c → ∀ t ∈ o, P t) ∧ (¬c → ∀ t ∈ p, P t) := by
  split_ifs with h <;> simp [h]

@[simp] theorem State.singleWrite_pending (s : State) (client : Nat) (a : Nat) (v : Word) :
    ∀ t ∈ State.singleWrite s client a v, t.pending = s.pending := by
  simp only [State.singleWrite, forall_mem_ite, Option.mem_some_iff, forall_eq']
  simp

@[simp] theorem State.arrayWrite_pending (s : State) (client a : Nat) (v : Word) :
    ∀ t ∈ s.arrayWrite client a v, t.pending = s.pending := by
  unfold State.arrayWrite
  (repeat' split) <;> simp

@[simp] theorem State.routedWrite_pending (s : State) (client : Nat) (a : Nat) (v : Word) : (State.routedWrite s client a v).pending = s.pending := by
  unfold State.routedWrite
  extract_lets bad logged
  have hlogged (t : State) : (logged t).pending = t.pending := by
    simp only [logged]
    split
    · split_ifs <;> simp
    · rfl
  split
  · next h => rw [hlogged, State.singleWrite_pending _ _ _ _ _ h]
  · split
    · next h => rw [hlogged, State.arrayWrite_pending _ _ _ _ _ h]
    · exact State.regWrite_pending _ _ _ _

@[simp] theorem execRegisterWrite_keepsQueue (client addr : Nat) (value : Word) (width : Nat) (s : State) :
    keepsQueue s (execRegisterWrite client addr value width s) := by
  simp [execRegisterWrite]

/-! ### Reading and writing a side (R382) -/

@[simp] theorem State.dmaLoad_pending (s : State) (client a n : Nat) : (s.dmaLoad client a n).2.pending = s.pending := by
  simp [State.dmaLoad]

theorem foldl_snd_pending {α β : Type} {f : β × State → α → β × State} (h : ∀ a x, (f a x).2.pending = a.2.pending) (l : List α)
    (a : β × State) : (l.foldl f a).2.pending = a.2.pending := by
  induction l generalizing a with
  | nil => rfl
  | cons x l ih => exact (ih (f a x)).trans (h a x)

@[simp] theorem State.dmaRead_pending (s : State) (client : Nat) (d : Desc) (ofs : Nat) (n : Nat) :
    (s.dmaRead client d ofs n).2.pending = s.pending := by
  unfold State.dmaRead
  extract_lets a o
  split
  · exact State.tookFree_pending _
  · split
    · split
      · exact State.onMgmt_pending _ _
      · split
        · exact State.onMgmt_pending _ _
        · split
          · exact State.onMgmt_pending _ _
          · exact foldl_snd_pending (fun _ _ => State.readEffects_pending _ _ _) _ _
    · split
      · rfl
      · exact State.dmaLoad_pending _ _ _ _

@[simp] theorem State.dmaStore_pending (s : State) (client fuel a : Nat) (bs : Bytes) : (State.dmaStore s client fuel a bs).pending = s.pending := by
  induction fuel generalizing s a bs with
  | zero => rfl
  | succ fuel ih =>
    unfold State.dmaStore
    split
    · rfl
    · rw [ih]
      split <;> exact State.storeWord_pending _ _ _ _ _

/-- A run of register writes, each at its own offset. -/
theorem foldl_routedWrite_pending (client : Nat) (a : Nat → Nat) (w : Nat → Word) (l : List Nat) (s : State) :
    (l.foldl (fun s i => s.routedWrite client (a i) (w i)) s).pending = s.pending :=
  foldl_pending (fun t i => State.routedWrite_pending t client (a i) (w i)) l s

@[simp] theorem State.dmaWrite_pending (s : State) (client : Nat) (d : Desc) (ofs : Nat) (bs : Bytes) :
    (s.dmaWrite client d ofs bs).pending = s.pending := by
  unfold State.dmaWrite
  extract_lets a o
  clear_value o a
  split
  · rfl
  · split
    · split
      · exact State.onMgmt_pending _ _
      · split
        · exact State.onMgmt_pending _ _
        · exact foldl_routedWrite_pending client (fun i => o + 4 * i)
            (fun i => BitVec.ofNat 32 (leNat (Sys2Proof.Machine.slice bs (4 * i) 4))) _ s
    · exact State.dmaStore_pending _ _ _ _ _

@[simp] theorem State.dmaCount_pending (s : State) (ch : Fin 32) (n : Nat) : (s.dmaCount ch n).pending = s.pending := by
  simp [State.dmaCount]

@[simp] theorem State.dmaScatter_pending (s : State) (client : Nat) (d : Desc) (ofs : Nat) (bs : Bytes) :
    (s.dmaScatter client d ofs bs).pending = s.pending := by
  simp [State.dmaScatter]

@[simp] theorem State.dmaMove_pending (s : State) (ch : Fin 32) (d : Desc) (ofs n : Nat) : (s.dmaMove ch d ofs n).pending = s.pending := by
  simp [State.dmaMove]

/-! ### Errors during a transfer (R390) -/

@[simp] theorem State.dmaPartial_pending (s : State) (ch : Fin 32) (d : Desc) (p x4 code : Nat) :
    (s.dmaPartial ch d p x4 code).pending = s.pending := by
  simp [State.dmaPartial]

@[simp] theorem State.dmaRecord_pending (s : State) (ch : Fin 32) (d : Desc) (x3 code : Nat) :
    (s.dmaRecord ch d x3 code).pending = s.pending := by
  unfold State.dmaRecord
  dsimp only
  split <;> simp

@[simp] theorem State.dmaRun_pending (s : State) (ch : Fin 32) (d : Desc) (hostErr : Option Nat) :
    (s.dmaRun ch d hostErr).pending = s.pending := by
  unfold State.dmaRun
  split <;> simp

/-! ### Sleeping sides (R377) -/

@[simp] theorem State.sideGate_pending (s : State) (client : Nat) (space : Nat) (a : Nat) (len : Nat) (write : Bool) (i : Instr) {k : State → State}
    (hk : ∀ t, (k t).pending = t.pending) : (State.sideGate s client space a len write i k).pending = s.pending := by
  unfold State.sideGate
  split
  · exact hk s
  · induction probes a len generalizing s with
    | nil => exact hk s
    | cons p l ih =>
      rw [List.foldr_cons]
      split_ifs
      · exact State.gate_pending s _ _ _ _ _ ih
      · exact State.gate_pending s _ _ _ _ _ fun t => State.storeGate_pending t _ _ ih
      · exact State.memGate_pending s _ _ _ _ ih

@[simp] theorem State.sidesGate_pending (s : State) (ch : Fin 32) (d : Desc) (i : Instr) {k : State → State}
    (hk : ∀ t, (k t).pending = t.pending) : (State.sidesGate s ch d i k).pending = s.pending :=
  State.sideGate_pending s _ _ _ _ _ _ fun t => State.sideGate_pending t _ _ _ _ _ _ hk

/-! ### Commands -/

@[simp] theorem State.dmaStart_pending (s : State) (ch : Fin 32) (hostErr : Option Nat) (d : Desc) :
    (s.dmaStart ch hostErr d).pending = s.pending := by
  simp [State.dmaStart]

/-- Two gates in a row, the access's domain and its memory, with what runs behind them. -/
theorem State.gate_memGate_pending (s : State) (n : Fin 24) (client addr : Nat) (i : Instr) {k : State → State}
    (hk : ∀ t, (k t).pending = t.pending) : (s.gate n client addr false i fun s => s.memGate client addr false i k).pending = s.pending :=
  State.gate_pending s _ _ _ _ _ fun t => State.memGate_pending t _ _ _ _ hk

@[simp] theorem execDmaDescriptor_keepsQueue (ch : Fin 32) (hostErr : Option Nat) (s : State) : keepsQueue s (execDmaDescriptor ch hostErr s) := by
  unfold execDmaDescriptor
  rw [keepsQueue_next]
  extract_lets slot
  clear_value slot
  split
  · rfl
  · exact State.gate_memGate_pending s _ _ _ _ fun t => by split <;> simp

@[simp] theorem State.dmaBurstEnd_pending (s : State) (ch : Fin 32) : (s.dmaBurstEnd ch).pending = s.pending := by
  unfold State.dmaBurstEnd
  dsimp only
  (repeat' split) <;> simp

@[simp] theorem execDmaBurst_keepsQueue (ch : Fin 32) (err : Nat) (s : State) : keepsQueue s (execDmaBurst ch err s) := by
  unfold execDmaBurst
  split <;> simp

@[simp] theorem execDmaRequestWithdrawn_keepsQueue (ch : Fin 32) (s : State) : keepsQueue s (execDmaRequestWithdrawn ch s) := by
  unfold execDmaRequestWithdrawn
  split <;> simp

/-! ### NVMe-MI commands (R461) -/

@[simp] theorem State.miStructure_pending (s : State) (dtyp : Nat) : (s.miStructure dtyp).after.pending = s.pending := by
  unfold State.miStructure
  split <;> simp

@[simp] theorem State.miSubsystemHealth_pending (s : State) (clear : Bool) : (s.miSubsystemHealth clear).after.pending = s.pending := by
  simp [State.miSubsystemHealth]

@[simp] theorem State.miControllerHealth_pending (s : State) (c : Fin 2) : (s.miControllerHealth c).after.pending = s.pending := by
  simp [State.miControllerHealth]

@[simp] theorem State.miConfigGet_pending (s : State) (x : MiConfig) : (s.miConfigGet x).after.pending = s.pending := by
  unfold State.miConfigGet
  split <;> simp

@[simp] theorem State.miConfigSet_pending (s : State) (id : MiConfig) (v : Nat) : (s.miConfigSet id v).after.pending = s.pending := by
  unfold State.miConfigSet
  (repeat' split) <;> simp

@[simp] theorem State.miVpdRead_pending (s : State) (ofs len : Nat) : (s.miVpdRead ofs len).after.pending = s.pending := by
  unfold State.miVpdRead
  split <;> simp

@[simp] theorem State.miVpdWrite_pending (s : State) (ofs : Nat) (data : Bytes) : (s.miVpdWrite ofs data).after.pending = s.pending := by
  unfold State.miVpdWrite
  split <;> simp

@[simp] theorem State.miReset_pending (s : State) : s.miReset.after.pending = s.pending := by simp [State.miReset]

@[simp] theorem State.miRequest_pending (s : State) (path : Nat) {k : State → MiAnswer} (hk : ∀ t, (k t).after.pending = t.pending) :
    (s.miRequest path k).pending = s.pending := by
  unfold State.miRequest
  split <;> simp [*]

@[simp] theorem execReadNvmeMiDataStructure_keepsQueue (path dtyp : Nat) (s : State) :
    keepsQueue s (execReadNvmeMiDataStructure path dtyp s) := by
  simp [execReadNvmeMiDataStructure]

@[simp] theorem execNvmSubsystemHealthStatusPoll_keepsQueue (path : Nat) (clear : Bool) (s : State) :
    keepsQueue s (execNvmSubsystemHealthStatusPoll path clear s) := by
  simp [execNvmSubsystemHealthStatusPoll]

@[simp] theorem execControllerHealthStatusPoll_keepsQueue (path : Nat) (c : Fin 2) (s : State) :
    keepsQueue s (execControllerHealthStatusPoll path c s) := by
  simp [execControllerHealthStatusPoll]

@[simp] theorem execConfigurationGet_keepsQueue (path : Nat) (id : MiConfig) (s : State) :
    keepsQueue s (execConfigurationGet path id s) := by
  simp [execConfigurationGet]

@[simp] theorem execConfigurationSet_keepsQueue (path : Nat) (id : MiConfig) (value : Nat) (s : State) :
    keepsQueue s (execConfigurationSet path id value s) := by
  simp [execConfigurationSet]

@[simp] theorem execVpdRead_keepsQueue (path ofs len : Nat) (s : State) : keepsQueue s (execVpdRead path ofs len s) := by simp [execVpdRead]

@[simp] theorem execVpdWrite_keepsQueue (path ofs : Nat) (data : Bytes) (s : State) : keepsQueue s (execVpdWrite path ofs data s) := by
  simp [execVpdWrite]

@[simp] theorem execNvmeMiReset_keepsQueue (path : Nat) (s : State) : keepsQueue s (execNvmeMiReset path s) := by simp [execNvmeMiReset]

/-! ### NVMe-MI Send and Receive (R62) -/

@[simp] theorem State.miRun_pending (s : State) (x : MiCmd) : (s.miRun x).after.pending = s.pending := by
  unfold State.miRun
  split <;> simp

@[simp] theorem State.miComplete_pending (s : State) (a : Adm) (ok : Bool) (m : MiCmd) : (s.miComplete a ok m).pending = s.pending := by
  simp [State.miComplete]

@[simp] theorem execNvmeMiSend_keepsQueue (a : Adm) (m : MiCmd) (s : State) : keepsQueue s (execNvmeMiSend a m s) := by
  simp [execNvmeMiSend]

@[simp] theorem execNvmeMiReceive_keepsQueue (a : Adm) (m : MiCmd) (s : State) : keepsQueue s (execNvmeMiReceive a m s) := by
  simp [execNvmeMiReceive]

/-! ### Tunnelled admin commands (R461) -/

@[simp] theorem answered_self_pending {s : State} {o : Out} (h : keepsQueue s o) : (answered o s).pending = s.pending := answered_pending h s

@[simp] theorem State.tunnelled_pending (s : State) (a : Adm) (c : AdminCmd) : (State.tunnelled s a c).pending = s.pending := by
  cases c
  case firmwareCommit ca fs => unfold State.tunnelled; dsimp only; split <;> simp
  case deviceSelfTest stc n => unfold State.tunnelled; dsimp only; split <;> simp
  case sanitize act ndas => unfold State.tunnelled; dsimp only; split <;> simp
  all_goals simp [State.tunnelled]

@[simp] theorem execNvmeMiTunnelledAdmin_keepsQueue (path cid : Nat) (c : AdminCmd) (s : State) :
    keepsQueue s (execNvmeMiTunnelledAdmin path cid c s) := by
  simp [execNvmeMiTunnelledAdmin]

/-! ### The console (R462) -/

@[simp] theorem execConsoleStatus_keepsQueue (s : State) : keepsQueue s (execConsoleStatus s) := by simp [execConsoleStatus]

@[simp] theorem execConsoleLog_keepsQueue (format : Nat) (s : State) : keepsQueue s (execConsoleLog format s) := by simp [execConsoleLog]

@[simp] theorem execConsoleEdition_keepsQueue (op : ConsoleEdition) (s : State) : keepsQueue s (execConsoleEdition op s) := by
  unfold execConsoleEdition
  split <;> simp

@[simp] theorem execConsoleSelftest_keepsQueue (stc : Nat) (s : State) : keepsQueue s (execConsoleSelftest stc s) := by
  simp [execConsoleSelftest]

/-! ### The TAP (R529) -/

@[simp] theorem State.tapPower_pending (s : State) (on : Bool) : (s.tapPower on).pending = s.pending := by simp [State.tapPower]

@[simp] theorem execTapInstructionUpdate_keepsQueue (i : TapInstr) (s : State) : keepsQueue s (execTapInstructionUpdate i s) := by
  simp [execTapInstructionUpdate]

@[simp] theorem rerun_keepsQueue (i : Instr) (s : State) : keepsQueue s (rerun i s) := by
  unfold rerun
  split <;> simp

@[simp] theorem State.resumeAll_pending (s : State) (l : List Instr) : (s.resumeAll l).pending = s.pending := by simp [State.resumeAll]

@[simp] theorem State.resumeDom_pending (s : State) (n : Fin 24) : (s.resumeDom n).pending = s.pending := by simp [State.resumeDom]

@[simp] theorem State.resumeBanks_pending (s : State) : s.resumeBanks.pending = s.pending := by simp [State.resumeBanks]

@[simp] theorem State.resumeStore_pending (s : State) : s.resumeStore.pending = s.pending := by simp [State.resumeStore]

@[simp] theorem State.resumeRider_pending (s : State) : s.resumeRider.pending = s.pending := by simp [State.resumeRider]

/-! ### The ends of wakes -/

@[simp] theorem State.wakeEnd_pending (s : State) (n : Fin 24) : (s.wakeEnd n).pending = s.pending := by simp [State.wakeEnd]

@[simp] theorem execDomainWakeComplete_keepsQueue (dom : Fin 24) (s : State) : keepsQueue s (execDomainWakeComplete dom s) := by
  simp [execDomainWakeComplete]

@[simp] theorem execChannelGroupWake_keepsQueue (g : Fin 8) (failed : List Nat) (s : State) :
    keepsQueue s (execChannelGroupWake g failed s) := by
  simp [execChannelGroupWake]

@[simp] theorem execDramHalfPs4Wake_keepsQueue (upper verified : Bool) (s : State) :
    keepsQueue s (execDramHalfPs4Wake upper verified s) := by
  simp [execDramHalfPs4Wake]

@[simp] theorem execBankWakeComplete_keepsQueue (code : Nat) (uncorrectable canaryBad : Bool) (s : State) :
    keepsQueue s (execBankWakeComplete code uncorrectable canaryBad s) := by
  simp [execBankWakeComplete]

/-! ### What the edge reports (R31, R43, R312, R502) -/

@[simp] theorem State.countOverruns_pending (s : State) (e : EdgeEnv) : (s.countOverruns e).pending = s.pending := by
  simp [State.countOverruns]

@[simp] theorem State.convertVhold_pending (s : State) (code : Nat) : (s.convertVhold code).pending = s.pending := by
  simp [State.convertVhold]

@[simp] theorem State.countVote_pending (s : State) (e : EdgeEnv) : (s.countVote e).pending = s.pending := by simp [State.countVote]

@[simp] theorem State.readPairs_pending (s : State) (e : EdgeEnv) : (s.readPairs e).pending = s.pending :=
  foldl_pending (fun s x => by split <;> simp) _ _

@[simp] theorem State.upsetPairs_pending (s : State) (e : EdgeEnv) : (s.upsetPairs e).pending = s.pending := by simp [State.upsetPairs]

/-! ### The data plane (R30) -/

@[simp] theorem State.tryHeld_pending (s : State) : s.tryHeld.pending = s.pending := foldl_pending (fun s x => by split <;> simp) _ _

@[simp] theorem State.sluiceTurn_pending (s : State) (e : EdgeEnv) : (s.sluiceTurn e).pending = s.pending := by simp [State.sluiceTurn]

@[simp] theorem State.writeOut_pending (s : State) : s.writeOut.pending = s.pending := by simp [State.writeOut]

@[simp] theorem State.galleyTurn_pending (s : State) (e : EdgeEnv) : (s.galleyTurn e).pending = s.pending := by
  unfold State.galleyTurn
  dsimp only
  (repeat' split) <;> simp

@[simp] theorem State.publishHold_pending (s : State) : s.publishHold.pending = s.pending := by
  unfold State.publishHold
  split <;> simp

@[simp] theorem State.writeCloses_pending (s : State) : s.writeCloses.pending = s.pending := by simp [State.writeCloses]

@[simp] theorem State.removeLeaving_pending (s : State) : s.removeLeaving.pending = s.pending := by simp [State.removeLeaving]

@[simp] theorem State.stampStep_pending (s : State) : s.stampStep.pending = s.pending := by
  unfold State.stampStep
  dsimp only
  (repeat' split) <;> simp

@[simp] theorem State.dataPlaneTurn_pending (s : State) (e : EdgeEnv) : (s.dataPlaneTurn e).pending = s.pending := by
  simp [State.dataPlaneTurn]

@[simp] theorem State.takeAdds_pending (s : State) : s.takeAdds.pending = s.pending := by simp [State.takeAdds]

@[simp] theorem State.dropPast_pending (s : State) : s.dropPast.pending = s.pending := by simp [State.dropPast]

/-! ### Domains, modes and the rest of the edge -/

@[simp] theorem State.retireTurn_pending (s : State) : s.retireTurn.pending = s.pending := by simp [State.retireTurn]

@[simp] theorem State.idleTurn_pending (s : State) : s.idleTurn.pending = s.pending := by simp [State.idleTurn]

@[simp] theorem State.resumeTurn_pending (s : State) : s.resumeTurn.pending = s.pending := by
  unfold State.resumeTurn
  dsimp only
  split <;> simp

@[simp] theorem State.readyTurn_pending (s : State) : s.readyTurn.pending = s.pending := by
  unfold State.readyTurn
  dsimp only
  (repeat' split) <;> simp

@[simp] theorem State.fillTurn_pending (s : State) : s.fillTurn.pending = s.pending := by simp [State.fillTurn]

@[simp] theorem State.coreTurn_pending (s : State) : s.coreTurn.pending = s.pending := by simp [State.coreTurn]

@[simp] theorem State.busyTurn_pending (s : State) : s.busyTurn.pending = s.pending := by simp [State.busyTurn]

@[simp] theorem State.warnTurn_pending (s : State) : s.warnTurn.pending = s.pending := by simp [State.warnTurn]

@[simp] theorem State.sealTurn_pending (s : State) : s.sealTurn.pending = s.pending := by simp [State.sealTurn]

@[simp] theorem State.retireStopped_pending (s : State) : s.retireStopped.pending = s.pending := by simp [State.retireStopped]

@[simp] theorem State.mgmtTurn_pending (s : State) : s.mgmtTurn.pending = s.pending := by simp [State.mgmtTurn]

@[simp] theorem State.dmaTurn_pending (s : State) : s.dmaTurn.pending = s.pending := by simp [State.dmaTurn]

@[simp] theorem State.powerTurn_pending (s : State) : s.powerTurn.pending = s.pending := by simp [State.powerTurn]

@[simp] theorem State.turnEdge_pending (s : State) (e : EdgeEnv) : (s.turnEdge e).pending = s.pending := by simp [State.turnEdge]

@[simp] theorem execTurnEdge_keepsQueue (e : EdgeEnv) (s : State) : keepsQueue s (execTurnEdge e s) := by simp [execTurnEdge]

@[simp] theorem execSpanEdge_keepsQueue (s : State) : keepsQueue s (execSpanEdge s) := by simp [execSpanEdge]

/-! ### The thermal model and Surge (R448–R450) -/

@[simp] theorem State.thermTurn_pending (s : State) (tj p : ℚ) : (s.thermTurn tj p).pending = s.pending := by simp [State.thermTurn]

@[simp] theorem State.coolTurn_pending (s : State) : s.coolTurn.pending = s.pending := by simp [State.coolTurn]

@[simp] theorem State.surgeTurn_pending (s : State) (refused : Nat) (hot : Option (Bool × Bool)) :
    (s.surgeTurn refused hot).pending = s.pending := by
  simp [State.surgeTurn]

@[simp] theorem State.heatTurn_pending (s : State) (refused : Nat) : (s.heatTurn refused).pending = s.pending := by
  unfold State.heatTurn
  split <;> simp

/-! ### Temperatures (R256, R452, R464) -/

@[simp] theorem State.tempTurn_pending (s : State) : s.tempTurn.pending = s.pending := foldl_pending (fun s x => by split <;> simp) _ _

@[simp] theorem State.tempWarning_pending (s : State) : s.tempWarning.pending = s.pending := by simp [State.tempWarning]

/-! ### Counts that a rotation closes -/

@[simp] theorem State.flashTurn_pending (s : State) : s.flashTurn.pending = s.pending := by simp [State.flashTurn]

@[simp] theorem State.dramTurn_pending (s : State) : s.dramTurn.pending = s.pending := by simp [State.dramTurn]

@[simp] theorem State.hostTurn_pending (s : State) : s.hostTurn.pending = s.pending := by simp [State.hostTurn]

@[simp] theorem State.refuseTurn_pending (s : State) : s.refuseTurn.pending = s.pending := by simp [State.refuseTurn]

@[simp] theorem State.rebuildTurn_pending (s : State) : s.rebuildTurn.pending = s.pending := by simp [State.rebuildTurn]

@[simp] theorem State.agesTurn_pending (s : State) : s.agesTurn.pending = s.pending := by simp [State.agesTurn]

/-! ### The log flush (R466, R255) -/

@[simp] theorem State.writeRing_pending (s : State) (l : List LogEntry) : (s.writeRing l).pending = s.pending := by simp [State.writeRing]

@[simp] theorem State.flushLog_pending (s : State) : s.flushLog.pending = s.pending := by simp [State.flushLog]

/-! ### The rotation edge -/

@[simp] theorem State.siliconTurn_pending (s : State) : s.siliconTurn.pending = s.pending := by simp [State.siliconTurn]

@[simp] theorem State.learnTurn_pending (s : State) : s.learnTurn.pending = s.pending := by simp [State.learnTurn]

@[simp] theorem State.evacuatedTurn_pending (s : State) : s.evacuatedTurn.pending = s.pending := by simp [State.evacuatedTurn]

@[simp] theorem State.stampTurn_pending (s : State) : s.stampTurn.pending = s.pending := by simp [State.stampTurn]

@[simp] theorem State.firmwareTurn_pending (s : State) : s.firmwareTurn.pending = s.pending := by simp [State.firmwareTurn]

@[simp] theorem State.riderTurn_pending (s : State) : s.riderTurn.pending = s.pending := by simp [State.riderTurn]

@[simp] theorem execRotationEdge_keepsQueue (s : State) : keepsQueue s (execRotationEdge s) := by simp [execRotationEdge]
/-! ### Every command -/

/-- Every command leaves the queue as it found it: by the lemma about its own effect, command by command. -/
theorem exec_keepsQueue (i : Instr) (s : State) : keepsQueue s (exec i s) := by
  cases i <;> simp [exec]

/-- Settles O2: the outcome of a command is a next state with the same queue, and a step with an empty queue answers its own state. -/
theorem commandsCompleteAndKeepTheQueue : Obligations.CommandsCompleteAndKeepTheQueue := by
  unfold Obligations.CommandsCompleteAndKeepTheQueue
  refine ⟨fun i s => ?_, fun s h => ?_, fun i s t h => ?_⟩
  · obtain ⟨t, ht, -⟩ := exec_keepsQueue i s
    exact ⟨t, ht⟩
  · rw [step, h]
  · have kept := exec_keepsQueue i s
    rwa [h, keepsQueue_next] at kept

end Sys2Proof.Machine
end

section
/-! A rotation edge that overwrites the Dellux clock: the learned times of a die number beyond the last lie at the clock's address. First,
every other function of a rotation edge leaves the clock's register alone. -/

namespace Sys2Proof.Machine

open Sys2Proof.Safety

/-- The register of the Dellux clock. -/
def State.clock (s : State) : Word := s.word Reg.LDP_DLX_NOW

section
variable (s : State)

theorem State.fld_clock : s.fld Reg.LDP_DLX_NOW_ROT = bitsOf s.clock 0 32 := (rfl)

/-! ### The clock under the updates of the state -/

theorem State.setFld_clock {f : Fld} (v : Nat) (h : f.addr ≠ Reg.LDP_DLX_NOW) : (s.setFld f v).clock = s.clock := by
  rw [State.clock, State.word_setFld, wordAfter, if_neg h, wordAfter, State.clock]

theorem State.addFld_clock {f : Fld} (n : Nat) (h : f.addr ≠ Reg.LDP_DLX_NOW) : (s.addFld f n).clock = s.clock := s.setFld_clock _ h

theorem State.setFlds_clock {l : List (Fld × Nat)} (h : ∀ p ∈ l, p.1.addr ≠ Reg.LDP_DLX_NOW) : (s.setFlds l).clock = s.clock :=
  s.word_setFlds_of_addr_ne h

@[simp] theorem State.onMemory_clock (f : Memory → Memory) : (s.onMemory f).clock = s.clock := (rfl)
@[simp] theorem State.onPower_clock (f : Power → Power) : (s.onPower f).clock = s.clock := (rfl)
@[simp] theorem State.onDom_clock (n : Fin 24) (f : Domain → Domain) : (s.onDom n f).clock = s.clock := (rfl)
@[simp] theorem State.onMgmt_clock (f : Mgmt → Mgmt) : (s.onMgmt f).clock = s.clock := (rfl)
@[simp] theorem State.onCollector_clock (f : Collector → Collector) : (s.onCollector f).clock = s.clock := (rfl)
@[simp] theorem State.onHost_clock (f : Headgate → Headgate) : (s.onHost f).clock = s.clock := (rfl)
@[simp] theorem State.onCtl_clock (c : Fin 2) (f : Controller → Controller) : (s.onCtl c f).clock = s.clock := (rfl)
@[simp] theorem State.onStore_clock (f : Store → Store) : (s.onStore f).clock = s.clock := (rfl)
@[simp] theorem State.onFlash_clock (f : Flash → Flash) : (s.onFlash f).clock = s.clock := (rfl)
@[simp] theorem State.onGalley_clock (f : Galley → Galley) : (s.onGalley f).clock = s.clock := (rfl)
@[simp] theorem State.onSluice_clock (f : Sluice → Sluice) : (s.onSluice f).clock = s.clock := (rfl)
@[simp] theorem State.onNv_clock (f : NonVol → NonVol) : (s.onNv f).clock = s.clock := (rfl)
@[simp] theorem State.log_clock (code source client param : Nat) : (s.log code source client param).clock = s.clock := (rfl)
@[simp] theorem State.holdWord_clock (a : Nat) : (s.holdWord a).clock = s.clock := s.holdWord_word a _

theorem foldl_keeps {α β : Type} {f : State → α → State} (g : State → β) (h : ∀ s x, g (f s x) = g s) (l : List α) (s : State) :
    g (l.foldl f s) = g s := by
  induction l generalizing s with
  | nil => rfl
  | cons x l ih => exact (ih (f s x)).trans (h s x)

theorem foldl_clock {α : Type} {f : State → α → State} (h : ∀ s x, (f s x).clock = s.clock) (l : List α) (s : State) :
    (l.foldl f s).clock = s.clock := foldl_keeps State.clock h l s

@[simp] theorem State.clock_ite (c : Prop) [Decidable c] (s t : State) :
    (if c then s else t).clock = if c then s.clock else t.clock := apply_ite State.clock c s t

/-! ### Domains, records and forme-blocks -/

@[simp] theorem State.startWake_clock (n : Fin 24) : (s.startWake n).clock = s.clock := (rfl)

@[simp] theorem State.restartIdle_clock (n : Fin 24) : (s.restartIdle n).clock = s.clock := (rfl)

@[simp] theorem State.touch_clock (n : Fin 24) (client : Nat) : (s.touch n client).clock = s.clock := by
  unfold State.touch
  split
  · split_ifs
    · simp [State.logUncoded]
    · simp
  · rw [State.restartIdle_clock, State.countRefusal, State.log_clock, State.setFld_clock _ _ (by decide), State.onDom_clock, State.onDom_clock]
  · exact s.restartIdle_clock n
  · rfl

@[simp] theorem State.retireRecord_clock (kind trigger id aux : Nat) : (s.retireRecord kind trigger id aux).clock = s.clock := (rfl)

@[simp] theorem State.fdpEvent_clock (type handle : Nat) : (s.fdpEvent type handle).clock = s.clock := by simp [State.fdpEvent]

@[simp] theorem State.dropPlans_clock (p : FormePlan → Bool) : (s.dropPlans p).clock = s.clock := (rfl)

@[simp] theorem State.closeFormeBlocks_clock (p : FormeBlock → Bool) (victim : Nat) : (s.closeFormeBlocks p victim).clock = s.clock := by
  unfold State.closeFormeBlocks
  rw [State.dropPlans_clock, State.onFlash_clock]
  exact foldl_clock (fun t (f : FormeBlock) => t.fdpEvent_clock 0 f.handle) _ _

/-! ### Registers that come once per die, channel, link or reason: none lies at the clock's address -/

theorem FUR_STATUS_ne_clock (d : Nat) : Reg.FUR_STATUS d ≠ Reg.LDP_DLX_NOW := by
  unfold Reg.FUR_STATUS Reg.LDP_DLX_NOW
  omega

theorem FUR_TMEAS_A_ne_clock (d : Nat) : Reg.FUR_TMEAS_A d ≠ Reg.LDP_DLX_NOW := by
  unfold Reg.FUR_TMEAS_A Reg.LDP_DLX_NOW
  omega

theorem FUR_TMEAS_B_ne_clock (d : Nat) : Reg.FUR_TMEAS_B d ≠ Reg.LDP_DLX_NOW := by
  unfold Reg.FUR_TMEAS_B Reg.LDP_DLX_NOW
  omega

theorem FUR_TIMEOUT_ne_clock (d : Nat) : Reg.FUR_TIMEOUT d ≠ Reg.LDP_DLX_NOW := by
  unfold Reg.FUR_TIMEOUT Reg.LDP_DLX_NOW
  omega

theorem SLU_DIE_STATE_ne_clock (d : Nat) : Reg.SLU_DIE_STATE d ≠ Reg.LDP_DLX_NOW := by
  unfold Reg.SLU_DIE_STATE Reg.LDP_DLX_NOW
  omega

theorem FCE_RETRAIN_ne_clock (c : Nat) : Reg.FCE_RETRAIN c ≠ Reg.LDP_DLX_NOW := by
  unfold Reg.FCE_RETRAIN Reg.LDP_DLX_NOW
  omega

theorem DMC_SLICE_UE_ne_clock (c : Nat) : Reg.DMC_SLICE_UE c ≠ Reg.LDP_DLX_NOW := by
  unfold Reg.DMC_SLICE_UE Reg.LDP_DLX_NOW
  omega

theorem DMC_SCRUB_ne_clock (c : Nat) : Reg.DMC_SCRUB c ≠ Reg.LDP_DLX_NOW := by
  unfold Reg.DMC_SCRUB Reg.LDP_DLX_NOW
  omega

theorem LDP_DLX_TEMP_ne_clock (r : Nat) : Reg.LDP_DLX_TEMP r ≠ Reg.LDP_DLX_NOW := by
  unfold Reg.LDP_DLX_TEMP Reg.LDP_DLX_NOW
  omega

/-! ### Dies and reports -/

@[simp] theorem State.setDieState_clock (die v : Nat) : (s.setDieState die v).clock = s.clock := by
  have hst (t : State) (v : Nat) : (t.setFld (Reg.SLU_DIE_STATE_STATE die) v).clock = t.clock := t.setFld_clock v (SLU_DIE_STATE_ne_clock die)
  have hfur (t : State) (v : Nat) : (t.setFld (Reg.FUR_STATUS_STATE die) v).clock = t.clock := t.setFld_clock v (FUR_STATUS_ne_clock die)
  simp [State.setDieState, hst, hfur]

@[simp] theorem State.writeSpillRate_clock : s.writeSpillRate.clock = s.clock := s.setFld_clock _ (by decide)

@[simp] theorem State.retireDie_clock (die trigger : Nat) : (s.retireDie die trigger).clock = s.clock := by simp [State.retireDie]

@[simp] theorem State.onCq_clock (c : Fin 2) (qid : Nat) (f : Cq → Cq) : (s.onCq c qid f).clock = s.clock := by simp [State.onCq]

@[simp] theorem State.sendMsix_clock (c : Fin 2) (v : Nat) : (s.sendMsix c v).clock = s.clock := (rfl)

@[simp] theorem State.interrupt_clock (c : Fin 2) (v : Nat) : (s.interrupt c v).clock = s.clock := by simp [State.interrupt]

@[simp] theorem State.postCqe_clock (c : Fin 2) (cqid : Nat) (x : HeldCqe) : (s.postCqe c cqid x).clock = s.clock := by
  unfold State.postCqe
  split <;> simp

@[simp] theorem State.logError_clock (sqid cid : Nat) (st : Status) (lba nsid : Nat) : (s.logError sqid cid st lba nsid).clock = s.clock := by
  simp [State.logError]

@[simp] theorem State.reply_clock (a : Adm) (st : Status) (data : List Bytes) : (s.reply a st data).clock = s.clock := by
  unfold State.reply
  split <;> simp

@[simp] theorem State.raise_clock (c : Fin 2) (type info lid : Nat) : (s.raise c type info lid).clock = s.clock := by
  unfold State.raise
  split
  · rfl
  · split <;> simp

@[simp] theorem State.raiseBoth_clock (type info lid : Nat) : (s.raiseBoth type info lid).clock = s.clock := by simp [State.raiseBoth]

@[simp] theorem State.warn_clock (w : Warning) : (s.warn w).clock = s.clock := by
  unfold State.warn
  (repeat' split) <;> simp

/-! ### The silicon's part of the edge -/

@[simp] theorem State.correct_clock (a : Nat) : (s.correct a).clock = s.clock := by
  rw [State.correct, State.onMemory_clock]
  split_ifs <;> exact s.addFld_clock 1 (by decide)

theorem State.setWord_clock {a : Nat} (w : Word) (h : a ≠ Reg.LDP_DLX_NOW) : (s.setWord a w).clock = s.clock := by
  rw [State.clock, State.word_setWord, if_neg h, State.clock]

@[simp] theorem State.flashTurn_clock : s.flashTurn.clock = s.clock := by
  have hmeas (t : State) (d : Nat) (l : List Nat) :
      (t.setFlds [(Reg.FUR_TMEAS_A_T_R_MAX d, l.getD 0 0), (Reg.FUR_TMEAS_A_T_SUSP_P_MAX d, l.getD 1 0),
        (Reg.FUR_TMEAS_A_T_SUSP_E_MAX d, l.getD 2 0), (Reg.FUR_TMEAS_B_T_PROG_MAX d, l.getD 3 0),
        (Reg.FUR_TMEAS_B_T_ERS_MAX d, l.getD 4 0)]).clock = t.clock :=
    t.setFlds_clock (by simp [Reg.FUR_TMEAS_A_T_R_MAX, Reg.FUR_TMEAS_A_T_SUSP_P_MAX, Reg.FUR_TMEAS_A_T_SUSP_E_MAX, Reg.FUR_TMEAS_B_T_PROG_MAX,
      Reg.FUR_TMEAS_B_T_ERS_MAX, FUR_TMEAS_A_ne_clock, FUR_TMEAS_B_ne_clock])
  have htime (t : State) (d : Nat) : (t.setFld (Reg.FUR_TIMEOUT_ROT d) 0).clock = t.clock := t.setFld_clock 0 (FUR_TIMEOUT_ne_clock d)
  have htrain (t : State) (c : Nat) : (t.setFld (Reg.FCE_RETRAIN_FAILED_ROT c) 0).clock = t.clock := t.setFld_clock 0 (FCE_RETRAIN_ne_clock c)
  unfold State.flashTurn
  dsimp only
  rw [State.onFlash_clock, foldl_clock (fun t c => ?_), foldl_clock (fun t d => ?_)]
  · simp only [State.clock_ite, hmeas, htime, ite_self]
  · simp only [State.clock_ite, htrain, ite_self]

@[simp] theorem State.dramTurn_clock : s.dramTurn.clock = s.clock := by
  refine foldl_clock (fun t c => ?_) _ _
  have hue (w : Word) : (t.setWord (Reg.DMC_SLICE_UE c) w).clock = t.clock := t.setWord_clock w (DMC_SLICE_UE_ne_clock c)
  simp only [State.clock_ite]
  rw [State.addFld_clock _ _ (DMC_SCRUB_ne_clock c), foldl_clock (fun r f => ?_)]
  · simp only [State.clock_ite, hue, ite_self]
  · rw [State.clock_ite, State.correct_clock, ite_self]

@[simp] theorem State.hostTurn_clock : s.hostTurn.clock = s.clock := by
  simp (disch := decide) [State.hostTurn, State.setFlds, State.setFld_clock]

/-! ### The firmware's part of the edge -/

@[simp] theorem State.evacuatedTurn_clock : s.evacuatedTurn.clock = s.clock := foldl_clock (fun t d => by simp) _ _

@[simp] theorem State.stampTurn_clock : s.stampTurn.clock = s.clock := by simp [State.stampTurn]

@[simp] theorem State.ledgerTurn_clock : s.ledgerTurn.clock = s.clock := by
  simp (disch := decide) [State.ledgerTurn, State.setFld_clock]

@[simp] theorem State.wearTurn_clock : s.wearTurn.clock = s.clock := by
  unfold State.wearTurn
  dsimp only
  (repeat' split) <;> simp [State.onForme]

@[simp] theorem State.recomputeSpare_clock : s.recomputeSpare.clock = s.clock := (rfl)

@[simp] theorem State.rebuildTurn_clock : s.rebuildTurn.clock = s.clock := (rfl)

@[simp] theorem State.agesTurn_clock : s.agesTurn.clock = s.clock := (rfl)

/-! ### The rider's part of the edge -/

@[simp] theorem State.applyCeil_clock : s.applyCeil.clock = s.clock := by
  simp (disch := decide) [State.applyCeil, State.setFld_clock]

@[simp] theorem State.setMode_clock (m : Mode) : (s.setMode m).clock = s.clock := by
  simp (disch := decide) [State.setMode, State.setFlds, State.setFld_clock]

@[simp] theorem State.startSurge_clock : s.startSurge.clock = s.clock := by
  simp (disch := decide) [State.startSurge, State.setFlds, State.setFld_clock]

@[simp] theorem State.endSurge_clock (m : Mode) : (s.endSurge m).clock = s.clock := by
  simp (disch := decide) [State.endSurge, State.setFlds, State.setFld_clock]

@[simp] theorem State.coolTurn_clock : s.coolTurn.clock = s.clock := by
  simp (disch := decide) [State.coolTurn, State.setFlds, State.setFld_clock]

@[simp] theorem State.thermTurn_clock (tj p : ℚ) : (s.thermTurn tj p).clock = s.clock := by
  simp (disch := decide) [State.thermTurn, State.setFlds, State.setFld_clock]

@[simp] theorem State.surgeTurn_clock (refused : Nat) (hot : Option (Bool × Bool)) : (s.surgeTurn refused hot).clock = s.clock := by
  simp (disch := decide) [State.surgeTurn, State.setFld_clock]

@[simp] theorem State.heatTurn_clock (refused : Nat) : (s.heatTurn refused).clock = s.clock := by
  unfold State.heatTurn
  split <;> simp

@[simp] theorem State.refuseTurn_clock : s.refuseTurn.clock = s.clock := by
  simp (disch := decide) [State.refuseTurn, State.setFlds, State.setFld_clock, List.range_succ]

@[simp] theorem State.tempTurn_clock : s.tempTurn.clock = s.clock := by
  refine foldl_clock (fun t g => ?_) _ _
  split
  · refine t.setFld_clock _ ?_
    split <;> exact LDP_DLX_TEMP_ne_clock _
  · rfl

@[simp] theorem State.tempWarning_clock : s.tempWarning.clock = s.clock := by simp [State.tempWarning]

@[simp] theorem State.publishEditions_clock : s.publishEditions.clock = s.clock := by
  simp (disch := decide) [State.publishEditions, State.setFlds, State.setFld_clock]

@[simp] theorem State.putEdition_clock (payload : Bytes) : (s.putEdition payload).clock = s.clock := by simp [State.putEdition]

@[simp] theorem State.bookEdition_clock : s.bookEdition.clock = s.clock := by
  unfold State.bookEdition
  split <;> simp

@[simp] theorem State.writeRing_clock (l : List LogEntry) : (s.writeRing l).clock = s.clock := (rfl)

@[simp] theorem State.flushLog_clock : s.flushLog.clock = s.clock := by simp [State.flushLog]

@[simp] theorem State.riderTurn_clock : s.riderTurn.clock = s.clock := by
  simp [State.riderTurn, foldl_clock State.warn_clock]

/-! ### The mode and the dies under the silicon's part -/

/-- What the mode is, and what the media hold of each die. -/
def State.modeAndDies (s : State) : Power × List (Nat × Die) := (s.power, s.flash.dies)

/-- A die after a rotation edge: the rotation's longest times head its history. -/
def Die.turned (d : Die) : Die :=
  { d with history := (d.maxima :: d.history).take 16, maxima := [0, 0, 0, 0, 0], suspLast := d.suspRot, suspRot := 0 }

theorem State.setFld_modeAndDies (f : Fld) (v : Nat) : (s.setFld f v).modeAndDies = s.modeAndDies := (rfl)

theorem State.setWord_modeAndDies (a : Nat) (w : Word) : (s.setWord a w).modeAndDies = s.modeAndDies := (rfl)

theorem State.setFlds_modeAndDies (l : List (Fld × Nat)) : (s.setFlds l).modeAndDies = s.modeAndDies := by
  rw [State.modeAndDies, State.setFlds_power, State.setFlds_flash, State.modeAndDies]

theorem State.onCtl_modeAndDies (c : Fin 2) (f : Controller → Controller) : (s.onCtl c f).modeAndDies = s.modeAndDies := (rfl)

theorem State.onHost_modeAndDies (f : Headgate → Headgate) : (s.onHost f).modeAndDies = s.modeAndDies := (rfl)

theorem State.onCollector_modeAndDies (f : Collector → Collector) : (s.onCollector f).modeAndDies = s.modeAndDies := (rfl)

theorem State.correct_modeAndDies (a : Nat) : (s.correct a).modeAndDies = s.modeAndDies := (rfl)

theorem State.modeAndDies_ite (c : Prop) [Decidable c] (s t : State) :
    (if c then s else t).modeAndDies = if c then s.modeAndDies else t.modeAndDies := apply_ite State.modeAndDies c s t

theorem State.onFlash_modeAndDies {t : State} (h : t.modeAndDies = s.modeAndDies) {f : Flash → Flash}
    {g : List (Nat × Die) → List (Nat × Die)} (hf : ∀ x, (f x).dies = g x.dies) :
    (t.onFlash f).modeAndDies = (s.power, g s.flash.dies) := by
  obtain ⟨hp, hd⟩ := Prod.mk.inj h
  rw [← hp, ← hd, ← hf]
  rfl

theorem State.flashTurn_modeAndDies : s.flashTurn.modeAndDies = (s.power, s.flash.dies.map fun d => (d.1, d.2.turned)) := by
  unfold State.flashTurn
  dsimp only
  refine s.onFlash_modeAndDies ?_ (g := List.map fun d => (d.1, d.2.turned)) fun x => rfl
  rw [foldl_keeps State.modeAndDies (fun t c => ?_), foldl_keeps State.modeAndDies (fun t d => ?_)]
  · simp only [State.modeAndDies_ite, State.setFld_modeAndDies, State.setFlds_modeAndDies, ite_self]
  · simp only [State.modeAndDies_ite, State.setFld_modeAndDies, ite_self]

theorem State.dramTurn_modeAndDies : s.dramTurn.modeAndDies = s.modeAndDies := by
  refine foldl_keeps _ (fun t c => ?_) _ _
  simp only [State.modeAndDies_ite]
  rw [State.addFld, State.setFld_modeAndDies, foldl_keeps State.modeAndDies (fun r f => ?_)]
  · simp only [State.modeAndDies_ite, State.setWord_modeAndDies, ite_self]
  · rw [State.modeAndDies_ite, State.correct_modeAndDies, ite_self]

theorem State.hostTurn_modeAndDies : s.hostTurn.modeAndDies = s.modeAndDies := by
  simp only [State.hostTurn, State.onHost_modeAndDies, State.onCtl_modeAndDies, State.setFlds_modeAndDies]

theorem State.siliconTurn_modeAndDies : s.siliconTurn.modeAndDies = (s.power, s.flash.dies.map fun d => (d.1, d.2.turned)) := by
  unfold State.siliconTurn
  extract_lets t
  have ht : t.modeAndDies = s.modeAndDies := by
    rw [State.modeAndDies_ite, State.setFld_modeAndDies, ite_self]
  obtain ⟨hp, hf⟩ := Prod.mk.inj ht
  rw [State.onCollector_modeAndDies, State.hostTurn_modeAndDies, State.dramTurn_modeAndDies, State.flashTurn_modeAndDies, hp, hf]

theorem State.siliconTurn_clock (h : s.nv.formatted = true) :
    s.siliconTurn.clock = (s.setFld Reg.LDP_DLX_NOW_ROT (s.fld Reg.LDP_DLX_NOW_ROT + 1)).clock := by
  simp [State.siliconTurn, h]

end

/-! ### A die number beyond the last -/

/-- A state at a rotation edge with a measured die 179,971, whose learned program time has the clock's address. -/
def strayDie : State :=
  { State.reset.setFld Reg.LDP_DLX_NOW_ROT 4094 with
    turn := 2 ^ 20, power := { mode := .service }, nv := { formatted := true },
    flash := { dies := [(179971, { history := List.replicate 16 [0, 0, 0, 1, 0] })] } }

theorem siliconTurn_strayDie_clock : strayDie.siliconTurn.clock = 4095 := by
  rw [State.siliconTurn_clock _ rfl]
  decide +kernel

theorem learnedFld_strayDie : learnedFld 179971 3 = ⟨Reg.LDP_DLX_NOW, 0, 12⟩ := by decide

theorem guarded_progTime : guarded ⟨Reg.LDP_DLX_NOW, 0, 12⟩ 1 = 3 := by decide

/-- The stray die once the edge has turned its history. -/
theorem siliconTurn_strayDie_dies :
    strayDie.siliconTurn.flash.dies = [(179971, { history := [0, 0, 0, 0, 0] :: List.replicate 15 [0, 0, 0, 1, 0] })] :=
  (Prod.mk.inj strayDie.siliconTurn_modeAndDies).2

/-- The firmware learns the stray die's program time and writes it over the clock. -/
theorem learnTurn_strayDie_clock : strayDie.siliconTurn.learnTurn.clock = 3 := by
  have hd := siliconTurn_strayDie_dies
  have hc := siliconTurn_strayDie_clock
  generalize strayDie.siliconTurn = u at hd hc ⊢
  have hold : u.fld ⟨Reg.LDP_DLX_NOW, 0, 12⟩ = 4095 := by
    rw [State.fld, ← State.clock, hc]
    decide
  have hl : u.learnTurn = (u.holdWord Reg.LDP_DLX_NOW).setFld ⟨Reg.LDP_DLX_NOW, 0, 12⟩ 3 := by
    unfold State.learnTurn
    rw [hd]
    simp [List.range_succ, learnedFld_strayDie, guarded_progTime, hold]
  rw [hl, State.clock, State.word_setFld, wordAfter, if_pos rfl, wordAfter, State.holdWord_word, ← State.clock, hc]
  decide

theorem firmwareTurn_strayDie_clock : strayDie.siliconTurn.firmwareTurn.clock = 3 := by
  obtain ⟨hp, -⟩ := Prod.mk.inj strayDie.siliconTurn_modeAndDies
  rw [State.firmwareTurn, hp, if_neg (by decide)]
  simp only [State.onGalley_clock, State.agesTurn_clock, State.rebuildTurn_clock, State.recomputeSpare_clock, State.wearTurn_clock,
    State.ledgerTurn_clock, State.stampTurn_clock, State.evacuatedTurn_clock, learnTurn_strayDie_clock]

/-- Refutes O58: the learned program time of die 179,971 lies at the Dellux clock's address, so a rotation edge that learns it leaves 3
there and not 4,095. -/
theorem not_spanAndRotationEdgesAct : ¬ Obligations.SpanAndRotationEdgesAct := by
  unfold Obligations.SpanAndRotationEdgesAct
  intro h
  obtain ⟨-, -, -, hrot⟩ := h strayDie
  obtain ⟨t, ht, -, -, -, hnow, -⟩ := hrot (by decide) (by decide) (by decide) (by decide)
  have hedge : exec .rotationEdge strayDie = .next
      (strayDie.siliconTurn.firmwareTurn.riderTurn.onSluice fun x => { x with rotDone := some strayDie.turn }) :=
    congrArg Host.Outcome.next (if_neg (by decide))
  obtain rfl := Host.Outcome.next.inj (ht.symm.trans hedge)
  have hfld := hnow rfl
  rw [State.fld_clock, State.onSluice_clock, State.riderTurn_clock, firmwareTurn_strayDie_clock] at hfld
  exact absurd hfld (by decide +kernel)

end Sys2Proof.Machine
end

section
/-! What the reset of a controller leaves of it, of its commands and of its registers (R52, R53), the NVM Subsystem Reset (R420), and O52. -/

namespace Sys2Proof.Machine

open Sys2Proof.Safety

/-! ### Frames of folds -/

theorem frame_foldl {α : Type} {P : List Part} {f : State → α → State} (h : ∀ s x, Frame P [] s (f s x)) (l : List α) (s : State) :
    Frame P [] s (l.foldl f s) := by
  induction l generalizing s with
  | nil => exact (Frame.refl s).mono (List.nil_subset P)
  | cons x l ih => exact ((h s x).trans (ih (f s x))).mono (List.append_subset.2 ⟨List.Subset.refl P, List.Subset.refl P⟩)

@[simp] theorem State.onCtl_cmds (s : State) (c : Fin 2) (f : Controller → Controller) : (s.onCtl c f).host.cmds = s.host.cmds := (rfl)

/-! ### Commands that end with their controller or queue (R53) -/

/-- Every command left in `t` was a command of `s`, whose completion is discarded in `t` where it was in `s`. -/
def CmdsEnding (s t : State) : Prop := ∀ x ∈ t.host.cmds, ∃ y ∈ s.host.cmds, y.ref = x.ref ∧ (y.discard = true → x.discard = true)

/-- No completion of a command with this reference will be posted. -/
def State.refEnded (s : State) (r : CmdRef) : Prop := ∀ x ∈ s.host.cmds, x.ref = r → x.discard = true

/-- One command ends: it runs on and is discarded where it was accepted, and is gone otherwise. -/
def State.endCmd (s : State) (k : Cmd) : State :=
  if k.phase == .accepted || k.phase == .started then
    (if k.sqe.opcode == 0x01 || k.sqe.opcode == 0x7D then s.cancelWrites k.plan else s).onCmd k.ref fun k => { k with discard := true }
  else s.dropCmd k.ref

theorem State.abandon_eq (s : State) (p : Cmd → Bool) : s.abandon p = (s.host.cmds.filter p).foldl State.endCmd s := (rfl)

section
variable {s t u : State}

theorem CmdsEnding.of_eq (h : t.host.cmds = s.host.cmds) : CmdsEnding s t := fun x hx => ⟨x, h ▸ hx, rfl, id⟩

theorem CmdsEnding.trans (h : CmdsEnding s t) (k : CmdsEnding t u) : CmdsEnding s u := fun x hx => by
  obtain ⟨y, hy, hyx, dyx⟩ := k x hx
  obtain ⟨z, hz, hzy, dzy⟩ := h y hy
  exact ⟨z, hz, hzy.trans hyx, dyx ∘ dzy⟩

theorem CmdsEnding.refEnded (h : CmdsEnding s t) {r : CmdRef} (hr : s.refEnded r) : t.refEnded r := fun x hx hxr => by
  obtain ⟨y, hy, hyx, dyx⟩ := h x hx
  exact dyx (hr y hy (hyx.trans hxr))

theorem State.cancelWrites_host (s : State) (id : Nat) : (s.cancelWrites id).host = s.host := (rfl)

theorem cmdsEnding_endCmd (s : State) (k : Cmd) : CmdsEnding s (s.endCmd k) ∧ (s.endCmd k).refEnded k.ref := by
  have onCmd (u : State) (hu : u.host.cmds = s.host.cmds) : CmdsEnding s (u.onCmd k.ref fun k => { k with discard := true }) ∧
      (u.onCmd k.ref fun k => { k with discard := true }).refEnded k.ref := by
    have mem {x : Cmd} (hx : x ∈ (u.onCmd k.ref fun k => { k with discard := true }).host.cmds) :
        (∃ y ∈ s.host.cmds, (y.ref == k.ref) = true ∧ x = { y with discard := true }) ∨ (x ∈ s.host.cmds ∧ (x.ref == k.ref) = false) :=
      hu ▸ mem_updIf hx
    constructor
    · intro x hx
      rcases mem hx with ⟨y, hy, -, rfl⟩ | ⟨hy, -⟩
      · exact ⟨y, hy, rfl, fun _ => rfl⟩
      · exact ⟨x, hy, rfl, id⟩
    · intro x hx hxr
      rcases mem hx with ⟨y, -, -, rfl⟩ | ⟨-, hne⟩
      · rfl
      · simp [hxr] at hne
  unfold State.endCmd
  split_ifs
  · exact onCmd _ (congrArg Headgate.cmds (s.cancelWrites_host k.plan))
  · exact onCmd s rfl
  · exact ⟨fun x hx => ⟨x, (List.mem_filter.1 hx).1, rfl, id⟩, fun x hx hxr => absurd (List.mem_filter.1 hx).2 (by simp [hxr])⟩

theorem cmdsEnding_foldl (l : List Cmd) (s : State) :
    CmdsEnding s (l.foldl State.endCmd s) ∧ ∀ k ∈ l, (l.foldl State.endCmd s).refEnded k.ref := by
  induction l generalizing s with
  | nil => exact ⟨.of_eq rfl, List.forall_mem_nil _⟩
  | cons k l ih =>
    obtain ⟨hk, ek⟩ := cmdsEnding_endCmd s k
    obtain ⟨hl, el⟩ := ih (s.endCmd k)
    exact ⟨hk.trans hl, List.forall_mem_cons.2 ⟨hl.refEnded ek, el⟩⟩

theorem cmdsEnding_abandon (s : State) (p : Cmd → Bool) : CmdsEnding s (s.abandon p) := (cmdsEnding_foldl _ s).1

/-- The commands that a test on their reference picks are gone, or run on to be discarded. -/
theorem State.abandon_discards (s : State) (p : CmdRef → Bool) :
    ∀ x ∈ (s.abandon fun k => p k.ref).host.cmds, p x.ref = true → x.discard = true := fun x hx hp => by
  obtain ⟨y, hy, hyx, -⟩ := cmdsEnding_abandon s _ x hx
  exact (cmdsEnding_foldl _ s).2 y (List.mem_filter.2 ⟨hy, by simpa [hyx] using hp⟩) x hx hyx.symm

theorem frame_cancelWrites (s : State) (id : Nat) : Frame [.sluice, .galley] [] s (s.cancelWrites id) :=
  ((frame_onSluice s _).trans (frame_onGalley _ _)).trans (frame_onGalley _ _) |>.mono (by decide)

theorem frame_endCmd (s : State) (k : Cmd) : Frame [.host, .sluice, .galley] [] s (s.endCmd k) := by
  unfold State.endCmd
  split_ifs
  · exact ((frame_cancelWrites s k.plan).trans (frame_onHost _ _)).mono (by decide)
  · exact (frame_onHost s _).mono (by decide)
  · exact (frame_onHost s _).mono (by decide)

theorem frame_abandon (s : State) (p : Cmd → Bool) : Frame [.host, .sluice, .galley] [] s (s.abandon p) :=
  s.abandon_eq p ▸ frame_foldl frame_endCmd _ s

theorem State.endCmd_ctl (s : State) (k : Cmd) (d : Fin 2) : (s.endCmd k).ctl d = s.ctl d := by
  unfold State.endCmd
  split_ifs <;> rfl

theorem State.abandon_ctl (s : State) (p : Cmd → Bool) (d : Fin 2) : (s.abandon p).ctl d = s.ctl d := by
  rw [s.abandon_eq]
  generalize s.host.cmds.filter p = l
  induction l generalizing s with
  | nil => rfl
  | cons k l ih => rw [List.foldl_cons, ih, s.endCmd_ctl]

end

/-! ### The parts of a controller's reset -/

section
variable (s : State) (c : Fin 2)

/-- The field of HGT.LEVEL that holds a controller's Twiot level. -/
def levelFld (c : Fin 2) : Fld := if c = 0 then Reg.HGT_LEVEL_C0_LEVEL else Reg.HGT_LEVEL_C1_LEVEL

theorem State.level_eq : s.level c = s.fld (levelFld c) := (rfl)

theorem levelFld_apart {c d : Fin 2} (h : d ≠ c) : (levelFld c).apart (levelFld d) = true := by
  revert c d; decide

theorem levelFld_fits : (levelFld c).lsb + (levelFld c).width ≤ 32 := by
  revert c; decide

/-- The Twiot level's register is not one of a link, of the fetch latency or of the self-test. -/
theorem levelFld_addr (d : Fin 2) : (levelFld d).addr < Reg.BST_CTRL ∧ (levelFld d).addr ≠ Reg.HGT_FETCH_LAT c ∧
    (levelFld d).addr ≠ Reg.HGT_LINK_STATUS c := by
  revert c d; decide

theorem State.forgetAdmin_host : (s.forgetAdmin c).host = s.host := (rfl)

theorem State.forgetAdmin_word (a : Nat) : (s.forgetAdmin c).word a = s.word a := (rfl)

theorem State.forgetAdmin_floorMask : (s.forgetAdmin c).power.floorMask = s.power.floorMask := (rfl)

theorem State.forgetAdmin_store : ∃ act buf, (s.forgetAdmin c).store = { s.store with activation := act, buffer := buf } := ⟨_, _, rfl⟩

theorem frame_endRunOf (path : Nat) : ∃ W, Frame [.mgmt, .log] W s (s.endRunOf path) ∧ ∀ p ∈ W, Reg.BST_CTRL ≤ p.1.addr := by
  unfold State.endRunOf
  split
  · split_ifs
    · exact frame_endRun s 2
    · exact ⟨[], (Frame.refl s).mono (by simp), nofun⟩
  · exact ⟨[], (Frame.refl s).mono (by simp), nofun⟩

theorem Frame.floorMask_eq {s t : State} {P : List Part} {W : List (Fld × Nat)} (h : Frame P W s t) (hP : Part.power ∉ P) :
    t.power.floorMask = s.power.floorMask := by
  have : { t.power with doms := s.power.doms } = s.power := h.1 .power hP
  rw [← this]

theorem Frame.memory_eq {s t : State} {P : List Part} {W : List (Fld × Nat)} (h : Frame P W s t) (hm : Part.memory ∉ P) (hb : Part.bytes ∉ P) :
    t.memory = s.memory := by
  have bytes : t.memory.bytes = s.memory.bytes := h.1 .bytes hb
  have rest : { t.memory with bytes := [] } = { s.memory with bytes := [] } := h.1 .memory hm
  calc t.memory = { { t.memory with bytes := [] } with bytes := t.memory.bytes } := rfl
    _ = s.memory := by rw [rest, bytes]

theorem State.loadSaved_cmds : (s.loadSaved c).host.cmds = s.host.cmds := by
  unfold State.loadSaved
  dsimp only
  split <;> rfl

theorem State.loadSaved_floorMask : (s.loadSaved c).power.floorMask = s.power.floorMask := by
  unfold State.loadSaved
  dsimp only
  split <;> rfl

theorem State.loadSaved_store : (s.loadSaved c).store = s.store := by
  unfold State.loadSaved
  dsimp only
  split <;> rfl

theorem State.loadSaved_ctl : ∃ l, (s.loadSaved c).ctl c = { s.ctl c with features := l } := by
  unfold State.loadSaved
  dsimp only
  split <;> exact ⟨_, State.onCtl_ctl_same s c _⟩

/-- A reset after the commands of its controller have ended, and all that was under way has forgotten them. -/
def State.stripped : State := ((s.abandon fun k => k.ref.ctrl == c).forgetAdmin c).endRunOf (c.val + 1)

theorem State.stripped_host : (s.stripped c).host = (s.abandon fun k => k.ref.ctrl == c).host := by
  obtain ⟨W, hf, -⟩ := frame_endRunOf ((s.abandon fun k => k.ref.ctrl == c).forgetAdmin c) (c.val + 1)
  exact hf.1 .host (by decide)

theorem State.stripped_ctl (d : Fin 2) : (s.stripped c).ctl d = s.ctl d := by
  rw [State.ctl, s.stripped_host c]
  exact s.abandon_ctl _ d

theorem State.stripped_floorMask : (s.stripped c).power.floorMask = s.power.floorMask := by
  obtain ⟨W, hf, -⟩ := frame_endRunOf ((s.abandon fun k => k.ref.ctrl == c).forgetAdmin c) (c.val + 1)
  rw [State.stripped, Frame.floorMask_eq hf (by decide), State.forgetAdmin_floorMask, Frame.floorMask_eq (frame_abandon s _) (by decide)]

theorem State.stripped_store : ∃ act buf, (s.stripped c).store = { s.store with activation := act, buffer := buf } := by
  obtain ⟨W, hf, -⟩ := frame_endRunOf ((s.abandon fun k => k.ref.ctrl == c).forgetAdmin c) (c.val + 1)
  have ha : (s.abandon fun k => k.ref.ctrl == c).store = s.store := (frame_abandon s _).1 .store (by decide)
  obtain ⟨act, buf, hs⟩ := (s.abandon fun k => k.ref.ctrl == c).forgetAdmin_store c
  exact ⟨act, buf, (hf.1 .store (by decide)).trans (ha ▸ hs)⟩

theorem State.stripped_word {a : Nat} (h : a < Reg.BST_CTRL) : (s.stripped c).word a = s.word a := by
  obtain ⟨W, hf, hW⟩ := frame_endRunOf ((s.abandon fun k => k.ref.ctrl == c).forgetAdmin c) (c.val + 1)
  have hne : ∀ p ∈ W, p.1.addr ≠ a := fun p hp => (h.trans_le (hW p hp)).ne'
  calc (s.stripped c).word a = ((s.abandon fun k => k.ref.ctrl == c).forgetAdmin c).word a := by
        rw [State.stripped, hf.2, wordAfter_of_addr_ne hne]
    _ = s.word a := (frame_abandon s _).2 a

/-! ### The reset of a controller as a whole -/

variable (cfg : PciConfig → PciConfig) (down : Bool)

/-- A controller with its commands ended, and itself, its level and its fetch latency cleared. -/
def State.blank : State :=
  (((s.stripped c).onCtl c fun x =>
    { phyFailed := x.phyFailed, link := x.link, l0pWidth := x.l0pWidth, exhausted := x.exhausted
      pci := cfg x.pci }).setFld (levelFld c) 0).setWord (Reg.HGT_FETCH_LAT c) 0

/-- Its link goes down where the reset says so. -/
def State.unlinked : State := if down then (s.blank c cfg).linkDown c else s.blank c cfg

theorem State.resetCtrl_eq : s.resetCtrl c cfg down =
    (((s.unlinked c cfg down).onPower fun p => { p with floorMask := p.floorMask.set c (Vector.replicate 8 0) }).loadSaved c).refreshApst :=
  (rfl)

theorem State.blank_ctl : (s.blank c cfg).ctl c = { phyFailed := (s.ctl c).phyFailed, link := (s.ctl c).link, l0pWidth := (s.ctl c).l0pWidth
                                                    exhausted := (s.ctl c).exhausted, pci := cfg (s.ctl c).pci } := by
  rw [State.blank, State.setWord_ctl, State.setFld_ctl, State.onCtl_ctl_same, s.stripped_ctl c c]

theorem State.unlinked_ctl : ∃ link width, (s.unlinked c cfg down).ctl c =
    { phyFailed := (s.ctl c).phyFailed, link := link, l0pWidth := width, exhausted := (s.ctl c).exhausted, pci := cfg (s.ctl c).pci } := by
  unfold State.unlinked
  split_ifs
  · rw [State.linkDown, State.onCtl_ctl_same, State.setFlds_ctl, s.blank_ctl]
    exact ⟨_, _, rfl⟩
  · exact ⟨_, _, s.blank_ctl c cfg⟩

theorem State.unlinked_cmds : (s.unlinked c cfg down).host.cmds = (s.abandon fun k => k.ref.ctrl == c).host.cmds := by
  have h : (s.blank c cfg).host.cmds = (s.abandon fun k => k.ref.ctrl == c).host.cmds := by
    rw [State.blank, State.setWord_host, State.setFld_host, State.onCtl_cmds, s.stripped_host]
  unfold State.unlinked
  split_ifs
  · rw [State.linkDown, State.onCtl_cmds, State.setFlds_host, h]
  · exact h

theorem State.unlinked_power : (s.unlinked c cfg down).power = (s.stripped c).power := by
  unfold State.unlinked
  split_ifs <;> simp [State.linkDown, State.blank]

theorem State.unlinked_store : (s.unlinked c cfg down).store = (s.stripped c).store := by
  unfold State.unlinked
  split_ifs <;> simp [State.linkDown, State.blank]

theorem State.linkDown_word {a : Nat} (h : a ≠ Reg.HGT_LINK_STATUS c) : (s.linkDown c).word a = s.word a := by
  rw [State.linkDown, State.onCtl_word, State.word_setFlds_of_addr_ne]
  simpa [Reg.HGT_LINK_STATUS_RATE, Reg.HGT_LINK_STATUS_WIDTH, Reg.HGT_LINK_STATUS_FLIT, Reg.HGT_LINK_STATUS_L0P_EN] using h.symm

theorem State.unlinked_word {a : Nat} (hb : a < Reg.BST_CTRL) (hl : a ≠ Reg.HGT_FETCH_LAT c) (hd : down = true → a ≠ Reg.HGT_LINK_STATUS c) :
    (s.unlinked c cfg down).word a = (s.setFld (levelFld c) 0).word a := by
  have h : (s.blank c cfg).word a = (s.setFld (levelFld c) 0).word a := by
    rw [State.blank, State.word_setWord, if_neg hl.symm, State.word_setFld, State.word_setFld, State.onCtl_word, s.stripped_word c hb]
  unfold State.unlinked
  split_ifs with down
  · rw [State.linkDown_word _ c (hd down), h]
  · exact h

theorem State.resetCtrl_cmds : (s.resetCtrl c cfg down).host.cmds = (s.abandon fun k => k.ref.ctrl == c).host.cmds := by
  rw [s.resetCtrl_eq, State.refreshApst, State.onPower_host, State.loadSaved_cmds, State.onPower_host, s.unlinked_cmds]

/-- A reset controller keeps its port's failure, its configuration space as the reset says, and its link where that stays up. -/
theorem State.resetCtrl_ctl : ∃ link width l, (s.resetCtrl c cfg down).ctl c =
    { phyFailed := (s.ctl c).phyFailed, link := link, l0pWidth := width, exhausted := (s.ctl c).exhausted, pci := cfg (s.ctl c).pci
      features := l } := by
  obtain ⟨link, width, h⟩ := s.unlinked_ctl c cfg down
  obtain ⟨l, hl⟩ := State.loadSaved_ctl
    ((s.unlinked c cfg down).onPower fun p => { p with floorMask := p.floorMask.set c (Vector.replicate 8 0) }) c
  exact ⟨link, width, l, by rw [s.resetCtrl_eq, State.refreshApst, State.onPower_ctl, hl, State.onPower_ctl, h]⟩

theorem State.resetCtrl_floorMask : (s.resetCtrl c cfg down).power.floorMask = s.power.floorMask.set c (Vector.replicate 8 0) := by
  rw [s.resetCtrl_eq, State.refreshApst, State.onPower_power, State.loadSaved_floorMask, State.onPower_power, s.unlinked_power,
    s.stripped_floorMask]

theorem State.resetCtrl_store : ∃ act buf, (s.resetCtrl c cfg down).store = { s.store with activation := act, buffer := buf } := by
  obtain ⟨act, buf, h⟩ := s.stripped_store c
  exact ⟨act, buf, by rw [s.resetCtrl_eq, State.refreshApst, State.onPower_store, State.loadSaved_store, State.onPower_store, s.unlinked_store, h]⟩

/-- Of the registers below the self-test's, a reset writes the Twiot level, the fetch latency and, where the link goes down, its status. -/
theorem State.resetCtrl_word {a : Nat} (hb : a < Reg.BST_CTRL) (hl : a ≠ Reg.HGT_FETCH_LAT c) (hd : down = true → a ≠ Reg.HGT_LINK_STATUS c) :
    (s.resetCtrl c cfg down).word a = (s.setFld (levelFld c) 0).word a := by
  have saved (u : State) : (u.loadSaved c).word a = u.word a := by
    unfold State.loadSaved
    dsimp only
    split <;> rfl
  rw [s.resetCtrl_eq, State.refreshApst, State.onPower_word, saved, State.onPower_word, s.unlinked_word c cfg down hb hl hd]

theorem State.resetCtrl_level : (s.resetCtrl c cfg down).level c = 0 := by
  obtain ⟨hb, hl, hs⟩ := levelFld_addr c c
  rw [State.level_eq, State.fld, s.resetCtrl_word c cfg down hb hl fun _ => hs, ← State.fld, State.fld_setFld_same _ _ _ (levelFld_fits c),
    Nat.zero_mod]

theorem State.resetCtrl_level_ne {d : Fin 2} (h : d ≠ c) : (s.resetCtrl c cfg down).level d = s.level d := by
  obtain ⟨hb, hl, hs⟩ := levelFld_addr c d
  rw [State.level_eq, State.fld, s.resetCtrl_word c cfg down hb hl fun _ => hs, ← State.fld, State.fld_setFld_apart _ _ _ _ (levelFld_apart h)]
  rfl

/-- A reset that leaves the link up leaves its status as it is. -/
theorem State.resetCtrl_link_status : (s.resetCtrl c cfg false).word (Reg.HGT_LINK_STATUS c) = s.word (Reg.HGT_LINK_STATUS c) := by
  have hl : Reg.HGT_LINK_STATUS c ≠ Reg.HGT_FETCH_LAT c := (fetch_lat_ne_link_status c c).symm
  rw [s.resetCtrl_word c cfg false (link_status_lt_bst c) hl nofun, State.word_setFld, wordAfter,
    if_neg (levelFld_addr c c).2.2, wordAfter]

theorem State.linkDown_width : (s.linkDown c).fld (Reg.HGT_LINK_STATUS_WIDTH c) = 0 := by
  have apart : ∀ p ∈ [(Reg.HGT_LINK_STATUS_FLIT c, 0), (Reg.HGT_LINK_STATUS_L0P_EN c, 0)], p.1.apart (Reg.HGT_LINK_STATUS_WIDTH c) = true := by
    revert c; decide
  rw [State.linkDown, State.onCtl_fld, State.setFlds_cons, State.setFlds_cons, State.fld_setFlds_apart _ apart,
    State.fld_setFld_same _ _ _ (by decide : 3 + 5 ≤ 32), Nat.zero_mod]

theorem State.resetCtrl_width : (s.resetCtrl c cfg true).fld (Reg.HGT_LINK_STATUS_WIDTH c) = 0 := by
  unfold State.resetCtrl State.refreshApst
  simp only [State.onPower_fld, State.loadSaved_fld, if_true, State.linkDown_width]

end

/-! ### A controller that has been reset -/

/-- What a controller's reset leaves of it: it is not enabled, without queues, level, floors and outstanding commands. -/
def State.ctrlGone (t : State) (d : Fin 2) : Prop :=
  (t.ctl d).en = false ∧ (t.ctl d).sqs = [] ∧ (t.ctl d).cqs = [] ∧ (t.ctl d).aers = [] ∧ (t.ctl d).shst = 0 ∧ (t.ctl d).adminSq.size = 0 ∧
    t.level d = 0 ∧ t.power.floorMask[d] = Vector.replicate 8 0 ∧ ∀ k ∈ t.host.cmds, k.ref.ctrl = d → k.discard = true

/-- What a reset keeps of the part: memory, the mode, the turn, the media, and what it keeps without power. -/
def PartKept (s t : State) : Prop := t.nv = s.nv ∧ t.memory = s.memory ∧ t.power.mode = s.power.mode ∧ t.turn = s.turn ∧ t.flash = s.flash

section
variable {s t u : State} {c d : Fin 2}

theorem PartKept.trans (h : PartKept s t) (k : PartKept t u) : PartKept s u := by
  obtain ⟨hn, hm, hp, ht, hf⟩ := h
  obtain ⟨kn, km, kp, kt, kf⟩ := k
  exact ⟨kn.trans hn, km.trans hm, kp.trans hp, kt.trans ht, kf.trans hf⟩

theorem ResetKeeps.partKept (h : ResetKeeps c s t) : PartKept s t :=
  ⟨h.nv, h.memory, h.mode, h.parts .turn (by decide), h.parts .flash (by decide)⟩

theorem ctrlGone_resetCtrl (s : State) (c : Fin 2) (cfg : PciConfig → PciConfig) (down : Bool) : (s.resetCtrl c cfg down).ctrlGone c := by
  obtain ⟨link, width, l, hc⟩ := s.resetCtrl_ctl c cfg down
  rw [State.ctrlGone, hc, s.resetCtrl_level, s.resetCtrl_floorMask, s.resetCtrl_cmds]
  refine ⟨rfl, rfl, rfl, rfl, rfl, rfl, rfl, by simp, fun k hk hd => ?_⟩
  exact s.abandon_discards (fun r => r.ctrl == c) k hk (by simpa using hd)

/-- The reset of the other controller leaves a controller gone that was. -/
theorem State.ctrlGone.resetCtrl_other (h : s.ctrlGone d) (hd : d ≠ c) (cfg : PciConfig → PciConfig) (down : Bool) :
    (s.resetCtrl c cfg down).ctrlGone d := by
  obtain ⟨hen, hsq, hcq, haer, hsh, hadm, hlev, hfl, hk⟩ := h
  have hc : (s.resetCtrl c cfg down).ctl d = s.ctl d := (resetKeeps_resetCtrl s c cfg down).ctl d hd
  have hne : c.val ≠ d.val := fun e => hd (Fin.ext e.symm)
  rw [State.ctrlGone, hc, s.resetCtrl_level_ne c cfg down hd, s.resetCtrl_floorMask, s.resetCtrl_cmds]
  refine ⟨hen, hsq, hcq, haer, hsh, hadm, hlev, by simpa [hne] using hfl, fun k hk' hkd => ?_⟩
  obtain ⟨y, hy, hyk, dy⟩ := cmdsEnding_abandon s _ k hk'
  exact dy (hk y hy (by rw [hyk, hkd]))

theorem State.ctrlGone.congr (h : s.ctrlGone d) (hh : t.host = s.host) (hl : t.level d = s.level d)
    (hf : t.power.floorMask = s.power.floorMask) : t.ctrlGone d := by
  unfold State.ctrlGone State.ctl at *
  rwa [hh, hl, hf]

/-- CSTS.RDY may follow CC.EN later. -/
theorem State.ctrlGone.onCtl (h : s.ctrlGone c) {f : Controller → Controller} (hf : f (s.ctl c) =
    { s.ctl c with rdy := (f (s.ctl c)).rdy, rdyAt := (f (s.ctl c)).rdyAt }) : (s.onCtl c f).ctrlGone c := by
  unfold State.ctrlGone at *
  rw [State.onCtl_ctl_same, hf]
  exact h

end

/-! ### Enable, reset and shutdown of one controller (R52, R53, R480, R532) -/

/-- A controller with CC.EN set and its admin queues as its registers say. -/
def State.enabled (s : State) (c : Fin 2) (aqa asq acq : Nat) : State :=
  s.onCtl c fun x =>
    { x with
      en := true, aqa := aqa, asq := asq, acq := acq, rdyAt := if s.power.mode.carriesData then some (s.turn + 2, true) else none
      adminSq := { qid := 0, size := natBits aqa 0 12 + 1, cqid := 0 }, adminCq := { qid := 0, size := natBits aqa 16 12 + 1 } }

section
variable {s : State} {c : Fin 2} (hr : s.resettable = true)
include hr

theorem controllerEnable_enables (hen : (s.ctl c).en = false) (aqa asq acq : Nat) :
    Does (.controllerEnable c aqa asq acq) s [.host, .nv] [] fun t =>
      t.ctl c = { s.ctl c with
        en := true, aqa := aqa, asq := asq, acq := acq, rdyAt := if s.power.mode.carriesData then some (s.turn + 2, true) else none
        adminSq := { qid := 0, size := natBits aqa 0 12 + 1, cqid := 0 }, adminCq := { qid := 0, size := natBits aqa 16 12 + 1 } } ∧
        (∀ d, d ≠ c → t.ctl d = s.ctl d) ∧ t.host.cmds = s.host.cmds := by
  have run : exec (.controllerEnable c aqa asq acq) s = .next (if s.power.mode.carriesData then
      (s.enabled c aqa asq acq).onNv fun n => { n with clean := false } else s.enabled c aqa asq acq) := by
    show execControllerEnable c aqa asq acq s = _
    rw [execControllerEnable, if_neg (by simp [hen, hr])]
    rfl
  have same : (s.enabled c aqa asq acq).ctl c = _ := State.onCtl_ctl_same s c _
  have other (d : Fin 2) (hd : d ≠ c) : (s.enabled c aqa asq acq).ctl d = s.ctl d := State.onCtl_ctl_ne s _ hd
  by_cases data : s.power.mode.carriesData
  · rw [if_pos data] at run
    exact does_of run ((frame_onCtl s c _).trans (frame_onNv _ _)) ⟨same, other, rfl⟩
  · rw [if_neg data] at run
    exact does_of run ((frame_onCtl s c _).mono (by decide)) ⟨same, other, rfl⟩

omit hr in
theorem controllerEnable_enabled (hen : (s.ctl c).en = true) (aqa asq acq : Nat) : exec (.controllerEnable c aqa asq acq) s = .next s :=
  congrArg Host.Outcome.next (if_pos (by simp [hen]))

theorem controllerReset_resets (hen : (s.ctl c).en = true) : Completes (.controllerReset c) s fun t =>
    t.ctrlGone c ∧ (∀ d, d ≠ c → t.ctl d = s.ctl d) ∧ PartKept s t ∧ t.word (Reg.HGT_LINK_STATUS c) = s.word (Reg.HGT_LINK_STATUS c) ∧
      (t.ctl c).rdy = (s.ctl c).rdy ∧ (t.ctl c).rdyAt = some (s.turn + 2, false) := by
  have keeps := (resetKeeps_resetCtrl s c id false).trans
    (resetKeeps_onCtl _ c fun x => { x with rdy := (s.ctl c).rdy, rdyAt := some (s.turn + 2, false) })
  refine completes_of (congrArg Host.Outcome.next (if_neg (by simp [hen, hr])) : exec (.controllerReset c) s = _)
    ⟨(ctrlGone_resetCtrl s c id false).onCtl rfl, keeps.ctl, keeps.partKept, ?_, by simp, by simp⟩
  exact s.resetCtrl_link_status c id

theorem functionLevelReset_resets : Completes (.functionLevelReset c) s fun t =>
    t.ctrlGone c ∧ (∀ d, d ≠ c → t.ctl d = s.ctl d) ∧ PartKept s t ∧ t.word (Reg.HGT_LINK_STATUS c) = s.word (Reg.HGT_LINK_STATUS c) ∧
      (t.ctl c).rdy = false ∧ (t.ctl c).pci = {} := by
  have keeps := resetKeeps_resetCtrl s c PciConfig.cleared false
  obtain ⟨link, width, l, hc⟩ := s.resetCtrl_ctl c PciConfig.cleared false
  exact completes_of (congrArg Host.Outcome.next (if_pos hr) : exec (.functionLevelReset c) s = _)
    ⟨ctrlGone_resetCtrl s c _ _, keeps.ctl, keeps.partKept, s.resetCtrl_link_status c _, by rw [hc], by rw [hc]; rfl⟩

theorem hotReset_resets : Completes (.hotReset c) s fun t =>
    t.ctrlGone c ∧ (∀ d, d ≠ c → t.ctl d = s.ctl d) ∧ PartKept s t ∧ (t.ctl c).rdy = false ∧
      t.fld (Reg.HGT_LINK_STATUS_RATE c) = 0 ∧ t.fld (Reg.HGT_LINK_STATUS_WIDTH c) = 0 ∧ (t.ctl c).pci = (s.ctl c).pci.hot := by
  have keeps := resetKeeps_resetCtrl s c PciConfig.hot true
  obtain ⟨link, width, l, hc⟩ := s.resetCtrl_ctl c PciConfig.hot true
  exact completes_of (congrArg Host.Outcome.next (if_pos hr) : exec (.hotReset c) s = _)
    ⟨ctrlGone_resetCtrl s c _ _, keeps.ctl, keeps.partKept, by rw [hc], s.resetCtrl_rate c _, s.resetCtrl_width c _, by rw [hc]⟩

theorem shutdownNotification_noData (hen : (s.ctl c).en = true) (hs : (s.ctl c).shst = 0) (hd : s.power.mode.carriesData = false)
    (res : List (Nat × Bool)) : Does (.shutdownNotification c res) s [.host] [] fun t => t.ctl c = { s.ctl c with shst := 2 } := by
  have run : exec (.shutdownNotification c res) s =
      .next ((s.onCtl c fun x => { x with shst := 1 }).onCtl c fun x => { x with shst := 2 }) := by
    show execShutdownNotification c res s = _
    simp [execShutdownNotification, hen, hs, hr, hd]
  exact does_of run (((frame_onCtl s c _).trans (frame_onCtl _ c _)).mono (by decide)) (by simp)

theorem shutdownNotification_begins (hen : (s.ctl c).en = true) (hs : (s.ctl c).shst = 0) (hd : s.power.mode.carriesData = true)
    (hm : s.power.mode ≠ .conserve) (hn : s.mgmt.shutdown = none) (res : List (Nat × Bool)) :
    Does (.shutdownNotification c res) s [.host, .mgmt] [] fun t => t.ctl c = { s.ctl c with shst := 1 } ∧
      t.mgmt = { s.mgmt with shutdown := some { ctrls := [c], results := res, began := s.turn } } ∧ t.host.cmds = s.host.cmds := by
  have run : exec (.shutdownNotification c res) s = .next ((s.onCtl c fun x => { x with shst := 1 }).onMgmt
      fun m => { m with shutdown := some { ctrls := [c], results := res, began := s.turn } }) := by
    show execShutdownNotification c res s = _
    simp [execShutdownNotification, hen, hs, hr, hd, hm, hn, State.onMgmt]
  exact does_of run ((frame_onCtl s c _).trans (frame_onMgmt _ _ ⟨rfl, rfl⟩)) ⟨by simp, rfl, rfl⟩

theorem abruptShutdown_reports (hen : (s.ctl c).en = true) : Does (.abruptShutdown c) s [.host] [] fun t =>
    t.ctl c = { s.ctl c with shst := 2 } ∧ t.mgmt.run = s.mgmt.run :=
  does_of (congrArg Host.Outcome.next (if_neg (by simp [hen, hr])) : exec (.abruptShutdown c) s = _) (frame_onCtl s c _) ⟨by simp, rfl⟩

end

/-! ### The fundamental reset of a port (R52, R519) -/

/-- A port's fundamental reset at one controller. -/
def State.resetLink (s : State) (port c : Fin 2) : State := if s.linkPort c = port then s.resetCtrl c PciConfig.cleared true else s

/-- What the fundamental reset of its port leaves of a controller. -/
def State.linkReset (t : State) (d : Fin 2) : Prop :=
  t.ctrlGone d ∧ (t.ctl d).rdy = false ∧ (t.ctl d).pci = {} ∧ t.fld (Reg.HGT_LINK_STATUS_RATE d) = 0

section
variable (s : State) (port c : Fin 2)

theorem resetKeeps_resetLink : ResetKeeps c s (s.resetLink port c) := by
  unfold State.resetLink
  split_ifs
  · exact resetKeeps_resetCtrl s c _ true
  · exact .refl c s

theorem State.resetLink_other (h : s.linkPort c ≠ port) : s.resetLink port c = s := if_neg h

theorem linkReset_resetLink (h : s.linkPort c = port) : (s.resetLink port c).linkReset c := by
  obtain ⟨link, width, l, hc⟩ := s.resetCtrl_ctl c PciConfig.cleared true
  rw [State.resetLink, if_pos h]
  exact ⟨ctrlGone_resetCtrl s c _ _, by rw [hc], by rw [hc]; rfl, s.resetCtrl_rate c _⟩

theorem fld_of_word {s t : State} {f : Fld} (h : t.word f.addr = s.word f.addr) : t.fld f = s.fld f := by rw [State.fld, h, State.fld]

theorem State.linkReset.resetLink_other {s : State} {c d : Fin 2} (h : s.linkReset d) (hd : d ≠ c) (port : Fin 2) :
    (s.resetLink port c).linkReset d := by
  obtain ⟨hg, hrdy, hpci, hrate⟩ := h
  have keeps := resetKeeps_resetLink s port c
  refine ⟨?_, by rw [keeps.ctl d hd, hrdy], by rw [keeps.ctl d hd, hpci], ?_⟩
  · unfold State.resetLink
    split_ifs
    · exact hg.resetCtrl_other hd _ _
    · exact hg
  · exact (fld_of_word (f := Reg.HGT_LINK_STATUS_RATE d) (keeps.link d hd)).trans hrate

theorem fundamentalReset_resets (hr : s.resettable = true) : Completes (.fundamentalReset port) s fun t =>
    t.pins.perst[port] = false ∧ PartKept s t ∧
      ∀ d, (s.linkPort d = port → t.linkReset d) ∧ (s.linkPort d ≠ port → t.ctl d = s.ctl d) := by
  set u := s.onPins fun p => { p with perst := p.perst.set port false } with hu
  have run : exec (.fundamentalReset port) s = .next ((u.resetLink port 0).resetLink port 1) := by
    have hr' : u.resettable = true := hr
    show execFundamentalReset port s = _
    simp only [execFundamentalReset, ← hu, hr', Bool.not_true, Bool.false_eq_true, if_false]
    rfl
  have port_u (d : Fin 2) : u.linkPort d = s.linkPort d := (rfl)
  have k0 := resetKeeps_resetLink u port 0
  have k1 := resetKeeps_resetLink (u.resetLink port 0) port 1
  refine completes_of run ⟨by rw [k1.pins, k0.pins]; simp [u], k0.partKept.trans k1.partKept, fun d => ?_⟩
  match d with
  | 0 =>
    refine ⟨fun h => (linkReset_resetLink u port 0 h).resetLink_other (by decide) port, fun h => ?_⟩
    rw [k1.ctl 0 (by decide), State.resetLink_other u port 0 h]
    rfl
  | 1 =>
    refine ⟨fun h => linkReset_resetLink _ port 1 ((k0.linkPort 1).trans h), fun h => ?_⟩
    rw [State.resetLink_other _ port 1 (by rwa [k0.linkPort]), k0.ctl 1 (by decide)]
    rfl

end

/-! ### The NVM Subsystem Reset (R52, R420) -/

/-- A pointer record is written in the store alone, and governs (R420). -/
theorem State.writeRecord_eq (s : State) (active next fuel seq : Nat) : ∃ f : Store → Store,
    s.writeRecord active next (fuel + 1) seq = s.onStore f ∧ ∃ q, (f s.store).pointer = some q ∧ q.active = active ∧ q.next = next := by
  induction fuel generalizing s seq with
  | zero =>
    rw [State.writeRecord]
    exact ⟨_, if_neg (by simp), ⟨seq, active, next⟩, rfl, rfl, rfl⟩
  | succ fuel ih =>
    rw [State.writeRecord]
    split_ifs
    · obtain ⟨f, hf, hq⟩ := ih (s.onStore fun t => t.nextPointerPage (Config.freeBytes seq 512)) (seq + 1)
      exact ⟨fun t => f (t.nextPointerPage (Config.freeBytes seq 512)), hf, hq⟩
    · exact ⟨_, rfl, ⟨seq, active, next⟩, rfl, rfl, rfl⟩

/-- Both controllers after an NVM Subsystem Reset, before a pending slot becomes the running image. -/
def State.bothReset (s : State) : State :=
  (((s.resetCtrl 0 PciConfig.hot true).resetCtrl 1 PciConfig.hot true).endRun 2).onMgmt
    fun m => { m with healthChange := setBitNat m.healthChange 4 }

/-- What an NVM Subsystem Reset leaves of the controllers and keeps of the part. -/
def State.subsystemGone (s t : State) : Prop := (∀ d, t.ctrlGone d ∧ t.fld (Reg.HGT_LINK_STATUS_RATE d) = 0) ∧ PartKept s t

section
variable (s : State)

/-- The end of a self-test leaves a controller gone that was, and all that a reset keeps. -/
theorem endRun_keeps (code : Nat) : (s.endRun code).host = s.host ∧ (s.endRun code).store = s.store ∧
    (s.endRun code).power.floorMask = s.power.floorMask ∧ PartKept s (s.endRun code) ∧
    ∀ a < Reg.BST_CTRL, (s.endRun code).word a = s.word a := by
  obtain ⟨W, hf, hW⟩ := frame_endRun s code
  exact ⟨hf.1 .host (by decide), hf.1 .store (by decide), Frame.floorMask_eq hf (by decide),
    ⟨hf.1 .nv (by decide), Frame.memory_eq hf (by decide) (by decide), Frame.mode_eq hf (by decide), hf.1 .turn (by decide), hf.1 .flash (by decide)⟩,
    fun a h => by rw [hf.2, wordAfter_of_addr_ne fun p hp => (h.trans_le (hW p hp)).ne']⟩

theorem State.bothReset_store : ∃ act buf, s.bothReset.store = { s.store with activation := act, buffer := buf } := by
  obtain ⟨-, hs, -⟩ := endRun_keeps ((s.resetCtrl 0 PciConfig.hot true).resetCtrl 1 PciConfig.hot true) 2
  obtain ⟨act0, buf0, h0⟩ := s.resetCtrl_store 0 PciConfig.hot true
  obtain ⟨act, buf, h1⟩ := (s.resetCtrl 0 PciConfig.hot true).resetCtrl_store 1 PciConfig.hot true
  exact ⟨act, buf, by rw [State.bothReset, State.onMgmt_store, hs, h1, h0]⟩

/-- Two controllers whose links are down, when the self-test that ran has ended. -/
theorem subsystemGone_endRun {s u : State} (gone : ∀ d, u.ctrlGone d) (rate : ∀ d : Fin 2, u.fld (Reg.HGT_LINK_STATUS_RATE d) = 0)
    (kept : PartKept s u) (code : Nat) : s.subsystemGone (u.endRun code) := by
  obtain ⟨host, -, floor, part, word⟩ := endRun_keeps u code
  refine ⟨fun d => ⟨(gone d).congr host ?_ floor, ?_⟩, kept.trans part⟩
  · exact fld_of_word (word _ (levelFld_addr 0 d).1)
  · exact (fld_of_word (f := Reg.HGT_LINK_STATUS_RATE d) (word _ (link_status_lt_bst d))).trans (rate d)

theorem State.subsystemGone.onMgmt {s t : State} (h : s.subsystemGone t) (f : Mgmt → Mgmt) : s.subsystemGone (t.onMgmt f) := h

theorem subsystemGone_bothReset : s.subsystemGone s.bothReset := by
  have k0 := resetKeeps_resetCtrl s 0 PciConfig.hot true
  have k1 := resetKeeps_resetCtrl (s.resetCtrl 0 PciConfig.hot true) 1 PciConfig.hot true
  have gone (d : Fin 2) : ((s.resetCtrl 0 PciConfig.hot true).resetCtrl 1 PciConfig.hot true).ctrlGone d := by
    match d with
    | 0 => exact (ctrlGone_resetCtrl s 0 _ _).resetCtrl_other (by decide) _ _
    | 1 => exact ctrlGone_resetCtrl _ 1 _ _
  have rate (d : Fin 2) : ((s.resetCtrl 0 PciConfig.hot true).resetCtrl 1 PciConfig.hot true).fld (Reg.HGT_LINK_STATUS_RATE d) = 0 := by
    match d with
    | 0 => exact (fld_of_word (f := Reg.HGT_LINK_STATUS_RATE 0) (k1.link 0 (by decide))).trans (s.resetCtrl_rate 0 _)
    | 1 => exact State.resetCtrl_rate _ 1 _
  exact (subsystemGone_endRun gone rate (k0.partKept.trans k1.partKept) 2).onMgmt _

/-- Writes to the store and to the identity block leave the controllers gone and the part kept. -/
theorem State.subsystemGone.onStore_setFlds {s t : State} (h : s.subsystemGone t) (f : Store → Store) {l : List (Fld × Nat)}
    (hl : ∀ p ∈ l, p.1.addr < Reg.HGT_LINK_STATUS 0) : s.subsystemGone ((t.onStore f).setFlds l) := by
  obtain ⟨hg, hk⟩ := h
  have word {a : Nat} (ha : Reg.HGT_LINK_STATUS 0 ≤ a) : ((t.onStore f).setFlds l).word a = t.word a :=
    State.word_setFlds_of_addr_ne _ fun p hp => ((hl p hp).trans_le ha).ne
  refine ⟨fun d => ⟨(hg d).1.congr (by simp) (fld_of_word (word ?_)) (by simp), ?_⟩, ?_⟩
  · revert d; decide
  · exact (fld_of_word (f := Reg.HGT_LINK_STATUS_RATE d) (word (by revert d; decide))).trans (hg d).2
  · simpa [PartKept] using hk

variable {s} {c : Fin 2} (hr : s.resettable = true) (hu : s.linkUp c = true) (hd : s.power.mode.carriesData = true)
include hr hu hd

theorem exec_nvmSubsystemReset : exec (.nvmSubsystemReset c nssrValue) s = .next
    (match s.bothReset.store.pointer with
      | some p =>
        if p.next != p.active && s.bothReset.slotValid p.next then
          ((s.bothReset.writePointer p.next p.next).onStore fun t => { t with running := some p.next }).publishRelease
        else s.bothReset
      | none => s.bothReset) := by
  have mode : s.bothReset.power.mode = s.power.mode := (subsystemGone_bothReset s).2.2.2.1
  have hrec : (s.power.mode == .recovery) = false := by
    cases hm : s.power.mode <;> simp_all [Mode.carriesData]
  have data : s.bothReset.power.mode.carriesData = true := by rw [mode, hd]
  refine congrArg Host.Outcome.next ((if_pos ⟨rfl, hu⟩).trans ?_)
  unfold State.subsystemReset
  rw [if_neg (by simp [hr]), if_neg (by simp [hrec])]
  exact if_neg (by simpa [State.bothReset] using data)

theorem nvmSubsystemReset_running (hp : ∀ p, s.store.pointer = some p → p.next = p.active) :
    Completes (.nvmSubsystemReset c nssrValue) s fun t => s.subsystemGone t ∧ t.store.running = s.store.running := by
  obtain ⟨act, buf, hs⟩ := s.bothReset_store
  have run : exec (.nvmSubsystemReset c nssrValue) s = .next s.bothReset := by
    rw [exec_nvmSubsystemReset hr hu hd, hs]
    cases h : s.store.pointer with
    | none => rfl
    | some p => simp [hp p h]
  exact completes_of run ⟨subsystemGone_bothReset s, by rw [hs]⟩

theorem nvmSubsystemReset_activates {p : Pointer} (hp : s.store.pointer = some p) (hne : p.next ≠ p.active) (hv : s.slotValid p.next = true) :
    Completes (.nvmSubsystemReset c nssrValue) s fun t => s.subsystemGone t ∧ t.store.running = some p.next ∧
      ∃ q, t.store.pointer = some q ∧ q.active = p.next ∧ q.next = p.next := by
  obtain ⟨act, buf, hs⟩ := s.bothReset_store
  have valid : s.bothReset.slotValid p.next = true := by
    rw [State.slotValid, State.slotImage, hs]
    exact hv
  obtain ⟨f, hx, q, hq, ha, hn⟩ := s.bothReset.writeRecord_eq p.next p.next 511
    ((match s.bothReset.store.pointer with | some p => p.seq | none => 0) + 1)
  have run : exec (.nvmSubsystemReset c nssrValue) s = .next
      (((s.bothReset.onStore f).onStore fun t => { t with running := some p.next }).publishRelease) := by
    rw [exec_nvmSubsystemReset hr hu hd, ← hx]
    simp only [hs, hp]
    rw [if_pos (by simp [hne, valid])]
    simp only [State.writePointer, hs, hp]
  have gone := subsystemGone_bothReset s
  generalize s.bothReset = u at *
  refine completes_of run ⟨?_, by simp [State.publishRelease], q, by simpa [State.publishRelease] using hq, ha, hn⟩
  exact gone.onStore_setFlds (fun t => { f t with running := some p.next }) (by
    simp [Reg.IDV_RELEASE_LO_CHARS, Reg.IDV_RELEASE_HI_CHARS, Reg.IDV_RELEASE_LO, Reg.IDV_RELEASE_HI, Reg.HGT_LINK_STATUS])

end

theorem nvmSubsystemReset_other (s : State) (c : Fin 2) {v : Word} (h : v ≠ nssrValue) : exec (.nvmSubsystemReset c v) s = .next s :=
  congrArg Host.Outcome.next (if_neg fun e => h e.1)

/-- Settles O52: each command by its lemma above; what a reset leaves is `ctrlGone_resetCtrl`, and what it keeps `resetKeeps_resetCtrl`. -/
theorem controllersEnableResetAndShutDown : Obligations.ControllersEnableResetAndShutDown := by
  unfold Obligations.ControllersEnableResetAndShutDown
  intro s c hr
  refine ⟨controllerEnable_enables hr, fun hen => ⟨controllerEnable_enabled hen, controllerReset_resets hr hen⟩, functionLevelReset_resets hr,
    hotReset_resets hr, fun port => fundamentalReset_resets s port hr, fun v hv => nvmSubsystemReset_other s c hv, fun hu hd hp => ?_,
    fun p hu hd hp hne hv => ?_, fun res hen hs => ⟨fun hd => shutdownNotification_noData hr hen hs hd res,
      fun hd hm hn => shutdownNotification_begins hr hen hs hd hm hn res⟩, abruptShutdown_reports hr⟩
  · obtain ⟨t, ht, ⟨hg, hk⟩, hrun⟩ := nvmSubsystemReset_running hr hu hd hp
    exact ⟨t, ht, hg, hk, hrun⟩
  · obtain ⟨t, ht, ⟨hg, hk⟩, hrun, hq⟩ := nvmSubsystemReset_activates hr hu hd hp hne hv
    exact ⟨t, ht, fun d => (hg d).1, hk, hrun, hq⟩

end Sys2Proof.Machine
end

section
/-! Conserve: its entry and its exit, autonomous transitions, and the change between PS3 and PS4 (R83, R84, R441, R442, R533), and O8. -/

namespace Sys2Proof.Machine

open Sys2Proof.Safety

theorem within_foldl {α : Type} {P : List Part} {R : List Nat} {f : State → α → State} (l : List α)
    (h : ∀ s, ∀ x ∈ l, Within P R s (f s x)) (s : State) : Within P R s (l.foldl f s) := by
  induction l generalizing s with
  | nil => exact within_refl P R s
  | cons x l ih => exact within_trans (h s x List.mem_cons_self) (ih (fun s y hy => h s y (List.mem_cons_of_mem x hy)) (f s x))

/-- The whole power controller, where neither its domains nor the rest of it can have changed. -/
theorem within_power {P : List Part} {R : List Nat} {s t : State} (h : Within P R s t) (hp : Part.power ∉ P) (hd : Part.doms ∉ P)
    (hi : Part.idle ∉ P) : t.power = s.power := by
  have rest : { t.power with doms := s.power.doms } = s.power := h.1 .power hp
  have doms : t.power.doms = s.power.doms := Vector.ext fun i hi24 => by
    have idle := h.1 .idle hi ⟨i, hi24⟩
    have other := h.1 .doms hd ⟨i, hi24⟩
    calc t.power.doms[i] = { noIdle (t.dom ⟨i, hi24⟩) with idleFrom := (t.dom ⟨i, hi24⟩).idleFrom } := rfl
      _ = { noIdle (s.dom ⟨i, hi24⟩) with idleFrom := (s.dom ⟨i, hi24⟩).idleFrom } := by rw [idle, other]
      _ = s.power.doms[i] := rfl
  calc t.power = { { t.power with doms := s.power.doms } with doms := t.power.doms } := rfl
    _ = s.power := by rw [rest, doms]

/-! ### Banks asked into RETENTION, and back (R361, R363) -/

theorem State.flag_eq (s : State) (f : Fld) : s.flag f = (s.fld f == 1) := (rfl)

theorem within_onMemory_keep {P : List Part} {R : List Nat} (s : State) (f : Memory → Memory) (hf : (f s.memory).bytes = s.memory.bytes)
    (h : Part.memory ∈ P) : Within P R s (s.onMemory f) :=
  within_of_frame (frame_onMemory_keep s f hf) (List.cons_subset.2 ⟨h, List.nil_subset _⟩) (List.forall_mem_nil _)

/-- A bank that holds copies only is asked to enter RETENTION. -/
def State.parkBank (s : State) (b : Nat) : State :=
  if s.bankState b = 1 then (s.setFld (Reg.OCM_BANK_REQ b) 2).onMemory fun m => { m with bankWait := kput b 2 m.bankWait } else s

theorem State.parkBanks_eq (s : State) : s.parkBanks = s.copyBanks.foldl State.parkBank s := (rfl)

section
variable (s : State) (b c : Nat)

theorem within_parkBank : Within [.memory] [Reg.OCM_BANK b] s (s.parkBank b) := by
  unfold State.parkBank
  exact within_ite (fun _ => within_trans (within_setFld s _ (by simp [Reg.OCM_BANK_REQ])) (within_onMemory_keep _ _ rfl (by simp)))
    fun _ => within_refl _ _ s

theorem within_parkBanks : Within [.memory] (s.copyBanks.map Reg.OCM_BANK) s s.parkBanks := by
  rw [s.parkBanks_eq]
  exact within_foldl _ (fun u b hb => within_mono (within_parkBank u b) (List.Subset.refl _) (by simpa using ⟨b, hb, rfl⟩)) s

theorem State.parkBanks_none (h : ∀ b ∈ s.copyBanks, s.bankState b ≠ 1) : s.parkBanks = s := by
  rw [s.parkBanks_eq]
  generalize s.copyBanks = l at h
  induction l with
  | nil => rfl
  | cons b l ih =>
    obtain ⟨hb, hl⟩ := List.forall_mem_cons.1 h
    rw [List.foldl_cons, State.parkBank, if_neg hb, ih hl]

theorem State.parkBank_state : (s.parkBank c).fld (Reg.OCM_BANK_STATE b) = s.fld (Reg.OCM_BANK_STATE b) := by
  have apart : (Reg.OCM_BANK_REQ c).apart (Reg.OCM_BANK_STATE b) = true := by simp [Fld.apart, Reg.OCM_BANK_REQ, Reg.OCM_BANK_STATE]
  unfold State.parkBank
  split_ifs
  · rw [State.onMemory_fld, State.fld_setFld_apart _ _ _ _ apart]
  · rfl

/-- A bank has a request to enter RETENTION that waits. -/
def State.parked (s : State) (b : Nat) : Prop := s.fld (Reg.OCM_BANK_REQ b) = 2 ∧ klook b s.memory.bankWait = some 2

theorem State.parkBank_parked (h : s.bankState b = 1) : (s.parkBank b).parked b := by
  rw [State.parkBank, if_pos h]
  exact ⟨State.fld_setFld_same s _ _ (show 2 + 2 ≤ 32 by decide), klook_kput_self _ _ _⟩

theorem State.parked.parkBank {s : State} {b : Nat} (h : s.parked b) (c : Nat) : (s.parkBank c).parked b := by
  obtain ⟨hreq, hwait⟩ := h
  by_cases e : c = b
  · subst e
    by_cases hc : s.bankState c = 1
    · exact s.parkBank_parked c hc
    · rw [State.parkBank, if_neg hc]
      exact ⟨hreq, hwait⟩
  · have apart : (Reg.OCM_BANK_REQ c).apart (Reg.OCM_BANK_REQ b) = true := by simp [Fld.apart, Reg.OCM_BANK_REQ, Reg.OCM_BANK, e]
    unfold State.parkBank
    split_ifs
    · exact ⟨by rw [State.onMemory_fld, State.fld_setFld_apart _ _ _ _ apart, hreq],
        (klook_kput_ne 2 s.memory.bankWait (Ne.symm e)).trans hwait⟩
    · exact ⟨hreq, hwait⟩

theorem State.parked.foldl {s : State} {b : Nat} (h : s.parked b) (l : List Nat) : (l.foldl State.parkBank s).parked b := by
  induction l generalizing s with
  | nil => exact h
  | cons c l ih => exact ih (h.parkBank c)

theorem State.foldl_parked {l : List Nat} {s : State} {b : Nat} (hb : b ∈ l) (h : s.bankState b = 1) : (l.foldl State.parkBank s).parked b := by
  induction l generalizing s with
  | nil => exact absurd hb List.not_mem_nil
  | cons c l ih =>
    rcases List.mem_cons.1 hb with rfl | hb
    · exact (s.parkBank_parked b h).foldl l
    · exact ih hb ((s.parkBank_state b c).trans h)

theorem State.parkBanks_parked {s : State} {b : Nat} (hb : b ∈ s.copyBanks) (h : s.bankState b = 1) : s.parkBanks.parked b :=
  State.foldl_parked hb h

theorem within_startBankWake : Within [.memory] [Reg.OCM_BANK b] s (s.startBankWake b) := by
  unfold State.startBankWake State.startSweep
  exact within_ite (fun _ => within_refl _ _ s)
    fun _ => within_trans (within_setFld s _ (by simp [Reg.OCM_BANK_SWEEP])) (within_onMemory_keep _ _ rfl (by simp))

theorem within_unparkBanks (banks : List Nat) : Within [.memory] (banks.map Reg.OCM_BANK) s (s.unparkBanks banks) := by
  unfold State.unparkBanks
  refine within_foldl _ (fun u b hb => within_mono (R := [Reg.OCM_BANK b]) ?_ (List.Subset.refl _) (by simpa using ⟨b, hb, rfl⟩)) s
  refine within_ite (fun _ => within_refl _ _ u) fun _ => ?_
  have asked := within_trans (within_setFld (P := [.memory]) (R := [Reg.OCM_BANK b]) u (f := Reg.OCM_BANK_REQ b) 1 (by simp [Reg.OCM_BANK_REQ]))
    (within_onMemory_keep _ (fun m => { m with bankWait := kdel b m.bankWait }) rfl (by simp))
  exact within_ite (fun _ => within_trans asked (within_startBankWake _ b)) fun _ => asked

/-- A bank's register is not one of the power controller's. -/
theorem bank_not_mem {banks : List Nat} {a : Nat} (h : a < Reg.OCM_BANK 0) : a ∉ banks.map Reg.OCM_BANK := by
  intro m
  obtain ⟨b, -, rfl⟩ := List.mem_map.1 m
  simp [Reg.OCM_BANK] at h

/-! ### Entry and exit (R83, R84, R441, R442) -/

theorem State.setMode_mode (m : Mode) : (s.setMode m).power.mode = m ∧ (s.setMode m).power.prev = s.power.mode := by
  unfold State.setMode
  dsimp only
  split_ifs <;> simp

/-- The change into a mode other than Sealed. -/
theorem State.setMode_eq {m : Mode} (h : m ≠ .sealed) : s.setMode m =
    ((s.onPower fun p => { p with mode := m, prev := s.power.mode, wholeService := p.wholeService && m == .service }).setFlds
      [(Reg.PMC_EVENT_MODE_CHANGE, 1), (Reg.SLU_STATUS_SURGE, if m = .surge then 1 else 0),
        (Reg.SLU_STATUS_CONSERVE, if m = .conserve then 1 else 0)]).log 0x0101 0 0x3FF (m.code + s.power.mode.code * 256) := by
  simp [State.setMode, h]

theorem conserveEntryEnd_ends {e : ConserveEntry} (he : s.power.entry = some e) (hreq : e.req = none) (hm : s.power.mode = .service)
    (hold : s.oldPlans e.began = false) (hoff : s.conserveOff = true) :
    Does .conserveEntryEnd s [.power, .log]
      [(Reg.PMC_PS_ENTERING, 0), (Reg.PMC_EVENT_MODE_CHANGE, 1), (Reg.SLU_STATUS_SURGE, 0), (Reg.SLU_STATUS_CONSERVE, 1),
        (Reg.PMC_PS_PS, e.target)] fun t =>
      t.power.mode = .conserve ∧ t.power.prev = .service ∧ t.power.entry = none ∧
        t.power.entryLog.head? = some ⟨e.began, e.target, 1, e.holder.1, e.holder.2, s.turn - e.began⟩ ∧
        logged s t 0x0101 0 0x3FF (4 + 2 * 256) := by
  have run : exec .conserveEntryEnd s = .next (((s.endEntry 1).setMode .conserve).setFld Reg.PMC_PS_PS e.target) := by
    show execConserveEntryEnd s = _
    simp [execConserveEntryEnd, he, hm, hold, hoff, hreq, State.replyNext]
  have ended : s.endEntry 1 = (s.onPower fun p =>
      { p with entry := none
               entryLog := (⟨e.began, e.target, 1, e.holder.1, e.holder.2, s.turn - e.began⟩ :: p.entryLog).take 32 }).setFld
        Reg.PMC_PS_ENTERING 0 := by
    simp [State.endEntry, he]
  rw [State.setMode_eq _ (by decide), ended] at run
  refine does_of run (((((frame_onPower _ _ rfl).trans (frame_setFld _ _ _)).trans (frame_onPower _ _ rfl)).trans
    (frame_setFlds _ _)).trans (frame_log _ _ _ _ _) |>.trans (frame_setFld _ _ _) |>.mono (by decide)) ?_
  refine ⟨by simp, by simp [hm], by simp, by simp, ?_⟩
  simp only [State.setFld_power, State.onPower_power, hm]
  exact logged_log_of (by simp) (by simp) (by simp) (by simp)

/-- PMC.PS says that the exit is over, and names the operational state. -/
def State.exited (s : State) : State :=
  ((s.onPower fun p => { p with exiting := none }).setFld Reg.PMC_PS_EXITING 0).setFld Reg.PMC_PS_PS s.power.operPs

theorem State.exited_ps (h : s.power.operPs < 3) : s.exited.fld Reg.PMC_PS_PS = s.power.operPs ∧ s.exited.fld Reg.PMC_PS_EXITING = 0 := by
  rw [State.exited, State.fld_setFld_same _ _ _ (by decide), State.fld_setFld_apart _ _ _ _ (by decide), State.fld_setFld_same _ _ _ (by decide)]
  exact ⟨Nat.mod_eq_of_lt (by simp [Reg.PMC_PS_PS]; omega), rfl⟩

/-- A mode change and its ceiling leave the fields of PMC.PS. -/
theorem State.applyCeil_setMode_fld {m : Mode} (h : m ≠ .sealed) {f : Fld} (hf : f.addr = Reg.PMC_PS) :
    (s.setMode m).applyCeil.fld f = s.fld f := by
  have ne {g : Fld} (h : g.addr ≠ Reg.PMC_PS) : g.apart f = true := by simp [Fld.apart, hf, h]
  have writes : ∀ p ∈ [(Reg.PMC_EVENT_MODE_CHANGE, 1), (Reg.SLU_STATUS_SURGE, if m = .surge then 1 else 0),
      (Reg.SLU_STATUS_CONSERVE, if m = .conserve then 1 else 0)], p.1.apart f = true := by
    simp only [List.forall_mem_cons]
    exact ⟨ne (by decide), ne (by decide), ne (by decide), List.forall_mem_nil _⟩
  rw [State.applyCeil, State.onSluice_fld, State.fld_setFld_apart _ _ _ _ (ne (by decide)), State.holdWord_fld, s.setMode_eq h,
    State.log_fld, State.fld_setFlds_apart _ writes, State.onPower_fld]

theorem State.applyCeil_parts : s.applyCeil.power = s.power ∧ s.applyCeil.memory = s.memory ∧ s.applyCeil.host = s.host ∧
    s.applyCeil.galley = s.galley := by
  simp [State.applyCeil]

theorem conserveExitComplete_ends {x : ConserveExit} (hx : s.power.exiting = some x) (hreq : x.req = none) (hm : s.power.mode = .conserve)
    (hon : s.conserveOn = true) (hseal : s.fld Reg.PMC_MODE_REQ_SEAL = 0) (hps : s.power.operPs < 3) :
    Completes .conserveExitComplete s fun t =>
      t.power.mode = .service ∧ t.power.prev = .conserve ∧ t.power.exiting = none ∧ t.fld Reg.PMC_PS_PS = s.power.operPs ∧
        t.fld Reg.PMC_PS_EXITING = 0 ∧ t.power.doms = s.power.doms ∧ t.memory.bytes = s.memory.bytes ∧ t.host = s.host ∧ t.galley = s.galley := by
  have run : exec .conserveExitComplete s = .next ((s.exited.unparkBanks ((List.range 24).map (· + 0x40))).setMode
      (if (s.exited.unparkBanks ((List.range 24).map (· + 0x40))).flag Reg.PMC_MODE_REQ_SEAL then .sealed else .service)).applyCeil := by
    show execConserveExitComplete s = _
    simp only [execConserveExitComplete, hx, hm, hon, hreq, State.replyNext]
    rfl
  have back := within_unparkBanks s.exited ((List.range 24).map (· + 0x40))
  obtain ⟨ps, exiting⟩ := s.exited_ps hps
  have parts : s.exited.power = { s.power with exiting := none } ∧ s.exited.memory = s.memory ∧ s.exited.host = s.host ∧
      s.exited.galley = s.galley := by
    simp [State.exited]
  have unsealed : s.exited.fld Reg.PMC_MODE_REQ_SEAL = 0 := by
    rw [State.exited, State.fld_setFld_apart _ _ _ _ (by decide), State.fld_setFld_apart _ _ _ _ (by decide), State.onPower_fld, hseal]
  obtain ⟨power, memory, host, galley⟩ := parts
  generalize s.exited.unparkBanks ((List.range 24).map (· + 0x40)) = u at *
  have upower : u.power = s.exited.power := within_power back (by decide) (by decide) (by decide)
  have noSeal : u.flag Reg.PMC_MODE_REQ_SEAL = false := by
    rw [State.flag_eq, within_fld back (bank_not_mem (by decide)), unsealed]
    rfl
  rw [noSeal, if_neg (by decide)] at run
  obtain ⟨cpower, cmemory, chost, cgalley⟩ := (u.setMode .service).applyCeil_parts
  obtain ⟨mode, prev⟩ := u.setMode_mode .service
  refine completes_of run ⟨by rw [cpower, mode], by rw [cpower, prev, upower, power, hm], ?_, ?_, ?_, ?_, ?_, ?_, ?_⟩
  · rw [cpower, State.setMode_eq _ (by decide)]
    simp [upower, power]
  · rw [State.applyCeil_setMode_fld _ (by decide) rfl, within_fld back (bank_not_mem (by decide)), ps]
  · rw [State.applyCeil_setMode_fld _ (by decide) rfl, within_fld back (bank_not_mem (by decide)), exiting]
  · rw [cpower, State.setMode_eq _ (by decide)]
    simp [upower, power]
  · rw [cmemory, State.setMode_eq _ (by decide)]
    exact (back.1 .bytes (by decide)).trans (congrArg Memory.bytes memory)
  · rw [chost, State.setMode_eq _ (by decide)]
    exact (back.1 .host (by decide)).trans host
  · rw [cgalley, State.setMode_eq _ (by decide)]
    exact (back.1 .galley (by decide)).trans galley

/-! ### Autonomous transitions, and the change between PS3 and PS4 (R83, R533) -/

/-- An entry without a request, before the banks that PS4 keeps are asked. -/
def State.entering (s : State) (target : Nat) : State :=
  (s.onPower fun p => { p with entry := some { began := s.turn, target := target, req := none } }).setFld Reg.PMC_PS_ENTERING 1

theorem State.entering_keeps (target : Nat) : (s.entering target).copyBanks = s.copyBanks ∧ ∀ b, (s.entering target).bankState b = s.bankState b := by
  have keep {f : Fld} (h : Reg.PMC_PS_ENTERING.apart f = true) : (s.entering target).fld f = s.fld f := by
    rw [State.entering, State.fld_setFld_apart _ _ _ _ h, State.onPower_fld]
  refine ⟨?_, fun b => keep ?_⟩
  · unfold State.copyBanks
    simp only [keep (show Reg.PMC_PS_ENTERING.apart Reg.FRM_ACC_BANK_FIRST = true by decide),
      keep (show Reg.PMC_PS_ENTERING.apart Reg.LDP_DLX_TABLE_BANK = true by decide),
      keep (show Reg.PMC_PS_ENTERING.apart Reg.DMC_MAP_GRAN_GRAN_BANK = true by decide),
      keep (show Reg.PMC_PS_ENTERING.apart Reg.DMC_MAP_GRAN_NS_BANK = true by decide),
      keep (show Reg.PMC_PS_ENTERING.apart Reg.DMC_MUP_RING_BANK = true by decide),
      keep (show Reg.PMC_PS_ENTERING.apart Reg.LDP_MR_RING_BANK = true by decide),
      keep (show Reg.PMC_PS_ENTERING.apart Reg.FRM_ACC_BANKS = true by decide)]
  · have : Reg.PMC_PS_ENTERING.addr ≠ (Reg.OCM_BANK_STATE b).addr := by
      simp only [Reg.PMC_PS_ENTERING, Reg.PMC_PS, Reg.OCM_BANK_STATE, Reg.OCM_BANK]; omega
    simp [Fld.apart, this]

theorem State.entering_begins (target : Nat) : (s.entering target).power.mode = s.power.mode ∧
    ∃ e, (s.entering target).power.entry = some e ∧ e.began = s.turn ∧ e.target = target ∧ e.req = none :=
  ⟨rfl, _, rfl, rfl, rfl, rfl⟩

theorem exec_apstTransition {ps : Nat} (hon : s.power.apstOn = true) (hseal : s.fld Reg.SLU_STATUS_SEALED = 0)
    (hm : s.power.mode = .service ∨ s.power.mode = .surge) (he : s.power.entry = none) (hps : ps = 3 ∨ ps = 4) :
    exec (.apstTransition ps) s = .next (if ps = 4 then (s.entering ps).parkBanks else s.entering ps) := by
  have mode : (s.power.mode == .conserve) = false ∧ (s.power.mode == .service || s.power.mode == .surge) = true := by
    rcases hm with h | h <;> simp [h]
  have range : decide (ps < 3) = false ∧ decide (4 < ps) = false := by
    rcases hps with rfl | rfl <;> simp
  show execApstTransition ps s = _
  simp only [execApstTransition, hon, State.flag_eq, hseal, mode, range, he]
  rfl

theorem apstTransition_begins {ps : Nat} (hon : s.power.apstOn = true) (hseal : s.fld Reg.SLU_STATUS_SEALED = 0)
    (hm : s.power.mode = .service ∨ s.power.mode = .surge) (he : s.power.entry = none)
    (hps : ps = 3 ∨ ps = 4 ∧ (∀ b ∈ s.copyBanks, s.bankState b ≠ 1)) :
    Does (.apstTransition ps) s [.power] [(Reg.PMC_PS_ENTERING, 1)] fun t =>
      t.power.mode = s.power.mode ∧ ∃ e, t.power.entry = some e ∧ e.began = s.turn ∧ e.target = ps ∧ e.req = none := by
  obtain ⟨banks, states⟩ := s.entering_keeps ps
  have run : exec (.apstTransition ps) s = .next (s.entering ps) := by
    rw [exec_apstTransition s hon hseal hm he (hps.imp_right And.left)]
    rcases hps with rfl | ⟨rfl, off⟩
    · rfl
    · rw [if_pos rfl, State.parkBanks_none]
      simpa only [banks, states] using off
  exact does_of run ((frame_onPower _ _ rfl).trans (frame_setFld _ _ _)) (s.entering_begins ps)

theorem apstTransition_parks (hon : s.power.apstOn = true) (hseal : s.fld Reg.SLU_STATUS_SEALED = 0)
    (hm : s.power.mode = .service ∨ s.power.mode = .surge) (he : s.power.entry = none) :
    Completes (.apstTransition 4) s fun t =>
      t.power.mode = s.power.mode ∧ (∃ e, t.power.entry = some e ∧ e.began = s.turn ∧ e.target = 4 ∧ e.req = none) ∧
        t.fld Reg.PMC_PS_ENTERING = 1 ∧
        ∀ b ∈ s.copyBanks, s.bankState b = 1 → t.fld (Reg.OCM_BANK_REQ b) = 2 ∧ klook b t.memory.bankWait = some 2 := by
  obtain ⟨banks, states⟩ := s.entering_keeps 4
  have run := exec_apstTransition s hon hseal hm he (.inr rfl)
  rw [if_pos rfl] at run
  have parks := within_parkBanks (s.entering 4)
  have power : (s.entering 4).parkBanks.power = (s.entering 4).power := within_power parks (by decide) (by decide) (by decide)
  refine completes_of run ⟨by rw [power]; rfl, by rw [power]; exact (s.entering_begins 4).2, ?_, fun b hb on => ?_⟩
  · rw [within_fld parks (bank_not_mem (by decide)), State.entering, State.fld_setFld_same _ _ _ (by decide)]
    rfl
  · exact State.parkBanks_parked (by rwa [banks]) ((states b).trans on)

/-- A DRAM half back in self-refresh goes off, unless a client holds it. -/
def State.dramBack (s : State) (n : Fin 24) : State := if (s.dom n).state == .on && (s.dom n).votes.isEmpty then s.domainOff n else s

theorem exec_ps3Ps4ChangeApplied {g : Nat} (hc : s.power.psChange = some (g, none)) (hm : s.power.mode = .conserve)
    (h11 : (s.dom 11).state ≠ .waking) (h12 : (s.dom 12).state ≠ .waking)
    (hb : g = 4 → ∀ b ∈ s.copyBanks, s.fld (Reg.OCM_BANK_REQ b) = 2 → s.bankState b = 2) :
    exec .ps3Ps4ChangeApplied s = .next (((if g = 3 then (s.dramBack 11).dramBack 12 else s).onPower fun p =>
      { p with psChange := none }).setFld Reg.PMC_PS_PS g) := by
  have ready : (s.power.mode != .conserve || (s.dom 11).state == .waking || (s.dom 12).state == .waking ||
      (g == 4 && s.copyBanks.any fun b => s.fld (Reg.OCM_BANK_REQ b) == 2 && s.fld (Reg.OCM_BANK_STATE b) != 2)) = false := by
    simpa [hm, h11, h12, State.bankState] using hb
  show execPs3Ps4ChangeApplied s = _
  rw [execPs3Ps4ChangeApplied, hc]
  exact congrArg Host.Outcome.next (if_neg (by rw [ready]; decide))

theorem ps3Ps4ChangeApplied_four (hc : s.power.psChange = some (4, none)) (hm : s.power.mode = .conserve) (h11 : (s.dom 11).state ≠ .waking)
    (h12 : (s.dom 12).state ≠ .waking) (hb : ∀ b ∈ s.copyBanks, s.fld (Reg.OCM_BANK_REQ b) = 2 → s.bankState b = 2) :
    Does .ps3Ps4ChangeApplied s [.power] [(Reg.PMC_PS_PS, 4)] fun t => t.power.psChange = none ∧ t.power.mode = .conserve :=
  does_of (exec_ps3Ps4ChangeApplied s hc hm h11 h12 fun _ => hb) ((frame_onPower _ _ rfl).trans (frame_setFld _ _ _)) ⟨rfl, hm⟩

/-- A DRAM half holds no bank and is no flash group: it goes off and nothing else happens. -/
theorem State.dramBack_off {n : Fin 24} (h : n = 11 ∨ n = 12) (on : (s.dom n).state = .on) (votes : (s.dom n).votes = []) :
    s.dramBack n = s.onDom n fun d => { d with state := .off } := by
  have banks : domainBanks n = [] := by rcases h with rfl | rfl <;> decide
  have group : (13 ≤ n.val && decide (n.val ≤ 20)) = false := by rcases h with rfl | rfl <;> decide
  have cluster : (6 ≤ n.val && decide (n.val ≤ 8)) = false := by rcases h with rfl | rfl <;> decide
  rw [State.dramBack, if_pos (by simp [on, votes]), State.domainOff, banks, group, State.parkTcms, cluster]
  rfl

theorem ps3Ps4ChangeApplied_three (hc : s.power.psChange = some (3, none)) (hm : s.power.mode = .conserve) (h11 : (s.dom 11).state = .on)
    (h12 : (s.dom 12).state = .on) (v11 : (s.dom 11).votes = []) (v12 : (s.dom 12).votes = []) :
    Does .ps3Ps4ChangeApplied s [.power, .doms] [(Reg.PMC_PS_PS, 3)] fun t =>
      t.power.psChange = none ∧ (t.dom 11).state = .off ∧ (t.dom 12).state = .off := by
  have dom12 : (s.onDom 11 fun d => { d with state := .off }).dom 12 = s.dom 12 := State.onDom_dom_ne _ _ (by decide)
  have run := exec_ps3Ps4ChangeApplied s hc hm (by simp [h11]) (by simp [h12]) (absurd · (by decide))
  rw [if_pos rfl, s.dramBack_off (.inl rfl) h11 v11, State.dramBack_off _ (.inr rfl) (by rw [dom12, h12]) (by rw [dom12, v12])] at run
  have dom11 : (((s.onDom 11 fun d => { d with state := .off }).onDom 12 fun d => { d with state := .off }).dom 11).state = .off := by
    rw [State.onDom_dom_ne _ _ (by decide), State.onDom_dom_same]
  have off12 : (((s.onDom 11 fun d => { d with state := .off }).onDom 12 fun d => { d with state := .off }).dom 12).state = .off := by
    rw [State.onDom_dom_same]
  have keeps := ((frame_onDom_keep s 11 (fun d => { d with state := .off }) fun _ => rfl).trans
    (frame_onDom_keep _ 12 (fun d => { d with state := .off }) fun _ => rfl)).mono (Q := [.doms]) (by decide)
  generalize (s.onDom 11 fun d => { d with state := .off }).onDom 12 (fun d => { d with state := .off }) = u at *
  exact does_of run (((keeps.trans (frame_onPower _ _ rfl)).trans (frame_setFld _ _ _)).mono (by decide)) ⟨rfl, dom11, off12⟩

end

/-- Settles O8: each command by its lemmas above. -/
theorem conserveEntersChangesAndExits : Obligations.ConserveEntersChangesAndExits := by
  unfold Obligations.ConserveEntersChangesAndExits
  intro s
  refine ⟨fun e => conserveEntryEnd_ends s, fun x => conserveExitComplete_ends s, fun ps hon hseal hm he => ⟨apstTransition_begins s hon hseal hm he, ?_⟩,
    ps3Ps4ChangeApplied_four s, ps3Ps4ChangeApplied_three s⟩
  rintro rfl
  exact apstTransition_parks s hon hseal hm he

end Sys2Proof.Machine
end

section
/-! The headgate's queues read after a change of one of them, and what an answer on a management path changes (R61, R62). -/

namespace Sys2Proof.Machine

open Sys2Proof.Safety

/-! ### Searching a list in which some elements have been replaced -/

theorem find?_updIf_same {α : Type} {p : α → Bool} {f : α → α} (h : ∀ x, p x = true → p (f x) = true) (l : List α) :
    (updIf p f l).find? p = (l.find? p).map f := by
  induction l with
  | nil => rfl
  | cons x l ih =>
    by_cases hx : p x = true
    · simp [updIf, hx, h x hx]
    · simp [updIf, hx, ih]

theorem find?_updIf_other {α : Type} {p q : α → Bool} {f : α → α} (h : ∀ x, p x = true → q x = false ∧ q (f x) = false) (l : List α) :
    (updIf p f l).find? q = l.find? q := by
  induction l with
  | nil => rfl
  | cons x l ih =>
    by_cases hx : p x = true
    · obtain ⟨hq, hqf⟩ := h x hx
      simp [updIf, hx, hq, hqf, ih]
    · simp [updIf, hx, List.find?_cons, ih]

/-! ### One queue changed -/

section
variable (s : State) (c d : Fin 2) (n m : Nat)

theorem State.sq_zero : s.sq c 0 = some (s.ctl c).adminSq := if_pos rfl

theorem State.cq_zero : s.cq c 0 = some (s.ctl c).adminCq := if_pos rfl

theorem State.sq_pos (h : n ≠ 0) : s.sq c n = (s.ctl c).sqs.find? fun q => q.qid == n := if_neg h

theorem State.cq_pos (h : n ≠ 0) : s.cq c n = (s.ctl c).cqs.find? fun q => q.qid == n := if_neg h

theorem State.sq_qid {q : Sq} (h : n ≠ 0) (hq : s.sq c n = some q) : q.qid = n := by
  rw [s.sq_pos c n h] at hq
  simpa using List.find?_some hq

theorem State.cq_qid {q : Cq} (h : n ≠ 0) (hq : s.cq c n = some q) : q.qid = n := by
  rw [s.cq_pos c n h] at hq
  simpa using List.find?_some hq

theorem State.sq_congr {s t : State} {d : Fin 2} (ha : (t.ctl d).adminSq = (s.ctl d).adminSq) (hq : (t.ctl d).sqs = (s.ctl d).sqs) (n : Nat) :
    t.sq d n = s.sq d n := by
  rw [State.sq, ha, hq, State.sq]

theorem State.cq_congr {s t : State} {d : Fin 2} (ha : (t.ctl d).adminCq = (s.ctl d).adminCq) (hq : (t.ctl d).cqs = (s.ctl d).cqs) (n : Nat) :
    t.cq d n = s.cq d n := by
  rw [State.cq, ha, hq, State.cq]

theorem frame_onSq (f : Sq → Sq) : Frame [.host] [] s (s.onSq c n f) := by
  unfold State.onSq
  split_ifs <;> exact frame_onCtl s c _

theorem frame_onCq (f : Cq → Cq) : Frame [.host] [] s (s.onCq c n f) := by
  unfold State.onCq
  split_ifs <;> exact frame_onCtl s c _

@[simp] theorem State.onSq_cmds (f : Sq → Sq) : (s.onSq c n f).host.cmds = s.host.cmds := by
  unfold State.onSq
  split_ifs <;> rfl

@[simp] theorem State.onCq_cmds (f : Cq → Cq) : (s.onCq c n f).host.cmds = s.host.cmds := by
  unfold State.onCq
  split_ifs <;> rfl

/-- Of a controller, a change of a submission queue leaves all but its submission queues. -/
theorem State.onSq_ctl (f : Sq → Sq) : ∃ a l, (s.onSq c n f).ctl c = { s.ctl c with adminSq := a, sqs := l } := by
  unfold State.onSq
  split_ifs <;> exact ⟨_, _, State.onCtl_ctl_same s c _⟩

theorem State.onCq_ctl (f : Cq → Cq) : ∃ a l, (s.onCq c n f).ctl c = { s.ctl c with adminCq := a, cqs := l } := by
  unfold State.onCq
  split_ifs <;> exact ⟨_, _, State.onCtl_ctl_same s c _⟩

theorem State.onSq_ctl_ne (f : Sq → Sq) (h : d ≠ c) : (s.onSq c n f).ctl d = s.ctl d := by
  unfold State.onSq
  split_ifs <;> exact State.onCtl_ctl_ne s _ h

theorem State.onCq_ctl_ne (f : Cq → Cq) (h : d ≠ c) : (s.onCq c n f).ctl d = s.ctl d := by
  unfold State.onCq
  split_ifs <;> exact State.onCtl_ctl_ne s _ h

variable {n m}

theorem State.sq_onSq_same {f : Sq → Sq} (hf : ∀ q, (f q).qid = q.qid) : (s.onSq c n f).sq c n = (s.sq c n).map f := by
  by_cases h : n = 0
  · subst h
    rw [State.sq_zero, s.sq_zero, State.onSq, if_pos rfl, State.onCtl_ctl_same]
    rfl
  · rw [State.sq_pos _ _ _ h, s.sq_pos _ _ h, State.onSq, if_neg h, State.onCtl_ctl_same]
    exact find?_updIf_same (fun q hq => by simpa [hf] using hq) _

theorem State.cq_onCq_same {f : Cq → Cq} (hf : ∀ q, (f q).qid = q.qid) : (s.onCq c n f).cq c n = (s.cq c n).map f := by
  by_cases h : n = 0
  · subst h
    rw [State.cq_zero, s.cq_zero, State.onCq, if_pos rfl, State.onCtl_ctl_same]
    rfl
  · rw [State.cq_pos _ _ _ h, s.cq_pos _ _ h, State.onCq, if_neg h, State.onCtl_ctl_same]
    exact find?_updIf_same (fun q hq => by simpa [hf] using hq) _

theorem State.sq_onSq_ne {f : Sq → Sq} (hf : ∀ q, (f q).qid = q.qid) (h : m ≠ n) : (s.onSq c n f).sq c m = s.sq c m := by
  have other : ∀ q : Sq, (q.qid == n) = true → (q.qid == m) = false ∧ ((f q).qid == m) = false := fun q hq => by
    simp_all [Ne.symm h]
  unfold State.onSq State.sq
  by_cases hn : n = 0
  · rw [if_pos hn, State.onCtl_ctl_same, if_neg (hn ▸ h), if_neg (hn ▸ h)]
  · rw [if_neg hn, State.onCtl_ctl_same]
    exact congrArg (if m = 0 then some (s.ctl c).adminSq else ·) (find?_updIf_other other _)

theorem State.cq_onCq_ne {f : Cq → Cq} (hf : ∀ q, (f q).qid = q.qid) (h : m ≠ n) : (s.onCq c n f).cq c m = s.cq c m := by
  have other : ∀ q : Cq, (q.qid == n) = true → (q.qid == m) = false ∧ ((f q).qid == m) = false := fun q hq => by
    simp_all [Ne.symm h]
  unfold State.onCq State.cq
  by_cases hn : n = 0
  · rw [if_pos hn, State.onCtl_ctl_same, if_neg (hn ▸ h), if_neg (hn ▸ h)]
  · rw [if_neg hn, State.onCtl_ctl_same]
    exact congrArg (if m = 0 then some (s.ctl c).adminCq else ·) (find?_updIf_other other _)

theorem sqNow_onSq {f : Sq → Sq} (hf : ∀ q, (f q).qid = q.qid) : sqNow s (s.onSq c n f) c n ((s.sq c n).map f) :=
  ⟨s.sq_onSq_same c hf, fun _ hm => s.sq_onSq_ne c hf hm, fun d hd => s.onSq_ctl_ne c d n f hd⟩

theorem cqNow_onCq {f : Cq → Cq} (hf : ∀ q, (f q).qid = q.qid) : cqNow s (s.onCq c n f) c n ((s.cq c n).map f) :=
  ⟨s.cq_onCq_same c hf, fun _ hm => s.cq_onCq_ne c hf hm, fun d hd => s.onCq_ctl_ne c d n f hd⟩

end

section
variable {s t u : State} {c : Fin 2} {n : Nat}

/-- A step that leaves the submission queues before the one that changes a queue. -/
theorem sqNow_of_same {q : Option Sq} (h : sqNow u t c n q) (sq : ∀ m, u.sq c m = s.sq c m) (ctl : ∀ d, d ≠ c → u.ctl d = s.ctl d) :
    sqNow s t c n q := by
  obtain ⟨now, other, ctls⟩ := h
  exact ⟨now, fun m hm => (other m hm).trans (sq m), fun d hd => (ctls d hd).trans (ctl d hd)⟩

/-- A step that leaves the submission queues after the one that changed a queue. -/
theorem sqNow_then {q : Option Sq} (h : sqNow s u c n q) (sq : ∀ m, t.sq c m = u.sq c m) (ctl : ∀ d, d ≠ c → t.ctl d = u.ctl d) :
    sqNow s t c n q := by
  obtain ⟨now, other, ctls⟩ := h
  exact ⟨(sq n).trans now, fun m hm => (sq m).trans (other m hm), fun d hd => (ctl d hd).trans (ctls d hd)⟩

theorem cqNow_trans {p q : Option Cq} (h : cqNow s u c n p) (k : cqNow u t c n q) : cqNow s t c n q := by
  obtain ⟨-, hother, hctl⟩ := h
  obtain ⟨know, kother, kctl⟩ := k
  exact ⟨know, fun m hm => (kother m hm).trans (hother m hm), fun d hd => (kctl d hd).trans (hctl d hd)⟩

theorem cqNow_then {q : Option Cq} (h : cqNow s u c n q) (cq : ∀ m, t.cq c m = u.cq c m) (ctl : ∀ d, d ≠ c → t.ctl d = u.ctl d) :
    cqNow s t c n q := by
  obtain ⟨now, other, ctls⟩ := h
  exact ⟨(cq n).trans now, fun m hm => (cq m).trans (other m hm), fun d hd => (ctl d hd).trans (ctls d hd)⟩

end

theorem State.onCtl_congr (s : State) (c : Fin 2) {f g : Controller → Controller} (h : f (s.ctl c) = g (s.ctl c)) :
    s.onCtl c f = s.onCtl c g := by
  have : vupd s.host.ctl c f = vupd s.host.ctl c g := congrArg (s.host.ctl.set c) h
  exact congrArg (fun l => { s with host := { s.host with ctl := l } }) this

/-! ### Interrupts -/

section
variable (s : State) (c d : Fin 2) (v : Nat)

theorem frame_interrupt : Frame [.host] [] s (s.interrupt c v) := by
  unfold State.interrupt State.sendMsix
  dsimp only
  split_ifs <;> exact frame_onCtl s c _

@[simp] theorem State.interrupt_cmds : (s.interrupt c v).host.cmds = s.host.cmds := by
  unfold State.interrupt State.sendMsix
  dsimp only
  split_ifs <;> rfl

/-- Of a controller, an interrupt changes its messages alone. -/
theorem State.interrupt_ctl : ∃ m k, (s.interrupt c v).ctl d = { s.ctl d with msix := m, coalesced := k } := by
  unfold State.interrupt State.sendMsix
  dsimp only
  by_cases hd : d = c
  · subst hd
    split_ifs <;> exact ⟨_, _, State.onCtl_ctl_same s d _⟩
  · split_ifs <;> exact ⟨(s.ctl d).msix, (s.ctl d).coalesced, State.onCtl_ctl_ne s _ hd⟩

theorem State.interrupt_ctl_ne (h : d ≠ c) : (s.interrupt c v).ctl d = s.ctl d := by
  unfold State.interrupt State.sendMsix
  dsimp only
  split_ifs <;> exact State.onCtl_ctl_ne s _ h

theorem State.interrupt_sq (n : Nat) : (s.interrupt c v).sq d n = s.sq d n := by
  obtain ⟨m, k, h⟩ := s.interrupt_ctl c d v
  exact State.sq_congr (by rw [h]) (by rw [h]) n

theorem State.interrupt_cq (n : Nat) : (s.interrupt c v).cq d n = s.cq d n := by
  obtain ⟨m, k, h⟩ := s.interrupt_ctl c d v
  exact State.cq_congr (by rw [h]) (by rw [h]) n

end

/-! ### What an answer changes -/

/-- From `s` to `t` management paths have been answered: entries of admin completion queues, their interrupts and the error log, and
responses on the other paths. -/
structure Answers (s t : State) : Prop where
  frame : Frame [.host, .mgmt] [] s t
  cmds : t.host.cmds = s.host.cmds
  ctl : ∀ d, ∃ q m k, t.ctl d = { s.ctl d with adminCq := q, msix := m, coalesced := k }
  mgmt : ∃ l, t.mgmt = { s.mgmt with replies := l }

/-- No read ended without data: the media errors of LID 02h are not counted (R468). -/
def Status.kept (st : Status) : Prop := st.good = true ∨ (st == St.unrecovered || st == St.noData) = false

section
variable {s t u : State}

theorem Answers.refl (s : State) : Answers s s :=
  ⟨(Frame.refl s).mono (by decide), rfl, fun d => ⟨(s.ctl d).adminCq, (s.ctl d).msix, (s.ctl d).coalesced, rfl⟩, _, rfl⟩

theorem Answers.trans (h : Answers s t) (k : Answers t u) : Answers s u where
  frame := (h.frame.trans k.frame).mono (by decide)
  cmds := k.cmds.trans h.cmds
  ctl d := by
    obtain ⟨_, _, _, hd⟩ := h.ctl d
    obtain ⟨q, m, x, kd⟩ := k.ctl d
    exact ⟨q, m, x, by rw [kd, hd]⟩
  mgmt := by
    obtain ⟨_, hm⟩ := h.mgmt
    obtain ⟨l, km⟩ := k.mgmt
    exact ⟨l, by rw [km, hm]⟩

/-- What an answer leaves of a controller. -/
theorem Answers.field (h : Answers s t) {α : Type} (f : Controller → α) (hf : ∀ x q m k, f { x with adminCq := q, msix := m, coalesced := k } = f x)
    (d : Fin 2) : f (t.ctl d) = f (s.ctl d) := by
  obtain ⟨q, m, k, hd⟩ := h.ctl d
  rw [hd, hf]

theorem Answers.sq (h : Answers s t) (d : Fin 2) : t.sq d = s.sq d :=
  funext (State.sq_congr (h.field (·.adminSq) (fun _ _ _ _ => rfl) d) (h.field (·.sqs) (fun _ _ _ _ => rfl) d))

theorem Answers.of_onHost (f : Headgate → Headgate) (cmds : (f s.host).cmds = s.host.cmds) (ctl : (f s.host).ctl = s.host.ctl) :
    Answers s (s.onHost f) :=
  ⟨(frame_onHost s f).mono (by decide), cmds, fun d => ⟨(s.ctl d).adminCq, (s.ctl d).msix, (s.ctl d).coalesced, by
    rw [State.ctl, show (s.onHost f).host.ctl = s.host.ctl from ctl]; rfl⟩, _, rfl⟩

theorem Answers.interrupt (s : State) (c : Fin 2) (v : Nat) : Answers s (s.interrupt c v) where
  frame := (frame_interrupt s c v).mono (by decide)
  cmds := s.interrupt_cmds c v
  ctl d := by
    obtain ⟨m, k, h⟩ := s.interrupt_ctl c d v
    exact ⟨(s.ctl d).adminCq, m, k, h⟩
  mgmt := by
    have : (s.interrupt c v).mgmt = s.mgmt := by
      unfold State.interrupt State.sendMsix
      dsimp only
      split_ifs <;> rfl
    exact ⟨s.mgmt.replies, this⟩

theorem Answers.onAdminCq (s : State) (c : Fin 2) (f : Cq → Cq) : Answers s (s.onCq c 0 f) where
  frame := (frame_onCq s c 0 f).mono (by decide)
  cmds := s.onCq_cmds c 0 f
  ctl d := by
    rw [State.onCq, if_pos rfl]
    by_cases hd : d = c
    · subst hd
      exact ⟨_, _, _, State.onCtl_ctl_same s d _⟩
    · exact ⟨(s.ctl d).adminCq, (s.ctl d).msix, (s.ctl d).coalesced, State.onCtl_ctl_ne s _ hd⟩
  mgmt := ⟨s.mgmt.replies, rfl⟩

end

/-! ### One answer (R61, R62) -/

/-- The error log takes the entry of an answer that fails. -/
def State.errLogged (s : State) (a : Adm) (st : Status) : State := if st.good then s else s.logError 0 a.cid st 0 0

/-- The entry posted on an admin completion queue, or held while the queue is full. -/
def Cq.posted (q : Cq) (e : Cqe) : Cq :=
  if q.full || !q.held.isEmpty then { q with held := q.held ++ [{ e := e, cls := 8 }] } else { q with entries := q.entries ++ [e] }

section
variable (s : State) (a : Adm) (st : Status) (data : List Bytes) {c : Fin 2}

theorem State.logError_eq (sqid cid lba nsid : Nat) (h : (st == St.unrecovered || st == St.noData) = false) :
    ∃ f : Headgate → Headgate, s.logError sqid cid st lba nsid = s.onHost f ∧ (f s.host).cmds = s.host.cmds ∧ (f s.host).ctl = s.host.ctl := by
  unfold State.logError
  split_ifs
  · exact ⟨id, rfl, rfl, rfl⟩
  · rw [h]
    exact ⟨_, rfl, rfl, rfl⟩

theorem State.errLogged_eq (h : st.kept) :
    ∃ f : Headgate → Headgate, s.errLogged a st = s.onHost f ∧ (f s.host).cmds = s.host.cmds ∧ (f s.host).ctl = s.host.ctl := by
  unfold State.errLogged
  split_ifs with good
  · exact ⟨id, rfl, rfl, rfl⟩
  · exact s.logError_eq st 0 a.cid 0 0 (h.resolve_left good)

theorem State.reply_path (h : admCtrl a.path = none) : s.reply a st data =
    s.onMgmt fun m => { m with replies := m.replies ++ [⟨a.path, st.sct * 256 + st.sc, st.dw0, data.flatten⟩] } := by
  rw [State.reply, h]

/-- An answer on an admin queue, taken apart: its post, and the interrupt where one is due. -/
theorem State.reply_queue (h : admCtrl a.path = some c) (hs : (s.ctl c).adminCq.size ≠ 0) (hk : st.kept) :
    ∃ f : Headgate → Headgate, (f s.host).cmds = s.host.cmds ∧ (f s.host).ctl = s.host.ctl ∧
      let t := (s.onHost f).onCq c 0 fun q => q.posted (adminCqe s c a st data)
      s.reply a st data = t ∨ s.reply a st data = t.interrupt c (s.ctl c).adminCq.vector := by
  obtain ⟨f, hf, cmds, ctl⟩ := s.errLogged_eq a st hk
  have hctl : (s.onHost f).ctl c = s.ctl c := by rw [State.ctl, show (s.onHost f).host.ctl = s.host.ctl from ctl, State.ctl]
  refine ⟨f, cmds, ctl, ?_⟩
  have post : s.reply a st data = (s.onHost f).postCqe c 0 { e := adminCqe s c a st data, cls := 8 } := by
    rw [State.reply, h]
    dsimp only
    rw [← State.errLogged, hf, adminCqe, hctl]
    rfl
  rw [post, State.postCqe, State.cq_zero, hctl]
  dsimp only
  rw [if_neg hs]
  have same (g : Cq → Cq) (hg : g (s.ctl c).adminCq = (s.ctl c).adminCq.posted (adminCqe s c a st data)) :
      (s.onHost f).onCq c 0 g = (s.onHost f).onCq c 0 fun q => q.posted (adminCqe s c a st data) := by
    rw [State.onCq, if_pos rfl, State.onCq, if_pos rfl]
    exact State.onCtl_congr _ c (by rw [hctl, hg])
  split_ifs with full ien
  · exact .inl (same _ (by rw [Cq.posted, if_pos full]))
  · exact .inr (congrArg (State.interrupt · c _) (same _ (by rw [Cq.posted, if_neg full])))
  · exact .inl (same _ (by rw [Cq.posted, if_neg full]))

/-- Without an admin completion queue the answer is discarded. -/
theorem State.reply_unposted (h : admCtrl a.path = some c) (hs : (s.ctl c).adminCq.size = 0) (hk : st.kept) : Answers s (s.reply a st data) := by
  obtain ⟨f, hf, cmds, ctl⟩ := s.errLogged_eq a st hk
  have hctl : (s.onHost f).ctl c = s.ctl c := by rw [State.ctl, show (s.onHost f).host.ctl = s.host.ctl from ctl, State.ctl]
  have post : s.reply a st data = (s.onHost f).onHost fun h => { h with discarded := h.discarded + 1 } := by
    rw [State.reply, h]
    dsimp only
    rw [← State.errLogged, hf, State.postCqe, State.cq_zero, hctl]
    exact if_pos hs
  rw [post]
  exact (Answers.of_onHost f cmds ctl).trans (.of_onHost _ rfl rfl)

/-- An answer leaves all but its own queue, its interrupt and the error log, or its path's responses. -/
theorem answers_reply (hk : st.kept) : Answers s (s.reply a st data) := by
  cases h : admCtrl a.path with
  | none =>
    rw [s.reply_path a st data h]
    exact ⟨(frame_onMgmt s _ ⟨rfl, rfl⟩).mono (by decide), rfl,
      fun d => ⟨(s.ctl d).adminCq, (s.ctl d).msix, (s.ctl d).coalesced, rfl⟩, _, rfl⟩
  | some c =>
    by_cases hs : (s.ctl c).adminCq.size = 0
    · exact s.reply_unposted a st data h hs hk
    · obtain ⟨f, cmds, ctl, h⟩ := s.reply_queue a st data h hs hk
      have posted := (Answers.of_onHost (s := s) f cmds ctl).trans (.onAdminCq _ c fun q => q.posted (adminCqe s c a st data))
      rcases h with h | h <;> rw [h]
      · exact posted
      · exact posted.trans (.interrupt _ c _)

/-- On an admin queue nothing but the headgate takes part. -/
theorem frame_reply_queue (h : admCtrl a.path = some c) (hs : (s.ctl c).adminCq.size ≠ 0) (hk : st.kept) :
    Frame [.host] [] s (s.reply a st data) := by
  obtain ⟨f, -, -, h⟩ := s.reply_queue a st data h hs hk
  have posted := ((frame_onHost s f).trans (frame_onCq _ c 0 fun q => q.posted (adminCqe s c a st data))).mono (Q := [.host]) (by decide)
  rcases h with h | h <;> rw [h]
  · exact posted
  · exact (posted.trans (frame_interrupt _ c _)).mono (by decide)

theorem State.reply_ctl_ne (h : admCtrl a.path = some c) (hs : (s.ctl c).adminCq.size ≠ 0) (hk : st.kept) {d : Fin 2} (hd : d ≠ c) :
    (s.reply a st data).ctl d = s.ctl d := by
  obtain ⟨f, -, ctl, h⟩ := s.reply_queue a st data h hs hk
  have posted : ((s.onHost f).onCq c 0 fun q => q.posted (adminCqe s c a st data)).ctl d = s.ctl d := by
    rw [State.onCq_ctl_ne _ _ _ _ _ hd, State.ctl, show (s.onHost f).host.ctl = s.host.ctl from ctl, State.ctl]
  rcases h with h | h <;> rw [h]
  · exact posted
  · rw [State.interrupt_ctl_ne _ _ _ _ hd, posted]

theorem replied_reply (hw : ∀ c, admCtrl a.path = some c → (s.ctl c).adminCq.size ≠ 0) (hk : st.kept) :
    replied s (s.reply a st data) a st data := by
  unfold replied
  cases h : admCtrl a.path with
  | none =>
    rw [s.reply_path a st data h]
    rfl
  | some c =>
    obtain ⟨f, -, ctl, h⟩ := s.reply_queue a st data h (hw c h) hk
    have hctl : (s.onHost f).ctl c = s.ctl c := by rw [State.ctl, show (s.onHost f).host.ctl = s.host.ctl from ctl, State.ctl]
    have posted : (((s.onHost f).onCq c 0 fun q => q.posted (adminCqe s c a st data)).ctl c).adminCq =
        (s.ctl c).adminCq.posted (adminCqe s c a st data) := by
      rw [State.onCq, if_pos rfl, State.onCtl_ctl_same, hctl]
    have kept (u : State) (v : Nat) : ((u.interrupt c v).ctl c).adminCq = (u.ctl c).adminCq := by
      obtain ⟨m, k, h⟩ := u.interrupt_ctl c c v
      rw [h]
    dsimp only
    rcases h with h | h <;> rw [h]
    · exact posted
    · rw [kept]
      exact posted

/-- An answer made from a state that has the turn, the responses and the path's queue of `s` is an answer of `s`. -/
theorem replied_of_same {s u t : State} (ht : u.turn = s.turn) (hr : u.mgmt.replies = s.mgmt.replies)
    (hq : ∀ c, admCtrl a.path = some c → (u.ctl c).adminCq = (s.ctl c).adminCq ∧ (u.ctl c).adminSq.head = (s.ctl c).adminSq.head)
    (h : replied u t a st data) : replied s t a st data := by
  unfold replied adminCqe at *
  cases hp : admCtrl a.path with
  | none =>
    rw [hp] at h
    dsimp only at *
    rw [h, hr]
  | some c =>
    obtain ⟨hcq, hhead⟩ := hq c hp
    rw [hp] at h
    dsimp only at *
    rw [h, hcq, hhead, ht]

end

/-! ### When a command of a management path runs now -/

section
variable {s : State} {a : Adm} {c : Fin 2} (k : State → State) (i : Instr)

theorem whole.size (h : whole s a) (c : Fin 2) (hc : admCtrl a.path = some c) : (s.ctl c).adminCq.size ≠ 0 := (h c hc).1

/-- In Conserve a command of a controller's queue finds the exit started, so that it starts none. -/
theorem State.adminExit_same (h : s.power.mode = .conserve → s.power.exiting.isSome = true ∨ admCtrl a.path = none) : s.adminExit a = s := by
  unfold State.adminExit
  split_ifs with hc
  · obtain ⟨hm, hp⟩ : s.power.mode = .conserve ∧ (admCtrl a.path).isSome = true := by simpa using hc
    rcases h hm with hx | hn
    · rw [State.startExit, if_pos hx]
    · rw [hn] at hp
      cases hp
  · rfl

theorem hears_of_takes (h : takes s a) : hears s a := by
  obtain ⟨hopen, hrest, hmode, hwhole⟩ := h
  exact ⟨hopen, hrest, hwhole, fun hm => absurd hm hmode⟩

/-- A path that takes requests hears a whole one. -/
theorem State.hear_eq (hopen : s.pathOpen a.path = true) (hrest : admCtrl a.path = none → s.restarting = false) (hw : whole s a) :
    s.hear a k = k s := by
  rw [State.hear, if_neg (by simp [hopen])]
  cases hp : admCtrl a.path with
  | none => exact if_neg (by simp [hrest hp])
  | some c =>
    obtain ⟨-, hpoison⟩ := hw c hp
    exact if_neg (by simpa using hpoison)

theorem State.admin_hears (h : hears s a) : s.admin a k = k s := by
  obtain ⟨hopen, hrest, hwhole, hmode⟩ := h
  rw [State.admin, State.hear_eq _ hopen (fun _ => hrest) hwhole, State.adminExit_same hmode]

theorem State.admin_hgTakes (h : hgTakes s a c) : s.admin a k = k s := by
  obtain ⟨hpath, hrun, hwhole, hmode⟩ := h
  have hopen : s.pathOpen a.path = true := by
    rw [State.pathOpen, hpath]
    exact hrun
  rw [State.admin, State.hear_eq _ hopen (fun hn => by simp [hpath] at hn) hwhole, State.adminExit_same fun hm => .inl (hmode hm)]

theorem State.clusterAdmin_hears (h : hears s a) (hm : s.power.mode ≠ .conserve) : s.clusterAdmin a i k = k s := by
  obtain ⟨hopen, hrest, hwhole, -⟩ := h
  rw [State.clusterAdmin, State.hear_eq _ hopen (fun _ => hrest) hwhole, State.onCluster, if_pos (by simpa using hm)]

theorem State.riderAdmin_hears (h : hears s a) : s.riderAdmin a i k = k s := by
  have hrest : s.restarting = false := h.2.1
  rw [State.riderAdmin, State.admin_hears _ h, if_neg (by simp [hrest])]

end

end Sys2Proof.Machine
end

section
/-! Doorbells, the edge that closes their turn, and the fetch of entries (R55, R56, R58–R61, R67, R75), and O43. -/

namespace Sys2Proof.Machine

open Sys2Proof.Safety

/-! ### A tail (R58, R60, R75) -/

/-- Entries of a queue between its head and a tail. -/
def Sq.used (q : Sq) (tail : Nat) : Nat := (tail + q.size - q.head) % q.size

/-- Visible entries that an earlier turn has made visible. -/
def Sq.older (q : Sq) (turn : Nat) : List (Nat × Nat × Bool × Nat) := q.visible.filter fun x => x.1 != turn

section
variable (s : State) (c d : Fin 2) (n : Nat)

theorem State.onCtl_id : (s.onCtl c fun x => x) = s := by
  have : (vupd s.host.ctl c fun x => x) = s.host.ctl := s.host.ctl.set_getElem_self c.isLt
  exact congrArg (fun l => { s with host := { s.host with ctl := l } }) this

@[simp] theorem State.onSq_turn (f : Sq → Sq) : (s.onSq c n f).turn = s.turn := by unfold State.onSq; split_ifs <;> rfl
@[simp] theorem State.onSq_power (f : Sq → Sq) : (s.onSq c n f).power = s.power := by unfold State.onSq; split_ifs <;> rfl

/-- A valid doorbell write drops the report of an invalid one, and nothing else. -/
theorem State.goodDoorbell_eq : ∃ l, s.goodDoorbell c n = s.onCtl c fun x => { x with badBells := l } := by
  unfold State.goodDoorbell
  split_ifs with h
  · exact ⟨(s.ctl c).badBells, ((State.onCtl_congr s c rfl).trans (s.onCtl_id c)).symm⟩
  · exact ⟨kdel n (s.ctl c).badBells, State.onCtl_congr s c rfl⟩

theorem State.doorbellPower_same (hm : s.power.mode ≠ .conserve) (he : s.power.entry = none) : s.doorbellPower n = s := by
  simp [State.doorbellPower, hm, he]

/-- A queue whose new tail is observed, as a change of its entry in the controller's list. -/
def Sq.observe (q : Sq) (now v : Nat) (x : Sq) : Sq :=
  { x with tail := v, visible := q.older now ++ List.replicate (q.used v - (q.older now).length) (now, x.cls, x.ordered, 0) }

/-- A tail that keeps the entries of earlier turns is observed. -/
theorem State.observeTail_valid {q : Sq} {v : Nat} (hv : v < q.size) (hk : (q.older s.turn).length ≤ q.used v)
    (hm : s.power.mode ≠ .conserve) (he : s.power.entry = none) : ∃ l,
    s.observeTail c q v = (s.onCtl c fun x => { x with badBells := l }).onSq c q.qid (q.observe s.turn v) := by
  obtain ⟨l, hl⟩ := s.goodDoorbell_eq c (2 * q.qid)
  have stamps : (fun x : Sq => { x with tail := v, visible := q.older s.turn ++ stampNew s x (q.used v - (q.older s.turn).length) }) =
      q.observe s.turn v := funext fun x => by
    simp [stampNew, State.extension, hm, Sq.observe]
  refine ⟨l, ?_⟩
  rw [← hl, ← stamps]
  refine (if_neg (by simpa using ⟨hv, hk⟩)).trans ?_
  exact State.doorbellPower_same _ _ (by rw [State.onSq_power, hl]; exact hm) (by rw [State.onSq_power, hl]; exact he)

/-- What an observed tail leaves: its queue, the other queues, and the headgate's commands. -/
theorem State.observeTail_observes {q : Sq} {v : Nat} (hv : v < q.size) (hk : (q.older s.turn).length ≤ q.used v)
    (hm : s.power.mode ≠ .conserve) (he : s.power.entry = none) :
    Frame [.host] [] s (s.observeTail c q v) ∧ sqNow s (s.observeTail c q v) c q.qid ((s.sq c q.qid).map (q.observe s.turn v)) ∧
      (s.observeTail c q v).host.cmds = s.host.cmds ∧
      ∃ l a m, (s.observeTail c q v).ctl c = { s.ctl c with badBells := l, adminSq := a, sqs := m } := by
  obtain ⟨l, h⟩ := s.observeTail_valid c hv hk hm he
  rw [h]
  have same (m : Nat) : (s.onCtl c fun x => { x with badBells := l }).sq c m = s.sq c m :=
    State.sq_congr (by rw [State.onCtl_ctl_same]) (by rw [State.onCtl_ctl_same]) m
  refine ⟨((frame_onCtl s c _).trans (frame_onSq _ c _ _)).mono (by decide), ?_, by rw [State.onSq_cmds, State.onCtl_cmds], ?_⟩
  · rw [← same]
    exact sqNow_of_same (sqNow_onSq _ c fun _ => rfl) same fun d hd => State.onCtl_ctl_ne s _ hd
  · obtain ⟨a, m, hx⟩ := (s.onCtl c fun x => { x with badBells := l }).onSq_ctl c q.qid (q.observe s.turn v)
    exact ⟨l, a, m, by rw [hx, State.onCtl_ctl_same]⟩

/-- A tail beyond the queue, or short of the entries of earlier turns, is ignored and will be reported. -/
theorem State.observeTail_invalid {q : Sq} {v : Nat} (hv : q.size ≤ v ∨ q.used v < (q.older s.turn).length) (hk : q.older s.turn = q.visible) :
    s.observeTail c q v = s.badDoorbell c 1 (2 * q.qid) v := by
  have hk' : (q.visible.filter fun x => x.1 != s.turn).length = q.visible.length := congrArg List.length hk
  refine (if_pos (by simpa [Sq.used, Sq.older] using hv)).trans ?_
  rw [if_pos hk']

theorem State.running_mode (h : s.running c = true) : s.power.mode ≠ .recovery := by
  intro hm
  simp [State.running, hm, Mode.carriesData] at h

/-- An access to a domain leaves everything but the domains, the log and an event. -/
theorem frame_touch (k : Fin 24) (client : Nat) : ∃ W, Frame [.doms, .idle, .log] W s (s.touch k client) := by
  unfold State.touch
  split
  · split_ifs
    · exact ⟨_, (frame_logUncoded s _ _ _).mono (by decide)⟩
    · exact ⟨_, ((frame_startWake s k).trans (frame_restartIdle _ k)).mono (by decide)⟩
  · exact ⟨_, (((((frame_onDom s k _).trans (frame_onDom _ k _)).trans (frame_setFld _ _ _)).trans (frame_log _ _ _ _ _)).trans
      (frame_restartIdle _ k)).mono (by decide)⟩
  · exact ⟨_, (frame_restartIdle s k).mono (by decide)⟩
  · exact ⟨_, (Frame.refl s).mono (by decide)⟩

theorem Frame.power_eq {s t : State} {P : List Part} {W : List (Fld × Nat)} (h : Frame P W s t) (hP : Part.power ∉ P) :
    t.power = { s.power with doms := t.power.doms } := by
  have : { t.power with doms := s.power.doms } = s.power := h.1 .power hP
  rw [← this]

/-! ### The commands on a tail doorbell -/

variable {s c n} {q : Sq} {v : Nat}

theorem exec_sqTailDoorbell (hr : s.running c = true) (hl : (s.ctl c).link = .l0) :
    exec (.sqTailDoorbell c n v) s = .next (s.tailDoorbell c n v) := by
  show execSqTailDoorbell c n v s = _
  rw [execSqTailDoorbell, if_pos hr, if_pos hl]

theorem State.tailDoorbell_observed (hn : n ≠ 0) (hq : s.sq c n = some q) (hf : q.frozen = false) :
    s.tailDoorbell c n v = s.observeTail c q v := by
  rw [State.tailDoorbell, hq]
  exact (if_neg (by simp [hf])).trans (if_neg hn)

theorem sqTailDoorbell_observes (hr : s.running c = true) (hn : n ≠ 0) (hq : s.sq c n = some q) (hl : (s.ctl c).link = .l0)
    (hv : v < q.size) (hf : q.frozen = false) (hk : (q.older s.turn).length ≤ q.used v) (hm : s.power.mode ≠ .conserve)
    (he : s.power.entry = none) :
    Does (.sqTailDoorbell c n v) s [.host] [] fun t => sqNow s t c n (some (q.observe s.turn v q)) ∧ t.host.cmds = s.host.cmds := by
  obtain ⟨frame, now, cmds, -⟩ := s.observeTail_observes c hv hk hm he
  have hid := s.sq_qid c n hn hq
  rw [hid, hq] at now
  exact does_of ((exec_sqTailDoorbell hr hl).trans (congrArg _ (State.tailDoorbell_observed hn hq hf))) frame ⟨now, cmds⟩

theorem sqTailDoorbell_wakes (hr : s.running c = true) (hn : n ≠ 0) (hq : s.sq c n = some q) (hl : (s.ctl c).link ≠ .l0)
    (hv : v < q.size) (hf : q.frozen = false) (hk : (q.older s.turn).length ≤ q.used v) (hm : s.power.mode ≠ .conserve)
    (he : s.power.entry = none) :
    Completes (.sqTailDoorbell c n v) s fun t => (t.ctl c).link = .l0 ∧ t.sq c n = some (q.observe s.turn v q) := by
  have run : exec (.sqTailDoorbell c n v) s = .next ((s.leaveL1 c).tailDoorbell c n v) := by
    show execSqTailDoorbell c n v s = _
    rw [execSqTailDoorbell, if_pos hr, if_neg hl]
  obtain ⟨W, woken⟩ := frame_touch (s.onCtl c fun x => { x with link := .l0 }) (s.linkDom c) (0x20 + c.val)
  rw [← State.leaveL1] at woken
  have ctl : (s.leaveL1 c).ctl c = { s.ctl c with link := .l0 } := by
    rw [Frame.ctl_eq woken (by decide), State.onCtl_ctl_same]
  have turn : (s.leaveL1 c).turn = s.turn := woken.1 .turn (by decide)
  have power := Frame.power_eq woken (by decide)
  have hq' : (s.leaveL1 c).sq c n = some q := by rw [State.sq_congr (s := s) (by rw [ctl]) (by rw [ctl]), hq]
  have hid := s.sq_qid c n hn hq
  rw [State.tailDoorbell_observed hn hq' hf] at run
  obtain ⟨-, ⟨now, -, -⟩, -, l, a, m, last⟩ := (s.leaveL1 c).observeTail_observes c hv (turn ▸ hk) (by rw [power]; exact hm) (by rw [power]; exact he)
  rw [hid, hq', turn] at now
  exact completes_of run ⟨by rw [last, ctl], now⟩

theorem sqTailDoorbell_stores (hr : s.running c = true) (hq : s.sq c n = some q) (hl : (s.ctl c).link = .l0) (hf : q.frozen = true) :
    Does (.sqTailDoorbell c n v) s [.host] [] fun t =>
      sqNow s t c n (some { q with storedTail := some v }) ∧ t.host.cmds = s.host.cmds := by
  have run : exec (.sqTailDoorbell c n v) s = .next (s.onSq c n fun q => { q with storedTail := some v }) := by
    rw [exec_sqTailDoorbell hr hl, State.tailDoorbell, hq]
    exact congrArg _ (if_pos hf)
  have now := sqNow_onSq s c (n := n) (f := fun q => { q with storedTail := some v }) fun _ => rfl
  rw [hq] at now
  exact does_of run (frame_onSq s c n _) ⟨now, s.onSq_cmds c n _⟩

theorem sqTailDoorbell_ignores (hr : s.running c = true) (hn : n ≠ 0) (hq : s.sq c n = some q) (hl : (s.ctl c).link = .l0)
    (hv : q.size ≤ v ∨ q.used v < (q.older s.turn).length) (hf : q.frozen = false) (hk : q.older s.turn = q.visible) :
    Does (.sqTailDoorbell c n v) s [.host] [] fun t =>
      t.sq c n = some q ∧ klook (2 * n) (t.ctl c).badBells = some (1, v) ∧ t.host.cmds = s.host.cmds := by
  have run : exec (.sqTailDoorbell c n v) s = .next (s.badDoorbell c 1 (2 * n) v) := by
    rw [exec_sqTailDoorbell hr hl, State.tailDoorbell_observed hn hq hf, s.observeTail_invalid c hv hk, s.sq_qid c n hn hq]
  have same : (s.badDoorbell c 1 (2 * n) v).ctl c = { s.ctl c with badBells := kput (2 * n) (1, v) (s.ctl c).badBells } := State.onCtl_ctl_same s c _
  exact does_of run (frame_onCtl s c _)
    ⟨by rw [State.sq_congr (s := s) (by rw [same]) (by rw [same]), hq], by rw [same, klook_kput_self], rfl⟩

end

/-! ### A head, and the edge that closes its turn (R58, R60, R61) -/

section
variable (s : State) (c : Fin 2) {n : Nat} {q : Cq} {v : Nat}

theorem cqHeadDoorbell_unknown (hr : s.running c = true) (hq : s.cq c n = none) :
    Does (.cqHeadDoorbell c n v) s [.host] [] fun t => klook (2 * n + 1) (t.ctl c).badBells = some (0, v) ∧ t.host.cmds = s.host.cmds := by
  have run : exec (.cqHeadDoorbell c n v) s = .next (s.badDoorbell c 0 (2 * n + 1) v) := by
    show execCqHeadDoorbell c n v s = _
    rw [execCqHeadDoorbell, if_neg (by simp [hr]), hq]
  exact does_of run (frame_onCtl s c _) ⟨by rw [State.badDoorbell, State.onCtl_ctl_same, klook_kput_self], rfl⟩

theorem cqHeadDoorbell_stands (hr : s.running c = true) (hq : s.cq c n = some q) :
    Does (.cqHeadDoorbell c n v) s [.host] [] fun t => cqNow s t c n (some { q with newHead := some v }) := by
  have run : exec (.cqHeadDoorbell c n v) s = .next (s.onCq c n fun q => { q with newHead := some v }) := by
    show execCqHeadDoorbell c n v s = _
    rw [execCqHeadDoorbell, if_neg (by simp [hr]), hq]
  have now := cqNow_onCq s c (n := n) (f := fun q => { q with newHead := some v }) fun _ => rfl
  rw [hq] at now
  exact does_of run (frame_onCq s c n _) now

/-- Entries that a new head frees. -/
def Cq.freed (q : Cq) (head : Nat) : Nat := (head + q.size - q.head) % q.size

/-- A valid head frees the entries before it; held completions follow. -/
theorem State.takeHead_valid (hv : v < q.size) (hn : q.freed v ≤ q.entries.length) : s.takeHead c q v =
    ((s.onCq c q.qid fun x => { x with newHead := none }).onCq c q.qid fun x =>
      { x with head := v, entries := x.entries.drop (q.freed v) }).drainCq c q.qid q.held.length :=
  if_neg (by simpa using ⟨hv, hn⟩)

theorem takeHead_frees (hq : s.cq c n = some q) (hid : q.qid = n) :
    cqNow s ((s.onCq c q.qid fun x => { x with newHead := none }).onCq c q.qid fun x =>
      { x with head := v, entries := x.entries.drop (q.freed v) }) c n
        (some { q with newHead := none, head := v, entries := q.entries.drop (q.freed v) }) := by
  subst hid
  have closed := cqNow_onCq s c (n := q.qid) (f := fun x => { x with newHead := none }) fun _ => rfl
  have freed := cqNow_onCq (s.onCq c q.qid fun x => { x with newHead := none }) c (n := q.qid)
    (f := fun x => { x with head := v, entries := x.entries.drop (q.freed v) }) fun _ => rfl
  rw [closed.1, hq] at freed
  exact cqNow_trans closed freed

theorem takeHead_empty (hq : s.cq c n = some q) (hid : q.qid = n) (hv : v < q.size) (hn : q.freed v ≤ q.entries.length) (hh : q.held = []) :
    cqNow s (s.takeHead c q v) c n (some { q with newHead := none, head := v, entries := q.entries.drop (q.freed v) }) := by
  have none_held : q.held.length = 0 := by rw [hh, List.length_nil]
  rw [s.takeHead_valid c hv hn, none_held]
  exact takeHead_frees s c hq hid (v := v)

/-- The turns that a completion was held are counted in its class. -/
def State.heldCounted (s : State) (x : HeldCqe) : State :=
  if x.cls < 8 then s.onAcct x.cls fun y => { y with held := y.held + (s.turn - x.e.turn) } else s

theorem State.heldCounted_host (x : HeldCqe) : (s.heldCounted x).host = s.host := by
  unfold State.heldCounted
  split_ifs <;> rfl

/-- One held completion is posted, where the queue has room. -/
theorem cqNow_drainCq {x : HeldCqe} (hq : s.cq c n = some q) (hh : q.held = [x]) (hf : q.full = false) :
    cqNow s (s.drainCq c n 1) c n (some { q with held := [], entries := q.entries ++ [x.e] }) := by
  have posted := cqNow_onCq s c (n := n) (f := fun q => { q with held := [], entries := q.entries ++ [x.e] }) fun _ => rfl
  rw [hq] at posted
  generalize hu : (s.onCq c n fun q => { q with held := [], entries := q.entries ++ [x.e] }) = u at posted
  have counted := cqNow_then (t := u.heldCounted x) posted (fun m => by rw [State.cq, State.ctl, State.heldCounted_host]; rfl)
    fun d hd => by rw [State.ctl, State.heldCounted_host]; rfl
  have drained : s.drainCq c n 1 = if q.ien then (u.heldCounted x).interrupt c q.vector else u.heldCounted x := by
    rw [State.drainCq, hq]
    dsimp only
    rw [hh]
    exact (if_neg (by simp [hf])).trans (by rw [hu]; rfl)
  rw [drained]
  split_ifs
  · exact cqNow_then counted (State.interrupt_cq _ c c q.vector) fun d hd => State.interrupt_ctl_ne _ c d q.vector hd
  · exact counted

theorem takeHead_posts {x : HeldCqe} (hq : s.cq c n = some q) (hid : q.qid = n) (hv : v < q.size) (hn : q.freed v ≤ q.entries.length)
    (hh : q.held = [x]) (hroom : q.entries.length - q.freed v + 1 < q.size) :
    cqNow s (s.takeHead c q v) c n (some { q with newHead := none, head := v, held := [], entries := q.entries.drop (q.freed v) ++ [x.e] }) := by
  have freed := takeHead_frees s c hq hid (v := v)
  rw [s.takeHead_valid c hv hn, hh, hid]
  rw [hid] at freed
  exact cqNow_trans freed (cqNow_drainCq _ c freed.1 hh (by simpa [Cq.full] using hroom))

theorem takeHead_invalid (hv : q.entries.length < q.freed v) :
    klook (2 * q.qid + 1) ((s.takeHead c q v).ctl c).badBells = some (1, v) := by
  have bad : s.takeHead c q v = (s.onCq c q.qid fun x => { x with newHead := none }).badDoorbell c 1 (2 * q.qid + 1) v :=
    if_pos (by simpa using .inr hv)
  rw [bad, State.badDoorbell, State.onCtl_ctl_same, klook_kput_self]

end

/-! ### Reports of invalid doorbells (R60) -/

section
variable (s : State) (c : Fin 2)

/-- An event changes a controller's requests, events and masks, and may answer a request. -/
theorem State.raise_answers (type info lid : Nat) : ∃ l m e,
    Answers (s.onCtl c fun x => { x with aers := l, masked := m, events := e }) (s.raise c type info lid) := by
  unfold State.raise
  split_ifs with masked
  · refine ⟨(s.ctl c).aers, (s.ctl c).masked, (s.ctl c).events, ?_⟩
    rw [show (s.onCtl c fun x => { x with aers := (s.ctl c).aers, masked := (s.ctl c).masked, events := (s.ctl c).events }) = s from
      (State.onCtl_congr s c rfl).trans (s.onCtl_id c)]
    exact .refl s
  · split
    · next a rest _ =>
      refine ⟨rest, eventKey type info lid :: (s.ctl c).masked, (s.ctl c).events, ?_⟩
      rw [State.onCtl_congr s c (g := fun x => { x with aers := rest, masked := eventKey type info lid :: x.masked }) rfl]
      exact answers_reply _ a _ [] (.inl rfl)
    · next none =>
      refine ⟨(s.ctl c).aers, (s.ctl c).masked, if (s.ctl c).events.contains ⟨type, info, lid⟩ then (s.ctl c).events else
        (s.ctl c).events ++ [⟨type, info, lid⟩], ?_⟩
      rw [State.onCtl_congr s c (g := fun x =>
        { x with events := if x.events.contains ⟨type, info, lid⟩ then x.events else x.events ++ [⟨type, info, lid⟩] }) rfl]
      exact .refl _

theorem foldl_same {α β : Type} {f : β → α → β} {l : List α} {b : β} (h : ∀ x ∈ l, f b x = b) : l.foldl f b = b := by
  induction l with
  | nil => rfl
  | cons x l ih =>
    obtain ⟨hx, hl⟩ := List.forall_mem_cons.1 h
    rw [List.foldl_cons, hx, ih hl]

/-- The heads that a controller's doorbells were left at are taken. -/
def State.headsTaken : State := (s.allCqs c).foldl (fun s q => match q.newHead with | some v => s.takeHead c q v | none => s) s

/-- The invalid doorbells are reported, and forgotten. -/
def State.bellsReported : State :=
  (s.ctl c).badBells.foldl (fun s b => s.reportBell c b) (if (s.ctl c).badBells.isEmpty then s else s.onCtl c fun x => { x with badBells := [] })

theorem State.bellTurn_eq : s.bellTurn c = (s.headsTaken c).bellsReported c := (rfl)

theorem State.headsTaken_none (hh : ∀ q ∈ s.allCqs c, q.newHead = none) : s.headsTaken c = s := foldl_same fun q hq => by rw [hh q hq]

/-- With no head to take, the edge reports the invalid doorbells and forgets them. -/
theorem State.bellTurn_reports {b : Nat × Nat × Nat} (hb : (s.ctl c).badBells = [b]) (hh : ∀ q ∈ s.allCqs c, q.newHead = none) :
    s.bellTurn c = (s.onCtl c fun x => { x with badBells := [] }).reportBell c b := by
  rw [s.bellTurn_eq, s.headsTaken_none c hh, State.bellsReported, hb]
  rfl

theorem State.reportBell_reports {b : Nat × Nat × Nat} : bitsOf ((s.reportBell c b).word Reg.HGT_EVENT) (2 + c.val) 1 = 1 ∧
    ((s.reportBell c b).ctl c).badBells = (s.ctl c).badBells ∧ logged s (s.reportBell c b) 0x0803 0 0x3FF (b.1 / 2 + b.2.2 * 2 ^ 32) := by
  obtain ⟨l, m, e, answers⟩ := (s.hgtEvent c 2).raise_answers c 0 b.2.1 0x01
  obtain ⟨replies, mgmt⟩ := answers.mgmt
  refine ⟨?_, ?_, logged_log_of (by rw [mgmt]; rfl) (by rw [mgmt]; rfl) (answers.frame.1 .turn (by decide)) (by rw [mgmt]; rfl)⟩
  · have set : (s.hgtEvent c 2).fld ⟨Reg.HGT_EVENT, 2 + c.val, 1⟩ = 1 :=
      State.fld_setFld_same s _ _ (show 2 + c.val + 1 ≤ 32 by omega)
    rw [State.reportBell, State.log_word, answers.frame.2]
    exact set
  · rw [State.reportBell, State.log_ctl, answers.field (·.badBells) (fun _ _ _ _ => rfl), State.onCtl_ctl_same]
    rfl

theorem bellTurn_reports {b : Nat × Nat × Nat} (hb : (s.ctl c).badBells = [b]) (hh : ∀ q ∈ s.allCqs c, q.newHead = none) :
    bitsOf ((s.bellTurn c).word Reg.HGT_EVENT) (2 + c.val) 1 = 1 ∧ ((s.bellTurn c).ctl c).badBells = [] ∧
      logged s (s.bellTurn c) 0x0803 0 0x3FF (b.1 / 2 + b.2.2 * 2 ^ 32) := by
  rw [s.bellTurn_reports c hb hh]
  obtain ⟨event, bells, log⟩ := (s.onCtl c fun x => { x with badBells := [] }).reportBell_reports c (b := b)
  exact ⟨event, by rw [bells, State.onCtl_ctl_same], log⟩

end

/-! ### The fetch of an entry (R55, R56, R59, R67) -/

section
variable (s : State) (c : Fin 2) (q : Sq) (v : Nat × Nat × Bool × Nat) (e : Sqe)

/-- The command of an entry as it is fetched, before its checks. -/
def State.fetchedCmd : Cmd :=
  { ref := ⟨c, q.qid, e.cid⟩, sqe := e, cls := v.2.1, ordered := v.2.2.1, level0 := s.level c == 0, stamp := v.1, fetched := s.turn
    ext := v.2.2.2, order := s.host.order, quoin := (s.ns e.nsid).map fun n => quoinOf n e }

/-- The queue has given its first entry. -/
def State.dequeued : State := s.onSq c q.qid fun x => { x with head := (x.head + 1) % max 1 x.size, visible := x.visible.drop 1 }

/-- A command joins those in contexts, or those without. -/
def State.putCmd (k : Cmd) : State := s.onHost fun h => { h with cmds := h.cmds ++ [k], order := h.order + 1 }

/-- The command ends in the next turn. -/
def Cmd.ending (k : Cmd) (now : Nat) (st : Status) : Cmd := { k with outcome := some (st.sct, st.sc, st.dnr, st.dw0), postAt := some (now + 1) }

/-- The command with its context, or without one. -/
def State.placedCmd : Cmd := if s.ctxFree c then s.fetchedCmd c q v e else { s.fetchedCmd c q v e with phase := .short }

theorem State.takeEntry_eq (hfree : (s.dequeued c q).ctxFree c = s.ctxFree c) (hhint : (s.dequeued c q).ctxHint c = s.ctxHint c)
    (hcheck : (s.dequeued c q).check c e = s.check c e) : s.takeEntry c q v e =
    let x := s.dequeued c q
    let k := s.placedCmd c q v e
    if e.poisoned then (x.putCmd (k.ending s.turn St.dataTransfer)).setFld Reg.HGT_EVENT_POISONED 1
    else
      match s.check c e with
      | some st => x.putCmd (k.ending s.turn st)
      | none =>
        if !s.ctxFree c then
          ((x.putCmd (k.ending s.turn (St.refused 9 (s.ctxHint c)))).addFld (Reg.SLU_REFUSE_COUNT 8) 1).onAcct k.cls fun y =>
            { y with refused := y.refused + 1 }
        else if e.opcode = 0x00 ∨ sqeKind e = .unplanned then x.putCmd (k.ending s.turn St.ok)
        else x.putCmd k := by
  rw [← hfree, ← hhint, ← hcheck, State.placedCmd, ← hfree]
  rfl

/-- What the checks of an entry and the search for a context read of the headgate. -/
theorem State.ctx_congr {s t : State} (cmds : t.host.cmds = s.host.cmds) (cqs : ∀ d, (t.ctl d).cqs = (s.ctl d).cqs) (word : ∀ a, t.word a = s.word a)
    (turn : t.turn = s.turn) : t.ctxFree c = s.ctxFree c ∧ t.ctxHint c = s.ctxHint c := by
  have fld (f : Fld) : t.fld f = s.fld f := fld_of_word (word f.addr)
  have held (d : Fin 2) : t.heldCtx d = s.heldCtx d := by rw [State.heldCtx, cqs, State.heldCtx]
  have use (d : Fin 2) : t.ctxUse d = s.ctxUse d := by rw [State.ctxUse, cmds, held, State.ctxUse]
  have pool (d : Fin 2) : t.ctxPool d = s.ctxPool d := by rw [State.ctxPool, use, fld, State.ctxPool]
  have deadline : t.deadlineOf = s.deadlineOf := funext fun k => by rw [State.deadlineOf, fld, State.deadlineOf]
  have dues (d : Fin 2) : t.ctxDues d = s.ctxDues d := by rw [State.ctxDues, held, cmds, deadline, State.ctxDues]
  constructor
  · unfold State.ctxFree
    rw [use, pool, pool, fld, fld, fld]
  · have holders : t.ctxHolders c = s.ctxHolders c := by simp only [State.ctxHolders, dues, fld]
    rw [State.ctxHint, holders, turn, State.ctxHint]

/-- The fetch of one entry: its queue's turn in the round robin, its context, then the checks. -/
def State.fetchReady (sqid : Nat) : Prop :=
  s.running c = true ∧ s.host.admitStop = false ∧ sqid ≠ 0 ∧ s.sq c sqid = some q ∧ (∃ rest, q.visible = v :: rest) ∧ q.frozen = false ∧
    q.paused = false ∧ s.nextSq c = some sqid ∧ s.fetchedNow c < 2048

/-- The round trip of a fetch is measured. -/
def State.timed (rtt : Nat) : State :=
  s.onHost fun h => { h with rtt := h.rtt.set c (max s.host.rtt[c].1 rtt, if 1024 < rtt then s.host.rtt[c].2 + 1 else s.host.rtt[c].2) }

variable {s c q v} {sqid : Nat} (rtt : Nat)

theorem exec_entryFetch (h : s.fetchReady c q v sqid) (he : s.ctxFree c = true ∨ (s.ctl c).exhausted = true) :
    exec (.entryFetch c sqid [e] rtt) s = .next
      (if s.pauses c q then (s.timed c rtt).onSq c sqid fun x => { x with paused := true }
        else ((s.timed c rtt).countFetch c sqid).takeEntry c q v e) := by
  obtain ⟨hrun, hstop, hn, hq, ⟨rest, hv⟩, hf, hp, hnext, hcount⟩ := h
  have timed : exec (.entryFetch c sqid [e] rtt) s = .next ((s.timed c rtt).fetch c sqid [e]) := by
    show execEntryFetch c sqid [e] rtt s = _
    rw [execEntryFetch, if_neg (by simp [hrun, hstop, hn])]
    rfl
  have exhausted : (s.timed c rtt).exhaust c = s.timed c rtt := by
    have : ((s.timed c rtt).ctxFree c || ((s.timed c rtt).ctl c).exhausted) = true := by
      show (s.ctxFree c || (s.ctl c).exhausted) = true
      simpa using he
    exact if_pos this
  have ready : (q.frozen || q.paused || (s.timed c rtt).nextSq c != some sqid || decide (2048 ≤ (s.timed c rtt).fetchedNow c)) = false := by
    have next : (s.timed c rtt).nextSq c = some sqid := hnext
    have count : (s.timed c rtt).fetchedNow c < 2048 := hcount
    simp [hf, hp, next, count]
  rw [timed, State.fetch, show (s.timed c rtt).sq c sqid = some q from hq]
  dsimp only
  rw [hv]
  dsimp only
  rw [if_neg (by simp [ready]), exhausted]
  rfl

theorem State.countFetch_ctl (s : State) (c : Fin 2) (n : Nat) : ∃ a f, (s.countFetch c n).ctl c = { s.ctl c with arb := a, fetchedIn := f } :=
  ⟨_, _, State.onCtl_ctl_same s c _⟩

theorem State.countFetch_ctl_ne (s : State) {c d : Fin 2} (n : Nat) (h : d ≠ c) : (s.countFetch c n).ctl d = s.ctl d := State.onCtl_ctl_ne s _ h

/-- The state in which the fetched entry is checked: counted, and out of its queue. -/
def State.entryTaken (s : State) (c : Fin 2) (q : Sq) (rtt : Nat) : State := ((s.timed c rtt).countFetch c q.qid).dequeued c q

/-- Counting a fetch leaves the queues. -/
theorem State.counted_queues (s : State) (c d : Fin 2) (n rtt : Nat) :
    (((s.timed c rtt).countFetch c n).ctl d).cqs = (s.ctl d).cqs ∧ ∀ m, ((s.timed c rtt).countFetch c n).sq d m = s.sq d m := by
  by_cases hd : d = c
  · subst hd
    obtain ⟨a, f, h⟩ := (s.timed d rtt).countFetch_ctl d n
    exact ⟨by rw [h]; rfl, State.sq_congr (by rw [h]; rfl) (by rw [h]; rfl)⟩
  · have h : ((s.timed c rtt).countFetch c n).ctl d = s.ctl d := (s.timed c rtt).countFetch_ctl_ne n hd
    exact ⟨by rw [h], State.sq_congr (by rw [h]) (by rw [h])⟩

variable (s c q v) in
theorem State.entryTaken_keeps : Frame [.host] [] s (s.entryTaken c q rtt) ∧ (s.entryTaken c q rtt).host.cmds = s.host.cmds ∧
    (s.entryTaken c q rtt).ctxFree c = s.ctxFree c ∧ (s.entryTaken c q rtt).ctxHint c = s.ctxHint c := by
  have frame : Frame [.host] [] s (s.entryTaken c q rtt) :=
    (((frame_onHost s _).trans (frame_onCtl _ c _)).trans (frame_onSq ((s.timed c rtt).countFetch c q.qid) c q.qid _)).mono (by decide)
  have cmds : (s.entryTaken c q rtt).host.cmds = s.host.cmds := State.onSq_cmds _ c q.qid _
  have cqs (d : Fin 2) : ((s.entryTaken c q rtt).ctl d).cqs = (s.ctl d).cqs := by
    obtain ⟨counted, -⟩ := s.counted_queues c d q.qid rtt
    rw [State.entryTaken, State.dequeued]
    by_cases hd : d = c
    · subst hd
      obtain ⟨a, l, h⟩ := ((s.timed d rtt).countFetch d q.qid).onSq_ctl d q.qid fun x =>
        { x with head := (x.head + 1) % max 1 x.size, visible := x.visible.drop 1 }
      rw [h]
      exact counted
    · rw [State.onSq_ctl_ne _ _ _ _ _ hd]
      exact counted
  exact ⟨frame, cmds, State.ctx_congr c cmds cqs frame.2 (frame.1 .turn (by decide))⟩

/-- The fetched entry has left its queue. -/
theorem sqNow_entryTaken {rest : List (Nat × Nat × Bool × Nat)} (hn : sqid ≠ 0) (hq : s.sq c sqid = some q) (hv : q.visible = v :: rest) :
    sqNow s (s.entryTaken c q rtt) c sqid (some { q with head := (q.head + 1) % max 1 q.size, visible := rest }) := by
  have hid := s.sq_qid c sqid hn hq
  have now := sqNow_onSq ((s.timed c rtt).countFetch c sqid) c (n := sqid)
    (f := fun x => { x with head := (x.head + 1) % max 1 x.size, visible := x.visible.drop 1 }) fun _ => rfl
  rw [(s.counted_queues c c sqid rtt).2, hq] at now
  have taken : some { q with head := (q.head + 1) % max 1 q.size, visible := rest } =
      (some q).map fun x : Sq => { x with head := (x.head + 1) % max 1 x.size, visible := x.visible.drop 1 } := by
    rw [Option.map_some, hv]
    rfl
  rw [taken, State.entryTaken, State.dequeued, hid]
  exact sqNow_of_same now (s.counted_queues c c sqid rtt).2 fun d hd => (s.timed c rtt).countFetch_ctl_ne sqid hd

theorem State.dequeued_check (s : State) (c : Fin 2) (q : Sq) (e : Sqe) : (s.dequeued c q).check c e = s.check c e := by
  unfold State.dequeued State.onSq
  split_ifs <;> rfl

theorem exec_entryFetch_takes (h : s.fetchReady c q v sqid) (he : s.ctxFree c = true ∨ (s.ctl c).exhausted = true)
    (hp : s.pauses c q = false) : exec (.entryFetch c sqid [e] rtt) s = .next
      (let x := s.entryTaken c q rtt
      let k := s.placedCmd c q v e
      if e.poisoned then (x.putCmd (k.ending s.turn St.dataTransfer)).setFld Reg.HGT_EVENT_POISONED 1
      else
        match s.check c e with
        | some st => x.putCmd (k.ending s.turn st)
        | none =>
          if !s.ctxFree c then
            ((x.putCmd (k.ending s.turn (St.refused 9 (s.ctxHint c)))).addFld (Reg.SLU_REFUSE_COUNT 8) 1).onAcct k.cls fun y =>
              { y with refused := y.refused + 1 }
          else if e.opcode = 0x00 ∨ sqeKind e = .unplanned then x.putCmd (k.ending s.turn St.ok)
          else x.putCmd k) := by
  have hid := s.sq_qid c sqid h.2.2.1 h.2.2.2.1
  obtain ⟨-, -, free, hint⟩ := s.entryTaken_keeps c q rtt
  have counted := State.ctx_congr (s := s) (t := (s.timed c rtt).countFetch c q.qid) c rfl (fun d => (s.counted_queues c d q.qid rtt).1)
    (fun _ => rfl) rfl
  have placed : ((s.timed c rtt).countFetch c q.qid).placedCmd c q v e = s.placedCmd c q v e := by
    rw [State.placedCmd, counted.1, State.placedCmd]
    rfl
  have check : ((s.timed c rtt).countFetch c q.qid).check c e = s.check c e := rfl
  rw [exec_entryFetch e rtt h he, if_neg (by simp [hp]), ← hid, State.takeEntry_eq _ c q v e (free.trans counted.1.symm) (hint.trans counted.2.symm) (State.dequeued_check _ c q e)]
  rw [placed, check, counted.1, counted.2]
  rfl

/-- What the command of an entry has from its entry, its queue and its turn. -/
def State.fetchedAs (s : State) (c : Fin 2) (sqid : Nat) (v : Nat × Nat × Bool × Nat) (e : Sqe) (k : Cmd) : Prop :=
  k.ref = ⟨c, sqid, e.cid⟩ ∧ k.sqe = e ∧ k.stamp = v.1 ∧ k.cls = v.2.1 ∧ k.ordered = v.2.2.1 ∧ k.fetched = s.turn ∧ k.order = s.host.order ∧
    k.quoin = (s.ns e.nsid).map fun n => quoinOf n e

theorem State.placedCmd_as (hid : q.qid = sqid) : s.fetchedAs c sqid v e (s.placedCmd c q v e) := by
  subst hid
  unfold State.placedCmd
  split_ifs <;> exact ⟨rfl, rfl, rfl, rfl, rfl, rfl, rfl, rfl⟩

theorem State.placedCmd_phase : (s.placedCmd c q v e).phase = if s.ctxFree c then .fetched else .short := by
  unfold State.placedCmd
  split_ifs <;> rfl

theorem State.placedCmd_outcome : (s.placedCmd c q v e).outcome = none := by
  unfold State.placedCmd
  split_ifs <;> rfl

/-- An entry whose command joins the others, with what its checks give it. -/
theorem entryFetch_puts {rest : List (Nat × Nat × Bool × Nat)} (h : s.fetchReady c q v sqid) (hv : q.visible = v :: rest)
    (k : Cmd) : Frame [.host] [] s ((s.entryTaken c q rtt).putCmd k) ∧
      sqNow s ((s.entryTaken c q rtt).putCmd k) c sqid (some { q with head := (q.head + 1) % max 1 q.size, visible := rest }) ∧
      ((s.entryTaken c q rtt).putCmd k).host.cmds = s.host.cmds ++ [k] := by
  obtain ⟨-, -, hn, hq, -⟩ := h
  obtain ⟨frame, cmds, -⟩ := s.entryTaken_keeps c q rtt
  exact ⟨(frame.trans (frame_onHost _ _)).mono (by decide), sqNow_entryTaken rtt hn hq hv, congrArg (· ++ [k]) cmds⟩

theorem entryFetch_checks {rest : List (Nat × Nat × Bool × Nat)} (h : s.fetchReady c q v sqid) (hv : q.visible = v :: rest)
    (hc : s.ctxFree c = true) (hp : e.poisoned = false) : Does (.entryFetch c sqid [e] rtt) s [.host] [] fun t =>
      sqNow s t c sqid (some { q with head := (q.head + 1) % max 1 q.size, visible := rest }) ∧
      ∃ k, t.host.cmds = s.host.cmds ++ [k] ∧ s.fetchedAs c sqid v e k ∧ k.phase = .fetched ∧ k.outcome =
        match s.check c e with
        | some st => some (st.sct, st.sc, st.dnr, st.dw0)
        | none => if e.opcode = 0 ∨ sqeKind e = .unplanned then some (0, 0, false, 0) else none := by
  have hid := s.sq_qid c sqid h.2.2.1 h.2.2.2.1
  have run := exec_entryFetch_takes e rtt h (.inl hc) (by simp [State.pauses, hc])
  have as := State.placedCmd_as (s := s) (c := c) (v := v) e hid
  have phase : (s.placedCmd c q v e).phase = .fetched := (s.placedCmd_phase e).trans (if_pos hc)
  have puts (k : Cmd) := entryFetch_puts rtt h hv k
  simp only [hp, hc, Bool.not_true, Bool.false_eq_true, if_false] at run
  cases check : s.check c e with
  | some st =>
    rw [check] at run
    obtain ⟨frame, now, cmds⟩ := puts ((s.placedCmd c q v e).ending s.turn st)
    exact does_of run frame ⟨now, _, cmds, as, phase, rfl⟩
  | none =>
    rw [check] at run
    dsimp only at run
    by_cases unplanned : e.opcode = 0 ∨ sqeKind e = .unplanned
    · rw [if_pos unplanned] at run
      obtain ⟨frame, now, cmds⟩ := puts ((s.placedCmd c q v e).ending s.turn St.ok)
      exact does_of run frame ⟨now, _, cmds, as, phase, (if_pos unplanned).symm⟩
    · rw [if_neg unplanned] at run
      obtain ⟨frame, now, cmds⟩ := puts (s.placedCmd c q v e)
      exact does_of run frame ⟨now, _, cmds, as, phase, (s.placedCmd_outcome e).trans (if_neg unplanned).symm⟩

theorem entryFetch_poisoned {rest : List (Nat × Nat × Bool × Nat)} (h : s.fetchReady c q v sqid) (hv : q.visible = v :: rest)
    (hc : s.ctxFree c = true) (hp : e.poisoned = true) : Does (.entryFetch c sqid [e] rtt) s [.host] [(Reg.HGT_EVENT_POISONED, 1)] fun t =>
      ∃ k, t.host.cmds = s.host.cmds ++ [k] ∧ s.fetchedAs c sqid v e k ∧ k.outcome = some (0, 4, false, 0) := by
  have hid := s.sq_qid c sqid h.2.2.1 h.2.2.2.1
  have run := exec_entryFetch_takes e rtt h (.inl hc) (by simp [State.pauses, hc])
  rw [if_pos hp] at run
  obtain ⟨frame, -, cmds⟩ := entryFetch_puts rtt h hv ((s.placedCmd c q v e).ending s.turn St.dataTransfer)
  exact does_of run ((frame.trans (frame_setFld _ _ _)).mono (by decide)) ⟨_, cmds, State.placedCmd_as e hid, rfl⟩

theorem entryFetch_refused {rest : List (Nat × Nat × Bool × Nat)} (h : s.fetchReady c q v sqid) (hv : q.visible = v :: rest)
    (hc : s.ctxFree c = false) (hl : s.level c ≠ 0) (hcls : v.2.1 ≠ 7) (he : (s.ctl c).exhausted = true) (hp : e.poisoned = false) :
    (s.check c e = none → Does (.entryFetch c sqid [e] rtt) s [.host, .sluice] [plus s (Reg.SLU_REFUSE_COUNT 8) 1] fun t =>
      ∃ k, t.host.cmds = s.host.cmds ++ [k] ∧ s.fetchedAs c sqid v e k ∧ k.phase = .short ∧ k.outcome = some (7, 0x80, false, s.ctxHint c + 9 * 2 ^ 16)) ∧
    (∀ st, s.check c e = some st → Does (.entryFetch c sqid [e] rtt) s [.host] [] fun t =>
      ∃ k, t.host.cmds = s.host.cmds ++ [k] ∧ s.fetchedAs c sqid v e k ∧ k.phase = .short ∧ k.outcome = some (st.sct, st.sc, st.dnr, st.dw0)) := by
  have hid := s.sq_qid c sqid h.2.2.1 h.2.2.2.1
  have run := exec_entryFetch_takes e rtt h (.inr he) (by simp [State.pauses, hl, hv, hcls])
  have as := State.placedCmd_as (s := s) (c := c) (v := v) e hid
  have phase : (s.placedCmd c q v e).phase = .short := (s.placedCmd_phase e).trans (if_neg (by simp [hc]))
  have puts (k : Cmd) := entryFetch_puts rtt h hv k
  simp only [hp, hc, Bool.not_false, Bool.false_eq_true, if_false, if_true] at run
  refine ⟨fun check => ?_, fun st check => ?_⟩ <;> rw [check] at run
  · obtain ⟨frame, -, cmds⟩ := puts ((s.placedCmd c q v e).ending s.turn (St.refused 9 (s.ctxHint c)))
    have counts : plus ((s.entryTaken c q rtt).putCmd ((s.placedCmd c q v e).ending s.turn (St.refused 9 (s.ctxHint c)))) (Reg.SLU_REFUSE_COUNT 8) 1 =
        plus s (Reg.SLU_REFUSE_COUNT 8) 1 := by
      rw [plus, fld_of_word (frame.2 _), plus]
    have refused := (frame.trans (frame_addFld _ (Reg.SLU_REFUSE_COUNT 8) 1)).trans
      (frame_onSluice _ fun x => { x with acct := vupd x.acct (Fin.ofNat 8 (s.placedCmd c q v e).cls) fun y => { y with refused := y.refused + 1 } })
    rw [counts] at refused
    exact does_of run (refused.mono (by decide)) ⟨_, cmds, as, phase, rfl⟩
  · obtain ⟨frame, -, cmds⟩ := puts ((s.placedCmd c q v e).ending s.turn st)
    exact does_of run frame ⟨_, cmds, as, phase, rfl⟩

theorem entryFetch_pauses (h : s.fetchReady c q v sqid) (hc : s.ctxFree c = false) (hl : s.level c = 0 ∨ v.2.1 = 7) (he : (s.ctl c).exhausted = true) :
    Does (.entryFetch c sqid [e] rtt) s [.host] [] fun t => t.host.cmds = s.host.cmds ∧ sqNow s t c sqid (some { q with paused := true }) := by
  obtain ⟨rest, hv⟩ := h.2.2.2.2.1
  have run := exec_entryFetch e rtt h (.inr he)
  rw [if_pos (by rcases hl with hl | hl <;> simp [State.pauses, hc, hl, hv])] at run
  have now := sqNow_onSq (s.timed c rtt) c (n := sqid) (f := fun q => { q with paused := true }) fun _ => rfl
  rw [show (s.timed c rtt).sq c sqid = some q from h.2.2.2.1] at now
  exact does_of run (((frame_onHost s _).trans (frame_onSq _ c _ _)).mono (by decide)) ⟨State.onSq_cmds _ c _ _, now⟩

end

/-! ### Fetching resumes, and held interrupts are sent (R56, R61) -/

section
variable (s : State) (c : Fin 2)

theorem fetchResumeOnContext_resumes (h : s.ctxFree c = true) : Does (.fetchResumeOnContext c) s [.host] [] fun t =>
    t.ctl c = { s.ctl c with sqs := (s.ctl c).sqs.map fun q => { q with paused := false } } ∧ t.host.cmds = s.host.cmds :=
  does_of (congrArg Host.Outcome.next (if_pos h) : exec (.fetchResumeOnContext c) s = _) (frame_onCtl s c _) ⟨State.onCtl_ctl_same s c _, rfl⟩

theorem fetchResumeOnContext_none (h : s.ctxFree c = false) : exec (.fetchResumeOnContext c) s = .next s :=
  congrArg Host.Outcome.next (if_neg (by simp [h]))

theorem interruptCoalescingExpiry_sends {v n : Nat} (h : klook v (s.ctl c).coalesced = some n) :
    Does (.interruptCoalescingExpiry c v) s [.host] [] fun t =>
      v ∈ (t.ctl c).msix ∧ klook v (t.ctl c).coalesced = none ∧ t.host.cmds = s.host.cmds := by
  have run : exec (.interruptCoalescingExpiry c v) s = .next (s.sendMsix c v) := by
    show execInterruptCoalescingExpiry c v s = _
    rw [execInterruptCoalescingExpiry, h]
  refine does_of run (frame_onCtl s c _) ⟨?_, ?_, rfl⟩ <;> rw [State.sendMsix, State.onCtl_ctl_same]
  · dsimp only
    split_ifs with sent
    · simpa using sent
    · exact List.mem_cons_self
  · exact klook_kdel_self v _

theorem interruptCoalescingExpiry_none {v : Nat} (h : klook v (s.ctl c).coalesced = none) : exec (.interruptCoalescingExpiry c v) s = .next s := by
  show execInterruptCoalescingExpiry c v s = _
  rw [execInterruptCoalescingExpiry, h]

end

/-- Settles O43: doorbells by the observed tail and the head taken at the edge, fetches by the entry out of its queue. -/
theorem queuesFollowTheirDoorbells : Obligations.QueuesFollowTheirDoorbells := by
  unfold Obligations.QueuesFollowTheirDoorbells
  intro s c hr
  refine ⟨fun n q v hn hq => ⟨fun hl hv hf hk hm he => sqTailDoorbell_observes hr hn hq hl hv hf hk hm he,
      fun hl hv hf hk hm he => sqTailDoorbell_wakes hr hn hq hl hv hf hk hm he, fun hl hf => sqTailDoorbell_stores hr hq hl hf,
      fun hl hv hf hk => sqTailDoorbell_ignores hr hn hq hl hv hf hk⟩,
    fun b hb hh => bellTurn_reports s c hb hh, fun n v hq => cqHeadDoorbell_unknown s c hr hq,
    fun n q v hq hid => ⟨cqHeadDoorbell_stands s c hr hq, fun hv => ⟨fun hn hh => takeHead_empty s c hq hid hv hn hh,
      fun x hn hh hroom => takeHead_posts s c hq hid hv hn hh hroom, fun hn => hid ▸ takeHead_invalid s c hn⟩⟩,
    fun sqid q v rest e rtt hstop hn hq hv hf hp hnext hcount => ?_,
    fetchResumeOnContext_resumes s c, fetchResumeOnContext_none s c, fun v n => interruptCoalescingExpiry_sends s c,
    fun v => interruptCoalescingExpiry_none s c⟩
  have ready : s.fetchReady c q v sqid := ⟨hr, hstop, hn, hq, ⟨rest, hv⟩, hf, hp, hnext, hcount⟩
  exact ⟨entryFetch_checks e rtt ready hv, entryFetch_poisoned e rtt ready hv, entryFetch_refused e rtt ready hv, entryFetch_pauses e rtt ready⟩

end Sys2Proof.Machine
end

section
/-! Commands on queues, aborts and event requests of an admin queue (R53, R57, R60, R62, R71, R72, R75, R77), and O44. -/

namespace Sys2Proof.Machine

open Sys2Proof.Safety

section
variable {s : State} {a : Adm} {c : Fin 2} (h : hgTakes s a c)
include h

/-! ### An answer on the command's own queue -/

theorem hgTakes.size : (s.ctl c).adminCq.size ≠ 0 := by
  obtain ⟨hpath, -, hwhole, -⟩ := h
  exact whole.size hwhole c hpath

/-- An answer from a state that has the command's admin queue as it was. -/
theorem answered_queue {u : State} {P : List Part} {st : Status} (data : List Bytes) (hf : Frame P [] s u) (hP : Part.turn ∉ P ∧ Part.mgmt ∉ P)
    (hcq : (u.ctl c).adminCq = (s.ctl c).adminCq) (hsq : (u.ctl c).adminSq.head = (s.ctl c).adminSq.head) (hk : st.kept) :
    Frame (P ++ [.host]) [] s (u.reply a st data) ∧ Answers u (u.reply a st data) ∧ replied s (u.reply a st data) a st data := by
  have hpath := h.1
  have hsize : (u.ctl c).adminCq.size ≠ 0 := by rw [hcq]; exact hgTakes.size h
  have only {d : Fin 2} (hd : admCtrl a.path = some d) : d = c := Option.some.inj (hd.symm.trans hpath)
  have replies : u.mgmt.replies = s.mgmt.replies := by
    have : { u.mgmt with log := s.mgmt.log, logDropped := s.mgmt.logDropped } = s.mgmt := hf.1 .mgmt hP.2
    rw [← this]
  refine ⟨(hf.trans (frame_reply_queue u a st data hpath hsize hk)), answers_reply u a st data hk, ?_⟩
  refine replied_of_same a st data (hf.1 .turn hP.1) replies (fun d hd => ?_) (replied_reply u a st data (fun d hd => ?_) hk)
  · rw [only hd]
    exact ⟨hcq, hsq⟩
  · rw [only hd]
    exact hsize

/-- As `answered_queue`, from a controller changed outside its admin queues. -/
theorem answered_onCtl {f : Controller → Controller} {st : Status} (data : List Bytes) (hcq : (f (s.ctl c)).adminCq = (s.ctl c).adminCq)
    (hsq : (f (s.ctl c)).adminSq.head = (s.ctl c).adminSq.head) (hk : st.kept) :
    Frame [.host] [] s ((s.onCtl c f).reply a st data) ∧ Answers (s.onCtl c f) ((s.onCtl c f).reply a st data) ∧
      replied s ((s.onCtl c f).reply a st data) a st data := by
  obtain ⟨frame, answers, replied⟩ := answered_queue h data (frame_onCtl s c f) (by decide) (by rw [State.onCtl_ctl_same, hcq])
    (by rw [State.onCtl_ctl_same, hsq]) hk
  exact ⟨frame.mono (by decide), answers, replied⟩

/-- As `answered_queue`, from the state in which the command comes. -/
theorem answered_same {st : Status} (data : List Bytes) (hk : st.kept) :
    Frame [.host] [] s (s.reply a st data) ∧ Answers s (s.reply a st data) ∧ replied s (s.reply a st data) a st data := by
  obtain ⟨frame, answers, replied⟩ := answered_queue h data (Frame.refl s) (by decide) rfl rfl hk
  exact ⟨frame, answers, replied⟩

/-! ### Queues made (R62) -/

theorem exec_createIoCq (qid size vector : Nat) (pc ien : Bool) :
    exec (.createIoCq a qid size vector pc ien) s = .next (s.createCq c a qid size vector pc ien) := by
  show execCreateIoCq a qid size vector pc ien s = _
  rw [execCreateIoCq, State.admin_hgTakes _ h, h.1]

theorem exec_createIoSq (qid size cqid : Nat) (pc : Bool) : exec (.createIoSq a qid size cqid pc) s = .next (s.createSq c a qid size cqid pc) := by
  show execCreateIoSq a qid size cqid pc s = _
  rw [execCreateIoSq, State.admin_hgTakes _ h, h.1]

theorem createIoCq_makes {qid size vector : Nat} (h1 : 1 ≤ qid) (h2 : qid ≤ 8192) (hq : s.cq c qid = none) (h3 : 1 ≤ size) (h4 : size < 65536)
    (h5 : vector < 8192) (ien : Bool) : Does (.createIoCq a qid size vector true ien) s [.host] [] fun t =>
      (t.ctl c).cqs = (s.ctl c).cqs ++ [{ qid := qid, size := size + 1, vector := vector, ien := ien }] ∧ (t.ctl c).sqs = (s.ctl c).sqs ∧
        replied s t a St.ok [] := by
  have made : s.createCq c a qid size vector true ien =
      (s.onCtl c fun x => { x with cqs := x.cqs ++ [{ qid := qid, size := size + 1, vector := vector, ien := ien }] }).reply a St.ok [] := by
    rw [State.createCq, if_neg (by simp), if_neg (by simp [hq]; omega), if_neg (by simp; omega), if_neg (by omega)]
  obtain ⟨frame, answers, replied⟩ := answered_onCtl h (f := fun x =>
    { x with cqs := x.cqs ++ [{ qid := qid, size := size + 1, vector := vector, ien := ien }] }) (st := St.ok) [] rfl rfl (.inl rfl)
  refine does_of ((exec_createIoCq h ..).trans (congrArg _ made)) frame ⟨?_, ?_, replied⟩
  · rw [answers.field (·.cqs) fun _ _ _ _ => rfl, State.onCtl_ctl_same]
  · rw [answers.field (·.sqs) fun _ _ _ _ => rfl, State.onCtl_ctl_same]

theorem createIoCq_refuses {qid : Nat} (hq : qid = 0 ∨ 8192 < qid ∨ (s.cq c qid).isSome) (size vector : Nat) (ien : Bool) :
    Does (.createIoCq a qid size vector true ien) s [.host] [] fun t => (t.ctl c).cqs = (s.ctl c).cqs ∧ replied s t a St.invalidQueue [] := by
  have refused : s.createCq c a qid size vector true ien = s.reply a St.invalidQueue [] := by
    rw [State.createCq, if_neg (by simp), if_pos (by simpa [or_assoc] using hq)]
  obtain ⟨frame, answers, replied⟩ := answered_same h (st := St.invalidQueue) [] (.inr rfl)
  exact does_of ((exec_createIoCq h ..).trans (congrArg _ refused)) frame ⟨answers.field (·.cqs) (fun _ _ _ _ => rfl) c, replied⟩

theorem createIoSq_makes {qid size cqid : Nat} (h1 : 1 ≤ qid) (h2 : qid ≤ 8192) (hq : s.sq c qid = none) (h3 : 1 ≤ size) (h4 : size < 65536)
    (h5 : cqid ≠ 0) (h6 : (s.cq c cqid).isSome) : Does (.createIoSq a qid size cqid true) s [.host] [] fun t =>
      (t.ctl c).sqs = (s.ctl c).sqs ++ [{ qid := qid, size := size + 1, cqid := cqid }] ∧ (t.ctl c).cqs = (s.ctl c).cqs ∧
        replied s t a St.ok [] := by
  have made : s.createSq c a qid size cqid true =
      (s.onCtl c fun x => { x with sqs := x.sqs ++ [{ qid := qid, size := size + 1, cqid := cqid }] }).reply a St.ok [] := by
    rw [State.createSq, if_neg (by simp), if_neg (by simp_all [Option.isSome_iff_ne_none]), if_neg (by simp [hq]; omega), if_neg (by simp; omega)]
  obtain ⟨frame, answers, replied⟩ := answered_onCtl h (f := fun x =>
    { x with sqs := x.sqs ++ [{ qid := qid, size := size + 1, cqid := cqid }] }) (st := St.ok) [] rfl rfl (.inl rfl)
  refine does_of ((exec_createIoSq h ..).trans (congrArg _ made)) frame ⟨?_, ?_, replied⟩
  · rw [answers.field (·.sqs) fun _ _ _ _ => rfl, State.onCtl_ctl_same]
  · rw [answers.field (·.cqs) fun _ _ _ _ => rfl, State.onCtl_ctl_same]

theorem createIoSq_refuses {cqid : Nat} (hq : cqid = 0 ∨ s.cq c cqid = none) (qid size : Nat) :
    Does (.createIoSq a qid size cqid true) s [.host] [] fun t => (t.ctl c).sqs = (s.ctl c).sqs ∧ replied s t a St.invalidCq [] := by
  have refused : s.createSq c a qid size cqid true = s.reply a St.invalidCq [] := by
    rw [State.createSq, if_neg (by simp), if_pos (by simpa using hq)]
  obtain ⟨frame, answers, replied⟩ := answered_same h (st := St.invalidCq) [] (.inr rfl)
  exact does_of ((exec_createIoSq h ..).trans (congrArg _ refused)) frame ⟨answers.field (·.sqs) (fun _ _ _ _ => rfl) c, replied⟩

/-! ### Queues deleted (R53, R62) -/

omit h in
/-- A search by key in a list from which one key has been taken. -/
theorem find?_filter_ne {α : Type} (l : List α) (key : α → Nat) (n m : Nat) :
    (l.filter fun x => key x != n).find? (fun x => key x == m) = if m = n then none else l.find? fun x => key x == m := by
  rw [List.find?_filter]
  split_ifs with hm
  · exact List.find?_eq_none.2 fun x _ => by simp [hm]
  · refine congrArg (List.find? · l) (funext fun x => ?_)
    by_cases hx : key x = m
    · simp [hx, hm]
    · simp [hx]

theorem exec_deleteIoSq (qid : Nat) : exec (.deleteIoSq a qid) s = .next (s.deleteSq c a qid) := by
  show execDeleteIoSq a qid s = _
  rw [execDeleteIoSq, State.admin_hgTakes _ h, h.1]

theorem exec_deleteIoCq (qid : Nat) : exec (.deleteIoCq a qid) s = .next (s.deleteCq c a qid) := by
  show execDeleteIoCq a qid s = _
  rw [execDeleteIoCq, State.admin_hgTakes _ h, h.1]

omit h in
/-- A controller without one of its submission queues, and without the freezes of it. -/
def State.withoutSq (s : State) (c : Fin 2) (qid : Nat) : State :=
  (s.abandon fun k => k.ref.ctrl == c && k.ref.sqid == qid).onCtl c fun x =>
    { x with sqs := x.sqs.filter (fun q => q.qid != qid), freezes := x.freezes.filter fun f => f.sqid != qid }

theorem deleteIoSq_deletes {qid : Nat} (h0 : qid ≠ 0) (hq : (s.sq c qid).isSome) : Changes (.deleteIoSq a qid) s [.host, .sluice, .galley] [] fun t =>
    t.sq c qid = none ∧ (∀ n, n ≠ qid → t.sq c n = s.sq c n) ∧ (∀ f ∈ (t.ctl c).freezes, f.sqid ≠ qid) ∧
      (∀ k ∈ t.host.cmds, k.ref.ctrl = c → k.ref.sqid = qid → k.discard = true) ∧ replied s t a St.ok [] := by
  have deleted : s.deleteSq c a qid = (s.withoutSq c qid).reply a St.ok [] := by
    rw [State.deleteSq, if_neg (by simp_all [Option.isSome_iff_ne_none])]
    rfl
  have ctl : (s.withoutSq c qid).ctl c = { s.ctl c with
      sqs := (s.ctl c).sqs.filter (fun q => q.qid != qid), freezes := (s.ctl c).freezes.filter fun f => f.sqid != qid } := by
    rw [State.withoutSq, State.onCtl_ctl_same, State.abandon_ctl]
  have frame : Frame [.host, .sluice, .galley, .host] [] s (s.withoutSq c qid) := (frame_abandon s _).trans (frame_onCtl _ c _)
  obtain ⟨frame, answers, replied⟩ := answered_queue h (st := St.ok) [] frame (by decide) (by rw [ctl]) (by rw [ctl]) (.inl rfl)
  have sq (n : Nat) (hn : n ≠ 0) : ((s.withoutSq c qid).reply a St.ok []).sq c n = if n = qid then none else s.sq c n := by
    rw [answers.sq, State.sq_pos _ _ _ hn, ctl, s.sq_pos c n hn]
    exact find?_filter_ne _ _ _ _
  refine changes_of ((exec_deleteIoSq h qid).trans (congrArg _ deleted)) (within_of_frame frame (by decide) (List.forall_mem_nil _))
    ⟨(sq qid h0).trans (if_pos rfl), fun n hn => ?_, ?_, fun k hk hc hs => ?_, replied⟩
  · by_cases n0 : n = 0
    · rw [n0, answers.sq, State.sq_zero, ctl, State.sq_zero]
    · exact (sq n n0).trans (if_neg hn)
  · rw [answers.field (·.freezes) fun _ _ _ _ => rfl, ctl]
    intro f hf
    simpa using (List.mem_filter.1 hf).2
  · rw [answers.cmds] at hk
    exact s.abandon_discards (fun r => r.ctrl == c && r.sqid == qid) k hk (by simp [hc, hs])

theorem deleteIoCq_deletes {qid : Nat} (h0 : qid ≠ 0) (hq : (s.cq c qid).isSome) (free : ∀ q ∈ (s.ctl c).sqs, q.cqid ≠ qid) :
    Does (.deleteIoCq a qid) s [.host] [] fun t => t.cq c qid = none ∧ replied s t a St.ok [] := by
  have deleted : s.deleteCq c a qid = (s.onCtl c fun x => { x with cqs := x.cqs.filter fun q => q.qid != qid }).reply a St.ok [] := by
    rw [State.deleteCq, if_neg (by simp_all [Option.isSome_iff_ne_none]), if_neg (by simpa using free)]
  obtain ⟨frame, answers, replied⟩ := answered_onCtl h (f := fun x => { x with cqs := x.cqs.filter fun q => q.qid != qid }) (st := St.ok) []
    rfl rfl (.inl rfl)
  refine does_of ((exec_deleteIoCq h qid).trans (congrArg _ deleted)) frame ⟨?_, replied⟩
  rw [State.cq_pos _ _ _ h0, answers.field (·.cqs) fun _ _ _ _ => rfl, State.onCtl_ctl_same]
  exact (find?_filter_ne _ _ _ _).trans (if_pos rfl)

theorem deleteIoCq_refuses {qid : Nat} (h0 : qid ≠ 0) (hq : (s.cq c qid).isSome) (used : ∃ q ∈ (s.ctl c).sqs, q.cqid = qid) :
    Does (.deleteIoCq a qid) s [.host] [] fun t => (t.ctl c).cqs = (s.ctl c).cqs ∧ replied s t a St.invalidDeletion [] := by
  have refused : s.deleteCq c a qid = s.reply a St.invalidDeletion [] := by
    rw [State.deleteCq, if_neg (by simp_all [Option.isSome_iff_ne_none]), if_pos (by simpa using used)]
  obtain ⟨frame, answers, replied⟩ := answered_same h (st := St.invalidDeletion) [] (.inr rfl)
  exact does_of ((exec_deleteIoCq h qid).trans (congrArg _ refused)) frame ⟨answers.field (·.cqs) (fun _ _ _ _ => rfl) c, replied⟩

/-! ### A frozen queue restarted (R75, R77) -/

theorem exec_queueRestart (sqid seq : Nat) : exec (.queueRestart a sqid seq) s = .next (s.restartSq c a sqid seq) := by
  show execQueueRestart a sqid seq s = _
  rw [execQueueRestart, State.admin_hgTakes _ h, h.1]

theorem queueRestart_unlevelled {sqid : Nat} (hl : s.level c < 2) (seq : Nat) : Does (.queueRestart a sqid seq) s [.host] [] fun t =>
    t.sq c sqid = s.sq c sqid ∧ replied s t a St.invalidOpcode [] := by
  have refused : s.restartSq c a sqid seq = s.reply a St.invalidOpcode [] := if_pos hl
  obtain ⟨frame, answers, replied⟩ := answered_same h (st := St.invalidOpcode) [] (.inr rfl)
  exact does_of ((exec_queueRestart h sqid seq).trans (congrArg _ refused)) frame ⟨by rw [answers.sq], replied⟩

theorem queueRestart_unfrozen {sqid : Nat} {q : Sq} (hl : 2 ≤ s.level c) (h0 : sqid ≠ 0) (hq : s.sq c sqid = some q) (hf : q.frozen = false)
    (seq : Nat) : Does (.queueRestart a sqid seq) s [.host] [] fun t => t.sq c sqid = some q ∧ replied s t a St.sequence [] := by
  have refused : s.restartSq c a sqid seq = s.reply a St.sequence [] := by
    rw [State.restartSq, if_neg (by omega), if_neg h0, hq]
    exact if_pos (by simp [hf])
  obtain ⟨frame, answers, replied⟩ := answered_same h (st := St.sequence) [] (.inr rfl)
  exact does_of ((exec_queueRestart h sqid seq).trans (congrArg _ refused)) frame ⟨by rw [answers.sq, hq], replied⟩

omit h in
/-- A queue whose freeze has ended. -/
def State.thawed (s : State) (c : Fin 2) (sqid : Nat) : State := s.onSq c sqid fun q => { q with frozen := false, storedTail := none }

omit h in
/-- The records of a queue's freezes have been read. -/
def State.recordsRead (s : State) (c : Fin 2) (sqid : Nat) : State :=
  s.onCtl c fun x => { x with freezes := x.freezes.filter (fun f => f.sqid != sqid), freezeGen := x.freezeGen + 1 }

omit h in
theorem State.restartSq_frozen {sqid : Nat} {q : Sq} (hl : 2 ≤ s.level c) (h0 : sqid ≠ 0) (hq : s.sq c sqid = some q) (hf : q.frozen = true)
    {seq : Nat} (hr : ∃ f ∈ (s.ctl c).freezes, f.sqid = sqid ∧ f.seq = seq) : s.restartSq c a sqid seq =
      ((match q.storedTail with | some v => (s.thawed c sqid).observeTail c q v | none => s.thawed c sqid).recordsRead c sqid).reply a St.ok [] := by
  rw [State.restartSq, if_neg (by omega), if_neg h0, hq]
  have recorded : ((s.ctl c).freezes.any fun f => f.sqid == sqid && f.seq == seq) = true := by simpa using hr
  exact (if_neg (by simp [hf])).trans (if_neg (by simp [recorded]))

/-- The end of a restart, from a queue as the thaw and its stored tail leave it. -/
theorem restart_ends {sqid : Nat} {u : State} {p : Option Sq} (hu : Frame [.host] [] s u)
    (hctl : ∃ l x m, u.ctl c = { s.ctl c with badBells := l, adminSq := x, sqs := m }) (hsq : u.sq c 0 = s.sq c 0) (hp : u.sq c sqid = p) :
    Frame [.host] [] s ((u.recordsRead c sqid).reply a St.ok []) ∧ ((u.recordsRead c sqid).reply a St.ok []).sq c sqid = p ∧
      (∀ f ∈ (((u.recordsRead c sqid).reply a St.ok []).ctl c).freezes, f.sqid ≠ sqid) ∧
      (((u.recordsRead c sqid).reply a St.ok []).ctl c).freezeGen = (s.ctl c).freezeGen + 1 ∧
      replied s ((u.recordsRead c sqid).reply a St.ok []) a St.ok [] := by
  obtain ⟨l, x, m, ctl⟩ := hctl
  have same : (u.recordsRead c sqid).ctl c = { u.ctl c with freezes := (u.ctl c).freezes.filter (fun f => f.sqid != sqid), freezeGen := (u.ctl c).freezeGen + 1 } :=
    State.onCtl_ctl_same u c _
  have head : (u.ctl c).adminSq = (s.ctl c).adminSq := by
    rw [State.sq_zero, State.sq_zero] at hsq
    exact Option.some.inj hsq
  have read : Frame [.host, .host] [] s (u.recordsRead c sqid) := hu.trans (frame_onCtl u c _)
  obtain ⟨frame, answers, replied⟩ := answered_queue h (st := St.ok) [] read (by decide) (by rw [same, ctl]) (by rw [same, ← head]) (.inl rfl)
  refine ⟨frame.mono (by decide), ?_, ?_, ?_, replied⟩
  · rw [← hp]
    exact (congrFun (answers.sq c) sqid).trans (State.sq_congr (by rw [same]) (by rw [same]) sqid)
  · intro f hf
    have hf' : f ∈ (u.ctl c).freezes.filter fun f => f.sqid != sqid := by
      rwa [show (((u.recordsRead c sqid).reply a St.ok []).ctl c).freezes = _ from answers.field (·.freezes) (fun _ _ _ _ => rfl) c, same] at hf
    simpa using (List.mem_filter.1 hf').2
  · rw [show (((u.recordsRead c sqid).reply a St.ok []).ctl c).freezeGen = _ from answers.field (·.freezeGen) (fun _ _ _ _ => rfl) c, same, ctl]

/-- What a restart leaves of the records, and its answer. -/
def restarted (s : State) (c : Fin 2) (sqid : Nat) (a : Adm) (t : State) : Prop :=
  (∀ f ∈ (t.ctl c).freezes, f.sqid ≠ sqid) ∧ (t.ctl c).freezeGen = (s.ctl c).freezeGen + 1 ∧ replied s t a St.ok []

variable {sqid seq : Nat} {q : Sq} (hl : 2 ≤ s.level c) (h0 : sqid ≠ 0) (hq : s.sq c sqid = some q) (hf : q.frozen = true)
  (hr : ∃ f ∈ (s.ctl c).freezes, f.sqid = sqid ∧ f.seq = seq)

omit h in
include hq in
theorem State.thawed_keeps : Frame [.host] [] s (s.thawed c sqid) ∧ sqNow s (s.thawed c sqid) c sqid (some { q with frozen := false, storedTail := none }) ∧
    ∃ x m, (s.thawed c sqid).ctl c = { s.ctl c with adminSq := x, sqs := m } := by
  have now := sqNow_onSq s c (n := sqid) (f := fun q => { q with frozen := false, storedTail := none }) fun _ => rfl
  rw [hq] at now
  exact ⟨frame_onSq s c sqid _, now, s.onSq_ctl c sqid _⟩

include hl h0 hq hf hr

theorem queueRestart_thaws (hs : q.storedTail = none) : Does (.queueRestart a sqid seq) s [.host] [] fun t =>
    t.sq c sqid = some { q with frozen := false } ∧ restarted s c sqid a t := by
  obtain ⟨frame, ⟨now, others, -⟩, x, m, ctl⟩ := State.thawed_keeps hq
  have run := exec_queueRestart h sqid seq
  rw [State.restartSq_frozen hl h0 hq hf hr, hs] at run
  obtain ⟨frame, sq, gone, gen, replied⟩ := restart_ends h frame ⟨_, x, m, ctl⟩ (others 0 h0.symm) now
  refine does_of run frame ⟨sq.trans ?_, gone, gen, replied⟩
  rw [← hs]

theorem queueRestart_observes {v : Nat} (hs : q.storedTail = some v) (hv : v < q.size) (hk : (q.older s.turn).length ≤ q.used v)
    (hm : s.power.mode ≠ .conserve) (he : s.power.entry = none) : Does (.queueRestart a sqid seq) s [.host] [] fun t =>
      t.sq c sqid = some { q with frozen := false, storedTail := none, tail := v
                                  visible := q.older s.turn ++ stampNew s q (q.used v - (q.older s.turn).length) } ∧ restarted s c sqid a t := by
  obtain ⟨frame, ⟨now, others, -⟩, x, m, ctl⟩ := State.thawed_keeps hq
  have run := exec_queueRestart h sqid seq
  rw [State.restartSq_frozen hl h0 hq hf hr, hs] at run
  have turn : (s.thawed c sqid).turn = s.turn := s.onSq_turn c sqid _
  have power : (s.thawed c sqid).power = s.power := s.onSq_power c sqid _
  obtain ⟨oframe, ⟨onow, oothers, -⟩, -, l, y, z, octl⟩ :=
    (s.thawed c sqid).observeTail_observes c hv (by rw [turn]; exact hk) (by rw [power]; exact hm) (by rw [power]; exact he)
  rw [s.sq_qid c sqid h0 hq] at onow oothers
  rw [now, turn] at onow
  obtain ⟨frame, sq, gone, gen, replied⟩ := restart_ends h ((frame.trans oframe).mono (by decide)) ⟨l, y, z, by rw [octl, ctl]⟩
    ((oothers 0 h0.symm).trans (others 0 h0.symm)) onow
  refine does_of run frame ⟨sq.trans ?_, gone, gen, replied⟩
  have stamps : stampNew s q = fun n => List.replicate n (s.turn, q.cls, q.ordered, 0) := funext fun n => by
    simp [stampNew, State.extension, hm]
  rw [stamps]
  rfl

end

/-! ### Abort (R71, R72) -/

section
variable {s : State} {a : Adm} {c : Fin 2} (h : hgTakes s a c) {sqid cid : Nat} (h0 : sqid ≠ 0)
include h

theorem exec_abort (sqid cid : Nat) : exec (.abort a sqid cid) s = .next (s.abortCmd c a sqid cid) := by
  show execAbort a sqid cid s = _
  rw [execAbort, State.admin_hgTakes _ h, h.1]

theorem abort_limited (hl : 64 ≤ (s.ctl c).aborts.length) (sqid cid : Nat) : Does (.abort a sqid cid) s [.host] [] fun t =>
    t.host.cmds = s.host.cmds ∧ replied s t a St.abortLimit [] := by
  have refused : s.abortCmd c a sqid cid = s.reply a St.abortLimit [] := if_pos hl
  obtain ⟨frame, answers, replied⟩ := answered_same h (st := St.abortLimit) [] (.inr rfl)
  exact does_of ((exec_abort h sqid cid).trans (congrArg _ refused)) frame ⟨answers.cmds, replied⟩

include h0 in
theorem exec_abort_missing (hl : (s.ctl c).aborts.length < 64) (hk : s.cmd ⟨c, sqid, cid⟩ = none) :
    exec (.abort a sqid cid) s = .next (s.abortLater c a none 1) := by
  rw [exec_abort h, State.abortCmd, if_neg (Nat.not_le.2 hl), if_neg h0, hk]

include h0 in
theorem exec_abort_found (hl : (s.ctl c).aborts.length < 64) {k : Cmd} (hk : s.cmd ⟨c, sqid, cid⟩ = some k) :
    exec (.abort a sqid cid) s = .next (s.abortIo c a k) := by
  rw [exec_abort h, State.abortCmd, if_neg (Nat.not_le.2 hl), if_neg h0, hk]

omit h in
/-- The Abort waits: nothing else has changed. -/
theorem abortLater_waits (s : State) (c : Fin 2) (a : Adm) (target : Option (CmdRef × Nat)) (bit : Nat) :
    (s.abortLater c a target bit).ctl c = { s.ctl c with aborts := (s.ctl c).aborts ++ [⟨a, target, bit, s.turn⟩] } :=
  State.onCtl_ctl_same s c _

include h0 in
theorem abort_unknown (hl : (s.ctl c).aborts.length < 64) (hk : s.cmd ⟨c, sqid, cid⟩ = none) : Does (.abort a sqid cid) s [.host] [] fun t =>
    t.host.cmds = s.host.cmds ∧ t.ctl c = { s.ctl c with aborts := (s.ctl c).aborts ++ [⟨a, none, 1, s.turn⟩] } := by
  exact does_of (exec_abort_missing h h0 hl hk) (frame_onCtl s c _) ⟨rfl, abortLater_waits s c a none 1⟩

include h0 in
theorem abort_unaffected (hl : (s.ctl c).aborts.length < 64) {k : Cmd} (hk : s.cmd ⟨c, sqid, cid⟩ = some k)
    (hp : k.fetched = s.turn ∨ k.posting s.turn = true ∨ k.phase = .started) : Does (.abort a sqid cid) s [.host] [] fun t =>
      t.host.cmds = s.host.cmds ∧ t.ctl c = { s.ctl c with aborts := (s.ctl c).aborts ++ [⟨a, none, 1, s.turn⟩] } := by
  have run := exec_abort_found h h0 hl hk
  have late : s.abortIo c a k = s.abortLater c a none 1 := if_pos (by simpa [or_assoc] using hp)
  exact does_of (run.trans (congrArg _ late)) (frame_onCtl s c _) ⟨rfl, abortLater_waits s c a none 1⟩

omit h in
/-- An accepted command's reservations go at the edge. -/
def State.releasing (s : State) (k : Cmd) : State :=
  if k.phase == .accepted then s.onSluice fun x => { x with released := x.released ++ [k.plan] } else s

omit h in
/-- A command taken out by an Abort, with its outcome. -/
def State.aborted (s : State) (k : Cmd) : State :=
  ((s.releasing k).onCmd k.ref fun k => { k with phase := .fetched }).settle k.ref St.abortRequested ((s.releasing k).turn + 1)

omit h in
theorem State.aborted_cmds (k : Cmd) : ∀ x ∈ (s.aborted k).host.cmds, x.ref = k.ref → x.outcome = some (0, 7, false, 0) ∧ x.postAt = some (s.turn + 1) := by
  intro x hx hr
  have turn : (s.releasing k).turn = s.turn := by unfold State.releasing; split_ifs <;> rfl
  rcases mem_updIf hx with ⟨y, -, -, rfl⟩ | ⟨-, hne⟩
  · exact ⟨rfl, congrArg (fun n => some (n + 1)) turn⟩
  · simp [hr] at hne

include h0 in
theorem abort_settles (hl : (s.ctl c).aborts.length < 64) {k : Cmd} (hk : s.cmd ⟨c, sqid, cid⟩ = some k) (hf : k.fetched ≠ s.turn)
    (hp : k.posting s.turn = false) (hs : k.phase ≠ .started) : Does (.abort a sqid cid) s [.host, .sluice] [] fun t =>
      (∀ x ∈ t.host.cmds, x.ref = ⟨c, sqid, cid⟩ → x.outcome = some (0, 7, false, 0) ∧ x.postAt = some (s.turn + 1)) ∧
        (k.phase = .accepted → t.sluice = { s.sluice with released := s.sluice.released ++ [k.plan] }) ∧
        (k.phase ≠ .accepted → t.sluice = s.sluice) ∧
        t.ctl c = { s.ctl c with aborts := (s.ctl c).aborts ++ [⟨a, some (k.ref, k.order), 0, s.turn⟩] } := by
  have ref : k.ref = ⟨c, sqid, cid⟩ := by simpa using List.find?_some hk
  have run := exec_abort_found h h0 hl hk
  have settles : s.abortIo c a k = (s.aborted k).abortLater c a (some (k.ref, k.order)) 0 := if_neg (by simpa using ⟨⟨hf, hp⟩, hs⟩)
  have released : Frame [.sluice] [] s (s.releasing k) ∧ (s.releasing k).host = s.host := by
    unfold State.releasing
    split_ifs
    · exact ⟨frame_onSluice s _, rfl⟩
    · exact ⟨(Frame.refl s).mono (by decide), rfl⟩
  have ctl : (s.aborted k).ctl c = s.ctl c ∧ (s.aborted k).turn = s.turn := by
    unfold State.aborted State.releasing
    split_ifs <;> exact ⟨rfl, rfl⟩
  refine does_of (run.trans (congrArg _ settles)) ?_ ⟨fun x hx hr => s.aborted_cmds k x hx (hr.trans ref.symm), fun hacc => ?_, fun hacc => ?_, ?_⟩
  · exact (((released.1.trans (frame_onHost _ _)).trans (frame_onHost _ _)).trans (frame_onCtl _ c _)).mono (by decide)
  · show (s.releasing k).sluice = _
    rw [State.releasing, if_pos (by simp [hacc])]
    rfl
  · show (s.releasing k).sluice = _
    rw [State.releasing, if_neg (by simp [hacc])]
  · rw [abortLater_waits, ctl.1, ctl.2]

/-! ### Event requests (R60, R62) -/

theorem exec_eventRequest_limited (hl : 16 ≤ (s.ctl c).aers.length) :
    exec (.asynchronousEventRequest a) s = .next (s.reply a St.aerLimit []) := by
  show execAsynchronousEventRequest a s = _
  rw [execAsynchronousEventRequest, State.admin_hgTakes _ h, h.1]
  exact congrArg _ (if_pos hl)

theorem exec_eventRequest_held (hl : (s.ctl c).aers.length < 16) (he : (s.ctl c).events = []) :
    exec (.asynchronousEventRequest a) s = .next (s.onCtl c fun x => { x with aers := x.aers ++ [a] }) := by
  show execAsynchronousEventRequest a s = _
  rw [execAsynchronousEventRequest, State.admin_hgTakes _ h, h.1]
  dsimp only
  rw [if_neg (Nat.not_le.2 hl), he]

theorem exec_eventRequest_completes (hl : (s.ctl c).aers.length < 16) {e : AsyncEvent} {rest : List AsyncEvent} (he : (s.ctl c).events = e :: rest) :
    exec (.asynchronousEventRequest a) s = .next
      ((s.onCtl c fun x => { x with events := rest, masked := eventKey e.type e.info e.lid :: x.masked }).reply a
        (St.done (e.type + e.info * 256 + e.lid * 65536)) []) := by
  show execAsynchronousEventRequest a s = _
  rw [execAsynchronousEventRequest, State.admin_hgTakes _ h, h.1]
  dsimp only
  rw [if_neg (Nat.not_le.2 hl), he]

theorem asynchronousEventRequest_held (hl : (s.ctl c).aers.length < 16) (he : (s.ctl c).events = []) :
    Does (.asynchronousEventRequest a) s [.host] [] fun t =>
      t.ctl c = { s.ctl c with aers := (s.ctl c).aers ++ [a] } ∧ t.host.cmds = s.host.cmds := by
  exact does_of (exec_eventRequest_held h hl he) (frame_onCtl s c _) ⟨State.onCtl_ctl_same s c _, rfl⟩

theorem asynchronousEventRequest_completes (hl : (s.ctl c).aers.length < 16) {e : AsyncEvent} {rest : List AsyncEvent}
    (he : (s.ctl c).events = e :: rest) : Does (.asynchronousEventRequest a) s [.host] [] fun t =>
      (t.ctl c).events = rest ∧ (t.ctl c).aers = (s.ctl c).aers ∧ eventKey e.type e.info e.lid ∈ (t.ctl c).masked ∧
        replied s t a (St.done (e.type + e.info * 256 + e.lid * 65536)) [] := by
  obtain ⟨frame, answers, replied⟩ := answered_onCtl h (f := fun x =>
    { x with events := rest, masked := eventKey e.type e.info e.lid :: x.masked })
    (st := St.done (e.type + e.info * 256 + e.lid * 65536)) [] rfl rfl (.inl rfl)
  refine does_of (exec_eventRequest_completes h hl he) frame ⟨?_, ?_, ?_, replied⟩
  · rw [answers.field (·.events) fun _ _ _ _ => rfl, State.onCtl_ctl_same]
  · rw [answers.field (·.aers) fun _ _ _ _ => rfl, State.onCtl_ctl_same]
  · rw [answers.field (·.masked) fun _ _ _ _ => rfl, State.onCtl_ctl_same]
    exact List.mem_cons_self

theorem asynchronousEventRequest_limited (hl : 16 ≤ (s.ctl c).aers.length) : Does (.asynchronousEventRequest a) s [.host] [] fun t =>
    (t.ctl c).aers = (s.ctl c).aers ∧ replied s t a St.aerLimit [] := by
  obtain ⟨frame, answers, replied⟩ := answered_same h (st := St.aerLimit) [] (.inr rfl)
  exact does_of (exec_eventRequest_limited h hl) frame ⟨answers.field (·.aers) (fun _ _ _ _ => rfl) c, replied⟩

end

/-- Settles O44: each command by its lemmas above, with the answer on its own queue. -/
theorem queueCommandsAnswer : Obligations.QueueCommandsAnswer := by
  unfold Obligations.QueueCommandsAnswer
  intro s a c h
  refine ⟨fun n size vector ien h1 h2 hq h3 h4 h5 => createIoCq_makes h h1 h2 hq h3 h4 h5 ien,
    fun n size vector ien hq => createIoCq_refuses h hq size vector ien,
    fun n size cqid h1 h2 hq h3 h4 h5 h6 => createIoSq_makes h h1 h2 hq h3 h4 h5 h6, fun n size cqid hq => createIoSq_refuses h hq n size,
    fun n h0 hq => deleteIoSq_deletes h h0 hq, fun n h0 hq => ⟨deleteIoCq_deletes h h0 hq, deleteIoCq_refuses h h0 hq⟩,
    fun sqid seq => ⟨fun hl => queueRestart_unlevelled h hl seq, fun q hl h0 hq => ⟨fun hf => queueRestart_unfrozen h hl h0 hq hf seq,
      fun hf hr => ⟨queueRestart_thaws h hl h0 hq hf hr, fun v hs hv hk hm he => queueRestart_observes h hl h0 hq hf hr hs hv hk hm he⟩⟩⟩,
    fun sqid cid h0 => ⟨fun hl => ⟨fun k => abort_settles h h0 hl, fun k => abort_unaffected h h0 hl, abort_unknown h h0 hl⟩,
      fun hl => abort_limited h hl sqid cid⟩,
    fun hl => ⟨asynchronousEventRequest_held h hl, fun e rest => asynchronousEventRequest_completes h hl⟩, asynchronousEventRequest_limited h⟩

end Sys2Proof.Machine
end

section
/-! Features of a controller, the Twiot level and power states, set and read (R69, R73, R78–R80, R83, R439), and O48. -/

namespace Sys2Proof.Machine

open Sys2Proof.Safety

/-! ### An answer on any path -/

section
variable {s u : State} {a : Adm} {P : List Part} {W : List (Fld × Nat)} {st : Status}

/-- An answer from a state that has the turn, the responses and the path's queue of `s`. -/
theorem answered_of (hw : whole s a) (data : List Bytes) (hf : Frame P W s u) (hP : Part.turn ∉ P) (hr : u.mgmt.replies = s.mgmt.replies)
    (hq : ∀ c, admCtrl a.path = some c → (u.ctl c).adminCq = (s.ctl c).adminCq ∧ (u.ctl c).adminSq.head = (s.ctl c).adminSq.head) (hk : st.kept) :
    Frame (P ++ [.host, .mgmt]) (W ++ []) s (u.reply a st data) ∧ Answers u (u.reply a st data) ∧ replied s (u.reply a st data) a st data := by
  have answers := answers_reply u a st data hk
  refine ⟨hf.trans answers.frame, answers, replied_of_same a st data (hf.1 .turn hP) hr hq (replied_reply u a st data (fun c hc => ?_) hk)⟩
  rw [(hq c hc).1]
  exact whole.size hw c hc

/-- As `answered_of`, from a state with the same headgate and management plane. -/
theorem answered_frame (hw : whole s a) (data : List Bytes) (hf : Frame P W s u) (hP : Part.turn ∉ P ∧ Part.mgmt ∉ P ∧ Part.host ∉ P) (hk : st.kept) :
    Frame (P ++ [.host, .mgmt]) (W ++ []) s (u.reply a st data) ∧ Answers u (u.reply a st data) ∧ replied s (u.reply a st data) a st data := by
  obtain ⟨hturn, hmgmt, hhost⟩ := hP
  have mgmt : { u.mgmt with log := s.mgmt.log, logDropped := s.mgmt.logDropped } = s.mgmt := hf.1 .mgmt hmgmt
  exact answered_of hw data hf hturn (by rw [← mgmt]) (fun c _ => by rw [Frame.ctl_eq hf hhost]; exact ⟨rfl, rfl⟩) hk

/-- As `answered_of`, from a controller changed outside its admin queues. -/
theorem answered_ctl (hw : whole s a) (data : List Bytes) {c : Fin 2} {f : Controller → Controller}
    (hf : (f (s.ctl c)).adminCq = (s.ctl c).adminCq ∧ (f (s.ctl c)).adminSq.head = (s.ctl c).adminSq.head) (hk : st.kept) :
    Frame [.host, .mgmt] [] s ((s.onCtl c f).reply a st data) ∧ Answers (s.onCtl c f) ((s.onCtl c f).reply a st data) ∧
      replied s ((s.onCtl c f).reply a st data) a st data := by
  have queues : ∀ d, admCtrl a.path = some d → ((s.onCtl c f).ctl d).adminCq = (s.ctl d).adminCq ∧
      ((s.onCtl c f).ctl d).adminSq.head = (s.ctl d).adminSq.head := fun d _ => by
    by_cases hd : d = c
    · subst hd
      rw [State.onCtl_ctl_same]
      exact hf
    · rw [State.onCtl_ctl_ne s f hd]
      exact ⟨rfl, rfl⟩
  obtain ⟨frame, answers, replied⟩ := answered_of hw data (frame_onCtl s c f) (by decide) rfl queues hk
  exact ⟨frame.mono (by decide), answers, replied⟩

/-- The command answers a status and changes nothing else that a controller's feature could. -/
def FeatureAnswers (i : Instr) (s : State) (a : Adm) (c : Fin 2) (st : Status) : Prop :=
  Does i s [.host, .mgmt] [] fun t => replied s t a st [] ∧ t.sq c = s.sq c ∧ t.host.cmds = s.host.cmds ∧ (t.ctl c).features = (s.ctl c).features

theorem featureAnswers_of {i : Instr} (c : Fin 2) (hw : whole s a) (run : exec i s = .next (s.reply a st [])) (hk : st.kept) :
    FeatureAnswers i s a c st := by
  obtain ⟨frame, answers, replied⟩ := answered_frame hw [] (Frame.refl s) (by decide) hk
  exact does_of run frame ⟨replied, answers.sq c, answers.cmds, answers.field (·.features) (fun _ _ _ _ => rfl) c⟩

/-- The command answers a value. -/
theorem answers_value {i : Instr} {data : List Bytes} (hw : whole s a) (run : exec i s = .next (s.reply a st data)) (hk : st.kept) :
    Does i s [.host, .mgmt] [] fun t => replied s t a st data := by
  obtain ⟨frame, -, replied⟩ := answered_frame hw data (Frame.refl s) (by decide) hk
  exact does_of run frame replied

end

/-! ### When the commands run (Table 02.6) -/

section
variable {s : State} {a : Adm} (h : hears s a)
include h

theorem hears.arrived : whole s a := h.2.2.1

theorem exec_setTwiotLevel (sv : Bool) (w : Word) : exec (.setTwiotLevel a sv w) s = .next (s.setLevel a sv w) :=
  congrArg _ (State.admin_hears _ h)

theorem exec_classBinding (sv : Bool) (w : Word) : exec (.classBinding a sv w) s = .next (s.setClass a sv w) := congrArg _ (State.admin_hears _ h)

theorem exec_orderingMode (sv : Bool) (w : Word) : exec (.orderingMode a sv w) s = .next (s.setOrdered a sv w) := congrArg _ (State.admin_hears _ h)

/-- FIDs 0xC0 to 0xC2 are the headgate's. -/
theorem State.featureAdmin_headgate {fid : Nat} (hf : fid = 0xC0 ∨ fid = 0xC1 ∨ fid = 0xC2) (i : Instr) (k : State → State) :
    s.featureAdmin a fid i k = k s := by
  rw [State.featureAdmin, if_pos hf, State.admin_hears _ h]

variable (hm : s.power.mode ≠ .conserve)
include hm

theorem exec_keepAwakeFloor (sv : Bool) (w v : Word) : exec (.keepAwakeFloor a sv w v) s = .next (s.setFloor a sv w v) :=
  congrArg _ (State.clusterAdmin_hears _ _ h hm)

theorem exec_powerManagement (sv : Bool) (ps : Nat) : exec (.powerManagement a sv ps) s = .next (s.setPower a sv ps) :=
  congrArg _ (State.clusterAdmin_hears _ _ h hm)

theorem exec_timestamp (sv : Bool) (ms : Nat) : exec (.timestamp a sv ms) s = .next (s.setTimestamp a sv ms) :=
  congrArg _ (State.clusterAdmin_hears _ _ h hm)

theorem State.featureAdmin_runs (fid : Nat) (i : Instr) (k : State → State) : s.featureAdmin a fid i k = k s := by
  by_cases hf : fid = 0xC0 ∨ fid = 0xC1 ∨ fid = 0xC2
  · exact State.featureAdmin_headgate h hf i k
  · rw [State.featureAdmin, if_neg hf, State.clusterAdmin_hears _ _ h hm]

theorem exec_setFeatures (fid : Nat) (sv : Bool) (w v : Word) (d : Bytes) :
    exec (.setFeatures a fid sv w ⟨v, d⟩) s = .next (s.setFeature a fid sv w v d) := congrArg _ (State.featureAdmin_runs h hm fid _ _)

theorem exec_getFeatures (fid : Nat) (w : Word) : exec (.getFeatures a fid w) s = .next (s.getFeature a fid w) :=
  congrArg _ (State.featureAdmin_runs h hm fid _ _)

end

/-! ### Set and Get Features (R69) -/

section
variable {s : State} {a : Adm} (h : hears s a)

theorem State.putFeature_eq (c : Fin 2) (fid v : Nat) (sv : Bool) : s.putFeature c fid v sv =
    (s.onCtl c fun x => { x with features := kput fid v x.features }).onNv fun n =>
      { n with features := if sv then kput (savedKey c fid) v n.features else n.features } := by
  cases sv <;> rfl

theorem frame_putFeature (c : Fin 2) (fid v : Nat) (sv : Bool) : Frame [.host, .nv] [] s (s.putFeature c fid v sv) :=
  s.putFeature_eq c fid v sv ▸ (frame_onCtl s c _).trans (frame_onNv _ _)

theorem State.putFeature_ctl (c d : Fin 2) (fid v : Nat) (sv : Bool) : (s.putFeature c fid v sv).ctl d =
    { s.ctl d with features := if d = c then kput fid v (s.ctl d).features else (s.ctl d).features } := by
  rw [State.putFeature_eq, State.onNv_ctl]
  by_cases hd : d = c
  · subst hd
    rw [State.onCtl_ctl_same, if_pos rfl]
  · rw [State.onCtl_ctl_ne s _ hd, if_neg hd]

/-- The feature of autonomous transitions and its table, in force. -/
def State.apstPut (s : State) (c : Fin 2) (v table : Nat) (sv : Bool) : State :=
  ((s.putFeature c 0xC v sv).putFeature c apstKey table sv).refreshApst

theorem State.apstPut_keeps (s : State) (c : Fin 2) (v table : Nat) (sv : Bool) :
    Frame [.host, .nv, .host, .nv, .power] [] s (s.apstPut c v table sv) ∧ (s.apstPut c v table sv).mgmt = s.mgmt ∧
      (∀ e, ∃ l, (s.apstPut c v table sv).ctl e = { s.ctl e with features := l }) ∧
      ((s.apstPut c v table sv).ctl c).features = kput apstKey table (kput 0xC v (s.ctl c).features) := by
  refine ⟨((frame_putFeature c 0xC v sv).trans (frame_putFeature c apstKey table sv)).trans (frame_onPower _ _ rfl), ?_, fun e => ?_, ?_⟩
  · rw [State.apstPut, State.refreshApst, State.onPower_mgmt, State.putFeature_eq, State.putFeature_eq]
    rfl
  · rw [State.apstPut, State.refreshApst, State.onPower_ctl, State.putFeature_ctl, State.putFeature_ctl]
    exact ⟨_, rfl⟩
  · rw [State.apstPut, State.refreshApst, State.onPower_ctl, State.putFeature_ctl, State.putFeature_ctl, if_pos rfl, if_pos rfl]

include h

/-- What a feature that takes a value leaves, and its answer. -/
theorem putFeature_answers (c : Fin 2) (fid v : Nat) (sv : Bool) :
    Frame [.host, .mgmt, .nv] [] s ((s.putFeature c fid v sv).reply a St.ok []) ∧
      Answers (s.putFeature c fid v sv) ((s.putFeature c fid v sv).reply a St.ok []) ∧
      replied s ((s.putFeature c fid v sv).reply a St.ok []) a St.ok [] := by
  obtain ⟨frame, answers, replied⟩ := answered_of (st := St.ok) (hears.arrived h) [] (frame_putFeature (s := s) c fid v sv) (by decide)
    (by rw [State.putFeature_eq]; rfl) (fun d _ => by rw [State.putFeature_ctl]; exact ⟨rfl, rfl⟩) (.inl rfl)
  exact ⟨frame.mono (by decide), answers, replied⟩

variable (hm : s.power.mode ≠ .conserve)
include hm

theorem setFeatures_takes {fid : Nat} {sv : Bool} (hf : fid = 8 ∨ fid = 0xB ∨ (sv = false ∧ (fid = 1 ∨ fid = 5))) (w v : Word) (d : Bytes) :
    Does (.setFeatures a fid sv w ⟨v, d⟩) s [.host, .mgmt, .nv] [] fun t =>
      klook fid (t.ctl (admOwner a.path)).features = some w.toNat ∧ replied s t a St.ok [] ∧
        t.nv = { s.nv with features := if sv then kput (savedKey (admOwner a.path) fid) w.toNat s.nv.features else s.nv.features } := by
  have plain : s.setFeature a fid sv w v d = (s.putFeature (admOwner a.path) fid w.toNat sv).reply a St.ok [] := by
    rcases hf with rfl | rfl | ⟨rfl, rfl | rfl⟩ <;> rfl
  obtain ⟨frame, answers, replied⟩ := putFeature_answers h (admOwner a.path) fid w.toNat sv
  refine does_of ((exec_setFeatures h hm fid sv w v d).trans (congrArg _ plain)) frame ⟨?_, replied, ?_⟩
  · rw [answers.field (·.features) fun _ _ _ _ => rfl, State.putFeature_eq, State.onNv_ctl, State.onCtl_ctl_same]
    exact klook_kput_self _ _ _
  · have nv : ((s.putFeature (admOwner a.path) fid w.toNat sv).reply a St.ok []).nv = _ := answers.frame.1 .nv (by decide)
    rw [nv, State.putFeature_eq]
    rfl

theorem getFeatures_reads {fid : Nat} (hf : fid = 1 ∨ fid = 5 ∨ fid = 8 ∨ fid = 0xB) (w : Word) :
    Does (.getFeatures a fid w) s [.host, .mgmt] [] fun t => replied s t a (St.done (s.feature (admOwner a.path) fid)) [] := by
  have read : s.getFeature a fid w = s.reply a (St.done (s.feature (admOwner a.path) fid)) [] := by
    rcases hf with rfl | rfl | rfl | rfl <;> rfl
  exact answers_value (hears.arrived h) ((exec_getFeatures h hm fid w).trans (congrArg _ read)) (.inl rfl)

theorem setFeatures_apst (sv : Bool) (w v : Word) (d : Bytes) : Completes (.setFeatures a 0xC sv w ⟨v, d⟩) s fun t =>
    klook 0xC (t.ctl (admOwner a.path)).features = some w.toNat ∧
      klook apstKey (t.ctl (admOwner a.path)).features = some (leNat (d.take 256)) ∧ replied s t a St.ok [] := by
  have run : exec (.setFeatures a 0xC sv w ⟨v, d⟩) s = .next ((s.apstPut (admOwner a.path) w.toNat (leNat (d.take 256)) sv).reply a St.ok []) :=
    exec_setFeatures h hm 0xC sv w v d
  obtain ⟨frame, mgmt, ctl, features⟩ := s.apstPut_keeps (admOwner a.path) w.toNat (leNat (d.take 256)) sv
  obtain ⟨-, answers, replied⟩ := answered_of (st := St.ok) (hears.arrived h) [] frame (by decide) (congrArg Mgmt.replies mgmt)
    (fun e _ => by obtain ⟨l, he⟩ := ctl e; rw [he]; exact ⟨rfl, rfl⟩) (.inl rfl)
  refine completes_of run ⟨?_, ?_, replied⟩ <;> rw [answers.field (·.features) fun _ _ _ _ => rfl, features]
  · rw [klook_kput_ne _ _ (by decide), klook_kput_self]
  · exact klook_kput_self _ _ _

theorem getFeatures_apst (w : Word) : Does (.getFeatures a 0xC w) s [.host, .mgmt] [] fun t =>
    replied s t a (St.done (s.feature (admOwner a.path) 0xC)) [leBytes 256 (s.feature (admOwner a.path) apstKey)] :=
  answers_value (hears.arrived h) (exec_getFeatures h hm 0xC w) (.inl rfl)

theorem setFeatures_unsaveable {fid : Nat} (hf : fid = 1 ∨ fid = 5) (w v : Word) (d : Bytes) :
    FeatureAnswers (.setFeatures a fid true w ⟨v, d⟩) s a (admOwner a.path) St.notSaveable := by
  have refused : s.setFeature a fid true w v d = s.reply a St.notSaveable [] := by
    rcases hf with rfl | rfl <;> rfl
  exact featureAnswers_of _ (hears.arrived h) ((exec_setFeatures h hm fid true w v d).trans (congrArg _ refused)) (.inr rfl)

theorem setFeatures_unknown {fid : Nat} (hf : fid ∉ [1, 2, 4, 5, 7, 8, 9, 0xB, 0xC, 0xE, 0x1D, 0xC0, 0xC1, 0xC2, 0xC3]) (sv : Bool) (w v : Word) (d : Bytes) :
    FeatureAnswers (.setFeatures a fid sv w ⟨v, d⟩) s a (admOwner a.path) St.invalidField := by
  have refused : s.setFeature a fid sv w v d = s.reply a St.invalidField [] := by
    unfold State.setFeature
    split <;> simp_all
  exact featureAnswers_of _ (hears.arrived h) ((exec_setFeatures h hm fid sv w v d).trans (congrArg _ refused)) (.inr rfl)

theorem getFeatures_unknown {fid : Nat} (hf : fid ∉ [1, 2, 4, 5, 7, 8, 9, 0xB, 0xC, 0xE, 0x1D, 0xC0, 0xC1, 0xC2, 0xC3]) (w : Word) :
    FeatureAnswers (.getFeatures a fid w) s a (admOwner a.path) St.invalidField := by
  have refused : s.getFeature a fid w = s.reply a St.invalidField [] := by
    unfold State.getFeature
    split <;> simp_all
  exact featureAnswers_of _ (hears.arrived h) ((exec_getFeatures h hm fid w).trans (congrArg _ refused)) (.inr rfl)

theorem setFeatures_power (sv : Bool) (w v : Word) (d : Bytes) :
    exec (.setFeatures a 2 sv w ⟨v, d⟩) s = exec (.powerManagement a sv (bitsOf w 0 5)) s :=
  (exec_setFeatures h hm 2 sv w v d).trans (exec_powerManagement h hm sv _).symm

theorem setFeatures_timestamp (sv : Bool) (w v : Word) (d : Bytes) :
    exec (.setFeatures a 0xE sv w ⟨v, d⟩) s = exec (.timestamp a sv (w.toNat + v.toNat * 2 ^ 32)) s :=
  (exec_setFeatures h hm 0xE sv w v d).trans (exec_timestamp h hm sv _).symm

theorem setFeatures_floor (sv : Bool) (w v : Word) (d : Bytes) :
    exec (.setFeatures a 0xC3 sv w ⟨v, d⟩) s = exec (.keepAwakeFloor a sv w v) s :=
  (exec_setFeatures h hm 0xC3 sv w v d).trans (exec_keepAwakeFloor h hm sv w v).symm

end

section
variable {s : State} {a : Adm} (h : hears s a)
include h

theorem setFeatures_headgate (sv : Bool) (w v : Word) (d : Bytes) :
    exec (.setFeatures a 0xC0 sv w ⟨v, d⟩) s = exec (.setTwiotLevel a sv w) s ∧
      exec (.setFeatures a 0xC1 sv w ⟨v, d⟩) s = exec (.classBinding a sv w) s ∧
      exec (.setFeatures a 0xC2 sv w ⟨v, d⟩) s = exec (.orderingMode a sv w) s :=
  ⟨(congrArg _ (State.featureAdmin_headgate h (by decide) _ _)).trans (exec_setTwiotLevel h sv w).symm,
    (congrArg _ (State.featureAdmin_headgate h (by decide) _ _)).trans (exec_classBinding h sv w).symm,
    (congrArg _ (State.featureAdmin_headgate h (by decide) _ _)).trans (exec_orderingMode h sv w).symm⟩

theorem getFeatures_level (w : Word) : Does (.getFeatures a 0xC0 w) s [.host, .mgmt] [] fun t =>
    replied s t a (St.done (s.level (admOwner a.path) + 3 * 256)) [] :=
  answers_value (hears.arrived h) (congrArg _ (State.featureAdmin_headgate h (by decide) _ _)) (.inl rfl)

/-! ### The Twiot features (R73, R79, R80, R439) -/

theorem setTwiotLevel_refuses (hq : (s.ctl (admOwner a.path)).sqs ≠ []) (w : Word) :
    FeatureAnswers (.setTwiotLevel a false w) s a (admOwner a.path) St.sequence := by
  have refused : s.setLevel a false w = s.reply a St.sequence [] := by
    rw [State.setLevel, if_neg (by decide)]
    exact if_pos (by simpa using hq)
  exact featureAnswers_of _ (hears.arrived h) ((exec_setTwiotLevel h false w).trans (congrArg _ refused)) (.inr rfl)

omit h in
/-- A controller at a new level: below level 3 its floors are gone. -/
def State.levelled (s : State) (c : Fin 2) (l : Nat) : State :=
  if l < 3 then (s.setFld (levelFld c) l).onPower fun p => { p with floorMask := vupd p.floorMask c fun _ => Vector.replicate 8 0 }
  else s.setFld (levelFld c) l

omit h in
theorem frame_levelled (c : Fin 2) (l : Nat) : Frame [.power] [(levelFld c, l)] s (s.levelled c l) := by
  unfold State.levelled
  split_ifs
  · exact (frame_setFld s _ _).trans (frame_onPower _ _ rfl)
  · exact (frame_setFld s _ _).mono (by decide)

omit h in
theorem levelFld_width (c : Fin 2) : (levelFld c).width = 2 ∧ (levelFld c).addr = Reg.HGT_LEVEL := by
  revert c; decide

omit h in
theorem State.levelled_level (c : Fin 2) {l : Nat} (hl : l < 4) : (s.levelled c l).level c = l ∧ ∀ d, d ≠ c → (s.levelled c l).level d = s.level d := by
  have word (d : Fin 2) : (s.levelled c l).fld (levelFld d) = (s.setFld (levelFld c) l).fld (levelFld d) := by
    unfold State.levelled
    split_ifs <;> rfl
  refine ⟨?_, fun d hd => ?_⟩
  · rw [State.level_eq, word, State.fld_setFld_same _ _ _ (levelFld_fits c), (levelFld_width c).1]
    exact Nat.mod_eq_of_lt hl
  · rw [State.level_eq, word, State.fld_setFld_apart _ _ _ _ (levelFld_apart hd), State.level_eq]

omit h in
theorem State.levelled_floors (c : Fin 2) (l : Nat) : (s.levelled c l).power.floorMask[c] =
    if l < 3 then Vector.replicate 8 0 else s.power.floorMask[c] := by
  unfold State.levelled
  split_ifs
  · exact vupd_same _ _ _
  · rfl

theorem setTwiotLevel_sets (hq : (s.ctl (admOwner a.path)).sqs = []) (w : Word) :
    Changes (.setTwiotLevel a false w) s [.host, .mgmt, .power] [Reg.HGT_LEVEL] fun t =>
      t.level (admOwner a.path) = bitsOf w 0 2 ∧ (∀ d, d ≠ admOwner a.path → t.level d = s.level d) ∧ replied s t a St.ok [] ∧
        t.power.floorMask[admOwner a.path] = if bitsOf w 0 2 < 3 then Vector.replicate 8 0 else s.power.floorMask[admOwner a.path] := by
  have set : s.setLevel a false w = (s.levelled (admOwner a.path) (bitsOf w 0 2)).reply a St.ok [] := by
    rw [State.setLevel, if_neg (by decide)]
    exact (if_neg (by simp [hq])).trans rfl
  obtain ⟨frame, answers, replied⟩ := answered_frame (st := St.ok) (hears.arrived h) [] (frame_levelled (s := s) (admOwner a.path) (bitsOf w 0 2))
    (by decide) (.inl rfl)
  obtain ⟨level, other⟩ := s.levelled_level (admOwner a.path) (l := bitsOf w 0 2) (bitsOf_lt w 0 2)
  have kept (d : Fin 2) : ((s.levelled (admOwner a.path) (bitsOf w 0 2)).reply a St.ok []).level d = (s.levelled (admOwner a.path) (bitsOf w 0 2)).level d :=
    fld_of_word (answers.frame.2 _)
  have floors := Frame.floorMask_eq answers.frame (by decide)
  refine changes_of ((exec_setTwiotLevel h false w).trans (congrArg _ set))
    (within_of_frame (frame.mono (by decide)) (List.Subset.refl _) (by simp [levelFld_width])) ⟨by rw [kept, level], fun d hd => by rw [kept, other d hd], replied, ?_⟩
  rw [floors, State.levelled_floors]

theorem classBinding_refuses (hl : s.level (admOwner a.path) < 1) (sv : Bool) (w : Word) :
    FeatureAnswers (.classBinding a sv w) s a (admOwner a.path) St.invalidField :=
  featureAnswers_of _ (hears.arrived h) ((exec_classBinding h sv w).trans (congrArg _ (if_pos hl))) (.inr rfl)

omit h in
/-- An answer leaves the controller that its path does not name. -/
theorem State.reply_ctl_other {u : State} (st : Status) (data : List Bytes) (hk : st.kept)
    (hs : ∀ c, admCtrl a.path = some c → (u.ctl c).adminCq.size ≠ 0) {d : Fin 2} (hd : d ≠ admOwner a.path) :
    (u.reply a st data).ctl d = u.ctl d := by
  cases hp : admCtrl a.path with
  | none => rw [u.reply_path a st data hp, State.onMgmt_ctl]
  | some c =>
    have owner : admOwner a.path = c := by rw [admOwner, hp]; rfl
    exact u.reply_ctl_ne a st data hp (hs c hp) hk (owner ▸ hd)

/-- An answer after a change of an I/O submission queue. -/
theorem onSq_answers {n : Nat} (hn : n ≠ 0) {q : Sq} (hq : s.sq (admOwner a.path) n = some q) {f : Sq → Sq} (hf : ∀ q, (f q).qid = q.qid) :
    let t := (s.onSq (admOwner a.path) n f).reply a St.ok []
    Frame [.host, .mgmt] [] s t ∧ replied s t a St.ok [] ∧ t.host.cmds = s.host.cmds ∧ sqNow s t (admOwner a.path) n (some (f q)) := by
  have changed : s.onSq (admOwner a.path) n f =
      s.onCtl (admOwner a.path) fun x => { x with sqs := updIf (fun q => q.qid == n) f x.sqs } := if_neg hn
  obtain ⟨frame, answers, replied⟩ := answered_ctl (st := St.ok) (hears.arrived h) (c := admOwner a.path)
    (f := fun x => { x with sqs := updIf (fun q => q.qid == n) f x.sqs }) [] ⟨rfl, rfl⟩ (.inl rfl)
  have size (e : Fin 2) (he : admCtrl a.path = some e) : ((s.onSq (admOwner a.path) n f).ctl e).adminCq.size ≠ 0 := by
    have owner : admOwner a.path = e := by rw [admOwner, he]; rfl
    rw [changed, owner, State.onCtl_ctl_same]
    exact whole.size (hears.arrived h) e he
  rw [← changed] at frame answers replied
  have now := sqNow_onSq s (admOwner a.path) (n := n) hf
  rw [hq] at now
  exact ⟨frame, replied, answers.cmds.trans (s.onSq_cmds _ n f), sqNow_then now (congrFun (answers.sq _)) fun d hd =>
    State.reply_ctl_other St.ok [] (.inl rfl) size hd⟩

theorem classBinding_binds {w : Word} {q : Sq} (hl : 1 ≤ s.level (admOwner a.path)) (hn : bitsOf w 0 16 ≠ 0)
    (hq : s.sq (admOwner a.path) (bitsOf w 0 16) = some q) : Does (.classBinding a false w) s [.host, .mgmt] [] fun t =>
      replied s t a St.ok [] ∧ t.host.cmds = s.host.cmds ∧
        sqNow s t (admOwner a.path) (bitsOf w 0 16) (some { q with cls := if bitsOf w 31 1 = 1 then bitsOf w 16 3 else 7 }) := by
  have bound : s.setClass a false w = (s.onSq (admOwner a.path) (bitsOf w 0 16) fun x =>
      { x with cls := if bitsOf w 31 1 = 1 then bitsOf w 16 3 else 7 }).reply a St.ok [] := by
    refine (if_neg (by omega)).trans ((if_neg (by decide)).trans (if_neg ?_))
    simp [hn, hq]
  obtain ⟨frame, replied, cmds, now⟩ := onSq_answers h hn hq (f := fun x => { x with cls := if bitsOf w 31 1 = 1 then bitsOf w 16 3 else 7 }) fun _ => rfl
  exact does_of ((exec_classBinding h false w).trans (congrArg _ bound)) frame ⟨replied, cmds, now⟩

theorem orderingMode_refuses (hl : s.level (admOwner a.path) < 2) (sv : Bool) (w : Word) :
    FeatureAnswers (.orderingMode a sv w) s a (admOwner a.path) St.invalidField :=
  featureAnswers_of _ (hears.arrived h) ((exec_orderingMode h sv w).trans (congrArg _ (if_pos hl))) (.inr rfl)

/-- The ordering mode of a queue that the controller has. -/
theorem exec_orderingMode_queue {w : Word} {q : Sq} (hl : 2 ≤ s.level (admOwner a.path)) (hn : bitsOf w 0 16 ≠ 0)
    (hq : s.sq (admOwner a.path) (bitsOf w 0 16) = some q) : exec (.orderingMode a false w) s = .next
      (if s.sqBusy (admOwner a.path) q then s.reply a St.sequence []
        else (s.onSq (admOwner a.path) (bitsOf w 0 16) fun x => { x with ordered := bitsOf w 16 1 == 1 }).reply a St.ok []) := by
  rw [exec_orderingMode h]
  refine congrArg _ ((if_neg (by omega)).trans ((if_neg (by decide)).trans ?_))
  rw [if_neg hn, hq]

theorem orderingMode_busy {w : Word} {q : Sq} (hl : 2 ≤ s.level (admOwner a.path)) (hn : bitsOf w 0 16 ≠ 0)
    (hq : s.sq (admOwner a.path) (bitsOf w 0 16) = some q) (hb : s.sqBusy (admOwner a.path) q = true) :
    FeatureAnswers (.orderingMode a false w) s a (admOwner a.path) St.sequence :=
  featureAnswers_of _ (hears.arrived h) ((exec_orderingMode_queue h hl hn hq).trans (congrArg _ (if_pos hb))) (.inr rfl)

theorem orderingMode_sets {w : Word} {q : Sq} (hl : 2 ≤ s.level (admOwner a.path)) (hn : bitsOf w 0 16 ≠ 0)
    (hq : s.sq (admOwner a.path) (bitsOf w 0 16) = some q) (hb : s.sqBusy (admOwner a.path) q = false) :
    Does (.orderingMode a false w) s [.host, .mgmt] [] fun t => replied s t a St.ok [] ∧
      sqNow s t (admOwner a.path) (bitsOf w 0 16) (some { q with ordered := bitsOf w 16 1 == 1 }) := by
  obtain ⟨frame, replied, -, now⟩ := onSq_answers h hn hq (f := fun x => { x with ordered := bitsOf w 16 1 == 1 }) fun _ => rfl
  exact does_of ((exec_orderingMode_queue h hl hn hq).trans (congrArg _ (if_neg (by simp [hb])))) frame ⟨replied, now⟩

variable (hm : s.power.mode ≠ .conserve)
include hm

theorem keepAwakeFloor_unlevelled (hl : s.level (admOwner a.path) < 3) (sv : Bool) (w v : Word) :
    FeatureAnswers (.keepAwakeFloor a sv w v) s a (admOwner a.path) St.invalidField :=
  featureAnswers_of _ (hears.arrived h) ((exec_keepAwakeFloor h hm sv w v).trans (congrArg _ (if_pos hl))) (.inr rfl)

/-- A floor that names domains 1 to 23. -/
theorem exec_keepAwakeFloor_mask {v : Word} (hl : 3 ≤ s.level (admOwner a.path)) (h0 : v.toNat % 2 = 0) (h24 : v.toNat < 2 ^ 24) (w : Word) :
    exec (.keepAwakeFloor a false w v) s = .next
      (if s.deadMask v.toNat ≠ 0 then s.reply a (St.domainRetired (s.deadMask v.toNat)) []
        else (s.onPower fun p => { p with floorMask := vupd p.floorMask (admOwner a.path) fun x => x.set (Fin.ofNat 8 (bitsOf w 0 3)) v.toNat }).reply a
          St.ok []) := by
  rw [exec_keepAwakeFloor h hm]
  refine congrArg _ ((if_neg (by omega)).trans ((if_neg (by decide)).trans (if_neg ?_)))
  simpa [h0] using h24

theorem keepAwakeFloor_dead {v : Word} (hl : 3 ≤ s.level (admOwner a.path)) (h0 : v.toNat % 2 = 0) (h24 : v.toNat < 2 ^ 24)
    (hd : s.deadMask v.toNat ≠ 0) (w : Word) :
    FeatureAnswers (.keepAwakeFloor a false w v) s a (admOwner a.path) (St.domainRetired (s.deadMask v.toNat)) :=
  featureAnswers_of _ (hears.arrived h) ((exec_keepAwakeFloor_mask h hm hl h0 h24 w).trans (congrArg _ (if_pos hd))) (.inr rfl)

theorem keepAwakeFloor_sets {v : Word} (hl : 3 ≤ s.level (admOwner a.path)) (h0 : v.toNat % 2 = 0) (h24 : v.toNat < 2 ^ 24)
    (hd : s.deadMask v.toNat = 0) (w : Word) : Does (.keepAwakeFloor a false w v) s [.host, .mgmt, .power] [] fun t =>
      t.power = { s.power with floorMask := vupd s.power.floorMask (admOwner a.path) fun x => x.set (Fin.ofNat 8 (bitsOf w 0 3)) v.toNat } ∧
        replied s t a St.ok [] := by
  obtain ⟨frame, answers, replied⟩ := answered_frame (st := St.ok) (hears.arrived h) []
    (frame_onPower s (fun p => { p with floorMask := vupd p.floorMask (admOwner a.path) fun x => x.set (Fin.ofNat 8 (bitsOf w 0 3)) v.toNat }) rfl)
    (by decide) (.inl rfl)
  have power := within_power (within_of_frame (R := []) answers.frame (List.Subset.refl _) (List.forall_mem_nil _)) (by decide) (by decide) (by decide)
  exact does_of ((exec_keepAwakeFloor_mask h hm hl h0 h24 w).trans (congrArg _ (if_neg (by simp [hd])))) (frame.mono (by decide)) ⟨power, replied⟩

/-! ### Timestamp (R69) -/

theorem timestamp_unsaveable (ms : Nat) : FeatureAnswers (.timestamp a true ms) s a (admOwner a.path) St.notSaveable :=
  featureAnswers_of _ (hears.arrived h) (exec_timestamp h hm true ms) (.inr rfl)

omit h hm in
/-- The timestamp is set, with the Dellux advance of the first one after Boot. -/
def State.stamped (s : State) (ms : Nat) : State :=
  let t := s.onMgmt fun m => { m with timestamp := some (ms % 2 ^ 48, s.turn) }
  if s.mgmt.timestamp.isNone && !s.flash.dlxTaken && decide (0 < t.dlxAdvance (ms % 2 ^ 48)) then
    t.onFlash fun x => { x with dlxTaken := true, dlxAdd := x.dlxAdd + t.dlxAdvance (ms % 2 ^ 48) }
  else t

omit h hm in
theorem State.stamped_keeps (ms : Nat) : Frame [.mgmt, .flash] [] s (s.stamped ms) ∧
    (s.stamped ms).mgmt = { s.mgmt with timestamp := some (ms % 2 ^ 48, s.turn) } ∧ (s.stamped ms).host = s.host := by
  unfold State.stamped
  dsimp only
  split_ifs
  · exact ⟨(frame_onMgmt s _ ⟨rfl, rfl⟩).trans (frame_onFlash _ _), rfl, rfl⟩
  · exact ⟨(frame_onMgmt s _ ⟨rfl, rfl⟩).mono (by decide), rfl, rfl⟩

theorem timestamp_sets (ms : Nat) : Changes (.timestamp a false ms) s [.host, .mgmt, .flash] [] fun t =>
    t.mgmt.timestamp = some (ms % 2 ^ 48, s.turn) ∧ replied s t a St.ok [] := by
  obtain ⟨frame, mgmt, host⟩ := s.stamped_keeps ms
  obtain ⟨frame, answers, replied⟩ := answered_of (st := St.ok) (hears.arrived h) [] frame (by decide) (by rw [mgmt])
    (fun c _ => by rw [State.ctl, host]; exact ⟨rfl, rfl⟩) (.inl rfl)
  obtain ⟨l, hl⟩ := answers.mgmt
  have run : exec (.timestamp a false ms) s = .next ((s.stamped ms).reply a St.ok []) := exec_timestamp h hm false ms
  exact changes_of run (within_of_frame (frame.mono (by decide)) (List.Subset.refl _) (List.forall_mem_nil _))
    ⟨by rw [hl, mgmt], replied⟩

end

/-! ### Power states (R83, R432) -/

section
variable {s : State} {a : Adm} (h : hears s a) (hm : s.power.mode ≠ .conserve)

/-- The field of PMC.PS that holds a controller's selection. -/
def selFld (c : Fin 2) : Fld := if c = 0 then Reg.PMC_PS_C0_SEL else Reg.PMC_PS_C1_SEL

include h hm

theorem powerManagement_refuses {ps : Nat} (hp : 4 < ps ∨ (3 ≤ ps ∧ s.fld Reg.SLU_STATUS_SEALED = 1)) :
    FeatureAnswers (.powerManagement a false ps) s a (admOwner a.path) St.invalidField := by
  have refused : s.setPower a false ps = s.reply a St.invalidField [] := if_pos (by simpa [State.flag_eq] using hp)
  exact featureAnswers_of _ (hears.arrived h) ((exec_powerManagement h hm false ps).trans (congrArg _ refused)) (.inr rfl)

omit h hm in
/-- With no power state under way there is none to supersede. -/
theorem State.supersede_ps_none (he : s.power.entry = none) (hw : s.power.psWait = none) (hc : s.power.psChange = none) : s.supersede_ps = s := by
  have same : { s.power with psWait := none, psChange := none } = s.power := by
    calc { s.power with psWait := none, psChange := none } = { s.power with psWait := s.power.psWait, psChange := s.power.psChange } := by rw [hw, hc]
      _ = s.power := rfl
  unfold State.supersede_ps
  simp only [he, hw, hc, Option.bind_none, Option.isSome_none, Bool.false_eq_true, if_false, State.replyDone]
  exact congrArg (fun p => { s with power := p }) same

omit h hm in
/-- The selection of a controller is in PMC.PS; the power state that governs is the lower number of both (R82). -/
theorem State.selected_governs (s : State) (c : Fin 2) {ps : Nat} (hp : ps ≤ 4) :
    (s.setFld (selFld c) ps).governing = min ps (s.fld (if c = 0 then Reg.PMC_PS_C1_SEL else Reg.PMC_PS_C0_SEL)) ∧
      (s.setFld (selFld c) ps).fld (selFld c) = ps ∧ (s.setFld (selFld c) ps).fld Reg.PMC_PS_PS = s.fld Reg.PMC_PS_PS := by
  have small : ps % 2 ^ 3 = ps := Nat.mod_eq_of_lt (by omega)
  match c with
  | 0 =>
    have same : (s.setFld (selFld 0) ps).fld Reg.PMC_PS_C0_SEL = ps := (State.fld_setFld_same s _ _ (by decide)).trans small
    refine ⟨?_, same, State.fld_setFld_apart s _ _ _ (by decide)⟩
    rw [State.governing, same, State.fld_setFld_apart s _ _ _ (by decide), if_pos rfl]
  | 1 =>
    have same : (s.setFld (selFld 1) ps).fld Reg.PMC_PS_C1_SEL = ps := (State.fld_setFld_same s _ _ (by decide)).trans small
    refine ⟨?_, same, State.fld_setFld_apart s _ _ _ (by decide)⟩
    rw [State.governing, same, State.fld_setFld_apart s _ _ _ (by decide), if_neg (by decide), min_comm]

omit h hm in
theorem selFld_addr (c : Fin 2) : (selFld c).addr = Reg.PMC_PS := by
  revert c; decide

omit h hm in
/-- The operational state that a selection puts in force, before its ceiling. -/
def State.operational (s : State) (a : Adm) (g : Nat) : State :=
  (s.setFld Reg.PMC_PS_PS g).onPower fun p => { p with operPs := g, psWait := some { began := s.turn, target := g, req := some a } }

omit h hm in
theorem State.operational_keeps (s : State) (a : Adm) {g : Nat} (hg : g < 3) : Frame [.power] [(Reg.PMC_PS_PS, g)] s (s.operational a g) ∧
    (s.operational a g).power = { s.power with operPs := g, psWait := some { began := s.turn, target := g, req := some a } } ∧
      (s.operational a g).fld Reg.PMC_PS_PS = g :=
  ⟨(frame_setFld s _ _).trans (frame_onPower _ _ rfl), rfl,
    (State.fld_setFld_same s _ _ (by decide)).trans (Nat.mod_eq_of_lt (show g < 2 ^ 3 by omega))⟩

omit h hm in
/-- In Service, with no ceiling of the thermal model, SLU.POWER takes the operational state's ceiling (R447). -/
theorem State.applyCeil_service (u : State) (hmode : u.power.mode = .service) (ht : u.power.thermCeil = none) (hlow : u.power.operPs < 3) :
    Frame [.edgeRegs, .sluice] [(Reg.SLU_POWER_CEIL, psCeiling u.power.operPs)] u u.applyCeil ∧
      u.applyCeil.fld Reg.SLU_POWER_CEIL = psCeiling u.power.operPs := by
  have ceil : u.applyCeil = ((u.holdWord Reg.SLU_POWER).setFld Reg.SLU_POWER_CEIL (psCeiling u.power.operPs)).onSluice fun x =>
      { x with serviceCeil := psCeiling u.power.operPs } := by
    simp [State.applyCeil, hmode, ht]
  have fits : psCeiling u.power.operPs < 2 ^ 12 := by
    generalize u.power.operPs = n at hlow
    revert n
    decide
  rw [ceil]
  refine ⟨((frame_holdWord u _).trans (frame_setFld _ _ _)).trans (frame_onSluice _ _), ?_⟩
  rw [State.onSluice_fld, State.fld_setFld_same _ _ _ (by decide)]
  exact Nat.mod_eq_of_lt fits

omit h hm in
/-- Which banks hold only copies is read from registers other than PMC.PS. -/
theorem State.copyBanks_congr {s t : State} (hf : ∀ f : Fld, f.addr ≠ Reg.PMC_PS → t.fld f = s.fld f) : t.copyBanks = s.copyBanks := by
  unfold State.copyBanks
  simp only [hf Reg.FRM_ACC_BANK_FIRST (by decide), hf Reg.LDP_DLX_TABLE_BANK (by decide), hf Reg.DMC_MAP_GRAN_GRAN_BANK (by decide),
    hf Reg.DMC_MAP_GRAN_NS_BANK (by decide), hf Reg.DMC_MUP_RING_BANK (by decide), hf Reg.LDP_MR_RING_BANK (by decide),
    hf Reg.FRM_ACC_BANKS (by decide)]

omit h hm in
/-- A selected entry, before the banks that PS4 keeps are asked. -/
def State.selectedEntry (s : State) (a : Adm) (c : Fin 2) (ps g : Nat) : State :=
  ((s.setFld (selFld c) ps).onPower fun p => { p with entry := some { began := s.turn, target := g, req := some a } }).setFld Reg.PMC_PS_ENTERING 1

variable {ps : Nat} (hp : ps ≤ 4) (hs : ps < 3 ∨ s.fld Reg.SLU_STATUS_SEALED = 0) (he : s.power.entry = none) (hw : s.power.psWait = none)
  (hc : s.power.psChange = none)
include hp hs he hw hc

/-- A power state that a controller may select: the entry it begins, the answer, or the state in force. -/
theorem exec_powerManagement_selects {g : Nat} (hg : g = min ps (s.fld (if admOwner a.path = 0 then Reg.PMC_PS_C1_SEL else Reg.PMC_PS_C0_SEL))) :
    exec (.powerManagement a false ps) s = .next
      (if 3 ≤ g then (s.setFld (selFld (admOwner a.path)) ps).beginEntry g (some a)
        else if g = s.fld Reg.PMC_PS_PS then (s.setFld (selFld (admOwner a.path)) ps).reply a St.ok []
        else ((s.setFld (selFld (admOwner a.path)) ps).operational a g).applyCeil) := by
  obtain ⟨governs, -, ps_same⟩ := s.selected_governs (admOwner a.path) hp
  have allowed : (decide (4 < ps) || (decide (3 ≤ ps) && s.flag Reg.SLU_STATUS_SEALED)) = false := by
    rcases hs with hs | hs <;> simp [State.flag_eq] <;> omega
  rw [exec_powerManagement h hm, State.setPower]
  simp only [Bool.false_and, Bool.false_eq_true, if_false]
  rw [State.selectPower, if_neg (by simp [allowed]), State.supersede_ps_none he hw hc]
  have selected : (s.setFld (selFld (admOwner a.path)) ps).governing = g := governs.trans hg.symm
  rw [← selected, ← ps_same]
  exact congrArg Host.Outcome.next (if_neg (by simpa using hm))

variable {g : Nat} (hg : g = min ps (s.fld (if admOwner a.path = 0 then Reg.PMC_PS_C1_SEL else Reg.PMC_PS_C0_SEL)))
include hg

theorem powerManagement_answers (hlow : g < 3) (hsame : g = s.fld Reg.PMC_PS_PS) :
    Changes (.powerManagement a false ps) s [.host, .mgmt] [Reg.PMC_PS] fun t => replied s t a St.ok [] ∧ t.fld Reg.PMC_PS_PS = g ∧
      t.fld (if admOwner a.path = 0 then Reg.PMC_PS_C0_SEL else Reg.PMC_PS_C1_SEL) = ps := by
  have run := exec_powerManagement_selects h hm hp hs he hw hc hg
  rw [if_neg (by omega), if_pos hsame] at run
  obtain ⟨-, sel, ps_same⟩ := s.selected_governs (admOwner a.path) hp
  obtain ⟨frame, answers, replied⟩ := answered_frame (st := St.ok) (hears.arrived h) [] (frame_setFld s (selFld (admOwner a.path)) ps) (by decide) (.inl rfl)
  have fld (f : Fld) : ((s.setFld (selFld (admOwner a.path)) ps).reply a St.ok []).fld f = (s.setFld (selFld (admOwner a.path)) ps).fld f :=
    fld_of_word (answers.frame.2 _)
  exact changes_of run (within_of_frame frame (List.Subset.refl _) (by simp [selFld_addr])) ⟨replied, by rw [fld, ps_same, hsame], (fld _).trans sel⟩

theorem powerManagement_operates (hlow : g < 3) (hne : g ≠ s.fld Reg.PMC_PS_PS) (hmode : s.power.mode = .service) (ht : s.power.thermCeil = none) :
    Changes (.powerManagement a false ps) s [.power, .edgeRegs, .sluice] [Reg.PMC_PS, Reg.SLU_POWER] fun t =>
      t.fld Reg.PMC_PS_PS = g ∧ t.power.operPs = g ∧ t.fld Reg.SLU_POWER_CEIL = psCeiling g ∧
        ∃ e, t.power.psWait = some e ∧ e.began = s.turn ∧ e.req = some a := by
  have run := exec_powerManagement_selects h hm hp hs he hw hc hg
  rw [if_neg (by omega), if_neg hne] at run
  obtain ⟨set, uset, state⟩ := (s.setFld (selFld (admOwner a.path)) ps).operational_keeps a hlow
  have both := (frame_setFld s (selFld (admOwner a.path)) ps).trans set
  generalize (s.setFld (selFld (admOwner a.path)) ps).operational a g = u at *
  have oper : u.power.operPs = g := by rw [uset]
  obtain ⟨ceil, fits⟩ := u.applyCeil_service (by rw [uset]; exact hmode) (by rw [uset]; exact ht) (by rw [oper]; exact hlow)
  have power : u.applyCeil.power = u.power := u.applyCeil_parts.1
  refine changes_of run (within_of_frame ((both.trans ceil).mono (by decide)) (List.Subset.refl _) ?_)
    ⟨?_, by rw [power, oper], by rw [fits, oper], _, by rw [power, uset], rfl, rfl⟩
  · simp [selFld_addr, Reg.PMC_PS_PS, Reg.SLU_POWER_CEIL]
  · exact (within_fld (R := [Reg.SLU_POWER]) (within_of_frame ceil (List.Subset.refl _) (by simp [Reg.SLU_POWER_CEIL])) (by decide)).trans state

theorem powerManagement_enters (hhigh : 3 ≤ g) :
    Changes (.powerManagement a false ps) s (if g = 4 then [.power, .memory] else [.power])
      (Reg.PMC_PS :: if g = 4 then s.copyBanks.map fun b => (Reg.OCM_BANK_REQ b).addr else []) fun t =>
        (∃ e, t.power.entry = some e ∧ e.began = s.turn ∧ e.target = g ∧ e.req = some a) ∧ t.fld Reg.PMC_PS_ENTERING = 1 ∧
          t.fld Reg.PMC_PS_PS = s.fld Reg.PMC_PS_PS := by
  have run := exec_powerManagement_selects h hm hp hs he hw hc hg
  rw [if_pos hhigh] at run
  let u := s.selectedEntry a (admOwner a.path) ps g
  have begins : Within [.power] [Reg.PMC_PS] s u :=
    within_of_frame (((frame_setFld s (selFld (admOwner a.path)) ps).trans (frame_onPower _ _ rfl)).trans (frame_setFld _ _ _))
      (List.Subset.refl _) (by simp [selFld_addr, Reg.PMC_PS_ENTERING])
  have entered : u.fld Reg.PMC_PS_ENTERING = 1 := State.fld_setFld_same _ _ _ (by decide)
  have state : u.fld Reg.PMC_PS_PS = s.fld Reg.PMC_PS_PS :=
    (State.fld_setFld_apart _ _ _ _ (by decide)).trans (s.selected_governs (admOwner a.path) hp).2.2
  have banks : u.copyBanks = s.copyBanks := State.copyBanks_congr fun f hf => within_fld begins (by simpa using hf)
  by_cases h4 : g = 4
  · have run : exec (.powerManagement a false ps) s = .next u.parkBanks := run.trans (congrArg _ (if_pos h4))
    have parks := within_parkBanks u
    have power : u.parkBanks.power = u.power := within_power parks (by decide) (by decide) (by decide)
    have parked (b : Fld) (hb : b.addr < Reg.OCM_BANK 0) : u.parkBanks.fld b = u.fld b := within_fld parks (bank_not_mem hb)
    rw [if_pos h4, if_pos h4]
    refine changes_of run (within_trans (within_mono begins (by decide) (by simp)) (within_mono parks (by decide) ?_))
      ⟨⟨_, congrArg Power.entry power, rfl, rfl, rfl⟩, (parked _ (by decide)).trans entered, (parked _ (by decide)).trans state⟩
    rw [banks]
    exact List.subset_cons_self _ _
  · have run : exec (.powerManagement a false ps) s = .next u := run.trans (congrArg _ (if_neg h4))
    rw [if_neg h4, if_neg h4]
    exact changes_of run begins ⟨⟨_, rfl, rfl, rfl, rfl⟩, entered, state⟩

end

/-- Settles O48: each feature by its lemmas above. -/
theorem featuresAreSetAndRead : Obligations.FeaturesAreSetAndRead := by
  unfold Obligations.FeaturesAreSetAndRead
  intro s a sv w v d h
  obtain ⟨level, cls, order⟩ := setFeatures_headgate h sv w v d
  refine ⟨fun hm => ⟨fun fid hf => setFeatures_takes h hm hf w v d, fun fid hf => getFeatures_reads h hm hf w, setFeatures_apst h hm sv w v d,
      getFeatures_apst h hm w, fun fid hf => setFeatures_unsaveable h hm hf w v d,
      fun fid hf => ⟨setFeatures_unknown h hm hf sv w v d, getFeatures_unknown h hm hf w⟩, setFeatures_power h hm sv w v d,
      setFeatures_timestamp h hm sv w v d, setFeatures_floor h hm sv w v d⟩,
    level, cls, order, getFeatures_level h w, fun hq => setTwiotLevel_refuses h hq w, fun hq => setTwiotLevel_sets h hq w,
    fun hl => classBinding_refuses h hl sv w, fun q hl hn hq => classBinding_binds h hl hn hq, fun hl => orderingMode_refuses h hl sv w,
    fun q hl hn hq => ⟨orderingMode_busy h hl hn hq, orderingMode_sets h hl hn hq⟩,
    fun hm => ⟨fun hl => keepAwakeFloor_unlevelled h hm hl sv w v,
      fun hl h0 h24 => ⟨fun hd => keepAwakeFloor_dead h hm hl h0 h24 hd w, fun hd => keepAwakeFloor_sets h hm hl h0 h24 hd w⟩,
      timestamp_sets h hm, timestamp_unsaveable h hm, fun ps hp => powerManagement_refuses h hm hp, fun ps hp hs he hw hc => ?_⟩⟩
  exact ⟨powerManagement_enters h hm hp hs he hw hc rfl, powerManagement_answers h hm hp hs he hw hc rfl,
    powerManagement_operates h hm hp hs he hw hc rfl⟩

end Sys2Proof.Machine
end

section
/-! Log pages and identify structures (R62, R70, R76, R78, R274, R440, R467, R469, R470, R484), and O49. -/

namespace Sys2Proof.Machine

open Sys2Proof.Safety

/-! ### When the commands run -/

section
variable {s : State} {a : Adm} (h : hears s a) (hm : s.power.mode ≠ .conserve)
include h hm

theorem exec_getLogPage (lid lsp : Nat) : exec (.getLogPage a lid lsp) s = .next (s.logPage a lid lsp) :=
  congrArg _ (State.clusterAdmin_hears _ _ h hm)

theorem exec_identify (cns csi nsid : Nat) : exec (.identify a ⟨cns, csi⟩ nsid) s = .next (s.identify a cns csi nsid) :=
  congrArg _ (State.clusterAdmin_hears _ _ h hm)

theorem exec_culvertRebuildStatus : exec (.culvertRebuildStatus a) s = .next (s.rebuildStatus a) :=
  congrArg _ (State.clusterAdmin_hears _ _ h hm)

end

/-! ### A command that answers and leaves the submission queues -/

/-- The command answers a status with data, and leaves its controller's submission queues and the commands of the I/O queues. -/
def Gives (i : Instr) (s : State) (a : Adm) (st : Status) (data : List Bytes) : Prop :=
  Does i s [.host, .mgmt] [] fun t => replied s t a st data ∧ t.host.cmds = s.host.cmds ∧ t.sq (admOwner a.path) = s.sq (admOwner a.path)

theorem gives_of {i : Instr} {s : State} {a : Adm} {st : Status} {data : List Bytes} (hw : whole s a) (run : exec i s = .next (s.reply a st data))
    (hk : st.kept) : Gives i s a st data := by
  obtain ⟨frame, answers, replied⟩ := answered_frame hw data (Frame.refl s) (by decide) hk
  exact does_of run frame ⟨replied, answers.cmds, answers.sq _⟩

/-! ### Log pages that the state gives (R70, R469) -/

/-- The pages that every controller reads, by LID. -/
def State.pages (s : State) (c : Fin 2) : List (Nat × Bytes) :=
  [(0x01, s.errorPage), (0x02, s.smartPage), (0x03, s.slotPage), (0x04, s.changedNsPage c), (0x05, s.effectsPage),
    (0x06, s.selfTestPage), (0x09, s.endurancePage), (0x20, s.fdpConfigPage), (0x21, s.fdpUsagePage), (0x23, s.fdpEventPage),
    (0x81, s.sanitizePage), (0xBF, s.changedZonePage c), (0xC1, s.dlxPage), (0xC2, s.acctPage), (0xC3, s.ledgerPage),
    (0xC4, s.powerPage), (0xC5, s.domTestPage)]

/-- What reading a page takes from the controller's changes: LIDs 04h and BFh begin anew. -/
def Controller.readChanges (lid : Nat) (x : Controller) : Controller :=
  { x with changedNs := if lid = 4 then [] else x.changedNs, changedZones := if lid = 0xBF then [] else x.changedZones }

theorem State.rearm_ctl (s : State) (c : Fin 2) (lid : Nat) :
    (s.rearm c lid).ctl c = { s.ctl c with masked := (s.ctl c).masked.filter fun k => k % 256 != lid } :=
  State.onCtl_ctl_same s c _

theorem State.changedNsPage_rearm (s : State) (c : Fin 2) (lid : Nat) : (s.rearm c lid).changedNsPage c = s.changedNsPage c := by
  rw [State.changedNsPage, State.rearm_ctl, State.changedNsPage]

theorem State.changedZonePage_rearm (s : State) (c : Fin 2) (lid : Nat) : (s.rearm c lid).changedZonePage c = s.changedZonePage c := by
  rw [State.changedZonePage, State.rearm_ctl, State.changedZonePage]

theorem State.freezePage_rearm (s : State) (c : Fin 2) (lid : Nat) : (s.rearm c lid).freezePage c = s.freezePage c := by
  have queues : (s.rearm c lid).sq c = s.sq c := funext (State.sq_congr (by rw [State.rearm_ctl]) (by rw [State.rearm_ctl]))
  rw [State.freezePage, State.rearm_ctl, queues, State.freezePage]

/-- Of the other LIDs nothing is taken. -/
theorem State.readChanges_id (s : State) (c : Fin 2) {lid : Nat} (h4 : lid ≠ 4) (hz : lid ≠ 0xBF) : s.onCtl c (·.readChanges lid) = s := by
  rw [State.onCtl_congr (g := fun x => x) s c (by rw [Controller.readChanges, if_neg h4, if_neg hz]), State.onCtl_id]

section
variable {s : State} {a : Adm} {lid : Nat} {b : Bytes}

/-- A page is answered once its events are armed again, and its changes are taken. -/
theorem State.logPage_of_pages (lsp : Nat) (hb : (lid, b) ∈ s.pages (admOwner a.path)) :
    s.logPage a lid lsp = ((s.rearm (admOwner a.path) lid).reply a St.ok [b]).onCtl (admOwner a.path) (·.readChanges lid) := by
  by_cases taken : lid = 4 ∨ lid = 0xBF
  · rcases taken with rfl | rfl <;> simp [State.pages] at hb <;> subst hb
    · rw [← State.changedNsPage_rearm s _ 4]
      rfl
    · rw [← State.changedZonePage_rearm s _ 0xBF]
      rfl
  · rw [not_or] at taken
    rw [State.readChanges_id _ _ taken.1 taken.2]
    simp only [State.pages, List.mem_cons, Prod.mk.injEq, List.not_mem_nil, or_false, taken, false_and, false_or] at hb
    rcases hb with ⟨rfl, rfl⟩ | ⟨rfl, rfl⟩ | ⟨rfl, rfl⟩ | ⟨rfl, rfl⟩ | ⟨rfl, rfl⟩ | ⟨rfl, rfl⟩ | ⟨rfl, rfl⟩ | ⟨rfl, rfl⟩ |
      ⟨rfl, rfl⟩ | ⟨rfl, rfl⟩ | ⟨rfl, rfl⟩ | ⟨rfl, rfl⟩ | ⟨rfl, rfl⟩ | ⟨rfl, rfl⟩ | ⟨rfl, rfl⟩ <;> rfl

/-- An answer of `s` stands after a change of a controller outside its admin queues. -/
theorem replied_onCtl {t : State} {st : Status} {data : List Bytes} (c : Fin 2) {f : Controller → Controller}
    (hf : ∀ x, (f x).adminCq = x.adminCq) (h : replied s t a st data) : replied s (t.onCtl c f) a st data := by
  unfold replied at *
  cases hp : admCtrl a.path with
  | none => exact (by rw [hp] at h; exact h)
  | some d =>
    rw [hp] at h
    dsimp only at *
    rw [← h]
    by_cases hd : d = c
    · rw [hd, State.onCtl_ctl_same, hf]
    · rw [State.onCtl_ctl_ne t f hd]

section
variable (h : hears s a)
include h

/-- An answer with the events of a LID armed again. -/
theorem rearmed_answers (lid : Nat) {st : Status} (data : List Bytes) (hk : st.kept) :
    Frame [.host, .mgmt] [] s ((s.rearm (admOwner a.path) lid).reply a st data) ∧
      Answers (s.rearm (admOwner a.path) lid) ((s.rearm (admOwner a.path) lid).reply a st data) ∧
      replied s ((s.rearm (admOwner a.path) lid).reply a st data) a st data :=
  answered_ctl (hears.arrived h) data ⟨rfl, rfl⟩ hk

omit h in
theorem State.rearm_sq (lid : Nat) : (s.rearm (admOwner a.path) lid).sq (admOwner a.path) = s.sq (admOwner a.path) :=
  funext (State.sq_congr (by rw [State.rearm_ctl]) (by rw [State.rearm_ctl]))

variable (hm : s.power.mode ≠ .conserve)
include hm

/-- A page that is answered, or refused, with its events armed again. -/
theorem rearmed_gives {lsp : Nat} {st : Status} {data : List Bytes}
    (page : s.logPage a lid lsp = (s.rearm (admOwner a.path) lid).reply a st data) (hk : st.kept) : Gives (.getLogPage a lid lsp) s a st data := by
  obtain ⟨frame, answers, replied⟩ := rearmed_answers h lid data hk
  exact does_of ((exec_getLogPage h hm lid lsp).trans (congrArg _ page)) frame ⟨replied, answers.cmds, (answers.sq _).trans (State.rearm_sq lid)⟩

theorem getLogPage_page (lsp : Nat) (hb : (lid, b) ∈ s.pages (admOwner a.path)) :
    Gives (.getLogPage a lid lsp) s a St.ok [b] ∧ Completes (.getLogPage a lid lsp) s fun t =>
      (∀ k, k ∈ (s.ctl (admOwner a.path)).masked → k % 256 ≠ lid → k ∈ (t.ctl (admOwner a.path)).masked) ∧
        ((t.ctl (admOwner a.path)).aers = (s.ctl (admOwner a.path)).aers) ∧ (∀ k ∈ (t.ctl (admOwner a.path)).masked, k % 256 ≠ lid) ∧
          (lid = 4 → (t.ctl (admOwner a.path)).changedNs = []) := by
  have run := (exec_getLogPage h hm lid lsp).trans (congrArg _ (State.logPage_of_pages lsp hb))
  obtain ⟨frame, answers, replied⟩ := rearmed_answers (st := St.ok) h lid [b] (.inl rfl)
  refine ⟨does_of run ((frame.trans (frame_onCtl _ _ _)).mono (by decide)) ⟨replied_onCtl _ (fun _ => rfl) replied, answers.cmds, ?_⟩,
    completes_of run ?_⟩
  · refine (funext (State.sq_congr ?_ ?_)).trans ((answers.sq _).trans (State.rearm_sq lid)) <;> rw [State.onCtl_ctl_same] <;> rfl
  · have masked := answers.field (·.masked) (fun _ _ _ _ => rfl) (admOwner a.path)
    have aers := answers.field (·.aers) (fun _ _ _ _ => rfl) (admOwner a.path)
    rw [State.rearm_ctl] at masked aers
    rw [State.onCtl_ctl_same]
    refine ⟨fun k hk hl => ?_, aers, fun k hk => ?_, fun h4 => if_pos h4⟩
    · exact masked ▸ List.mem_filter.2 ⟨hk, by simpa using hl⟩
    · have := (List.mem_filter.1 (masked ▸ hk : k ∈ (s.ctl (admOwner a.path)).masked.filter _)).2
      simpa using this

/-! ### The other log pages (R76, R467, R470) -/

theorem getLogPage_frozen (hl : 2 ≤ s.level (admOwner a.path)) (lsp : Nat) :
    Gives (.getLogPage a 0xC0 lsp) s a St.ok [s.freezePage (admOwner a.path)] := by
  refine rearmed_gives h hm ?_ (.inl rfl)
  rw [← State.freezePage_rearm s _ 0xC0]
  exact if_neg (Nat.not_lt.2 hl)

theorem getLogPage_unfrozen (hl : s.level (admOwner a.path) < 2) (lsp : Nat) : Gives (.getLogPage a 0xC0 lsp) s a St.invalidField [] :=
  rearmed_gives h hm (if_pos hl) (.inr rfl)

omit h hm in
theorem logFormat_none {lsp : Nat} (hl : 2 ≤ natBits lsp 1 2) : logFormat lsp = none := by
  unfold logFormat
  split
  · omega
  · omega
  · rfl

omit h hm in
theorem logFormat_some {lsp : Nat} (hl : natBits lsp 1 2 < 2) : logFormat lsp = some (natBits lsp 1 2 == 1) := by
  unfold logFormat
  generalize natBits lsp 1 2 = n at *
  interval_cases n <;> rfl

theorem getLogPage_telemetry_unformatted {lsp : Nat} (hl : 2 ≤ natBits lsp 1 2) (ht : lid = 7 ∨ lid = 8) :
    Gives (.getLogPage a lid lsp) s a St.invalidField [] := by
  refine rearmed_gives h hm ?_ (.inr rfl)
  have none := logFormat_none hl
  rcases ht with rfl | rfl
  · show State.teleHostLog _ a lsp = _
    rw [State.teleHostLog, none]
  · show State.teleCtrlLog _ a lsp = _
    rw [State.teleCtrlLog, none]

/-- A telemetry read: the sets as it leaves them, and its answer. -/
theorem telemetry_answers {lsp : Nat} {f : Mgmt → Mgmt} {data : List Bytes} (hl : (f s.mgmt).log = s.mgmt.log ∧ (f s.mgmt).logDropped = s.mgmt.logDropped)
    (hr : (f s.mgmt).replies = s.mgmt.replies)
    (page : s.logPage a lid lsp = ((s.rearm (admOwner a.path) lid).onMgmt f).reply a St.ok data) :
    Changes (.getLogPage a lid lsp) s [.host, .mgmt] [] fun t => (∃ l, t.mgmt = { f s.mgmt with replies := l }) ∧ replied s t a St.ok data := by
  have queues : ∀ c, admCtrl a.path = some c → (((s.rearm (admOwner a.path) lid).onMgmt f).ctl c).adminCq = (s.ctl c).adminCq ∧
      (((s.rearm (admOwner a.path) lid).onMgmt f).ctl c).adminSq.head = (s.ctl c).adminSq.head := fun c hc => by
    have owner : admOwner a.path = c := by rw [admOwner, hc]; rfl
    rw [State.onMgmt_ctl, owner, State.rearm_ctl]
    exact ⟨rfl, rfl⟩
  obtain ⟨frame, answers, replied⟩ := answered_of (st := St.ok) (hears.arrived h) data
    ((frame_onCtl s (admOwner a.path) fun x => { x with masked := x.masked.filter fun k => k % 256 != lid }).trans (frame_onMgmt _ f hl))
    (by decide) hr queues (.inl rfl)
  exact changes_of ((exec_getLogPage h hm lid lsp).trans (congrArg _ page))
    (within_of_frame (frame.mono (by decide)) (List.Subset.refl _) (List.forall_mem_nil _)) ⟨answers.mgmt, replied⟩

theorem getLogPage_host {lsp : Nat} (hl : natBits lsp 1 2 < 2) (hc : natBits lsp 0 1 = 1) : Changes (.getLogPage a 7 lsp) s [.host, .mgmt] [] fun t =>
    t.mgmt.teleHost = some s.teleSet ∧ t.mgmt.teleCtrl = s.mgmt.teleCtrl ∧
      replied s t a St.ok (s.telePage 7 (some s.teleSet) (natBits lsp 1 2 == 1)) := by
  have page : s.logPage a 7 lsp = ((s.rearm (admOwner a.path) 7).onMgmt fun m => { m with teleHost := some s.teleSet }).reply a St.ok
      (s.telePage 7 (some s.teleSet) (natBits lsp 1 2 == 1)) := by
    show State.teleHostLog _ a lsp = _
    rw [State.teleHostLog, logFormat_some hl]
    dsimp only
    rw [if_pos hc]
    rfl
  obtain ⟨t, run, parts, words, ⟨l, mgmt⟩, replied⟩ := telemetry_answers (f := fun m => { m with teleHost := some s.teleSet }) h hm ⟨rfl, rfl⟩ rfl page
  exact ⟨t, run, parts, words, by rw [mgmt], by rw [mgmt], replied⟩

theorem getLogPage_ctrl {lsp : Nat} (hl : natBits lsp 1 2 < 2) : Changes (.getLogPage a 8 lsp) s [.host, .mgmt] [] fun t =>
    t.mgmt.teleCtrl = none ∧ t.mgmt.teleHost = s.mgmt.teleHost ∧
      replied s t a St.ok (s.telePage 8 s.mgmt.teleCtrl (natBits lsp 1 2 == 1)) := by
  have page : s.logPage a 8 lsp = ((s.rearm (admOwner a.path) 8).onMgmt fun m => { m with teleCtrl := none }).reply a St.ok
      (s.telePage 8 s.mgmt.teleCtrl (natBits lsp 1 2 == 1)) := by
    show State.teleCtrlLog _ a lsp = _
    rw [State.teleCtrlLog, logFormat_some hl]
    rfl
  obtain ⟨t, run, parts, words, ⟨l, mgmt⟩, replied⟩ := telemetry_answers (f := fun m => { m with teleCtrl := none }) h hm ⟨rfl, rfl⟩ rfl page
  exact ⟨t, run, parts, words, by rw [mgmt], by rw [mgmt], replied⟩

theorem getLogPage_unknown (hl : lid ∉ [1, 2, 3, 4, 5, 6, 7, 8, 9, 0x20, 0x21, 0x22, 0x23, 0x81, 0xBF, 0xC0, 0xC1, 0xC2, 0xC3, 0xC4, 0xC5]) (lsp : Nat) :
    Gives (.getLogPage a lid lsp) s a St.invalidLog [] := by
  refine rearmed_gives h hm ?_ (.inr rfl)
  unfold State.logPage
  split <;> simp_all

/-! ### Identify, and Culvert Rebuild Status (R62, R78, R274) -/

theorem identify_gives {cns csi nsid : Nat} {data : List Bytes} (page : s.identify a cns csi nsid = s.reply a St.ok data) :
    Gives (.identify a ⟨cns, csi⟩ nsid) s a St.ok data :=
  gives_of (hears.arrived h) ((exec_identify h hm cns csi nsid).trans (congrArg _ page)) (.inl rfl)

theorem identify_refuses {cns csi nsid : Nat} {st : Status} (page : s.identify a cns csi nsid = s.reply a st [])
    (hk : st = St.invalidField ∨ st = St.invalidNamespace) : Gives (.identify a ⟨cns, csi⟩ nsid) s a st [] :=
  gives_of (hears.arrived h) ((exec_identify h hm cns csi nsid).trans (congrArg _ page)) (by rcases hk with rfl | rfl <;> exact .inr rfl)

theorem identify_unknown {cns : Nat} (hc : cns ∉ [0, 1, 2, 3, 5, 6, 7, 8, 0x10, 0x11, 0x12, 0x13, 0x1C, 0x1F]) (csi nsid : Nat) :
    Gives (.identify a ⟨cns, csi⟩ nsid) s a St.invalidField [] := by
  refine identify_refuses h hm ?_ (.inl rfl)
  unfold State.identify
  split <;> simp_all

theorem identify_otherSet {cns csi : Nat} (h0 : csi ≠ 0) (h2 : csi ≠ 2) (hc : cns = 5 ∨ cns = 6 ∨ cns = 7) (nsid : Nat) :
    Gives (.identify a ⟨cns, csi⟩ nsid) s a St.invalidField [] := by
  have other : ¬(csi = 0 ∨ csi = 2) := by simp [h0, h2]
  rcases hc with rfl | rfl | rfl <;> exact identify_refuses h hm (if_neg other) (.inl rfl)

theorem identify_ctrlSet {csi : Nat} (hc : csi = 0 ∨ csi = 2) (nsid : Nat) :
    Gives (.identify a ⟨6, csi⟩ nsid) s a St.ok [identifyCtrlSet (admOwner a.path) csi] := identify_gives h hm (if_pos hc)

theorem identify_attached {nsid : Nat} {n : Namespace} (h1 : 1 ≤ nsid) (h256 : nsid ≤ 256) (hn : s.ns nsid = some n)
    (on : n.on (admOwner a.path) = true) (csi : Nat) : Gives (.identify a ⟨0, csi⟩ nsid) s a St.ok [s.identifyNs n] := by
  refine identify_gives h hm ((if_neg (by omega)).trans ?_)
  rw [hn]
  exact if_pos on

theorem identify_noNamespace {nsid : Nat} (hn : nsid = 0 ∨ 256 < nsid) (csi : Nat) :
    Gives (.identify a ⟨0, csi⟩ nsid) s a St.invalidNamespace [] := identify_refuses h hm (if_pos hn) (.inr rfl)

theorem culvertRebuildStatus_gives (hl : 3 ≤ s.level (admOwner a.path)) : Gives (.culvertRebuildStatus a) s a St.ok [s.rebuildPage] :=
  gives_of (hears.arrived h) ((exec_culvertRebuildStatus h hm).trans (congrArg _ (if_neg (Nat.not_lt.2 hl)))) (.inl rfl)

theorem culvertRebuildStatus_refuses (hl : s.level (admOwner a.path) < 3) : Gives (.culvertRebuildStatus a) s a St.invalidOpcode [] :=
  gives_of (hears.arrived h) ((exec_culvertRebuildStatus h hm).trans (congrArg _ (if_pos hl))) (.inr rfl)

end

theorem invalidAdminOpcode_refuses (h : hears s a) {op : Nat} (hop : op ∉ adminOpcodes) : Gives (.invalidAdminOpcode a op) s a St.invalidOpcode [] := by
  have runs : (if adminOpcodes.contains op then s else s.admin a fun s => s.reply a St.invalidOpcode []) = s.reply a St.invalidOpcode [] := by
    rw [if_neg (by simpa using hop), State.admin_hears _ h]
  exact gives_of (hears.arrived h) (congrArg _ runs) (.inr rfl)

end

/-! ### The sizes of the pages -/

theorem padTo_length (n : Nat) (l : Bytes) : (padTo n l).length = n := by
  rw [padTo, fill, List.length_append, List.length_take, List.length_replicate]
  omega

theorem padTo_take {k n : Nat} (l m : Bytes) (hl : l.length = k) (hk : k ≤ n) : (padTo n (l ++ m)).take k = l := by
  subst hl
  rw [padTo, List.take_append_of_le_length (by rw [List.length_take, List.length_append]; omega), List.take_take, Nat.min_eq_left hk, List.take_left]

/-- A page that begins with the turn. -/
theorem turnPage (t : Nat) (m : Bytes) : (padTo 4096 (leBytes 8 t ++ m)).length = 4096 ∧ (padTo 4096 (leBytes 8 t ++ m)).take 8 = leBytes 8 t :=
  ⟨padTo_length _ _, padTo_take _ _ (leBytes_length _ _) (by decide)⟩

/-! ### In Conserve (R442) -/

section
variable {s : State} {n : Fin 24} (hm : s.power.mode = .conserve) (ho : (s.dom n).state = .off) (hv : (s.dom n).votes = [])
include hm ho hv

/-- A vote on an OFF domain wakes it. -/
theorem State.holdVote_off (client : Nat) : s.holdVote n client =
    ((s.onDom n fun d => { d with votes := client :: d.votes }).startWake n).restartIdle n := by
  have fresh : ((s.dom n).votes.contains client || s.isDead n) = false := by rw [hv, State.isDead, ho]; rfl
  rw [State.holdVote, if_neg (by rw [fresh]; decide), State.touch_off _ _ _ (by rw [State.onDom_dom_same, ho]) (by rw [State.onDom_power_mode, hm]; decide)]

/-- A command of a cluster that sleeps waits for it. -/
theorem State.onCluster_off (hn : s.adminCluster = some n) (i : Instr) (k : State → State) :
    s.onCluster i k = (s.holdVote n (clusterClient n)).stall n i := by
  rw [State.onCluster, if_neg (by simp [hm]), hn]
  refine if_neg ?_
  obtain ⟨len, woken⟩ := State.wake_dom_same (s.onDom n fun d => { d with votes := clusterClient n :: d.votes }) n
  rw [State.holdVote_off hm ho hv, State.isOn, woken]
  exact Bool.false_ne_true

theorem cluster_wakes (hn : s.adminCluster = some n) {a : Adm} (h : hears s a) {i : Instr} {k : State → State}
    (run : exec i s = .next (s.clusterAdmin a i k)) : Does i s [.doms, .idle] [] fun t =>
      (t.dom n).votes = [clusterClient n] ∧ (t.dom n).state = .waking ∧ (t.dom n).stalled = (s.dom n).stalled ++ [i] ∧ othersSame n s t := by
  obtain ⟨hopen, hrest, hwhole, -⟩ := h
  have waits : s.clusterAdmin a i k =
      ((((s.onDom n fun d => { d with votes := clusterClient n :: d.votes }).startWake n).restartIdle n).stall n i) := by
    rw [State.clusterAdmin, State.hear_eq _ hopen (fun _ => hrest) hwhole, State.onCluster_off hm ho hv hn, State.holdVote_off hm ho hv]
  have voted : Frame [.doms] [] s (s.onDom n fun d => { d with votes := clusterClient n :: d.votes }) := frame_onDom_keep s n _ fun _ => rfl
  obtain ⟨len, woken⟩ := State.wake_dom_same (s.onDom n fun d => { d with votes := clusterClient n :: d.votes }) n
  rw [State.onDom_dom_same] at woken
  refine does_of (run.trans (congrArg _ waits))
    ((((voted.trans (frame_startWake _ n)).trans (frame_restartIdle _ n)).trans (frame_stall _ n i)).mono (by decide)) ?_
  rw [State.stall_dom_same, woken]
  refine ⟨by rw [hv], rfl, rfl, fun m hne => ?_⟩
  rw [othersSame_stall _ _ _ m hne, othersSame_wake _ _ m hne, State.onDom_dom_ne _ _ hne]

end

/-- Settles O49: a page is answered as its lemma above gives it, and in Conserve each of the commands is one of `cluster_wakes`. -/
theorem pagesAndStructuresAnswer : Obligations.PagesAndStructuresAnswer := by
  unfold Obligations.PagesAndStructuresAnswer
  intro s a lid lsp cns csi nsid op h
  refine ⟨fun hm => ⟨fun b hb => getLogPage_page h hm lsp hb, fun hl => getLogPage_frozen h hm hl lsp, fun hl => getLogPage_unfrozen h hm hl lsp,
    fun hl => ⟨getLogPage_telemetry_unformatted h hm hl (.inl rfl), getLogPage_telemetry_unformatted h hm hl (.inr rfl)⟩,
    getLogPage_host h hm, getLogPage_ctrl h hm, fun hl => getLogPage_unknown h hm hl lsp,
    identify_gives h hm rfl, identify_gives h hm rfl, identify_gives h hm rfl,
    fun n h1 h256 hn on => identify_attached h hm h1 h256 hn on csi, fun hn => identify_noNamespace h hm hn csi,
    fun hc => identify_unknown h hm hc csi nsid, fun h0 h2 hc => identify_otherSet h hm h0 h2 hc nsid, fun hc => identify_ctrlSet h hm hc nsid,
    culvertRebuildStatus_gives h hm, culvertRebuildStatus_refuses h hm⟩, invalidAdminOpcode_refuses h, ?_, padTo_length _ _, ?_⟩
  · rintro b (rfl | rfl | rfl | rfl | rfl) <;>
      simp only [State.dlxPage, State.acctPage, State.ledgerPage, State.powerPage, State.domTestPage, List.append_assoc] <;> exact turnPage _ _
  · rintro n i hm hn ho hv (rfl | rfl | rfl)
    · exact cluster_wakes hm ho hv hn h (k := fun s => s.logPage a lid lsp) rfl
    · exact cluster_wakes hm ho hv hn h (k := fun s => s.identify a cns csi nsid) rfl
    · exact cluster_wakes hm ho hv hn h (k := fun s => s.rebuildStatus a) rfl

end Sys2Proof.Machine
end

section
/-! Namespaces, erase operations, directives and NVMe-MI over an admin queue (R54, R62, R177, R297, R298, R460), and O50. -/

namespace Sys2Proof.Machine

open Sys2Proof.Safety

/-! ### When the commands run -/

section
variable {s : State} {a : Adm} (h : takes s a)
include h

theorem State.clusterAdmin_takes (k : State → State) (i : Instr) : s.clusterAdmin a i k = k s :=
  State.clusterAdmin_hears _ _ (hears_of_takes h) h.2.2.1

theorem takes.arrived : whole s a := h.2.2.2

theorem exec_namespaceManagement (m : NsMgmt) : exec (.namespaceManagement a m) s = .next (s.manageNs a m) :=
  congrArg _ (State.clusterAdmin_takes h _ _)

theorem exec_namespaceAttachment (nsid m : Nat) (attach : Bool) : exec (.namespaceAttachment a nsid m attach) s = .next (s.attachNs a nsid m attach) :=
  congrArg _ (State.clusterAdmin_takes h _ _)

theorem exec_formatNvm (nsid ses lbaf pi : Nat) (extended piFirst : Bool) :
    exec (.formatNvm a nsid ses lbaf pi extended piFirst) s = .next (s.format a nsid ses lbaf pi extended piFirst) :=
  congrArg _ (State.clusterAdmin_takes h _ _)

theorem exec_sanitizeCryptoErase (ndas : Bool) : exec (.sanitizeCryptoErase a ndas) s = .next (s.sanitize a 1 ndas) :=
  congrArg _ (State.clusterAdmin_takes h _ _)

theorem exec_sanitizeBlockErase (ndas : Bool) : exec (.sanitizeBlockErase a ndas) s = .next (s.sanitize a 2 ndas) :=
  congrArg _ (State.clusterAdmin_takes h _ _)

theorem exec_directiveReceive (nsid dtype doper : Nat) :
    exec (.directiveReceive a nsid dtype doper) s = .next (s.recvDirective a nsid dtype doper) := congrArg _ (State.clusterAdmin_takes h _ _)

theorem exec_directiveSend (nsid dtype doper v : Nat) :
    exec (.directiveSend a nsid dtype doper v) s = .next (s.sendDirective a nsid dtype doper v) := congrArg _ (State.clusterAdmin_takes h _ _)

theorem exec_nvmeMiSend (m : MiCmd) : exec (.nvmeMiSend a m) s = .next (s.miComplete a (miSends m) m) :=
  congrArg _ (State.riderAdmin_hears _ _ (hears_of_takes h))

theorem exec_nvmeMiReceive (m : MiCmd) : exec (.nvmeMiReceive a m) s = .next (s.miComplete a (!miSends m) m) :=
  congrArg _ (State.riderAdmin_hears _ _ (hears_of_takes h))

end

/-- The command answers a status without data, and leaves the commands of the I/O queues. -/
def Ends (i : Instr) (s : State) (a : Adm) (st : Status) : Prop :=
  Does i s [.host, .mgmt] [] fun t => replied s t a st [] ∧ t.host.cmds = s.host.cmds

theorem ends_of {i : Instr} {s : State} {a : Adm} {st : Status} (hw : whole s a) (run : exec i s = .next (s.reply a st [])) (hk : st.kept) :
    Ends i s a st := by
  obtain ⟨frame, answers, replied⟩ := answered_frame hw [] (Frame.refl s) (by decide) hk
  exact does_of run frame ⟨replied, answers.cmds⟩

/-! ### The namespace table -/

section
variable (s : State)

theorem State.ns_nsid {i : Nat} {n : Namespace} (h : s.ns i = some n) : n.nsid = i := by simpa using List.find?_some h

theorem State.ns_onNs_same (i : Nat) {f : Namespace → Namespace} (hf : ∀ n, (f n).nsid = n.nsid) : (s.onNs i f).ns i = (s.ns i).map f :=
  find?_updIf_same (fun n hn => by simpa [hf] using hn) _

theorem State.ns_onNs_ne {i j : Nat} {f : Namespace → Namespace} (hf : ∀ n, (f n).nsid = n.nsid) (h : j ≠ i) : (s.onNs i f).ns j = s.ns j :=
  find?_updIf_other (fun n hn => by simp_all [Ne.symm h]) _

theorem frame_onNs (i : Nat) (f : Namespace → Namespace) : Frame [.nv] [] s (s.onNs i f) := frame_onNv s _

theorem State.onNs_other (i : Nat) (f : Namespace → Namespace) :
    (s.onNs i f).galley = s.galley ∧ (s.onNs i f).host = s.host ∧ (s.onNs i f).memory = s.memory ∧ (s.onNs i f).mgmt = s.mgmt := ⟨rfl, rfl, rfl, rfl⟩

/-- The operation that holds a namespace. -/
def Namespace.held (k : Nat) (n : Namespace) : Namespace := { n with busy := k }

/-- Every namespace of a list is held, and the others are as they were. -/
theorem State.holdAll_busy (k : Nat) (ids : List Nat) (s : State) :
    ∀ n ∈ (ids.foldl (fun s i => s.onNs i (·.held k)) s).nv.namespaces,
      (∃ m ∈ s.nv.namespaces, m.nsid = n.nsid ∧ (m.busy = k → n.busy = k)) ∧ (n.nsid ∈ ids → n.busy = k) := by
  induction ids generalizing s with
  | nil => exact fun n hn => ⟨⟨n, hn, rfl, id⟩, fun h => absurd h List.not_mem_nil⟩
  | cons i ids ih =>
    intro n hn
    obtain ⟨⟨m, hm, hid, hbusy⟩, hall⟩ := ih (s.onNs i (·.held k)) n hn
    obtain ⟨x, hx, rfl⟩ : ∃ x ∈ s.nv.namespaces, (if x.nsid == i then x.held k else x) = m := by
      rwa [State.onNs, State.onNv, updIf_eq_map, List.mem_map] at hm
    by_cases hi : x.nsid = i
    · rw [if_pos (by simpa using hi)] at hid hbusy
      exact ⟨⟨x, hx, hid, fun _ => hbusy rfl⟩, fun _ => hbusy rfl⟩
    · rw [if_neg (by simpa using hi)] at hid hbusy
      exact ⟨⟨x, hx, hid, hbusy⟩, fun hmem => hall ((List.mem_cons.1 hmem).resolve_left fun he => hi (hid.trans he))⟩

/-! ### Requests booked at the port (R203) -/

/-- Firmware's requests, booked after those that wait. -/
def State.booked (s : State) (l : List (Nat × Nat × Nat × MapOp)) : State := s.onGalley fun g => { g with booked := g.booked ++ l }

theorem State.booked_booked (l m : List (Nat × Nat × Nat × MapOp)) : (s.booked l).booked m = s.booked (l ++ m) :=
  congrArg (fun l => s.onGalley fun g => { g with booked := l }) (List.append_assoc _ _ _)

theorem State.setTable_books (nst : Bool) (word i v : Nat) : ∃ b, s.setTable nst word i v = s.booked [b] := ⟨_, rfl⟩

theorem State.setGranules_books (base : Nat) (l : List Nat) : ∃ m, s.setGranules base l = s.booked m := by
  induction l generalizing s base with
  | nil => exact ⟨[], (congrArg (fun l => s.onGalley fun g => { g with booked := l }) (List.append_nil _)).symm⟩
  | cons g t ih =>
    obtain ⟨b, first⟩ := s.setTable_books false 0 base (g + 2 ^ 31)
    obtain ⟨m, rest⟩ := ih (s.booked [b]) (base + 1)
    exact ⟨[b] ++ m, by rw [State.setGranules, first, rest, State.booked_booked]⟩

/-- The granules of a namespace are free before, and only requests at the port come of them. -/
theorem State.allocate_books {nsid grans base : Nat} {u : State} (h : s.allocate nsid grans = some (base, u)) :
    grans ≤ s.gransFree ∧ ∃ l, l ≠ [] ∧ u = s.booked l := by
  unfold State.allocate at h
  split_ifs at h with few
  split at h
  · cases h
  · next base' _ =>
    cases h
    obtain ⟨m, granules⟩ := s.setGranules_books base (((List.range (s.nv.grans + s.granulesHeld.length)).filter fun g => !s.granulesHeld.contains g).take grans)
    obtain ⟨b, first⟩ := (s.booked m).setTable_books true 0 (nsid - 1) (base + 2 ^ 31)
    obtain ⟨c, second⟩ := (s.booked (m ++ [b])).setTable_books true 1 (nsid - 1) grans
    refine ⟨Nat.le_of_not_lt few, m ++ [b] ++ [c], by simp, ?_⟩
    rw [granules, first, State.booked_booked, second, State.booked_booked]

end

/-! ### Creation (R177) -/

/-- A namespace in the table, with its create waiting for the port. -/
def State.created (s : State) (a : Adm) (x : Namespace) : State :=
  (s.onNv fun v => { v with namespaces := v.namespaces ++ [x], nextKey := v.nextKey + 1 }).onGalley fun g =>
    { g with creating := g.creating ++ [(a, x.nsid)] }

theorem frame_created (s : State) (a : Adm) (x : Namespace) : Frame [.nv, .galley] [] s (s.created a x) := (frame_onNv s _).trans (frame_onGalley _ _)

section
variable {s : State} {a : Adm} (h : takes s a) {nsze lbaf pi : Nat} {extended piFirst zoned : Bool} {handles : List Nat}
include h

theorem create_unsized (hz : nsze = 0) :
    Ends (.namespaceManagement a (.create nsze lbaf extended pi piFirst zoned handles)) s a St.invalidField := by
  have refused : s.createNs a nsze lbaf extended pi piFirst zoned handles = s.reply a St.invalidField [] := by
    rw [State.createNs, if_pos (by simp [hz])]
  exact ends_of (takes.arrived h) ((exec_namespaceManagement h _).trans (congrArg _ refused)) (.inr rfl)

variable (hz : nsze ≠ 0) (hl : handles.length ≤ 64) (hh : ∀ h ∈ handles, h < 64)
include hz hl hh

omit h in
/-- The size and the handles of a create are those of a namespace. -/
theorem create_sized : (decide (nsze = 0) || decide (64 < handles.length) || handles.any fun h => decide (64 ≤ h)) = false := by
  simpa [hz, hl] using hh

theorem create_unformatted (hf : formatOk lbaf pi = false) :
    Ends (.namespaceManagement a (.create nsze lbaf extended pi piFirst zoned handles)) s a St.invalidFormat := by
  have refused : s.createNs a nsze lbaf extended pi piFirst zoned handles = s.reply a St.invalidFormat [] := by
    rw [State.createNs, create_sized hz hl hh, if_neg Bool.false_ne_true, if_pos (by rw [hf]; rfl)]
  exact ends_of (takes.arrived h) ((exec_namespaceManagement h _).trans (congrArg _ refused)) (.inr rfl)

variable (hf : formatOk lbaf pi = true)
include hf

theorem create_full (hn : (List.range 256).find? (fun i => (s.ns (i + 1)).isNone) = none) :
    Ends (.namespaceManagement a (.create nsze lbaf extended pi piFirst zoned handles)) s a St.nsidUnavailable := by
  have refused : s.createNs a nsze lbaf extended pi piFirst zoned handles = s.reply a St.nsidUnavailable [] := by
    rw [State.createNs, create_sized hz hl hh, if_neg Bool.false_ne_true, if_neg (by simp [hf]), hn]
  exact ends_of (takes.arrived h) ((exec_namespaceManagement h _).trans (congrArg _ refused)) (.inr rfl)

variable {n : Nat} (hn : (List.range 256).find? (fun i => (s.ns (i + 1)).isNone) = some n)
include hn

theorem create_short (ha : s.allocate (n + 1) (gransOf (dataGransOf nsze lbaf) lbaf) = none) :
    Ends (.namespaceManagement a (.create nsze lbaf extended pi piFirst zoned handles)) s a St.insufficientCapacity := by
  have refused : s.createNs a nsze lbaf extended pi piFirst zoned handles = s.reply a St.insufficientCapacity [] := by
    rw [State.createNs, create_sized hz hl hh, if_neg Bool.false_ne_true, if_neg (by simp [hf]), hn]
    dsimp only
    rw [ha]
  exact ends_of (takes.arrived h) ((exec_namespaceManagement h _).trans (congrArg _ refused)) (.inr rfl)

theorem create_makes {base : Nat} {u : State} (ha : s.allocate (n + 1) (gransOf (dataGransOf nsze lbaf) lbaf) = some (base, u)) :
    Does (.namespaceManagement a (.create nsze lbaf extended pi piFirst zoned handles)) s [.galley, .nv] [] fun t =>
      (∃ x, t.nv.namespaces = s.nv.namespaces ++ [x] ∧ x.nsid = n + 1 ∧ x.nsze = nsze ∧ x.lbaf = lbaf ∧ x.extended = extended ∧ x.pi = pi ∧
        x.piFirst = piFirst ∧ x.zoned = zoned ∧ x.handles = handles ∧ x.gbase = base ∧ x.grans = gransOf (dataGransOf nsze lbaf) lbaf ∧
        x.attached = 0 ∧ x.key = s.nv.nextKey) ∧
      t.galley.creating = s.galley.creating ++ [(a, n + 1)] ∧ s.galley.booked.length < t.galley.booked.length ∧
      t.nv.nextKey = s.nv.nextKey + 1 ∧ gransOf (dataGransOf nsze lbaf) lbaf ≤ s.gransFree ∧ t.galley.slots = s.galley.slots := by
  obtain ⟨free, l, requests, rfl⟩ := s.allocate_books ha
  have longer : s.galley.booked.length < (s.galley.booked ++ l).length := by
    rw [List.length_append]
    exact Nat.lt_add_of_pos_right (List.length_pos_iff.2 requests)
  have made : s.createNs a nsze lbaf extended pi piFirst zoned handles = (s.booked l).created a
      { nsid := n + 1, nsze := nsze, lbaf := lbaf, extended := extended, pi := pi, piFirst := piFirst, zoned := zoned, handles := handles
        dataGrans := dataGransOf nsze lbaf, gbase := base, grans := gransOf (dataGransOf nsze lbaf) lbaf, key := s.nv.nextKey } := by
    rw [State.createNs, create_sized hz hl hh, if_neg Bool.false_ne_true, if_neg (by simp [hf]), hn]
    dsimp only
    rw [ha]
    rfl
  have frame := (frame_onGalley s fun g => { g with booked := g.booked ++ l }).trans (frame_created (s.booked l) a
    { nsid := n + 1, nsze := nsze, lbaf := lbaf, extended := extended, pi := pi, piFirst := piFirst, zoned := zoned, handles := handles
      dataGrans := dataGransOf nsze lbaf, gbase := base, grans := gransOf (dataGransOf nsze lbaf) lbaf, key := s.nv.nextKey })
  exact does_of ((exec_namespaceManagement h _).trans (congrArg _ made)) (frame.mono (by decide))
    ⟨⟨_, rfl, rfl, rfl, rfl, rfl, rfl, rfl, rfl, rfl, rfl, rfl, rfl, rfl⟩, rfl, longer, rfl, free, rfl⟩

end

/-! ### The end of a create and of an erase operation (R298) -/

section
variable {s : State} {a : Adm} (h : takes s a)
include h

/-- Creates complete once no request of firmware's own waits. -/
theorem replyCreated_completes {i : Nat} (hc : s.galley.creating = [(a, i)]) (hp : s.portBusy = false) :
    replied s s.replyCreated a (St.done i) [] ∧ s.replyCreated.galley.creating = [] := by
  have completes : s.replyCreated = (s.onGalley fun g => { g with creating := [] }).reply a (St.done i) [] := by
    rw [State.replyCreated, if_neg (by simp [hc, hp]), hc]
    rfl
  obtain ⟨-, answers, replied⟩ := answered_frame (st := St.done i) (takes.arrived h) [] (frame_onGalley s fun g => { g with creating := [] }) (by decide)
    (.inl rfl)
  rw [completes]
  exact ⟨replied, by rw [show State.galley _ = _ from answers.frame.1 .galley (by decide)]; rfl⟩

omit h in
/-- An erase operation that has ended, before its command completes. -/
def State.wiped (s : State) (w : Wipe) : State :=
  (if w.kind = 3 then s.onNv fun v => { v with namespaces := v.namespaces.filter fun n => !w.nsids.contains n.nsid }
    else w.nsids.foldl (fun s i => s.onNs i (·.held 0))
      (if w.format.isSome then s
        else (s.onGalley fun g => { g with slots := g.slots.filter fun x => !x.2.pins.isEmpty || x.2.inFlight }).onNv fun v =>
          { v with sanitize := 1, image := none })).onGalley fun g => { g with wipe := none }

omit h in
theorem frame_wiped (w : Wipe) : Frame [.nv, .galley] [] s (s.wiped w) := by
  unfold State.wiped
  split_ifs
  · exact ((frame_onNv s _).trans (frame_onGalley _ _)).mono (by decide)
  · exact ((frame_foldl (fun s i => frame_onNs s i (·.held 0)) w.nsids s).trans (frame_onGalley _ _)).mono (by decide)
  · exact ((((frame_onGalley s _).trans (frame_onNv _ _)).trans (frame_foldl (fun s i => frame_onNs s i (·.held 0)) w.nsids _)).trans
      (frame_onGalley _ _)).mono (by decide)

omit h in
theorem State.wiped_deletes {w : Wipe} (hk : w.kind = 3) : ∀ n ∈ (s.wiped w).nv.namespaces, n.nsid ∉ w.nsids := by
  intro n hn
  rw [State.wiped, if_pos hk] at hn
  simpa using (List.mem_filter.1 hn).2

theorem wipeTurn_completes {w : Wipe} (hw : s.galley.wipe = some w) (hc : w.closing = true) (ha : w.adm = some a) (hp : s.portBusy = false) :
    replied s s.wipeTurn a St.ok [] ∧ s.wipeTurn.galley.wipe = none ∧ (w.kind = 3 → ∀ n ∈ s.wipeTurn.nv.namespaces, n.nsid ∉ w.nsids) := by
  have ends : s.wipeTurn = (s.wiped w).reply a St.ok [] := by
    rw [State.wipeTurn, hw]
    dsimp only
    rw [if_pos hc, if_neg (by simp [hp]), State.endWipe, ha]
    rfl
  obtain ⟨-, answers, replied⟩ := answered_frame (st := St.ok) (takes.arrived h) [] (frame_wiped (s := s) w) (by decide) (.inl rfl)
  have galley : ((s.wiped w).reply a St.ok []).galley = (s.wiped w).galley := answers.frame.1 .galley (by decide)
  have nv : ((s.wiped w).reply a St.ok []).nv = (s.wiped w).nv := answers.frame.1 .nv (by decide)
  rw [ends, galley, nv]
  exact ⟨replied, rfl, State.wiped_deletes⟩

end

/-! ### Attachment (R54) -/

section
variable (s : State) (c d : Fin 2) (nsid mask : Nat)

/-- A change of a namespace, noted for one controller where the mask names it. -/
def State.noteAt : State :=
  if mask / 2 ^ c.val % 2 = 1 then
    (s.onCtl c fun x => { x with changedNs := if x.changedNs.contains nsid then x.changedNs else x.changedNs ++ [nsid] }).raise c 2 0 0x04
  else s

theorem State.noteChange_eq : s.noteChange nsid mask = (s.noteAt 0 nsid mask).noteAt 1 nsid mask := by
  rw [State.noteChange, show List.finRange 2 = [0, 1] by decide]
  rfl

theorem frame_noteAt : Frame [.host, .mgmt] [] s (s.noteAt c nsid mask) := by
  unfold State.noteAt
  split_ifs
  · obtain ⟨l, m, e, answers⟩ := State.raise_answers
      (s.onCtl c fun x => { x with changedNs := if x.changedNs.contains nsid then x.changedNs else x.changedNs ++ [nsid] }) c 2 0 0x04
    exact (((frame_onCtl s c _).trans (frame_onCtl _ c _)).trans answers.frame).mono (by decide)
  · exact (Frame.refl s).mono (by decide)

theorem State.noteAt_changedNs : ((s.noteAt c nsid mask).ctl d).changedNs =
    if d = c ∧ mask / 2 ^ c.val % 2 = 1 ∧ nsid ∉ (s.ctl d).changedNs then (s.ctl d).changedNs ++ [nsid] else (s.ctl d).changedNs := by
  unfold State.noteAt
  by_cases named : mask / 2 ^ c.val % 2 = 1
  · rw [if_pos named]
    obtain ⟨l, m, e, answers⟩ := State.raise_answers
      (s.onCtl c fun x => { x with changedNs := if x.changedNs.contains nsid then x.changedNs else x.changedNs ++ [nsid] }) c 2 0 0x04
    rw [answers.field (·.changedNs) fun _ _ _ _ => rfl]
    by_cases hd : d = c
    · subst hd
      rw [State.onCtl_ctl_same, State.onCtl_ctl_same]
      by_cases noted : nsid ∈ (s.ctl d).changedNs <;> simp [named, noted]
    · rw [State.onCtl_ctl_ne _ _ hd, State.onCtl_ctl_ne _ _ hd, if_neg (by simp [hd])]
  · rw [if_neg named, if_neg (by simp [named])]

theorem State.noteAt_notes (h : mask / 2 ^ c.val % 2 = 1) : nsid ∈ ((s.noteAt c nsid mask).ctl c).changedNs := by
  rw [State.noteAt_changedNs]
  split_ifs with noted
  · simp
  · simpa [h] using noted

theorem State.noteAt_keeps (h : nsid ∈ (s.ctl d).changedNs) : nsid ∈ ((s.noteAt c nsid mask).ctl d).changedNs := by
  rw [State.noteAt_changedNs, if_neg (by simp [h])]
  exact h

theorem frame_noteChange : Frame [.host, .mgmt] [] s (s.noteChange nsid mask) :=
  s.noteChange_eq nsid mask ▸ ((frame_noteAt s 0 nsid mask).trans (frame_noteAt _ 1 nsid mask)).mono (by decide)

theorem State.noteChange_notes (h : mask / 2 ^ c.val % 2 = 1) : nsid ∈ ((s.noteChange nsid mask).ctl c).changedNs := by
  rw [State.noteChange_eq]
  fin_cases c
  · exact State.noteAt_keeps _ _ _ _ _ (s.noteAt_notes 0 nsid mask h)
  · exact State.noteAt_notes _ 1 nsid mask h

theorem State.noteChange_none : s.noteChange nsid 0 = s := by
  have zero (s : State) (c : Fin 2) : s.noteAt c nsid 0 = s := if_neg (by simp)
  rw [State.noteChange_eq, zero, zero]

end

section
variable {s : State} {a : Adm} (h : takes s a) {nsid m : Nat} {attach : Bool}
include h

theorem attachment_ends {st : Status} (page : s.attachNs a nsid m attach = s.reply a st [])
    (hk : st = St.invalidNamespace ∨ st = St.invalidControllers ∨ st = St.alreadyAttached ∨ st = St.notAttached) :
    Ends (.namespaceAttachment a nsid m attach) s a st :=
  ends_of (takes.arrived h) ((exec_namespaceAttachment h _ _ _).trans (congrArg _ page)) (by rcases hk with rfl | rfl | rfl | rfl <;> exact .inr rfl)

theorem attachment_unknown (hn : s.ns nsid = none) : Ends (.namespaceAttachment a nsid m attach) s a St.invalidNamespace :=
  attachment_ends h (by rw [State.attachNs, hn]) (.inl rfl)

variable {n : Namespace} (hn : s.ns nsid = some n)
include hn

theorem attachment_uncontrolled (hm : m = 0 ∨ 3 < m) : Ends (.namespaceAttachment a nsid m attach) s a St.invalidControllers := by
  refine attachment_ends h ?_ (.inr (.inl rfl))
  rw [State.attachNs, hn]
  exact if_pos (by simpa using hm)

variable (h1 : 1 ≤ m) (h3 : m ≤ 3)
include h1 h3

omit h hn in
theorem mask_named : ¬(decide (m = 0) || decide (3 < m)) = true := by simp; omega

theorem attachment_attached (ha : attach = true) (hm : n.attached &&& m ≠ 0) :
    Ends (.namespaceAttachment a nsid m attach) s a St.alreadyAttached := by
  refine attachment_ends h ?_ (.inr (.inr (.inl rfl)))
  rw [State.attachNs, hn]
  exact (if_neg (mask_named h1 h3)).trans ((if_pos ha).trans (if_pos hm))

theorem attachment_detached (ha : attach = false) (hm : n.attached &&& m ≠ m) :
    Ends (.namespaceAttachment a nsid m attach) s a St.notAttached := by
  refine attachment_ends h ?_ (.inr (.inr (.inr rfl)))
  rw [State.attachNs, hn]
  exact (if_neg (mask_named h1 h3)).trans ((if_neg (by simp [ha])).trans (if_pos hm))

omit h h1 h3 hn in
/-- The controllers of a namespace after an attachment. -/
def Namespace.attaches (m : Nat) (attach : Bool) (n : Namespace) : Namespace :=
  { n with attached := if attach then n.attached ||| m else n.attached - m }

theorem attachment_sets (ha : (attach = true ∧ n.attached &&& m = 0) ∨ (attach = false ∧ n.attached &&& m = m)) :
    Changes (.namespaceAttachment a nsid m attach) s [.host, .mgmt, .nv] [] fun t =>
      t.ns nsid = some { n with attached := if attach then n.attached ||| m else n.attached - m } ∧
        (∀ c : Fin 2, m / 2 ^ c.val % 2 = 1 → nsid ∈ (t.ctl c).changedNs) ∧ (∀ j, j ≠ nsid → t.ns j = s.ns j) := by
  have set : s.attachNs a nsid m attach = ((s.onNs nsid (·.attaches m attach)).noteChange nsid m).reply a St.ok [] := by
    rw [State.attachNs, hn]
    refine (if_neg (mask_named h1 h3)).trans ?_
    rcases ha with ⟨rfl, hm⟩ | ⟨rfl, hm⟩
    · exact (if_pos rfl).trans (if_neg (by simp [hm]))
    · exact (if_neg Bool.false_ne_true).trans (if_neg (by simp [hm]))
  have noted := frame_noteChange (s.onNs nsid (·.attaches m attach)) nsid m
  have answers := answers_reply ((s.onNs nsid (·.attaches m attach)).noteChange nsid m) a St.ok [] (.inl rfl)
  have nv : (((s.onNs nsid (·.attaches m attach)).noteChange nsid m).reply a St.ok []).nv = (s.onNs nsid (·.attaches m attach)).nv :=
    (answers.frame.1 .nv (by decide)).trans (noted.1 .nv (by decide))
  have table (j : Nat) : (((s.onNs nsid (·.attaches m attach)).noteChange nsid m).reply a St.ok []).ns j = (s.onNs nsid (·.attaches m attach)).ns j := by
    rw [State.ns, nv, State.ns]
  have frame := ((frame_onNs s nsid (·.attaches m attach)).trans noted).trans answers.frame
  refine changes_of ((exec_namespaceAttachment h _ _ _).trans (congrArg _ set))
    (within_of_frame (frame.mono (Q := [.host, .mgmt, .nv]) (by decide)) (List.Subset.refl _) (List.forall_mem_nil _)) ⟨?_, fun c hc => ?_, fun j hj => ?_⟩
  · rw [table, State.ns_onNs_same (f := (·.attaches m attach)) s nsid fun _ => rfl, hn]
    rfl
  · rw [answers.field (·.changedNs) fun _ _ _ _ => rfl]
    exact State.noteChange_notes _ c nsid m hc
  · rw [table, State.ns_onNs_ne (f := (·.attaches m attach)) s (fun _ => rfl) hj]

end

/-! ### Erase operations begin (R298) -/

section
variable (s : State)

theorem frame_settle (r : CmdRef) (st : Status) (post : Nat) : Frame [.host] [] s (s.settle r st post) := frame_onHost s _

/-- Commands that are settled keep their queue entry and phase, and one that had an outcome keeps having one. -/
theorem settleAll_cmds (st : Status) (l : List Cmd) (s : State) :
    ∀ c ∈ (l.foldl (fun s c => s.settle c.ref st (s.turn + 1)) s).host.cmds, ∃ k ∈ s.host.cmds, k.sqe = c.sqe ∧ k.phase = c.phase ∧
      (k.outcome.isSome = true → c.outcome.isSome = true) ∧ (k ∈ l → c.outcome.isSome = true) := by
  induction l generalizing s with
  | nil => exact fun c hc => ⟨c, hc, rfl, rfl, id, fun h => absurd h List.not_mem_nil⟩
  | cons x l ih =>
    intro c hc
    obtain ⟨m, hm, sqe, phase, kept, settled⟩ := ih (s.settle x.ref st (s.turn + 1)) c hc
    rcases mem_updIf hm with ⟨k, hk, -, rfl⟩ | ⟨hk, other⟩
    · exact ⟨k, hk, sqe, phase, fun _ => kept rfl, fun _ => kept rfl⟩
    · refine ⟨m, hk, sqe, phase, kept, fun hl => settled ((List.mem_cons.1 hl).resolve_left fun he => ?_)⟩
      simp [he] at other

theorem barCmds_settles (ids : List Nat) (st : Status) : ∀ c ∈ (s.barCmds ids st).host.cmds, c.sqe.nsid ∈ ids →
    c.phase = .fetched ∨ c.phase = .held → c.outcome.isSome = true := by
  intro c hc hid hp
  obtain ⟨k, hk, sqe, phase, kept, settled⟩ := settleAll_cmds st
    (s.host.cmds.filter fun c => ids.contains c.sqe.nsid && c.outcome.isNone && (c.phase == .fetched || c.phase == .held)) s c hc
  cases ho : k.outcome with
  | some _ => exact kept (by rw [ho]; rfl)
  | none => exact settled (List.mem_filter.2 ⟨hk, by simpa [sqe, phase, ho, hid] using hp⟩)

/-- An erase operation under way, with its namespaces held and their commands barred. -/
def State.wiping (s : State) (w : Wipe) (st : Status) (k : Nat) : State :=
  ((w.nsids.foldl (fun s i => s.onNs i (·.held k)) s).barCmds w.nsids st).onGalley fun g => { g with wipe := some w }

theorem State.holdAll_other (k : Nat) (ids : List Nat) : Frame [.nv] [] s (ids.foldl (fun s i => s.onNs i (·.held k)) s) :=
  frame_foldl (fun s i => frame_onNs s i (·.held k)) ids s

theorem State.barCmds_other (ids : List Nat) (st : Status) : Frame [.host] [] s (s.barCmds ids st) :=
  frame_foldl (f := fun s (c : Cmd) => s.settle c.ref st (s.turn + 1)) (fun s c => frame_settle s c.ref st _) _ s

theorem State.holdAll_sanitize (k : Nat) (ids : List Nat) (s : State) :
    (ids.foldl (fun s i => s.onNs i (·.held k)) s).nv.sanitize = s.nv.sanitize ∧
      (ids.foldl (fun s i => s.onNs i (·.held k)) s).nv.sanitizeAction = s.nv.sanitizeAction := by
  induction ids generalizing s with
  | nil => exact ⟨rfl, rfl⟩
  | cons i ids ih => exact ih (s.onNs i (·.held k))

theorem Frame.mgmt_run {t : State} {P : List Part} {W : List (Fld × Nat)} (hf : Frame P W s t) (hP : Part.mgmt ∉ P) : t.mgmt.run = s.mgmt.run := by
  have same : { t.mgmt with log := s.mgmt.log, logDropped := s.mgmt.logDropped } = s.mgmt := hf.1 .mgmt hP
  rw [← same]

theorem State.wiping_keeps (w : Wipe) (st : Status) (k : Nat) : Frame [.nv, .galley, .host] [] s (s.wiping w st k) ∧
    (s.wiping w st k).galley.wipe = some w ∧ (s.wiping w st k).nv = (w.nsids.foldl (fun s i => s.onNs i (·.held k)) s).nv ∧
    ∀ c ∈ (s.wiping w st k).host.cmds, c.sqe.nsid ∈ w.nsids → c.phase = .fetched ∨ c.phase = .held → c.outcome.isSome = true := by
  have barred := State.barCmds_other (w.nsids.foldl (fun s i => s.onNs i (·.held k)) s) w.nsids st
  exact ⟨(((s.holdAll_other k w.nsids).trans barred).trans (frame_onGalley _ _)).mono (by decide), rfl, barred.1 .nv (by decide),
    barCmds_settles _ w.nsids st⟩

theorem State.beginWipe_idle {kind : Nat} (hr : s.mgmt.run = none) (a : Option Adm) (ids : List Nat) (rekey : Bool)
    (format : Option (Nat × Nat × Bool × Bool)) : s.beginWipe a kind ids rekey format =
      s.wiping { adm := a, kind := kind, nsids := ids, rekey := rekey, format := format }
        (if kind = 0 then St.formatInProgress else St.sanitizeInProgress) (if kind = 0 then 1 else 2) := by
  have idle : ((ids.foldl (fun s i => s.onNs i (·.held (if kind = 0 then 1 else 2))) s).barCmds ids
      (if kind = 0 then St.formatInProgress else St.sanitizeInProgress)).mgmt.run = none :=
    (Frame.mgmt_run _ (State.barCmds_other _ ids _) (by decide)).trans ((Frame.mgmt_run s (s.holdAll_other _ ids) (by decide)).trans hr)
  have ended (u : State) (hu : u.mgmt.run = none) : u.endRun 4 = u := by rw [State.endRun, hu]
  exact congrArg (State.onGalley · fun g =>
    { g with wipe := some { adm := a, kind := kind, nsids := ids, rekey := rekey, format := format } }) (ended _ idle)

end

section
variable {s : State} {a : Adm} (h : takes s a)
include h

theorem format_ends {nsid ses lbaf pi : Nat} {extended piFirst : Bool} {st : Status}
    (page : s.format a nsid ses lbaf pi extended piFirst = s.reply a st [])
    (hk : st = St.invalidNamespace ∨ st = St.invalidField ∨ st = St.invalidFormat) :
    Ends (.formatNvm a nsid ses lbaf pi extended piFirst) s a st :=
  ends_of (takes.arrived h) ((exec_formatNvm h _ _ _ _ _ _).trans (congrArg _ page)) (by rcases hk with rfl | rfl | rfl <;> exact .inr rfl)

section
variable {nsid : Nat} (all : nsid ≠ 0xFFFFFFFF) (hn : s.ns nsid = none)
include all hn

omit h in
/-- Neither every namespace nor one that is in the table. -/
theorem ns_unknown : (nsid != 0xFFFFFFFF && (s.ns nsid).isNone) = true := by simp [all, hn]

theorem delete_unknown : Ends (.namespaceManagement a (.delete nsid)) s a St.invalidNamespace :=
  ends_of (takes.arrived h) ((exec_namespaceManagement h _).trans (congrArg _ (if_pos (ns_unknown all hn)))) (.inr rfl)

theorem format_unknown (ses lbaf pi : Nat) (extended piFirst : Bool) :
    Ends (.formatNvm a nsid ses lbaf pi extended piFirst) s a St.invalidNamespace := format_ends h (if_pos (ns_unknown all hn)) (.inl rfl)

end

section
variable {nsid : Nat} {n : Namespace} (all : nsid ≠ 0xFFFFFFFF) (hn : s.ns nsid = some n)
include all hn

omit h all in
theorem ns_known : ¬(nsid != 0xFFFFFFFF && (s.ns nsid).isNone) = true := by simp [hn]

omit h in
/-- A namespace that is detached, with its key gone. -/
def Namespace.deleted (n : Namespace) : Namespace := { n with attached := 0, key := 0 }

/-- A namespace that no controller has attached is deleted without a note. -/
theorem delete_begins (hw : s.galley.wipe = none) (ha : n.attached = 0) : Changes (.namespaceManagement a (.delete nsid)) s [.nv, .galley] [] fun t =>
    t.ns nsid = some { n with attached := 0, key := 0 } ∧
      t.galley.wipe = some { adm := some a, kind := 3, nsids := [nsid], rekey := false } := by
  have begins : s.deleteNs a nsid = (s.onNs nsid Namespace.deleted).onGalley fun g =>
      { g with wipe := some { adm := some a, kind := 3, nsids := [nsid], rekey := false } } := by
    rw [State.deleteNs, if_neg (ns_known hn), if_neg all, hw]
    simp only [List.foldl_cons, List.foldl_nil, hn, ha, State.noteChange_none]
    rfl
  have frame := (frame_onNs s nsid Namespace.deleted).trans (frame_onGalley (s.onNs nsid Namespace.deleted) fun g =>
    { g with wipe := some { adm := some a, kind := 3, nsids := [nsid], rekey := false } })
  refine changes_of ((exec_namespaceManagement h _).trans (congrArg _ begins))
    (within_of_frame frame (List.Subset.refl _) (List.forall_mem_nil _)) ⟨?_, rfl⟩
  exact (s.ns_onNs_same (f := Namespace.deleted) nsid fun _ => rfl).trans (by rw [hn]; rfl)

omit all in
theorem format_unerased {ses : Nat} (hs : 2 < ses) (lbaf pi : Nat) (extended piFirst : Bool) :
    Ends (.formatNvm a nsid ses lbaf pi extended piFirst) s a St.invalidField :=
  format_ends h ((if_neg (ns_known hn)).trans (if_pos hs)) (.inr (.inl rfl))

omit all in
theorem format_unformatted {ses lbaf pi : Nat} (hs : ses ≤ 2) (hf : formatOk lbaf pi = false) (extended piFirst : Bool) :
    Ends (.formatNvm a nsid ses lbaf pi extended piFirst) s a St.invalidFormat :=
  format_ends h ((if_neg (ns_known hn)).trans ((if_neg (Nat.not_lt.2 hs)).trans (if_pos (by simp [hf])))) (.inr (.inr rfl))

theorem format_begins {ses lbaf pi : Nat} (hs : ses ≤ 2) (hf : formatOk lbaf pi = true) (fits : s.formatFits [nsid] lbaf = true)
    (hw : s.galley.wipe = none) (hr : s.mgmt.run = none) (extended piFirst : Bool) :
    Changes (.formatNvm a nsid ses lbaf pi extended piFirst) s [.nv, .galley, .host] [] fun t =>
      t.ns nsid = some { n with busy := 1 } ∧
        t.galley.wipe = some { adm := some a, kind := 0, nsids := [nsid], rekey := ses != 0, format := some (lbaf, pi, extended, piFirst) } ∧
        (∀ c ∈ t.host.cmds, c.sqe.nsid = nsid → c.phase = .fetched ∨ c.phase = .held → c.outcome.isSome) ∧
        t.memory.bytes = s.memory.bytes := by
  have begins : s.format a nsid ses lbaf pi extended piFirst =
      s.wiping { adm := some a, kind := 0, nsids := [nsid], rekey := ses != 0, format := some (lbaf, pi, extended, piFirst) } St.formatInProgress 1 := by
    rw [State.format, if_neg (ns_known hn), if_neg (Nat.not_lt.2 hs), if_neg all, if_neg (by simp [hf, fits]), hw]
    exact s.beginWipe_idle hr _ _ _ _
  obtain ⟨frame, wipe, nv, barred⟩ := s.wiping_keeps
    { adm := some a, kind := 0, nsids := [nsid], rekey := ses != 0, format := some (lbaf, pi, extended, piFirst) } St.formatInProgress 1
  refine changes_of ((exec_formatNvm h _ _ _ _ _ _).trans (congrArg _ begins))
    (within_of_frame frame (List.Subset.refl _) (List.forall_mem_nil _))
    ⟨?_, wipe, fun c hc hid => barred c hc (List.mem_singleton.2 hid), frame.1 .bytes (by decide)⟩
  rw [State.ns, nv]
  exact (s.ns_onNs_same (f := (·.held 1)) nsid fun _ => rfl).trans (by rw [hn]; rfl)

end

/-! ### Sanitize (R298) -/

omit h in
/-- A Sanitize of a kind in progress. -/
def State.sanitizing (s : State) (kind : Nat) : State := s.onNv fun n => { n with sanitize := 2, sanitizeAction := kind }

/-- What both kinds of Sanitize do. -/
theorem sanitize_acts {i : Instr} {kind : Nat} {ndas : Bool} (hk : kind ≠ 0) (run : exec i s = .next (s.sanitize a kind ndas)) :
    (ndas = true → Ends i s a St.invalidField) ∧
    (∀ w, ndas = false → s.galley.wipe = some w → Ends i s a (if w.kind = 0 ∨ w.kind = 3 then St.formatInProgress else St.sanitizeInProgress)) ∧
    (ndas = false → s.galley.wipe = none → s.mgmt.run = none → Changes i s [.nv, .galley, .host] [] fun t =>
      t.nv.sanitize = 2 ∧ t.nv.sanitizeAction = kind ∧ (∀ n ∈ t.nv.namespaces, n.busy = 2) ∧
        t.galley.wipe = some { adm := some a, kind := kind, nsids := s.nv.namespaces.map (·.nsid), rekey := true }) := by
  refine ⟨fun hn => ends_of (takes.arrived h) (run.trans (congrArg _ (if_pos hn))) (.inr rfl), fun w hn hw => ?_, fun hn hw hr => ?_⟩
  · have refused : s.sanitize a kind ndas = s.reply a (if w.kind = 0 ∨ w.kind = 3 then St.formatInProgress else St.sanitizeInProgress) [] := by
      rw [State.sanitize, if_neg (by simp [hn]), hw]
    exact ends_of (takes.arrived h) (run.trans (congrArg _ refused)) (by split_ifs <;> exact .inr rfl)
  · have begins : s.sanitize a kind ndas = (s.sanitizing kind).wiping { adm := some a, kind := kind, nsids := s.nv.namespaces.map (·.nsid), rekey := true }
        St.sanitizeInProgress 2 := by
      rw [State.sanitize, if_neg (by simp [hn]), hw]
      exact ((s.sanitizing kind).beginWipe_idle hr _ _ _ _).trans (by rw [if_neg hk, if_neg hk])
    obtain ⟨frame, wipe, nv, -⟩ := (s.sanitizing kind).wiping_keeps
      { adm := some a, kind := kind, nsids := s.nv.namespaces.map (·.nsid), rekey := true } St.sanitizeInProgress 2
    obtain ⟨status, action⟩ := (s.sanitizing kind).holdAll_sanitize 2 (s.nv.namespaces.map (·.nsid))
    have held := State.holdAll_busy 2 (s.nv.namespaces.map (·.nsid)) (s.sanitizing kind)
    refine changes_of (run.trans (congrArg _ begins))
      (within_of_frame (((frame_onNv s _).trans frame).mono (by decide)) (List.Subset.refl _) (List.forall_mem_nil _)) ?_
    rw [nv]
    refine ⟨status, action, fun n hn => ?_, wipe⟩
    obtain ⟨⟨m, hm, hid, -⟩, all⟩ := held n hn
    exact all (hid ▸ List.mem_map_of_mem hm)

/-! ### Directives (R62) -/

section
variable {nsid : Nat}

theorem directive_unknown (hn : s.nsOk nsid = false) (dtype doper v : Nat) :
    Ends (.directiveReceive a nsid dtype doper) s a St.invalidNamespace ∧ Ends (.directiveSend a nsid dtype doper v) s a St.invalidNamespace :=
  ⟨ends_of (takes.arrived h) ((exec_directiveReceive h _ _ _).trans (congrArg _ (if_pos (by simp [hn])))) (.inr rfl),
    ends_of (takes.arrived h) ((exec_directiveSend h _ _ _ _).trans (congrArg _ (if_pos (by simp [hn])))) (.inr rfl)⟩

variable (hn : s.nsOk nsid = true)
include hn

theorem directiveReceive_params : Does (.directiveReceive a nsid 0 1) s [.host, .mgmt] [] fun t => replied s t a St.ok [s.directiveParams] :=
  answers_value (takes.arrived h) ((exec_directiveReceive h _ _ _).trans (congrArg _ ((if_neg (by simp [hn])).trans (if_pos ⟨rfl, rfl⟩)))) (.inl rfl)

theorem directiveReceive_other {dtype doper : Nat} (hd : ¬(dtype = 0 ∧ doper = 1)) : Ends (.directiveReceive a nsid dtype doper) s a St.invalidField :=
  ends_of (takes.arrived h) ((exec_directiveReceive h _ _ _).trans (congrArg _ ((if_neg (by simp [hn])).trans (if_neg hd)))) (.inr rfl)

/-- Data Placement is enabled exactly while FDP is. -/
theorem directiveSend_placement :
    (s.nv.fdp = true → Ends (.directiveSend a nsid 0 1 0x201) s a St.ok) ∧
      (s.nv.fdp = false → Ends (.directiveSend a nsid 0 1 0x201) s a St.invalidField) := by
  have run := exec_directiveSend h nsid 0 1 0x201
  have known : ¬(!s.nsOk nsid) = true := by simp [hn]
  refine ⟨fun hf => ends_of (takes.arrived h) (run.trans (congrArg _ ((if_neg known).trans (if_pos ?_)))) (.inl rfl),
    fun hf => ends_of (takes.arrived h) (run.trans (congrArg _ ((if_neg known).trans (if_neg ?_)))) (.inr rfl)⟩
  · exact ⟨rfl, rfl, by decide, by decide, hf⟩
  · simp [hf]

end

/-! ### NVMe-MI over an admin queue (R460) -/

theorem nvmeMi_misdirected (m : MiCmd) :
    (miSends m = true → Does (.nvmeMiReceive a m) s [.host, .mgmt] [] fun t => replied s t a (St.done (miOpcode % 256)) []) ∧
      (miSends m = false → Does (.nvmeMiSend a m) s [.host, .mgmt] [] fun t => replied s t a (St.done (miOpcode % 256)) []) :=
  ⟨fun hm => answers_value (takes.arrived h) ((exec_nvmeMiReceive h m).trans (congrArg _ (if_pos (by simp [hm])))) (.inl rfl),
    fun hm => answers_value (takes.arrived h) ((exec_nvmeMiSend h m).trans (congrArg _ (if_pos (by simp [hm])))) (.inl rfl)⟩

theorem nvmeMiReceive_vpd {ofs len : Nat} (fits : ofs + len ≤ 1024) (some : 0 < len) (stored : ofs < s.vpdBytes.length) :
    Does (.nvmeMiReceive a (.vpdRead ofs len)) s [.host, .mgmt] [] fun t => replied s t a St.ok [(s.vpdBytes.drop ofs).take len] := by
  have bytes : (s.vpdBytes.drop ofs).take len ≠ [] := by
    rw [← List.length_pos_iff, List.length_take, List.length_drop]
    omega
  have read : s.miRun (.vpdRead ofs len) = { data := (s.vpdBytes.drop ofs).take len, after := s } := if_neg (Nat.not_lt.2 fits)
  have answer : s.miComplete a (!miSends (.vpdRead ofs len)) (.vpdRead ofs len) = s.reply a St.ok [(s.vpdBytes.drop ofs).take len] := by
    rw [State.miComplete, if_neg (by simp [miSends]), read]
    dsimp only
    rw [if_neg bytes]
    rfl
  exact answers_value (takes.arrived h) ((exec_nvmeMiReceive h _).trans (congrArg _ answer)) (.inl rfl)

omit h in
/-- Bytes overwritten within a run read back. -/
theorem take_drop_splice {b d : Bytes} {ofs : Nat} (h : ofs ≤ b.length) : ((splice b ofs d).drop ofs).take d.length = d := by
  rw [splice, List.append_assoc, List.drop_append_of_le_length (by rw [List.length_take]; omega), List.drop_take, Nat.sub_self, List.take_zero,
    List.nil_append, List.take_left]

theorem nvmeMiSend_vpd {ofs : Nat} {d : Bytes} (fits : ofs + d.length ≤ 1024) (some : d ≠ []) (stored : ofs ≤ s.vpdBytes.length) :
    Does (.nvmeMiSend a (.vpdWrite ofs d)) s [.host, .mgmt, .store] [] fun t =>
      replied s t a St.ok [[0, 0, 0, 0]] ∧ (t.vpdBytes.drop ofs).take d.length = d := by
  have written : s.miRun (.vpdWrite ofs d) = { after := s.onStore fun t => { t with vpd := splice s.vpdBytes ofs d } } := if_neg (Nat.not_lt.2 fits)
  have answer : s.miComplete a (miSends (.vpdWrite ofs d)) (.vpdWrite ofs d) =
      (s.onStore fun t => { t with vpd := splice s.vpdBytes ofs d }).reply a St.ok [[0, 0, 0, 0]] := by
    rw [State.miComplete, if_neg (by simp [miSends]), written]
    dsimp only
    rw [if_pos rfl]
    rfl
  obtain ⟨frame, answers, replied⟩ := answered_frame (st := St.ok) (takes.arrived h) [[0, 0, 0, 0]]
    (frame_onStore s fun t => { t with vpd := splice s.vpdBytes ofs d }) (by decide) (.inl rfl)
  have store : ((s.onStore fun t => { t with vpd := splice s.vpdBytes ofs d }).reply a St.ok [[0, 0, 0, 0]]).store.vpd = splice s.vpdBytes ofs d := by
    rw [show State.store _ = _ from answers.frame.1 .store (by decide)]
    rfl
  refine does_of ((exec_nvmeMiSend h _).trans (congrArg _ answer)) (frame.mono (by decide)) ⟨replied, ?_⟩
  rw [State.vpdBytes, store, if_neg]
  · exact take_drop_splice stored
  · rw [splice]
    simp [some]

end

/-- Settles O50: each command's outcome is one of the lemmas above. -/
theorem namespaceCommandsAct : Obligations.NamespaceCommandsAct := by
  unfold Obligations.NamespaceCommandsAct
  intro s a h
  refine ⟨fun nsze lbaf extended pi piFirst zoned handles => ⟨create_unsized h, create_unformatted h, fun hz hl hh hf =>
      ⟨create_full h hz hl hh hf, fun n hn => ⟨create_short h hz hl hh hf hn, fun base u ha => create_makes h hz hl hh hf hn ha⟩⟩⟩,
    fun i => replyCreated_completes h, fun w => wipeTurn_completes h,
    fun nsid m n attach hn => ⟨attachment_uncontrolled h hn, attachment_attached h hn, attachment_detached h hn, attachment_sets h hn⟩,
    fun nsid m attach => attachment_unknown h,
    fun nsid n all hn => ⟨delete_begins h all hn,
      fun ses lbaf pi extended piFirst hs hf fits hw hr => format_begins h all hn hs hf fits hw hr extended piFirst,
      fun ses lbaf pi extended piFirst hs => format_unerased h hn hs lbaf pi extended piFirst,
      fun ses lbaf pi extended piFirst hs hf => format_unformatted h hn hs hf extended piFirst⟩,
    fun nsid all hn => ⟨delete_unknown h all hn, format_unknown h all hn⟩,
    fun ndas => ⟨sanitize_acts h (by decide) (exec_sanitizeCryptoErase h ndas), sanitize_acts h (by decide) (exec_sanitizeBlockErase h ndas)⟩,
    fun nsid hn => ⟨directiveReceive_params h hn, fun dtype doper => directiveReceive_other h hn, (directiveSend_placement h hn).1,
      (directiveSend_placement h hn).2⟩,
    fun nsid hn => directive_unknown h hn 0 1 0x201, fun ofs len d => ⟨nvmeMiReceive_vpd h, nvmeMiSend_vpd h,
      (nvmeMi_misdirected h (.vpdWrite ofs d)).1 rfl, (nvmeMi_misdirected h (.vpdRead ofs len)).2 rfl⟩⟩

end Sys2Proof.Machine
end

section
/-! Held commands, commands that complete at once, and poisoned transfers (R51, R68, R96, R194, R242), and O47. -/

namespace Sys2Proof.Machine

open Sys2Proof.Safety

/-! ### One command changed -/

section
variable {s : State} {r : CmdRef} {k : Cmd} (h : s.cmd r = some k)
include h

theorem State.cmd_ref : k.ref = r := by simpa using List.find?_some h

/-- A command found under a reference, after a change of it. -/
theorem cmd_changed {t : State} {f : Cmd → Cmd} (hf : ∀ k, (f k).ref = k.ref) (ht : t.host.cmds = updIf (fun k => k.ref == r) f s.host.cmds) :
    t.cmd r = some (f k) := by
  rw [State.cmd, ht, find?_updIf_same fun k hk => by simpa [hf] using hk]
  exact congrArg (Option.map f) h

end

/-! ### What a plan's acceptance leaves (R22, R110) -/

/-- Commands and plans are as they were. -/
structure Prepares (s t : State) : Prop where
  cmds : t.host.cmds = s.host.cmds
  plans : t.sluice.plans = s.sluice.plans

section
variable {s t u : State}

theorem Prepares.refl (s : State) : Prepares s s := ⟨rfl, rfl⟩

theorem Prepares.trans (h : Prepares s t) (k : Prepares t u) : Prepares s u := ⟨k.cmds.trans h.cmds, k.plans.trans h.plans⟩

theorem prepares_foldl {α : Type} {f : State → α → State} (h : ∀ s x, Prepares s (f s x)) (l : List α) (s : State) : Prepares s (l.foldl f s) := by
  induction l generalizing s with
  | nil => exact .refl s
  | cons x l ih => exact (h s x).trans (ih (f s x))

theorem prepares_of_frame {P : List Part} {W : List (Fld × Nat)} (hf : Frame P W s t) (hP : Part.host ∉ P ∧ Part.sluice ∉ P) : Prepares s t :=
  ⟨congrArg Headgate.cmds (hf.1 .host hP.1), congrArg Sluice.plans (hf.1 .sluice hP.2)⟩

theorem prepares_touch (s : State) (n : Fin 24) (client : Nat) : Prepares s (s.touch n client) := by
  obtain ⟨W, frame⟩ := frame_touch s n client
  exact prepares_of_frame frame (by decide)

theorem prepares_allocSlot (s : State) (x : Slot) : Prepares s (s.allocSlot x).2 := by
  unfold State.allocSlot
  split
  · exact ⟨rfl, rfl⟩
  · split <;> exact ⟨rfl, rfl⟩

theorem prepares_takeSlots (c : Cmd) (handle plan : Nat) (ws : List UnitWrite) (s : State) : Prepares s (s.takeSlots c handle plan ws).2 := by
  induction ws generalizing s with
  | nil => exact .refl s
  | cons w ws ih =>
    let x : Slot := { unit := w.g, state := .filling, order := s.galley.order, plan := plan, sq := some c.ref, handle := handle }
    have counted : Prepares s ((s.allocSlot x).2.onGalley fun g => { g with order := g.order + 1 }) := (prepares_allocSlot s x).trans ⟨rfl, rfl⟩
    exact counted.trans (ih _)

theorem prepares_countDellux (s : State) (lane b m off die : Nat) : Prepares s (s.countDellux lane b m off die) := by
  unfold State.countDellux
  split <;> exact ⟨rfl, rfl⟩

theorem prepares_noteRead (s : State) (host served : Bool) (u : UnitRead) : Prepares s (s.noteRead host served u) := by
  unfold State.noteRead
  split
  · next l f m _ _ =>
    refine Prepares.trans (t := if served then s.countDellux l (f / max 1 s.unitsPerMb) m (s.place l f m).2 (s.place l f m).1.die
      else (s.addFld Reg.LDP_DLX_MISS_COUNT 1).onFlash fun x => { x with misses := x.misses + 1 }) ?_ ?_
    · split_ifs
      · exact prepares_countDellux s _ _ _ _ _
      · exact ⟨rfl, rfl⟩
    · dsimp only
      split_ifs <;> exact ⟨rfl, rfl⟩
  · exact .refl s

end

/-- A plan that is accepted in the background takes its bookings, and its command the plan. -/
theorem commit_accepts (s : State) (c : Cmd) (ns : Namespace) (p : Parts) (d : Draft) (tr : Trial) :
    ∃ l q, (s.commit c ns p 7 d tr).host.cmds = updIf (fun k => k.ref == c.ref)
        (fun k => { k with phase := .accepted, limit := 0, plan := s.sluice.nextPlan, cls := 7, lba := s.writeLba c ns, slots := l }) s.host.cmds ∧
      (s.commit c ns p 7 d tr).sluice.bookings = tr.bs ∧ (s.commit c ns p 7 d tr).sluice.plans = s.sluice.plans ++ [q] ∧
      q.ref = some c.ref ∧ q.limit = none ∧ q.post = d.post := by
  generalize ht : s.commit c ns p 7 d tr = t
  unfold State.commit at ht
  extract_lets id lba doms ord us pinned zops taken filling look base reads noted counted booked touched plan key span debited laid at ht
  have prepared : Prepares s counted := by
    have pins : Prepares s pinned := prepares_foldl (f := fun s n => s.pin n id) (fun s n => ⟨rfl, rfl⟩) _ s
    have slots : Prepares pinned taken.2 := prepares_takeSlots c _ id d.writes pinned
    have reads : Prepares taken.2 noted := prepares_foldl (fun s u => prepares_noteRead s _ _ u) us taken.2
    have stamps : Prepares noted counted := by
      unfold counted
      split_ifs <;> exact ⟨rfl, rfl⟩
    exact ((pins.trans slots).trans reads).trans stamps
  have wakes : Prepares booked touched := prepares_foldl (fun s n => prepares_touch s (Fin.ofNat 24 n) 0x30) doms booked
  have all : Prepares s touched := (prepared.trans (u := booked) ⟨rfl, rfl⟩).trans wakes
  refine ⟨plan.slots, plan, ?_, ?_, ?_, rfl, rfl, rfl⟩ <;> rw [← ht]
  · show updIf _ _ touched.host.cmds = _
    rw [all.cmds]
    rfl
  · rfl
  · show touched.sluice.plans ++ [plan] = _
    rw [all.plans]

/-! ### BEST_EFFORT_COMMIT (R96) -/

section
variable {s : State} {r : CmdRef} {k : Cmd} {n : Namespace} (h : s.cmd r = some k) (hp : k.phase = .held) (ho : k.outcome = none)
  (hn : s.ns k.sqe.nsid = some n)
include h hp ho

theorem exec_bestEffortCommit_held : exec (.bestEffortCommit r) s = .next (s.commitBest k) := by
  show execBestEffortCommit r s = _
  rw [execBestEffortCommit, h]
  exact congrArg _ (if_pos (by simp [hp, ho]))

include hn

theorem bestEffortCommit_sealed (hw : k.kind.writes = true) (hm : s.power.mode = .sealed) : Does (.bestEffortCommit r) s [.host] [] fun t =>
    t.cmd r = some (settled k St.writeProtected (s.turn + 1)) := by
  have ends : s.commitBest k = s.settle k.ref St.writeProtected (s.turn + 1) := by
    rw [State.commitBest, hn]
    exact if_pos (by simp [hw, hm])
  refine does_of ((exec_bestEffortCommit_held h hp ho).trans (congrArg _ ends)) (frame_settle s _ _ _) ?_
  rw [State.cmd_ref h]
  exact cmd_changed h (f := fun k => settled k St.writeProtected (s.turn + 1)) (fun _ => rfl) rfl

variable {p : Parts} (hw : k.kind.writes = true → s.power.mode ≠ .sealed) (hparts : s.parts k n = some p)
include hw hparts

theorem bestEffortCommit_waits {e : Nat} (ht : s.tryPlan k n p 7 k.stamp = .error e) (he : e ≠ 8) : exec (.bestEffortCommit r) s = .next s := by
  have open_ : ¬(k.kind.writes && s.power.mode == .sealed) = true := by simpa using hw
  have waits : s.commitBest k = s := by
    rw [State.commitBest, hn]
    dsimp only
    rw [if_neg open_, hparts]
    dsimp only
    rw [ht]
    exact if_neg he
  rw [exec_bestEffortCommit_held h hp ho, waits]

theorem bestEffortCommit_accepts {d : Draft} {tr : Trial} (ht : s.tryPlan k n p 7 k.stamp = .ok (d, tr)) :
    Completes (.bestEffortCommit r) s fun t =>
      (∃ l, t.cmd r = some { k with phase := .accepted, limit := 0, plan := s.sluice.nextPlan, cls := 7, lba := s.writeLba k n, slots := l }) ∧
        t.sluice.bookings = tr.bs ∧ (∃ q, t.sluice.plans = s.sluice.plans ++ [q] ∧ q.ref = some r ∧ q.limit = none ∧ q.post = d.post) := by
  have open_ : ¬(k.kind.writes && s.power.mode == .sealed) = true := by simpa using hw
  have accepts : s.commitBest k = s.commit k n p 7 d tr := by
    rw [State.commitBest, hn]
    dsimp only
    rw [if_neg open_, hparts]
    dsimp only
    rw [ht]
  obtain ⟨l, q, cmds, bookings, plans, ref, limit, post⟩ := commit_accepts s k n p d tr
  rw [State.cmd_ref h] at cmds ref
  exact completes_of ((exec_bestEffortCommit_held h hp ho).trans (congrArg _ accepts))
    ⟨⟨l, cmd_changed (f := fun x =>
      { x with phase := .accepted, limit := 0, plan := s.sluice.nextPlan, cls := 7, lba := s.writeLba k n, slots := l }) h (fun _ => rfl) cmds⟩,
      bookings, q, plans, ref, limit, post⟩

end

/-! ### Commands that complete in the turn after their fetch (R61, R68, R194) -/

section
variable {s : State} {r : CmdRef} {k : Cmd}

/-- The entry of a command that has succeeded without a plan. -/
def doneEntry (s : State) (r : CmdRef) (q : Sq) : Cqe :=
  { sqid := r.sqid, cid := r.cid, sct := 0, sc := 0, dnr := false, dw0 := 0, dw1 := 0, sqhd := q.head, turn := s.turn, data := [] }

/-- An entry on a queue that has room. -/
theorem postCqe_posts {c : Fin 2} {n : Nat} {qc : Cq} (x : HeldCqe) (hc : s.cq c n = some qc) (hroom : qc.full = false) (hheld : qc.held = []) :
    Frame [.host] [] s (s.postCqe c n x) ∧ (s.postCqe c n x).host.cmds = s.host.cmds ∧
      (s.postCqe c n x).cq c n = some { qc with entries := qc.entries ++ [x.e] } := by
  have size : qc.size ≠ 0 := fun h0 => by simp [Cq.full, h0] at hroom
  have entered := s.cq_onCq_same c (n := n) (f := fun q => { q with entries := q.entries ++ [x.e] }) fun _ => rfl
  rw [hc, Option.map_some] at entered
  rw [State.postCqe, hc]
  dsimp only
  rw [if_neg size, if_neg (by simp [hroom, hheld])]
  split_ifs
  · exact ⟨((frame_onCq s c n _).trans (frame_interrupt _ c _)).mono (by decide), (State.interrupt_cmds _ c _).trans (s.onCq_cmds c n _),
      (State.interrupt_cq _ c c _ n).trans entered⟩
  · exact ⟨frame_onCq s c n _, s.onCq_cmds c n _, entered⟩

/-- A success is posted on a queue that has room, and its context ends. -/
theorem postCmd_posts {q : Sq} {qc : Cq} (hr : k.ref = r) (hp : k.phase = .fetched) (hd : k.discard = false) (hz : k.sqe.opcode ≠ 0x7D)
    (hq : s.sq r.ctrl r.sqid = some q) (hc : s.cq r.ctrl q.cqid = some qc) (hroom : qc.full = false) (hheld : qc.held = []) :
    Frame [.host] [] s (s.postCmd k ⟨0, 0, 0⟩ []) ∧ (∀ x ∈ (s.postCmd k ⟨0, 0, 0⟩ []).host.cmds, x.ref ≠ r) ∧
      (s.postCmd k ⟨0, 0, 0⟩ []).cq r.ctrl q.cqid = some { qc with entries := qc.entries ++ [doneEntry s r q] } := by
  have unplanned : (k.phase == .accepted || k.phase == .started) = false := by rw [hp]; rfl
  have queue : (s.dropCmd r).sq r.ctrl r.sqid = some q := hq
  have good : (⟨0, 0, 0⟩ : Status).good = true := rfl
  obtain ⟨x, hx, post⟩ : ∃ x : HeldCqe, x.e = doneEntry s r q ∧ s.postCmd k ⟨0, 0, 0⟩ [] = (s.dropCmd r).postCqe r.ctrl q.cqid x := by
    simp only [State.postCmd, unplanned, hr, hd, Bool.false_eq_true, if_false, queue, good, if_true, hz, false_and]
    exact ⟨_, rfl, rfl⟩
  obtain ⟨frame, cmds, posted⟩ := postCqe_posts (s := s.dropCmd r) x hc hroom hheld
  rw [post, cmds, posted, hx]
  exact ⟨((frame_onHost s _).trans frame).mono (by decide), fun y hy => by simpa using (List.mem_filter.1 hy).2, rfl⟩

end

/-! ### POISONED_TLP (R51) -/

section
variable {s : State} {r : CmdRef}

/-- Of an admin queue the command is noted: it ends when its row comes. -/
theorem poisonedTlp_admin (hr : r.sqid = 0) : Does (.poisonedTlp r) s [.host] [(Reg.HGT_EVENT_POISONED, 1)] fun t =>
    r.cid ∈ (t.ctl r.ctrl).poisoned ∧ t.host.cmds = s.host.cmds := by
  have run : exec (.poisonedTlp r) s =
      .next ((s.onCtl r.ctrl fun x => { x with poisoned := r.cid :: x.poisoned.erase r.cid }).setFld Reg.HGT_EVENT_POISONED 1) :=
    congrArg _ (if_pos hr)
  refine does_of run (((frame_onCtl s r.ctrl _).trans (frame_setFld _ _ _)).mono (by decide)) ⟨?_, rfl⟩
  rw [State.setFld_ctl, State.onCtl_ctl_same]
  exact List.mem_cons_self

/-- Of an I/O queue a write, a Compare or a range list that is not decided ends the command. -/
theorem poisonedTlp_io {k : Cmd} (hr : r.sqid ≠ 0) (h : s.cmd r = some k) (ho : k.outcome = none) (ha : k.phase ≠ .accepted) (hs : k.phase ≠ .started)
    (hop : k.sqe.opcode = 0x01 ∨ k.sqe.opcode = 0x05 ∨ k.sqe.opcode = 0x7D ∨ ((k.sqe.opcode = 0x19 ∨ k.sqe.opcode = 0x09) ∧ k.phase ≠ .short))
    (hplan : ∀ p ∈ s.sluice.plans, p.id ≠ k.plan) : Does (.poisonedTlp r) s [.host] [(Reg.HGT_EVENT_POISONED, 1)] fun t =>
      t.cmd r = some (settled { k with phase := .fetched, poisoned := true } St.dataTransfer (s.turn + 1)) := by
  have unsettled : (k.isSettled || (s.sluice.plans.filter fun p => p.id == k.plan).any fun p => p.writes.any (·.landed)) = false := by
    rw [Cmd.isSettled, ho, List.filter_eq_nil_iff.2 fun p hp => by simpa using hplan p hp]
    rfl
  have carries : (carriesHostData k.sqe.opcode && k.sqe.opcode != 0x02 || k.readsRanges) = true := by
    rcases hop with hop | hop | hop | ⟨hop, hshort⟩
    · simp [carriesHostData, hop]
    · simp [carriesHostData, hop]
    · simp [carriesHostData, hop]
    · have undecided : k.phase = .fetched ∨ k.phase = .held := by
        cases hk : k.phase <;> simp_all
      rcases hop with hop | hop <;> rcases undecided with hu | hu <;> simp [Cmd.readsRanges, hop, hu]
  have ends : s.poisonIo r = (((s.onCmd r fun k => { k with phase := .fetched, poisoned := true, outcome := none }).settle r St.dataTransfer
      (s.turn + 1)).setFld Reg.HGT_EVENT_POISONED 1) := by
    rw [State.poisonIo, h]
    dsimp only
    rw [unsettled, carries, if_neg (by decide), if_neg (by simp [ha, hs])]
  have run : exec (.poisonedTlp r) s = .next (((s.onCmd r fun k => { k with phase := .fetched, poisoned := true, outcome := none }).settle r
      St.dataTransfer (s.turn + 1)).setFld Reg.HGT_EVENT_POISONED 1) := congrArg _ ((if_neg hr).trans ends)
  refine does_of run ((((frame_onHost s _).trans (frame_onHost _ _)).trans (frame_setFld _ _ _)).mono (by decide)) ?_
  have poisoned : (s.onCmd r fun k => { k with phase := .fetched, poisoned := true, outcome := none }).cmd r =
      some { k with phase := .fetched, poisoned := true, outcome := none } :=
    cmd_changed (f := fun k => { k with phase := .fetched, poisoned := true, outcome := none }) h (fun _ => rfl) rfl
  exact cmd_changed (f := fun k => settled k St.dataTransfer (s.turn + 1)) poisoned (fun _ => rfl) rfl

end

/-! ### Flush and Dataset Management (R68, R194) -/

section
variable {s : State} {r : CmdRef} {k : Cmd} (h : s.cmd r = some k)
include h

/-- Before the turn after its fetch nothing becomes of the command; then a success is posted, and its context ends. -/
def Posts (s : State) (r : CmdRef) (k : Cmd) (i : Instr) : Prop :=
  (s.turn < k.fetched + 1 → exec i s = .next s) ∧
  (∀ q qc, k.fetched + 1 ≤ s.turn → s.waitsTurn k = false → k.outcome = some (0, 0, false, 0) → k.phase = .fetched → k.discard = false →
    s.sq r.ctrl r.sqid = some q → s.cq r.ctrl q.cqid = some qc → qc.full = false → qc.held = [] →
    Does i s [.host] [] fun t => (∀ x ∈ t.host.cmds, x.ref ≠ r) ∧
      t.cq r.ctrl q.cqid = some { qc with entries := qc.entries ++ [doneEntry s r q] })

theorem posts_of {i : Instr} (hz : k.sqe.opcode ≠ 0x7D) (early : s.turn < k.fetched + 1 → exec i s = .next s)
    (late : k.fetched + 1 ≤ s.turn → s.waitsTurn k = false → k.outcome = some (0, 0, false, 0) → exec i s = .next (s.postCmd k ⟨0, 0, 0⟩ [])) :
    Posts s r k i := by
  refine ⟨early, fun q qc hf hw ho hp hd hq hc hroom hheld => ?_⟩
  obtain ⟨frame, gone, posted⟩ := postCmd_posts (State.cmd_ref h) hp hd hz hq hc hroom hheld
  exact does_of (late hf hw ho) frame ⟨gone, posted⟩

theorem flush_posts (hop : k.sqe.opcode = 0) : Posts s r k (.flush r) := by
  refine posts_of h (by rw [hop]; decide) (fun early => ?_) (fun hf hw ho => ?_) <;> show execFlush r s = _ <;> rw [execFlush, h]
  · exact congrArg _ (if_neg (by simp [Nat.not_le.2 early]))
  · dsimp only
    rw [if_pos (by simp [hop, hf, hw, ho]), ho]

/-- No command is decided in the turn of its fetch or before. -/
theorem State.decideUpTo_early (early : s.turn < k.fetched + 1) (f : Nat → Bool) : s.decideUpTo r f = s := by
  have undue : s.due k = false := by
    have : ¬(k.fetched + 2 + (if s.overlayWalk k then 1 else 0) ≤ s.turn) := by omega
    simp [State.due, this]
  rw [State.decideUpTo, h]
  exact if_neg (by simp [undue])

theorem datasetManagement_posts (hop : k.sqe.opcode = 9) (had : k.sqe.ad = false) : Posts s r k (.datasetManagement r) := by
  refine posts_of h (by rw [hop]; decide) (fun early => ?_) (fun hf hw ho => ?_) <;> show execDatasetManagement r s = _ <;>
    rw [execDatasetManagement, h]
  · exact congrArg _ ((if_neg (by simp [Nat.not_le.2 early])).trans (State.decideUpTo_early h early _))
  · dsimp only
    rw [if_pos (by simp [hop, had, hf, hw]), ho]

end

/-- Settles O47: a held command, one that completes at once and a poisoned one, each by its lemmas above. -/
theorem heldAndImmediateCommands : Obligations.HeldAndImmediateCommands := by
  unfold Obligations.HeldAndImmediateCommands
  intro s r
  refine ⟨poisonedTlp_admin, fun k h => ⟨fun n hp ho hn => ⟨bestEffortCommit_sealed h hp ho hn, fun p hw hparts =>
    ⟨fun e => bestEffortCommit_waits h hp ho hn hw hparts, fun d tr => bestEffortCommit_accepts h hp ho hn hw hparts⟩⟩,
    ⟨flush_posts h, datasetManagement_posts h⟩, fun hr => poisonedTlp_io hr h⟩⟩

end Sys2Proof.Machine
end

section
/-! The retry hint of a refusal (R112, R113), and O46. -/

namespace Sys2Proof.Machine

open Sys2Proof.Safety

section
variable (s : State) (c : Cmd) (ns : Namespace) (p : Parts) (cls post : Nat)

/-- The retry that a hint of h names: observed 16 h turns after the posting, and decided three turns later (R113). -/
def State.retry (h : Nat) : Except Nat (Draft × Trial) := (s.future (post + 16 * h + 3)).tryPlan c ns p cls (post + 16 * h)

/-- The search stops at the first accepted retry of its range, or has tried the whole range. -/
theorem State.hintFrom_first_or_none (fuel h : Nat) :
    (h ≤ s.hintFrom c ns p cls post fuel h ∧ s.hintFrom c ns p cls post fuel h < h + fuel ∧
        (∃ x, s.retry c ns p cls post (s.hintFrom c ns p cls post fuel h) = .ok x) ∧
        ∀ i, h ≤ i → i < s.hintFrom c ns p cls post fuel h → ∃ e, s.retry c ns p cls post i = .error e) ∨
      (s.hintFrom c ns p cls post fuel h = 0xFFFF ∧ ∀ i, h ≤ i → i < h + fuel → ∃ e, s.retry c ns p cls post i = .error e) := by
  induction fuel generalizing h with
  | zero => exact .inr ⟨rfl, fun i low high => absurd (Nat.lt_of_le_of_lt low high) (Nat.lt_irrefl h)⟩
  | succ fuel ih =>
    cases tried : s.retry c ns p cls post h with
    | ok x =>
      have found : s.hintFrom c ns p cls post (fuel + 1) h = h := by
        rw [State.hintFrom, show (s.future (post + 16 * h + 3)).tryPlan c ns p cls (post + 16 * h) = .ok x from tried]
      rw [found]
      exact .inl ⟨Nat.le_refl h, by omega, ⟨x, tried⟩, fun i low high => absurd high (Nat.not_lt.2 low)⟩
    | error e =>
      have next : s.hintFrom c ns p cls post (fuel + 1) h = s.hintFrom c ns p cls post fuel (h + 1) := by
        rw [State.hintFrom, show (s.future (post + 16 * h + 3)).tryPlan c ns p cls (post + 16 * h) = .error e from tried]
      have below : ∀ {m}, (∀ i, h + 1 ≤ i → i < m → ∃ e, s.retry c ns p cls post i = .error e) →
          ∀ i, h ≤ i → i < m → ∃ e, s.retry c ns p cls post i = .error e := fun rest i low high => by
        rcases Nat.eq_or_lt_of_le low with rfl | low
        · exact ⟨e, tried⟩
        · exact rest i low high
      rw [next]
      rcases ih (h + 1) with ⟨low, high, accepted, least⟩ | ⟨none, fails⟩
      · exact .inl ⟨by omega, by omega, accepted, below least⟩
      · exact .inr ⟨none, below fun i low high => fails i low (by omega)⟩

theorem State.hint_sealed : s.hint c ns p cls 0xA = 0xFFFF := if_pos rfl

theorem State.hint_eq {reason : Nat} (hr : reason ≠ 0xA) : s.hint c ns p cls reason = s.hintFrom c ns p cls (s.turn + 1) 0xFFFF 0 := if_neg hr

end

/-- Settles O46: the search from 0 stops at the first accepted retry, and answers 0xFFFF where none of the range is. -/
theorem refusalHintIsLeast : Obligations.RefusalHintIsLeast := by
  unfold Obligations.RefusalHintIsLeast
  intro s k n p cls reason
  by_cases hr : reason = 0xA
  · subst hr
    exact ⟨fun _ => s.hint_sealed k n p cls, fun some => absurd (s.hint_sealed k n p cls) some, fun h => absurd rfl h⟩
  · rw [s.hint_eq k n p cls hr]
    refine ⟨fun h => absurd h hr, fun some => ?_, fun _ none h high => ?_⟩ <;>
      rcases s.hintFrom_first_or_none k n p cls (s.turn + 1) 0xFFFF 0 with ⟨_, bound, accepted, least⟩ | ⟨top, fails⟩
    · exact ⟨accepted, fun h => least h (Nat.zero_le h)⟩
    · exact absurd top some
    · exact absurd none (by omega)
    · exact fails h (Nat.zero_le h) (by omega)

end Sys2Proof.Machine
end

section
/-! Channels: retrains, their ends, requested retrains, and the first turn of a channel that came up (R117, R144–R146), and O38. -/

namespace Sys2Proof.Machine

open Sys2Proof.Safety

variable (s : State)

/-! ### Channels and dies under the updates of the state -/

@[simp] theorem State.setFld_chan (f : Fld) (v n : Nat) : (s.setFld f v).chan n = s.chan n := (rfl)

@[simp] theorem State.onSluice_chan (f : Sluice → Sluice) (n : Nat) : (s.onSluice f).chan n = s.chan n := (rfl)

@[simp] theorem State.onSluice_die (f : Sluice → Sluice) (n : Nat) : (s.onSluice f).die n = s.die n := (rfl)

theorem State.chan_of_flash {t : State} (h : t.flash = s.flash) (n : Nat) : t.chan n = s.chan n := by rw [State.chan, h, State.chan]

theorem State.onChan_chan (c n : Nat) (f : Chan → Chan) : (s.onChan c f).chan n = if n = c then f (s.chan c) else s.chan n := by
  by_cases h : n = c
  · subst h
    rw [if_pos rfl, State.chan, show klook n (s.onChan n f).flash.chans = _ from klook_kput_self _ _ _, Option.getD_some]
  · rw [if_neg h, State.chan, show klook n (s.onChan c f).flash.chans = _ from klook_kput_ne _ _ h, State.chan]

@[simp] theorem State.onChan_chan_same (c : Nat) (f : Chan → Chan) : (s.onChan c f).chan c = f (s.chan c) :=
  (State.onChan_chan s c c f).trans (if_pos rfl)

theorem State.klook_onChan_ne {c n : Nat} (f : Chan → Chan) (h : n ≠ c) : klook n (s.onChan c f).flash.chans = klook n s.flash.chans :=
  klook_kput_ne _ _ h

@[simp] theorem State.onChan_fld (c : Nat) (f : Chan → Chan) (g : Fld) : (s.onChan c f).fld g = s.fld g := (rfl)

@[simp] theorem State.onChan_turn (c : Nat) (f : Chan → Chan) : (s.onChan c f).turn = s.turn := (rfl)

@[simp] theorem State.onChan_sluice (c : Nat) (f : Chan → Chan) : (s.onChan c f).sluice = s.sluice := (rfl)

theorem State.onDie_die_ne {n m : Nat} (f : Die → Die) (h : m ≠ n) : (s.onDie n f).die m = s.die m := by
  rw [State.die, State.klook_onDie_ne s f h, State.die]

@[simp] theorem State.onDie_sluice (n : Nat) (f : Die → Die) : (s.onDie n f).sluice = s.sluice := (rfl)

/-! ### The state that a channel engine reports -/

section
variable {c : Nat}

theorem State.setChanState_flash (v : Nat) : (s.setChanState c v).flash = s.flash := by
  rw [State.setChanState, State.setFld_flash, State.holdWord_flash]

theorem State.setChanState_chan (v n : Nat) : (s.setChanState c v).chan n = s.chan n := State.chan_of_flash s (s.setChanState_flash v) n

theorem State.setChanState_turn (v : Nat) : (s.setChanState c v).turn = s.turn := by
  rw [State.setChanState, State.setFld_turn, State.holdWord_turn]

theorem State.setChanState_state {v : Nat} (hv : v < 8) : (s.setChanState c v).fld (Reg.FCE_STATUS_STATE c) = v :=
  (State.fld_setFld_same _ _ _ (show 0 + 3 ≤ 32 by decide)).trans (Nat.mod_eq_of_lt hv)

theorem within_setChanState {P : List Part} {R : List Nat} (v : Nat) (hP : Part.edgeRegs ∈ P) (hR : Reg.FCE_STATUS c ∈ R) :
    Within P R s (s.setChanState c v) := within_trans (within_holdWord s _ hP) (within_setFld _ v hR)

/-! ### A training attempt begins (R144) -/

/-- Channel `c` has begun a training attempt in `s.turn`, at a rung: it is reported down, and trains 256 turns. -/
structure Trains (s t : State) (c rung : Nat) : Prop where
  state : t.fld (Reg.FCE_STATUS_STATE c) = 3
  training : (t.chan c).training = some (rung, s.turn + 256)

theorem within_train {P : List Part} {R : List Nat} (rung : Nat) (second : Bool) (hE : Part.edgeRegs ∈ P) (hF : Part.flash ∈ P)
    (hR : Reg.FCE_STATUS c ∈ R) : Within P R s (s.train c rung second) :=
  within_trans (within_onFlash s _ hF) (within_setChanState _ 3 hE hR)

theorem State.train_chan (rung : Nat) (second : Bool) :
    (s.train c rung second).chan c = { s.chan c with training := some (rung, s.turn + 256), second := second } := by
  rw [State.train, State.setChanState_chan, State.onChan_chan_same]

theorem State.train_turn (rung : Nat) (second : Bool) : (s.train c rung second).turn = s.turn := s.onChan _ _ |>.setChanState_turn 3

theorem trains_train (rung : Nat) (second : Bool) : Trains s (s.train c rung second) c rung :=
  ⟨State.setChanState_state _ (by decide), by rw [State.train_chan]⟩

/-- The retrain's count, and the channel as a retrain finds it. -/
def State.retrainCounted (c : Nat) (raise : Bool) : State :=
  (s.addFld (Reg.FCE_RETRAIN_TOTAL c) 1).onChan c fun x =>
    { x with raise := raise, left := (s.addFld (Reg.FCE_RETRAIN_TOTAL c) 1).rung c, retryAt := none
             raiseAt := if raise then none else x.raiseAt }

theorem State.retrain_eq (rung : Nat) (raise : Bool) : s.retrain c rung raise =
    ((s.retrainCounted c raise).train c rung false).onSluice fun x =>
      { x with chansOut := (c, s.turn + 1, none) :: x.chansOut.filter fun o => o.1 != c } := (rfl)

theorem within_retrain (rung : Nat) (raise : Bool) :
    Within [.edgeRegs, .flash, .sluice] [Reg.FCE_STATUS c, Reg.FCE_RETRAIN c] s (s.retrain c rung raise) :=
  within_trans (within_trans (within_trans (within_addFld s 1 (by simp [Reg.FCE_RETRAIN_TOTAL])) (within_onFlash _ _ (by simp)))
    (within_train _ rung false (by simp) (by simp) (by simp))) (within_onSluice _ _ (by simp))

theorem trains_retrain (rung : Nat) (raise : Bool) : Trains s (s.retrain c rung raise) c rung :=
  have h := trains_train (s.retrainCounted c raise) (c := c) rung false
  ⟨h.state, h.training⟩

theorem State.retrain_second (rung : Nat) (raise : Bool) : ((s.retrain c rung raise).chan c).second = false := by
  rw [State.retrain_eq, State.onSluice_chan, State.train_chan]

theorem State.retrain_total (rung : Nat) (raise : Bool) : (s.retrain c rung raise).fld (Reg.FCE_RETRAIN_TOTAL c) =
    min (2 ^ (Reg.FCE_RETRAIN_TOTAL c).width - 1) (s.fld (Reg.FCE_RETRAIN_TOTAL c) + 1) := by
  have trained : Within [.edgeRegs, .flash] [Reg.FCE_STATUS c] (s.retrainCounted c raise) ((s.retrainCounted c raise).train c rung false) :=
    within_train _ rung false (by simp) (by simp) (by simp)
  have kept := within_fld trained (g := Reg.FCE_RETRAIN_TOTAL c) (by simp [Reg.FCE_RETRAIN_TOTAL, Reg.FCE_RETRAIN, Reg.FCE_STATUS])
  rw [State.retrain_eq, State.onSluice_fld, kept, State.retrainCounted, State.onChan_fld, State.addFld,
    State.fld_setFld_same _ _ _ (show 2 + 16 ≤ 32 by decide)]
  exact Nat.mod_eq_of_lt (Nat.lt_of_le_of_lt (Nat.min_le_left _ _) (show 2 ^ 16 - 1 < 2 ^ 16 by decide))

end

/-! ### RETRAIN_START and RETRAIN_RETRY (R144) -/

section
variable (c : Fin 64)

theorem exec_retrainStart (h : s.fld (Reg.FCE_STATUS_STATE c) = 2) (hs : (s.chan c).stopped = false) :
    exec (.retrainStart c) s = .next (s.retrain c (s.rung c) false) := congrArg _ (if_pos (by simp [h, hs]))

theorem exec_retrainStart_down (h : s.fld (Reg.FCE_STATUS_STATE c) ≠ 2) : exec (.retrainStart c) s = .next s :=
  congrArg _ (if_neg (by simp [h]))

theorem retrainStart_begins (h : s.fld (Reg.FCE_STATUS_STATE c) = 2) (hs : (s.chan c).stopped = false) :
    Changes (.retrainStart c) s [.edgeRegs, .flash, .sluice] [Reg.FCE_STATUS c, Reg.FCE_RETRAIN c] fun t =>
      Trains s t c (s.rung c) ∧ (c.val, s.turn + 1, none) ∈ t.sluice.chansOut ∧ (t.chan c).second = false ∧
        t.fld (Reg.FCE_RETRAIN_TOTAL c) = min (2 ^ (Reg.FCE_RETRAIN_TOTAL c).width - 1) (s.fld (Reg.FCE_RETRAIN_TOTAL c) + 1) :=
  changes_of (exec_retrainStart s c h hs) (within_retrain s _ _)
    ⟨trains_retrain s _ _, List.mem_cons_self .., s.retrain_second _ _, s.retrain_total _ _⟩

theorem retrainRetry_begins {t0 : Nat} (h : (s.chan c).retryAt = some t0) (hs : (s.chan c).stopped = false) (due : t0 ≤ s.turn) :
    Changes (.retrainRetry c) s [.edgeRegs, .flash, .sluice] [Reg.FCE_STATUS c, Reg.FCE_RETRAIN c] fun t => Trains s t c (s.rung c) := by
  have run : exec (.retrainRetry c) s = .next (s.retrain c (s.rung c) false) := by
    show execRetrainRetry c s = _
    rw [execRetrainRetry, h]
    exact congrArg _ (if_pos (by simp [due, hs]))
  exact changes_of run (within_retrain s _ _) (trains_retrain s _ _)

theorem exec_retrainRetry_early {t0 : Nat} (h : (s.chan c).retryAt = some t0) (early : s.turn < t0) : exec (.retrainRetry c) s = .next s := by
  show execRetrainRetry c s = _
  rw [execRetrainRetry, h]
  exact congrArg _ (if_neg (by simp [Nat.not_le.2 early]))

/-! ### RETRAIN_TRAINING_END (R144) -/

theorem State.trainingEnd_early {rung ends : Nat} (h : (s.chan c).training = some (rung, ends)) (early : s.turn < ends) (pass : Bool) :
    s.trainingEnd c pass = s := by
  rw [State.trainingEnd, h]
  exact if_pos early

section
variable {rung ends : Nat} (h : (s.chan c).training = some (rung, ends)) (due : ends ≤ s.turn) (hr : (s.chan c).raise = false)
include h due hr

theorem State.trainingEnd_pass : s.trainingEnd c true = s.onChan c fun y =>
    { y with training := none, retryAt := none, raise := false, coming := some (rung, if (s.chan c).second = true then 1 else 0) } := by
  rw [State.trainingEnd, h]
  dsimp only
  rw [if_neg (Nat.not_lt.2 due)]
  simp [hr]

theorem State.trainingEnd_fail : s.trainingEnd c false =
    if (s.chan c).second = false ∧ rung + 1 ≤ s.fld (Reg.FCE_RATE_FLOOR_IDX c) then s.train c (rung + 1) true else s.retrainFailed c true := by
  rw [State.trainingEnd, h]
  dsimp only
  rw [if_neg (Nat.not_lt.2 due)]
  simp [hr]

/-- Training that passes: the channel is about to come up at its rung. -/
theorem trainingEnd_passes : Does (.retrainTrainingEnd c true) s [.flash] [] fun t => (t.chan c).training = none ∧ (t.chan c).retryAt = none ∧
    ((t.chan c).coming = some (rung, if (s.chan c).second = true then 1 else 0)) ∧
      ∀ n, n ≠ c.val → klook n t.flash.chans = klook n s.flash.chans := by
  refine does_of (congrArg Host.Outcome.next (s.trainingEnd_pass c h due hr)) (frame_onFlash s _)
    ⟨?_, ?_, ?_, fun n hn => s.klook_onChan_ne _ hn⟩ <;>
    rw [State.onChan_chan_same]

/-- A first failure above the floor: a second attempt, one rung down. -/
theorem trainingEnd_falls (hs : (s.chan c).second = false) (hf : rung + 1 ≤ s.fld (Reg.FCE_RATE_FLOOR_IDX c)) :
    Changes (.retrainTrainingEnd c false) s [.edgeRegs, .flash] [Reg.FCE_STATUS c] fun t =>
      Trains s t c (rung + 1) ∧ (t.chan c).second = true := by
  have run : exec (.retrainTrainingEnd c false) s = .next (s.train c (rung + 1) true) :=
    congrArg _ ((s.trainingEnd_fail c h due hr).trans (if_pos ⟨hs, hf⟩))
  refine changes_of run (within_train s _ _ (by simp) (by simp) (by simp)) ⟨trains_train s _ _, ?_⟩
  rw [State.train_chan]

/-- The channel of a failed retrain stays down, and waits 1,024 turns. -/
def State.stayDown (c : Nat) : State :=
  (s.onChan c fun x => { x with training := none, raise := false, retryAt := some (s.turn + 1024) }).setChanState c 4

/-- The failure, counted and reported. -/
def State.failureCounted (c : Nat) : State := (s.addFld (Reg.FCE_RETRAIN_FAILED_ROT c) 1).setFld (Reg.FCE_EVENT_RETRAIN_FAIL c) 1

omit h due hr in
theorem State.failureCounted_rot {c : Nat} (hc : s.fld (Reg.FCE_RETRAIN_FAILED_ROT c) < 2) :
    (s.failureCounted c).fld (Reg.FCE_RETRAIN_FAILED_ROT c) = s.fld (Reg.FCE_RETRAIN_FAILED_ROT c) + 1 := by
  have apart : (Reg.FCE_EVENT_RETRAIN_FAIL c).apart (Reg.FCE_RETRAIN_FAILED_ROT c) = true := by
    simp [Fld.apart, Reg.FCE_EVENT_RETRAIN_FAIL, Reg.FCE_RETRAIN_FAILED_ROT, Reg.FCE_EVENT, Reg.FCE_RETRAIN]
  rw [State.failureCounted, State.fld_setFld_apart _ _ _ _ apart, State.addFld, State.fld_setFld_same _ _ _ (show 0 + 2 ≤ 32 by decide)]
  show min (2 ^ 2 - 1) (s.fld (Reg.FCE_RETRAIN_FAILED_ROT c) + 1) % 2 ^ 2 = _
  omega

omit h due hr in
/-- A failure that is not the third of its rotation leaves the engine running. -/
theorem State.retrainFailed_eq {c : Nat} (hc : s.fld (Reg.FCE_RETRAIN_FAILED_ROT c) < 2) :
    s.retrainFailed c true = (s.stayDown c).failureCounted c := by
  have down : Within [.edgeRegs, .flash] [Reg.FCE_STATUS c] s (s.stayDown c) :=
    within_trans (within_onFlash s _ (by simp)) (within_setChanState _ 4 (by simp) (by simp))
  have kept := within_fld down (g := Reg.FCE_RETRAIN_FAILED_ROT c) (by simp [Reg.FCE_RETRAIN_FAILED_ROT, Reg.FCE_RETRAIN, Reg.FCE_STATUS])
  have count := State.failureCounted_rot (s.stayDown c) (kept.symm ▸ hc)
  exact if_neg (show ¬((s.stayDown c).failureCounted c).fld (Reg.FCE_RETRAIN_FAILED_ROT c) = 3 by omega)

/-- A last failure: the channel stays down for 1,024 turns. -/
theorem trainingEnd_fails (hs : (s.chan c).second = true ∨ s.fld (Reg.FCE_RATE_FLOOR_IDX c) < rung + 1)
    (hc : s.fld (Reg.FCE_RETRAIN_FAILED_ROT c) < 2) :
    Changes (.retrainTrainingEnd c false) s [.edgeRegs, .flash] [Reg.FCE_STATUS c, Reg.FCE_RETRAIN c, Reg.FCE_EVENT c] fun t =>
      t.fld (Reg.FCE_STATUS_STATE c) = 4 ∧ (t.chan c).retryAt = some (s.turn + 1024) ∧ (t.chan c).training = none ∧
        t.fld (Reg.FCE_EVENT_RETRAIN_FAIL c) = 1 ∧ t.fld (Reg.FCE_RETRAIN_FAILED_ROT c) = s.fld (Reg.FCE_RETRAIN_FAILED_ROT c) + 1 := by
  have last : ¬((s.chan c).second = false ∧ rung + 1 ≤ s.fld (Reg.FCE_RATE_FLOOR_IDX c)) := by
    rintro ⟨first, room⟩
    rcases hs with second | floor
    · exact absurd (first.symm.trans second) (by decide)
    · omega
  have run : exec (.retrainTrainingEnd c false) s = .next ((s.stayDown c).failureCounted c) :=
    congrArg _ (((s.trainingEnd_fail c h due hr).trans (if_neg last)).trans (s.retrainFailed_eq hc))
  have down : Within [.edgeRegs, .flash] [Reg.FCE_STATUS c] s (s.stayDown c) :=
    within_trans (within_onFlash s _ (by simp)) (within_setChanState _ 4 (by simp) (by simp))
  have counted : Within [.edgeRegs, .flash] [Reg.FCE_RETRAIN c, Reg.FCE_EVENT c] (s.stayDown c) ((s.stayDown c).failureCounted c) :=
    within_trans (within_addFld _ 1 (by simp [Reg.FCE_RETRAIN_FAILED_ROT])) (within_setFld _ 1 (by simp [Reg.FCE_EVENT_RETRAIN_FAIL]))
  have kept := within_fld down (g := Reg.FCE_RETRAIN_FAILED_ROT c) (by simp [Reg.FCE_RETRAIN_FAILED_ROT, Reg.FCE_RETRAIN, Reg.FCE_STATUS])
  have chan : ((s.stayDown c).failureCounted c).chan c = { s.chan c with training := none, raise := false, retryAt := some (s.turn + 1024) } := by
    rw [State.failureCounted, State.setFld_chan, State.addFld, State.setFld_chan, State.stayDown, State.setChanState_chan, State.onChan_chan_same]
  refine changes_of run (within_trans (within_mono down (List.Subset.refl _) (by simp)) (within_mono counted (List.Subset.refl _) (by simp)))
    ⟨?_, by rw [chan], by rw [chan], State.fld_setFld_same _ _ _ (show 2 + 1 ≤ 32 by decide), ?_⟩
  · rw [within_fld counted (by simp [Reg.FCE_STATUS_STATE, Reg.FCE_STATUS, Reg.FCE_RETRAIN, Reg.FCE_EVENT])]
    exact State.setChanState_state _ (by decide)
  · rw [State.failureCounted_rot _ (kept.symm ▸ hc), kept]

end

end

/-! ### The edge that brings a channel up (R144) -/

theorem State.setFlds_append (l m : List (Fld × Nat)) : s.setFlds (l ++ m) = (s.setFlds l).setFlds m := List.foldl_append

/-- A field that a list of field writes sets, where no later one of them touches it. -/
theorem State.fld_setFlds_last {f : Fld} {v : Nat} (l : List (Fld × Nat)) {m : List (Fld × Nat)} (hf : f.lsb + f.width ≤ 32)
    (h : ∀ p ∈ m, p.1.apart f = true) : (s.setFlds (l ++ (f, v) :: m)).fld f = v % 2 ^ f.width := by
  rw [State.setFlds_append, State.setFlds_cons, State.fld_setFlds_apart _ h, State.fld_setFld_same _ _ _ hf]

theorem within_writeSpillRate {P : List Part} {R : List Nat} (hR : Reg.PMC_CIS_BOARD ∈ R) : Within P R s s.writeSpillRate :=
  within_setFld s _ hR

/-- The event that tells a rung of another rate. -/
def rateWrites (c ev : Nat) : List (Fld × Nat) :=
  if ev = 1 then [(Reg.FCE_EVENT_RATE_DROP c, 1)] else if ev = 2 then [(Reg.FCE_EVENT_RATE_RAISE c, 1)] else []

/-- The register writes of a channel that comes up, spill rate aside. -/
def State.upWrites (c rung ev : Nat) : List (Fld × Nat) :=
  [(Reg.FCE_STATUS_STATE c, 2), (Reg.FCE_STATUS_CUR_IDX c, rung), (Reg.FCE_EVENT_RETRAIN_OK c, 1),
    (Reg.FCE_STATUS_DEGRADED c, if s.fld (Reg.FCE_RATE_BUILD_IDX c) < rung then 1 else 0)] ++ rateWrites c ev

/-- The channel, and the registers of its engine, once it is up. -/
def State.reportUp (c rung ev : Nat) : State :=
  (s.onChan c fun x => { x with coming := none, cameUp := some (s.turn + 1) }).setFlds (s.upWrites c rung ev)

section
variable {c rung ev : Nat}

theorem State.reportUp_flash : (s.reportUp c rung ev).flash = (s.onChan c fun x => { x with coming := none, cameUp := some (s.turn + 1) }).flash := by
  rw [State.reportUp, State.setFlds_flash]

theorem State.reportUp_turn : (s.reportUp c rung ev).turn = s.turn := by rw [State.reportUp, State.setFlds_turn, State.onChan_turn]

theorem State.bringUp_eq (h : (s.chan c).coming = some (rung, ev)) : s.bringUp c = (s.reportUp c rung ev).writeSpillRate.onSluice fun x =>
    { x with chansOut := x.chansOut.map fun o => if o.1 == c then (o.1, o.2.1, some (s.turn + 2)) else o } := by
  rw [State.bringUp, h]
  dsimp -zeta only
  extract_lets up named rated
  have written : rated = named.setFlds (rateWrites c ev) := by
    unfold rated rateWrites
    clear_value named
    split_ifs <;> rfl
  have reported : rated = s.reportUp c rung ev := by
    rw [written, State.reportUp, State.upWrites, State.setFlds_append]
    rfl
  rw [reported, State.reportUp_turn]

theorem rateWrites_event {p : Fld × Nat} (hp : p ∈ rateWrites c ev) : p.1 = Reg.FCE_EVENT_RATE_DROP c ∨ p.1 = Reg.FCE_EVENT_RATE_RAISE c := by
  unfold rateWrites at hp
  split_ifs at hp <;> simp_all

section
variable (h : (s.chan c).coming = some (rung, ev))
include h

theorem State.bringUp_fld {g : Fld} (hg : g.addr ≠ Reg.PMC_CIS_BOARD) : (s.bringUp c).fld g = (s.reportUp c rung ev).fld g := by
  have spill : Within [] [Reg.PMC_CIS_BOARD] (s.reportUp c rung ev) (s.reportUp c rung ev).writeSpillRate := within_writeSpillRate _ (by simp)
  rw [State.bringUp_eq s h, State.onSluice_fld, within_fld spill (by simpa using hg)]

/-- The channel is up, at the rung that its training passed at. -/
theorem State.bringUp_reports (hr : rung < 9) :
    (s.bringUp c).fld (Reg.FCE_STATUS_STATE c) = 2 ∧ (s.bringUp c).fld (Reg.FCE_STATUS_CUR_IDX c) = rung ∧
    (s.bringUp c).fld (Reg.FCE_EVENT_RETRAIN_OK c) = 1 := by
  have ne : Reg.FCE_EVENT c ≠ Reg.FCE_STATUS c := by simp [Reg.FCE_EVENT, Reg.FCE_STATUS]
  have event : ∀ p ∈ rateWrites c ev, p.1.addr = Reg.FCE_EVENT c ∧ p.1.apart (Reg.FCE_EVENT_RETRAIN_OK c) = true := fun p hp => by
    rcases rateWrites_event hp with hp | hp <;> rw [hp] <;>
      exact ⟨rfl, by simp [Fld.apart, Reg.FCE_EVENT_RATE_DROP, Reg.FCE_EVENT_RATE_RAISE, Reg.FCE_EVENT_RETRAIN_OK]⟩
  have other : ∀ {g : Fld}, g.addr = Reg.FCE_STATUS c → ∀ p ∈ rateWrites c ev, p.1.apart g = true := fun {g} hg p hp => by
    simp [Fld.apart, (event p hp).1, hg, ne]
  have above : Reg.PMC_CIS_BOARD < Reg.FCE_STATUS c ∧ Reg.PMC_CIS_BOARD < Reg.FCE_EVENT c := by
    simp only [Reg.PMC_CIS_BOARD, Reg.FCE_STATUS, Reg.FCE_EVENT]
    omega
  refine ⟨(State.bringUp_fld s h above.1.ne').trans ?_, (State.bringUp_fld s h above.1.ne').trans ?_,
    (State.bringUp_fld s h above.2.ne').trans ?_⟩
  · refine State.fld_setFlds_last _ [] (show 0 + 3 ≤ 32 by decide) (List.forall_mem_append.2 ⟨?_, other rfl⟩)
    simp [Fld.apart, Reg.FCE_STATUS_STATE, Reg.FCE_STATUS_CUR_IDX, Reg.FCE_STATUS_DEGRADED, Reg.FCE_EVENT_RETRAIN_OK, ne]
  · refine (State.fld_setFlds_last _ [_] (show 10 + 4 ≤ 32 by decide) (List.forall_mem_append.2 ⟨?_, other rfl⟩)).trans (Nat.mod_eq_of_lt ?_)
    · simp [Fld.apart, Reg.FCE_STATUS_CUR_IDX, Reg.FCE_STATUS_DEGRADED, Reg.FCE_EVENT_RETRAIN_OK, ne]
    · exact Nat.lt_trans hr (by decide : 9 < 2 ^ 4)
  · refine State.fld_setFlds_last _ [_, _] (show 1 + 1 ≤ 32 by decide) (List.forall_mem_append.2 ⟨?_, fun p hp => (event p hp).2⟩)
    simp [Fld.apart, Reg.FCE_STATUS_DEGRADED, Reg.FCE_EVENT_RETRAIN_OK, ne.symm]

/-- The event of a rung of another rate. -/
theorem State.bringUp_rate : (ev = 1 → (s.bringUp c).fld (Reg.FCE_EVENT_RATE_DROP c) = 1) ∧
    (ev = 2 → (s.bringUp c).fld (Reg.FCE_EVENT_RATE_RAISE c) = 1) := by
  have above : Reg.PMC_CIS_BOARD < Reg.FCE_EVENT c := by
    simp only [Reg.PMC_CIS_BOARD, Reg.FCE_EVENT]
    omega
  constructor <;> rintro rfl <;> refine (State.bringUp_fld s h above.ne').trans ?_
  · exact State.fld_setFlds_last _ [_, _, _, _] (show 3 + 1 ≤ 32 by decide) (m := []) nofun
  · exact State.fld_setFlds_last _ [_, _, _, _] (show 5 + 1 ≤ 32 by decide) (m := []) nofun

theorem State.bringUp_chan : (s.bringUp c).chan c = { s.chan c with coming := none, cameUp := some (s.turn + 1) } := by
  have spill : (s.reportUp c rung ev).writeSpillRate.flash = (s.reportUp c rung ev).flash := State.setFld_flash _ _ _
  rw [State.bringUp_eq s h, State.onSluice_chan, State.chan_of_flash _ spill, State.chan_of_flash _ (s.reportUp_flash), State.onChan_chan_same]

/-- The sluice plans on the channel from the turn after. -/
theorem State.bringUp_planned : ∀ x ∈ (s.bringUp c).sluice.chansOut, x.1 = c → x.2.2 = some (s.turn + 2) := by
  rw [State.bringUp_eq s h]
  intro x hx hc
  obtain ⟨o, -, rfl⟩ := List.mem_map.1 hx
  split_ifs at hc ⊢ with ho
  · rfl
  · exact absurd (beq_iff_eq.2 hc) ho

end

end

/-! ### RETRAIN_REQ (R145) -/

/-- The first turn that a test picks passes it, and does not lie before the search. -/
theorem firstTurn_some {p : Nat → Bool} {fuel t u : Nat} (h : firstTurn p fuel t = some u) : t ≤ u ∧ p u = true := by
  induction fuel generalizing t with
  | zero => cases h
  | succ fuel ih =>
    rw [firstTurn] at h
    split_ifs at h with hp
    · cases h
      exact ⟨Nat.le_refl _, hp⟩
    · exact ⟨Nat.le_of_succ_le (ih h).1, (ih h).2⟩

/-- The channel's whole plan layer, booked for a requested retrain of 512 turns. -/
def retrainBooking (c t id : Nat) : Booking := { res := .chan c, start := t, len := 512, plan := id }

/-- The retrain is planned to start in a turn. -/
def State.retrainPlanned (c t : Nat) : State :=
  (s.onSluice fun x => { x with bookings := retrainBooking c t s.sluice.nextPlan :: x.bookings, nextPlan := s.sluice.nextPlan + 1 }).onChan c fun x =>
    { x with raiseAt := some t }

theorem State.retrainPlanned_fld (c t : Nat) (g : Fld) : (s.retrainPlanned c t).fld g = s.fld g := (rfl)

theorem State.retrainPlanned_bookings (c t : Nat) :
    (s.retrainPlanned c t).sluice.bookings = retrainBooking c t s.sluice.nextPlan :: s.sluice.bookings := (rfl)

theorem State.retrainPlanned_raiseAt (c t : Nat) : ((s.retrainPlanned c t).chan c).raiseAt = some t := by
  rw [State.retrainPlanned, State.onChan_chan_same]

/-- Either no interval is free and nothing is booked, or the retrain is planned in a turn to come. -/
theorem State.planRetrain_cases (c : Nat) : s.planRetrain c = s ∨ ∃ t, s.turn < t ∧ s.planRetrain c = s.retrainPlanned c t := by
  unfold State.planRetrain
  split
  · exact .inl rfl
  · next t found => exact .inr ⟨t, (firstTurn_some found).1, rfl⟩

section
variable {client target : Nat} {c : Fin 64}

/-- The access restarts the idle timer of the channel's group, and the request is noted. -/
def State.retrainAsked (c : Fin 64) (target : Nat) : State :=
  ((s.restartIdle (blockDomain (Reg.FCE_CTRL c))).setFlds [(Reg.FCE_CTRL_TARGET_IDX c, target), (Reg.FCE_CTRL_RETRAIN_REQ c, 1)]).onChan c id

theorem frame_retrainAsked :
    Frame [.idle, .flash] [(Reg.FCE_CTRL_TARGET_IDX c, target), (Reg.FCE_CTRL_RETRAIN_REQ c, 1)] s (s.retrainAsked c target) :=
  (((frame_restartIdle s _).trans (frame_setFlds _ _)).trans (frame_onFlash _ _)).mono (by decide)

theorem State.retrainAsked_chan (n : Nat) : (s.retrainAsked c target).chan n = s.chan n := by
  have noted : ((s.restartIdle (blockDomain (Reg.FCE_CTRL c))).setFlds
      [(Reg.FCE_CTRL_TARGET_IDX c, target), (Reg.FCE_CTRL_RETRAIN_REQ c, 1)]).chan n = s.chan n :=
    (State.chan_of_flash _ (State.setFlds_flash _ _) n :)
  rw [State.retrainAsked, State.onChan_chan]
  split_ifs with hn
  · exact hn ▸ noted
  · exact noted

theorem within_retrainAsked : Within [.idle, .flash] [Reg.FCE_CTRL c] s (s.retrainAsked c target) :=
  within_of_frame (frame_retrainAsked s) (List.Subset.refl _) (by simp [Reg.FCE_CTRL_TARGET_IDX, Reg.FCE_CTRL_RETRAIN_REQ])

theorem State.retrainAsked_state : (s.retrainAsked c target).fld (Reg.FCE_STATUS_STATE c) = s.fld (Reg.FCE_STATUS_STATE c) :=
  within_fld (within_retrainAsked s) (by simp [Reg.FCE_STATUS_STATE, Reg.FCE_STATUS, Reg.FCE_CTRL])

theorem State.retrainAsked_request : (s.retrainAsked c target).fld (Reg.FCE_CTRL_RETRAIN_REQ c) = 1 :=
  (State.onChan_fld _ _ _ _).trans
    (State.fld_setFlds_last _ [(Reg.FCE_CTRL_TARGET_IDX c, target)] (show 0 + 1 ≤ 32 by decide) (m := []) nofun)

theorem State.retrainAsked_target :
    (s.retrainAsked c target).fld (Reg.FCE_CTRL_TARGET_IDX c) = target % 2 ^ (Reg.FCE_CTRL_TARGET_IDX c).width :=
  (State.onChan_fld _ _ _ _).trans
    (State.fld_setFlds_last _ [] (show 4 + 4 ≤ 32 by decide) (by simp [Fld.apart, Reg.FCE_CTRL_TARGET_IDX, Reg.FCE_CTRL_RETRAIN_REQ]))

variable (h : reaches s client (Reg.FCE_CTRL c))
include h

/-- A request that stands is not taken twice. -/
theorem retrainReq_stands (hreq : s.fld (Reg.FCE_CTRL_RETRAIN_REQ c) = 1) : Does (.retrainReq client c target) s [.idle] [] fun _ => True := by
  have stands : (s.restartIdle (blockDomain (Reg.FCE_CTRL c))).flag (Reg.FCE_CTRL_RETRAIN_REQ c) = true := beq_iff_eq.2 hreq
  exact does_of (congrArg Host.Outcome.next ((State.setupWrite_reaches s _ _ _ _ _ h).trans (if_pos stands))) (frame_restartIdle s _) trivial

variable (hreq : s.fld (Reg.FCE_CTRL_RETRAIN_REQ c) = 0)
include hreq

theorem exec_retrainReq : exec (.retrainReq client c target) s = .next
    (if s.fld (Reg.FCE_STATUS_STATE c) = 2 then (s.retrainAsked c target).planRetrain c else s.retrainAsked c target) := by
  have open_ : ¬(s.restartIdle (blockDomain (Reg.FCE_CTRL c))).flag (Reg.FCE_CTRL_RETRAIN_REQ c) = true := fun stands =>
    absurd (hreq.symm.trans (beq_iff_eq.1 stands)) (by decide)
  refine congrArg Host.Outcome.next ((State.setupWrite_reaches s _ _ _ _ _ h).trans ((if_neg open_).trans ?_))
  show (if ((s.retrainAsked c target).fld (Reg.FCE_STATUS_STATE c) == 2) = true then (s.retrainAsked c target).planRetrain c
    else s.retrainAsked c target) = _
  rw [State.retrainAsked_state]
  exact if_congr beq_iff_eq rfl rfl

/-- A request waits while its channel is not up. -/
theorem retrainReq_waits (hs : s.fld (Reg.FCE_STATUS_STATE c) ≠ 2) : Does (.retrainReq client c target) s [.idle, .flash]
    [(Reg.FCE_CTRL_TARGET_IDX c, target), (Reg.FCE_CTRL_RETRAIN_REQ c, 1)] fun t => ∀ n, t.chan n = s.chan n :=
  does_of ((exec_retrainReq s h hreq).trans (congrArg _ (if_neg hs))) (frame_retrainAsked s) s.retrainAsked_chan

/-- A request on a channel that is up books the channel's plan layer, where an interval of it is free. -/
theorem retrainReq_plans (hs : s.fld (Reg.FCE_STATUS_STATE c) = 2) (hr : (s.chan c).raiseAt = none) :
    Changes (.retrainReq client c target) s [.idle, .flash, .sluice] [Reg.FCE_CTRL c] fun t =>
      t.fld (Reg.FCE_CTRL_RETRAIN_REQ c) = 1 ∧ t.fld (Reg.FCE_CTRL_TARGET_IDX c) = target % 2 ^ (Reg.FCE_CTRL_TARGET_IDX c).width ∧
        (∀ b ∈ s.sluice.bookings, b ∈ t.sluice.bookings) ∧
        ∀ t0, (t.chan c).raiseAt = some t0 → s.turn < t0 ∧ ∃ b ∈ t.sluice.bookings, b.res = .chan c ∧ b.start = t0 ∧ b.len = 512 := by
  have run := (exec_retrainReq s h hreq (target := target)).trans (congrArg _ (if_pos hs))
  have asked : Within [.idle, .flash, .sluice] [Reg.FCE_CTRL c] s (s.retrainAsked c target) :=
    within_mono (within_retrainAsked s) (by simp) (List.Subset.refl _)
  have turn : (s.retrainAsked c target).turn = s.turn := asked.1 .turn (by decide)
  have sluice : (s.retrainAsked c target).sluice = s.sluice := (frame_retrainAsked s).1 .sluice (by decide)
  rcases (s.retrainAsked c target).planRetrain_cases c with same | ⟨t, later, planned⟩
  · rw [same] at run
    refine changes_of run asked ⟨s.retrainAsked_request, s.retrainAsked_target, fun b hb => by rwa [sluice], fun t0 ht => ?_⟩
    rw [s.retrainAsked_chan, hr] at ht
    cases ht
  · rw [planned] at run
    refine changes_of run (within_trans (within_trans asked (within_onSluice _ _ (by simp))) (within_onFlash _ _ (by simp)))
      ⟨?_, ?_, fun b hb => ?_, fun t0 ht => ?_⟩
    · rw [State.retrainPlanned_fld, State.retrainAsked_request]
    · rw [State.retrainPlanned_fld, State.retrainAsked_target]
    · rw [State.retrainPlanned_bookings, sluice]
      exact List.mem_cons_of_mem _ hb
    · rw [State.retrainPlanned_raiseAt] at ht
      cases ht
      rw [State.retrainPlanned_bookings, ← turn]
      exact ⟨later, _, List.mem_cons_self .., rfl, rfl, rfl⟩

end

/-! ### CHANNEL_UP_RESUME (R146) -/

/-- One die of a channel in the first turn after the channel came up. -/
def State.resumeUp (s : State) (n : Nat) : State :=
  let d := s.die n
  let s := if d.page.isSome then s.onDie n fun x => { x with page := none } else s
  match d.hold with
  | some h => if h.suspended.isSome && d.busy.isNone && planFree s.turn s.sluice.bookings (.die n) s.turn then s.issueResume n else s
  | none => s

/-- A die that came up with its channel: its page register holds nothing, and its suspended hold has resumed where no plan has a step. -/
structure CameUp (s t : State) (n : Nat) : Prop where
  page : (t.die n).page = none
  resumed : ∀ h, (s.die n).hold = some h → h.suspended.isSome = true → (s.die n).busy = none →
    planFree s.turn s.sluice.bookings (.die n) s.turn = true → (t.die n).busy = some (if h.erase then .erase else .program, s.turn)

/-- Between two states the turn, the calendars and every die but those of a set are the same. -/
structure DiesApart (p : Nat → Prop) (s t : State) : Prop where
  turn : t.turn = s.turn
  sluice : t.sluice = s.sluice
  dies : ∀ n, ¬p n → t.die n = s.die n

theorem State.issueResume_resumes {n : Nat} {h : DieHold} {t0 : Nat} (hh : (s.die n).hold = some h) (hs : h.suspended = some t0)
    (hb : (s.die n).busy = none) : DiesApart (· = n) s (s.issueResume n) ∧ ((s.issueResume n).die n).page = none ∧
      ((s.issueResume n).die n).busy = some (if h.erase then .erase else .program, s.turn) := by
  rw [State.issueResume, hh]
  dsimp only
  rw [hs]
  dsimp only
  rw [if_neg (by simp [hb])]
  refine ⟨⟨?_, ?_, fun m hm => ?_⟩, ?_, ?_⟩
  · rw [State.setFld_turn, State.setFur_turn, State.onDie_turn]
  · rw [State.setFld_sluice, State.setFur_sluice, State.onDie_sluice]
  all_goals rw [State.setFld_die, State.die_of_flash _ (State.setFur_flash _ _ _)]
  · exact s.onDie_die_ne _ hm
  all_goals rw [State.onDie_die]

theorem State.resumeUp_comesUp (n : Nat) : DiesApart (· = n) s (s.resumeUp n) ∧ CameUp s (s.resumeUp n) n := by
  unfold State.resumeUp
  extract_lets d cleared
  obtain ⟨apart, page, hold, busy⟩ : DiesApart (· = n) s cleared ∧ (cleared.die n).page = none ∧ (cleared.die n).hold = d.hold ∧
      (cleared.die n).busy = d.busy := by
    unfold cleared
    split_ifs with hp
    · exact ⟨⟨rfl, rfl, fun m hm => s.onDie_die_ne _ hm⟩, by rw [State.onDie_die], by rw [State.onDie_die], by rw [State.onDie_die]⟩
    · exact ⟨⟨rfl, rfl, fun _ _ => rfl⟩, by simpa using hp, rfl, rfl⟩
  clear_value cleared
  cases held : d.hold with
  | none => exact ⟨apart, page, fun h hh => absurd (held.symm.trans hh) (by simp)⟩
  | some h =>
    dsimp only
    rw [apart.turn, apart.sluice]
    split_ifs with may
    · obtain ⟨⟨hs, hb⟩, free⟩ : (h.suspended.isSome = true ∧ d.busy.isNone = true) ∧
          planFree s.turn s.sluice.bookings (.die n) s.turn = true := by
        simpa only [Bool.and_eq_true] using may
      obtain ⟨t0, ht⟩ := Option.isSome_iff_exists.1 hs
      obtain ⟨resumed, empty, running⟩ := State.issueResume_resumes cleared (hold.trans held) ht (busy.trans (Option.isNone_iff_eq_none.1 hb))
      refine ⟨⟨resumed.turn.trans apart.turn, resumed.sluice.trans apart.sluice,
        fun m hm => (resumed.dies m hm).trans (apart.dies m hm)⟩, empty,
        fun g hg _ _ _ => ?_⟩
      cases held.symm.trans hg
      rw [running, apart.turn]
    · refine ⟨apart, page, fun g hg hs hb free => absurd ?_ may⟩
      cases held.symm.trans hg
      simp only [hs, free, Bool.and_true, Bool.true_and]
      exact Option.isNone_iff_eq_none.2 hb

/-- The dies of a channel, one after another: each is left as `State.resumeUp` leaves it, and no other changes. -/
theorem foldl_resumeUp (c k : Nat) :
    DiesApart (fun n => ∃ p, p < k ∧ n = 16 * c + p) s ((List.range k).foldl (fun s p => s.resumeUp (16 * c + p)) s) ∧
    ∀ p, p < k → CameUp s ((List.range k).foldl (fun s p => s.resumeUp (16 * c + p)) s) (16 * c + p) := by
  induction k with
  | zero => exact ⟨⟨rfl, rfl, fun _ _ => rfl⟩, fun p hp => absurd hp (Nat.not_lt_zero p)⟩
  | succ k ih =>
    rw [List.range_succ, List.foldl_append]
    generalize (List.range k).foldl (fun s p => s.resumeUp (16 * c + p)) s = t at ih
    obtain ⟨before, done⟩ := ih
    obtain ⟨one, up⟩ := State.resumeUp_comesUp t (16 * c + k)
    have fresh : t.die (16 * c + k) = s.die (16 * c + k) := before.dies _ (by rintro ⟨p, hp, e⟩; omega)
    refine ⟨⟨one.turn.trans before.turn, one.sluice.trans before.sluice, fun n hn => ?_⟩, fun p hp => ?_⟩
    · exact (one.dies n fun e => hn ⟨k, Nat.lt_succ_self k, e⟩).trans (before.dies n fun ⟨p, hp, e⟩ => hn ⟨p, Nat.lt_succ_of_lt hp, e⟩)
    · rcases Nat.lt_succ_iff_lt_or_eq.1 hp with hp | rfl
      · have kept : (t.resumeUp (16 * c + k)).die (16 * c + p) = t.die (16 * c + p) := one.dies _ (by omega)
        exact ⟨(congrArg Die.page kept).trans (done p hp).page,
          fun h hh hs hb free => (congrArg Die.busy kept).trans ((done p hp).resumed h hh hs hb free)⟩
      · refine ⟨up.page, fun h hh hs hb free => ?_⟩
        have := up.resumed h (fresh ▸ hh) hs (fresh ▸ hb) (by rw [before.turn, before.sluice, free])
        rwa [before.turn] at this

section
variable {c : Fin 64}

theorem exec_channelUpResume (h : s.fld (Reg.FCE_STATUS_STATE c) = 2) (hc : (s.chan c).cameUp = some s.turn) :
    exec (.channelUpResume c) s = .next ((List.range 16).foldl (fun s p => s.resumeUp (16 * c + p)) s) :=
  congrArg Host.Outcome.next (if_neg (by simp [h, hc]))

theorem exec_channelUpResume_other (h : s.fld (Reg.FCE_STATUS_STATE c) ≠ 2 ∨ (s.chan c).cameUp ≠ some s.turn) :
    exec (.channelUpResume c) s = .next s :=
  congrArg Host.Outcome.next (if_pos (by simpa using h))

end

/-- Settles O38: a retrain's beginnings and ends, the edge that brings a channel up, a request, and the first turn, each by a lemma above. -/
theorem channelsRetrainAndResume : Obligations.ChannelsRetrainAndResume := by
  unfold Obligations.ChannelsRetrainAndResume
  intro s c
  refine ⟨fun h hs => ?_, exec_retrainStart_down s c, fun rung ends h => ⟨fun pass early => congrArg Host.Outcome.next
      (s.trainingEnd_early c h early pass), fun due hr hrung =>
      ⟨trainingEnd_passes s c h due hr, fun hs hf => ?_, trainingEnd_fails s c h due hr⟩⟩,
    fun rung ev h hr => ?_, fun t0 h hs => ⟨fun due => ?_, exec_retrainRetry_early s c h⟩,
    fun client target h => retrainReq_stands s h, fun client target h => retrainReq_waits s h,
    fun client target h => retrainReq_plans s h, fun h hc => ?_, exec_channelUpResume_other s⟩
  · exact changes_imp (retrainStart_begins s c h hs) fun t ⟨began, rest⟩ => ⟨⟨began.state, began.training⟩, rest⟩
  · exact changes_imp (trainingEnd_falls s c h due hr hs hf) fun t ⟨began, rest⟩ => ⟨⟨began.state, began.training⟩, rest⟩
  · obtain ⟨state, index, ok⟩ := s.bringUp_reports h hr
    obtain ⟨drop, raise⟩ := s.bringUp_rate h
    exact ⟨state, index, ok, drop, raise, by rw [s.bringUp_chan h], by rw [s.bringUp_chan h], s.bringUp_planned h⟩
  · exact changes_imp (retrainRetry_begins s c h hs due) fun t began => ⟨began.state, began.training⟩
  · have up := (foldl_resumeUp s c 16).2
    exact completes_of (exec_channelUpResume s h hc) fun p hp => ⟨(up p hp).page, (up p hp).resumed⟩

end Sys2Proof.Machine
end

section
/-! The weir, the sustainable rate, the allotment, the spare and the early warnings (R120, R218, R222–R224, R234, R239, R242), and O41. -/

namespace Sys2Proof.Machine

open Sys2Proof.Safety

variable (s : State)

/-! ### The weir (R222, R224) -/

/-- The dredge floor alone is set, and not above the bus that is left. -/
theorem State.setDredgeFloor_flash : ∃ d, d ≤ s.flash.bw ∧ s.setDredgeFloor.flash = { s.flash with dredgeFloor := d } := ⟨_, min_le_left _ _, rfl⟩

theorem frame_setDredgeFloor : Frame [.flash] [] s s.setDredgeFloor := frame_onFlash s _

theorem State.weirNext_falls {phi : Nat} (h : s.flash.weir ≤ s.weirOf phi) : s.weirNext phi = s.weirOf phi := if_pos h

/-- The weir rises to a level only from the hysteresis above its bound. -/
theorem State.weirNext_rises {phi : Nat} (h : s.weirNext phi < s.flash.weir) : s.param (2 + s.weirNext phi) + s.param 6 ≤ phi := by
  by_cases fall : s.flash.weir ≤ s.weirOf phi
  · rw [s.weirNext_falls fall] at h
    omega
  · have rise : s.weirNext phi = ((List.range s.flash.weir).find? fun k => decide (s.param (2 + k) + s.param 6 ≤ phi)).getD s.flash.weir :=
      if_neg fall
    cases found : (List.range s.flash.weir).find? fun k => decide (s.param (2 + k) + s.param 6 ≤ phi) with
    | none => exact absurd h (by rw [rise, found]; exact Nat.lt_irrefl _)
    | some k =>
      rw [rise, found]
      exact of_decide_eq_true (List.find?_some found :)

theorem exec_weirEvaluation_sealed (h : s.fld Reg.SLU_STATUS_SEALED = 1) : exec .weirEvaluation s = .next s :=
  congrArg Host.Outcome.next (if_pos (beq_iff_eq.2 h))

theorem weirEvaluation_sets (h : s.fld Reg.SLU_STATUS_SEALED = 0) :
    Does .weirEvaluation s [.flash, .edgeRegs] [(Reg.SLU_WEIR_RATE, s.weirRate (s.weirNext s.phi))] fun t =>
      t.flash.weir = s.weirNext s.phi ∧ t.flash = { s.flash with weir := t.flash.weir, dredgeFloor := t.flash.dredgeFloor } ∧
        t.flash.dredgeFloor ≤ s.flash.bw := by
  have unsealed : ¬s.flag Reg.SLU_STATUS_SEALED = true := fun sealed => absurd (h.symm.trans (beq_iff_eq.1 sealed)) (by decide)
  let levelled := (s.onFlash fun x => { x with weir := s.weirNext s.phi }).holdWord Reg.SLU_WEIR
  have flash : (levelled.setFld Reg.SLU_WEIR_RATE (s.weirRate (s.weirNext s.phi))).flash = { s.flash with weir := s.weirNext s.phi } := by
    rw [State.setFld_flash, State.holdWord_flash]
    rfl
  obtain ⟨d, low, floor⟩ := State.setDredgeFloor_flash (levelled.setFld Reg.SLU_WEIR_RATE (s.weirRate (s.weirNext s.phi)))
  rw [flash] at low floor
  refine does_of (congrArg Host.Outcome.next (if_neg unsealed)) ((((frame_onFlash s _).trans (frame_holdWord _ _)).trans
    (frame_setFld _ _ _)).trans (frame_setDredgeFloor _) |>.mono (by decide)) ?_
  rw [floor]
  exact ⟨rfl, rfl, low⟩

/-! ### The sustainable rate (R223, R224) -/

theorem sustainableRateCompute_restarts : Does .sustainableRateCompute s [.flash] [] fun t => t.flash.readBus = 0 ∧ t.flash.hostUnits = 0 ∧
    t.flash.vfrac = s.headFrac ∧ t.flash.hsus ≤ s.programSum * 14 / 16 * (1 - s.headFrac) ∧ t.flash.weir = s.flash.weir ∧
      t.flash.dredgeFloor ≤ t.flash.bw := by
  refine ⟨s.computeRate, rfl, ?_, rfl, rfl, rfl, min_le_right _ _, rfl, min_le_left _ _⟩
  exact ((frame_onFlash s _).trans (frame_setDredgeFloor _)).mono (by decide)

/-! ### The allotment (R120, R234) -/

theorem allotmentTopup_bursts (h : s.nv.wear.burst = true) : Does .allotmentTopup s [.sluice] [] fun t =>
    t.sluice = { s.sluice with allotAdd := s.sluice.allotAdd + (s.topupTarget - s.fld Reg.SLU_ALLOT_BAL_BALANCE) } :=
  does_of (congrArg Host.Outcome.next (if_pos h)) (frame_onSluice s _) rfl

theorem exec_allotmentTopup_credit (h : s.nv.wear.burst = false) : exec .allotmentTopup s = .next s :=
  congrArg Host.Outcome.next (if_neg (by simp [h]))

theorem allotAddWrite_adds {client : Nat} {v : Word} (h : reaches s client Reg.SLU_ALLOT_ADD) : Does (.allotAddWrite client v) s [.idle, .sluice] []
    fun t => t.sluice = { s.sluice with allotAdd := s.sluice.allotAdd + v.toNat % 2 ^ Reg.SLU_ALLOT_ADD_ADD.width } := by
  refine does_of (congrArg Host.Outcome.next (State.setupWrite_reaches s _ _ _ _ _ h)) ((frame_restartIdle s _).trans (frame_onSluice _ _)) ?_
  have value : bitsOf v 0 Reg.SLU_ALLOT_ADD_ADD.width = v.toNat % 2 ^ Reg.SLU_ALLOT_ADD_ADD.width := by rw [bitsOf, pow_zero, Nat.div_one]
  rw [State.onSluice_sluice, value]
  rfl

/-! ### The early warnings (R239) -/

section
variable {w : Warning}

theorem frame_raiseBoth (s : State) (type info lid : Nat) : Frame [.host, .mgmt] [] s (s.raiseBoth type info lid) := by
  have raised : ∀ (s : State) (c : Fin 2), Frame [.host, .mgmt] [] s (s.raise c type info lid) := fun s c => by
    obtain ⟨l, m, e, answers⟩ := s.raise_answers c type info lid
    exact ((frame_onCtl s c _).trans answers.frame).mono (by decide)
  exact ((raised s 0).trans (raised _ 1)).mono (by decide)

/-- A warning that is raised: its report on both controllers, and its entry in the log. -/
def State.warned (s : State) (w : Warning) : State :=
  ((s.onNv fun n => { n with raised := kput w.key none n.raised
                             warning := match w.bit with | some b => setBitNat n.warning b | none => n.warning }).raiseBoth
    w.type w.info w.lid).log 0x0601 0 0x3FF w.key

theorem frame_warned (s : State) (w : Warning) : Frame [.nv, .host, .mgmt, .log] [] s (s.warned w) :=
  ((frame_onNv s _).trans (frame_raiseBoth _ _ _ _)).trans (frame_log _ _ _ _ _)

theorem State.warned_raised (s : State) (w : Warning) : (s.warned w).nv.raised = kput w.key none s.nv.raised := by
  have told := frame_raiseBoth (s.onNv fun n => { n with raised := kput w.key none n.raised
                                                         warning := match w.bit with | some b => setBitNat n.warning b | none => n.warning })
    w.type w.info w.lid
  exact congrArg NonVol.raised (told.1 .nv (by decide))

/-- What a warning can do: nothing where it does not hold and is not raised, and else its own entry is put, or taken away where it does
not hold. -/
theorem State.warn_cases (s : State) (w : Warning) : Frame [.nv, .host, .mgmt, .log] [] s (s.warn w) ∧
    (w.now = false ∧ klook w.key s.nv.raised = none ∧ s.warn w = s ∨ (w.now = true ∧ (s.warn w).nv.raised = kput w.key none s.nv.raised) ∨
      w.now = false ∧ ((s.warn w).nv.raised = s.nv.raised ∨ (∃ r, (s.warn w).nv.raised = kput w.key r s.nv.raised) ∨
        (s.warn w).nv.raised = kdel w.key s.nv.raised)) := by
  have same : Frame [.nv, .host, .mgmt, .log] [] s s := (Frame.refl s).mono (List.nil_subset _)
  have put : ∀ f, Frame [.nv, .host, .mgmt, .log] [] s (s.onNv f) := fun f => (frame_onNv s f).mono (by decide)
  unfold State.warn
  split
  · next unraised =>
    cases now : w.now
    · exact ⟨same, .inl ⟨rfl, unraised, rfl⟩⟩
    · exact ⟨frame_warned s w, .inr (.inl ⟨rfl, s.warned_raised w⟩)⟩
  · next since raised =>
    cases now : w.now
    · rw [if_neg Bool.false_ne_true]
      split_ifs
      · exact ⟨same, .inr (.inr ⟨rfl, .inl rfl⟩)⟩
      · split
        · exact ⟨put _, .inr (.inr ⟨rfl, .inr (.inl ⟨_, rfl⟩)⟩)⟩
        · split_ifs
          · exact ⟨put _, .inr (.inr ⟨rfl, .inr (.inr rfl)⟩)⟩
          · exact ⟨same, .inr (.inr ⟨rfl, .inl rfl⟩)⟩
    · exact ⟨put _, .inr (.inl ⟨rfl, rfl⟩)⟩

theorem State.warn_raises (s : State) (h : w.now = true) : klook w.key (s.warn w).nv.raised = some none := by
  rcases (s.warn_cases w).2 with ⟨off, -⟩ | ⟨-, raised⟩ | ⟨off, -⟩
  · exact absurd (h.symm.trans off) (by decide)
  · rw [raised, klook_kput_self]
  · exact absurd (h.symm.trans off) (by decide)

theorem State.klook_warn_ne (s : State) {k : Nat} (h : k ≠ w.key) : klook k (s.warn w).nv.raised = klook k s.nv.raised := by
  rcases (s.warn_cases w).2 with ⟨-, -, same⟩ | ⟨-, raised⟩ | ⟨-, same | ⟨r, put⟩ | del⟩
  · rw [same]
  · rw [raised, klook_kput_ne _ _ h]
  · rw [same]
  · rw [put, klook_kput_ne _ _ h]
  · rw [del, klook_kdel_ne _ h]

/-- Of warnings under one key that all hold, none clears what another has raised. -/
theorem klook_foldl_warn {l : List Warning} {k : Nat} (h : ∀ w ∈ l, w.key = k → w.now = true) (s : State)
    (hk : klook k s.nv.raised = some none ∨ ∃ w ∈ l, w.key = k) : klook k (l.foldl State.warn s).nv.raised = some none := by
  induction l generalizing s with
  | nil =>
    rcases hk with hk | ⟨w, hw, -⟩
    · exact hk
    · cases hw
  | cons w l ih =>
    obtain ⟨first, rest⟩ := List.forall_mem_cons.1 h
    refine ih rest (s.warn w) ?_
    by_cases hw : w.key = k
    · exact .inl (hw ▸ s.warn_raises (first hw))
    · rw [s.klook_warn_ne (Ne.symm hw)]
      exact hk.imp_right fun ⟨v, hv, e⟩ => ⟨v, (List.mem_cons.1 hv).resolve_left fun same => hw (same ▸ e), e⟩

/-- The warnings of Table 06.5 that name no retired unit. -/
def State.fixedWarnings (s : State) : List Warning := s.warnings.take 10

theorem State.fixedWarnings_keys (s : State) :
    s.fixedWarnings.map (·.key) = [0xD0, 0xD1, 0xD2, 0xD3, 0xD4, 0xD5, 0xD6, 0x100, 0x102, 0x103] := (rfl)

/-- The warning of a retired die or channel always holds; the other warnings have keys below theirs. -/
theorem State.mem_warnings {s : State} (h : w ∈ s.warnings) : w ∈ s.fixedWarnings ∧ w.key < 0x10000 ∨ w.now = true ∧ 0x10000 ≤ w.key := by
  have split : s.warnings = s.fixedWarnings ++ s.warnings.drop 10 := (List.take_append_drop 10 _).symm
  rw [split] at h
  rcases List.mem_append.1 h with h | h
  · have low : ∀ k ∈ s.fixedWarnings.map (·.key), k < 0x10000 := by
      rw [s.fixedWarnings_keys]
      decide
    exact .inl ⟨h, low _ (List.mem_map_of_mem h)⟩
  · have units : s.warnings.drop 10 = (s.nv.retiredDies.map fun d =>
        ({ key := 0x10000 + d, now := true, clears := false, type := 7, info := 0xD7, lid := 0xC3 } : Warning)) ++
        ((List.range 64).filter s.chanRetired).map fun c =>
          { key := 0x20000 + c, now := true, clears := false, type := 7, info := 0xD7, lid := 0xC3 } := (rfl)
    rw [units] at h
    rcases List.mem_append.1 h with h | h <;> obtain ⟨n, -, rfl⟩ := List.mem_map.1 h
    · exact .inr ⟨rfl, Nat.le_add_right _ _⟩
    · exact .inr ⟨rfl, Nat.le_trans (by decide) (Nat.le_add_right 0x20000 n)⟩

/-- Warnings of one key hold together: the fixed ones have keys of their own, and those of retired units always hold. -/
theorem State.warnings_together {s : State} {v : Warning} (hv : v ∈ s.warnings) (hw : w ∈ s.warnings) (hk : w.key = v.key) (h : v.now = true) :
    w.now = true := by
  rcases State.mem_warnings hw with ⟨fixed, low⟩ | ⟨now, -⟩
  · rcases State.mem_warnings hv with ⟨fixed', -⟩ | ⟨-, high⟩
    · have keys : (s.fixedWarnings.map (·.key)).Nodup := by
        rw [s.fixedWarnings_keys]
        decide
      rwa [List.inj_on_of_nodup_map keys fixed fixed' hk]
    · omega
  · exact now

theorem earlyWarningEvent_raises (s : State) : Changes .earlyWarningEvent s [.nv, .host, .mgmt, .log] [] fun t =>
    ∀ w ∈ s.warnings, w.now = true → klook w.key t.nv.raised = some none :=
  changes_of rfl (within_foldl _ (fun s w _ => within_of_frame (s.warn_cases w).1 (List.Subset.refl _) nofun) s) fun w hw now =>
    klook_foldl_warn (fun _ hv hk => State.warnings_together hw hv hk now) s (.inr ⟨w, hw, rfl⟩)

theorem exec_earlyWarningEvent_clear (s : State) (h : ∀ w ∈ s.warnings, w.now = false) (hr : s.nv.raised = []) :
    exec .earlyWarningEvent s = .next s := by
  refine congrArg Host.Outcome.next (foldl_same fun w hw => ?_)
  rw [State.warn, hr]
  exact if_neg (by simp [h w hw])

end

/-- Settles O41: the weir, the rate, the allotment, the spare and the warnings, each by a lemma above. -/
theorem weirAllotmentAndWarnings : Obligations.WeirAllotmentAndWarnings := by
  unfold Obligations.WeirAllotmentAndWarnings
  intro s client v
  refine ⟨exec_weirEvaluation_sealed s, fun h => ?_, sustainableRateCompute_restarts s, allotmentTopup_bursts s, exec_allotmentTopup_credit s,
    allotAddWrite_adds s, ⟨_, rfl, frame_onFlash s _, rfl, rfl⟩, earlyWarningEvent_raises s, exec_earlyWarningEvent_clear s⟩
  obtain ⟨t, run, frame, weir, rest, floor⟩ := weirEvaluation_sets s h
  exact ⟨t, run, frame, fun falls => weir.trans (s.weirNext_falls falls), fun rises => weir ▸ s.weirNext_rises (weir ▸ rises), rest, floor⟩

end Sys2Proof.Machine
end

section
/-! Channels and dies that retire, and the rebuild of what they held (R132, R133, R237, R271–R273), and O42. -/

namespace Sys2Proof.Machine

open Sys2Proof.Safety

variable (s : State)

/-! ### Bits of a mask -/

theorem setBitNat_eq_or (x n : Nat) : setBitNat x n = x ||| 2 ^ n := by
  have cut := Nat.div_add_mod x (2 ^ n)
  unfold setBitNat
  split_ifs with set
  · refine Nat.eq_of_testBit_eq fun i => ?_
    rw [Nat.testBit_or, Nat.testBit_two_pow]
    by_cases hi : n = i
    · subst hi
      simp [Nat.testBit_eq_decide_div_mod_eq, set]
    · simp [hi]
  · have even : x / 2 ^ n = 2 * (x / 2 ^ n / 2) := by omega
    have low := Nat.mod_lt x (Nat.two_pow_pos n)
    have high : x = 2 ^ (n + 1) * (x / 2 ^ n / 2) + x % 2 ^ n := by
      rw [pow_succ, Nat.mul_assoc, ← even, cut]
    generalize x / 2 ^ n / 2 = h at high
    generalize x % 2 ^ n = l at high low
    subst high
    have wide : 2 ^ n + l < 2 ^ (n + 1) := by rw [pow_succ]; omega
    calc 2 ^ (n + 1) * h + l + 2 ^ n = 2 ^ (n + 1) * h + (2 ^ n + l) := by omega
      _ = 2 ^ (n + 1) * h ||| (2 ^ n ||| l) := by
        rw [Nat.two_pow_add_eq_or_of_lt wide, show 2 ^ n + l = 2 ^ n * 1 + l by omega, Nat.two_pow_add_eq_or_of_lt low, Nat.mul_one]
      _ = (2 ^ (n + 1) * h + l) ||| 2 ^ n := by
        rw [Nat.two_pow_add_eq_or_of_lt (Nat.lt_of_le_of_lt (Nat.le_add_left _ _) wide), Nat.or_assoc, Nat.or_comm l]

/-- The lowest bits of a mask, one more. -/
theorem mod_two_pow_succ_eq_or (v k : Nat) : v % 2 ^ (k + 1) = if v / 2 ^ k % 2 = 1 then v % 2 ^ k ||| 2 ^ k else v % 2 ^ k := by
  have low := Nat.mod_lt v (Nat.two_pow_pos k)
  rw [Nat.mod_pow_succ, Nat.add_comm]
  split_ifs with set
  · rw [set, Nat.two_pow_add_eq_or_of_lt low, Nat.mul_one, Nat.or_comm]
  · rw [Nat.mod_two_ne_one.1 set, Nat.mul_zero, Nat.zero_add]

/-! ### What the records of a retirement leave alone -/

/-- An event of FDP is all that its report can change. -/
theorem State.fdpEvent_nv (type handle : Nat) : ∃ l, s.fdpEvent type handle = { s with nv := { s.nv with fdpEvents := l } } ∧
    (s.nv.fdp = false → l = s.nv.fdpEvents) := by
  unfold State.fdpEvent
  split_ifs with fdp
  · exact ⟨_, rfl, fun off => absurd (fdp.symm.trans off) (by decide)⟩
  · exact ⟨s.nv.fdpEvents, rfl, fun _ => rfl⟩

theorem foldl_fdpEvent_nv (l : List FormeBlock) (s : State) : ∃ e, l.foldl (fun s f => s.fdpEvent 0 f.handle) s =
    { s with nv := { s.nv with fdpEvents := e } } ∧ (s.nv.fdp = false → e = s.nv.fdpEvents) := by
  induction l generalizing s with
  | nil => exact ⟨s.nv.fdpEvents, rfl, fun _ => rfl⟩
  | cons f l ih =>
    obtain ⟨e, step, same⟩ := s.fdpEvent_nv 0 f.handle
    obtain ⟨e', rest, same'⟩ := ih (s.fdpEvent 0 f.handle)
    rw [step] at same'
    exact ⟨e', by rw [List.foldl_cons, rest, step], fun off => (same' off).trans (same off)⟩

theorem State.dropPlans_nv (p : FormePlan → Bool) : (s.dropPlans p).nv = s.nv := (rfl)

/-- The close of forme-blocks keeps what the part holds without power, FDP events aside. -/
theorem State.closeFormeBlocks_nv (p : FormeBlock → Bool) (v : Nat) : ∃ e, (s.closeFormeBlocks p v).nv = { s.nv with fdpEvents := e } ∧
    (s.nv.fdp = false → e = s.nv.fdpEvents) := by
  unfold State.closeFormeBlocks
  extract_lets hit close short told
  obtain ⟨e, he, same⟩ := foldl_fdpEvent_nv short s
  rw [State.dropPlans_nv]
  exact ⟨e, (congrArg State.nv he :), same⟩

theorem State.closeFormeBlocks_word (p : FormeBlock → Bool) (v a : Nat) : (s.closeFormeBlocks p v).word a = s.word a := by
  rw [State.word, (s.closeFormeBlocks_keeps p v).1, State.word]

theorem State.retireRecord_word (kind trigger id aux a : Nat) : (s.retireRecord kind trigger id aux).word a = s.word a := (rfl)

theorem State.writeSpillRate_word {a : Nat} (h : 0x40000 ≤ a) : s.writeSpillRate.word a = s.word a := by
  have spill : Within [] [Reg.PMC_CIS_BOARD] s s.writeSpillRate := within_writeSpillRate s (List.mem_singleton_self _)
  exact spill.2 a (by simp only [List.mem_singleton, Reg.PMC_CIS_BOARD]; omega)

theorem State.writeSpillRate_nv : s.writeSpillRate.nv = s.nv := State.setFld_nv _ _ _

theorem State.retireDomain_word (n : Fin 24) {a : Nat} (h : 0x40000 ≤ a) : (s.retireDomain n).word a = s.word a := by
  unfold State.retireDomain
  rw [State.onNv_word, State.word_setFld, State.onDom_word, wordAfter_of_addr_ne]
  simp only [List.mem_singleton, forall_eq, Reg.PMC_DOM_RETIRE, Reg.PMC_DOM]
  omega

/-! ### A channel retires (R132, R237) -/

/-- The registers of a channel that retires: its bit in CHAN_OUT, its engine, and the channels in plan. -/
def State.chanMarked (ch : Nat) : State :=
  ((((s.holdWord (Reg.SLU_CHAN_OUT (ch / 32))).setFld (Reg.SLU_CHAN_OUT_OUT (ch / 32)) (setBitNat (s.fld (Reg.SLU_CHAN_OUT_OUT (ch / 32)))
    (ch % 32))).holdWord (Reg.FCE_STATUS ch)).setFld (Reg.FCE_STATUS_STATE ch) 5).subFld Reg.SLU_STATUS_CHANNELS 1

theorem State.retireChannel_word {ch trigger a : Nat} (h : s.chanRetired ch = false) (ha : 0x40000 ≤ a) :
    (s.retireChannel ch trigger).word a = (s.chanMarked ch).word a := by
  unfold State.retireChannel
  rw [if_neg (by simp [h])]
  extract_lets f bit kept closed out
  have spilled : out.word a = (s.chanMarked ch).word a := by
    unfold out closed kept State.keepOut
    rw [State.writeSpillRate_word _ ha, State.onSluice_word, State.closeFormeBlocks_word, State.retireRecord_word, State.onNv_word]
    rfl
  split_ifs
  · rw [State.retireDomain_word _ _ ha, spilled]
  · exact spilled

theorem State.retireChannel_retired {ch trigger : Nat} (h : s.chanRetired ch = true) : s.retireChannel ch trigger = s := if_pos h

/-- The bit of channel `32 m + i` in a word of CHAN_OUT. -/
theorem State.chanRetired_eq (m : Fin 2) {i : Nat} (hi : i < 32) :
    s.chanRetired (32 * m.val + i) = (s.fld (Reg.SLU_CHAN_OUT_OUT m)).testBit i := by
  have word : (32 * m.val + i) / 32 = m ∧ (32 * m.val + i) % 32 = i := by omega
  rw [State.chanRetired, word.1, word.2, Nat.testBit_eq_decide_div_mod_eq]
  rfl

section
variable {m : Fin 2} {i trigger : Nat} (hi : i < 32)
include hi

theorem State.chanMarked_out :
    (s.chanMarked (32 * m.val + i)).fld (Reg.SLU_CHAN_OUT_OUT m) = s.fld (Reg.SLU_CHAN_OUT_OUT m) ||| 2 ^ i := by
  have word : (32 * m.val + i) / 32 = m ∧ (32 * m.val + i) % 32 = i := by omega
  have apart : Reg.SLU_STATUS_CHANNELS.apart (Reg.SLU_CHAN_OUT_OUT m) = true ∧
      (Reg.FCE_STATUS_STATE (32 * m.val + i)).apart (Reg.SLU_CHAN_OUT_OUT m) = true := by
    simp only [Fld.apart, Reg.SLU_STATUS_CHANNELS, Reg.SLU_CHAN_OUT_OUT, Reg.FCE_STATUS_STATE, Reg.SLU_STATUS, Reg.SLU_CHAN_OUT, Reg.FCE_STATUS,
      Bool.or_eq_true, bne_iff_ne]
    omega
  have low : s.fld (Reg.SLU_CHAN_OUT_OUT m) ||| 2 ^ i < 2 ^ 32 :=
    Nat.or_lt_two_pow (s.fld_lt (Reg.SLU_CHAN_OUT_OUT m)) (Nat.pow_lt_pow_right (by decide) hi)
  rw [State.chanMarked, State.subFld, State.fld_setFld_apart _ _ _ _ apart.1, State.fld_setFld_apart _ _ _ _ apart.2, State.holdWord_fld, word.1,
    word.2, State.fld_setFld_same _ _ _ (show 0 + 32 ≤ 32 by decide), setBitNat_eq_or]
  exact Nat.mod_eq_of_lt low

omit hi in
theorem State.chanMarked_state (ch : Nat) : (s.chanMarked ch).fld (Reg.FCE_STATUS_STATE ch) = 5 := by
  have apart : Reg.SLU_STATUS_CHANNELS.apart (Reg.FCE_STATUS_STATE ch) = true := by
    simp only [Fld.apart, Reg.SLU_STATUS_CHANNELS, Reg.FCE_STATUS_STATE, Reg.SLU_STATUS, Reg.FCE_STATUS, Bool.or_eq_true, bne_iff_ne]
    omega
  rw [State.chanMarked, State.subFld, State.fld_setFld_apart _ _ _ _ apart]
  exact State.fld_setFld_same _ _ _ (show 0 + 3 ≤ 32 by decide)

omit hi in
theorem within_chanMarked (ch : Nat) : Within [.edgeRegs] [Reg.SLU_CHAN_OUT (ch / 32), Reg.FCE_STATUS ch, Reg.SLU_STATUS] s (s.chanMarked ch) :=
  within_trans (within_trans (within_trans (within_trans (within_holdWord s _ (by simp)) (within_setFld _ _ (by simp [Reg.SLU_CHAN_OUT_OUT])))
    (within_holdWord _ _ (by simp))) (within_setFld _ _ (by simp [Reg.FCE_STATUS_STATE]))) (within_setFld _ _ (by simp [Reg.SLU_STATUS_CHANNELS]))

/-- The retirement sets the channel's bit, whether it was set or not. -/
theorem State.retireChannel_out :
    (s.retireChannel (32 * m.val + i) trigger).fld (Reg.SLU_CHAN_OUT_OUT m) = s.fld (Reg.SLU_CHAN_OUT_OUT m) ||| 2 ^ i := by
  cases retired : s.chanRetired (32 * m.val + i)
  · rw [State.fld, s.retireChannel_word retired (by simp only [Reg.SLU_CHAN_OUT_OUT, Reg.SLU_CHAN_OUT]; omega)]
    exact s.chanMarked_out hi
  · have set : s.fld (Reg.SLU_CHAN_OUT_OUT m) / 2 ^ i % 2 = 1 := by
      rw [s.chanRetired_eq m hi, Nat.testBit_eq_decide_div_mod_eq] at retired
      exact of_decide_eq_true retired
    rw [s.retireChannel_retired retired, ← setBitNat_eq_or, setBitNat, if_pos set]

omit hi in
theorem State.retireChannel_state {ch : Nat} (h : s.chanRetired ch = false) : (s.retireChannel ch trigger).fld (Reg.FCE_STATUS_STATE ch) = 5 := by
  rw [State.fld, s.retireChannel_word h (by simp only [Reg.FCE_STATUS_STATE, Reg.FCE_STATUS]; omega)]
  exact s.chanMarked_state ch

omit hi in
theorem State.retireChannel_other {ch c : Nat} (hc : c ≠ ch) (hch : ch < 64) :
    (s.retireChannel ch trigger).fld (Reg.FCE_STATUS_STATE c) = s.fld (Reg.FCE_STATUS_STATE c) := by
  cases retired : s.chanRetired ch
  · rw [State.fld, s.retireChannel_word retired (by simp only [Reg.FCE_STATUS_STATE, Reg.FCE_STATUS]; omega)]
    refine within_fld (within_chanMarked s ch) ?_
    simp only [Reg.FCE_STATUS_STATE, Reg.FCE_STATUS, Reg.SLU_CHAN_OUT, Reg.SLU_STATUS, List.mem_cons, List.not_mem_nil, or_false, not_or]
    omega
  · rw [s.retireChannel_retired retired]

end

/-- One bit of a write of CHAN_OUT. -/
def State.outBit (m : Fin 2) (v : Word) (s : State) (i : Nat) : State :=
  if bitsOf v i 1 = 1 then s.retireChannel (32 * m.val + i) (if s.flag (Reg.FCE_EVENT_THIRD_FAIL (32 * m.val + i)) then 0x08 else 0x0E) else s

theorem bitsOf_one (v : Word) (i : Nat) : bitsOf v i 1 = v.toNat / 2 ^ i % 2 := by rw [bitsOf, pow_one]

/-- The lowest `k` bits of a write: each that is set stands in CHAN_OUT, and its channel, where it was in service, is retired. -/
theorem foldl_outBit (m : Fin 2) (v : Word) {k : Nat} (hk : k ≤ 32) :
    ((List.range k).foldl (State.outBit m v) s).fld (Reg.SLU_CHAN_OUT_OUT m) = s.fld (Reg.SLU_CHAN_OUT_OUT m) ||| v.toNat % 2 ^ k ∧
      ∀ i, i < k → bitsOf v i 1 = 1 → s.chanRetired (32 * m.val + i) = false →
        ((List.range k).foldl (State.outBit m v) s).fld (Reg.FCE_STATUS_STATE (32 * m.val + i)) = 5 := by
  induction k with
  | zero => exact ⟨by rw [pow_zero, Nat.mod_one, Nat.or_zero]; rfl, fun i hi => absurd hi (Nat.not_lt_zero i)⟩
  | succ k ih =>
    obtain ⟨out, down⟩ := ih (Nat.le_of_succ_le hk)
    rw [List.range_succ, List.foldl_append]
    generalize (List.range k).foldl (State.outBit m v) s = t at out down
    show (State.outBit m v t k).fld _ = _ ∧ ∀ i, i < k + 1 → _ → _ → (State.outBit m v t k).fld _ = 5
    rw [mod_two_pow_succ_eq_or, ← bitsOf_one]
    by_cases set : bitsOf v k 1 = 1
    · rw [State.outBit, if_pos set, if_pos set]
      refine ⟨by rw [t.retireChannel_out hk, out, Nat.or_assoc], fun i hi hset hin => ?_⟩
      rcases Nat.lt_succ_iff_lt_or_eq.1 hi with hi | rfl
      · rw [t.retireChannel_other (by omega) (by omega), down i hi hset hin]
      · refine t.retireChannel_state ?_
        rw [State.chanRetired_eq _ _ hk] at hin ⊢
        rw [out, Nat.testBit_or, hin, Nat.testBit_lt_two_pow (Nat.mod_lt _ (Nat.two_pow_pos i))]
        rfl
    · rw [State.outBit, if_neg set, if_neg set]
      refine ⟨out, fun i hi hset hin => ?_⟩
      rcases Nat.lt_succ_iff_lt_or_eq.1 hi with hi | rfl
      · exact down i hi hset hin
      · exact absurd hset set

theorem chanOutWrite_retires {client : Nat} (m : Fin 2) (v : Word) (h : reaches s client (Reg.SLU_CHAN_OUT m)) :
    Completes (.chanOutWrite client m v) s fun t => t.fld (Reg.SLU_CHAN_OUT_OUT m) = s.fld (Reg.SLU_CHAN_OUT_OUT m) ||| v.toNat ∧
      ∀ i : Fin 32, bitsOf v i 1 = 1 → s.chanRetired (32 * m + i) = false → t.fld (Reg.FCE_STATUS_STATE (32 * m.val + i.val)) = 5 := by
  obtain ⟨out, down⟩ := foldl_outBit (s.restartIdle (blockDomain (Reg.SLU_CHAN_OUT m))) m v (Nat.le_refl 32)
  rw [Nat.mod_eq_of_lt v.isLt] at out
  exact completes_of (congrArg Host.Outcome.next (State.setupWrite_reaches s _ _ _ _ _ h)) ⟨out, fun i => down i i.isLt⟩

/-! ### A die is set in service, failing or retired (R133, R154, R237) -/

section
variable {d : Fin 1024} {client : Nat}

theorem apart_fur_dieState : (Reg.FUR_STATUS_STATE d).apart (Reg.SLU_DIE_STATE_STATE d) = true := by
  simp only [Fld.apart, Reg.FUR_STATUS_STATE, Reg.SLU_DIE_STATE_STATE, Reg.FUR_STATUS, Reg.SLU_DIE_STATE, Bool.or_eq_true, bne_iff_ne]
  omega

theorem State.setDieState_serves (h : s.fld (Reg.SLU_DIE_STATE_STATE d) ≠ 2) :
    Within [.edgeRegs] [Reg.SLU_DIE_STATE d, Reg.FUR_STATUS d] s (s.setDieState d 0) ∧
      (s.setDieState d 0).fld (Reg.SLU_DIE_STATE_STATE d) = 0 := by
  have set : Within [.edgeRegs] [Reg.SLU_DIE_STATE d, Reg.FUR_STATUS d] s
      ((s.holdWord (Reg.SLU_DIE_STATE d)).setFld (Reg.SLU_DIE_STATE_STATE d) 0) :=
    within_trans (within_holdWord s _ (by simp)) (within_setFld _ _ (by simp [Reg.SLU_DIE_STATE_STATE]))
  have state : ((s.holdWord (Reg.SLU_DIE_STATE d)).setFld (Reg.SLU_DIE_STATE_STATE d) 0).fld (Reg.SLU_DIE_STATE_STATE d) = 0 :=
    State.fld_setFld_same _ _ _ (show 0 + 2 ≤ 32 by decide)
  rw [State.setDieState, if_neg h]
  dsimp only
  rw [if_neg (by decide), if_neg (by decide)]
  split_ifs
  · exact ⟨within_trans set (within_setFld _ _ (by simp [Reg.FUR_STATUS_STATE])), (State.fld_setFld_apart _ _ _ _ apart_fur_dieState).trans state⟩
  · exact ⟨set, state⟩

/-- The register writes of a die that fails or retires. -/
def State.dieMarked (n v fur : Nat) : State :=
  ((s.holdWord (Reg.SLU_DIE_STATE n)).setFld (Reg.SLU_DIE_STATE_STATE n) v).setFld (Reg.FUR_STATUS_STATE n) fur

theorem State.dieMarked_flds {v fur : Nat} (hv : v < 4) (hf : fur < 16) : (s.dieMarked d v fur).fld (Reg.SLU_DIE_STATE_STATE d) = v ∧
    (s.dieMarked d v fur).fld (Reg.FUR_STATUS_STATE d) = fur := by
  constructor
  · rw [State.dieMarked, State.fld_setFld_apart _ _ _ _ apart_fur_dieState, State.fld_setFld_same _ _ _ (show 0 + 2 ≤ 32 by decide)]
    exact Nat.mod_eq_of_lt hv
  · rw [State.dieMarked, State.fld_setFld_same _ _ _ (show 0 + 4 ≤ 32 by decide)]
    exact Nat.mod_eq_of_lt hf

theorem State.dieMarked_nv (n v fur : Nat) : (s.dieMarked n v fur).nv = s.nv := by
  rw [State.dieMarked, State.setFld_nv, State.setFld_nv, State.holdWord_nv]

theorem State.setDieState_fails (h : s.fld (Reg.SLU_DIE_STATE_STATE d) ≠ 2) : s.setDieState d 1 = s.dieMarked d 1 0xA := if_neg h

theorem State.setDieState_retires (h : s.fld (Reg.SLU_DIE_STATE_STATE d) ≠ 2) : s.setDieState d 2 = (s.dieMarked d 2 0xB).onNv fun n =>
    { n with retiredDies := if n.retiredDies.contains d.val then n.retiredDies else d.val :: n.retiredDies } := if_neg h

theorem State.failDie_fails (h : s.fld (Reg.SLU_DIE_STATE_STATE d) = 0 ∨ s.fld (Reg.SLU_DIE_STATE_STATE d) = 3) :
    (s.failDie d).fld (Reg.SLU_DIE_STATE_STATE d) = 1 ∧ (s.failDie d).fld (Reg.FUR_STATUS_STATE d) = 0xA ∧
      (s.nv.fdp = false → (s.failDie d).nv = s.nv) := by
  obtain ⟨state, fur⟩ := s.dieMarked_flds (d := d) (show 1 < 4 by decide) (show 0xA < 16 by decide)
  have serves : ¬(s.fld (Reg.SLU_DIE_STATE_STATE d) = 1 || s.fld (Reg.SLU_DIE_STATE_STATE d) = 2) = true := by
    rcases h with h | h <;> simp [h]
  rw [State.failDie, if_neg serves, s.setDieState_fails (by rcases h with h | h <;> simp [h])]
  obtain ⟨e, nv, same⟩ := (s.dieMarked d 1 0xA).closeFormeBlocks_nv (fun f => f.has fun m => m.die == d.val) 1
  rw [s.dieMarked_nv] at nv same
  refine ⟨?_, ?_, fun off => by rw [nv, same off]⟩ <;> rw [State.fld, State.closeFormeBlocks_word]
  · exact state
  · exact fur

theorem State.retireDie_retires {trigger : Nat} (h : s.fld (Reg.SLU_DIE_STATE_STATE d) ≠ 2) :
    (s.retireDie d trigger).fld (Reg.SLU_DIE_STATE_STATE d) = 2 ∧ (s.retireDie d trigger).fld (Reg.FUR_STATUS_STATE d) = 0xB ∧
      d.val ∈ (s.retireDie d trigger).nv.retiredDies ∧
        ∃ r ∈ (s.retireDie d trigger).nv.ledger, r.kind = 2 ∧ r.id = d.val ∧ r.turn = s.turn := by
  obtain ⟨state, fur⟩ := s.dieMarked_flds (d := d) (show 2 < 4 by decide) (show 0xB < 16 by decide)
  have turn : (s.dieMarked d 2 0xB).turn = s.turn := by
    rw [State.dieMarked, State.setFld_turn, State.setFld_turn, State.holdWord_turn]
  rw [State.retireDie, if_neg h, s.setDieState_retires h, State.writeSpillRate_nv]
  generalize hx : ((s.dieMarked d 2 0xB).onNv fun n =>
    { n with retiredDies := if n.retiredDies.contains d.val then n.retiredDies else d.val :: n.retiredDies }) = x
  have words : ∀ a, x.word a = (s.dieMarked d 2 0xB).word a := fun a => hx ▸ rfl
  obtain ⟨e, nv, -⟩ := (x.retireRecord 2 trigger d 0).closeFormeBlocks_nv (fun f => f.has fun m => m.die == d.val) 0
  refine ⟨?_, ?_, ?_, ?_⟩
  · rw [State.fld, State.writeSpillRate_word _ (by simp only [Reg.SLU_DIE_STATE_STATE, Reg.SLU_DIE_STATE]; omega), State.closeFormeBlocks_word,
      State.retireRecord_word, words]
    exact state
  · rw [State.fld, State.writeSpillRate_word _ (by simp only [Reg.FUR_STATUS_STATE, Reg.FUR_STATUS]; omega), State.closeFormeBlocks_word,
      State.retireRecord_word, words]
    exact fur
  · rw [nv]
    show d.val ∈ x.nv.retiredDies
    rw [← hx, State.onNv_nv]
    by_cases listed : d.val ∈ (s.dieMarked d 2 0xB).nv.retiredDies <;> simp [listed]
  · rw [nv]
    exact ⟨_, List.mem_cons_self .., rfl, rfl, hx ▸ turn⟩

variable (h : reaches s client (Reg.SLU_DIE_STATE d))
include h

/-- A write to a die that is retired does nothing. -/
theorem dieStateWrite_retired (v : Nat) (hs : s.fld (Reg.SLU_DIE_STATE_STATE d) = 2) :
    Does (.dieStateWrite client d v) s [.idle] [] fun _ => True :=
  does_of (congrArg Host.Outcome.next ((State.setupWrite_reaches s _ _ _ _ _ h).trans (if_pos hs))) (frame_restartIdle s _) trivial

/-- A die that takes a write, before its state is set: no engine stop stands. -/
def State.dieFreed (d : Fin 1024) : State :=
  (s.restartIdle (blockDomain (Reg.SLU_DIE_STATE d))).onDie d fun x => { x with stopped := false }

omit h in
theorem State.dieFreed_nv : (s.dieFreed d).nv = s.nv := (rfl)

omit h in
theorem State.dieFreed_turn : (s.dieFreed d).turn = s.turn := (rfl)

omit h in
theorem State.dieFreed_fld (g : Fld) : (s.dieFreed d).fld g = s.fld g := (rfl)

theorem exec_dieStateWrite (v : Nat) (hs : s.fld (Reg.SLU_DIE_STATE_STATE d) ≠ 2) : exec (.dieStateWrite client d v) s = .next
    (match v % 4 with
      | 1 => (s.dieFreed d).failDie d
      | 2 => (s.dieFreed d).retireDie d ((s.dieFreed d).dieTrigger d)
      | v => (s.dieFreed d).setDieState d v) :=
  congrArg Host.Outcome.next ((State.setupWrite_reaches s _ _ _ _ _ h).trans (if_neg hs))

theorem dieStateWrite_serves (hs : s.fld (Reg.SLU_DIE_STATE_STATE d) = 1) :
    Changes (.dieStateWrite client d 0) s [.idle, .edgeRegs, .flash] [Reg.SLU_DIE_STATE d, Reg.FUR_STATUS d] fun t =>
      t.fld (Reg.SLU_DIE_STATE_STATE d) = 0 ∧ (t.die d).stopped = false := by
  obtain ⟨set, state⟩ := (s.dieFreed d).setDieState_serves (d := d) (by rw [s.dieFreed_fld, hs]; decide)
  have freed : Within [.idle, .edgeRegs, .flash] [Reg.SLU_DIE_STATE d, Reg.FUR_STATUS d] s (s.dieFreed d) :=
    within_trans (within_of_frame (frame_restartIdle s _) (by simp) nofun) (within_onFlash _ _ (by simp))
  refine changes_of (exec_dieStateWrite s h 0 (by rw [hs]; decide)) (within_trans freed (within_mono set (by simp) (List.Subset.refl _)))
    ⟨state, ?_⟩
  show ((s.dieFreed d).setDieState d 0 |>.die d).stopped = false
  rw [State.die_of_flash _ (set.1 .flash (by decide)), State.dieFreed, State.onDie_die]

theorem dieStateWrite_fails (hs : s.fld (Reg.SLU_DIE_STATE_STATE d) = 0 ∨ s.fld (Reg.SLU_DIE_STATE_STATE d) = 3) :
    Completes (.dieStateWrite client d 1) s fun t =>
      t.fld (Reg.SLU_DIE_STATE_STATE d) = 1 ∧ t.fld (Reg.FUR_STATUS_STATE d) = 0xA ∧ (s.nv.fdp = false → t.nv = s.nv) :=
  completes_of (exec_dieStateWrite s h 1 (by rcases hs with hs | hs <;> simp [hs])) ((s.dieFreed d).failDie_fails hs)

theorem dieStateWrite_retires (hs : s.fld (Reg.SLU_DIE_STATE_STATE d) ≠ 2) : Completes (.dieStateWrite client d 2) s fun t =>
    t.fld (Reg.SLU_DIE_STATE_STATE d) = 2 ∧ t.fld (Reg.FUR_STATUS_STATE d) = 0xB ∧ d.val ∈ t.nv.retiredDies ∧
      ∃ r ∈ t.nv.ledger, r.kind = 2 ∧ r.id = d.val ∧ r.turn = s.turn :=
  completes_of (exec_dieStateWrite s h 2 hs) ((s.dieFreed d).retireDie_retires hs)

end

/-! ### Rebuilds (R271–R273) -/

theorem within_rebuildFlag {P : List Part} : Within P [Reg.SLU_STATUS] s s.rebuildFlag := within_setFld s _ (List.mem_singleton_self _)

theorem State.rebuildFlag_flash : s.rebuildFlag.flash = s.flash := State.setFld_flash _ _ _

theorem State.rebuildFlag_fld : s.rebuildFlag.fld Reg.SLU_STATUS_REBUILD = if s.flash.rebuilds.any (fun r => decide (r.state ≤ 1)) then 1 else 0 := by
  rw [State.rebuildFlag, State.fld_setFld_same _ _ _ (by decide)]
  split_ifs <;> rfl

/-- The member blocks that a retired unit held, of forme-blocks with valid data. -/
def State.hitBy (s : State) (u : Bool × Nat) : List (Nat × Nat × Nat) := s.hitBlocks fun d => if u.1 then d / 16 == u.2 else d == u.2

/-- The record of a rebuild that waits. -/
def State.queuedRebuild (s : State) (u : Bool × Nat) : Rebuild :=
  { chan := u.1, unit := u.2, state := 0, total := (s.hitBy u).length, done := 0, start := 0, left := s.hitBy u }

/-- A newly retired unit is recorded, where it held anything. -/
def State.addRebuild (s : State) (u : Bool × Nat) : State :=
  if (s.hitBy u).isEmpty then s
  else
    s.onFlash fun x =>
      let old := if x.rebuilds.length < 31 then x.rebuilds
        else match x.rebuilds.find? fun y => decide (2 ≤ y.state) with | some y => x.rebuilds.erase y | none => x.rebuilds
      { x with rebuilds := old ++ [s.queuedRebuild u], rebuildGen := x.rebuildGen + 1 }

/-- The first rebuild that waits runs, where none does. -/
def State.runFirst (s : State) : State :=
  s.onFlash fun x => { x with rebuilds := if x.rebuilds.any (fun r => r.state == 1) then x.rebuilds else startQueued s.turn x.rebuilds }

theorem State.startRebuilds_eq : s.startRebuilds = (s.unrecorded.foldl State.addRebuild s).runFirst.rebuildFlag := (rfl)

theorem within_startRebuilds : Within [.flash] [Reg.SLU_STATUS] s s.startRebuilds :=
  within_trans (within_trans (within_foldl _ (fun s _ _ => within_ite (fun _ => within_refl _ _ s) fun _ => within_onFlash s _ (by simp)) s)
    (within_onFlash _ _ (by simp))) (within_rebuildFlag _)

/-- A first rebuild starts at once. -/
theorem State.startRebuilds_first {u : Bool × Nat} (hr : s.flash.rebuilds = []) (hu : s.unrecorded = [u]) (hb : s.hitBy u ≠ []) :
    s.startRebuilds.flash.rebuilds = [{ s.queuedRebuild u with state := 1, start := s.turn }] := by
  have added : s.addRebuild u = s.onFlash fun x =>
      { x with rebuilds := [s.queuedRebuild u], rebuildGen := x.rebuildGen + 1 } := by
    rw [State.addRebuild, if_neg (by simpa using hb)]
    unfold State.onFlash
    simp [hr]
  rw [s.startRebuilds_eq, hu, State.rebuildFlag_flash, List.foldl_cons, List.foldl_nil, added]
  rfl

theorem rebuildStart_starts : Changes .rebuildStart s [.flash] [Reg.SLU_STATUS] fun t =>
    (t.fld Reg.SLU_STATUS_REBUILD = if t.flash.rebuilds.any (fun r => decide (r.state ≤ 1)) then 1 else 0) ∧
      ∀ u, s.flash.rebuilds = [] → s.unrecorded = [u] → s.hitBy u ≠ [] →
        ∃ r, t.flash.rebuilds = [r] ∧ r.chan = u.1 ∧ r.unit = u.2 ∧ r.state = 1 ∧ r.start = s.turn ∧ r.total = (s.hitBy u).length :=
  changes_of rfl (within_startRebuilds s) ⟨by rw [s.startRebuilds_eq, State.rebuildFlag_fld, State.rebuildFlag_flash],
    fun u hr hu hb => ⟨_, s.startRebuilds_first hr hu hb, rfl, rfl, rfl, rfl, rfl⟩⟩

section
variable {f : FormeBlock} {i : Nat} {m : MBlock}

theorem State.onBlock_blockInfo (die block : Nat) (g : BlockInfo → BlockInfo) :
    (s.onBlock die block g).blockInfo die block = g (s.blockInfo die block) := by
  rw [State.blockInfo, show klook (blockKey die block) (s.onBlock die block g).flash.blocks = _ from klook_kput_self _ _ _, Option.getD_some]

/-- What a member's move to a new block leaves of the flash. -/
theorem State.moveMember_flash : (s.moveMember f i m).flash.formeBlocks = updIf (fun g => g.lane == f.lane && g.b == f.b)
      (fun y => { y with members := updAt (fun _ => m) i y.members }) s.flash.formeBlocks ∧
    (s.moveMember f i m).flash.rebuilds = s.flash.rebuilds ∧ ((s.moveMember f i m).blockInfo m.die m.block).free = false ∧
      (s.moveMember f i m).turn = s.turn := by
  unfold State.moveMember
  extract_lets old lo dst moved booked listed
  obtain ⟨e, told, -⟩ := (listed.addFld Reg.FRM_REBUILT_COUNT (4 * f.next)).fdpEvent_nv 0x80 f.handle
  have flash : ((listed.addFld Reg.FRM_REBUILT_COUNT (4 * f.next)).fdpMoved f.handle).flash = listed.flash := by
    rw [State.fdpMoved, told, State.addFld_flash]
  have turn : ((listed.addFld Reg.FRM_REBUILT_COUNT (4 * f.next)).fdpMoved f.handle).turn = listed.turn := by
    rw [State.fdpMoved, told, State.addFld_turn]
  have freed : (listed.blockInfo m.die m.block).free = false := congrArg BlockInfo.free (State.onBlock_blockInfo _ m.die m.block _)
  have info : ((listed.addFld Reg.FRM_REBUILT_COUNT (4 * f.next)).fdpMoved f.handle).blockInfo m.die m.block = listed.blockInfo m.die m.block := by
    rw [State.blockInfo, flash, State.blockInfo]
  have turned : listed.turn = s.turn := by
    unfold listed State.onBlock State.onForme booked State.bookOp moved
    rw [State.onFlash_turn, State.onFlash_turn, State.onGalley_turn, State.onFlash_turn]
  have kept : listed.flash.rebuilds = s.flash.rebuilds ∧ listed.flash.formeBlocks = updIf (fun g => g.lane == f.lane && g.b == f.b)
      (fun y => { y with members := updAt (fun _ => m) i y.members }) s.flash.formeBlocks := by
    unfold listed State.onBlock
    rw [State.onFlash_flash]
    exact ⟨rfl, rfl⟩
  rw [info, flash, turn]
  exact ⟨kept.2, kept.1, freed, turned⟩

theorem updAt_getElem? {α : Type} (g : α → α) {i : Nat} {l : List α} (h : i < l.length) : (updAt g i l)[i]? = some (g l[i]) := by
  induction l generalizing i with
  | nil => exact absurd h (Nat.not_lt_zero i)
  | cons a l ih =>
    cases i with
    | zero => rfl
    | succ i => exact ih (Nat.lt_of_succ_lt_succ h)

/-- The record of a running rebuild after its last member. -/
def Rebuild.finished (r : Rebuild) (turn : Nat) : Rebuild := { r with left := [], done := r.done + 1, state := 2, ended := turn }

/-- The last member of the only rebuild: the rebuild is complete, and SLU.STATUS shows none. -/
theorem State.recordRebuild_last {r : Rebuild} {key : Nat × Nat × Nat} (hr : s.flash.rebuilds = [r]) (hs : r.state = 1) (hl : r.left = [key]) :
    (s.recordRebuild key false).flash.rebuilds = [r.finished s.turn] ∧ (s.recordRebuild key false).fld Reg.SLU_STATUS_REBUILD = 0 ∧
      (s.recordRebuild key false).flash.formeBlocks = s.flash.formeBlocks ∧ (s.recordRebuild key false).flash.blocks = s.flash.blocks := by
  have record : s.recordRebuild key false = (s.onFlash fun x =>
      { x with rebuildGen := x.rebuildGen + 1, rebuilds := [r.finished s.turn] }).rebuildFlag := by
    unfold State.recordRebuild State.onFlash
    simp [hr, hs, hl, updIf, Rebuild.finished, startQueued]
  rw [record, State.rebuildFlag_fld, State.rebuildFlag_flash]
  exact ⟨rfl, rfl, rfl, rfl⟩

/-- A member that every unit can be rebuilt for. -/
theorem rebuildMemberComplete_moves {lane b n : Nat} {r : Rebuild} {rest : List (Nat × MBlock)} (hf : s.formeBlock lane b = some f)
    (hr : s.flash.rebuilds = [r]) (hs : r.state = 1) (hl : r.left = [(lane, b, i)]) (hi : i < f.members.length)
    (hread : ∀ o, o < f.next → 14 ≤ s.readable f.lane (f.b * max 1 s.unitsPerMb + o) i) (ho : s.openOrder false f.lane f.chans = (n, m) :: rest) :
    Completes (.rebuildMemberComplete lane b i) s fun t => (∃ g, t.formeBlock lane b = some g ∧ g.members[i]? = some m) ∧
      (t.blockInfo m.die m.block).free = false ∧
        (∃ q, t.flash.rebuilds = [q] ∧ q.state = 2 ∧ q.done = r.done + 1 ∧ q.ended = s.turn) ∧ t.fld Reg.SLU_STATUS_REBUILD = 0 := by
  obtain ⟨rfl, rfl⟩ : f.lane = lane ∧ f.b = b := by simpa using List.find?_some hf
  have whole : (List.range f.next).filter (fun o => decide (s.readable f.lane (f.b * max 1 s.unitsPerMb + o) i < 14)) = [] :=
    List.filter_eq_nil_iff.2 fun o ho => by simpa using hread o (List.mem_range.1 ho)
  have run : exec (.rebuildMemberComplete f.lane f.b i) s = .next ((s.moveMember f i m).recordRebuild (f.lane, f.b, i) false) := by
    show execRebuildMemberComplete f.lane f.b i s = _
    rw [execRebuildMemberComplete, hf]
    dsimp only
    rw [if_pos (by simp [hr, hs, hl]), State.rebuildMember, whole]
    dsimp only
    rw [if_neg (by simp), ho]
  obtain ⟨blocks, rebuilds, free, turn⟩ := s.moveMember_flash (f := f) (i := i) (m := m)
  obtain ⟨ended, shown, formes, infos⟩ := State.recordRebuild_last (s.moveMember f i m) (rebuilds.trans hr) hs hl
  refine completes_of run ⟨⟨{ f with members := updAt (fun _ => m) i f.members }, ?_, updAt_getElem? _ hi⟩, ?_,
    ⟨_, ended, rfl, rfl, turn⟩, shown⟩
  · rw [State.formeBlock, formes, blocks]
    refine (find?_updIf_same (fun g same => ?_) _).trans ?_
    · exact same
    · rw [show s.flash.formeBlocks.find? _ = some f from hf, Option.map_some]
  · rw [State.blockInfo, infos]
    exact free

end

/-- Settles O42: the writes that retire, and the start and the end of a rebuild, each by a lemma above. -/
theorem retirementsAndRebuilds : Obligations.RetirementsAndRebuilds := by
  unfold Obligations.RetirementsAndRebuilds
  intro s client
  exact ⟨fun m v => chanOutWrite_retires s m v, fun d h => ⟨fun v => dieStateWrite_retired s h v, dieStateWrite_serves s h, dieStateWrite_fails s h,
    dieStateWrite_retires s h⟩, rebuildStart_starts s, fun lane b i f r n m rest => rebuildMemberComplete_moves s⟩

end Sys2Proof.Machine
end

section
/-! O45 fails on a class number whose deadline field lies at the address of a counter that the commit itself advances.

A class is a number of any size (`Cmd.cls`), and `State.limitOf` reads its deadline at SLU.CLASS_DL plus 8 bytes per class. For class
360,459 that address is LDP.DLX_MISS. A read of flash counts a Dellux miss there when it is committed, before its plan takes its posting
limit, so the plan's limit is one turn later than the one that the command was decided by. -/

namespace Sys2Proof.Machine

/-- The class whose deadline lies at the address of LDP.DLX_MISS. -/
def strayClass : Nat := 360459

/-- A read of the first unit of namespace 1. -/
def strayRead : Cmd :=
  { ref := ⟨0, 1, 7⟩, sqe := { opcode := 2, cid := 7, nsid := 1, nlb := 7 }, cls := strayClass, ordered := false, level0 := false
    stamp := 99, fetched := 100, order := 0 }

/-- Turn 110 with `strayRead` alone in its context and 1,000,000 Dellux misses counted. Its unit lies in flash on die 16; no other die is in
service, so that the read is accepted without a second chance. -/
def strayDue : State :=
  let s := Tests.nsUp (Tests.atTurn 110)
  let s := s.onGalley fun g => { g with fbt := [(fbtKey 0 0 1, blockWord ⟨16, 0⟩)] }
  let s := s.setFlds [(Reg.SLU_STATUS_HARD_DEC, 8), (Reg.SLU_STATUS_SOFT_DEC, 4), (Reg.SLU_POWER_CEIL, 4000),
    (Reg.SLU_DIE_STATE_STATE 0, 2), (Reg.LDP_DLX_MISS_COUNT, 1000000)]
  Tests.cmdIn strayRead.sqe strayClass (s.poke (s.mapAddr 0) 4 (entryWord (.flash 1 0)))

theorem strayDue_cmds : strayDue.host.cmds = [strayRead] := by decide +kernel

theorem due_strayRead : strayDue.due strayRead = true := by decide +kernel

/-- The calendar accepts the read. -/
theorem tryPlan_strayRead : ∃ n ∈ strayDue.ns 1, ∃ p ∈ strayDue.parts strayRead n,
    strayDue.decideClass strayRead n = strayClass ∧ strayDue.writeBar strayRead n p = none ∧ strayDue.memory.searching = [] ∧
      strayDue.linesFit strayRead (strayDue.mapLines p strayRead) = true ∧ strayDue.badLine (strayDue.mapLines p strayRead) = none ∧
      ((strayDue.countLines strayRead (strayDue.mapLines p strayRead)).tryPlan strayRead n p strayClass strayRead.stamp).toOption.isSome =
        true := by
  decide +kernel

theorem limitOf_strayRead : strayDue.limitOf strayRead strayClass strayRead.stamp = 1000095 := by decide +kernel

/-- The commit counts the miss first, and so its limit is one turn past the one decided by. -/
theorem decideDue_strayRead_limit : (strayDue.decideDue.cmd strayRead.ref).map (·.limit) = some 1000096 := by decide +kernel

/-- Refutes O45: `strayRead` is accepted in `strayDue` with a posting limit one turn later than `State.limitOf` says before the decision. -/
theorem not_admissionDecidesCommands : ¬ Obligations.AdmissionDecidesCommands := by
  unfold Obligations.AdmissionDecidesCommands
  intro h
  obtain ⟨n, hn, p, hp, hcls, hbar, hsearch, hfit, hbad, hplan⟩ := tryPlan_strayRead
  obtain ⟨hdecides, -⟩ := h strayDue strayRead.ref strayRead n strayDue_cmds rfl due_strayRead hn
  obtain ⟨-, hplanned⟩ := (hdecides.2 p hp).2 (by rw [hcls]; decide)
  obtain ⟨-, -, hdecided⟩ := hplanned hbar
  obtain ⟨-, haccepts⟩ := hdecided hcls hsearch hfit hbad
  rw [hcls] at haccepts
  cases hok : (strayDue.countLines strayRead (strayDue.mapLines p strayRead)).tryPlan strayRead n p strayClass strayRead.stamp with
  | error e => simp [hok, Except.toOption] at hplan
  | ok x =>
    obtain ⟨t, hnext, ⟨l, hcmd⟩, -⟩ := haccepts x.1 x.2 hok
    obtain rfl : strayDue.decideDue = t := by injection hnext
    have hlimit := decideDue_strayRead_limit
    rw [hcmd, limitOf_strayRead] at hlimit
    exact absurd hlimit (by simp)

end Sys2Proof.Machine
end

section
/-! The wakes of domains: by an access, and their ends, those of a channel group and of a DRAM half included (R155, R361, R435, R436, R443),
and O7. -/

namespace Sys2Proof.Machine

open Sys2Proof.Safety

section
variable (s : State) (n : Fin 24)

/-! ### An access (R435, R436) -/

theorem State.wake_dom (hm : s.power.mode ≠ .conserve) : ((s.startWake n).restartIdle n).dom n =
    { s.dom n with state := .waking, wakeFrom := s.turn, wakeLen := domWake n false, idleFrom := s.turn } := by
  have mode : (s.power.mode == .conserve) = false := beq_eq_false_iff_ne.2 hm
  rw [State.restartIdle, State.startWake, State.onDom_dom_same, State.onDom_dom_same, mode, Bool.false_and]
  rfl

/-- Table 13.3, as the wake of a DRAM half that is not in PS4 has it. -/
theorem domWake_awake : domWake n false =
    if n = 2 ∨ n = 3 then 48 else if n = 11 ∨ n = 12 then 250 else if 13 ≤ n.val ∧ n.val ≤ 20 then 400 else 32 := by
  revert n
  decide

theorem domainWakeOnAccess_wakes (client : Nat) (off : (s.dom n).state = .off) (hr : s.power.mode ≠ .recovery) (hc : s.power.mode ≠ .conserve) :
    Does (.domainWakeOnAccess n client) s [.idle, .doms] [] fun t =>
      (t.dom n).state = .waking ∧ (t.dom n).wakeFrom = s.turn ∧ (t.dom n).wakeLen = domWake n false ∧ othersSame n s t := by
  refine does_of (congrArg Host.Outcome.next (State.touch_off s n client off hr))
    (((frame_startWake s n).trans (frame_restartIdle _ n)).mono (by decide)) ?_
  rw [s.wake_dom n hc]
  exact ⟨rfl, rfl, rfl, othersSame_wake s n⟩

theorem domainWakeOnAccess_restarts (client : Nat) (on : (s.dom n).state = .on) :
    Does (.domainWakeOnAccess n client) s [.idle] [] fun t => (t.dom n).idleFrom = s.turn :=
  does_of (congrArg Host.Outcome.next (s.touch_on n client on)) (frame_restartIdle s n) (by rw [State.restartIdle, State.onDom_dom_same])

/-- An aborted entry is counted, with who aborted it (R440). -/
theorem State.countRefusal_aborted (client : Nat) : (s.countRefusal n true client).dom n =
    { s.dom n with aborted := min (2 ^ 64 - 1) ((s.dom n).aborted + 1), lastClient := client, lastTurn := s.turn } := by
  rw [State.countRefusal, State.log_dom, State.setFld_dom, State.onDom_dom_same]
  rfl

theorem frame_countRefusal (aborted : Bool) (client : Nat) :
    Frame [.doms, .log] [(Reg.PMC_EVENT_DOM_REFUSED, 1)] s (s.countRefusal n aborted client) := by
  unfold State.countRefusal
  refine ((frame_onDom_keep s n _ ?_).trans (frame_setFld _ _ _)).trans (frame_log _ _ _ _ _)
  exact fun _ => rfl

theorem logged_countRefusal (aborted : Bool) (client : Nat) : logged s (s.countRefusal n aborted client) 0x0505 0 client n :=
  logged_log_of rfl rfl rfl rfl

theorem State.touch_dropping (client : Nat) (h : (s.dom n).state = .dropping) :
    s.touch n client = ((s.onDom n fun d => { d with state := .on }).countRefusal n true client).restartIdle n := by
  rw [State.touch, h]

theorem domainWakeOnAccess_aborts (client : Nat) (dropping : (s.dom n).state = .dropping) :
    Does (.domainWakeOnAccess n client) s [.idle, .doms, .log] [(Reg.PMC_EVENT_DOM_REFUSED, 1)] fun t => (t.dom n).state = .on ∧
      (t.dom n).aborted = min (2 ^ 64 - 1) ((s.dom n).aborted + 1) ∧ logged s t 0x0505 0 client n := by
  have on : Frame [.doms] [] s (s.onDom n fun d => { d with state := .on }) := frame_onDom_keep s n _ fun _ => rfl
  refine does_of (congrArg Host.Outcome.next (s.touch_dropping n client dropping))
    (((on.trans (frame_countRefusal _ n true client)).trans (frame_restartIdle _ n)).mono (by decide)) ?_
  rw [State.restartIdle, State.onDom_dom_same, State.countRefusal_aborted, State.onDom_dom_same]
  exact ⟨rfl, rfl, logged_countRefusal (s.onDom n fun d => { d with state := .on }) n true client⟩

/-! ### The end of a wake (R361, R435, R436) -/

/-- The engines and dies of a flash group come back with its domain; another domain has none. -/
def State.groupBack (s : State) (n : Fin 24) : State := if 13 ≤ n.val && decide (n.val ≤ 20) then s.groupOn (n.val - 13) else s

theorem State.groupOn_dom (g : Nat) (m : Fin 24) : (s.groupOn g).dom m = s.dom m := by
  unfold State.groupOn
  refine (foldl_keeps (State.dom · m) (fun t i => ?_) _ _).trans (foldl_keeps (State.dom · m) (fun t i => ?_) _ s)
  · split_ifs <;> rfl
  · split_ifs <;> rfl

theorem State.groupBack_dom (m : Fin 24) : (s.groupBack n).dom m = s.dom m := by
  unfold State.groupBack
  split_ifs
  · exact s.groupOn_dom _ m
  · rfl

theorem State.powerBanks_dom (m : Fin 24) : (s.powerBanks n).dom m = s.dom m :=
  foldl_keeps (State.dom · m) (fun _ _ => by split_ifs <;> rfl) _ s

theorem State.resumeDom_quiet (h : (s.dom n).stalled = []) : s.resumeDom n = s := by
  rw [State.resumeDom, h]
  rfl

theorem State.onDom_congr {f g : Domain → Domain} (h : f (s.dom n) = g (s.dom n)) : s.onDom n f = s.onDom n g := by
  have same : vupd s.power.doms n f = vupd s.power.doms n g := congrArg (s.power.doms.set n) h
  exact congrArg (fun v => s.onPower fun p => { p with doms := v }) same

variable (quiet : (s.dom n).stalled = []) (kept : domPolicy n = 3 → (s.dom n).dropFrom ≤ (s.dom n).wakeFrom)
include quiet kept

/-- The end of a wake on which nothing waits, and whose last vote was not withdrawn meanwhile. -/
theorem State.wakeEnd_quiet : s.wakeEnd n =
    ((((s.groupBack n).onDom n fun d => { d with state := .on }).powerBanks n).restartIdle n) := by
  have stays : (domPolicy n == 3 && (s.dom n).votes.isEmpty && (s.dom n).stalled.isEmpty &&
      decide ((s.dom n).wakeFrom < (s.dom n).dropFrom)) = false := by
    by_cases vote : domPolicy n = 3
    · simp [Nat.not_lt.2 (kept vote)]
    · simp [vote]
  have on : ((s.groupBack n).onDom n fun d =>
      { d with state := if domPolicy n == 3 && d.votes.isEmpty && d.stalled.isEmpty && d.wakeFrom < d.dropFrom then .dropping else .on }) =
      (s.groupBack n).onDom n fun d => { d with state := .on } := by
    refine State.onDom_congr _ _ ?_
    rw [State.groupBack_dom, stays]
    rfl
  show ((((s.groupBack n).onDom n _).powerBanks n).restartIdle n).resumeDom n = _
  rw [on, State.resumeDom_quiet]
  rw [State.restartIdle, State.onDom_dom_same, State.powerBanks_dom, State.onDom_dom_same, State.groupBack_dom]
  exact quiet

theorem State.wakeEnd_on : ((s.wakeEnd n).dom n).state = .on := by
  rw [s.wakeEnd_quiet n quiet kept, State.restartIdle_state, State.powerBanks_dom, State.onDom_dom_same]

/-- With no banks there is no group either, and the domain is all that wakes. -/
theorem State.wakeEnd_bare (banks : domainBanks n = []) :
    s.wakeEnd n = (s.onDom n fun d => { d with state := .on }).restartIdle n := by
  have noGroup : ∀ m : Fin 24, domainBanks m = [] → (13 ≤ m.val && decide (m.val ≤ 20)) = false := by decide
  rw [s.wakeEnd_quiet n quiet kept, State.groupBack, noGroup n banks, State.powerBanks, banks]
  rfl

theorem wakeEnd_wakes (banks : domainBanks n = []) : Frame [.idle, .doms] [] s (s.wakeEnd n) ∧
    ((s.wakeEnd n).dom n).state = .on ∧ ((s.wakeEnd n).dom n).idleFrom = s.turn ∧ othersSame n s (s.wakeEnd n) := by
  have frame := ((frame_onDom_keep s n (fun d => { d with state := .on }) fun _ => rfl).trans (frame_restartIdle _ n)).mono
    (Q := [.idle, .doms]) (by decide)
  rw [s.wakeEnd_bare n quiet kept banks]
  refine ⟨frame, ?_, ?_, fun m hm => ?_⟩
  · rw [State.restartIdle_state, State.onDom_dom_same]
  · rw [State.restartIdle, State.onDom_dom_same]
    rfl
  · rw [State.restartIdle_dom_state, State.onDom_dom_ne _ _ hm]

end

/-! ### When a wake's time is over -/

section
variable {s : State} {n : Fin 24}

theorem State.wakeDue_over (waking : (s.dom n).state = .waking) (due : (s.dom n).wakeFrom + (s.dom n).wakeLen ≤ s.turn) :
    s.wakeDue n = true := by
  simp [State.wakeDue, waking, due]

theorem domainWakeComplete_ends (waking : (s.dom n).state = .waking) (due : (s.dom n).wakeFrom + (s.dom n).wakeLen ≤ s.turn)
    (len : (s.dom n).wakeLen ≠ 4608) (banks : domainBanks n = []) (quiet : (s.dom n).stalled = [])
    (kept : (s.dom n).dropFrom ≤ (s.dom n).wakeFrom) :
    Does (.domainWakeComplete n) s [.idle, .doms] [] fun t => (t.dom n).state = .on ∧ (t.dom n).idleFrom = s.turn ∧ othersSame n s t := by
  obtain ⟨frame, woken⟩ := wakeEnd_wakes s n quiet (fun _ => kept) banks
  exact does_of (congrArg Host.Outcome.next (if_pos (by simp [State.wakeDue_over waking due, len]))) frame woken

theorem exec_domainWakeComplete_early (early : s.turn < (s.dom n).wakeFrom + (s.dom n).wakeLen) :
    exec (.domainWakeComplete n) s = .next s := by
  have undue : s.wakeDue n = false := by simp [State.wakeDue, early]
  exact congrArg Host.Outcome.next (if_neg (by simp [undue]))

/-! ### Channel groups (R155) -/

/-- The domain of a channel group has an idle timer, and no votes. -/
theorem domPolicy_groupDom (g : Fin 8) : domPolicy (groupDom g) = 2 := by
  revert g
  decide

theorem channelGroupWake_ends {g : Fin 8} (waking : (s.dom (groupDom g)).state = .waking)
    (due : (s.dom (groupDom g)).wakeFrom + (s.dom (groupDom g)).wakeLen ≤ s.turn) (quiet : (s.dom (groupDom g)).stalled = []) :
    Completes (.channelGroupWake g []) s fun t => (t.dom (groupDom g)).state = .on := by
  have noVotes : domPolicy (groupDom g) = 3 → (s.dom (groupDom g)).dropFrom ≤ (s.dom (groupDom g)).wakeFrom := fun vote =>
    absurd ((domPolicy_groupDom g).symm.trans vote) (by decide)
  exact completes_of (congrArg Host.Outcome.next (if_pos (State.wakeDue_over waking due))) (s.wakeEnd_on _ quiet noVotes)

/-! ### DRAM halves (R443) -/

/-- The domain of the lower or the upper DRAM half. -/
abbrev halfDom (upper : Bool) : Fin 24 := if upper then 12 else 11

variable {upper : Bool} (waking : (s.dom (halfDom upper)).state = .waking) (len : (s.dom (halfDom upper)).wakeLen = 4608)
  (due : (s.dom (halfDom upper)).wakeFrom + 4608 ≤ s.turn)
include waking len due

theorem exec_dramHalfPs4Wake (verified : Bool) : exec (.dramHalfPs4Wake upper verified) s =
    .next (if verified then (s.onMemory fun m => { m with searching := m.searching.erase upper.toNat }).wakeEnd (halfDom upper)
      else (s.logUncoded .training 0x3FF upper.toNat).onMemory fun m =>
        { m with searching := upper.toNat :: m.searching.erase upper.toNat }) :=
  congrArg Host.Outcome.next (if_neg (by simp [State.wakeDue_over waking (len ▸ due), len]))

theorem dramHalfPs4Wake_verified (quiet : (s.dom (halfDom upper)).stalled = [])
    (kept : (s.dom (halfDom upper)).dropFrom ≤ (s.dom (halfDom upper)).wakeFrom) :
    Does (.dramHalfPs4Wake upper true) s [.idle, .doms, .memory] [] fun t =>
      (t.dom (halfDom upper)).state = .on ∧ t.memory.searching = s.memory.searching.erase upper.toNat := by
  have banks : domainBanks (halfDom upper) = [] := by cases upper <;> rfl
  have found := frame_onMemory_keep s (fun m => { m with searching := m.searching.erase upper.toNat }) rfl
  obtain ⟨frame, on, -⟩ := wakeEnd_wakes (s.onMemory fun m => { m with searching := m.searching.erase upper.toNat }) (halfDom upper)
    quiet (fun _ => kept) banks
  refine does_of (exec_dramHalfPs4Wake waking len due true) ((found.trans frame).mono (by decide)) ⟨on, ?_⟩
  exact congrArg Memory.searching (frame.1 .memory (by decide))

theorem dramHalfPs4Wake_searches : Does (.dramHalfPs4Wake upper false) s [.log, .memory] [] fun t => upper.toNat ∈ t.memory.searching :=
  does_of (exec_dramHalfPs4Wake waking len due false) ((frame_logUncoded s _ _ _).trans (frame_onMemory_keep _ _ rfl)) List.mem_cons_self

end

/-- Settles O7: an access by the state of its domain, and the end of each kind of wake, each by a lemma above. -/
theorem domainsWake : Obligations.DomainsWake := by
  unfold Obligations.DomainsWake
  refine ⟨fun s d client => ⟨fun off hr hc => ?_, domainWakeOnAccess_restarts s d client, domainWakeOnAccess_aborts s d client,
    domainWakeComplete_ends, fun _ => exec_domainWakeComplete_early⟩,
    fun s => ⟨fun g => channelGroupWake_ends, fun upper waking len due quiet kept =>
      ⟨dramHalfPs4Wake_verified waking len due quiet kept, dramHalfPs4Wake_searches waking len due⟩⟩⟩
  rw [← domWake_awake]
  exact domainWakeOnAccess_wakes s d client off hr hc

end Sys2Proof.Machine
end

section
/-! The ring's TAIL, journal slots, snapshots, mirror moves and map repairs (R189, R204 to R206, R209, R210, R355): four setup writes that
reach their register, and three commands of the galley that wait for their work to be done. -/

namespace Sys2Proof.Machine

open Sys2Proof.Safety

variable {s : State} {client : Nat}

/-- What a command does that is one setup write, where the write reaches its register: it restarts the idle timer of the register's
domain and then makes its own change `k`. -/
theorem does_setupWrite {i : Instr} {a : Nat} {v : Word} {k : State → State} {t : State} {P : List Part} {W : List (Fld × Nat)}
    {Q : State → Prop} (h : reaches s client a) (run : exec i s = .next (s.setupWrite client a v i k))
    (made : k (s.restartIdle (blockDomain a)) = t) (frame : Frame P W (s.restartIdle (blockDomain a)) t) (post : Q t) :
    Does i s (.idle :: P) W Q :=
  does_of (run.trans (congrArg Host.Outcome.next ((State.setupWrite_reaches s _ _ _ _ _ h).trans made)))
    ((frame_restartIdle s _).trans frame) post

/-! ### The ring's TAIL (R210) -/

section
variable {n : Nat} (h : reaches s client Reg.DMC_MUP_PTR)
include h

theorem mupTailWrite_moves (room : ringPasses s.mupEntries (s.fld Reg.DMC_MUP_PTR_HEAD) (s.fld Reg.DMC_MUP_PTR_TAIL) n = false) :
    Does (.mupTailWrite client n) s [.idle] [(Reg.DMC_MUP_PTR_TAIL, n)] fun _ => True :=
  does_setupWrite h rfl (if_neg (ne_true_of_eq_false room)) (frame_setFld _ _ _) trivial

theorem mupTailWrite_passes (fits : n < 2 ^ 16)
    (passes : ringPasses s.mupEntries (s.fld Reg.DMC_MUP_PTR_HEAD) (s.fld Reg.DMC_MUP_PTR_TAIL) n = true) :
    Does (.mupTailWrite client n) s [.idle, .log] [] fun t => logged s t 0x0901 0 client (Reg.DMC_MUP_PTR + n * 2 ^ 32) := by
  have word : (BitVec.ofNat 32 n).toNat = n := by
    rw [BitVec.toNat_ofNat, Nat.mod_eq_of_lt (fits.trans (by decide))]
  refine does_setupWrite h rfl (if_pos passes) (frame_logWrite _ _ _ _) ?_
  rw [State.logWrite, word]
  exact logged_log_of rfl rfl rfl rfl

end

/-! ### Journal slots (R204) -/

/-- A full slot goes to flash: its records follow those that are there, and it alone leaves the journal. -/
theorem journalSlotProgrammed_keeps {n : Nat} {recs : List JournalRec}
    (full : s.galley.journal.find? (fun j => j.1 == n && decide (256 ≤ j.2.length)) = some (n, recs)) :
    Does (.journalSlotProgrammed n) s [.galley, .nv] [] fun t => t.nv = { s.nv with journal := s.nv.journal ++ recs } ∧
      (∀ x ∈ t.galley.journal, x.1 ≠ n) ∧ (∀ x ∈ s.galley.journal, x.1 ≠ n → x ∈ t.galley.journal) ∧
      t.galley.jnlSeq = s.galley.jnlSeq := by
  have run : exec (.journalSlotProgrammed n) s = .next
      ((s.onGalley fun g => { g with journal := g.journal.filter fun x => x.1 != n }).onNv fun v =>
        { v with journal := v.journal ++ recs }) := by
    show execJournalSlotProgrammed n s = _
    rw [execJournalSlotProgrammed, full]
  refine does_of run ((frame_onGalley s _).trans (frame_onNv _ _)) ⟨rfl, fun x hx => ?_, fun x hx other => ?_, rfl⟩
  · exact bne_iff_ne.1 (List.mem_filter.1 hx).2
  · exact List.mem_filter.2 ⟨hx, bne_iff_ne.2 other⟩

/-! ### Snapshots (R205, R206) -/

section
variable (h : reaches s client Reg.DMC_SNAP_CTRL)
include h

theorem snapshotMark_marks (idle : s.galley.writing = none) :
    Does (.snapshotMark client) s [.idle] [(Reg.DMC_SNAP_CTRL_MARK, 1)] fun _ => True :=
  does_setupWrite h rfl (if_neg (by simp [idle])) (frame_setFld _ _ _) trivial

theorem snapshotMark_lost (writing : s.galley.writing.isSome = true) :
    Does (.snapshotMark client) s [.idle] [(Reg.DMC_SNAP_STATUS_MARK_LOST, 1)] fun _ => True :=
  does_setupWrite h rfl (if_pos writing) (frame_setFld _ _ _) trivial

end

theorem exec_snapshotComplete_unwritten (left : s.galley.unwritten ≠ []) : exec .snapshotComplete s = .next s := by
  show execSnapshotComplete s = _
  rw [execSnapshotComplete]
  cases s.galley.writing with
  | none => rfl
  | some w => exact congrArg Host.Outcome.next (if_pos (by simp [left]))

/-- A snapshot whose pages are all written replaces the last one, and only the records after its mark are kept. -/
theorem snapshotComplete_replaces {seq : Nat} {tbl : Tables} (writing : s.galley.writing = some (seq, tbl))
    (done : s.galley.unwritten = []) :
    Does .snapshotComplete s [.galley, .nv] [] fun t => t.nv.snapshot = tbl ∧ t.nv.snapSeq = seq ∧ t.galley.writing = none ∧
      ∀ r, r ∈ t.nv.journal ↔ r ∈ s.nv.journal ∧ seq < r.seq := by
  have run : exec .snapshotComplete s = .next ((s.onGalley fun g => { g with writing := none, shadow := [] }).onNv fun v =>
      { v with snapshot := tbl, snapSeq := seq, journal := v.journal.filter fun r => decide (seq < r.seq) }) := by
    show execSnapshotComplete s = _
    rw [execSnapshotComplete, writing]
    exact congrArg Host.Outcome.next (if_neg (by simp [done]))
  exact does_of run ((frame_onGalley s _).trans (frame_onNv _ _)) ⟨rfl, rfl, rfl, fun r => by simp⟩

/-! ### Mirror moves (R189, R209) -/

section
variable {n : Nat} (h : reaches s client Reg.DMC_GLY_MOVE)
include h

theorem mirrorMoveStart_starts (still : s.fld Reg.DMC_GLY_MOVE_ACTIVE = 0) :
    Does (.mirrorMoveStart client n) s [.idle, .galley] [(Reg.DMC_GLY_MOVE_CHAN, n), (Reg.DMC_GLY_MOVE_START, 1)]
      fun t => t.galley = { s.galley with movePending := true } :=
  does_setupWrite h rfl (if_neg (by simp [State.flag, still])) ((frame_setFlds _ _).trans (frame_onGalley _ _)) (by simp)

theorem mirrorMoveStart_ignored (active : s.fld Reg.DMC_GLY_MOVE_ACTIVE = 1) :
    Does (.mirrorMoveStart client n) s [.idle] [] fun _ => True :=
  does_setupWrite h rfl (if_pos (by simp [State.flag, active])) (Frame.refl _) trivial

end

theorem mirrorMoveComplete_ends (active : s.fld Reg.DMC_GLY_MOVE_ACTIVE = 1) (moved : s.galley.moveLeft = 0) :
    Does .mirrorMoveComplete s [] [(Reg.DMC_GLY_MOVE_ACTIVE, 0), (Reg.DMC_GLY_MOVE_LEFT_KSLOTS, 0)] fun _ => True :=
  does_of (congrArg Host.Outcome.next (if_pos (by simp [State.flag, active, moved]))) (frame_setFlds s _) trivial

theorem exec_mirrorMoveComplete_left (left : s.galley.moveLeft ≠ 0) : exec .mirrorMoveComplete s = .next s :=
  congrArg Host.Outcome.next (if_neg (by simp [left]))

/-! ### Map repairs (R355) -/

/-- A repair is only asked for here; the turn edge makes it. -/
theorem mapRepair_waits {n : Nat} (h : reaches s client Reg.DMC_MAP_REPAIR) : Does (.mapRepair client n) s [.idle, .memory]
    [(Reg.DMC_MAP_REPAIR_LINE, n), (Reg.DMC_MAP_REPAIR_GO, 1), (Reg.DMC_MAP_REPAIR_BUSY, 1)] fun t =>
    t.memory = { s.memory with mapRepair := true } :=
  does_setupWrite h rfl rfl ((frame_setFlds _ _).trans (frame_onMemory_keep _ _ rfl)) (by simp)

/-- Settles O36: each command, in each state that the statement tells apart, is a lemma above; the four that are setup writes rest on
`does_setupWrite`. -/
theorem journalSnapshotAndMoves : Obligations.JournalSnapshotAndMoves := by
  unfold Obligations.JournalSnapshotAndMoves
  intro s client n
  exact ⟨fun h fits => ⟨mupTailWrite_moves h, mupTailWrite_passes h fits⟩, fun recs => journalSlotProgrammed_keeps,
    fun h => ⟨snapshotMark_marks h, snapshotMark_lost h⟩, exec_snapshotComplete_unwritten, fun seq tbl => snapshotComplete_replaces,
    fun h => ⟨mirrorMoveStart_starts h, mirrorMoveStart_ignored h⟩,
    fun active => ⟨mirrorMoveComplete_ends active, exec_mirrorMoveComplete_left⟩, mapRepair_waits⟩

end Sys2Proof.Machine
end

section
/-! The members of a new forme-block: one free member block on each of 16 channels (R219, R220). -/

namespace Sys2Proof.Machine

open Sys2Proof.Safety

/-! ### Insertion into a list -/

/-- A fold that inserts what each element gives reorders what the elements give. -/
theorem foldl_insert_perm {α β : Type} {f : List β → α → List β} {g : α → Option β} (h : ∀ acc a, (f acc a).Perm ((g a).toList ++ acc))
    (l : List α) (acc : List β) : (l.foldl f acc).Perm (l.filterMap g ++ acc) := by
  induction l generalizing acc with
  | nil => exact .refl _
  | cons a l ih =>
    have moved : (l.filterMap g ++ f acc a).Perm ((g a).toList ++ l.filterMap g ++ acc) := by
      refine ((h acc a).append_left _).trans ?_
      rw [← List.append_assoc]
      exact List.perm_append_comm.append_right _
    rw [show a :: l = [a] ++ l from rfl, List.filterMap_append, show [a].filterMap g = (g a).toList by cases hg : g a <;> simp [hg]]
    exact (ih (f acc a)).trans moved

theorem insertDesc_perm (x : Nat × MBlock) (l : List (Nat × MBlock)) : (insertDesc x l).Perm (x :: l) := by
  induction l with
  | nil => exact .refl _
  | cons y l ih =>
    unfold insertDesc
    split_ifs
    · exact .refl _
    · exact (ih.cons y).trans (.swap x y l)

/-! ### What a channel gives (R219, R220) -/

variable {s : State} {wear : Bool} {lane c : Nat} {skip : List Nat}

/-- A member block that a channel may give to a new forme-block. -/
def State.mayGive (s : State) (c : Nat) (m : MBlock) : Prop :=
  m.die / 16 = c ∧ s.isFree m.die m.block = true ∧ s.opensOn m.die = true

theorem State.lessWorn_cases (best : Option MBlock) (m : MBlock) : s.lessWorn wear best m = some m ∨ s.lessWorn wear best m = best := by
  unfold State.lessWorn
  split
  · dsimp only
    split_ifs <;> simp
  · exact .inl rfl

theorem State.bestBlock_mayGive : ∀ m ∈ s.bestBlock wear lane c, s.mayGive c m := by
  refine List.foldlRecOn (motive := fun best : Option MBlock => ∀ m ∈ best, s.mayGive c m) _ _ (fun _ h => nomatch h)
    fun best good p hp => ?_
  split_ifs with opens
  · refine List.foldlRecOn (motive := fun best : Option MBlock => ∀ m ∈ best, s.mayGive c m) _ _ good fun best good b _ => ?_
    split_ifs with free
    · rcases s.lessWorn_cases (wear := wear) best ⟨16 * c + p, b⟩ with h | h <;> rw [h]
      · rintro m ⟨⟩
        have pos := List.mem_range.1 hp
        exact ⟨by dsimp only; omega, free, opens.2⟩
      · exact good
    · exact good
  · exact good

/-- What a channel offers in the order of opening: its best block with its count of free ones. -/
def State.offer (s : State) (wear : Bool) (lane : Nat) (skip : List Nat) (c : Nat) : Option (Nat × MBlock) :=
  if skip.contains c then none
  else (s.bestBlock wear lane c).map fun m => (s.chanBlocks lane c fun b => b.gone || !b.free, m)

theorem State.offer_mayGive {x : Nat × MBlock} (h : s.offer wear lane skip c = some x) : s.mayGive c x.2 := by
  unfold State.offer at h
  split_ifs at h
  obtain ⟨m, best, rfl⟩ := Option.map_eq_some_iff.1 h
  exact State.bestBlock_mayGive m best

theorem State.openOrder_perm : (s.openOrder wear lane skip).Perm ((List.range 64).filterMap (s.offer wear lane skip)) := by
  refine (foldl_insert_perm (g := s.offer wear lane skip) (fun acc c => ?_) _ []).trans (by rw [List.append_nil])
  unfold State.offer
  split_ifs
  · exact .refl _
  · cases s.bestBlock wear lane c with
    | none => exact .refl _
    | some m => exact insertDesc_perm _ _

theorem State.openOrder_mayGive {x : Nat × MBlock} (h : x ∈ s.openOrder wear lane skip) : ∃ c < 64, s.mayGive c x.2 := by
  obtain ⟨c, hc, offered⟩ := List.mem_filterMap.1 (State.openOrder_perm.mem_iff.1 h)
  exact ⟨c, List.mem_range.1 hc, State.offer_mayGive offered⟩

theorem State.openOrder_nodup : ((s.openOrder wear lane skip).map fun x => x.2.die / 16).Nodup := by
  rw [(State.openOrder_perm.map _).nodup_iff, List.map_filterMap]
  refine List.Nodup.filterMap (fun c c' n hn hn' => ?_) List.nodup_range
  obtain ⟨x, offered, rfl⟩ := Option.map_eq_some_iff.1 hn
  obtain ⟨x', offered', same⟩ := Option.map_eq_some_iff.1 hn'
  rw [← (State.offer_mayGive offered).1, ← (State.offer_mayGive offered').1, same]

/-! ### The order of the members (R220) -/

/-- Ordering blocks of different channels by channel only moves them. -/
theorem byChannel_perm {l : List MBlock} (chans : (l.map fun m => m.die / 16).Nodup) (low : ∀ m ∈ l, m.die / 16 < 64) :
    ((List.range 64).filterMap fun c => l.find? fun m => m.die / 16 == c).Perm l := by
  have found : ∀ c m, (l.find? fun m => m.die / 16 == c) = some m → m ∈ l ∧ m.die / 16 = c :=
    fun c m h => ⟨List.mem_of_find?_eq_some h, by simpa using List.find?_some h⟩
  refine (List.perm_ext_iff_of_nodup (List.Nodup.filterMap (fun c c' m h h' => ?_) List.nodup_range) chans.of_map).2 fun m => ?_
  · exact (found c m h).2.symm.trans (found c' m h').2
  · rw [List.mem_filterMap]
    constructor
    · rintro ⟨c, -, h⟩
      exact (found c m h).1
    · intro hm
      refine ⟨m.die / 16, List.mem_range.2 (low m hm), ?_⟩
      obtain ⟨m', h⟩ := Option.isSome_iff_exists.1 (List.find?_isSome (p := fun x : MBlock => x.die / 16 == m.die / 16).2 ⟨m, hm, by simp⟩)
      rw [h, List.inj_on_of_nodup_map chans (found _ m' h).1 hm (found _ m' h).2]

theorem filterMap_getElem?_range {α : Type} (l : List α) : (List.range l.length).filterMap (fun i => l[i]?) = l := by
  induction l with
  | nil => rfl
  | cons a l ih =>
    rw [List.length_cons, List.range_succ_eq_map, List.filterMap_cons, List.filterMap_map]
    exact congrArg (a :: ·) ih

/-- The members of forme-block b are a rotation of the 16 blocks in the order of their channels. -/
theorem memberOrder_perm (b : Nat) {l : List MBlock} (full : l.length = 16) (chans : (l.map fun m => m.die / 16).Nodup)
    (low : ∀ m ∈ l, m.die / 16 < 64) : (memberOrder b l).Perm l := by
  have asc := byChannel_perm chans low
  unfold memberOrder
  extract_lets order at *
  have len : order.length = 16 := asc.length_eq.trans full
  have turned := filterMap_getElem?_range (order.rotate b)
  rw [List.length_rotate, len] at turned
  have rotated : (List.range 16).filterMap (fun i => order[(i + b) % 16]?) = order.rotate b :=
    (List.filterMap_congr fun i hi => by rw [List.getElem?_rotate (by rw [len]; exact List.mem_range.1 hi), len]).trans turned
  rw [rotated]
  exact (List.rotate_perm _ _).trans asc

/-! ### FORME_BLOCK_OPEN (R220) -/

theorem State.onBlock_free {die block : Nat} {f : BlockInfo → BlockInfo} (taken : ∀ x, (f x).free = false) {m : MBlock}
    (h : (s.blockInfo m.die m.block).free = false) : ((s.onBlock die block f).blockInfo m.die m.block).free = false := by
  unfold State.blockInfo State.onBlock
  rw [State.onFlash_flash]
  by_cases same : blockKey m.die m.block = blockKey die block
  · rw [same, klook_kput_self]
    exact taken _
  · rw [klook_kput_ne _ _ same]
    exact h

theorem State.onFlash_blockInfo (s : State) (f : Flash → Flash) (kept : (f s.flash).blocks = s.flash.blocks) (die block : Nat) :
    (s.onFlash f).blockInfo die block = s.blockInfo die block := by
  rw [State.blockInfo, State.onFlash_flash, kept, State.blockInfo]

/-- A member block goes to a forme-block. -/
def State.taken (s : State) (m : MBlock) : State := s.onBlock m.die m.block fun x => { x with free := false }

theorem State.foldl_taken_formeBlocks (l : List MBlock) (s : State) : (l.foldl State.taken s).flash.formeBlocks = s.flash.formeBlocks :=
  foldl_keeps (f := State.taken) (fun s => s.flash.formeBlocks) (fun _ _ => (rfl)) l s

theorem State.foldl_taken_free {l : List MBlock} {m : MBlock} {s : State} (h : m ∈ l ∨ (s.blockInfo m.die m.block).free = false) :
    ((l.foldl State.taken s).blockInfo m.die m.block).free = false := by
  induction l generalizing s with
  | nil => simpa using h
  | cons x l ih =>
    refine ih ?_
    rcases h with h | h
    · rcases List.mem_cons.1 h with rfl | h
      · exact .inr (congrArg BlockInfo.free (s.onBlock_blockInfo m.die m.block _))
      · exact .inl h
    · exact .inr (State.onBlock_free (fun _ => rfl) h)

theorem State.writeFbt_flash (lane b i : Nat) (l : List MBlock) (s : State) : (s.writeFbt lane b i l).flash = s.flash := by
  induction l generalizing i s with
  | nil => rfl
  | cons m l ih => exact ih _ _

/-- The blocks of a new forme-block. -/
def State.opened (s : State) (lane : Nat) (dredge : Bool) : List MBlock :=
  ((s.openOrder (dredge && s.wearNext lane) lane []).take 16).map (·.2)

/-- A new forme-block, under the least number that its lane does not use (assumption log 42). -/
def State.newForme (s : State) (lane : Nat) (dredge : Bool) : FormeBlock :=
  let b := s.nextFb lane s.flash.formeBlocks.length 0
  { lane := lane, b := b, members := memberOrder b (s.opened lane dredge), dredge := dredge }

/-- The new forme-block's table words are booked, and its members taken. -/
def State.openedForme (s : State) (lane : Nat) (dredge : Bool) : State :=
  let fb := s.newForme lane dredge
  (fb.members.foldl State.taken (s.writeFbt lane fb.b 0 fb.members)).onFlash fun x => { x with formeBlocks := x.formeBlocks ++ [fb] }

theorem State.opened_mayGive {dredge : Bool} {m : MBlock} (h : m ∈ s.opened lane dredge) : ∃ c < 64, s.mayGive c m := by
  obtain ⟨x, hx, rfl⟩ := List.mem_map.1 h
  exact State.openOrder_mayGive (List.mem_of_mem_take hx)

theorem State.opened_nodup {dredge : Bool} : ((s.opened lane dredge).map fun m => m.die / 16).Nodup := by
  rw [State.opened, List.map_map]
  exact ((List.take_sublist 16 _).map _).nodup State.openOrder_nodup

theorem State.newForme_members {dredge : Bool} (full : (s.opened lane dredge).length = 16) :
    (s.newForme lane dredge).members.Perm (s.opened lane dredge) :=
  memberOrder_perm (s.nextFb lane s.flash.formeBlocks.length 0) full State.opened_nodup fun m hm => by
    obtain ⟨c, hc, same, -⟩ := State.opened_mayGive hm
    exact same.trans_lt hc

theorem exec_formeBlockOpen_short (dredge : Bool) (short : ((s.openOrder (dredge && s.wearNext lane) lane []).take 16).length < 16) :
    exec (.formeBlockOpen lane dredge) s = .next s := by
  show execFormeBlockOpen lane dredge s = _
  rw [execFormeBlockOpen, State.openForme, if_pos short, ite_self]

theorem formeBlockOpen_opens (dredge : Bool) (hl : lane < s.lanes)
    (full : ((s.openOrder (dredge && s.wearNext lane) lane []).take 16).length = 16) :
    Completes (.formeBlockOpen lane dredge) s fun t => ∃ fb, t.flash.formeBlocks = s.flash.formeBlocks ++ [fb] ∧ fb.lane = lane ∧
      fb.dredge = dredge ∧ fb.members.length = 16 ∧ (fb.members.map fun m => m.die / 16).Nodup ∧
      ∀ m ∈ fb.members, s.isFree m.die m.block = true ∧ s.opensOn m.die = true ∧ (t.blockInfo m.die m.block).free = false := by
  have sixteen : (s.opened lane dredge).length = 16 := (List.length_map _).trans full
  have members := State.newForme_members sixteen
  have run : exec (.formeBlockOpen lane dredge) s = .next (s.openedForme lane dredge) := by
    show execFormeBlockOpen lane dredge s = _
    rw [execFormeBlockOpen, if_pos hl, State.openForme, if_neg full.not_lt]
    rfl
  refine completes_of run ⟨s.newForme lane dredge, ?_, rfl, rfl, members.length_eq.trans sixteen, ?_, fun m hm => ?_⟩
  · rw [State.openedForme, State.onFlash_flash, State.foldl_taken_formeBlocks, State.writeFbt_flash]
  · exact (members.map _).nodup_iff.2 State.opened_nodup
  · obtain ⟨c, -, -, free, opens⟩ := State.opened_mayGive (members.mem_iff.1 hm)
    refine ⟨free, opens, ?_⟩
    rw [State.openedForme, State.onFlash_blockInfo _ _ rfl]
    exact State.foldl_taken_free (.inl hm)

end Sys2Proof.Machine
end

section
/-! Dredge copies and the erase of a victim (R226, R227, R229). -/

namespace Sys2Proof.Machine

open Sys2Proof.Safety

/-! ### A forme-block changed -/

variable {s : State} {lane b : Nat} {f : FormeBlock}

theorem State.formeBlock_key (h : s.formeBlock lane b = some f) : f.lane = lane ∧ f.b = b := by
  simpa using List.find?_some h

/-- A change that keeps every forme-block's lane and number. -/
theorem State.onForme_formeBlock {g : FormeBlock → FormeBlock} (same : ∀ y, (g y).lane = y.lane ∧ (g y).b = y.b)
    (h : s.formeBlock lane b = some f) : (s.onForme lane b g).formeBlock lane b = some (g f) := by
  rw [State.formeBlock, State.onForme, State.onFlash_flash]
  refine (find?_updIf_same (fun y hy => ?_) _).trans (congrArg (Option.map g) h)
  rw [(same y).1, (same y).2]
  exact hy

theorem frame_onForme (s : State) (lane b : Nat) (g : FormeBlock → FormeBlock) : Frame [.flash] [] s (s.onForme lane b g) := frame_onFlash s _

/-! ### DREDGE_COPY (R226, R227) -/

section
variable {pl m : Nat} {x : MediaUnit} (hx : s.unitAt lane pl m = some x) (whole : x.kind = 0) (live : s.unitLive lane pl m = true)

theorem State.foldsOf_whole (s : State) {x : MediaUnit} (whole : x.kind = 0) (f m : Nat) : s.foldsOf x f m = [] := if_pos whole

theorem State.copiesOfUnit_whole (s : State) {x : MediaUnit} (whole : x.kind = 0) (f m : Nat) (lost : List Nat) :
    s.copiesOfUnit x f m lost = [{ x with sectors := s.liveSectors x f m }] := if_pos whole

/-- The first copy of a forme-block's unit makes it a space victim (R226). -/
def FormeBlock.dredged (turn : Nat) (y : FormeBlock) : FormeBlock :=
  { y with victim := if y.victim = 0 then 4 else y.victim, asked := if y.victim = 0 then turn else y.asked }

theorem FormeBlock.dredged_victim (turn : Nat) (y : FormeBlock) : (y.dredged turn).victim ≠ 0 := by
  unfold FormeBlock.dredged
  dsimp only
  split_ifs with none
  · decide
  · exact none

include hx whole live in
theorem exec_dredgeCopy {k : Nat} (hf : s.formeBlock lane b = some f) (may : s.mayDredge f = true) (written : k / 14 < f.next)
    (place : b * max 1 s.unitsPerMb + k / 14 = pl) (member : k % 14 = m) (fresh : s.copying f pl m = false) : exec (.dredgeCopy lane b k) s = .next
      ((s.startWork (.dredge lane b pl m) [dredgeRead lane pl m]).onForme lane b (·.dredged s.turn)) := by
  obtain ⟨rfl, rfl⟩ := State.formeBlock_key hf
  subst place member
  show execDredgeCopy f.lane f.b k s = _
  rw [execDredgeCopy, hf]
  dsimp only
  rw [if_pos (by simp [may, written]), State.dredgeCopy, hx]
  dsimp only
  rw [if_neg (by simp [fresh, live]), s.foldsOf_whole whole]
  rfl

include hx whole live in
theorem dredgeCopy_reads {k : Nat} (hf : s.formeBlock lane b = some f) (may : s.mayDredge f = true) (written : k / 14 < f.next)
    (place : b * max 1 s.unitsPerMb + k / 14 = pl) (member : k % 14 = m) (fresh : s.copying f pl m = false) :
    Does (.dredgeCopy lane b k) s [.flash, .sluice] [] fun t =>
      t.flash.units = s.flash.units ∧ t.flash.copies = s.flash.copies ∧ t.sluice.nextPlan = s.sluice.nextPlan + 1 ∧
        (∃ p, t.sluice.plans = s.sluice.plans ++ [p] ∧ p.id = s.sluice.nextPlan ∧ p.cls = 7 ∧
          p.work = some (.dredge lane b pl m) ∧ ∃ u, p.reads = [u] ∧ u.loc = some (lane, pl, m) ∧ u.len = 4) ∧
        ∃ g, t.formeBlock lane b = some g ∧ g.victim ≠ 0 :=
  does_of (exec_dredgeCopy hx whole live hf may written place member fresh)
    (((frame_onSluice s _).trans (frame_onForme _ _ _ _)).mono (by simp))
    ⟨rfl, rfl, rfl, ⟨_, rfl, rfl, rfl, rfl, _, rfl, rfl, rfl⟩, _, State.onForme_formeBlock (fun _ => ⟨rfl, rfl⟩) hf, f.dredged_victim s.turn⟩

/-! ### The end of a copy's read (R227, R229) -/

/-- A live unit's copy waits for map updates. -/
theorem pendingOf_ne_nil {u : MediaUnit} {o : Option (Nat × Nat × Sector)} (ho : o ∈ u.sectors) (present : o.isSome = true) : pendingOf [u] ≠ [] := by
  obtain ⟨y, rfl⟩ := Option.isSome_iff_exists.1 present
  refine List.ne_nil_of_mem (a := (y.1, if u.kind = 0 then 4 else y.2.1)) (List.mem_eraseDups.2 ?_)
  rw [List.flatMap_singleton]
  exact List.mem_map.2 ⟨y, List.mem_filterMap.2 ⟨some y, ho, rfl⟩, rfl⟩

/-- The copy of a whole unit, with its live sectors. -/
def State.copyOf (s : State) (x : MediaUnit) (lane b pl m handle : Nat) : CopyUnit :=
  { unit := { x with sectors := s.liveSectors x pl m }, lane := lane, b := b, place := pl, member := m, handle := handle }

/-- A copy waits for a destination, and its victim for the map updates of it. -/
def State.copied (s : State) (f : FormeBlock) (x : MediaUnit) (lane b pl m : Nat) : State :=
  (s.onFlash fun y => { y with copies := y.copies ++ [s.copyOf x lane b pl m f.handle] }).onForme lane b fun y =>
    { y with copies := (pl, m, pendingOf [{ x with sectors := s.liveSectors x pl m }]) :: y.copies }

include hx whole live in
theorem State.dredgeEnd_done (hf : s.formeBlock lane b = some f) {u : UnitRead} (done : u.path = .done) (rest : List UnitRead) :
    s.dredgeEnd (u :: rest) lane b pl m = (s.copied f x lane b pl m).fdpMoved f.handle := by
  unfold State.dredgeEnd
  rw [hf, hx]
  dsimp only
  rw [if_neg (by simp [done]), if_neg (by simp [done, live]), s.copiesOfUnit_whole whole]
  rfl

include hx whole live in
theorem State.dredgeEnd_copies (hf : s.formeBlock lane b = some f) {u : UnitRead} (done : u.path = .done) (rest : List UnitRead) :
    let t := s.dredgeEnd (u :: rest) lane b pl m
    t.flash.copies = s.flash.copies ++
        [{ unit := { x with sectors := s.liveSectors x pl m }, lane := lane, b := b, place := pl, member := m, handle := f.handle }] ∧
      t.flash.units = s.flash.units ∧ t.memory = s.memory ∧ t.galley = s.galley ∧
      ∃ g p, t.formeBlock lane b = some g ∧ (pl, m, p) ∈ g.copies ∧ p ≠ [] := by
  obtain ⟨l, moved, -⟩ := (s.copied f x lane b pl m).fdpEvent_nv 0x80 f.handle
  have live' := live
  rw [State.unitLive, hx] at live'
  obtain ⟨o, ho, present⟩ := List.any_eq_true.1 live'
  rw [State.dredgeEnd_done hx whole live hf done, State.fdpMoved, moved]
  exact ⟨rfl, rfl, rfl, rfl, _, _, State.onForme_formeBlock (s := s.onFlash _) (fun _ => ⟨rfl, rfl⟩) hf, List.mem_cons_self,
    pendingOf_ne_nil ho present⟩

end

/-! ### VICTIM_ERASE (R229) -/

theorem exec_victimErase (hf : s.formeBlock lane b = some f) : exec (.victimErase lane b) s = .next (s.eraseVictim f) := by
  show execVictimErase lane b s = _
  rw [execVictimErase, hf]

/-- A forme-block that is not erased: it is open, or erased already, or still has copies without a result, valid units or reads. -/
def State.victimHeld (s : State) (f : FormeBlock) : Prop :=
  f.isOpen = true ∨ f.victim = 9 ∨ (∃ c ∈ f.copies, c.2.2 ≠ []) ∨ 0 < s.validUnits f ∨ ∃ m ∈ f.members, s.blockPinned m = true

theorem State.victimHeld_iff : (f.isOpen || f.victim == 9 || f.copies.any (fun c => !c.2.2.isEmpty) || decide (0 < s.validUnits f) ||
    f.members.any s.blockPinned) = true ↔ s.victimHeld f := by
  simp [State.victimHeld, or_assoc]

theorem exec_victimErase_held (hf : s.formeBlock lane b = some f) (held : s.victimHeld f) : exec (.victimErase lane b) s = .next s := by
  rw [exec_victimErase hf, State.eraseVictim, if_pos (State.victimHeld_iff.2 held)]

/-- A block goes behind those whose dies have been suspended no more often. -/
def State.insertBySuspends (s : State) (acc : List MBlock) (m : MBlock) : List MBlock :=
  let n := (s.die m.die).suspLast
  acc.takeWhile (fun x => decide ((s.die x.die).suspLast ≤ n)) ++ [m] ++ acc.dropWhile fun x => decide ((s.die x.die).suspLast ≤ n)

/-- The order of issue only moves the blocks. -/
theorem State.eraseOrder_perm (s : State) (l : List MBlock) : (s.eraseOrder l).Perm l := by
  have inserted := foldl_insert_perm (f := s.insertBySuspends) (g := some) (fun acc m => by
    rw [State.insertBySuspends, List.append_assoc, List.singleton_append]
    exact List.perm_middle.trans (by rw [List.takeWhile_append_dropWhile]; exact .refl _)) l []
  rwa [List.filterMap_some, List.append_nil] at inserted

/-- A victim with nothing left is erased, all its members with it. -/
def FormeBlock.erased (members : List MBlock) (y : FormeBlock) : FormeBlock := { y with victim := 9, erasing := members, copies := [] }

/-- A victim's members wait for their erase. -/
def State.victimQueued (s : State) (f : FormeBlock) : State :=
  (s.onForme f.lane f.b (·.erased f.members)).onFlash fun x =>
    { x with eraseQueue := x.eraseQueue ++ (s.onForme f.lane f.b (·.erased f.members)).eraseOrder f.members }

theorem State.eraseVictim_sound (ended : ¬s.victimHeld f) (passed : f.failed = [])
    (serving : ∀ m ∈ f.members, s.dieCounts m.die = true) (held : f.members ≠ []) : s.eraseVictim f = s.victimQueued f := by
  have dead : f.members.filter (fun m => f.failed.contains m || !s.dieCounts m.die) = [] :=
    List.filter_eq_nil_iff.2 fun m hm => by simp [passed, serving m hm]
  rw [State.eraseVictim, if_neg (mt State.victimHeld_iff.1 ended), dead]
  simp [State.victimQueued, FormeBlock.erased, List.isEmpty_eq_false_iff.2 held]

theorem victimErase_queues (hf : s.formeBlock lane b = some f) (ended : ¬s.victimHeld f) (passed : f.failed = [])
    (serving : ∀ m ∈ f.members, s.dieCounts m.die = true) (held : f.members ≠ []) :
    Does (.victimErase lane b) s [.flash] [] fun t => t.flash.units = s.flash.units ∧
      (∀ m, m ∈ t.flash.eraseQueue ↔ m ∈ s.flash.eraseQueue ∨ m ∈ f.members) ∧
      ∃ g, t.formeBlock lane b = some g ∧ g.victim = 9 ∧ g.erasing = f.members := by
  obtain ⟨rfl, rfl⟩ := State.formeBlock_key hf
  refine does_of ((exec_victimErase hf).trans (congrArg _ (State.eraseVictim_sound ended passed serving held)))
    (((frame_onForme s _ _ _).trans (frame_onFlash _ _)).mono (by simp)) ⟨rfl, fun m => ?_, f.erased f.members, ?_, rfl, rfl⟩
  · rw [State.victimQueued, State.onFlash_flash, List.mem_append, (State.eraseOrder_perm _ _).mem_iff]
    rfl
  · exact State.onForme_formeBlock (g := (·.erased f.members)) (fun _ => ⟨rfl, rfl⟩) hf

end Sys2Proof.Machine
end

section
/-! The background plan of a forme (R221, R228, R268), and O40. -/

namespace Sys2Proof.Machine

open Sys2Proof.Safety

variable {s : State} {lane b : Nat} {f : FormeBlock}

theorem State.startMerges_ready {l : List (Nat × Slot)} (ready : ∀ x ∈ l, s.slotReady x.2 = true) : s.startMerges l = s :=
  foldl_same fun x hx => if_pos (by simp [ready x hx])

/-- A forme of an open forme-block may be planned: what waits for it needs no merge, and an accumulator, a forme, the table words and the
members' channels are there for it (R183, R220, R268). -/
structure State.MayPlan (s : State) (f : FormeBlock) : Prop where
  isOpen : f.isOpen = true
  merged : f.dredge = true ∨ ∀ x ∈ s.waitingSlots f.lane (some (s.formeHandle f)), s.slotReady x.2 = true
  units : s.formeUnits f ≠ []
  acc : s.accRoom = true
  room : f.next < s.unitsPerMb
  table : s.tableWritten f = true
  chans : ∀ m ∈ f.members, s.chanInPlan (m.die / 16) s.turn = true

namespace State.MayPlan

variable (may : s.MayPlan f)
include may

theorem noMerge : (if f.isOpen && !f.dredge then s.startMerges (s.waitingSlots f.lane (some (s.formeHandle f))) else s) = s := by
  rcases may.merged with dredge | ready
  · exact if_neg (by simp [dredge])
  · rw [State.startMerges_ready ready, ite_self]

theorem unhindered : (!f.isOpen || (s.formeUnits f).isEmpty || !s.accRoom || decide (s.unitsPerMb ≤ f.next) || !s.tableWritten f ||
    !f.members.all (fun m => s.chanInPlan (m.die / 16) s.turn)) ≠ true := by
  have chans : f.members.all (fun m => s.chanInPlan (m.die / 16) s.turn) = true := List.all_eq_true.2 may.chans
  simp [may.isOpen, may.units, may.acc, may.room, may.table, chans]

theorem planForme_held (held : ∃ m ∈ f.members, (s.die m.die).canHold = false) : s.planForme f = s.holdPlacing (s.formeUnits f) := by
  unfold State.planForme
  rw [may.noMerge]
  dsimp only
  rw [if_neg may.unhindered, if_pos (by simpa using held)]

theorem planForme_laid (free : ∀ m ∈ f.members, (s.die m.die).canHold = true) {w : List (Nat × Nat)} {ms : List FormeMember} {tr : Trial}
    (windows : s.dataIns (f.members.take 14) 64 (s.turn + 17) = some w)
    (laid : s.layProofs s.sluice.nextPlan f.lane (f.b * max 1 s.unitsPerMb + f.next) (s.planMembers f w).zipIdx ⟨s.sluice.bookings, []⟩ =
      .ok (ms, tr)) : s.planForme f = s.commitForme f (s.formeHandle f) (s.formePlan f (s.formeUnits f) ms) tr.bs := by
  unfold State.planForme
  rw [may.noMerge]
  dsimp only
  rw [if_neg may.unhindered, if_neg (by simpa using free), windows]
  dsimp only
  rw [laid]

end State.MayPlan

theorem exec_formeProgramPlan (hf : s.formeBlock lane b = some f) : exec (.formeProgramPlan lane b) s = .next (s.planForme f) := by
  show execFormeProgramPlan lane b s = _
  rw [execFormeProgramPlan, hf]

/-! ### A forme that waits (R221, R268) -/

/-- No slot of a forme that waits is RESIDENT. -/
theorem State.holdPlacing_slots (us : List Placing) : ∀ x ∈ (s.holdPlacing us).galley.slots, (∃ u ∈ us, x.1 ∈ u.slots) →
    x.2.state ≠ .resident := by
  intro x hx ⟨u, hu, carried⟩
  rw [State.holdPlacing, State.onGalley_galley] at hx
  obtain ⟨y, -, rfl⟩ := List.mem_map.1 hx
  split_ifs at carried ⊢ with resident
  · exact (nofun : SlotState.placing ≠ .resident)
  · intro same
    refine resident (Bool.and_eq_true_iff.2 ⟨List.any_eq_true.2 ⟨u, hu, ?_⟩, beq_iff_eq.2 same⟩)
    exact List.contains_iff_mem.2 carried

theorem formeProgramPlan_waits (hf : s.formeBlock lane b = some f) (may : s.MayPlan f)
    (held : ∃ m ∈ f.members, (s.die m.die).canHold = false) : Does (.formeProgramPlan lane b) s [.galley] [] fun t =>
      ∀ x ∈ t.galley.slots, (∃ u ∈ s.formeUnits f, x.1 ∈ u.slots) → x.2.state ≠ .resident :=
  does_of ((exec_formeProgramPlan hf).trans (congrArg _ (may.planForme_held held))) (frame_onGalley _ _) (State.holdPlacing_slots _)

/-! ### A forme that is planned (R228, R268) -/

theorem within_commitForme (handle : Nat) (p : FormePlan) (bs : List Booking) :
    Within [.flash, .galley, .sluice] [Reg.FRM_STATUS] s (s.commitForme f handle p bs) :=
  within_trans (within_trans (within_trans (within_trans (within_onFlash s _ (by simp)) (within_onFlash _ _ (by simp)))
    (within_onGalley _ _ (by simp))) (within_onSluice _ _ (by simp))) (within_setFld _ _ (List.mem_singleton_self _))

/-- The slots that a plan carries are in PLACING. -/
theorem State.commitForme_slots (handle : Nat) (p : FormePlan) (bs : List Booking) :
    ∀ x ∈ (s.commitForme f handle p bs).galley.slots, x.1 ∈ p.slots → x.2.state = .placing ∧ x.2.inFlight = true := by
  intro x hx carried
  obtain ⟨y, -, rfl⟩ := List.mem_map.1 (show x ∈ List.map _ s.galley.slots from hx)
  split_ifs at carried ⊢ with other
  · exact ⟨rfl, rfl⟩
  · exact absurd (List.contains_iff_mem.2 carried) other

theorem formeProgramPlan_commits (hf : s.formeBlock lane b = some f) (may : s.MayPlan f) (w : List (Nat × Nat)) (ms : List FormeMember)
    (tr : Trial) (free : ∀ m ∈ f.members, (s.die m.die).canHold = true) (windows : s.dataIns (f.members.take 14) 64 (s.turn + 17) = some w)
    (laid : s.layProofs s.sluice.nextPlan f.lane (f.b * max 1 s.unitsPerMb + f.next) (s.planMembers f w).zipIdx ⟨s.sluice.bookings, []⟩ =
      .ok (ms, tr)) : Changes (.formeProgramPlan lane b) s [.flash, .galley, .sluice] [Reg.FRM_STATUS] fun t =>
        ∃ p, t.flash.plans = s.flash.plans ++ [p] ∧ p.id = s.sluice.nextPlan ∧ p.lane = f.lane ∧ p.b = f.b ∧ p.off = f.next ∧ p.members = ms ∧
          t.sluice.bookings = tr.bs ∧ t.flash.accs = p.id :: s.flash.accs ∧ t.sluice.nextPlan = s.sluice.nextPlan + 1 ∧
          t.flash.units = s.flash.units ∧ ∀ x ∈ t.galley.slots, x.1 ∈ p.slots → x.2.state = .placing ∧ x.2.inFlight = true :=
  changes_of ((exec_formeProgramPlan hf).trans (congrArg _ (may.planForme_laid free windows laid))) (within_commitForme _ _ _)
    ⟨s.formePlan f (s.formeUnits f) ms, rfl, rfl, rfl, rfl, rfl, rfl, rfl, rfl, rfl, rfl, State.commitForme_slots _ _ _⟩

/-- Settles O40: each command, in each state that the statement tells apart, is a lemma above. -/
theorem dredgingMovesLiveUnits : Obligations.DredgingMovesLiveUnits := by
  unfold Obligations.DredgingMovesLiveUnits
  intro s lane b
  refine ⟨fun dredge hl => ⟨exec_formeBlockOpen_short dredge, formeBlockOpen_opens dredge hl⟩, fun f hf => ⟨?_, ?_, exec_victimErase_held hf, ?_, ?_⟩⟩
  · intro k x may written pl fresh hx whole live
    exact dredgeCopy_reads hx whole live hf may written rfl rfl fresh
  · intro pl m x u rest hx whole live done
    exact State.dredgeEnd_copies hx whole live hf done rest
  · intro closed fresh resolved dead unread
    refine victimErase_queues hf ?_
    rintro (isOpen | erased | ⟨c, hc, pending⟩ | valid | ⟨m, hm, pinned⟩)
    · exact Bool.false_ne_true (closed.symm.trans isOpen)
    · exact fresh erased
    · exact pending (resolved c hc)
    · exact valid.ne' dead
    · exact Bool.false_ne_true ((unread m hm).symm.trans pinned)
  · intro isOpen merged units acc room table chans
    have may : s.MayPlan f := ⟨isOpen, merged, units, acc, room, table, chans⟩
    exact ⟨formeProgramPlan_waits hf may, formeProgramPlan_commits hf may⟩

end Sys2Proof.Machine
end

section
/-! Decodes, read-disturb probes and patrol reads (R157, R250 to R252, R264 to R266, R275), and O39. -/

namespace Sys2Proof.Machine

open Sys2Proof.Safety

variable {s : State}

/-! ### Lists with some elements replaced -/

theorem mem_updIf_of_not {α : Type} {p : α → Bool} {f : α → α} {l : List α} {x : α} (h : x ∈ l) (hp : p x = false) :
    x ∈ updIf p f l := by
  rw [updIf_eq_map]
  exact List.mem_map.2 ⟨x, h, if_neg (ne_true_of_eq_false hp)⟩

/-! ### A decode that ends (R157, R250) -/

/-- The mask of the removed decoders of a pool (R251). -/
def decodersOut (soft : Bool) : Fld := if soft then Reg.LDP_SOFT_OUT_OUT else Reg.LDP_HARD_OUT_OUT

/-- The counter of a pool's passes (R250). -/
def decodePasses (soft : Bool) : Fld := if soft then Reg.LDP_SOFT_PASS_COUNT else Reg.LDP_HARD_PASS_COUNT

/-- The counter of a pool's failures (R250). -/
def decodeFails (soft : Bool) : Fld := if soft then Reg.LDP_SOFT_FAIL_COUNT else Reg.LDP_HARD_FAIL_COUNT

section
variable {job : DecodeJob}

theorem exec_decodeComplete_removed (removed : s.fld (decodersOut job.soft) / 2 ^ job.decoder % 2 = 1) (r : DecodeResult) :
    exec (.decodeComplete job r) s = .next s :=
  congrArg Host.Outcome.next (if_pos removed)

theorem exec_decodeComplete_present (present : s.fld (decodersOut job.soft) / 2 ^ job.decoder % 2 = 0) (r : DecodeResult) :
    exec (.decodeComplete job r) s = .next (s.decodeDone job r) :=
  congrArg Host.Outcome.next (if_neg (ne_of_eq_of_ne present zero_ne_one))

/-- A pass with no corrected bit at L0 counts, and teaches firmware nothing. -/
theorem State.decoded_clean (clean : job.step = 0) : s.decoded job.soft job.decoder job.step job.die job.block job.page job.cw.val (.pass 0) =
    (true, (s.addFld (decodePasses job.soft) 1).onFlash fun x => { x with ladder := updAt (· + 1) 0 x.ladder }) := by
  simp [State.decoded, decodePasses, clean]

/-- A codeword that passed is one of the passed codewords of each read that it belongs to. -/
theorem markDecoded_passed {r : DieRead} (die : (markDecoded job true r).die = job.die) (block : (markDecoded job true r).block = job.block)
    (page : (markDecoded job true r).page = job.page) (asked : job.cw.val ∈ (markDecoded job true r).cws)
    (alive : (markDecoded job true r).phase ≠ .failed) : job.cw.val ∈ (markDecoded job true r).passed := by
  revert die block page asked alive
  rw [markDecoded]
  split
  · exact fun _ _ _ _ _ => List.mem_cons_self
  · next other =>
    intro die block page asked alive
    by_contra fresh
    exact other (by simp [die, block, page, asked, alive, fresh])

/-- A forme's plan with a passed decode taken. -/
def FormePlan.proved (job : DecodeJob) (p : FormePlan) : FormePlan := { p with members := p.members.map (FormeMember.decoded job true) }

/-- The plan of reads that a decode serves, replaced. -/
def State.replacePlan (s : State) (id : Nat) (served : Plan → Plan) : State :=
  s.onSluice fun x => { x with plans := updIf (fun p => p.id == id) served x.plans }

/-- A passed decode reaches the plan of reads and the forme's plan that it serves. -/
theorem State.decodeDone_passed {res : DecodeResult} {q : State}
    (h : s.decoded job.soft job.decoder job.step job.die job.block job.page job.cw.val res = (true, q)) : ∃ served,
      s.decodeDone job res = (q.replacePlan job.plan served).onFlash fun x =>
        { x with plans := updIf (fun p => p.id == job.plan) (FormePlan.proved job) x.plans } := by
  unfold State.decodeDone
  rw [h]
  exact ⟨_, rfl⟩

/-- A decode that did not pass reaches the plan of reads that it serves, and ends the proof read that it was part of. -/
theorem State.decodeDone_failed {res : DecodeResult} {q : State}
    (h : s.decoded job.soft job.decoder job.step job.die job.block job.page job.cw.val res = (false, q)) : ∃ served,
      s.decodeDone job res = (q.replacePlan job.plan served).proofReadFailed job := by
  unfold State.decodeDone
  rw [h]
  exact ⟨_, rfl⟩

@[simp] theorem State.replacePlan_flash (s : State) (id : Nat) (served : Plan → Plan) : (s.replacePlan id served).flash = s.flash := (rfl)

@[simp] theorem State.replacePlan_fld (s : State) (id : Nat) (served : Plan → Plan) (f : Fld) : (s.replacePlan id served).fld f = s.fld f := (rfl)

theorem State.replacePlan_others {p : Plan} (hp : p ∈ s.sluice.plans) {id : Nat} (other : p.id ≠ id) (served : Plan → Plan) :
    p ∈ (s.replacePlan id served).sluice.plans :=
  mem_updIf_of_not hp (by simpa using other)

theorem FormePlan.proved_passed {p : FormePlan} {m : FormeMember} (hm : m ∈ (p.proved job).members) {c : Chain} (hc : m.proof = some c)
    {r : DieRead} (hr : r ∈ c.reads) (die : r.die = job.die) (block : r.block = job.block) (page : r.page = job.page)
    (asked : job.cw.val ∈ r.cws) (alive : r.phase ≠ .failed) : job.cw.val ∈ r.passed := by
  obtain ⟨m, -, rfl⟩ := List.mem_map.1 hm
  obtain ⟨c, -, rfl⟩ := Option.map_eq_some_iff.1 hc
  obtain ⟨r, -, rfl⟩ := List.mem_map.1 hr
  exact markDecoded_passed die block page asked alive

theorem decodeComplete_clean (present : s.fld (decodersOut job.soft) / 2 ^ job.decoder % 2 = 0) (clean : job.step = 0) :
    Does (.decodeComplete job (.pass 0)) s [.flash, .sluice] [plus s (decodePasses job.soft) 1] fun t =>
      (∀ p ∈ t.flash.plans, p.id = job.plan → ∀ m ∈ p.members, ∀ c, m.proof = some c → ∀ r ∈ c.reads, r.die = job.die →
        r.block = job.block → r.page = job.page → job.cw.val ∈ r.cws → r.phase ≠ .failed → job.cw.val ∈ r.passed) ∧
      ∀ p ∈ s.sluice.plans, p.id ≠ job.plan → p ∈ t.sluice.plans := by
  obtain ⟨served, done⟩ := State.decodeDone_passed (State.decoded_clean (s := s) clean)
  refine does_of ((exec_decodeComplete_present present _).trans (congrArg _ done))
    (((((frame_addFld s _ 1).trans (frame_onFlash _ _)).trans (frame_onSluice _ _)).trans (frame_onFlash _ _)).mono (by simp)) ⟨?_, ?_⟩
  · intro p hp serves m hm c hc r hr
    rcases mem_updIf hp with ⟨q, -, -, rfl⟩ | ⟨-, other⟩
    · exact FormePlan.proved_passed hm hc hr
    · exact absurd serves (by simpa using other)
  · exact fun p hp other => State.replacePlan_others hp other served

/-! ### A decode that fails (R252) -/

/-- The count of a failed L0 decode in its Dellux cell changes the cells alone. -/
theorem State.countL0Fail_eq (die block off : Nat) :
    s.countL0Fail die block off = s ∨ ∃ cells, s.countL0Fail die block off = s.onFlash fun y => { y with cells := cells } := by
  unfold State.countL0Fail
  split
  · exact .inl rfl
  · dsimp only
    split
    · exact .inl rfl
    · exact .inr ⟨_, rfl⟩

theorem within_report {P : List Part} {R : List Nat} (s : State) (kind step die block page cw bits : Nat) (hP : Part.bytes ∈ P)
    (ring : Reg.LDP_MR_PTR ∈ R) (event : Reg.LDP_EVENT ∈ R) : Within P R s (s.report kind step die block page cw bits) := by
  have poked (a v : Nat) : Within P R s (s.poke a 16 v) :=
    within_of_frame (frame_poke s _ _ _) (List.cons_subset.2 ⟨hP, List.nil_subset _⟩) nofun
  have taken (t : State) (v : Nat) : Within P R t (t.setFld Reg.LDP_MR_PTR_TAIL v) := within_setFld t _ ring
  rw [State.report]
  dsimp only
  split
  · exact within_setFld s _ event
  · exact within_trans (poked _ _) (taken _ _)

/-- The Dellux count that a failed decode makes at L0 of the hard farm (Table 07.11). -/
def State.missed (s : State) (job : DecodeJob) : State :=
  if job.step = 0 && !job.soft then s.countL0Fail job.die job.block job.page else s

theorem State.missed_eq (job : DecodeJob) : s.missed job = s ∨ ∃ cells, s.missed job = s.onFlash fun y => { y with cells := cells } := by
  unfold State.missed
  split
  · exact State.countL0Fail_eq _ _ _
  · exact .inl rfl

theorem within_missed (job : DecodeJob) {P : List Part} {R : List Nat} (hP : Part.flash ∈ P) : Within P R s (s.missed job) := by
  rcases State.missed_eq (s := s) job with h | ⟨cells, h⟩ <;> rw [h]
  · exact within_refl _ _ _
  · exact within_onFlash s _ hP

theorem State.missed_plans (job : DecodeJob) : (s.missed job).flash.plans = s.flash.plans := by
  rcases State.missed_eq (s := s) job with h | ⟨cells, h⟩ <;> rw [h]
  rfl

/-- The report of a failed decode (R252). -/
def State.reportFail (s : State) (job : DecodeJob) (page : Nat) : State :=
  s.report (if job.soft then 3 else 2) job.step job.die job.block page job.cw 0xFFFF

theorem within_reportFail {P : List Part} (page : Nat) (hP : Part.bytes ∈ P) :
    Within P [Reg.LDP_MR_PTR, Reg.LDP_EVENT] s (s.reportFail job page) :=
  within_report s _ _ _ _ _ _ _ hP (by simp) (by simp)

/-- A failed decode, counted and reported. -/
def State.failCounted (s : State) (job : DecodeJob) : State :=
  ((s.missed job).addFld (decodeFails job.soft) 1).reportFail job (s.pageOf job.page)

theorem State.failCounted_plans : (s.failCounted job).flash.plans = s.flash.plans :=
  (congrArg Flash.plans ((within_reportFail (P := [.bytes]) _ (by simp)).1 .flash (by simp))).trans (State.missed_plans job)

theorem within_failCounted : Within [.flash, .bytes] [(decodeFails job.soft).addr, Reg.LDP_MR_PTR, Reg.LDP_EVENT] s (s.failCounted job) :=
  within_trans (within_trans (within_missed job (by simp)) (within_addFld _ 1 (by simp))) (within_mono (within_reportFail _ (by simp))
    (List.Subset.refl _) (by simp))

/-- The counter of failures is no register of the report, and takes one more, as far as it goes. -/
theorem State.failCounted_count : (s.failCounted job).fld (decodeFails job.soft) =
    min (2 ^ (decodeFails job.soft).width - 1) (s.fld (decodeFails job.soft) + 1) := by
  have whole : (decodeFails job.soft).lsb + (decodeFails job.soft).width ≤ 32 := by cases job.soft <;> decide
  have apart : (decodeFails job.soft).addr ∉ [Reg.LDP_MR_PTR, Reg.LDP_EVENT] := by cases job.soft <;> decide
  have before : (s.missed job).fld (decodeFails job.soft) = s.fld (decodeFails job.soft) :=
    within_fld (within_missed (P := [.flash]) (R := []) job (by simp)) (by simp)
  rw [State.failCounted, within_fld (within_reportFail (P := [.bytes]) _ (by simp)) apart, State.addFld, State.fld_setFld_same _ _ _ whole, before]
  exact Nat.mod_eq_of_lt (by have := Nat.two_pow_pos (decodeFails job.soft).width; omega)

theorem State.decoded_fail :
    s.decoded job.soft job.decoder job.step job.die job.block job.page job.cw.val .fail = (false, s.failCounted job) := by
  simp only [State.decoded, State.failCounted, State.reportFail, State.missed, decodeFails]

theorem State.proofReadFailed_none (none : s.flash.plans = []) : s.proofReadFailed job = s := by
  rw [State.proofReadFailed, none]
  rfl

theorem decodeComplete_fail (present : s.fld (decodersOut job.soft) / 2 ^ job.decoder % 2 = 0) (none : s.flash.plans = []) :
    Changes (.decodeComplete job .fail) s [.flash, .bytes, .sluice] [(decodeFails job.soft).addr, Reg.LDP_MR_PTR, Reg.LDP_EVENT] fun t =>
      t.fld (decodeFails job.soft) = min (2 ^ (decodeFails job.soft).width - 1) (s.fld (decodeFails job.soft) + 1) ∧
        ∀ p ∈ s.sluice.plans, p.id ≠ job.plan → p ∈ t.sluice.plans := by
  obtain ⟨served, done⟩ := State.decodeDone_failed (State.decoded_fail (s := s) (job := job))
  have sluice : (s.failCounted job).sluice = s.sluice := (within_failCounted (s := s) (job := job)).1 .sluice (by simp)
  have noProof : ((s.failCounted job).replacePlan job.plan served).flash.plans = [] := by
    rw [State.replacePlan_flash, State.failCounted_plans, none]
  rw [State.proofReadFailed_none noProof] at done
  refine changes_of ((exec_decodeComplete_present present _).trans (congrArg _ done))
    (within_trans (within_mono within_failCounted (by simp) (List.Subset.refl _)) (within_onSluice _ _ (by simp)))
    ⟨?_, fun p hp other => State.replacePlan_others ?_ other served⟩
  · rw [State.replacePlan_fld, State.failCounted_count]
  · rw [sluice]
    exact hp

end

/-! ### READ_DISTURB_PROBE (R264, R265) -/

section
variable {f : FormeBlock} {d : Fin 1024} {block cw : Nat}

/-- A probe's reads: one codeword at the first, the middle and the last offset written. -/
def State.probeReads (s : State) (f : FormeBlock) (die block cw : Nat) : List UnitRead :=
  [0, f.next / 2, f.next - 1].map fun o => codewordRead f.lane (f.b * max 1 s.unitsPerMb + o) (f.memberAt ⟨die, block⟩) (cw % 4)

theorem readDisturbProbe_plans (hf : s.fbOf d block = some f) (written : f.next ≠ 0) :
    Does (.readDisturbProbe d block cw) s [.flash, .sluice] [] fun t =>
      (t.blockInfo d block).probes = (s.blockInfo d block).probes + 1 ∧ t.flash.formeBlocks = s.flash.formeBlocks ∧
        ∃ p, t.sluice = { s.sluice with plans := s.sluice.plans ++ [p], nextPlan := s.sluice.nextPlan + 1 } ∧ p.id = s.sluice.nextPlan ∧
          p.work = some (.probe d block false) ∧ p.limit = none ∧ p.reads.length = 3 := by
  have run : exec (.readDisturbProbe d block cw) s =
      .next ((s.startWork (.probe d block false) (s.probeReads f d block cw)).onBlock d block fun b => { b with probes := b.probes + 1 }) := by
    refine congrArg Host.Outcome.next ?_
    rw [State.probe, hf]
    exact if_neg written
  exact does_of run (((frame_onSluice s _).trans (frame_onFlash _ _)).mono (by simp))
    ⟨congrArg BlockInfo.probes (State.onBlock_blockInfo _ _ _ _), rfl, _, rfl, rfl, rfl, rfl, rfl⟩

theorem readDisturbProbe_unwritten (h : s.fbOf d block = none ∨ ∃ f, s.fbOf d block = some f ∧ f.next = 0) :
    exec (.readDisturbProbe d block cw) s = .next s := by
  show Host.Outcome.next (s.probe d block cw) = _
  rcases h with free | ⟨f, hf, unwritten⟩
  · rw [State.probe, free]
  · rw [State.probe, hf]
    exact congrArg _ (if_pos unwritten)

/-- The read counter takes half the limit (R265). -/
theorem State.probeEnd_clean {us : List UnitRead} (passed : ∀ u ∈ us, u.failedL0 = false) (again : (s.blockInfo d block).probes < 4) :
    (s.probeEnd us d block false).peek (s.rdAddr d block) 4 = s.fld Reg.LDP_RD_LIMIT_LIMIT / 2 ∧
      (s.probeEnd us d block false).flash = s.flash := by
  have reset : s.probeEnd us d block false = s.poke (s.rdAddr d block) 4 (s.fld Reg.LDP_RD_LIMIT_LIMIT / 2) := by
    rw [State.probeEnd, if_neg (by simpa using ⟨passed, again⟩)]
  rw [reset, State.peek_poke_same]
  exact ⟨Nat.mod_eq_of_lt ((Nat.div_le_self _ 2).trans_lt (s.fld_lt Reg.LDP_RD_LIMIT_LIMIT)), rfl⟩

/-- A refresh victim, or one of a class that stands before it. -/
theorem State.makeVictim_refresh {die : Nat} (hf : f ∈ (s.makeVictim die block 2).flash.formeBlocks)
    (holds : (f.has fun m => m == ⟨die, block⟩) = true) : f.isOpen = false ∧ (f.victim = 1 ∨ f.victim = 2 ∨ f.victim = 9) := by
  rcases mem_updIf hf with ⟨g, -, -, rfl⟩ | ⟨-, other⟩
  · refine ⟨rfl, ?_⟩
    dsimp only
    split_ifs with up
    · exact .inr (.inl rfl)
    · simp only [Bool.or_eq_true, Bool.and_eq_true, decide_eq_true_eq, bne_iff_ne, not_or, not_and, not_not] at up
      omega
  · exact absurd holds (ne_true_of_eq_false other)

theorem State.probeEnd_victim {us : List UnitRead} {high : Bool}
    (h : high = true ∨ (∃ u ∈ us, u.failedL0 = true) ∨ 4 ≤ (s.blockInfo d block).probes) :
    s.probeEnd us d block high = s.makeVictim d block 2 := by
  rw [State.probeEnd, if_pos (by simpa [or_assoc] using h)]

/-! ### PATROL_CYCLE (R266) -/

variable {page : Nat} {res : PatrolSample}

theorem patrolCycle_unheld (free : s.fbOf d block = none) : exec (.patrolCycle d block page res) s = .next s := by
  show Host.Outcome.next (s.patrolRead d block page res.cw res.below res.trims) = _
  rw [State.patrolRead, free]

theorem patrolCycle_skips (hf : s.fbOf d block = some f)
    (h : f.isOpen = true ∨ f.next ≤ page ∨ s.patrolPage page = false ∨ s.validUnits f = 0) :
    exec (.patrolCycle d block page res) s = .next s := by
  show Host.Outcome.next (s.patrolRead d block page res.cw res.below res.trims) = _
  rw [State.patrolRead, hf]
  exact congrArg _ (if_pos (by simpa [or_assoc] using h))

theorem patrolCycle_plans (hf : s.fbOf d block = some f) (closed : f.isOpen = false) (written : page < f.next)
    (sampled : s.patrolPage page = true) (mapped : s.validUnits f ≠ 0) :
    Does (.patrolCycle d block page res) s [.sluice] [] fun t =>
      ∃ p, t.sluice = { s.sluice with plans := s.sluice.plans ++ [p], nextPlan := s.sluice.nextPlan + 1 } ∧ p.id = s.sluice.nextPlan ∧
        p.work = some (.patrol d block res.below res.trims) ∧ p.limit = none ∧ p.reads.length = 1 := by
  have run : exec (.patrolCycle d block page res) s = .next (s.startWork (.patrol d block res.below res.trims)
      [codewordRead f.lane (f.b * max 1 s.unitsPerMb + page) (f.memberAt ⟨d, block⟩) (res.cw % 4)]) := by
    refine congrArg Host.Outcome.next ?_
    rw [State.patrolRead, hf]
    exact if_neg (by simp [closed, written, sampled, mapped])
  exact does_of run (frame_onSluice s _) ⟨_, rfl, rfl, rfl, rfl, rfl⟩

end

/-- Settles O39: each command, in each state that the statement tells apart, is a lemma above. -/
theorem decodesProbesAndPatrols : Obligations.DecodesProbesAndPatrols := by
  unfold Obligations.DecodesProbesAndPatrols
  intro s job d block page cw
  refine ⟨fun r removed => exec_decodeComplete_removed removed r, decodeComplete_clean, decodeComplete_fail,
    fun _ hf written => readDisturbProbe_plans hf written, readDisturbProbe_unwritten, fun us high => ⟨?_, ?_⟩,
    fun below trims => ⟨patrolCycle_unheld, fun _ hf => ⟨patrolCycle_skips hf, patrolCycle_plans hf⟩⟩⟩
  · rintro rfl passed again
    exact State.probeEnd_clean passed again
  · intro h f hf holds
    rw [State.probeEnd_victim h] at hf
    exact State.makeVictim_refresh hf holds

end Sys2Proof.Machine
end

section
/-! Words of setup registers: the fields of a register share no bit, so that a write or a read changes each by its own type (R17, R492,
R493). -/

namespace Sys2Proof.Machine

open Sys2Proof.Safety

/-! ### The fields of a register -/

/-- A field that lies above another one. -/
def FieldDesc.below (f g : FieldDesc) : Prop := f.lsb + f.width ≤ g.lsb

/-- A field that lies in a word of 32 bits. -/
def FieldDesc.fits (f : FieldDesc) : Prop := f.lsb + f.width ≤ 32

/-- The value of a field in a word. -/
def FieldDesc.of (f : FieldDesc) (w : Word) : Nat := bitsOf w f.lsb f.width

/-- The fields of a register lie in its word, in rising order and with no bit in common. -/
def RegDesc.laidOut (r : RegDesc) : Prop := (∀ f ∈ r.fields, f.fits) ∧ r.fields.Pairwise FieldDesc.below

theorem forall_mem_list_ite {α : Type} {P : α → Prop} {c : Prop} [Decidable c] {l m : List α} (hl : ∀ x ∈ l, P x) (hm : ∀ x ∈ m, P x) :
    ∀ x ∈ if c then l else m, P x := by
  split
  · exact hl
  · exact hm

theorem blockRegs_laidOut (a : Nat) : ∀ r ∈ blockRegs a, r.laidOut := by
  unfold blockRegs
  repeat' apply forall_mem_list_ite
  all_goals
    unfold RegDesc.laidOut FieldDesc.fits FieldDesc.below
    decide +kernel

theorem regAt_laidOut {a : Nat} {r : RegDesc} (h : regAt a = some r) : r.laidOut := blockRegs_laidOut a r (List.mem_of_find?_eq_some h)

/-- An update of a word, field by field: that of a field turns the field's value by `φ` and leaves the fields that share no bit with it. -/
structure UpdatesField (step : Word → FieldDesc → Word) (φ : FieldDesc → Nat → Nat) : Prop where
  own : ∀ (w : Word) (f : FieldDesc), f.fits → f.of (step w f) = φ f (f.of w)
  above : ∀ (w : Word) (f g : FieldDesc), f.fits → f.below g → g.of (step w f) = g.of w
  below : ∀ (w : Word) (f g : FieldDesc), f.fits → g.below f → g.of (step w f) = g.of w

section
variable {step : Word → FieldDesc → Word} {φ : FieldDesc → Nat → Nat} (h : UpdatesField step φ)
include h

theorem UpdatesField.foldl_below {fs : List FieldDesc} (fit : ∀ f ∈ fs, f.fits) {g : FieldDesc} (low : ∀ f ∈ fs, g.below f) (w : Word) :
    g.of (fs.foldl step w) = g.of w := by
  induction fs generalizing w with
  | nil => rfl
  | cons f fs ih =>
    rw [List.foldl_cons, ih (fun x hx => fit x (List.mem_cons_of_mem _ hx)) fun x hx => low x (List.mem_cons_of_mem _ hx)]
    exact h.below w f g (fit f List.mem_cons_self) (low f List.mem_cons_self)

/-- Each field is turned once, whatever the update makes of the others. -/
theorem UpdatesField.foldl {fs : List FieldDesc} (fit : ∀ f ∈ fs, f.fits) (apart : fs.Pairwise FieldDesc.below) {g : FieldDesc} (hg : g ∈ fs)
    (w : Word) : g.of (fs.foldl step w) = φ g (g.of w) := by
  induction fs generalizing w with
  | nil => cases hg
  | cons f fs ih =>
    obtain ⟨low, apart⟩ := List.pairwise_cons.1 apart
    have fits : f.fits := fit f List.mem_cons_self
    have rest : ∀ f ∈ fs, f.fits := fun x hx => fit x (List.mem_cons_of_mem _ hx)
    rw [List.foldl_cons]
    rcases List.mem_cons.1 hg with rfl | hg
    · rw [h.foldl_below rest low, h.own w g fits]
    · rw [ih rest apart hg, h.above w f g fits (low g hg)]

end

/-- Field updates that put a value, or leave the word as it is. -/
theorem updatesField_of_put {step : Word → FieldDesc → Word} {φ : FieldDesc → Nat → Nat}
    (h : ∀ w f, (∃ v, step w f = putBits w f.lsb f.width v ∧ φ f (f.of w) = v % 2 ^ f.width) ∨ step w f = w ∧ φ f (f.of w) = f.of w) :
    UpdatesField step φ where
  own w f fits := by
    rcases h w f with ⟨v, hs, hv⟩ | ⟨hs, hv⟩ <;> rw [hs, hv]
    exact bitsOf_putBits_self _ _ _ _ fits
  above w f g fits low := by
    rcases h w f with ⟨v, hs, -⟩ | ⟨hs, -⟩ <;> rw [hs]
    exact bitsOf_putBits_above _ _ _ _ _ _ fits low
  below w f g fits low := by
    rcases h w f with ⟨v, hs, -⟩ | ⟨hs, -⟩ <;> rw [hs]
    exact bitsOf_putBits_below _ _ _ _ _ _ fits low

/-! ### A write (R17, R493) -/

/-- A field that held `o`, after a write of `n` to it. -/
def FieldDesc.written (bootMode : Bool) (f : FieldDesc) (n o : Nat) : Nat :=
  match f.type with
  | .rw => n
  | .boot => if bootMode then n else o
  | .w1c => o &&& (2 ^ f.width - 1 - n)
  | .w1s => o ||| n
  | .ro | .rc | .wo | .rwe | .rsvd => o

theorem updatesField_writeField (bootMode : Bool) (v : Word) : UpdatesField (writeField bootMode v) fun f o => f.written bootMode (f.of v) o := by
  refine updatesField_of_put fun w f => ?_
  have old : f.of w < 2 ^ f.width := bitsOf_lt _ _ _
  have new : f.of v < 2 ^ f.width := bitsOf_lt _ _ _
  unfold writeField FieldDesc.written
  cases f.type
  case rw => exact .inl ⟨_, rfl, (Nat.mod_eq_of_lt new).symm⟩
  case boot =>
    cases bootMode
    · exact .inr ⟨rfl, rfl⟩
    · exact .inl ⟨_, rfl, (Nat.mod_eq_of_lt new).symm⟩
  case w1c => exact .inl ⟨_, rfl, (Nat.mod_eq_of_lt (Nat.and_le_left.trans_lt old)).symm⟩
  case w1s => exact .inl ⟨_, rfl, (Nat.mod_eq_of_lt (Nat.or_lt_two_pow old new)).symm⟩
  all_goals exact .inr ⟨rfl, rfl⟩

theorem bitsOf_writeWord {r : RegDesc} (laid : r.laidOut) {f : FieldDesc} (hf : f ∈ r.fields) (bootMode : Bool) (old v : Word) :
    bitsOf (writeWord bootMode r old v) f.lsb f.width = f.written bootMode (bitsOf v f.lsb f.width) (bitsOf old f.lsb f.width) :=
  (updatesField_writeField bootMode v).foldl laid.1 laid.2 hf old

/-! ### A read (R493) -/

/-- A word with its RC fields cleared. -/
def RegDesc.clearedRc (r : RegDesc) (w : Word) : Word :=
  r.fields.foldl (fun w f => if f.type == .rc then putBits w f.lsb f.width 0 else w) w

theorem bitsOf_clearedRc {r : RegDesc} (laid : r.laidOut) {f : FieldDesc} (hf : f ∈ r.fields) (w : Word) :
    bitsOf (r.clearedRc w) f.lsb f.width = if f.type = .rc then 0 else bitsOf w f.lsb f.width := by
  have updates : UpdatesField (fun w f => if f.type == .rc then putBits w f.lsb f.width 0 else w) fun f o => if f.type = .rc then 0 else o := by
    refine updatesField_of_put fun w f => ?_
    by_cases rc : f.type = .rc
    · exact .inl ⟨0, by simp [rc]⟩
    · exact .inr (by simp [rc])
  exact updates.foldl laid.1 laid.2 hf w

end Sys2Proof.Machine
end

section
/-! REGISTER_WRITE, DLX_NOW_WRITE, IRQ_ENABLE_WRITE, PAIR_LO_READ and RC_FIELD_READ (R17, R255, R278, R489, R491 to R493, R496, R504),
and O27. -/

namespace Sys2Proof.Machine

open Sys2Proof.Safety

variable {s : State} {client a : Nat} {v : Word}

theorem State.bootMode_iff (s : State) : s.bootMode = true ↔ s.power.mode = .boot ∨ s.power.mode = .recovery := by
  simp [State.bootMode]

@[simp] theorem State.restartIdle_bootMode (n : Fin 24) : (s.restartIdle n).bootMode = s.bootMode := (rfl)

/-! ### The typed write of a register (R17, R492, R493) -/

theorem within_setWord (P : List Part) (s : State) (a : Nat) (w : Word) : Within P [a] s (s.setWord a w) :=
  ⟨fun p _ => by cases p <;> simp [Part.same], fun b hb => by
    rw [State.word_setWord, if_neg fun e => hb (List.mem_singleton.2 e.symm)]⟩

theorem State.regWrite_reserved (none : regAt a = none) : s.regWrite client a v = s.logWrite client a v := by
  rw [State.regWrite, none]

section
variable {r : RegDesc} (hr : regAt a = some r)
include hr

theorem State.regWrite_eq : s.regWrite client a v =
    if writeLogged s.bootMode r v then ((s.holdWord a).setWord a (writeWord s.bootMode r (s.word a) v)).logWrite client a v
      else (s.holdWord a).setWord a (writeWord s.bootMode r (s.word a) v) := by
  have mode : ((s.holdWord a).setWord a (writeWord s.bootMode r (s.word a) v)).bootMode = s.bootMode := by
    rw [State.bootMode, State.setWord_power, State.holdWord_power, State.bootMode]
  rw [State.regWrite, hr]
  dsimp only
  rw [mode]

theorem State.regWrite_word : (s.regWrite client a v).word a = writeWord s.bootMode r (s.word a) v := by
  have set : ((s.holdWord a).setWord a (writeWord s.bootMode r (s.word a) v)).word a = writeWord s.bootMode r (s.word a) v := by
    rw [State.word_setWord, if_pos rfl]
  rw [State.regWrite_eq hr]
  split <;> exact set

theorem within_regWrite : Within [.edgeRegs, .log] [a] s (s.regWrite client a v) := by
  have set (w : Word) : Within [.edgeRegs, .log] [a] s ((s.holdWord a).setWord a w) :=
    within_trans (within_holdWord s a (by simp)) (within_setWord _ _ _ _)
  rw [State.regWrite_eq hr]
  split
  · exact within_trans (set _) (within_of_frame (frame_logWrite _ _ _ _) (by simp) nofun)
  · exact set _

end

/-- A write is logged that sets a reserved bit, or meets an RWE field, or a Boot field outside Boot and Recovery. -/
theorem writeLogged_iff {r : RegDesc} : writeLogged s.bootMode r v = true ↔ ∃ f ∈ r.fields,
    f.type = .rsvd ∧ bitsOf v f.lsb f.width ≠ 0 ∨ f.type = .rwe ∨ f.type = .boot ∧ s.power.mode ≠ .boot ∧ s.power.mode ≠ .recovery := by
  rw [writeLogged, List.any_eq_true]
  refine exists_congr fun f => and_congr_right fun _ => ?_
  cases f.type
  case rsvd => simp
  case boot => simp [State.bootMode]
  all_goals simp

/-! ### REGISTER_WRITE (R489, R491 to R493) -/

theorem ite_some_eq_none {α : Type} {c : Prop} [Decidable c] {x : α} {o : Option α} : (if c then some x else o) = none ↔ ¬c ∧ o = none := by
  split_ifs with h <;> simp [h]

/-- Whether a single register has a rule of its own depends on the mode at most. -/
theorem State.singleWrite_restartIdle_none (n : Fin 24) : (s.restartIdle n).singleWrite client a v = none ↔ s.singleWrite client a v = none := by
  simp only [State.singleWrite, ite_some_eq_none, State.restartIdle_bootMode]

/-- Whether a register of an array has a rule of its own depends on its offset alone. -/
theorem State.arrayWrite_none (t : State) (h : s.arrayWrite client a v = none) : t.arrayWrite client a v = none := by
  unfold State.arrayWrite at h ⊢
  repeat (split at h; · cases h)
  split_ifs at h ⊢
  all_goals rfl

theorem State.routedWrite_plain (single : s.singleWrite client a v = none) (array : s.arrayWrite client a v = none) :
    s.routedWrite client a v = s.regWrite client a v := by
  unfold State.routedWrite
  rw [single]
  dsimp only
  rw [array]

section
variable {width : Nat} (bound : a < 2 ^ 26)
include bound

theorem exec_registerWrite_bar2 (bar2 : viaBar2 client = true) :
    exec (.registerWrite client a v width) s = .next (s.logWrite client a v) := by
  show execRegisterWrite client a v width s = _
  rw [execRegisterWrite, Nat.mod_eq_of_lt bound]
  exact congrArg _ (if_pos bar2)

theorem exec_registerWrite_misaligned (bus : viaBar2 client = false) (odd : a % 4 ≠ 0) (proc : isProcessor client = true) :
    exec (.registerWrite client a v width) s = .next { s with answer := some (.storeFault client (0x20000000 + a)) } := by
  show execRegisterWrite client a v width s = _
  rw [execRegisterWrite, Nat.mod_eq_of_lt bound]
  exact congrArg _ ((if_neg (ne_true_of_eq_false bus)).trans ((if_pos odd).trans (if_pos proc)))

theorem exec_registerWrite_narrow (bus : viaBar2 client = false) (aligned : a % 4 = 0) (narrow : width ≠ 4) :
    exec (.registerWrite client a v width) s = .next (s.logWrite client a v) := by
  show execRegisterWrite client a v width s = _
  rw [execRegisterWrite, Nat.mod_eq_of_lt bound]
  exact congrArg _ ((if_neg (ne_true_of_eq_false bus)).trans ((if_neg (not_not.2 aligned)).trans (if_pos narrow)))

/-- A write of a whole word of a register without a rule of its own is the typed write. -/
theorem exec_registerWrite_plain (aligned : a % 4 = 0) (h : reaches s client a) (single : s.singleWrite client a v = none)
    (array : s.arrayWrite client a v = none) :
    exec (.registerWrite client a v 4) s = .next ((s.restartIdle (blockDomain a)).regWrite client a v) := by
  show execRegisterWrite client a v 4 s = _
  rw [execRegisterWrite, Nat.mod_eq_of_lt bound]
  refine congrArg _ ((if_neg (ne_true_of_eq_false h.1)).trans ((if_neg (not_not.2 aligned)).trans ((if_neg (not_not.2 rfl)).trans ?_)))
  rw [State.setupWrite_reaches _ _ _ _ _ _ h]
  exact State.routedWrite_plain ((State.singleWrite_restartIdle_none _).2 single) (State.arrayWrite_none _ array)

theorem registerWrite_plain {r : RegDesc} (aligned : a % 4 = 0) (h : reaches s client a) (single : s.singleWrite client a v = none)
    (array : s.arrayWrite client a v = none) (hr : regAt a = some r) :
    Changes (.registerWrite client a v 4) s [.idle, .edgeRegs, .log] [a] fun t =>
      (∀ f ∈ r.fields, bitsOf (t.word a) f.lsb f.width =
        f.written s.bootMode (bitsOf v f.lsb f.width) (bitsOf (s.word a) f.lsb f.width)) ∧
      (if writeLogged s.bootMode r v then logged s t 0x0901 0 client (a + v.toNat * 2 ^ 32) else Part.log.same s t) := by
  have idle := frame_restartIdle s (blockDomain a)
  refine changes_of (exec_registerWrite_plain bound aligned h single array)
    (within_trans (within_of_frame idle (by simp) nofun) (within_mono (within_regWrite hr) (by simp) (List.Subset.refl _)))
    ⟨fun f hf => ?_, ?_⟩
  · rw [State.regWrite_word hr, State.restartIdle_bootMode, State.restartIdle_word]
    exact bitsOf_writeWord (regAt_laidOut hr) hf _ _ _
  · rw [State.regWrite_eq hr, State.restartIdle_bootMode]
    split
    · exact logged_log_of (by simp) (by simp) (by simp) (by simp)
    · exact ⟨by simp, by simp⟩

theorem registerWrite_reserved (aligned : a % 4 = 0) (h : reaches s client a) (single : s.singleWrite client a v = none)
    (array : s.arrayWrite client a v = none) (none : regAt a = none) :
    Does (.registerWrite client a v 4) s [.idle, .log] [] fun t => logged s t 0x0901 0 client (a + v.toNat * 2 ^ 32) :=
  does_of ((exec_registerWrite_plain bound aligned h single array).trans (congrArg _ (State.regWrite_reserved none)))
    ((frame_restartIdle s _).trans (frame_logWrite _ _ _ _)) (logged_log_of rfl rfl rfl rfl)

end

/-! ### DLX_NOW_WRITE and IRQ_ENABLE_WRITE (R255, R278, R504) -/

section
variable (h : reaches s client Reg.LDP_DLX_NOW)
include h

theorem dlxNowWrite_loads (boot : s.bootMode = true) :
    Does (.dlxNowWrite client v) s [.idle] [(Reg.LDP_DLX_NOW_ROT, v.toNat)] fun _ => True :=
  does_setupWrite h rfl (if_pos boot) (frame_setFld _ _ _) trivial

theorem dlxNowWrite_held (boot : s.bootMode = false) (rider : client = 0x60) (first : s.flash.dlxTaken = false) :
    Does (.dlxNowWrite client v) s [.idle, .flash] [] fun t =>
      t.flash = { s.flash with dlxTaken := true, dlxAdd := s.flash.dlxAdd + v.toNat } :=
  does_setupWrite h rfl ((if_neg (ne_true_of_eq_false boot)).trans (if_pos ⟨rider, by simpa using first⟩)) (frame_onFlash _ _) rfl

theorem dlxNowWrite_logged (boot : s.bootMode = false) (other : client ≠ 0x60 ∨ s.flash.dlxTaken = true) :
    Does (.dlxNowWrite client v) s [.idle, .log] [] fun t => logged s t 0x0901 0 client (Reg.LDP_DLX_NOW + v.toNat * 2 ^ 32) := by
  refine does_setupWrite h rfl ((if_neg (ne_true_of_eq_false boot)).trans (if_neg ?_)) (frame_logWrite _ _ _ _) (logged_log_of rfl rfl rfl rfl)
  rintro ⟨rider, first⟩
  rcases other with other | taken
  · exact other rider
  · simp [taken] at first

end

/-- The enables of an interrupt target are one RW field. -/
theorem regAt_irqEn (n : Fin 25) (w : Fin 6) : regAt (Reg.IRQ_EN n w) = some ⟨4653312, [(25, 32), (6, 4)], [⟨0, 32, .rw, 0⟩]⟩ := by
  revert n w
  decide +kernel

theorem State.regWrite_irqEn (n : Fin 25) (w : Fin 6) :
    s.regWrite client (Reg.IRQ_EN n w) v = (s.holdWord (Reg.IRQ_EN n w)).setFld (Reg.IRQ_EN_SRC n w) v.toNat := by
  have whole : bitsOf v 0 32 = v.toNat := by
    rw [bitsOf, pow_zero, Nat.div_one, Nat.mod_eq_of_lt v.isLt]
  rw [State.regWrite_eq (regAt_irqEn n w), State.setFld]
  refine (if_neg (by simp [writeLogged])).trans (congrArg _ ?_)
  rw [State.holdWord_word]
  exact congrArg (putBits _ 0 32) whole

theorem irqEnableWrite_takes {n : Fin 25} {w : Fin 6} (h : reaches s client (Reg.IRQ_EN n w)) (own : client = targetClient n ∨ client = 0x60) :
    Does (.irqEnableWrite client n w v) s [.idle, .edgeRegs] [(Reg.IRQ_EN_SRC n w, v.toNat)] fun _ => True :=
  does_setupWrite h rfl ((if_pos own).trans (State.regWrite_irqEn n w)) ((frame_holdWord _ _).trans (frame_setFld _ _ _)) trivial

theorem irqEnableWrite_logged {n : Fin 25} {w : Fin 6} (h : reaches s client (Reg.IRQ_EN n w)) (other : client ≠ targetClient n)
    (notRider : client ≠ 0x60) :
    Does (.irqEnableWrite client n w v) s [.idle, .log] [] fun t => logged s t 0x0901 0 client (Reg.IRQ_EN n w + v.toNat * 2 ^ 32) :=
  does_setupWrite h rfl (if_neg (not_or.2 ⟨other, notRider⟩)) (frame_logWrite _ _ _ _) (logged_log_of rfl rfl rfl rfl)

/-! ### What a read returns does not depend on the idle timers -/

theorem State.restartIdle_votes (n m : Fin 24) : ((s.restartIdle n).dom m).votes = (s.dom m).votes :=
  (congrArg Domain.votes (State.restartIdle_dom_state s n m) :)

theorem State.rebuilding_restartIdle (n : Fin 24) : (s.restartIdle n).rebuilding = s.rebuilding := rfl
theorem State.jnlFull_restartIdle (n : Fin 24) : (s.restartIdle n).jnlFull = s.jnlFull := jnlFull_congr ⟨rfl, rfl, rfl, rfl, rfl⟩
theorem State.shadowFull_restartIdle (n : Fin 24) : (s.restartIdle n).shadowFull = s.shadowFull := rfl
theorem State.energyUj_restartIdle (n : Fin 24) : (s.restartIdle n).energyUj = s.energyUj := rfl

theorem State.single_restartIdle (n : Fin 24) (x : Nat) : (s.restartIdle n).single x = s.single x := by
  simp only [State.single, State.rebuilding_restartIdle, State.jnlFull_restartIdle, State.shadowFull_restartIdle, State.energyUj_restartIdle,
    State.restartIdle_turn, State.restartIdle_galley, State.restartIdle_mgmt, State.restartIdle_collector, State.restartIdle_fld,
    State.restartIdle_power_mode, State.restartIdle_power_prev]

theorem State.domWord_restartIdle (n m : Fin 24) : (s.restartIdle n).domWord m = s.domWord m := by
  rw [State.domWord, State.restartIdle_state, State.restartIdle_votes]
  rfl

theorem State.dramState_restartIdle (n : Fin 24) (c : Nat) : (s.restartIdle n).dramState c = s.dramState c := by
  simp only [State.dramState, State.restartIdle_state, State.restartIdle_fld, State.restartIdle_flag]

theorem State.arrayed_restartIdle (n : Fin 24) (x : Nat) : (s.restartIdle n).arrayed x = s.arrayed x := by
  unfold State.arrayed
  simp only [State.domWord_restartIdle, State.dramState_restartIdle]
  rfl

theorem State.view_restartIdle (n : Fin 24) (x : Nat) : (s.restartIdle n).view x = s.view x := by
  rw [State.view, State.single_restartIdle, State.arrayed_restartIdle, State.restartIdle_word, State.view]

theorem State.readFor_restartIdle (n : Fin 24) (c x : Nat) : (s.restartIdle n).readFor c x = s.readFor c x := by
  rw [State.readFor, State.view_restartIdle, State.readFor]
  rfl

/-! ### PAIR_LO_READ and RC_FIELD_READ (R489, R493, R496) -/

/-- The latch that a read of a _LO word leaves of its _HI word. -/
theorem State.latchHi_pair (lo : a ∈ pairLo) : s.latchHi client a = s.onCollector fun c =>
    { c with latches := (a, client, (s.view (a + 4)).toNat) :: c.latches.filter fun l => !(l.1 == a && l.2.1 == client) } :=
  if_pos (List.contains_iff_mem.2 lo)

theorem State.latchHi_other (other : a ∉ pairLo) : s.latchHi client a = s :=
  if_neg fun lo => other (List.contains_iff_mem.1 lo)

/-- A client that has latched a _HI word reads it as latched. -/
theorem State.readFor_latched {t u : State} (lo : a ∈ pairLo) (same : u.collector = (t.latchHi client a).collector) :
    u.readFor client (a + 4) = t.view (a + 4) := by
  rw [State.readFor, same, State.latchHi_pair lo, State.onCollector_collector, List.find?_cons_of_pos (by simp)]
  exact BitVec.ofNat_toNat _ _

theorem State.clearRc_bar2 (bar2 : viaBar2 client = true) : s.clearRc client a = s := if_pos bar2

theorem State.clearRc_eq {r : RegDesc} (bus : viaBar2 client = false) (hr : regAt a = some r) :
    s.clearRc client a = if r.fields.any (fun f => f.type == .rc) then s.setWord a (r.clearedRc (s.word a)) else s := by
  rw [State.clearRc, if_neg (ne_true_of_eq_false bus), hr]
  rfl

theorem within_clearRc (P : List Part) : Within P [a] s (s.clearRc client a) := by
  unfold State.clearRc
  split
  · exact within_refl _ _ _
  · split
    · split
      · exact within_setWord _ _ _ _
      · exact within_refl _ _ _
    · exact within_refl _ _ _

/-- No word of a pair has an RC field. -/
theorem clearRc_pair (lo : a ∈ pairLo) : s.clearRc client a = s := by
  have fields : ∀ x ∈ pairLo, ∀ r ∈ regAt x, r.fields.any (fun f => f.type == .rc) = false := by decide +kernel
  unfold State.clearRc
  split
  · rfl
  · split
    · next r hr => exact if_neg (ne_true_of_eq_false (fields a lo r hr))
    · rfl

/-- A read by firmware clears the RC fields of a register and leaves its others; one by the host clears nothing. -/
theorem State.clearRc_field {r : RegDesc} (hr : regAt a = some r) {f : FieldDesc} (hf : f ∈ r.fields) :
    bitsOf ((s.clearRc client a).word a) f.lsb f.width =
      if f.type = .rc ∧ viaBar2 client = false then 0 else bitsOf (s.word a) f.lsb f.width := by
  cases bar2 : viaBar2 client
  · rw [State.clearRc_eq bar2 hr]
    split
    · rw [State.word_setWord, if_pos rfl, bitsOf_clearedRc (regAt_laidOut hr) hf]
      simp
    · next no =>
      rw [if_neg fun rc => no (List.any_eq_true.2 ⟨f, hf, beq_iff_eq.2 rc.1⟩)]
  · rw [State.clearRc_bar2 bar2]
    simp

/-- A read that is not in flight at BAR2 is answered to its client. -/
theorem State.answerRead_direct {w : Nat} (free : s.barRead client a = none) : s.answerRead client a w = s.answerWith client w := by
  rw [State.answerRead, free]

theorem State.barRead_of_host {t : State} (same : t.host = s.host) : t.barRead client a = s.barRead client a := by
  rw [State.barRead, same, State.barRead]

section
variable (aligned : a % 4 = 0) (on : (s.dom (blockDomain a)).state = .on)
include aligned on

/-- A read of a domain that is ON runs at once. -/
theorem State.setupGet_on (i : Instr) : s.setupGet client a i =
    ((s.restartIdle (blockDomain a)).readEffects client a).answerRead client a (s.readFor client a).toNat := by
  have alive : s.isDead (blockDomain a) = false := by rw [State.isDead, on]
  have stays : (s.restartIdle (blockDomain a)).isOn (blockDomain a) = true := by
    rw [State.isOn, State.restartIdle_state, on]
    rfl
  unfold State.setupGet
  dsimp only
  rw [if_neg (not_not.2 aligned), if_neg (ne_true_of_eq_false alive), State.touch_on s _ _ on, if_pos stays, State.readFor_restartIdle]

variable (bound : a < 2 ^ 26) (free : s.barRead client a = none)
include bound free

theorem exec_pairLoRead (lo : a ∈ pairLo) : exec (.pairLoRead client a) s =
    .next (((s.restartIdle (blockDomain a)).latchHi client a).answerWith client (s.readFor client a).toNat) := by
  have quiet : ((s.restartIdle (blockDomain a)).latchHi client a).barRead client a = none := by
    rw [State.barRead_of_host (s := s) (by rw [State.latchHi_pair lo]; rfl), free]
  show execPairLoRead client a s = _
  rw [execPairLoRead, Nat.mod_eq_of_lt bound, State.setupGet_on aligned on, State.readEffects, clearRc_pair lo, State.answerRead_direct quiet]

theorem pairLoRead_latches (lo : a ∈ pairLo) : Changes (.pairLoRead client a) s [.idle, .collector, .answer] [] fun t =>
    t.answer = some (.value client (s.readFor client a).toNat) ∧
      ∀ u : State, u.collector = t.collector → u.readFor client (a + 4) = s.view (a + 4) := by
  have frame : Frame [.idle, .collector] [] s ((s.restartIdle (blockDomain a)).latchHi client a) := by
    rw [State.latchHi_pair lo]
    exact (frame_restartIdle s _).trans (frame_onCollector _ _)
  refine changes_of (exec_pairLoRead aligned on bound free lo) (within_of_frame (frame_withAnswer frame _) (List.Subset.refl _) (by simp))
    ⟨rfl, fun u same => ?_⟩
  rw [State.readFor_latched lo same, State.view_restartIdle]

theorem exec_rcFieldRead (other : a ∉ pairLo) (plain : s.popRead client a = none) : exec (.rcFieldRead client a) s =
    .next (((s.restartIdle (blockDomain a)).clearRc client a).answerWith client (s.readFor client a).toNat) := by
  have quiet : ((s.restartIdle (blockDomain a)).clearRc client a).barRead client a = none := by
    rw [State.barRead_of_host ((within_clearRc []).1 .host (by simp)), State.barRead_of_host (State.restartIdle_host s _), free]
  show execRcFieldRead client a s = _
  rw [execRcFieldRead, Nat.mod_eq_of_lt bound, plain]
  dsimp only
  rw [State.setupGet_on aligned on, State.readEffects, State.latchHi_other other, State.answerRead_direct quiet]

theorem rcFieldRead_clears {r : RegDesc} (other : a ∉ pairLo) (plain : s.popRead client a = none) (hr : regAt a = some r) :
    Changes (.rcFieldRead client a) s [.idle, .answer] [a] fun t => t.answer = some (.value client (s.readFor client a).toNat) ∧
      ∀ f ∈ r.fields, bitsOf (t.word a) f.lsb f.width =
        if f.type = .rc ∧ viaBar2 client = false then 0 else bitsOf (s.word a) f.lsb f.width := by
  have idle := frame_restartIdle s (blockDomain a)
  have answered (t : State) (x : Option Answer) : Within [.idle, .answer] [a] t { t with answer := x } :=
    within_of_frame (frame_answer t x) (by simp) nofun
  refine changes_of (exec_rcFieldRead aligned on bound free other plain)
    (within_trans (within_trans (within_of_frame idle (by simp) nofun) (within_clearRc _)) (answered _ _)) ⟨rfl, fun f hf => ?_⟩
  exact State.clearRc_field hr hf

end

/-- Settles O27: each access, in each state that the statement tells apart, is a lemma above. -/
theorem registerAccessesFollowTheirRules : Obligations.RegisterAccessesFollowTheirRules := by
  unfold Obligations.RegisterAccessesFollowTheirRules
  refine ⟨⟨fun s client a v width bound => ⟨fun r aligned h single array hr => ?_, registerWrite_reserved bound,
      fun aligned bus narrow => ?_, fun bar2 => ?_, fun odd proc => ?_⟩,
    fun s client v n w => ⟨fun h => ⟨dlxNowWrite_loads h, dlxNowWrite_held h, dlxNowWrite_logged h⟩,
      fun h => ⟨irqEnableWrite_takes h, irqEnableWrite_logged h⟩⟩⟩,
    fun s client a bound aligned on free => ⟨pairLoRead_latches aligned on bound free, fun r => rcFieldRead_clears aligned on bound free⟩⟩
  · refine changes_imp (registerWrite_plain bound aligned h single array hr) fun t ⟨fields, entry⟩ => ⟨fun f hf => ?_, ?_⟩
    · dsimp only
      rw [fields f hf, FieldDesc.written]
      cases f.type
      case boot => exact if_congr s.bootMode_iff rfl rfl
      all_goals rfl
    · rw [if_congr writeLogged_iff rfl rfl] at entry
      convert entry
  · exact does_of (exec_registerWrite_narrow bound bus aligned narrow) (frame_logWrite _ _ _ _) (logged_log _ _ _ _ _)
  · exact does_of (exec_registerWrite_bar2 bound bar2) (frame_logWrite _ _ _ _) (logged_log _ _ _ _ _)
  · have bus : viaBar2 client = false := by
      simp only [isProcessor, Bool.or_eq_true, decide_eq_true_eq, beq_iff_eq] at proc
      simp only [viaBar2, Bool.or_eq_false_iff, beq_eq_false_iff_ne]
      omega
    exact does_of (exec_registerWrite_misaligned bound bus odd proc) (frame_answer s _) rfl

end Sys2Proof.Machine
end

section
/-! Flip masks: the three words that load and arm them, and the write that takes one (R303 to R305). -/

namespace Sys2Proof.Machine

open Sys2Proof.Safety

variable {s t : State} {client a : Nat} {v : Word}

/-! ### Writes of whole registers -/

/-- Of two writes of one field in a row, the later stands. -/
theorem putBits_putBits_self (w : Word) {lo n : Nat} (u v : Nat) (h : lo + n ≤ 32) : putBits (putBits w lo n u) lo n v = putBits w lo n v := by
  have low : (putBits w lo n u).toNat % 2 ^ lo = w.toNat % 2 ^ lo := by
    have := bitsOf_putBits_below w lo n u 0 lo h (by omega)
    simpa only [bitsOf, pow_zero, Nat.div_one] using this
  have high : (putBits w lo n u).toNat / 2 ^ (lo + n) = w.toNat / 2 ^ (lo + n) := by
    have := bitsOf_putBits_above w lo n u (lo + n) 32 h (Nat.le_refl _)
    have small (x : Word) : x.toNat / 2 ^ (lo + n) % 2 ^ 32 = x.toNat / 2 ^ (lo + n) :=
      Nat.mod_eq_of_lt ((Nat.div_le_self _ _).trans_lt x.isLt)
    rwa [bitsOf, bitsOf, small, small] at this
  apply BitVec.eq_of_toNat_eq
  rw [putBits_toNat (putBits w lo n u) lo n v h, low, high, putBits_toNat w lo n v h]

theorem wordAfter_overwritten (b : Nat) (l : List (Fld × Nat)) {f : Fld} (u v : Nat) (fits : f.lsb + f.width ≤ 32) (w : Word) :
    wordAfter b (l ++ [(f, u)] ++ [(f, v)]) w = wordAfter b (l ++ [(f, v)]) w := by
  rw [wordAfter_append, wordAfter_append, wordAfter_append]
  by_cases h : f.addr = b
  · simp only [wordAfter, if_pos h, putBits_putBits_self _ _ _ fits]
  · simp only [wordAfter, if_neg h]

/-- A word after field writes that are all its own. -/
def putAll (W : List (Fld × Nat)) (w : Word) : Word := W.foldl (fun w p => putBits w p.1.lsb p.1.width p.2) w

theorem wordAfter_own {W : List (Fld × Nat)} (own : ∀ p ∈ W, p.1.addr = a) (w : Word) : wordAfter a W w = putAll W w := by
  induction W generalizing w with
  | nil => rfl
  | cons p W ih =>
    obtain ⟨f, v⟩ := p
    obtain ⟨hf, hW⟩ := List.forall_mem_cons.1 own
    rw [wordAfter, if_pos hf, ih hW]
    rfl

/-- A typed write that is not logged, whose word is that of a list of field writes. -/
theorem frame_regWrite {r : RegDesc} {W : List (Fld × Nat)} (hr : regAt a = some r) (quiet : writeLogged s.bootMode r v = false)
    (own : ∀ p ∈ W, p.1.addr = a) (made : writeWord s.bootMode r (s.word a) v = putAll W (s.word a)) :
    Frame [.edgeRegs] W s (s.regWrite client a v) := by
  have write : s.regWrite client a v = (s.holdWord a).setWord a (writeWord s.bootMode r (s.word a) v) := by
    rw [State.regWrite_eq hr, if_neg (ne_true_of_eq_false quiet)]
  rw [write]
  refine ⟨fun p hp => Part.same_trans ((frame_holdWord s a).1 p hp) ((within_setWord [] _ a _).1 p nofun), fun b => ?_⟩
  rw [State.word_setWord, State.holdWord_word]
  split_ifs with h
  · rw [← h, made, wordAfter_own own]
  · rw [wordAfter_of_addr_ne fun p hp e => h ((own p hp).symm.trans e)]

theorem bitsOf_whole (v : Word) : bitsOf v 0 32 = v.toNat := by
  rw [bitsOf, pow_zero, Nat.div_one, Nat.mod_eq_of_lt v.isLt]

/-- A write of a register that is one RW field loads it. -/
theorem frame_regWrite_whole {b : Nat} {d : List (Nat × Nat)} (hr : regAt a = some ⟨b, d, [⟨0, 32, .rw, 0⟩]⟩) :
    Frame [.edgeRegs] [(⟨a, 0, 32⟩, v.toNat)] s (s.regWrite client a v) := by
  refine frame_regWrite hr (by simp [writeLogged]) (by simp) ?_
  rw [← bitsOf_whole v]
  rfl

/-- A W1S field of one bit that a write sets. -/
theorem or_one_of_bit (w : Word) (lo : Nat) : bitsOf w lo 1 ||| 1 = 1 := by
  have := bitsOf_lt w lo 1
  interval_cases bitsOf w lo 1 <;> rfl

/-! ### The masks loaded (R304, R305) -/

/-- The third word of OCM.FLIPMASK (R304). -/
def ocmMask2 : RegDesc := ⟨4263688, [], [⟨0, 8, .rw, 0⟩, ⟨8, 8, .rw, 0⟩, ⟨16, 10, .rw, 1023⟩, ⟨26, 5, .rsvd, 0⟩, ⟨31, 1, .w1s, 0⟩]⟩

/-- The third word of DMC[n].FLIPMASK (R305). -/
def dmcMask2 : RegDesc := ⟨3936008, [(12, 16384)], [⟨0, 8, .rw, 0⟩, ⟨8, 8, .rw, 0⟩, ⟨16, 3, .rw, 0⟩, ⟨19, 1, .rw, 0⟩,
  ⟨20, 10, .rw, 1023⟩, ⟨30, 1, .rsvd, 0⟩, ⟨31, 1, .w1s, 0⟩]⟩

theorem regAt_ocmMask : regAt Reg.OCM_FLIPMASK0 = some ⟨4263680, [], [⟨0, 32, .rw, 0⟩]⟩ ∧
    regAt Reg.OCM_FLIPMASK1 = some ⟨4263684, [], [⟨0, 32, .rw, 0⟩]⟩ ∧ regAt Reg.OCM_FLIPMASK2 = some ocmMask2 := by
  decide +kernel

theorem regAt_dmcMask (ch : Fin 12) : regAt (Reg.DMC_FLIPMASK0 ch) = some ⟨3936000, [(12, 16384)], [⟨0, 32, .rw, 0⟩]⟩ ∧
    regAt (Reg.DMC_FLIPMASK1 ch) = some ⟨3936004, [(12, 16384)], [⟨0, 32, .rw, 0⟩]⟩ ∧ regAt (Reg.DMC_FLIPMASK2 ch) = some dmcMask2 := by
  revert ch
  decide +kernel

/-- The field writes of OCM.FLIPMASK's third word, ARMED last. -/
def ocmTarget (w2 : Word) (armed : Nat) : List (Fld × Nat) :=
  [(Reg.OCM_FLIPMASK2_CHECK, bitsOf w2 0 8), (Reg.OCM_FLIPMASK2_MEM_SEL, bitsOf w2 8 8), (Reg.OCM_FLIPMASK2_CLIENT, bitsOf w2 16 10),
    (Reg.OCM_FLIPMASK2_ARMED, armed)]

/-- The field writes of DMC[n].FLIPMASK's third word, ARMED last. -/
def dmcTarget (ch : Nat) (w2 : Word) (armed : Nat) : List (Fld × Nat) :=
  [(Reg.DMC_FLIPMASK2_CHECK ch, bitsOf w2 0 8), (Reg.DMC_FLIPMASK2_ASC ch, bitsOf w2 8 8), (Reg.DMC_FLIPMASK2_WORD ch, bitsOf w2 16 3),
    (Reg.DMC_FLIPMASK2_SUBCH ch, bitsOf w2 19 1), (Reg.DMC_FLIPMASK2_CLIENT ch, bitsOf w2 20 10), (Reg.DMC_FLIPMASK2_ARMED ch, armed)]

/-- ARMED is set by a 1. -/
theorem writeWord_ocmMask2 (boot : Bool) (w w2 : Word) : ∃ armed, (bitsOf w2 31 1 = 1 → armed = 1) ∧
    writeWord boot ocmMask2 w w2 = putAll (ocmTarget w2 armed) w := by
  refine ⟨_, fun set => ?_, rfl⟩
  rw [set]
  exact or_one_of_bit _ _

theorem writeWord_dmcMask2 (ch : Nat) (boot : Bool) (w w2 : Word) : ∃ armed, (bitsOf w2 31 1 = 1 → armed = 1) ∧
    writeWord boot dmcMask2 w w2 = putAll (dmcTarget ch w2 armed) w := by
  refine ⟨_, fun set => ?_, rfl⟩
  rw [set]
  exact or_one_of_bit _ _

/-- The typed writes of a mask's three words. -/
def State.loadMask (s : State) (client a0 a1 a2 : Nat) (w0 w1 w2 : Word) : State :=
  ((s.regWrite client a0 w0).regWrite client a1 w1).regWrite client a2 w2

section
variable (s client) (w0 w1 : Word) {w2 : Word}

/-- The load of OCM.FLIPMASK. -/
theorem frame_loadMask_ocm (clean : bitsOf w2 26 5 = 0) : ∃ armed, (bitsOf w2 31 1 = 1 → armed = 1) ∧ Frame [.edgeRegs]
    ((Reg.OCM_FLIPMASK0_DATA_LO, w0.toNat) :: (Reg.OCM_FLIPMASK1_DATA_HI, w1.toNat) :: ocmTarget w2 armed) s
    (s.loadMask client Reg.OCM_FLIPMASK0 Reg.OCM_FLIPMASK1 Reg.OCM_FLIPMASK2 w0 w1 w2) := by
  obtain ⟨h0, h1, h2⟩ := regAt_ocmMask
  obtain ⟨armed, one, made⟩ := writeWord_ocmMask2 ((s.regWrite client Reg.OCM_FLIPMASK0 w0).regWrite client Reg.OCM_FLIPMASK1 w1).bootMode
    (((s.regWrite client Reg.OCM_FLIPMASK0 w0).regWrite client Reg.OCM_FLIPMASK1 w1).word Reg.OCM_FLIPMASK2) w2
  have target := frame_regWrite (client := client) h2 (by simp [writeLogged, ocmMask2, clean]) (by simp [ocmTarget, Reg.OCM_FLIPMASK2_CHECK,
    Reg.OCM_FLIPMASK2_MEM_SEL, Reg.OCM_FLIPMASK2_CLIENT, Reg.OCM_FLIPMASK2_ARMED]) made
  exact ⟨armed, one, (((frame_regWrite_whole h0).trans (frame_regWrite_whole h1)).trans target).mono (by simp)⟩

/-- The load of DMC[n].FLIPMASK. -/
theorem frame_loadMask_dmc (ch : Fin 12) (clean : bitsOf w2 30 1 = 0) : ∃ armed, (bitsOf w2 31 1 = 1 → armed = 1) ∧ Frame [.edgeRegs]
    ((Reg.DMC_FLIPMASK0_DATA_LO ch, w0.toNat) :: (Reg.DMC_FLIPMASK1_DATA_HI ch, w1.toNat) :: dmcTarget ch w2 armed) s
    (s.loadMask client (Reg.DMC_FLIPMASK0 ch) (Reg.DMC_FLIPMASK1 ch) (Reg.DMC_FLIPMASK2 ch) w0 w1 w2) := by
  obtain ⟨h0, h1, h2⟩ := regAt_dmcMask ch
  obtain ⟨armed, one, made⟩ := writeWord_dmcMask2 ch
    ((s.regWrite client (Reg.DMC_FLIPMASK0 ch) w0).regWrite client (Reg.DMC_FLIPMASK1 ch) w1).bootMode
    (((s.regWrite client (Reg.DMC_FLIPMASK0 ch) w0).regWrite client (Reg.DMC_FLIPMASK1 ch) w1).word (Reg.DMC_FLIPMASK2 ch)) w2
  have target := frame_regWrite (client := client) h2 (by simp [writeLogged, dmcMask2, clean]) (by simp [dmcTarget, Reg.DMC_FLIPMASK2_CHECK,
    Reg.DMC_FLIPMASK2_ASC, Reg.DMC_FLIPMASK2_WORD, Reg.DMC_FLIPMASK2_SUBCH, Reg.DMC_FLIPMASK2_CLIENT, Reg.DMC_FLIPMASK2_ARMED]) made
  exact ⟨armed, one, (((frame_regWrite_whole h0).trans (frame_regWrite_whole h1)).trans target).mono (by simp)⟩

end

/-! ### The two arming commands -/

/-- A mask loaded: in Spill it is not armed, outside Spill an arming is logged. -/
def State.armMask (s : State) (client : Nat) (armed : Fld) (w2 : Word) : State :=
  if s.power.mode == .spill then s.setFld armed 0 else if bitsOf w2 31 1 = 1 then s.log 0x0A01 0 client w2.toNat else s

section
variable {W : List (Fld × Nat)} {f : Fld} {w2 : Word} {armed : Nat} (load : Frame [.edgeRegs] (W ++ [(f, armed)]) s t)
include load

theorem armMask_logs (mode : s.power.mode ≠ .spill) (set : bitsOf w2 31 1 = 1) (one : armed = 1) :
    Frame [.log, .edgeRegs] (W ++ [(f, 1)]) s (t.armMask client f w2) ∧ logged s (t.armMask client f w2) 0x0A01 0 client w2.toNat := by
  have arm : t.armMask client f w2 = t.log 0x0A01 0 client w2.toNat := by
    rw [State.armMask, Frame.mode_eq load (by decide), if_neg (by simpa using mode), if_pos set]
  have log := load.1 .log (by decide)
  have mgmt := load.1 .mgmt (by decide)
  have frame := load.trans (frame_log t 0x0A01 0 client w2.toNat)
  rw [List.append_nil, one] at frame
  rw [arm]
  exact ⟨frame.mono (by simp), logged_log_of log.1 log.2 (load.1 .turn (by decide)) (congrArg Mgmt.timestamp mgmt :)⟩

theorem armMask_spill (mode : s.power.mode = .spill) (fits : f.lsb + f.width ≤ 32) :
    Frame [.edgeRegs] (W ++ [(f, 0)]) s (t.armMask client f w2) := by
  have arm : t.armMask client f w2 = t.setFld f 0 := by
    rw [State.armMask, Frame.mode_eq load (by decide), if_pos (by simp [mode])]
  have frame := load.trans (frame_setFld t f 0)
  rw [arm]
  exact ⟨frame.1, fun a => by rw [frame.2, wordAfter_overwritten a W armed 0 fits]⟩

end

section
variable (w0 w1 : Word) {w2 : Word}

theorem ocmFlipmaskArm_arms (h : reaches s client Reg.OCM_FLIPMASK2) (mode : s.power.mode ≠ .spill) (set : bitsOf w2 31 1 = 1)
    (clean : bitsOf w2 26 5 = 0) : Does (.ocmFlipmaskArm client w0 w1 w2) s [.idle, .log, .edgeRegs]
      ((Reg.OCM_FLIPMASK0_DATA_LO, w0.toNat) :: (Reg.OCM_FLIPMASK1_DATA_HI, w1.toNat) :: ocmTarget w2 1) fun t =>
        logged s t 0x0A01 0 client w2.toNat := by
  obtain ⟨armed, one, load⟩ := frame_loadMask_ocm (s.restartIdle (blockDomain Reg.OCM_FLIPMASK2)) client w0 w1 clean
  obtain ⟨frame, entry⟩ := armMask_logs (client := client) (W := _ :: _ :: [_, _, _]) load mode set (one set)
  exact does_setupWrite h rfl rfl frame entry

theorem ocmFlipmaskArm_spill (h : reaches s client Reg.OCM_FLIPMASK2) (mode : s.power.mode = .spill) (clean : bitsOf w2 26 5 = 0) :
    Does (.ocmFlipmaskArm client w0 w1 w2) s [.idle, .edgeRegs]
      ((Reg.OCM_FLIPMASK0_DATA_LO, w0.toNat) :: (Reg.OCM_FLIPMASK1_DATA_HI, w1.toNat) :: ocmTarget w2 0) fun _ => True := by
  obtain ⟨armed, -, load⟩ := frame_loadMask_ocm (s.restartIdle (blockDomain Reg.OCM_FLIPMASK2)) client w0 w1 clean
  exact does_setupWrite h rfl rfl (armMask_spill (W := _ :: _ :: [_, _, _]) load mode (by decide)) trivial

theorem dmcFlipmaskArm_arms {ch : Fin 12} (h : reaches s client (Reg.DMC_FLIPMASK2 ch)) (mode : s.power.mode ≠ .spill)
    (set : bitsOf w2 31 1 = 1) (clean : bitsOf w2 30 1 = 0) : Does (.dmcFlipmaskArm client ch w0 w1 w2) s [.idle, .log, .edgeRegs]
      ((Reg.DMC_FLIPMASK0_DATA_LO ch, w0.toNat) :: (Reg.DMC_FLIPMASK1_DATA_HI ch, w1.toNat) :: dmcTarget ch w2 1) fun t =>
        logged s t 0x0A01 0 client w2.toNat := by
  obtain ⟨armed, one, load⟩ := frame_loadMask_dmc (s.restartIdle (blockDomain (Reg.DMC_FLIPMASK2 ch))) client w0 w1 ch clean
  obtain ⟨frame, entry⟩ := armMask_logs (client := client) (W := _ :: _ :: [_, _, _, _, _]) load mode set (one set)
  exact does_setupWrite h rfl rfl frame entry

end

/-! ### The write that takes a mask (R303) -/

theorem frame_maskTaken (s : State) (w : Nat) (f : Flips) (armed : Fld) : Frame [.memory] [(armed, 0), (Reg.ERC_EVENT_FLIP_USED, 1)] s
    (((s.setFlips w f).setFld armed 0).setFld Reg.ERC_EVENT_FLIP_USED 1) :=
  ((frame_setFlips s w f).trans (frame_setFld _ _ _)).trans (frame_setFld _ _ _)

theorem exec_flipMaskTaken_ocm {addr : Nat} (hit : s.ocmMaskHits client (s.storage addr) = true) : exec (.flipMaskTaken none client addr) s =
    .next (((s.setFlips (s.storage addr / 8 * 8) s.ocmMask).setFld Reg.OCM_FLIPMASK2_ARMED 0).setFld Reg.ERC_EVENT_FLIP_USED 1) :=
  congrArg Host.Outcome.next ((if_pos hit).trans (if_pos hit))

theorem exec_flipMaskTaken_dmc {addr : Nat} {ch : Fin 12} (hit : s.dmcMaskHits client (s.storage addr) = true)
    (own : (s.sliceOf ((s.storage addr - dramBase) / 4096)).1 = ch.val) : exec (.flipMaskTaken (some ch) client addr) s =
    .next (((s.setFlips (s.storage addr / 8 * 8) (s.dmcMask ch)).setFld (Reg.DMC_FLIPMASK2_ARMED ch) 0).setFld Reg.ERC_EVENT_FLIP_USED 1) := by
  have dram : isDram (s.storage addr) = true := by
    simp only [State.dmcMaskHits, Bool.and_eq_true] at hit
    exact hit.1.1.1.1
  have noOcm : s.ocmMaskHits client (s.storage addr) = false := by
    refine Bool.eq_false_iff.2 fun ocm => ?_
    simp only [State.ocmMaskHits, Bool.and_eq_true, beq_iff_eq] at ocm
    exact absurd dram (by simp [isDram_of_bankOf ocm.1.2])
  have sealed : s.sealWord client (s.storage addr) =
      ((s.setFlips (s.storage addr / 8 * 8) (s.dmcMask ch)).setFld (Reg.DMC_FLIPMASK2_ARMED ch) 0).setFld Reg.ERC_EVENT_FLIP_USED 1 := by
    rw [State.sealWord, if_neg (by simp [noOcm]), if_pos hit, own]
  exact congrArg Host.Outcome.next ((if_pos (by simp [hit, own])).trans sealed)

/-- Settles O15: a load and its arming, in Spill and outside, and the write that takes the mask, each by a lemma above. -/
theorem flipMasksArmAndApply : Obligations.FlipMasksArmAndApply := by
  unfold Obligations.FlipMasksArmAndApply
  refine fun s client addr w0 w1 w2 ch => ⟨ocmFlipmaskArm_arms w0 w1, ocmFlipmaskArm_spill w0 w1, dmcFlipmaskArm_arms w0 w1, fun hit => ?_,
    fun hit own => ?_⟩
  · exact ⟨_, exec_flipMaskTaken_ocm hit, frame_maskTaken _ _ _ _, klook_kput_self _ _ _, fun w hw => klook_kput_ne _ _ hw⟩
  · exact ⟨_, exec_flipMaskTaken_dmc hit own, frame_maskTaken _ _ _ _, klook_kput_self _ _ _⟩

end Sys2Proof.Machine
end

section
/-! Stores of words: the bytes that they merge, the accesses that reach their memory, and the aliases and ports that are made of them
(R302, R343, R358, R359). -/

namespace Sys2Proof.Machine

open Sys2Proof.Safety

variable {s t : State} {client a addr code : Nat}

/-! ### Bytes merged by their enables -/

theorem mergeWord_lt (n old new be : Nat) : mergeWord n old new be < 256 ^ n := by
  induction n generalizing old new be with
  | zero => simp [mergeWord]
  | succ n ih =>
    have rest := ih (old / 256) (new / 256) (be / 2)
    rw [mergeWord, pow_succ]
    split_ifs <;> omega

theorem mergeWord_byte {n j : Nat} (old new be : Nat) (h : j < n) :
    mergeWord n old new be / 256 ^ j % 256 = if be / 2 ^ j % 2 = 1 then new / 256 ^ j % 256 else old / 256 ^ j % 256 := by
  induction n generalizing old new be j with
  | zero => omega
  | succ n ih =>
    rw [mergeWord]
    cases j with
    | zero =>
      simp only [pow_zero, Nat.div_one]
      split_ifs <;> omega
    | succ j =>
      have low : (if be % 2 = 1 then new % 256 else old % 256) < 256 := by split_ifs <;> omega
      have next (x : Nat) : x / 256 ^ (j + 1) = x / 256 / 256 ^ j := by rw [pow_succ', Nat.div_div_eq_div_mul]
      rw [next, next, next, Nat.add_mul_div_left _ _ (by decide), Nat.div_eq_of_lt low, Nat.zero_add, ih _ _ _ (Nat.lt_of_succ_lt_succ h),
        pow_succ', ← Nat.div_div_eq_div_mul]

/-- With every byte enabled the word is the new one. -/
theorem mergeWord_full (n old new : Nat) : mergeWord n old new (2 ^ n - 1) = new % 256 ^ n := by
  induction n generalizing old new with
  | zero => simp [mergeWord, Nat.mod_one]
  | succ n ih =>
    have pos : 0 < 2 ^ n := Nat.two_pow_pos n
    have odd : (2 ^ (n + 1) - 1) % 2 = 1 := by rw [pow_succ]; omega
    have half : (2 ^ (n + 1) - 1) / 2 = 2 ^ n - 1 := by rw [pow_succ]; omega
    rw [mergeWord, if_pos odd, half, ih, pow_succ', Nat.mod_mul]

/-! ### Accesses that reach their memory -/

theorem State.bankGate_open {write : Bool} {i : Instr} {k : State → State} (enabled : s.fld (Reg.OCM_BANK_DISABLE code) = 0)
    (on : s.bankState code = 1) (clear : s.fld (Reg.OCM_BANK_SWEEP code) = 0) : s.bankGate code client addr write i k = k s := by
  simp [State.bankGate, State.flag, enabled, on, clear]

/-- An access to a memory that is ready runs at once, after its domain's idle timer has restarted. -/
theorem State.memGate_ready {write : Bool} {i : Instr} (k : State → State) (h : ready s addr) :
    ∃ n, s.memGate client addr write i k = k (s.restartIdle n) := by
  unfold ready at h
  unfold State.memGate
  cases hb : bankOf addr with
  | some code =>
    rw [hb] at h
    obtain ⟨dom, enabled, on, clear⟩ := h
    exact ⟨_, (State.gate_on _ _ _ _ _ _ _ dom).trans (State.bankGate_open enabled on clear)⟩
  | none =>
    rw [hb] at h
    obtain ⟨dram, dom, idle⟩ := h
    refine ⟨_, (if_pos dram).trans ((State.gate_on _ _ _ _ _ _ _ dom).trans (if_neg ?_))⟩
    simp [State.flag, idle]

/-! ### A store of a whole word -/

theorem State.sliceOf_fst_lt (s : State) (b : Nat) : (s.sliceOf b).1 < 12 := by
  have chan (q : Nat) : s.chanOrder.getD q 0 < 12 := by
    rw [List.getD_eq_getElem?_getD]
    cases hq : s.chanOrder[q]? with
    | none => decide
    | some c =>
      have listed : c ∈ [0, 6, 1, 7, 2, 8, 3, 9, 4, 10, 5, 11] := List.mem_of_mem_filter (List.mem_of_getElem? hq)
      exact (show ∀ c ∈ [0, 6, 1, 7, 2, 8, 3, 9, 4, 10, 5, 11], c < 12 by decide) c listed
  unfold State.sliceOf
  dsimp only
  split <;> exact chan _

/-- With no mask armed a stored word's check bits are fresh. -/
theorem State.sealWord_noMask (h : noMask s) : s.sealWord client a = s.onMemory fun m => { m with flips := kdel (a / 8 * 8) m.flips } := by
  obtain ⟨ocm, dmc⟩ := h
  have noOcm : s.ocmMaskHits client a = false := by simp [State.ocmMaskHits, State.flag, ocm]
  have noDmc : s.dmcMaskHits client a = false := by simp [State.dmcMaskHits, State.flag, dmc _ (s.sliceOf_fst_lt _)]
  simp [State.sealWord, noOcm, noDmc]

theorem State.markLine_eq (s : State) (a : Nat) : ∃ f : Memory → Memory, s.markLine a = s.onMemory f ∧
    (∀ m, (f m).bytes = m.bytes) ∧ ∀ m, (f m).reserved = m.reserved := by
  unfold State.markLine
  dsimp only
  split_ifs
  · exact ⟨_, rfl, fun _ => rfl, fun _ => rfl⟩
  · exact ⟨id, rfl, fun _ => rfl, fun _ => rfl⟩

theorem State.storeWord_full (v : Nat) (h : noMask s) : ∃ f : Memory → Memory, (s.storeWord client a v 0xFF).2 = s.onMemory f ∧
    (f s.memory).bytes = memWrite (a / 8 * 8) (leBytes 8 (mergeWord 8 (wordAt s a) v 0xFF)) s.memory.bytes ∧
    (f s.memory).reserved = s.memory.reserved.filter fun r => r.2 != a / 8 * 8 / 64 || r.1 == client := by
  have sealed := State.sealWord_noMask (s := s.poke (a / 8 * 8) 8 (mergeWord 8 (wordAt s a) v 0xFF)) (client := client) (a := a / 8 * 8) h
  obtain ⟨f, marked, bytes, reserved⟩ := (((s.poke (a / 8 * 8) 8 (mergeWord 8 (wordAt s a) v 0xFF)).sealWord client
    (a / 8 * 8)).breakReservations client (a / 8 * 8)).markLine_eq (a / 8 * 8)
  have store : (s.storeWord client a v 0xFF).2 = (((s.poke (a / 8 * 8) 8 (mergeWord 8 (wordAt s a) v 0xFF)).sealWord client
    (a / 8 * 8)).breakReservations client (a / 8 * 8)).markLine (a / 8 * 8) := rfl
  rw [store, marked, sealed]
  exact ⟨fun m => f _, rfl, bytes _, reserved _⟩

/-- A store of `v` to the 64-bit word at storage address `a`, and of nothing else, by which other clients lose their reservations. -/
structure Stored (client a v : Nat) (s t : State) : Prop where
  word : wordAt t a = v
  others : otherBytesSame a s t
  broken : ∀ c, c ≠ client → (c, a / 64) ∉ t.memory.reserved

/-- A store of a whole word with no mask armed (R299, R303, R359). -/
theorem storeWord_stores {v : Nat} (h : noMask s) (hv : v < 2 ^ 64) :
    Frame [.bytes, .memory] [] s (s.storeWord client a v 0xFF).2 ∧ Stored client a v s (s.storeWord client a v 0xFF).2 := by
  obtain ⟨f, store, bytes, reserved⟩ := State.storeWord_full (client := client) (a := a) v h
  have whole : mergeWord 8 (wordAt s a) v 0xFF = v := (mergeWord_full 8 _ v).trans (Nat.mod_eq_of_lt hv)
  rw [whole] at bytes
  rw [store]
  refine ⟨frame_onMemory s f, ?_, fun x hx => ?_, fun c hc mem => ?_⟩
  · rw [wordAt, State.peek, State.onMemory_memory, bytes]
    exact (State.peek_poke_same s _ 8 v).trans (Nat.mod_eq_of_lt hv)
  · rw [State.onMemory_memory, bytes, memGet_memWrite, leBytes_length, if_neg (by omega)]
  · have granule : a / 8 * 8 / 64 = a / 64 := by omega
    rw [State.onMemory_memory, reserved, List.mem_filter] at mem
    simp [granule, hc] at mem

theorem memRead_length (m : List Host.Cell) (a n : Nat) : (memRead m a n).length = n := by
  induction n generalizing a with
  | zero => rfl
  | succ n ih => rw [memRead, List.length_cons, ih]

theorem wordAt_lt (s : State) (a : Nat) : wordAt s a < 2 ^ 64 := by
  have := leNat_lt (memRead s.memory.bytes (a / 8 * 8) 8)
  rwa [memRead_length] at this

theorem State.readWord_clean (h : s.checkWord a = .clean) : s.readWord client a = (some (wordAt s a), s) := by
  rw [State.readWord, h, wordAt]

/-! ### Alias writes (R343, R359) -/

/-- The word that a bit-set or bit-clear write of `v` with byte enables `be` leaves of `w`. -/
def aliasValue (set : Bool) (w v be : Nat) : Nat := if set then w ||| (v &&& beMask be) else w &&& (2 ^ 64 - 1 - (v &&& beMask be))

theorem aliasValue_lt (set : Bool) {w v : Nat} (be : Nat) (hw : w < 2 ^ 64) (hv : v < 2 ^ 64) : aliasValue set w v be < 2 ^ 64 := by
  cases set
  · exact Nat.and_le_left.trans_lt hw
  · exact Nat.or_lt_two_pow hw (Nat.and_le_left.trans_lt hv)

theorem State.aliasWrite_clean (v be : Nat) (set : Bool) (h : s.checkWord (s.storage addr) = .clean) : s.aliasWrite client addr v be set =
    (s.storeWord client (s.storage addr) (aliasValue set (wordAt s (s.storage addr)) v be) 0xFF).2 := by
  rw [State.aliasWrite, State.readWord_clean h]
  rfl

/-- A bit-set or bit-clear write stores the word that its address names, with the bits set or cleared. -/
theorem aliasWrite_does {i : Instr} {v be : Nat} {set : Bool} (hv : v < 2 ^ 64) (isReady : ready s addr) (mask : noMask s)
    (clean : s.checkWord (s.storage addr) = .clean)
    (run : exec i s = .next (s.memGate client addr true i fun s => s.aliasWrite client addr v be set)) :
    Does i s [.idle, .bytes, .memory] [] (Stored client (s.storage addr) (aliasValue set (wordAt s (s.storage addr)) v be) s) := by
  obtain ⟨n, gate⟩ := State.memGate_ready (client := client) (write := true) (i := i) (fun s => s.aliasWrite client addr v be set) isReady
  obtain ⟨frame, stored⟩ := storeWord_stores (client := client) (a := s.storage addr) (s := s.restartIdle n) mask
    (aliasValue_lt set be (wordAt_lt s (s.storage addr)) hv)
  have write := (s.restartIdle n).aliasWrite_clean (client := client) (addr := addr) v be set clean
  exact does_of (run.trans (congrArg _ (gate.trans write))) ((frame_restartIdle s n).trans frame) ⟨stored.word, stored.others, stored.broken⟩

theorem exec_bitSetAliasWrite {v : BitVec 64} {be : BitVec 8} (set : aliasOf addr = 1) (has : hasAliases addr = true) :
    exec (.bitSetAliasWrite client addr v be) s =
      .next (s.memGate client addr true (.bitSetAliasWrite client addr v be) fun s => s.aliasWrite client addr v.toNat be.toNat true) :=
  congrArg Host.Outcome.next (if_pos (by simp [set, has]))

theorem exec_bitClearAliasWrite {v : BitVec 64} {be : BitVec 8} (clear : aliasOf addr = 2) (has : hasAliases addr = true) :
    exec (.bitClearAliasWrite client addr v be) s =
      .next (s.memGate client addr true (.bitClearAliasWrite client addr v be) fun s => s.aliasWrite client addr v.toNat be.toNat false) :=
  congrArg Host.Outcome.next (if_pos (by simp [clear, has]))

/-- Bits are cleared by AND NOT. -/
theorem ofNat_and_clear {w m : Nat} (hm : m < 2 ^ 64) :
    BitVec.ofNat 64 (w &&& (2 ^ 64 - 1 - m)) = BitVec.ofNat 64 w &&& ~~~BitVec.ofNat 64 m := by
  rw [BitVec.ofNat_and]
  congr 1
  apply BitVec.eq_of_toNat_eq
  rw [BitVec.toNat_not, BitVec.toNat_ofNat, BitVec.toNat_ofNat, Nat.mod_eq_of_lt hm, Nat.mod_eq_of_lt (by omega)]

/-! ### The mailbox's two ports (R358) -/

theorem mbxApply_lt {w : Nat} (hw : w < 2 ^ 64) (x : MbxAccess) : mbxApply w x < 2 ^ 64 := by
  cases x with
  | read => exact hw
  | write d be => exact mergeWord_lt 8 w d.toNat be.toNat
  | setBits d => exact Nat.or_lt_two_pow hw d.isLt
  | clearBits d => exact Nat.and_le_left.trans_lt hw

theorem mbxResolve_lt {w : Nat} (hw : w < 2 ^ 64) (r c : MbxAccess) : (mbxResolve w r c).1 < 2 ^ 64 := by
  unfold mbxResolve
  split <;> exact mbxApply_lt (mbxApply_lt hw _) _

/-- Two writes of one word: where the bytes meet, port C's win. -/
theorem mbxResolve_writes_byte (w : Nat) (d1 d2 : BitVec 64) (b1 b2 : BitVec 8) {j : Nat} (h : j < 8) :
    (mbxResolve w (.write d1 b1) (.write d2 b2)).1 / 256 ^ j % 256 =
      if b2.toNat / 2 ^ j % 2 = 1 then d2.toNat / 256 ^ j % 256 else if b1.toNat / 2 ^ j % 2 = 1 then d1.toNat / 256 ^ j % 256
        else w / 256 ^ j % 256 := by
  have merged : (mbxResolve w (.write d1 b1) (.write d2 b2)).1 =
      mergeWord 8 (mergeWord 8 w d1.toNat b1.toNat) d2.toNat b2.toNat := rfl
  rw [merged, mergeWord_byte _ _ _ h, mergeWord_byte _ _ _ h]

/-- The state after the two ports' word `x` is stored over `w`. -/
def State.mbxStore (s : State) (a w x : Nat) : State := if x = w then s else (s.storeWord 0x3FE a x 0xFF).2

/-- A write against a write is counted. -/
def State.mbxCount (s : State) (r c : MbxAccess) : State :=
  if isPlainWrite r && isPlainWrite c then (s.addFld Reg.OCM_MBX_COLLIDE_COUNT 1).setFld Reg.OCM_EVENT_MBX_COLLIDE 1 else s

/-- The answer of the two ports: port C's where it reads, and port R's where it alone reads. -/
def State.mbxAnswer (s : State) (r c : MbxAccess) (x : Nat × Nat × Nat) : State :=
  if c == .read then { s with answer := some (.value 0x3FE x.2.2) }
  else if r == .read then { s with answer := some (.value 0x60 x.2.1) } else s

theorem exec_mailboxCollision {r c : MbxAccess} (bank : bankOf addr = some 0x20) (isReady : ready s addr)
    (clean : s.checkWord (s.storage addr) = .clean) : ∃ n, exec (.mailboxCollision addr r c) s =
      .next ((((s.restartIdle n).mbxStore (s.storage addr) (wordAt s (s.storage addr))
        (mbxResolve (wordAt s (s.storage addr)) r c).1).mbxCount r c).mbxAnswer r c (mbxResolve (wordAt s (s.storage addr)) r c)) := by
  show ∃ n, execMailboxCollision addr r c s = _
  obtain ⟨n, gate⟩ := State.memGate_ready (client := 0x60) (write := true) (i := .mailboxCollision addr r c) _ isReady
  refine ⟨n, congrArg Host.Outcome.next ((if_pos (by simp [bank])).trans (gate.trans ?_))⟩
  dsimp only
  rw [State.readWord_clean (s := s.restartIdle n) (a := (s.restartIdle n).storage addr) clean]
  rfl

theorem mbxStore_stores {w x : Nat} (mask : noMask s) (hw : wordAt s a = w) (hx : x < 2 ^ 64) :
    Frame [.bytes, .memory] [] s (s.mbxStore a w x) ∧ wordAt (s.mbxStore a w x) a = x ∧ otherBytesSame a s (s.mbxStore a w x) := by
  unfold State.mbxStore
  split_ifs with same
  · exact ⟨(Frame.refl s).mono (by simp), hw.trans same.symm, fun _ _ => rfl⟩
  · obtain ⟨frame, stored⟩ := storeWord_stores (client := 0x3FE) (a := a) mask hx
    exact ⟨frame, stored.word, stored.others⟩

/-- The field writes that count a collision. -/
def collideWrites (s : State) (r c : MbxAccess) : List (Fld × Nat) :=
  if isPlainWrite r = true ∧ isPlainWrite c = true then [plus s Reg.OCM_MBX_COLLIDE_COUNT 1, (Reg.OCM_EVENT_MBX_COLLIDE, 1)] else []

theorem State.mbxCount_eq_setFlds (s : State) (r c : MbxAccess) : s.mbxCount r c = s.setFlds (collideWrites s r c) := by
  unfold State.mbxCount collideWrites
  simp only [Bool.and_eq_true]
  split_ifs <;> rfl

theorem frame_mbxAnswer (s : State) (r c : MbxAccess) (x : Nat × Nat × Nat) : Frame [.answer] [] s (s.mbxAnswer r c x) := by
  unfold State.mbxAnswer
  split_ifs
  · exact frame_answer s _
  · exact frame_answer s _
  · exact (Frame.refl s).mono (by simp)

theorem State.mbxAnswer_memory (s : State) (r c : MbxAccess) (x : Nat × Nat × Nat) : (s.mbxAnswer r c x).memory = s.memory := by
  unfold State.mbxAnswer
  split_ifs <;> rfl

theorem mailboxCollision_does {r c : MbxAccess} (bank : bankOf addr = some 0x20) (isReady : ready s addr) (mask : noMask s)
    (clean : s.checkWord (s.storage addr) = .clean) :
    Does (.mailboxCollision addr r c) s [.idle, .answer, .bytes, .memory] (collideWrites s r c) fun t =>
      wordAt t (s.storage addr) = (mbxResolve (wordAt s (s.storage addr)) r c).1 ∧ otherBytesSame (s.storage addr) s t ∧
        (c = .read → t.answer = some (.value 0x3FE (mbxResolve (wordAt s (s.storage addr)) r c).2.2)) ∧
        (r = .read → c ≠ .read → t.answer = some (.value 0x60 (mbxResolve (wordAt s (s.storage addr)) r c).2.1)) := by
  obtain ⟨n, run⟩ := exec_mailboxCollision (r := r) (c := c) bank isReady clean
  generalize hx : mbxResolve (wordAt s (s.storage addr)) r c = x at run ⊢
  have bound : x.1 < 2 ^ 64 := hx ▸ mbxResolve_lt (wordAt_lt s _) r c
  obtain ⟨frame, word, others⟩ := mbxStore_stores (s := s.restartIdle n) (a := s.storage addr) (w := wordAt s (s.storage addr)) mask rfl bound
  generalize (s.restartIdle n).mbxStore (s.storage addr) (wordAt s (s.storage addr)) x.1 = u at run frame word others
  have stored := (frame_restartIdle s n).trans frame
  have memory : ((u.mbxCount r c).mbxAnswer r c x).memory = u.memory := by
    rw [State.mbxAnswer_memory, State.mbxCount_eq_setFlds, State.setFlds_memory]
  have counted : collideWrites u r c = collideWrites s r c := by
    have count : u.fld Reg.OCM_MBX_COLLIDE_COUNT = s.fld Reg.OCM_MBX_COLLIDE_COUNT := by rw [State.fld, stored.2, State.fld]; rfl
    rw [collideWrites, plus, count, collideWrites, plus]
  have whole : Frame [.idle, .answer, .bytes, .memory] (collideWrites s r c) s ((u.mbxCount r c).mbxAnswer r c x) := by
    have writes := frame_setFlds u (collideWrites u r c)
    rw [← State.mbxCount_eq_setFlds, counted] at writes
    have all := (stored.trans writes).trans (frame_mbxAnswer (u.mbxCount r c) r c x)
    simp only [List.append_nil, List.nil_append] at all
    exact all.mono (by simp)
  refine ⟨_, run, whole, ?_, fun y hy => ?_, fun hc => ?_, fun hr hc => ?_⟩
  · rw [wordAt, State.peek, memory]
    exact word
  · rw [memory]
    exact others y hy
  · rw [State.mbxAnswer, if_pos (by simp [hc])]
  · rw [State.mbxAnswer, if_neg (by simpa using hc), if_pos (by simp [hr])]

/-- Settles O17: a bit-set or bit-clear write and a collision each read the word, resolve it and store it whole. -/
theorem aliasAndMailboxWrites : Obligations.AliasAndMailboxWrites := by
  unfold Obligations.AliasAndMailboxWrites
  refine ⟨⟨fun s client addr v be has isReady mask clean => ⟨fun set => ?_, fun clear => ?_⟩, fun old new be j => mergeWord_byte old new be⟩,
    fun w d1 d2 b1 b2 _ => ⟨rfl, rfl, rfl, fun j => mbxResolve_writes_byte w d1 d2 b1 b2, rfl, rfl, rfl, rfl, rfl⟩,
    fun s addr r c bank isReady mask clean => mailboxCollision_does bank isReady mask clean⟩
  · obtain ⟨t, run, frame, stored⟩ := aliasWrite_does v.isLt isReady mask clean (exec_bitSetAliasWrite (be := be) set has)
    exact ⟨t, run, frame, stored.word, stored.others, stored.broken⟩
  · obtain ⟨t, run, frame, stored⟩ := aliasWrite_does v.isLt isReady mask clean (exec_bitClearAliasWrite (be := be) clear has)
    refine ⟨t, run, frame, ?_, stored.others⟩
    rw [stored.word]
    exact ofNat_and_clear (Nat.and_le_left.trans_lt v.isLt)

end Sys2Proof.Machine
end

section
/-! Uncorrectable blocks of the interleaved space: their record, their remap, and the end of the copy (R300, R351 to R353), and O21. -/

namespace Sys2Proof.Machine

open Sys2Proof.Safety

variable {s t : State} {client block target ch : Nat}

/-! ### What names a block's slice and its target -/

theorem State.sliceOf_congr (h : t.word Reg.DMC_LAYOUT = s.word Reg.DMC_LAYOUT) (b : Nat) : t.sliceOf b = s.sliceOf b := by
  have fld (f : Fld) (hf : f.addr = Reg.DMC_LAYOUT) : t.fld f = s.fld f := by rw [State.fld, hf, h, State.fld, hf]
  unfold State.sliceOf State.slices State.chanOrder State.flag
  rw [fld Reg.DMC_LAYOUT_K rfl, fld Reg.DMC_LAYOUT_HALF rfl, fld Reg.DMC_LAYOUT_PRESENT rfl]

theorem State.remapTarget_congr (h : t.word Reg.DMC_LAYOUT = s.word Reg.DMC_LAYOUT) (base : t.word Reg.DMC_REMAP_BASE = s.word Reg.DMC_REMAP_BASE)
    (remaps : t.memory.remaps = s.memory.remaps) (b : Nat) : t.remapTarget b = s.remapTarget b := by
  have fld : t.fld Reg.DMC_REMAP_BASE_BASE_GIB = s.fld Reg.DMC_REMAP_BASE_BASE_GIB := by
    rw [State.fld, show Reg.DMC_REMAP_BASE_BASE_GIB.addr = Reg.DMC_REMAP_BASE from rfl, base]
    rfl
  have slice : t.sliceOf = s.sliceOf := funext (State.sliceOf_congr h)
  unfold State.remapTarget
  rw [fld, slice, remaps]

/-- A remap's target lies on another slice (R352). -/
theorem State.remapTarget_slice (h : s.remapTarget block = some target) : s.sliceOf target ≠ s.sliceOf block := by
  unfold State.remapTarget at h
  dsimp only at h
  rw [Option.map_eq_some_iff] at h
  obtain ⟨k, found, rfl⟩ := h
  have free := List.find?_some found
  simp only [Bool.and_eq_true, bne_iff_ne] at free
  exact free.1

/-! ### The record of an uncorrectable block (R300, R307) -/

/-- The registers of an uncorrectable word's record. -/
def ueRegs : List Nat := [Reg.ERC_UE, Reg.ERC_EVENT, Reg.ERC_LAST, Reg.ERC_LAST_ADDR_LO, Reg.ERC_LAST_ADDR_HI]

/-- An uncorrectable word of DRAM. -/
theorem State.uncorrectable_dram (s : State) (client a : Nat) (write : Bool) : Within [] ueRegs s (s.uncorrectable client a 2 write) ∧
    (s.uncorrectable client a 2 write).memory = s.memory ∧ (s.uncorrectable client a 2 write).fld Reg.ERC_EVENT_DRAM_UE = 1 := by
  have record : s.uncorrectable client a 2 write = ((s.addFld Reg.ERC_UE_COUNT 1).setFld Reg.ERC_EVENT_DRAM_UE 1).setFlds
      (lastWrites ((s.addFld Reg.ERC_UE_COUNT 1).setFld Reg.ERC_EVENT_DRAM_UE 1) client 2 write (s.memCode a) a) :=
    State.ercLast_eq_setFlds _ _ _ _ _ _
  have addrs := lastWrites_addr_subset ((s.addFld Reg.ERC_UE_COUNT 1).setFld Reg.ERC_EVENT_DRAM_UE 1) client 2 write (s.memCode a) a
  rw [record]
  refine ⟨within_trans (within_trans (within_addFld s 1 (by decide)) (within_setFld _ 1 (by decide))) (within_setFlds _ fun p hp => ?_),
    State.setFlds_memory _ _, ?_⟩
  · exact List.mem_cons_of_mem _ (List.mem_cons_of_mem _ (addrs (List.mem_map_of_mem hp)))
  · rw [State.fld, State.word_setFlds_of_addr_ne _ fun p hp e => absurd (e ▸ addrs (List.mem_map_of_mem hp)) (by decide), ← State.fld,
      State.fld_setFld_same _ _ _ (by decide)]
    rfl

/-- A requester's or the scrubber's find: the block's first word is flipped where the block holds no flip, and the find is recorded. -/
def State.blockFound (s : State) (client block : Nat) : State :=
  (if (s.memory.flips.any fun f => decide (dramBase + block * 4096 ≤ f.1) && decide (f.1 < dramBase + block * 4096 + 4096)) then s
    else s.setFlips (dramBase + block * 4096) ⟨3, 0, 0⟩).uncorrectable client (dramBase + block * 4096) 2 false

theorem exec_dramUncorrectable : exec (.dramUncorrectable block client) s = .next ((s.blockFound client block).blockError client block) := rfl

theorem exec_scrubUncorrectable {ch : Fin 12} (on : s.fld (Reg.DMC_SCRUB_ENABLE ch) = 1) (own : (s.sliceOf block).1 = ch.val) :
    exec (.scrubUncorrectable ch block) s = .next ((s.blockFound 0x3FF block).blockError 0x3FF block) :=
  congrArg Host.Outcome.next (if_pos (by simp [State.flag, on, own]))

/-! ### The first error of a block (R352, R353) -/

/-- The registers of a channel that an error of one of its blocks can change. -/
def sliceRegs (ch : Nat) : List Nat := [Reg.DMC_SLICE_UE ch, Reg.DMC_REMAP ch, Reg.DMC_EVENT ch, Reg.DMC_STATUS ch]

/-- The collector's event register is none of a channel's. -/
theorem erc_event_notMem_sliceRegs (h : ch < 12) : Reg.ERC_EVENT_DRAM_UE.addr ∉ sliceRegs ch := by
  simp only [sliceRegs, List.mem_cons, List.not_mem_nil, or_false, Reg.ERC_EVENT_DRAM_UE, Reg.ERC_EVENT, Reg.DMC_SLICE_UE, Reg.DMC_REMAP,
    Reg.DMC_EVENT, Reg.DMC_STATUS]
  omega

theorem sliceUe_addr (ch i : Nat) : (sliceUe ch i).addr = Reg.DMC_SLICE_UE ch := by
  unfold sliceUe
  split <;> rfl

/-- A new row of the remap table, counted, reported and logged. -/
def State.remapTo (s : State) (ch client block target : Nat) : State :=
  (((s.onMemory fun m => { m with remaps := m.remaps ++ [⟨block, target, true, []⟩] }).addFld (Reg.DMC_REMAP_USED ch) 1).setFld
    (Reg.DMC_EVENT_UE_REMAP ch) 1).logUncoded .remap client block

/-- A table that is full is reported. -/
def State.markFull (s : State) (ch : Nat) : State :=
  if s.fld (Reg.DMC_REMAP_USED ch) ≥ 4096 then s.setFlds [(Reg.DMC_STATUS_REMAP_FULL ch, 1), (Reg.DMC_EVENT_REMAP_FULL ch, 1)] else s

/-- The state after a block's first error has been counted and the block remapped, before its slice is judged. -/
def State.firstError (s : State) (client block target : Nat) : State :=
  ((s.addFld (sliceUe (s.sliceOf block).1 (s.sliceIndex block)) 1).remapTo (s.sliceOf block).1 client block target).markFull (s.sliceOf block).1

/-- The first error of a block remaps it, and its slice may fail on it. -/
theorem State.blockError_first (new : ∀ r ∈ s.memory.remaps, r.block ≠ block) (free : s.remapTarget block = some target)
    (room : s.fld (Reg.DMC_REMAP_USED (s.sliceOf block).1) < 4096) :
    s.blockError client block = s.firstError client block target ∨
      s.blockError client block = (s.firstError client block target).sliceFails (s.sliceOf block).1 (s.sliceIndex block) := by
  unfold State.blockError
  extract_lets ch i counted failing judged
  have isNew : ¬ counted.memory.remaps.any (fun r => r.block == block) = true := by simpa [counted] using new
  have counts : Within [] [Reg.DMC_SLICE_UE ch] s counted := within_addFld s 1 (by simp [sliceUe_addr])
  have hasRoom : ¬ counted.fld (Reg.DMC_REMAP_USED ch) ≥ 4096 := by
    rw [within_fld counts (by simp [Reg.DMC_REMAP_USED, Reg.DMC_REMAP, Reg.DMC_SLICE_UE])]
    exact Nat.not_le.2 room
  have same : counted.remapTarget block = some target := by
    refine (State.remapTarget_congr (counts.2 _ ?_) (counts.2 _ ?_) rfl block).trans free
    all_goals
      simp only [List.mem_singleton, Reg.DMC_LAYOUT, Reg.DMC_REMAP_BASE, Reg.DMC_SLICE_UE]
      omega
  have first : judged = s.firstError client block target := by
    simp only [judged, if_neg isNew, if_neg hasRoom, same]
    rfl
  rw [first]
  split_ifs
  · exact .inr rfl
  · exact .inl rfl

/-- A block of channel `ch` has been remapped to `target`, by changes of the channel's own registers only. -/
structure Remapped (ch block target : Nat) (s t : State) : Prop where
  within : Within [.memory, .log, .nv, .free] (sliceRegs ch) s t
  remaps : t.memory.remaps = s.memory.remaps ++ [⟨block, target, true, []⟩]
  event : t.fld (Reg.DMC_EVENT_UE_REMAP ch) = 1
  used : t.fld (Reg.DMC_REMAP_USED ch) = s.fld (Reg.DMC_REMAP_USED ch) + 1

/-- The table's count takes one more row, at most to 4,096. -/
theorem State.addFld_used (room : s.fld (Reg.DMC_REMAP_USED ch) < 4096) :
    (s.addFld (Reg.DMC_REMAP_USED ch) 1).fld (Reg.DMC_REMAP_USED ch) = s.fld (Reg.DMC_REMAP_USED ch) + 1 := by
  have width : (Reg.DMC_REMAP_USED ch).width = 13 := rfl
  rw [State.addFld, State.fld_setFld_same _ _ _ (by simp [Reg.DMC_REMAP_USED]), width]
  omega

theorem remapped_remapTo (client : Nat) (room : s.fld (Reg.DMC_REMAP_USED ch) < 4096) :
    Remapped ch block target s (s.remapTo ch client block target) := by
  have apart : (Reg.DMC_EVENT_UE_REMAP ch).apart (Reg.DMC_REMAP_USED ch) = true := by
    simp [Fld.apart, Reg.DMC_EVENT_UE_REMAP, Reg.DMC_REMAP_USED, Reg.DMC_EVENT, Reg.DMC_REMAP]
  refine ⟨?_, ?_, ?_, ?_⟩ <;> unfold State.remapTo
  · refine within_trans (within_trans (within_trans (within_of_frame (frame_onMemory_keep s _ rfl) (by simp) nofun)
      (within_addFld _ 1 ?_)) (within_setFld _ 1 ?_)) (within_of_frame (frame_logUncoded _ _ _ _) (by simp) nofun)
    all_goals simp [sliceRegs, Reg.DMC_REMAP_USED, Reg.DMC_EVENT_UE_REMAP]
  · rw [State.logUncoded_memory, State.setFld_memory, State.addFld_memory, State.onMemory_memory]
  · rw [State.logUncoded_fld, State.fld_setFld_same _ _ _ (by simp [Reg.DMC_EVENT_UE_REMAP])]
    rfl
  · rw [State.logUncoded_fld, State.fld_setFld_apart _ _ _ _ apart, State.addFld_used (s := s.onMemory _) room, State.onMemory_fld]

/-- A state in which the channel's other reports have been made is remapped as before. -/
theorem Remapped.step {u : State} (h : Remapped ch block target s t) (w : Within [.memory, .log, .nv, .free] (sliceRegs ch) t u)
    (remaps : u.memory.remaps = t.memory.remaps) (event : u.fld (Reg.DMC_EVENT_UE_REMAP ch) = t.fld (Reg.DMC_EVENT_UE_REMAP ch))
    (used : u.fld (Reg.DMC_REMAP_USED ch) = t.fld (Reg.DMC_REMAP_USED ch)) : Remapped ch block target s u :=
  ⟨within_trans h.within w, remaps.trans h.remaps, event.trans h.event, used.trans h.used⟩

/-- The record of a failing slice, and the mirror move that it starts. -/
theorem within_sliceRecord {R : List Nat} (s : State) (ch id : Nat) : Within [.memory, .log, .nv, .free] R s
    ((s.retireRecord 7 0x0A id 0).tookFree.onMemory fun m => { m with moveFor := some ch }) := by
  have record : Frame [.nv, .log] [] s (s.retireRecord 7 0x0A id 0) := (frame_onNv s _).trans (frame_log _ _ _ _ _)
  exact within_of_frame ((record.trans (frame_tookFree _)).trans (frame_onMemory_keep _ _ rfl)) (by simp) nofun

theorem remapped_markFull (h : Remapped ch block target s t) : Remapped ch block target s (t.markFull ch) := by
  unfold State.markFull
  split_ifs
  · refine h.step (within_setFlds t (by simp [sliceRegs, Reg.DMC_STATUS_REMAP_FULL, Reg.DMC_EVENT_REMAP_FULL]))
      (by rw [State.setFlds_memory]) (State.fld_setFlds_apart t ?_) (State.fld_setFlds_apart t ?_)
    · simp [Fld.apart, Reg.DMC_STATUS_REMAP_FULL, Reg.DMC_EVENT_REMAP_FULL, Reg.DMC_EVENT_UE_REMAP, Reg.DMC_STATUS, Reg.DMC_EVENT]
    · simp [Fld.apart, Reg.DMC_STATUS_REMAP_FULL, Reg.DMC_EVENT_REMAP_FULL, Reg.DMC_REMAP_USED, Reg.DMC_STATUS, Reg.DMC_EVENT, Reg.DMC_REMAP]
  · exact h

theorem remapped_sliceFails (h : Remapped ch block target s t) (i : Nat) : Remapped ch block target s (t.sliceFails ch i) := by
  have failing (g : Fld) (status : (Reg.DMC_STATUS_FAILING ch).apart g = true) (event : (Reg.DMC_EVENT_SLICE_FAILING ch).apart g = true) :
      (t.sliceFails ch i).fld g = t.fld g := by
    simp only [State.sliceFails, State.retireRecord, State.onMemory_fld, State.tookFree_fld, State.log_fld, State.onNv_fld,
      State.fld_setFld_apart _ _ _ _ event, State.fld_setFld_apart _ _ _ _ status]
  refine h.step ?_ (by simp [State.sliceFails, State.retireRecord]) (failing _ ?_ ?_) (failing _ ?_ ?_)
  · have marks := within_trans (P := [.memory, .log, .nv, .free]) (R := sliceRegs ch)
      (within_setFld t (f := Reg.DMC_STATUS_FAILING ch) (setBitNat (t.fld (Reg.DMC_STATUS_FAILING ch)) i)
        (by simp [sliceRegs, Reg.DMC_STATUS_FAILING]))
      (within_setFld _ (f := Reg.DMC_EVENT_SLICE_FAILING ch) 1 (by simp [sliceRegs, Reg.DMC_EVENT_SLICE_FAILING]))
    exact within_trans marks (within_sliceRecord _ ch _)
  all_goals simp [Fld.apart, Reg.DMC_STATUS_FAILING, Reg.DMC_EVENT_SLICE_FAILING, Reg.DMC_EVENT_UE_REMAP, Reg.DMC_REMAP_USED, Reg.DMC_STATUS,
    Reg.DMC_EVENT, Reg.DMC_REMAP]

theorem remapped_blockError (client : Nat) (new : ∀ r ∈ s.memory.remaps, r.block ≠ block) (free : s.remapTarget block = some target)
    (room : s.fld (Reg.DMC_REMAP_USED (s.sliceOf block).1) < 4096) : Remapped (s.sliceOf block).1 block target s (s.blockError client block) := by
  have counts : Within [] [Reg.DMC_SLICE_UE (s.sliceOf block).1] s
      (s.addFld (sliceUe (s.sliceOf block).1 (s.sliceIndex block)) 1) := within_addFld s 1 (by simp [sliceUe_addr])
  have used := within_fld counts (g := Reg.DMC_REMAP_USED (s.sliceOf block).1) (by simp [Reg.DMC_REMAP_USED, Reg.DMC_REMAP, Reg.DMC_SLICE_UE])
  have added := remapped_remapTo (block := block) (target := target) client (used.trans_lt room)
  have first : Remapped (s.sliceOf block).1 block target s (s.firstError client block target) :=
    remapped_markFull ⟨within_trans (within_mono counts (by simp) (by simp [sliceRegs])) added.within, added.remaps, added.event,
      added.used.trans (congrArg (· + 1) used)⟩
  rcases State.blockError_first (client := client) new free room with h | h <;> rw [h]
  · exact first
  · exact remapped_sliceFails first _

/-! ### A find, and the block's remap (R351, R352) -/

/-- What a find leaves: the record, and the flipped word. -/
theorem State.blockFound_eq (s : State) (client block : Nat) : Within [.memory] ueRegs s (s.blockFound client block) ∧
    (s.blockFound client block).memory.remaps = s.memory.remaps ∧ (s.blockFound client block).fld Reg.ERC_EVENT_DRAM_UE = 1 := by
  unfold State.blockFound
  split_ifs
  · obtain ⟨within, memory, event⟩ := s.uncorrectable_dram client (dramBase + block * 4096) false
    exact ⟨within_mono within (by simp) (List.Subset.refl _), congrArg Memory.remaps memory, event⟩
  · obtain ⟨within, memory, event⟩ := (s.setFlips (dramBase + block * 4096) ⟨3, 0, 0⟩).uncorrectable_dram client
      (dramBase + block * 4096) false
    exact ⟨within_trans (within_of_frame (frame_setFlips s _ _) (by simp) nofun) (within_mono within (by simp) (List.Subset.refl _)),
      (congrArg Memory.remaps memory).trans rfl, event⟩

section
variable (client : Nat) (new : ∀ r ∈ s.memory.remaps, r.block ≠ block) (free : s.remapTarget block = some target)
  (room : s.fld (Reg.DMC_REMAP_USED (s.sliceOf block).1) < 4096) (chan : (s.sliceOf block).1 < 12)
include new free room chan

theorem remapped_of_found : Remapped (s.sliceOf block).1 block target (s.blockFound client block)
      ((s.blockFound client block).blockError client block) ∧
    (s.blockFound client block).fld (Reg.DMC_REMAP_USED (s.sliceOf block).1) = s.fld (Reg.DMC_REMAP_USED (s.sliceOf block).1) := by
  obtain ⟨within, remaps, -⟩ := s.blockFound_eq client block
  have layout := within.2 Reg.DMC_LAYOUT (by decide)
  have slice := State.sliceOf_congr layout block
  have apart : (Reg.DMC_REMAP_USED (s.sliceOf block).1).addr ∉ ueRegs := by
    simp only [ueRegs, List.mem_cons, List.not_mem_nil, or_false, Reg.DMC_REMAP_USED, Reg.DMC_REMAP, Reg.ERC_UE, Reg.ERC_EVENT, Reg.ERC_LAST,
      Reg.ERC_LAST_ADDR_LO, Reg.ERC_LAST_ADDR_HI]
    omega
  have used := within_fld within apart
  have target' := (State.remapTarget_congr layout (within.2 Reg.DMC_REMAP_BASE (by decide)) remaps block).trans free
  refine ⟨?_, used⟩
  rw [← slice]
  exact remapped_blockError client (remaps ▸ new) target' (by rw [slice, used]; exact room)

end

/-! ### The end of a copy (R352) -/

theorem exec_remapCopyComplete {r : Remap} (hr : r ∈ s.memory.remaps) (copying : r.copying = true) :
    ∃ flips, exec (.remapCopyComplete r.block) s = .next (s.onMemory fun m =>
      { m with remaps := updIf (fun q => q.block == r.block) (fun q => { q with copying := false, lines := [] }) m.remaps, flips := flips }) ∧
      ∀ f ∈ s.memory.flips, f.1 < dramBase + r.block * 4096 ∨ dramBase + r.block * 4096 + 4096 ≤ f.1 → f ∈ flips := by
  have copies : s.memory.remaps.any (fun q => q.block == r.block && q.copying) = true :=
    List.any_eq_true.2 ⟨r, hr, by simp [copying]⟩
  refine ⟨_, congrArg Host.Outcome.next (if_pos copies), fun f hf outside => ?_⟩
  have out : (decide (dramBase + r.block * 4096 ≤ f.1) && decide (f.1 < dramBase + r.block * 4096 + 4096)) = false := by
    rw [Bool.and_eq_false_iff, decide_eq_false_iff_not, decide_eq_false_iff_not]
    omega
  exact List.mem_map.2 ⟨f, List.mem_filter.2 ⟨hf, by simp only [out]; rfl⟩, by simp only [out]; rfl⟩

theorem remapCopyComplete_does {r : Remap} (hr : r ∈ s.memory.remaps) (copying : r.copying = true) :
    Does (.remapCopyComplete r.block) s [.memory] [] fun t =>
      (∀ q ∈ t.memory.remaps, q.block = r.block → q.copying = false) ∧
        (∀ q ∈ s.memory.remaps, q.block ≠ r.block → q ∈ t.memory.remaps) ∧
        ∀ f ∈ s.memory.flips, f.1 < dramBase + r.block * 4096 ∨ dramBase + r.block * 4096 + 4096 ≤ f.1 → f ∈ t.memory.flips := by
  obtain ⟨flips, run, outside⟩ := exec_remapCopyComplete hr copying
  refine ⟨_, run, frame_onMemory_keep s _ rfl, fun q hq same => ?_, fun q hq other => ?_, outside⟩
  · rcases mem_updIf hq with ⟨x, -, -, rfl⟩ | ⟨-, other⟩
    · rfl
    · exact absurd same (by simpa using other)
  · rw [State.onMemory_memory, updIf_eq_map]
    exact List.mem_map.2 ⟨q, hq, if_neg (by simpa using other)⟩

/-- Settles O21: a find is recorded and its block remapped; the end of the copy rewrites that block's row and flips alone. -/
theorem uncorrectableBlocksAreRemapped : Obligations.UncorrectableBlocksAreRemapped := by
  unfold Obligations.UncorrectableBlocksAreRemapped
  refine ⟨fun s block client target _ new free room chan => ⟨?_, fun ch on own => ?_⟩, fun s r hr copying => remapCopyComplete_does hr copying⟩
  · obtain ⟨found, remaps, recorded⟩ := s.blockFound_eq client block
    obtain ⟨remapped, used⟩ := remapped_of_found client new free room chan
    have kept := remapped.within
    have part (p : Part) (hp : p ∉ [Part.memory, .log, .nv, .free]) :
        p.same s ((s.blockFound client block).blockError client block) :=
      Part.same_trans (found.1 p fun h => hp (by simp [List.mem_singleton.1 h])) (kept.1 p hp)
    refine ⟨_, exec_dramUncorrectable, remapped.remaps.trans (by rw [remaps]), State.remapTarget_slice free, remapped.event,
      (within_fld kept (erc_event_notMem_sliceRegs chan)).trans recorded, remapped.used.trans (by rw [used]), part .bytes (by decide),
      part .host (by decide), part .galley (by decide)⟩
  · obtain ⟨-, remaps, -⟩ := s.blockFound_eq 0x3FF block
    obtain ⟨remapped, -⟩ := remapped_of_found 0x3FF new free room chan
    exact ⟨_, exec_scrubUncorrectable on own, remapped.remaps.trans (by rw [remaps]), own ▸ remapped.event⟩

end Sys2Proof.Machine
end
